-- ==== Sys2Proof/Word.lean ====
section
/-! DEFINITION. The word types and their plainest arithmetic (R3, R4). -/

namespace Sys2Proof

/-- One byte. -/
abbrev Byte := BitVec 8

/-- One 64-bit word of a Tarn, a register or a record. -/
abbrev Word := BitVec 64

/-- A 32-bit register. -/
abbrev Word32 := BitVec 32

/-- One 128-bit operation word (R134). -/
abbrev OpWord := BitVec 128

/-- Bits `[lo + n − 1 : lo]` of `x`, read as one unsigned integer (R3). -/
def bits (x lo n : Nat) : Nat := x >>> lo % 2 ^ n

/-- Bit `i` of `x` (R3). -/
def bit (x i : Nat) : Bool := x >>> i % 2 == 1

/-- Bytes read as one unsigned little-endian integer (R4). -/
def leNat : List Byte → Nat
  | [] => 0
  | b :: bs => b.toNat + 256 * leNat bs

/-- The `n` little-endian bytes of `x` (R4). -/
def toLe : Nat → Nat → List Byte
  | 0, _ => []
  | n + 1, x => BitVec.ofNat 8 x :: toLe n (x / 256)

/-- `⌈a / b⌉`. -/
def ceilDiv (a b : Nat) : Nat := (a + b - 1) / b

/-- `a` rounded up to a multiple of `b`. -/
def roundUp (a b : Nat) : Nat := ceilDiv a b * b

/-- A bit from a Boolean. -/
def b2n (b : Bool) : Nat := if b then 1 else 0

/-- `bytes[off .. off + n)`, zero beyond the end. -/
def sliceB (bs : List Byte) (off n : Nat) : List Byte :=
  let t := (bs.drop off).take n
  t ++ List.replicate (n - t.length) 0

/-- The little-endian field of `n` bytes at `off` of a structure in memory (R3, R4). -/
def field (bs : List Byte) (off n : Nat) : Nat := leNat ((bs.drop off).take n)

end Sys2Proof
end

