-- ==== Sys2Proof/Syntax.lean ====
section
/-! DEFINITION. The commands: one constructor for each row of spec/opcode_table.json, with the operands that come from
outside the block (95_what_each_step_holds.md). -/

namespace Sys2Proof

/-- Wrong bits that have come about in one stored Tarn word since it was last written: word address and their number
(R111). -/
abbrev Upset := Nat × Nat

/-- The outcome of an operation's own checks at its output (R40, R348, R349, R353). -/
inductive Check where
  | pass
  /-- A residue or parity check of the engine failed. -/
  | residue
  /-- A check of the steering unit's own state failed. -/
  | steering
deriving DecidableEq, Repr

/-- A PCI Express error that AER reports (R312): a poisoned completion, an Unsupported Request, a Completer Abort, or a completion
timeout. -/
inductive AerError where
  | poisoned | unsupported | abort | timeout
deriving DecidableEq, Repr

/-- What the module's own reads of host memory returned (R312): the bytes, or those before a read that failed, and how it failed. -/
inductive Dma where
  | data (bytes : List Byte)
  | failed (error : AerError) (before : List Byte)
deriving DecidableEq, Repr

/-- What the side port reads (R120). -/
inductive SideSpace where
  | tarn | channels | tarnRegs | opStore | observation
deriving DecidableEq, Repr

/-- Features of the host port that R307 lists, each with a capability structure or without one. -/
inductive PciFeature where
  | flitMode | sriov | pasid | ats | pri | msi | intx | msix | aer | flr | powerManagement | noSoftReset | aspm | resizableBar
  | ptm | doe | ide | tph | atomics
deriving DecidableEq, Repr

/-- What a configuration request reads or writes, by its name (R307, R308). -/
inductive ConfigField where
  | vendorId | deviceId | headerType | classCode
  /-- Size of a base address register in bytes; 0 of one that holds an upper half. -/
  | barSize (n : Nat)
  | feature (f : PciFeature)
  | tags | vectors
  /-- The negotiated width in lanes and rate in 0.1 GT/s, the surprise-down status, the width of tags in bits, and the AER status: bit 0
  poisoned completion, 1 Unsupported Request, 2 Completer Abort, 3 completion timeout. -/
  | linkLanes | linkRate | surpriseDown | tagBits | aerStatus
  | maxPayload | maxRead | relaxed | ecrc
  /-- 0 D0, 3 D3hot. -/
  | powerState
deriving DecidableEq, Repr

/-- The identity the far side of a Filzor link sends in `IDENTIFY` (R273); `id` is `none` while it has no coordinates. -/
structure FarId where
  id : Option Nat
  port : Nat
  dims : Nat
  master : Nat
  epoch : Nat
deriving DecidableEq, Repr

/-- A Filzor packet: the header of R280 and its payload. -/
structure Packet where
  kind : Nat
  flits : Nat
  epoch : Nat
  dateline : Bool
  cls : Nat
  poison : Bool
  hops : Nat
  dst : Nat
  src : Nat
  dstConn : Nat
  srcConn : Nat
  stamp : Nat
  connGen : Nat
  seq : Nat
  low : Nat
  addr : Nat
  length : Nat
  status : Nat
  window : Nat
  opaque_ : Nat
  payload : List Byte
  crc : Nat
deriving DecidableEq, Repr

/-- The fields of a link flit (R271). -/
structure LinkFlit where
  beacon : Bool
  nak : Bool
  retrainReq : Bool
  ackValid : Bool
  ackCsn : Nat
  nakCsn : Nat
  credits : List Nat
  txCairn : Nat
  txFrac : Nat
  beaconSeq : Nat
  rxCairn : Nat
  rxFrac : Nat
  echoSeq : Nat
  masterValid : Bool
  master : Nat
  depth : Nat
deriving DecidableEq, Repr

/-- A flit slot of a codeword (R270): a packet's flit, by its number from the header on, or a link flit. -/
inductive Slot where
  | fabric (packet : Packet) (flit : Nat)
  | link (l : LinkFlit)
deriving DecidableEq, Repr

/-- A codeword (R270, R275): as received, the number of wrong symbols; its `CSN`, and its ten flit slots. -/
structure Codeword where
  wrong : Nat
  csn : Nat
  slots : List Slot
deriving DecidableEq, Repr

/-- A write to BAR0: offset, size in bytes and value (R476). -/
structure BarWrite where
  off : Nat
  size : Nat
  value : Nat
deriving DecidableEq, Repr

/-- The two sideband addresses (R499). -/
inductive SmbusSet where
  | hotSwap | management
deriving DecidableEq, Repr

/-- The readings of one power sample (R410): input in mV, power in W averaged over 10 ms and over 100 ms, current in
units of 10 mA averaged over 1 ms and at this instant, and the hottest sensors in °C (R501). -/
structure PowerReading where
  mv : Nat
  w10 : Nat
  w100 : Nat
  i1 : Nat
  iNow : Nat
  computeC : Nat
  ioC : Nat
  hbmC : Nat
deriving DecidableEq, Repr

/-- The parts that carry a fault score (R371). -/
inductive PartKind where
  | tile | tarn | router | link | slice | cxl | filzor | phase
deriving DecidableEq, Repr

/-- What the tests of a start phase or a recovery stage found (R425, R428, R435, R442). -/
structure StartReport where
  /-- The firmware image in the ledger reads as it was written, and the defect list passes its CRC. -/
  image : Bool
  defectList : Bool
  /-- Parts whose test failed, and parts whose test could not run, as kind (R433) and ID. -/
  failed : List (Nat × Nat)
  untested : List (Nat × Nat)
  /-- CXL devices found: port, type, serial number, GiB. -/
  devices : List (Nat × Nat × Nat × Nat)
  /-- The stream tracker and the bridge passed, and the module area was initialised. -/
  tracker : Bool
  bridge : Bool
  area : Bool
  coverage : Nat
  durationMs : Nat
  /-- The serial numbers that the HBM stacks answer with, and the stacks that failed the check pattern behind a training from saved
  values (R429). -/
  serials : List (Nat × Nat) := []
  pattern : List Nat := []
  /-- The width in lanes and the rate in 0.1 GT/s that the host link trained to (R307). -/
  hostLanes : Nat := 16
  hostRate : Nat := 640
deriving DecidableEq, Repr

/-- What a test slice found (R442). -/
structure SliceReport where
  coverage : Nat
  failures : List (Nat × Nat)
  durationMs : Nat
deriving DecidableEq, Repr

/-- Why the monitor does not know a line (R509, R510). -/
inductive BadLine where
  | malformed | tooLong | unknown
deriving DecidableEq, Repr

/-- The commands (spec/opcode_table.json). An operand with a default may be left out where the event is the plain one: no parity
error, no access without a response, nothing held back. -/
inductive Instr where
  /-- `MMA` (R38). The matrix engine fires a block multiply-accumulate of M rows, inner length K and N columns on one accumulator bank. -/
  | mma (t k : Nat) (u : List Upset)
  /-- `MTRN` (R51). The matrix engine fires a 64 by 64 transpose of 8-, 16- or 32-bit elements. -/
  | mtrn (t k : Nat) (u : List Upset)
  /-- `VADD` (R86). The vector engine fires an element-wise add, rounded once to the output format, with INT32 saturating. -/
  | vadd (t k : Nat) (u : List Upset)
  /-- `VSUB` (R86). The vector engine fires an element-wise subtract, rounded once to the output format. -/
  | vsub (t k : Nat) (u : List Upset)
  /-- `VMUL` (R86). The vector engine fires an element-wise multiply, rounded once to the output format. -/
  | vmul (t k : Nat) (u : List Upset)
  /-- `VFMA` (R86). The vector engine fires a fused multiply-add a × b + c, rounded once in FP32. -/
  | vfma (t k : Nat) (u : List Upset)
  /-- `VMAX` (R86). The vector engine fires an element-wise maximum, with NaN propagating and −0 ordered below +0. -/
  | vmax (t k : Nat) (u : List Upset)
  /-- `VMIN` (R86). The vector engine fires an element-wise minimum, with NaN propagating and −0 ordered below +0. -/
  | vmin (t k : Nat) (u : List Upset)
  /-- `VCMP` (R44). The vector engine fires a comparison under an IEEE quiet predicate and writes a bit mask. -/
  | vcmp (t k : Nat) (u : List Upset)
  /-- `VSEL` (R44). The vector engine fires a selection of a or b under a mask, for formats without block scales. -/
  | vsel (t k : Nat) (u : List Upset)
  /-- `VCVT` (R71). The vector engine fires a format conversion that rounds once under RMODE and saturates under SAT. -/
  | vcvt (t k : Nat) (u : List Upset)
  /-- `VSCALE` (R87). The vector engine fires a multiplication by E8M0 scales per element, row or block. -/
  | vscale (t k : Nat) (u : List Upset)
  /-- `VRSUM` (R86). The vector engine fires a row sum by exact block accumulation. -/
  | vrsum (t k : Nat) (u : List Upset)
  /-- `VRMAX` (R86). The vector engine fires a row maximum. -/
  | vrmax (t k : Nat) (u : List Upset)
  /-- `VRSSQ` (R86). The vector engine fires a row sum of squares by exact block accumulation. -/
  | vrssq (t k : Nat) (u : List Upset)
  /-- `VABSMAX` (R87). The vector engine fires a block absolute-maximum operation and writes E8M0 scale bytes. -/
  | vabsmax (t k : Nat) (u : List Upset)
  /-- `VUPD` (R94). The vector engine fires an update of an XM40 master weight by an FP32 value, rounded once. -/
  | vupd (t k : Nat) (u : List Upset)
  /-- `XCOMB` (R59). The vector engine fires the gate-weighted combine of expert contributions in rank order. -/
  | xcomb (t k : Nat) (u : List Upset)
  /-- `FEXP` (R42). The special-function unit fires a correctly rounded FP32 exponential. -/
  | fexp (t k : Nat) (u : List Upset)
  /-- `FLOG` (R42). The special-function unit fires a correctly rounded FP32 natural logarithm. -/
  | flog (t k : Nat) (u : List Upset)
  /-- `FRCP` (R42). The special-function unit fires a correctly rounded FP32 reciprocal. -/
  | frcp (t k : Nat) (u : List Upset)
  /-- `FRSQ` (R42). The special-function unit fires a correctly rounded FP32 reciprocal square root. -/
  | frsq (t k : Nat) (u : List Upset)
  /-- `FSINCOS` (R44). The special-function unit fires sine and cosine and writes them as interleaved pairs. -/
  | fsincos (t k : Nat) (u : List Upset)
  /-- `TOPK` (R45). The special-function unit fires a selection of the k largest scores per row, with their column indices. -/
  | topk (t k : Nat) (u : List Upset)
  /-- `SLOAD` (R153). The stream engine fires a memory-plane load, or with PASS it passes on or loads expert overflow rows. -/
  | sload (t k : Nat) (u : List Upset)
  /-- `SSTORE` (R48). The stream engine fires a memory-plane store from the Tarn. -/
  | sstore (t k : Nat) (u : List Upset)
  /-- `SGATHER` (R141). The stream engine fires a gather from a list of global addresses. -/
  | sgather (t k : Nat) (u : List Upset)
  /-- `SSCATTER` (R141). The stream engine fires a scatter to a list of global addresses. -/
  | sscatter (t k : Nat) (u : List Upset)
  /-- `SMCAST` (R260). The stream engine fires a multicast of bytes to one Bunting. -/
  | smcast (t k : Nat) (u : List Upset)
  /-- `XDISP` (R56). The stream engine fires expert dispatch of rows to expert Buntings, followed by count records. -/
  | xdisp (t k : Nat) (u : List Upset)
  /-- `CSEND` (R147). The stream engine fires a circuit send of the words its token names against a posted receive. -/
  | csend (t k : Nat) (u : List Upset)
  /-- `CRECV` (R147). The stream engine fires a posted receive of words on a circuit. -/
  | crecv (t k : Nat) (u : List Upset)
  /-- `WLOAD` (R49). The stream engine fires a weight load into a tile-window half, with a CRC-32C check per 2 KiB block. -/
  | wload (t k : Nat) (u : List Upset)
  /-- `CHSEND` (R52). The steering unit fires the sending of one 64-bit word on a message channel, spending a credit. -/
  | chsend (t k : Nat) (u : List Upset)
  /-- `CHRECV` (R53). The steering unit fires the receipt of one channel word into a scalar register and returns a credit. -/
  | chrecv (t k : Nat) (u : List Upset)
  /-- `CHPOLL` (R53). The steering unit fires a copy of CH_READY and CH_SPACE into two scalar registers. -/
  | chpoll (t k : Nat) (u : List Upset)
  /-- `SCALC` (R143). The steering unit fires 64-bit scalar arithmetic, or a Tarn load or store. -/
  | scalc (t k : Nat) (u : List Upset)
  /-- `PSEND` (R143). The steering unit fires the emission of a Pennant on its output queue. -/
  | psend (t k : Nat) (u : List Upset)
  /-- `SUMMIT` (R256). The steering unit fires a barrier and sends an arrive flit to the Bunting's Summit counter. -/
  | summit (t k : Nat) (u : List Upset)
  /-- `OPERATION_COMPLETE` (R24). An operation with fixed timing commits its results and emits its tokens at cycle f + I + P, with its integrity checks. -/
  | operationComplete (t id : Nat) (chk : Check)
  /-- `MEMORY_OPERATION_COMPLETE` (R48). A memory-plane operation completes once every byte has landed or been acknowledged, and not before f + I. -/
  | memoryOperationComplete (t id : Nat) (bad : Bool := false)
  /-- `LOCAL_REPLAY` (R353). An operation that failed its residue or parity check fires again from intact inputs. -/
  | localReplay (t id : Nat) (u : List Upset)
  /-- `LOAD_STEP_NOTICE` (R31). A matrix operation becomes ready after an idle period; a load-step notice is sent and firing is delayed by 128 cycles. -/
  | loadStepNotice (t k : Nat)
  /-- `TOKEN_ARRIVAL` (R28). A token or Pennant arrives at a queue or pairing share and counts toward readiness from the next turn. -/
  | tokenArrival (t q : Nat)
  /-- `CREDIT_RETURN` (R28). A credit returns to a producer and counts toward readiness from the next turn. -/
  | creditReturn (t q : Nat)
  /-- `CHANNEL_WORD_ARRIVAL` (R53). A message-channel word arrives in a receive queue, with a parity check. -/
  | channelWordArrival (t c : Nat) (bad : Bool)
  /-- `EXPERT_ROW_ARRIVAL` (R57). A dispatched row arrives at an expert tile and is placed in the input area or the overflow area. -/
  | expertRowArrival (t q : Nat) (bad : Option Nat := none) (busy : List Nat := []) (held : List (Nat × Nat) := [])
      (back : List Nat := [])
  /-- `EXPERT_COUNT_RECORD` (R152). A count record arrives; when the completion count closes, group tokens are placed in the dispatch queue. -/
  | expertCountRecord (t q : Nat) (bad : Option Nat := none) (busy : List Nat := []) (held : List (Nat × Nat) := [])
      (back : List Nat := [])
  /-- `MPLANE_RESPONSE` (R48). Read data or a write acknowledgement arrives at a tile over the memory plane. -/
  | mplaneResponse (t id pc : Nat) (bad : Option Nat) (busy : List Nat := [])
  /-- `MPLANE_REQUEST` (R221). A read or write request reaches a memory slice and is served atomically in 64-byte units, with ECC. -/
  | mplaneRequest (t id pc : Nat) (bad : Option Nat) (sym : List (Nat × Nat)) (busy : List Nat) (held : List (Nat × Nat) := [])
      (back : List Nat := [])
  /-- `MULTICAST_BRANCH_RELEASE` (R259). A credit returns to a held multicast branch, and the branching router sends the held copy. -/
  | multicastBranchRelease (t id pc : Nat) (r b : Nat := 0) (held : List (Nat × Nat) := []) (back : List Nat := [])
  /-- `SUMMIT_ARRIVE` (R256). An arrive flit reaches a Summit counter, which sends release flits once every member has arrived. -/
  | summitArrive (t id : Nat) (bad : Option Nat := none)
  /-- `SUMMIT_RELEASE` (R256). A release flit reaches a member, and its SUMMIT completes. -/
  | summitRelease (t id : Nat) (bad : Option Nat := none)
  /-- `ABANDON_FLIT` (R357). An abandon flit reaches a tile, which stops firing, discards the graph's state and returns to its bound state. -/
  | abandonFlit (t : Nat)
  /-- `ABANDON_DRAIN_DONE` (R357). The writes of the abandoned passes have drained; re-placement and shadow changes are made and the batches are delivered again. -/
  | abandonDrainDone (g : Nat)
  /-- `TARN_CLEAR_DONE` (R109). The clearing of a Tarn through slot 6 completes, and the tile may fire its first operation. -/
  | tarnClearDone (t : Nat)
  /-- `TARN_PATROL_READ` (R115). The patrol reader reads one 2 KiB run in an unused slot 8, at most once every 64 turns. -/
  | tarnPatrolRead (t : Nat) (u : List Upset)
  /-- `TARN_PATROL_WRITE_BACK` (R116). Patrol writes back a corrected word in the next free slot 8, unless a newer write has reached it. -/
  | tarnPatrolWriteBack (t : Nat)
  /-- `SIDE_READ` (R120). The side port reads a Tarn or register word for the dump engine or the Ensign, without taking a slot. -/
  | sideRead (t : Nat) (space : SideSpace) (addr : Nat) (u : List Upset)
  /-- `SIDE_ACCESS_TIMEOUT` (R121). A side access unfinished after 50 µs is abandoned, and its range is recorded as unreachable. -/
  | sideAccessTimeout (t unit_ : Nat)
  /-- `TARN_STAGING_WRITE` (R122). A write in space 0b10 reaches a Tarn; it is applied to unbound tiles, or to bound tiles in SERVICE, and refused otherwise. -/
  | tarnStagingWrite (addr : Nat) (bytes : List Byte)
  /-- `TARN_STAGING_READ` (R219). A read in space 0b10 reads a Tarn through the side port, or is refused for a Tarn that is OFF. -/
  | tarnStagingRead (addr n : Nat)
  /-- `STAGED_TILE_TIMEOUT` (R123). A staged tile has had no staging access for 1 s and leaves the staged state. -/
  | stagedTileTimeout (t : Nat)
  /-- `GRAPH_LOAD` (R154). The descriptor checks, seals, places and binds a graph image, or stages a RECONFIG. -/
  | graphLoad (d : Nat) (img : Dma) (dead : Option Nat := none)
  /-- `GRAPH_UNLOAD` (R338). The descriptor stops the graph's batch issue and waits for its harvests to end. -/
  | graphUnload (d : Nat)
  /-- `GRAPH_UNLOAD_COMPLETE` (R338). The last harvest of an unloading graph ends; its streams end and its resources are released. -/
  | graphUnloadComplete (g : Nat)
  /-- `CLASS_POLICY` (R339). The descriptor sets class budgets, pool orders, watermarks and the period length of a graph. -/
  | classPolicy (d : Nat)
  /-- `STATUS_READ` (R340). The descriptor copies an observation block or a tile's Tarn registers to a host buffer. -/
  | statusRead (d : Nat)
  /-- `BURGEE_PASS` (R165). A unit passes the Burgee once its old work has committed and switches to the staged configuration. -/
  | burgeePass (t : Nat)
  /-- `BURGEE_SWITCH_COMPLETE` (R166). A unit's switch of 64 turns and its clearing end, and the unit grants the credits of its new queue table. -/
  | burgeeSwitchComplete (t : Nat)
  /-- `SCHEDULE_VIOLATION` (R160). A circle of wait edges in a native graph has persisted for 65,536 cycles; the pass is abandoned and the graph moves to mode D. -/
  | scheduleViolation (g : Nat) (circle : List (Nat × Nat))
  /-- `CYCLIC_WAIT` (R170). A circle of wait edges in compatibility mode has persisted for 4,096 cycles, and one queue is spilled to Scree. -/
  | cyclicWait (g : Nat) (circle : List (Nat × Nat))
  /-- `SCREE_REFILL` (R170). The local entries of a spilled queue drain, and the stream engine refills them from the front of the Scree segment. -/
  | screeRefill (t q : Nat)
  /-- `QUEUE_DEPTH_SAMPLE` (R174). At each multiple of sample_interval, every tile records its queue depths into the sample ring. -/
  | queueDepthSample (g : Nat)
  /-- `STREAM_OPEN` (R184). The descriptor takes a stream index, copies the prompt and writes a PENDING record. -/
  | streamOpen (d : Nat) (prompt : Dma)
  /-- `STREAM_EXTEND` (R185). The descriptor appends host tokens to a DECODE stream and returns it to PENDING. -/
  | streamExtend (d : Nat) (prompt : Dma)
  /-- `STREAM_CANCEL` (R186). The descriptor sets CANCEL_REQ, and a stream with no step in flight ends at once. -/
  | streamCancel (d : Nat)
  /-- `STREAM_QUERY` (R342). The descriptor writes the stream's record, as it stands at one instant, to a host buffer. -/
  | streamQuery (d : Nat)
  /-- `STREAM_FINAL_RECORD` (R186). An ENDING stream's final completion record finds a free entry and is written; the index is freed and its pages are returned. -/
  | streamFinalRecord (idx : Nat)
  /-- `DEADLINE_EXPIRY` (R189). The tracker finds an unmet deadline passed; it breaks once, and the deadline moves on. -/
  | deadlineExpiry (idx : Nat)
  /-- `PERIOD_SELECTION` (R199). At Q(k) the scheduler selects the decode batch and the planned prefill chunks of period k. -/
  | periodSelection (g : Nat)
  /-- `PERIOD_BATCH_ISSUE` (R198). At S(k) the decode batch of period k is issued, after any trimming. -/
  | periodBatchIssue (g : Nat)
  /-- `SLICE_BOUNDARY` (R201). At each 1 ms slice boundary an admission batch is formed, with class 0 first and displaced chunks moved on. -/
  | sliceBoundary (g : Nat)
  /-- `BATCH_DELIVERY` (R203). Once an entry holds a credit, the batch data, its token and its Pennant are delivered to each entry tile. -/
  | batchDelivery (g kind seq : Nat) (bad : Option Nat := none)
  /-- `POWER_FORECAST` (R412). 20 µs before a batch issue, the tracker sends the power manager a work forecast. -/
  | powerForecast (g : Nat)
  /-- `HARVEST` (R213). After a verified done-word write, the tracker journals, updates records, writes token records and the saved tail. -/
  | harvest (g kind seq : Nat)
  /-- `KV_PAGE_MIGRATION` (R233). The tracker demotes or promotes whole streams' KV pages when a pool crosses a watermark. -/
  | kvPageMigration (g : Nat)
  /-- `KV_PAGE_MOVE_DONE` (R234). A page copy ends; the page-list entry is rewritten and the old page returns to its pool. -/
  | kvPageMoveDone (g idx entry : Nat) (ok : Bool)
  /-- `MEM_COPY` (R235). The descriptor copies a byte range between two global addresses. -/
  | memCopy (d : Nat) (dead : Option Nat)
  /-- `HOST_COPY` (R343). The descriptor copies between host memory and device memory in either direction. -/
  | hostCopy (d : Nat) (data : Dma) (dead : Option Nat)
  /-- `HBM_PATROL_READ` (R236). A slice group's patrol reads the next line, writes it back if corrected and poisons it if uncorrectable. -/
  | hbmPatrolRead (sg slice wrong : Nat)
  /-- `RETIRE_FRAME_COPIED` (R239). The slot acknowledges a frame copy; its redirect bit is set and the next frame is copied. -/
  | retireFrameCopied (slice : Nat) (dead : Bool := false)
  /-- `CXL_ACCESS_TIMEOUT` (R229). A CXL access draws no response within 2 ms and completes REMOTE_UNREACHABLE. -/
  | cxlAccessTimeout (t id pc : Nat)
  /-- `CXL_RANGE_LOST` (R230). A surprise removal, a link failure or a viral indication takes a range out of service, and streams with pages on it end. -/
  | cxlRangeLost (r port : Nat)
  /-- `CXL_DEVICE_INSERT` (R231). After a hot-plug indication, a CXL device is enumerated and mapped to its former range or the lowest free one. -/
  | cxlDeviceInsert (port kind serial gib : Nat)
  /-- `CXL_REMOVE` (R459). The descriptor begins a managed removal of a range and promotes its KV pages. -/
  | cxlRemove (d : Nat)
  /-- `CXL_REMOVE_PROCEED` (R230). The range holds no KV page, or FORCE is set; the range leaves service and the descriptor completes. -/
  | cxlRemoveProceed (r : Nat)
  /-- `CXL_EVENT_RECORD` (R228). The Ensign reads a General Media or DRAM event record and adds to the range's fault score. -/
  | cxlEventRecord (r : Nat)
  /-- `BAR2_READ` (R309). A host read through BAR2 reaches the flat device map. -/
  | bar2Read (off n : Nat) (dead : Bool := false)
  /-- `BAR2_WRITE` (R309). A host write through BAR2 reaches the flat device map, and is dropped in the module area. -/
  | bar2Write (off : Nat) (bytes : List Byte) (dead : Bool := false)
  /-- `FZ_SIGNAL_DETECT` (R272). A port in DETECT finds signal on its lanes and moves to EQUALISE. -/
  | fzSignalDetect (p : Nat)
  /-- `FZ_EQUALISE_DONE` (R272). Equalisation completes, and the port moves to ALIGN. -/
  | fzEqualiseDone (p : Nat)
  /-- `FZ_EQUALISE_TIMEOUT` (R272). After 50 ms in EQUALISE the port goes DOWN. -/
  | fzEqualiseTimeout (p : Nat)
  /-- `FZ_ALIGN_DONE` (R274). Lanes deskew and codeword lock is found, at 8 lanes or at 4; the port moves to IDENTIFY. -/
  | fzAlignDone (p failed : Nat)
  /-- `FZ_ALIGN_TIMEOUT` (R272). After 5 ms in ALIGN the port returns to EQUALISE. -/
  | fzAlignTimeout (p : Nat)
  /-- `FZ_IDENTIFY_EXCHANGE` (R273). The far side's identity arrives and is checked; the port goes UP or HELD. -/
  | fzIdentifyExchange (p : Nat) (far : FarId)
  /-- `FZ_HELD_RETRY` (R272). Every 100 ms a HELD port repeats IDENTIFY. -/
  | fzHeldRetry (p : Nat) (far : FarId)
  /-- `FZ_DOWN_RETRY` (R272). Every 1 s a DOWN port repeats training from DETECT. -/
  | fzDownRetry (p : Nat)
  /-- `FZ_CODEWORD_RECEIVE` (R277). A codeword is FEC-decoded and accepted in CSN order, its link flit handles acknowledgements, NAKs, credits and beacons, and NAKs are sent. -/
  | fzCodewordReceive (p : Nat) (cw : Codeword) (frac : Nat := 0)
  /-- `FZ_LOCK_LOSS` (R278). A port loses codeword lock and enters RETRAIN. -/
  | fzLockLoss (p : Nat)
  /-- `FZ_RETRAIN_DONE` (R278). A retrain succeeds, and the port resumes UP from the first unacknowledged CSN. -/
  | fzRetrainDone (p : Nat) (ok : Bool)
  /-- `FZ_RETRAIN_TIMEOUT` (R278). Three failed retrains, or 10 ms in RETRAIN, take the port DOWN and drop its packets. -/
  | fzRetrainTimeout (p : Nat)
  /-- `FZ_BEACON_SEND` (R304). Every 1 µs each UP port sends a time-stamped beacon link flit. -/
  | fzBeaconSend (p : Nat) (frac : Nat := 0)
  /-- `FZ_TIME_HOLDOVER` (R305). No beacon has come from the parent for 100 µs, and the module runs on its own clock. -/
  | fzTimeHoldover
  /-- `FZ_PACKET_FORWARD` (R286). A router routes an arriving packet by dimension order under its epoch table, or drops it by age, hops, epoch or reachability. -/
  | fzPacketForward (p : Nat) (depth : Nat)
  /-- `READ_REQ` (R294). A read request reaches its target, which serves it and returns READ_RESP. -/
  | readReq (dead : Bool := false)
  /-- `WRITE` (R302). A remote write reaches its target, which checks it against the window table and applies it whole or refuses it. -/
  | write (dead : Bool := false)
  /-- `READ_RESP` (R294). A read response reaches its source and lands its data. -/
  | readResp
  /-- `WRITE_ACK` (R294). A write acknowledgement reaches its source with its status. -/
  | writeAck
  /-- `OPEN` (R293). A connection request reaches a receiver, which answers OPEN_ACK or OPEN_BUSY and may send RECLAIM. -/
  | openConn
  /-- `OPEN_ACK` (R293). The receiver's slot reaches the sender, and the connection opens. -/
  | openAck
  /-- `OPEN_BUSY` (R293). The receiver has no free slot, and the sender will repeat OPEN. -/
  | openBusy
  /-- `CLOSE` (R297). The receiver frees the named connection slot. -/
  | closeConn
  /-- `RECLAIM` (R293). The sender closes the named connection if it has nothing outstanding. -/
  | reclaim
  /-- `STALE_CONN` (R297). The sender opens a new connection and resends its unacknowledged packets on it. -/
  | staleConn
  /-- `FZ_RESEND_TIMEOUT` (R296). A packet has had no response for 1.2 ms; it is resent, or after the fourth timeout the access fails REMOTE_UNREACHABLE. -/
  | fzResendTimeout (slot seq : Nat) (closing : Bool := false)
  /-- `FZ_OPEN_RETRY` (R293). 50 µs after OPEN_BUSY, the sender repeats OPEN. -/
  | fzOpenRetry (slot : Nat)
  /-- `FZ_RECEIVER_IDLE` (R297). A receiver slot has carried no packet for 1 s and is freed. -/
  | fzReceiverIdle (slot : Nat)
  /-- `FZ_SENDER_IDLE` (R297). A connection idle for 0.5 s is treated as closed by its sender. -/
  | fzSenderIdle (slot : Nat)
  /-- `FABRIC_TABLE` (R289). The descriptor loads a routing table for the next epoch. -/
  | fabricTable (d : Nat)
  /-- `FABRIC_EPOCH` (R290). The descriptor schedules a switch of the injection epoch at Cairn instant T. -/
  | fabricEpoch (d : Nat)
  /-- `FZ_EPOCH_SWITCH` (R290). At T the module stamps the new epoch into every packet it injects. -/
  | fzEpochSwitch
  /-- `FZ_EPOCH_RELEASE` (R291). The drain count is zero and T + 1.2 ms has passed, and the router releases the old table. -/
  | fzEpochRelease
  /-- `WINDOW_OPEN` (R300). The descriptor opens a remote window and returns its handle. -/
  | windowOpen (d : Nat)
  /-- `WINDOW_CLOSE` (R303). The descriptor raises the window's generation and marks it closing. -/
  | windowClose (d : Nat)
  /-- `WINDOW_CLOSE_DONE` (R303). Every packet accepted before the close has committed; the index is freed and the close completes. -/
  | windowCloseDone (idx : Nat)
  /-- `WINDOW_IMPORT` (R301). The descriptor enters a remote handle into the import table. -/
  | windowImport (d : Nat)
  /-- `WINDOW_UNIMPORT` (R344). The descriptor frees an import entry. -/
  | windowUnimport (d : Nat)
  /-- `DOORBELL_POLL` (R319). The module reads the doorbell page, checks tails and heads, and signals completion vectors. -/
  | doorbellPoll (page : Dma)
  /-- `DESCRIPTOR_FETCH` (R325). Once a completion entry is reserved, the module fetches the next descriptor of a ring in round-robin order. -/
  | descriptorFetch (entries : Nat)
  /-- `SKIP` (R323). The descriptor moves the head to the ring end, without a completion. -/
  | skip (d : Nat)
  /-- `NOP` (R332). The descriptor completes with OK. -/
  | nop (d : Nat)
  /-- `HEARTBEAT_WRITE` (R320). Every 10 ms the Ensign writes the device status block. -/
  | heartbeatWrite
  /-- `FUNCTION_LEVEL_RESET` (R311). A function-level reset clears the ring registers and the lock and starts a recovery reset. -/
  | functionLevelReset
  /-- `HOT_RESET` (R311). A PCI Express hot reset starts a recovery reset. -/
  | hotReset
  /-- `D3HOT_TO_D0` (R311). A return from D3hot to D0 starts a recovery reset. -/
  | d3hotToD0
  /-- `HOST_LINK_DOWN` (R345). The host link goes down; DMA stops, and a recovery reset follows when the link returns. -/
  | hostLinkDown
  /-- `PERST_N_ASSERT` (R494). PERST_N is asserted on J2, which starts the recovery reset. -/
  | perstNAssert
  /-- `PCIE_CONFIG_REQUEST` (R427). A configuration request is answered with Request Retry Status or normally, by start phase. -/
  | pcieConfigRequest (f : ConfigField := .vendorId) (v : Option Nat := none)
  /-- `MSIX_UNMASK` (R308, R310). A vector is unmasked in the MSI-X table, and its pending message is sent once; `mask` masks it instead,
  and `entry` is the address and data that the same write gives its entry. -/
  | msixUnmask (v : Nat) (mask : Bool := false) (entry : Option (Nat × Nat) := none)
  /-- `REGISTER_WRITE` (R7). A BAR0 write to a register with no row of its own applies its access codes and lock rules. -/
  | registerWrite (w : BarWrite)
  /-- `SETUP_LOCK_SET` (R479). A write of 1 to SET sets the lock, applies the CXL interleave and checks FZ_SELF. -/
  | setupLockSet (w : BarWrite)
  /-- `RING_CTRL_WRITE` (R483). A write to a ring's CTRL enables or disables the ring, or is refused. -/
  | ringCtrlWrite (w : BarWrite)
  /-- `DB_BASE_WRITE` (R484). A write sets the doorbell page address, which takes effect at the next poll. -/
  | dbBaseWrite (w : BarWrite)
  /-- `EVT_RING_WRITE` (R484). A write names and enables the event ring, or is refused. -/
  | evtRingWrite (w : BarWrite)
  /-- `STREAM_TABLE_BASE_WRITE` (R485). A write moves the stream table and initialises it, or is refused. -/
  | streamTableBaseWrite (w : BarWrite)
  /-- `BAR2_BASE_WRITE` (R309). A write moves the BAR2 window into the flat map. -/
  | bar2BaseWrite (w : BarWrite)
  /-- `RETIRE_SLOT_WRITE` (R487). A write configures a retirement slot, or is refused. -/
  | retireSlotWrite (w : BarWrite)
  /-- `FZ_DIMS_WRITE` (R489). A write sets the torus dimensions, or is refused out of range, and may bring FZ_SELF into use. -/
  | fzDimsWrite (w : BarWrite)
  /-- `FZ_SELF_WRITE` (R267). A write gives the module's coordinates, taken into use when valid and in range. -/
  | fzSelfWrite (w : BarWrite)
  /-- `FZ_PORT_CTRL_WRITE` (R488). A write enables a port to train, or disables it at once. -/
  | fzPortCtrlWrite (w : BarWrite)
  /-- `WAKE` (R319). A write makes the module active, and the doorbell page is read within 1 µs. -/
  | wake (w : BarWrite)
  /-- `CAIRN_LOW_READ` (R420). A 4-byte read of the Cairn low word returns it and latches the high word. -/
  | cairnLowRead
  /-- `CAIRN_HIGH_READ` (R420). A 4-byte read of the Cairn high word returns and empties the latch, or the current high word. -/
  | cairnHighRead
  /-- `RECOVERY_CTRL_GO` (R445). A write of 1 to GO starts a recovery reset, with a dump when one is enabled. -/
  | recoveryCtrlGo (w : BarWrite)
  /-- `SHUTDOWN_CTRL_GO` (R439). A write of 1 to GO starts an orderly shutdown. -/
  | shutdownCtrlGo (w : BarWrite)
  /-- `RETRAIN_FILZOR_PORT` (R458). RETRAIN_REQ of kind 1 requests a retrain of an UP Filzor port. -/
  | retrainFilzorPort (w : BarWrite)
  /-- `RETRAIN_HBM_SLICE_GROUP` (R458). RETRAIN_REQ of kind 2 fully retrains an HBM slice group while holding its accesses. -/
  | retrainHbmSliceGroup (w : BarWrite)
  /-- `RETRAIN_CXL_PORT` (R458). RETRAIN_REQ of kind 3 retrains a CXL link. -/
  | retrainCxlPort (w : BarWrite)
  /-- `RETRAIN_COMPLETE` (R458). A retraining in service ends, and RETRAIN_DONE is raised with its outcome. -/
  | retrainComplete (outcome : Nat)
  /-- `RESCUE_CTRL_WRITE` (R457). WRITE programs the rescue buffer into the ledger at BLOCK. -/
  | rescueCtrlWrite (w : BarWrite) (ok : Bool)
  /-- `RESCUE_CTRL_COMMIT` (R457). COMMIT verifies the rescue image, switches the ledger header and makes a cold start. -/
  | rescueCtrlCommit (w : BarWrite) (ok : Bool)
  /-- `SMBUS_REGISTER_WRITE` (R499). A sideband block write reaches a register with no row of its own, checked by PEC. -/
  | smbusRegisterWrite (set_ : SmbusSet) (off : Nat) (bytes : List Byte) (pec : Bool)
  /-- `POWER_OFF` (R497). A write to HS_CTRL POWER_OFF opens and holds the input switch, or releases it for requalification. -/
  | powerOff (v : Bool) (pec : Bool)
  /-- `POWER_CYCLE` (R497). A write to HS_CTRL POWER_CYCLE opens the switch and requalifies it at once. -/
  | powerCycle (pec : Bool)
  /-- `MG_COORD_WRITE` (R502). The management controller writes coordinates, which are taken or refused. -/
  | mgCoordWrite (v : Nat) (pec : Bool)
  /-- `MG_SHUTDOWN_REQ` (R439). A sideband shutdown request starts an orderly shutdown. -/
  | mgShutdownReq (pec : Bool)
  /-- `SMBUS_ALERT_RESPONSE` (R500). A read of the alert response address returns the management set's address. -/
  | smbusAlertResponse
  /-- `INPUT_SWITCH_CLOSE` (R496). With presence, input range and enables held, the controller closes the input switch, ramps the input and starts the cold start. -/
  | inputSwitchClose (mv : Nat)
  /-- `MODULE_REMOVAL` (R497). PRSNT_N goes high, and the switch opens within 5 µs. -/
  | moduleRemoval
  /-- `PWR_DIS_HIGH` (R497). PWR_DIS goes high, and the input switch opens. -/
  | pwrDisHigh
  /-- `PWR_DIS_LOW` (R496). PWR_DIS goes low, and requalification may begin. -/
  | pwrDisLow
  /-- `ATTN_BLINK` (R498). In FAILED, every 500 ms ATTN_N toggles. -/
  | attnBlink
  /-- `BROWNOUT_WARN` (R398). The input falls below 42.5 V; BROWNOUT is set and stress sessions end. -/
  | brownoutWarn (mv : Nat)
  /-- `BROWNOUT_CLEAR` (R398). The input has held at or above 43.0 V for 1 ms, and BROWNOUT clears. -/
  | brownoutClear (mv : Nat)
  /-- `BROWNOUT_RESET` (R399). The input has stayed below 40.0 V for 20 µs; the switch opens and the cause is latched. -/
  | brownoutReset (mv : Nat)
  /-- `OVERVOLTAGE_WARN` (R398). The input rises above 57.0 V. -/
  | overvoltageWarn (mv : Nat)
  /-- `INPUT_OVERVOLTAGE_TRIP` (R398). The input rises above 60.0 V, and the switch opens within 1 µs. -/
  | inputOvervoltageTrip (mv : Nat)
  /-- `IBC_FAIL` (R400). An intermediate bus converter fails, and the power limit is lowered or power is removed. -/
  | ibcFail (n : Nat)
  /-- `PH_OVERCURRENT` (R403). A phase hits its current limit on 16 consecutive cycles and adds to its fault score. -/
  | phOvercurrent (dom phase : Nat)
  /-- `PH_OVERTEMP` (R403). A phase exceeds 125 °C, stops switching and counts as failed. -/
  | phOvertemp (dom phase : Nat)
  /-- `PH_OVERTEMP_CLEAR` (R403). A stopped phase cools below 110 °C and resumes. -/
  | phOvertempClear (dom phase : Nat)
  /-- `PH_REGULATION` (R403). A phase's current share deviates by more than 30 % for 10 µs. -/
  | phRegulation (dom phase : Nat)
  /-- `PH_DEAD` (R403). A phase's output stage fails, and the phase is disconnected and counts as failed. -/
  | phDead (dom phase : Nat)
  /-- `POWER_DOMAIN_TURN_ON` (R407). The power manager sends a turn-on notice and queues a staged turn-on of a domain. -/
  | powerDomainTurnOn (dom : Nat)
  /-- `POWER_STAGE` (R407). The next power-switch stage of a staging begins, or waits while a neighbour is below its margin. -/
  | powerStage (hood : Nat) (low : Bool)
  /-- `POWER_DOMAIN_TURN_OFF` (R408). A domain turns off in 16 stages, or a Tarn enters RETAIN. -/
  | powerDomainTurnOff (dom : Nat)
  /-- `POWER_STAGE_STALLED` (R408). A staging has waited 1 ms, and the clock set point drops one step. -/
  | powerStageStalled (hood : Nat)
  /-- `POWER_SAMPLE` (R410). Every 100 µs the power manager reads power and current and adjusts the clock set point. -/
  | powerSample (r : PowerReading)
  /-- `DROOP_STRETCH` (R415). A domain crosses its droop threshold, and its island's clock is stretched. -/
  | droopStretch (island : Nat)
  /-- `UNDERVOLTAGE` (R409). A domain's reading stays 100 mV below its set point for 1 µs, and a regulation report or ledger record is made. -/
  | undervoltage (dom phase : Nat)
  /-- `PHASE_SHED` (R411). After 1,024 idle cycles a regulator sheds down to two active phases. -/
  | phaseShed (dom : Nat)
  /-- `THERMAL_STEP` (R413). Every 1 ms while a sensor is over its limit, the set point falls one step. -/
  | thermalStep (celsius island : Nat) (hot : Bool)
  /-- `THERMAL_HALT` (R413). A compute-die sensor has been above 115 °C for 1 ms; passes are abandoned and tile domains turn off. -/
  | thermalHalt (celsius island : Nat)
  /-- `THERMAL_RESUME` (R413). All compute sensors have been below 95 °C for 100 ms; tiles turn on and batches are redelivered. -/
  | thermalResume (celsius island : Nat)
  /-- `THERMAL_TRIP` (R413). An I/O die sensor has been above 115 °C for 1 ms, and the power-off path is taken. -/
  | thermalTrip (celsius island : Nat)
  /-- `CLOCK_REF_LOST` (R421). The reference is lost or deviates, and all clocks switch to the holdover oscillator. -/
  | clockRefLost
  /-- `CLOCK_REF_RESTORED` (R421). The reference has been good for 10 ms, and the clocks switch back. -/
  | clockRefRestored
  /-- `CLOCK_LOST` (R421). Both oscillators are lost, and the power-off path is taken. -/
  | clockLost
  /-- `VOLTAGE_LOOP` (R423). Every 10 ms the voltage loop adjusts each domain's trim, or sets a cap. -/
  | voltageLoop (dom : Nat) (steps : Int)
  /-- `FILZOR_EQUALISATION_UPDATE` (R423). Every 1 ms the Filzor transmitter and receiver taps are updated. -/
  | filzorEqualisationUpdate (p taps : Nat) (cxl : Option Nat := none)
  /-- `HBM_TRAINING_UPDATE` (R423). Every 100 ms per slice group, HBM delays and reference voltages are retuned in a refresh window. -/
  | hbmTrainingUpdate (sg vals : Nat) (held : Bool := true)
  /-- `TRAINING_SAVE` (R424). Every 24 h, training values and trims are saved to the ledger. -/
  | trainingSave
  /-- `DIGEST_COMPARE` (R365). The massif router compares a primary's and a shadow's digests of one firing. -/
  | digestCompare (t id : Nat) (shadow : Nat)
  /-- `FAULT_SCORE_LEAK` (R371). At each leak interval every part's score decreases by 1. -/
  | faultScoreLeak (kind : PartKind)
  /-- `STRESS_SESSION_START` (R377). The next eligible tile of a massif begins a stress session. -/
  | stressSessionStart (massif : Nat)
  /-- `STRESS_SESSION_END` (R377). A 20 s stress session ends. -/
  | stressSessionEnd (t : Nat) (cases : Nat := 0)
  /-- `STRESS_MISMATCH` (R379). A stress run gives a differing bit; weight is added and a nominal retest begins. -/
  | stressMismatch (t cases : Nat) (nominal : Bool := true)
  /-- `STRESS_NOMINAL_RETEST_DONE` (R379). The nominal retest ends, and the tile is fenced or stays usable. -/
  | stressNominalRetestDone (t : Nat) (pass : Bool)
  /-- `START_PHASE_COMPLETE` (R425). A cold-start phase ends and the next begins, and the start finishes READY, DEGRADED or FAILED. -/
  | startPhaseComplete (r : StartReport)
  /-- `START_PHASE_BUDGET_EXPIRY` (R425). A phase budget expires, and units that have not finished count as failed. -/
  | startPhaseBudgetExpiry (r : StartReport)
  /-- `KNOWN_ANSWER_RUN_DONE` (R436). A tile's known-answer run ends, and its digests are compared. -/
  | knownAnswerRunDone (t : Nat) (pass : Bool)
  /-- `SHUTDOWN_SLICE_DONE` (R440). A shutdown slice completes, is recorded, and the next slice starts. -/
  | shutdownSliceDone (r : SliceReport)
  /-- `SHUTDOWN_BUDGET_EXPIRY` (R441). A slice or BUDGET_S runs out; the slice is recorded incomplete and the shutdown finishes. -/
  | shutdownBudgetExpiry (r : SliceReport) (whole : Bool)
  /-- `ON_DEMAND_SLICE_DONE` (R438). An on-demand test slice ends or is preempted, and its result record is written. -/
  | onDemandSliceDone (r : SliceReport) (preempted : Bool)
  /-- `RECOVERY_STAGE_COMPLETE` (R446). A recovery stage ends and the next begins; stage 9 rebinds graphs and repeats journals. -/
  | recoveryStageComplete (r : StartReport)
  /-- `RECOVERY_STAGE_TIMEOUT` (R451). A stage exceeds its budget, and the recovery restarts, or stops at FAILED after three restarts. -/
  | recoveryStageTimeout
  /-- `DUMP_GROUP_DONE` (R452). The slowest tile of a group of eight is dumped, and the next group starts. -/
  | dumpGroupDone (unreach : List (Nat × Nat))
  /-- `DUMP_BUDGET_EXPIRY` (R453). The dump reaches 300 ms and stops after completed records, with TRUNCATED set. -/
  | dumpBudgetExpiry
  /-- `FW_UPDATE` (R455). The descriptor verifies a new firmware image, writes it to the ledger and distributes its sections. -/
  | fwUpdate (d : Nat) (img : Dma) (ok : Bool) (dead : Option Nat := none)
  /-- `FW_CHUNK` (R456). A unit receives a firmware chunk and stores it when the digest tag matches. -/
  | fwChunk (unit_ seq tag : Nat) (data : Option (List Byte) := none)
  /-- `FW_REPAIR_ROUND` (R456). The Ensign collects bitmaps and resends missing chunks, up to 4 rounds. -/
  | fwRepairRound
  /-- `FW_UNIT_ACTIVATE` (R454). A unit reaches its activation point and switches to the new section. -/
  | fwUnitActivate (unit_ : Nat)
  /-- `LIFECYCLE` (R472). The descriptor checks a signed life-cycle token and programs the state fuses. -/
  | lifecycle (d : Nat) (tok : Dma) (ok : Bool)
  /-- `ATTEST` (R475). The descriptor writes an attestation report signed by the device key. -/
  | attest (d : Nat)
  /-- `UART_BREAK` (R508). A break resets the baud rate, discards partial input and resends the prompt. -/
  | uartBreak
  /-- `HELP` (R513). The monitor lists the commands permitted now. -/
  | help
  /-- `INFO` (R513). The monitor prints identity and life-cycle information. -/
  | info
  /-- `STATE` (R513). The monitor prints device state, tiles, clock, power and temperature. -/
  | state
  /-- `BAUD` (R507). The monitor changes the UART rate after its OK line. -/
  | baud (rate : Nat)
  /-- `LOG` (R513). The monitor prints the newest ledger event records. -/
  | log (n : Nat)
  /-- `DEFECTS` (R513). The monitor prints the defect list. -/
  | defects
  /-- `RESULT` (R513). The monitor prints test result records. -/
  | result (idx n : Nat)
  /-- `CHALLENGE` (R511). The monitor returns a fresh nonce and the device ID. -/
  | challenge
  /-- `UNLOCK` (R511). The monitor verifies a signed challenge and unlocks the session. -/
  | unlock (slot : Nat) (pub sig : List Byte)
  /-- `UNLOCK_LOCKOUT_EXPIRY` (R511). The 60 s lockout after three failed unlocks ends. -/
  | unlockLockoutExpiry
  /-- `LOCK` (R512). The monitor ends the unlocked session. -/
  | lock
  /-- `SESSION_TIMEOUT` (R512). 15 min without a received line ends an unlocked session. -/
  | sessionTimeout
  /-- `TEST` (R514). The monitor runs one on-demand slice and prints its result record. -/
  | test (kind unit_ : Nat)
  /-- `DEFECT_CLEAR` (R515). The monitor clears a defect entry backed by a full-coverage passing record. -/
  | defectClear (idx : Nat)
  /-- `RESULT_ERASE` (R513). The monitor erases the result log in MANUFACTURE. -/
  | resultErase
  /-- `FUSE` (R515). The monitor programs a fuse-map entry and reads it back. -/
  | fuse (kind id : Nat) (ok : Bool)
  /-- `RESCUE` (R516). The boot ROM opens a rescue of the given number of blocks over the UART. -/
  | rescue (blocks : Nat)
  /-- `BLOCK` (R517). The boot ROM receives 4,096 raw bytes, checks their CRC and programs the block. -/
  | block (idx crc : Nat) (data : List Byte) (ok : Bool)
  /-- `COMMIT` (R517). The boot ROM verifies the rescue image and makes a cold start, or reports failure. -/
  | commit (ok : Bool)
  /-- `RESCUE_OWNERSHIP_TIMEOUT` (R516). 60 s without a block ends ownership of the rescue. -/
  | rescueOwnershipTimeout
  /-- `HOST_LINK_RETURN` (R345). The host link comes back up after a loss, and the module runs the recovery reset of R311. -/
  | hostLinkReturn (lanes : Nat := 16) (rate : Nat := 640)
  /-- `HOST_READ_COMPLETION` (R312). A DMA read that the module issued to host memory completes, with data, a poisoned or error completion, or the 10 ms completion timeout. -/
  | hostReadCompletion (ring : Nat) (data : Dma)
  /-- `WHEEL_TURN` (R32). A wheel turn begins, and every engine or queue whose operation waits rather than fires adds one to its stall, EMPTY or FULL counter. -/
  | wheelTurn (t : Nat)
  /-- `OVERVOLTAGE_REARM` (R398). The input has stayed at or below 56.5 V for 1 ms after OVERVOLTAGE_WARN, and the warning is armed again. -/
  | overvoltageRearm
  /-- `STANDBY_POWER_LOSS` (R496). The 50 V on PCHG is lost, and the hot-swap controller loses standby power, which resets POWER_OFF and its own state. -/
  | standbyPowerLoss
  /-- `UNKNOWN_COMMAND` (R510). The monitor receives a line that is malformed, too long or not a command of the running program, and answers ERR 1 SYNTAX or ERR 2 UNKNOWN. -/
  | unknownCommand (why : BadLine)
deriving DecidableEq, Repr

end Sys2Proof
end

