-- ==== Sys2Proof/Machine/Crypto.lean ====
section
/-! DEFINITION. CRC-32C (R114), SHA-512 and Ed25519 (R462). SHA-512 is FIPS 180-4's and Ed25519 RFC 8032's in its pure
form: the spec names them and does not repeat them (PRESUMED, log entry 12). -/

namespace Sys2Proof.Machine

/-- One bit of the reflected Castagnoli polynomial (R114). -/
def crcBit (c : Nat) : Nat := if c % 2 = 1 then (c / 2) ^^^ 0x82F63B78 else c / 2

/-- One byte of a running CRC-32C. -/
def crcByte (c : Nat) (b : Byte) : Nat :=
  crcBit (crcBit (crcBit (crcBit (crcBit (crcBit (crcBit (crcBit (c ^^^ b.toNat))))))))

/-- CRC-32C: Castagnoli polynomial reflected, initial value 0xFFFF_FFFF, final inversion (R114). -/
def crc32c (bs : List Byte) : Nat := bs.foldl crcByte 0xFFFFFFFF ^^^ 0xFFFFFFFF

/-- 64-bit rotation right. -/
def rotr (x n : Nat) : Nat := (x >>> n ||| x <<< (64 - n)) % 2 ^ 64

/-- The largest `r` below `r0 + 2 ^ b` with `r ^ k ≤ n`, bit by bit from `b` down on the root so far. -/
def rootDown (k n : Nat) : Nat → Nat → Nat
  | 0, r => r
  | b + 1, r => rootDown k n b (if (r + 2 ^ b) ^ k ≤ n then r + 2 ^ b else r)

/-- The first 64 bits of the fraction of the `k`-th root of `p`. -/
def rootFraction (k p : Nat) : Nat := rootDown k (p * 2 ^ (64 * k)) 70 0 % 2 ^ 64

/-- The primes up to 409, which are 80: a composite number there has a divisor up to 20. -/
def primes80 : List Nat :=
  (List.range 410).filter fun n => 2 ≤ n && (List.range 21).all fun d => d < 2 || d == n || n % d != 0

/-- The 80 round constants: of the cube roots of the first 80 primes. -/
def shaK : List Nat := primes80.map (rootFraction 3)

/-- The initial value: of the square roots of the first 8 primes. -/
def shaH : List Nat := (primes80.take 8).map (rootFraction 2)

/-- A big-endian 64-bit word. -/
def beWord (bs : List Byte) : Nat := bs.foldl (fun n b => n * 256 + b.toNat) 0

/-- Big-endian bytes. -/
def toBe (n x : Nat) : List Byte := (toLe n x).reverse

/-- Words of 8 bytes; `fuel` bounds their number. -/
def beWords : Nat → List Byte → List Nat
  | 0, _ => []
  | n + 1, bs => beWord (bs.take 8) :: beWords n (bs.drop 8)

/-- The exclusive or of a word's rotations, and of its shift to the right where `s` is not 0. -/
def mixBits (rs : List Nat) (s x : Nat) : Nat := rs.foldl (fun y r => y ^^^ rotr x r) (if s = 0 then 0 else x >>> s)

/-- One round on the eight working words: the oldest leaves, the fourth and the first take the sums. -/
def shaRound (v : List Nat) (k w : Nat) : List Nat :=
  let x (i : Nat) : Nat := v.getD i 0
  let pick := x 6 ^^^ (x 4 &&& (x 5 ^^^ x 6))
  let most := (x 0 &&& (x 1 ||| x 2)) ||| (x 1 &&& x 2)
  let sum := k + w + pick + mixBits [14, 18, 41] 0 (x 4) + x 7
  (sum + mixBits [28, 34, 39] 0 (x 0) + most) % 2 ^ 64 :: v.take 3 ++ (x 3 + sum) % 2 ^ 64 :: (v.drop 4).take 3

/-- The next word of the message schedule from the last sixteen, the oldest first. -/
def shaNext (w : List Nat) : Nat :=
  let x (i : Nat) : Nat := w.getD i 0
  (x 0 + x 9 + mixBits [1, 8] 7 (x 1) + mixBits [19, 61] 6 (x 14)) % 2 ^ 64

/-- The rounds of one block: the window holds the sixteen schedule words from this round on. -/
def shaRounds : List Nat → List Nat → List Nat → List Nat
  | [], _, v => v
  | k :: ks, w, v => shaRounds ks (w.drop 1 ++ [shaNext w]) (shaRound v k (w.getD 0 0))

/-- One block of 128 bytes. -/
def shaBlock (h : List Nat) (b : List Byte) : List Nat :=
  List.zipWith (fun x y => (x + y) % 2 ^ 64) h (shaRounds shaK (beWords 16 b) h)

/-- The blocks of a padded message. -/
def shaBlocks : Nat → List Byte → List Nat → List Nat
  | 0, _, h => h
  | n + 1, bs, h => shaBlocks n (bs.drop 128) (shaBlock h (bs.take 128))

/-- The padding of SHA-512. -/
def shaPad (n : Nat) : List Byte :=
  [0x80] ++ List.replicate ((239 - n % 128) % 128) 0 ++ toBe 16 (n * 8)

/-- SHA-512: 64 bytes. -/
def sha512 (bs : List Byte) : List Byte :=
  let m := bs ++ shaPad bs.length
  (shaBlocks (m.length / 128) m shaH).flatMap (toBe 8)

/-- The prime of Ed25519's field. -/
def edP : Nat := 2 ^ 255 - 19

/-- The order of its base point. -/
def edL : Nat := 2 ^ 252 + 27742317777372353535851937790883648493

/-- `b ^ e mod m` over `fuel` bits of `e`. -/
def powMod (m : Nat) : Nat → Nat → Nat → Nat
  | 0, _, _ => 1
  | n + 1, b, e =>
    let r := powMod m n (b * b % m) (e / 2)
    if e % 2 = 1 then r * b % m else r

/-- The inverse in the field. -/
def edInv (x : Nat) : Nat := powMod edP 255 x (edP - 2)

/-- The curve constant d = −121665/121666. -/
def edD : Nat := (edP - 121665) * edInv 121666 % edP

/-- A point in extended coordinates. -/
abbrev EdPoint := Nat × Nat × Nat × Nat

/-- Point addition (RFC 8032, 5.1.4). -/
def edAdd (p q : EdPoint) : EdPoint :=
  let (x1, y1, z1, t1) := p
  let (x2, y2, z2, t2) := q
  let a := (y1 + edP - x1) * (y2 + edP - x2) % edP
  let b := (y1 + x1) * (y2 + x2) % edP
  let c := t1 * 2 * edD % edP * t2 % edP
  let d := z1 * 2 * z2 % edP
  let e := (b + edP - a) % edP
  let f := (d + edP - c) % edP
  let g := (d + c) % edP
  let h := (b + a) % edP
  (e * f % edP, g * h % edP, f * g % edP, e * h % edP)

/-- `k` times a point, over `fuel` bits. -/
def edMul : Nat → Nat → EdPoint → EdPoint
  | 0, _, _ => (0, 1, 1, 0)
  | n + 1, k, p =>
    let q := edMul n (k / 2) (edAdd p p)
    if k % 2 = 1 then edAdd q p else q

/-- The x coordinate for y and a sign bit, where there is one (RFC 8032, 5.1.3). -/
def edRecover (y sign : Nat) : Option Nat :=
  if edP ≤ y then none else
  let yy := y * y % edP
  let xx := (yy + edP - 1) * edInv (edD * yy + 1) % edP
  let r := powMod edP 255 xx ((edP + 3) / 8)
  let r2 := if r * r % edP = xx then r else r * powMod edP 255 2 ((edP - 1) / 4) % edP
  if r2 * r2 % edP = xx then
    if r2 = 0 && sign = 1 then none
    else some (if r2 % 2 = sign then r2 else edP - r2)
  else none

/-- A point from its 32 bytes. -/
def edDecode (bs : List Byte) : Option EdPoint :=
  let n := leNat bs
  let y := n % 2 ^ 255
  match edRecover y (n / 2 ^ 255 % 2) with
  | none => none
  | some x => some (x, y, 1, x * y % edP)

/-- The 32 bytes of a point. -/
def edEncode (p : EdPoint) : List Byte :=
  let (x, y, z, _) := p
  let zi := edInv z
  toLe 32 (y * zi % edP + x * zi % edP % 2 * 2 ^ 255)

/-- The base point, with y = 4/5 and x even. -/
def edBase : EdPoint :=
  let y := 4 * edInv 5 % edP
  match edRecover y 0 with
  | none => (0, 1, 1, 0)
  | some x => (x, y, 1, x * y % edP)

/-- `signature` verifies over `msg` under `pub` (R462; RFC 8032, 5.1.7, with the equation [S]B = R + [k]A). -/
def edVerify (pub msg sig : List Byte) : Bool :=
  if pub.length = 32 && sig.length = 64 then
    match edDecode pub, edDecode (sig.take 32) with
    | some a, some r =>
      let s := leNat (sig.drop 32)
      let k := leNat (sha512 (sig.take 32 ++ pub ++ msg)) % edL
      decide (s < edL) && edEncode (edMul 253 s edBase) == edEncode (edAdd r (edMul 253 k a))
    | _, _ => false
  else false

/-- The scalar of a seed (RFC 8032, 5.1.5). -/
def edScalar (seed : List Byte) : Nat :=
  let n := leNat ((sha512 seed).take 32) % 2 ^ 254
  n / 8 * 8 + 2 ^ 254

/-- The public key of a seed. -/
def edPublic (seed : List Byte) : List Byte := edEncode (edMul 255 (edScalar seed) edBase)

/-- The signature of a message under a seed (RFC 8032, 5.1.6). -/
def edSign (seed msg : List Byte) : List Byte :=
  let a := edScalar seed
  let pre := (sha512 seed).drop 32
  let r := leNat (sha512 (pre ++ msg)) % edL
  let rb := edEncode (edMul 253 r edBase)
  let k := leNat (sha512 (rb ++ edPublic seed ++ msg)) % edL
  rb ++ toLe 32 ((r + k * a) % edL)

/-- A signature over the SHA-512 digest of the bytes that a signed structure names (R462). -/
def signedOk (pub bytes sig : List Byte) : Bool := edVerify pub (sha512 bytes) sig

/-- ASCII bytes. -/
def ascii (s : String) : List Byte := s.toList.map fun c => BitVec.ofNat 8 c.toNat

end Sys2Proof.Machine
end

