-- ==== Sys2Proof/Machine/Formats.lean ====
section
/-! DEFINITION. The 17 number formats, their exact values, and the one rounding of a conversion (R60 to R78, R89 to R91).
Every finite value of every format is a dyadic number, so a value is a sign, a significand and a power of two. -/

namespace Sys2Proof.Machine

/-- A layout of sign, exponent and fraction (R63), and which special values it has (R64). -/
structure FloatLayout where
  ebits : Nat
  p : Nat
  bias : Nat
  /-- Infinities and NaN under the all-ones exponent. -/
  ieee : Bool
  /-- NaN under the all-ones encoding alone (FP8 E4M3). -/
  nanOnly : Bool
deriving DecidableEq, Repr

/-- An element encoding. -/
inductive Elem where
  | float (l : FloatLayout)
  | int (w : Nat)
  | mxint
  | xl4
deriving DecidableEq, Repr

/-- Layouts of R63. -/
def fp32L : FloatLayout := ⟨8, 23, 127, true, false⟩
def fp16L : FloatLayout := ⟨5, 10, 15, true, false⟩
def bf16L : FloatLayout := ⟨8, 7, 127, true, false⟩
def e4m3L : FloatLayout := ⟨4, 3, 7, false, true⟩
def e5m2L : FloatLayout := ⟨5, 2, 15, true, false⟩
def e3m2L : FloatLayout := ⟨3, 2, 3, false, false⟩
def e2m3L : FloatLayout := ⟨2, 3, 1, false, false⟩
def e2m1L : FloatLayout := ⟨2, 1, 1, false, false⟩
def xm40L : FloatLayout := ⟨8, 31, 127, true, false⟩

/-- A format (R60): its code, element, bits an element takes in storage, and block of shared scales (0 none). -/
structure Fmt where
  code : Nat
  elem : Elem
  width : Nat
  block : Nat
  /-- Significand bits of R89. -/
  sig : Nat
deriving DecidableEq, Repr

/-- The format of a code (R60); none outside the scheme. -/
def Fmt.ofCode (c : Nat) : Option Fmt :=
  match c with
  | 1 => some ⟨1, .float fp32L, 32, 0, 24⟩
  | 2 => some ⟨2, .float fp16L, 16, 0, 11⟩
  | 3 => some ⟨3, .float bf16L, 16, 0, 8⟩
  | 4 => some ⟨4, .float e4m3L, 8, 0, 4⟩
  | 5 => some ⟨5, .float e5m2L, 8, 0, 3⟩
  | 6 => some ⟨6, .float e3m2L, 8, 0, 3⟩
  | 7 => some ⟨7, .float e2m3L, 8, 0, 4⟩
  | 8 => some ⟨8, .float e2m1L, 4, 0, 2⟩
  | 9 => some ⟨9, .float e4m3L, 8, 32, 4⟩
  | 10 => some ⟨10, .float e3m2L, 8, 32, 3⟩
  | 11 => some ⟨11, .float e2m1L, 4, 32, 2⟩
  | 12 => some ⟨12, .mxint, 8, 32, 7⟩
  | 13 => some ⟨13, .int 8, 8, 0, 7⟩
  | 14 => some ⟨14, .int 4, 4, 0, 3⟩
  | 15 => some ⟨15, .int 32, 32, 0, 31⟩
  | 16 => some ⟨16, .float xm40L, 40, 0, 32⟩
  | 17 => some ⟨17, .xl4, 4, 16, 1⟩
  | 41 => some ⟨41, .float e5m2L, 8, 32, 3⟩
  | 42 => some ⟨42, .float e2m3L, 8, 32, 4⟩
  | _ => none

/-- FP32 and XM40. -/
def fp32 : Fmt := ⟨1, .float fp32L, 32, 0, 24⟩
def int32 : Fmt := ⟨15, .int 32, 32, 0, 31⟩
def xm40 : Fmt := ⟨16, .float xm40L, 40, 0, 32⟩

/-- An exact value: NaN, an infinity, or `(−1)^neg × m × 2^e`. -/
inductive Val where
  | nan
  | inf (neg : Bool)
  | fin (neg : Bool) (m : Nat) (e : Int)
deriving DecidableEq, Repr

/-- +0. -/
def Val.zero : Val := .fin false 0 0

/-- `⌊log2⌋` of `m × 2^e`, for `m` not zero. -/
def ilog2 (m : Nat) (e : Int) : Int := (m.log2 : Int) + e

/-- `m × 2^k` truncated to an integer. -/
def shiftNat (m : Nat) (k : Int) : Nat := if 0 ≤ k then m <<< k.toNat else m >>> (-k).toNat

/-- The two's-complement value of the low `w` bits. -/
def signed (w x : Nat) : Int :=
  let n := x % 2 ^ w
  if n < 2 ^ (w - 1) then n else (n : Int) - (2 ^ w : Nat)

/-- The `w` low bits of an integer's two's complement. -/
def unsigned (w : Nat) (i : Int) : Nat := (i % (2 ^ w : Nat)).toNat

/-! ### Decoding -/

/-- The value of a float encoding (R63, R64). -/
def decodeFloat (l : FloatLayout) (raw : Nat) : Val :=
  let s := bit raw (l.ebits + l.p)
  let ef := bits raw l.p l.ebits
  let fr := raw % 2 ^ l.p
  let top := 2 ^ l.ebits - 1
  if l.ieee && ef == top then (if fr = 0 then .inf s else .nan)
  else if l.nanOnly && ef == top && fr == 2 ^ l.p - 1 then .nan
  else if ef = 0 then .fin s fr (1 - (l.bias : Int) - l.p)
  else .fin s (2 ^ l.p + fr) ((ef : Int) - l.bias - l.p)

/-- T1 as an integer with weight 2^−23 (R69). -/
def xl4T1 : Nat := 0xB504F3

/-- Magnitude of XL4 code `k` as an integer with weight 2^−26 (R70). -/
def xl4Mag (k : Nat) : Nat :=
  if k = 7 then 0 else (if k % 2 = 1 then xl4T1 else 2 ^ 23) * 2 ^ (3 - (k + 1) / 2)

/-- The value of an element before any block scale (R63, R67, R68, R70). -/
def decodeElem (el : Elem) (raw : Nat) : Val :=
  match el with
  | .float l => decodeFloat l raw
  | .int w => let i := signed w raw; .fin (i < 0) i.natAbs 0
  | .mxint => let i := signed 8 raw; .fin (i < 0) i.natAbs (-6)
  | .xl4 => if raw % 8 = 7 then .zero else .fin (bit raw 3) (xl4Mag (raw % 8)) (-26)

/-- An element under its block scale: a scale of 0xFF makes it NaN, and a special element stays as it is (R66). -/
def scaled (v : Val) (scale : Nat) : Val :=
  if scale = 255 then .nan
  else match v with
    | .fin s m e => .fin s m (e + scale - 127)
    | w => w

/-! ### Rounding -/

/-- A rounding mode (R73), with the random bits of mode 2 (R90). -/
inductive Mode where
  | nearest | zero
  | stochastic (r : Nat)
deriving DecidableEq, Repr

/-- A magnitude `num / den` rounded to an integer (R73, R90). -/
def roundRatio (md : Mode) (num den : Nat) : Nat :=
  let n := num / den
  let r := num % den
  match md with
  | .nearest => if 2 * r > den || (2 * r == den && n % 2 == 1) then n + 1 else n
  | .zero => n
  | .stochastic rb =>
    let f32 := r * 2 ^ 32 / den
    if f32 != 0 && f32 + rb ≥ 2 ^ 32 then n + 1 else n

/-- `m × 2^k` rounded to an integer. -/
def roundShift (md : Mode) (m : Nat) (k : Int) : Nat :=
  if 0 ≤ k then m <<< k.toNat else roundRatio md m (2 ^ (-k).toNat)

/-- What an element's conversion gives: the encoding, and what it adds to `NUM_SAT` and `NUM_NAN` (R88). -/
structure Enc where
  raw : Nat
  sat : Nat
  nan : Nat
deriving DecidableEq, Repr

/-- The largest finite encoding. -/
def FloatLayout.maxRaw (l : FloatLayout) : Nat :=
  let all := 2 ^ (l.ebits + l.p) - 1
  if l.ieee then all - 2 ^ l.p else if l.nanOnly then all - 1 else all

/-- The NaN the module writes (R64). -/
def FloatLayout.nanRaw (l : FloatLayout) : Option Nat :=
  if l.ieee then some ((2 ^ l.ebits - 1) * 2 ^ l.p + 2 ^ (l.p - 1))
  else if l.nanOnly then some (2 ^ (l.ebits + l.p) - 1) else none

/-- Overflow, or an infinite input (R74). In an MX element (`mx`) the clamp is part of the format. DESIGN CHOICE (log entry
60): with `SAT` 1 an infinite input saturates and counts also where R71 says that a plain format is copied exactly. -/
def overflowFloat (l : FloatLayout) (sat mx neg : Bool) : Enc :=
  let s := if neg then 2 ^ (l.ebits + l.p) else 0
  if mx then ⟨s + l.maxRaw, 0, 0⟩
  else if sat || !(l.ieee || l.nanOnly) then ⟨s + l.maxRaw, 1, 0⟩
  else if l.ieee then ⟨s + (2 ^ l.ebits - 1) * 2 ^ l.p, 0, 0⟩
  else ⟨2 ^ (l.ebits + l.p) - 1, 0, 0⟩

/-- A value rounded once into a float format (R72 to R75): magnitudes in one format rise with their encodings, so a
carry out of the significand is the next encoding, and overflow is an encoding above the largest finite one. -/
def encodeFloat (l : FloatLayout) (md : Mode) (sat mx : Bool) (v : Val) : Enc :=
  match v with
  | .nan => match l.nanRaw with
    | some r => ⟨r, 0, 0⟩
    | none => ⟨0, 0, 1⟩
  | .inf s => overflowFloat l sat mx s
  | .fin s m e =>
    let sb := if s then 2 ^ (l.ebits + l.p) else 0
    if m = 0 then ⟨sb, 0, 0⟩
    else
      let emin : Int := 1 - l.bias
      let lg := ilog2 m e
      let q := (if lg < emin then emin else lg) - l.p
      let n := roundShift md m (e - q)
      let raw := (q - (emin - l.p)).toNat * 2 ^ l.p + n
      if raw > l.maxRaw then overflowFloat l sat mx s else ⟨sb + raw, 0, 0⟩

/-- A value rounded once into an integer format, then clamped (R74, R78). -/
def encodeInt (w : Nat) (md : Mode) (v : Val) : Enc :=
  let hi : Int := 2 ^ (w - 1) - 1
  let lo : Int := -(2 ^ (w - 1))
  match v with
  | .nan => ⟨0, 0, 1⟩
  | .inf s => ⟨unsigned w (if s then lo else hi), 1, 0⟩
  | .fin s m e =>
    let n : Int := roundShift md m e
    let i := if s then -n else n
    if i > hi then ⟨unsigned w hi, 1, 0⟩ else if i < lo then ⟨unsigned w lo, 1, 0⟩ else ⟨unsigned w i, 0, 0⟩

/-- An MXINT8 element, clamped to ±127 (R67). -/
def encodeMxint (md : Mode) (v : Val) : Nat :=
  match v with
  | .nan => 0
  | .inf s => unsigned 8 (if s then -127 else 127)
  | .fin s m e =>
    let n : Int := min (roundShift md m (e + 6)) 127
    unsigned 8 (if s then -n else n)

/-- The codes of the XL4 magnitudes and zero, in ascending magnitude (R70). -/
def xl4Order : List Nat := [7, 6, 5, 4, 3, 2, 1, 0]

/-- The greatest code among those in ascending magnitude that lies at or below `num / den`, and the next one. -/
def xl4Neighbours (num den : Nat) : List Nat → Nat × Nat
  | a :: b :: cs => if xl4Mag b * den ≤ num then xl4Neighbours num den (b :: cs) else (a, b)
  | [a] => (a, a)
  | [] => (7, 7)

/-- The code of a magnitude `y` below 1, in units of 2^−26: `num / den` (R77). -/
def xl4Code (md : Mode) (num den : Nat) : Nat :=
  let ab := xl4Neighbours num den xl4Order
  let lo := xl4Mag ab.1 * den
  let gap := xl4Mag ab.2 * den - lo
  let d := num - lo
  if d = 0 then ab.1
  else match md with
    | .nearest =>
      if 2 * d > gap then ab.2 else if 2 * d < gap then ab.1
      else if ab.1 % 2 = 0 then ab.1 else ab.2
    | .zero => ab.1
    | .stochastic r =>
      let f32 := d * 2 ^ 32 / gap
      if f32 != 0 && f32 + r ≥ 2 ^ 32 then ab.2 else ab.1

/-- An XL4 element (R70, R75, R77). -/
def encodeXl4 (md : Mode) (v : Val) : Nat :=
  match v with
  | .nan => 7
  | .inf s => if s then 8 else 0
  | .fin s m e =>
    if m = 0 then 7
    else
      let k := if ilog2 m e ≥ 0 then 0
        else
          let sh := e + 26
          if 0 ≤ sh then xl4Code md (m <<< sh.toNat) 1 else xl4Code md m (2 ^ (-sh).toNat)
      if k = 7 then 7 else (if s then 8 else 0) + k

/-- A value rounded once into a format without a block scale (R72). -/
def encodePlain (el : Elem) (md : Mode) (sat : Bool) (v : Val) : Enc :=
  match el with
  | .float l => encodeFloat l md sat false v
  | .int w => encodeInt w md v
  | .mxint => ⟨encodeMxint md v, 0, 0⟩
  | .xl4 => ⟨encodeXl4 md v, 0, 0⟩

/-- FP32, rounded to nearest with overflow to an infinity (R83, R42). -/
def toFp32 (v : Val) : Nat := (encodeFloat fp32L .nearest false false v).raw

/-! ### Block scales -/

/-- e_elem of R76. -/
def eElem : Elem → Int
  | .float l => if l.ebits = 4 then 8 else if l.ebits = 5 then 15 else if l.ebits = 3 then 4 else 2
  | .int w => if w = 8 then 6 else 2
  | .mxint => 0
  | .xl4 => 0

/-- A magnitude `m × 2^e`, compared with another. -/
def magLe (a b : Nat × Int) : Bool :=
  let k := min a.2 b.2
  a.1 <<< (a.2 - k).toNat ≤ b.1 <<< (b.2 - k).toNat

/-- The larger of two magnitudes. -/
def magMax (a b : Nat × Int) : Nat × Int := if magLe a b then b else a

/-- The scale byte of a block (R76, R77). -/
def scaleByte (el : Elem) (amax : Nat × Int) : Nat :=
  let x : Int :=
    if amax.1 = 0 then 0
    else match el with
      | .xl4 => let f := ilog2 amax.1 amax.2; if amax.1 = 2 ^ amax.1.log2 then f else f + 1
      | _ => ilog2 amax.1 amax.2 - eElem el
  (max (-127) (min 127 x) + 127).toNat

/-- The largest finite magnitude of a format (R74): an MX source's is its element's under the largest scale. -/
def Fmt.largest (f : Fmt) : Nat × Int :=
  let up : Int := if f.block = 0 then 0 else 127
  match f.elem with
  | .float l => match decodeFloat l l.maxRaw with
    | .fin _ m e => (m, e + up)
    | _ => (0, 0)
  | .int w => (2 ^ (w - 1) - 1, up)
  | .mxint => (127, up - 6)
  | .xl4 => (1, up)

/-- What a block takes as its magnitudes: NaN, or an infinity without `SAT`, gives none (R74, R87). -/
def blockMags (sat : Bool) (largest : Nat × Int) : List Val → Option (Nat × Int)
  | [] => some (0, 0)
  | v :: vs =>
    match blockMags sat largest vs with
    | none => none
    | some a => match v with
      | .nan => none
      | .inf _ => if sat then some (magMax largest a) else none
      | .fin _ m e => some (magMax (m, e) a)

/-- The scale byte of a block of values (R74, R76, R77, R87): 0xFF where it holds a NaN, or an infinity without `SAT`. -/
def blockScale (el : Elem) (sat : Bool) (largest : Nat × Int) (vs : List Val) : Nat :=
  match blockMags sat largest vs with
  | none => 255
  | some a => scaleByte el a

/-- One element of a block, under the block's scale byte (R72). -/
def encodeBlocked (el : Elem) (md : Mode) (largest : Nat × Int) (scale : Nat) (v : Val) : Nat :=
  let w : Val := match v with
    | .inf s => .fin s largest.1 largest.2
    | u => u
  let y : Val := match w with
    | .fin s m e => .fin s m (e + 127 - scale)
    | u => u
  if scale = 255 then (match el with | .xl4 => 7 | _ => 0)
  else match el with
    | .float l => (encodeFloat l md true true y).raw
    | .mxint => encodeMxint md y
    | .xl4 => encodeXl4 md y
    | .int w => (encodeInt w md y).raw

/-! ### Stochastic rounding -/

/-- `mix` (R90). -/
def mix64 (z : Nat) : Nat :=
  let z := (z ^^^ (z >>> 30)) * 0xBF58476D1CE4E5B9 % 2 ^ 64
  let z := (z ^^^ (z >>> 27)) * 0x94D049BB133111EB % 2 ^ 64
  z ^^^ (z >>> 31)

/-- `sr_bits` (R90). -/
def srBits (id tensor index : Nat) : Nat :=
  let h := mix64 ((id + 0x9E3779B97F4A7C15) % 2 ^ 64)
  let h := mix64 (h ^^^ (tensor * 0xD6E8FEB86659FD93 % 2 ^ 64))
  mix64 (h ^^^ index) >>> 32

/-- `RMODE` (R73) for the element at `index`. -/
def modeOf (rmode id tensor index : Nat) : Mode :=
  if rmode = 1 then .zero else if rmode = 2 then .stochastic (srBits id tensor index) else .nearest

/-! ### Arrays in storage (R61, R518) -/

/-- Nibbles, low one first. -/
def nibbles : List Byte → List Nat
  | [] => []
  | b :: bs => b.toNat % 16 :: b.toNat / 16 :: nibbles bs

/-- Little-endian elements of `n` bytes; `fuel` bounds their number. -/
def chunks (n : Nat) : Nat → List Byte → List Nat
  | 0, _ => []
  | fuel + 1, bs => leNat (bs.take n) :: chunks n fuel (bs.drop n)

/-- Elements of one XM40 storage block (R61). -/
def xmBlock (bs : List Byte) : List Nat :=
  List.zipWith (fun hi lo => hi * 256 + lo) (chunks 4 64 bs) (chunks 1 64 (bs.drop 256))

/-- The elements of a run of XM40 storage blocks. -/
def xmBlocks : Nat → List Byte → List Nat
  | 0, _ => []
  | n + 1, bs => xmBlock bs ++ xmBlocks n (bs.drop 320)

/-- Bits of an element's encoding (R60). -/
def Elem.bits : Elem → Nat
  | .float l => l.ebits + l.p + 1
  | .int w => w
  | .mxint => 8
  | .xl4 => 4

/-- The encodings of a row of `n` elements; bits [7:6] of a 6-bit element are ignored (R61). -/
def unpackRow (f : Fmt) (n : Nat) (bs : List Byte) : List Nat :=
  if f.width = 4 then (nibbles (bs.take (ceilDiv n 2))).take n
  else if f.width = 40 then (xmBlocks (ceilDiv n 64) bs).take n
  else (chunks (f.width / 8) n bs).map (· % 2 ^ f.elem.bits)

/-- Nibbles packed two to a byte. -/
def packNibbles : List Nat → List Byte
  | a :: b :: rs => BitVec.ofNat 8 (a % 16 + 16 * (b % 16)) :: packNibbles rs
  | [a] => [BitVec.ofNat 8 (a % 16)]
  | [] => []

/-- XM40 storage blocks; positions beyond the row are +0 (R61). -/
def packXm : Nat → List Nat → List Byte
  | 0, _ => []
  | n + 1, rs =>
    let b := rs.take 64 ++ List.replicate (64 - (rs.take 64).length) 0
    b.flatMap (fun r => toLe 4 (r / 256)) ++ b.map (fun r => BitVec.ofNat 8 r) ++ packXm n (rs.drop 64)

/-- A row of encodings in storage (R61). -/
def packRow (f : Fmt) (rs : List Nat) : List Byte :=
  if f.width = 4 then packNibbles rs
  else if f.width = 40 then packXm (ceilDiv rs.length 64) rs
  else rs.flatMap (toLe (f.width / 8))

/-- Bytes that a row's elements take (R61). -/
def Fmt.rowBytes (f : Fmt) (n : Nat) : Nat :=
  if f.width = 40 then ceilDiv n 64 * 320 else ceilDiv (n * f.width) 8

/-- Bytes from one row to the next (R518). -/
def Fmt.stride (f : Fmt) (n : Nat) : Nat := roundUp (f.rowBytes n) 64

/-- Bytes that the row's scales take (R518). -/
def Fmt.scaleStride (f : Fmt) (n : Nat) : Nat := if f.block = 0 then 0 else roundUp (ceilDiv n f.block) 8

/-- Bytes of an array of rows with its scale array (R518). -/
def Fmt.arrayBytes (f : Fmt) (rows n : Nat) : Nat := rows * f.stride n + rows * f.scaleStride n

/-- Zero bytes up to length `n`. -/
def padTo (n : Nat) (bs : List Byte) : List Byte := bs ++ List.replicate (n - bs.length) 0

/-- A list split in pieces of `n`; `fuel` bounds their number. -/
def pieces {α : Type} (n : Nat) : Nat → List α → List (List α)
  | 0, _ => []
  | _ + 1, [] => []
  | fuel + 1, xs => xs.take n :: pieces n fuel (xs.drop n)

/-- The row-by-row encodings of an array. -/
def readRaws (f : Fmt) (rows n : Nat) (bs : List Byte) : List (List Nat) :=
  (List.range rows).map fun r => unpackRow f n (sliceB bs (r * f.stride n) (f.rowBytes n))

/-- The scale bytes of row `r`, one for each block. -/
def readScales (f : Fmt) (rows n r : Nat) (bs : List Byte) : List Nat :=
  (sliceB bs (rows * f.stride n + r * f.scaleStride n) (ceilDiv n f.block)).map (·.toNat)

/-- Values of a row under its scales. -/
def scaleRow (f : Fmt) (scales : List Nat) (vs : List Val) : List Val :=
  List.flatten (List.zipWith (fun sc blk => blk.map (scaled · sc)) scales (pieces f.block vs.length vs))

/-- The exact values of an array (R61, R62, R66, R518). -/
def readArray (f : Fmt) (rows n : Nat) (bs : List Byte) : List (List Val) :=
  (List.range rows).map fun r =>
    let vs := (unpackRow f n (sliceB bs (r * f.stride n) (f.rowBytes n))).map (decodeElem f.elem)
    if f.block = 0 then vs else scaleRow f (readScales f rows n r bs) vs

/-- An array that an operation writes, with what it adds to the counters. -/
structure Out where
  bytes : List Byte
  sat : Nat
  nan : Nat
deriving DecidableEq, Repr

/-- The sum of a list of numbers. -/
def sumNat (xs : List Nat) : Nat := xs.foldl (· + ·) 0

/-- Rounding of a whole array: `rmode`, the row ids, the tensor. -/
structure Rounding where
  rmode : Nat
  ids : List Nat
  tensor : Nat
deriving DecidableEq, Repr

/-- To nearest. -/
def Rounding.nearest : Rounding := ⟨0, [], 0⟩

/-- The values of a row with their rounding modes (R91). -/
def withModes (rd : Rounding) (r n : Nat) (vs : List Val) : List (Val × Mode) :=
  vs.zipIdx.map fun vi => (vi.1, modeOf rd.rmode (rd.ids.getD r 0) rd.tensor (r * n + vi.2))

/-- One written row: elements, scales, and counts. -/
structure RowOut where
  raws : List Nat
  scales : List Nat
  sat : Nat
  nan : Nat
deriving DecidableEq, Repr

/-- Infinite inputs among values, counted with `SAT` (R74). -/
def infCount (vs : List (Val × Mode)) : Nat :=
  vs.countP fun v => match v.1 with | .inf _ => true | _ => false

/-- A row rounded into a format (R72, R74, R88). -/
def encodeRow (f : Fmt) (sat : Bool) (largest : Nat × Int) (vs : List (Val × Mode)) : RowOut :=
  if f.block = 0 then
    let es := vs.map fun v => encodePlain f.elem v.2 sat v.1
    ⟨es.map (·.raw), [], sumNat (es.map (·.sat)), sumNat (es.map (·.nan))⟩
  else
    let bs := pieces f.block vs.length vs
    let ss := bs.map fun b => blockScale f.elem sat largest (b.map (·.1))
    let rs := List.zipWith (fun b sc => b.map fun v => encodeBlocked f.elem v.2 largest sc v.1) bs ss
    ⟨rs.flatten, ss, sumNat (List.zipWith (fun b sc => if sc = 255 then 0 else infCount b) bs ss), 0⟩

/-- An array of rows rounded into a format and laid out (R518, R104). `largest` is the source format's largest finite
value. -/
def writeArray (f : Fmt) (rd : Rounding) (sat : Bool) (largest : Nat × Int) (n : Nat) (rows : List (List Val)) : Out :=
  let rs := rows.zipIdx.map fun ri => encodeRow f sat largest (withModes rd ri.2 n ri.1)
  ⟨(rs.flatMap fun r => padTo (f.stride n) (packRow f r.raws)) ++
      (if f.block = 0 then [] else
        rs.flatMap fun r => padTo (f.scaleStride n) (r.scales.map fun s => BitVec.ofNat 8 s)),
    sumNat (rs.map (·.sat)), sumNat (rs.map (·.nan))⟩

end Sys2Proof.Machine
end

