-- ==== Sys2Proof/Machine/Elementary.lean ====
section
/-! DEFINITION. The special-function unit's functions of one FP32 value (R42, R43): the exact value, rounded once.
The exponential, the logarithm, sine and cosine are worked out in fixed point to at least 250 bits below the result and
rounded from there (log entry 13). -/

namespace Sys2Proof.Machine

/-- Fraction bits of the fixed point. -/
def fixP : Nat := 448

/-- One, in fixed point. -/
def fixOne : Int := 2 ^ fixP

/-- `Σ_{j<n} z^(2j+1)/(2j+1)` in fixed point: the series of atanh, and with `alt` that of atan. -/
def atanSeries (alt : Bool) (z2 : Int) : Nat → Nat → Int → Int
  | 0, _, _ => 0
  | n + 1, j, t =>
    t / (2 * (j : Int) + 1) + atanSeries alt z2 n (j + 1) (let u := t * z2 / fixOne; if alt then -u else u)

/-- atanh `z` for `|z| ≤ 1/3`. -/
def fixAtanh (z : Int) : Int := atanSeries false (z * z / fixOne) 150 0 z

/-- atan `1/n`. -/
def fixAtanInv (n : Int) : Int := let z := fixOne / n; atanSeries true (z * z / fixOne) 110 0 z

/-- ln 2 = 2 atanh(1/3). -/
def fixLn2 : Int := 2 * fixAtanh (fixOne / 3)

/-- π/2 = 8 atan(1/5) − 2 atan(1/239). -/
def fixHalfPi : Int := 8 * fixAtanInv 5 - 2 * fixAtanInv 239

/-- A magnitude in fixed point. -/
def toFix (m : Nat) (e : Int) : Int := shiftNat m (e + fixP)

/-- A fixed-point number as an exact value, scaled by `2^k`. -/
def ofFix (x k : Int) : Val := .fin (x < 0) x.natAbs (k - fixP)

/-- Horner's rule for `Σ r^i/i!` over the last `n` of `60` terms. -/
def expSeries (r : Int) : Nat → Int → Int
  | 0, acc => acc
  | n + 1, acc => expSeries r n (fixOne + r * acc / fixOne / ((n : Int) + 1))

/-- Horner's rule for `Σ (−r²)^i/(2i + c)!` over `c`. -/
def trigSeries (r2 : Int) (c : Nat) : Nat → Int → Int
  | 0, acc => acc
  | n + 1, acc => trigSeries r2 c n (fixOne - r2 * acc / fixOne / ((2 * n + 1 + c : Nat) * (2 * n + 2 + c : Nat)))

/-- `e^x` (R42, R43). -/
def fexp (v : Val) : Nat :=
  match v with
  | .nan => 0x7FC00000
  | .inf s => if s then 0 else 0x7F800000
  | .fin s m e =>
    if m ≠ 0 && ilog2 m e ≥ 7 then (if s then 0 else 0x7F800000)
    else
      let x := if s then -toFix m e else toFix m e
      let k := (2 * x + fixLn2) / (2 * fixLn2)
      toFp32 (ofFix (expSeries (x - k * fixLn2) 90 fixOne) k)

/-- `ln x` (R42, R43). -/
def flog (v : Val) : Nat :=
  match v with
  | .nan => 0x7FC00000
  | .inf s => if s then 0x7FC00000 else 0x7F800000
  | .fin s m e =>
    if m = 0 then 0xFF800000
    else if s then 0x7FC00000
    else
      let l := m.log2
      let z := toFix m (-(l : Int))
      let k : Int := l + e
      let big := 2 * z ≥ 3 * fixOne
      let z := if big then z / 2 else z
      let k := if big then k + 1 else k
      toFp32 (ofFix (k * fixLn2 + 2 * fixAtanh ((z - fixOne) * fixOne / (z + fixOne))) 0)

/-- `1/x` (R42, R43): the quotient with a sticky bit. -/
def frcp (v : Val) : Nat :=
  match v with
  | .nan => 0x7FC00000
  | .inf s => if s then 0x80000000 else 0
  | .fin s m e =>
    if m = 0 then (if s then 0xFF800000 else 0x7F800000)
    else
      let q := 2 ^ 100 / m
      toFp32 (.fin s (2 * q + b2n (q * m ≠ 2 ^ 100)) (-e - 101))

/-- `⌊√n⌋` by its bits from `2^(fuel − 1)` down. -/
def isqrt : Nat → Nat → Nat → Nat
  | 0, _, r => r
  | f + 1, n, r => let t := r + 2 ^ f; isqrt f n (if t * t ≤ n then t else r)

/-- `1/√x` (R42, R43): the root with a sticky bit. -/
def frsq (v : Val) : Nat :=
  match v with
  | .nan => 0x7FC00000
  | .inf s => if s then 0x7FC00000 else 0
  | .fin s m e =>
    if m = 0 then (if s then 0xFF800000 else 0x7F800000)
    else if s then 0x7FC00000
    else
      let odd := e % 2 = 1
      let m := if odd then 2 * m else m
      let e := if odd then e - 1 else e
      let r := isqrt 101 (2 ^ 200 / m) 0
      toFp32 (.fin false (2 * r + b2n (r * r * m ≠ 2 ^ 200)) (-(e / 2) - 101))

/-- sin x and cos x (R42, R43), the argument reduced exactly modulo π/2. -/
def fsincos (v : Val) : Nat × Nat :=
  match v with
  | .fin s m e =>
    if m = 0 then (if s then 0x80000000 else 0, 0x3F800000)
    else
      let x := toFix m e
      let k := (2 * x + fixHalfPi) / (2 * fixHalfPi)
      let r := x - k * fixHalfPi
      let r2 := r * r / fixOne
      let sn := r * trigSeries r2 1 50 fixOne / fixOne
      let cs := trigSeries r2 0 50 fixOne
      let sc := match (k % 4).toNat with
        | 0 => (sn, cs)
        | 1 => (cs, -sn)
        | 2 => (-sn, -cs)
        | _ => (-cs, sn)
      (toFp32 (ofFix (if s then -sc.1 else sc.1) 0), toFp32 (ofFix sc.2 0))
  | _ => (0x7FC00000, 0x7FC00000)

end Sys2Proof.Machine
end

