-- ==== Sys2Proof/Machine/Arith.lean ====
section
/-! DEFINITION. The arithmetic of the matrix engine, the vector engine and the special-function unit, on operands as
bytes: exact block accumulation (R79 to R85), vector arithmetic (R86 to R88, R94), masks, top-k selection and the
expert combine (R44 to R46, R59), in the layouts of R138, R518 and R519. -/

namespace Sys2Proof.Machine

/-! ### Exact sums and products -/

/-- The sign of a value. -/
def Val.neg : Val → Bool
  | .nan => false
  | .inf s => s
  | .fin s _ _ => s

/-- A value with the other sign. -/
def Val.flip : Val → Val
  | .nan => .nan
  | .inf s => .inf !s
  | .fin s m e => .fin (!s) m e

/-- The signed integer of `±m × 2^(e − k)`, for `k ≤ e`. -/
def intAt (k : Int) (s : Bool) (m : Nat) (e : Int) : Int :=
  let n : Int := m <<< (e - k).toNat
  if s then -n else n

/-- The exact sum (R83, R86). An exact zero sum is +0 unless both are −0. -/
def addVal : Val → Val → Val
  | .nan, _ => .nan
  | _, .nan => .nan
  | .inf s, .inf t => if s == t then .inf s else .nan
  | .inf s, _ => .inf s
  | _, .inf t => .inf t
  | .fin s m e, .fin t n f =>
    let k := min e f
    let i := intAt k s m e + intAt k t n f
    if i = 0 then .fin (s && t) 0 0 else .fin (i < 0) i.natAbs k

/-- The exact product (R80, R85): infinity times zero is NaN. -/
def mulVal : Val → Val → Val
  | .nan, _ => .nan
  | _, .nan => .nan
  | .inf s, .inf t => .inf (s != t)
  | .inf s, .fin t n _ => if n = 0 then .nan else .inf (s != t)
  | .fin s m _, .inf t => if m = 0 then .nan else .inf (s != t)
  | .fin s m e, .fin t n f => .fin (s != t) (m * n) (e + f)

/-- `a < b` for values that are not NaN, with −0 equal to +0. -/
def ltVal : Val → Val → Bool
  | .nan, _ => false
  | _, .nan => false
  | .inf s, .inf t => s && !t
  | .inf s, .fin _ _ _ => s
  | .fin _ _ _, .inf t => !t
  | .fin s m e, .fin t n f => let k := min e f; decide (intAt k s m e < intAt k t n f)

/-- Whether a value is NaN. -/
def Val.isNan : Val → Bool
  | .nan => true
  | _ => false

/-- The larger value (R86): NaN when any input is NaN, −0 below +0. -/
def maxVal (x y : Val) : Val :=
  if x.isNan || y.isNan then .nan else if ltVal x y then y else if ltVal y x then x else if x.neg then y else x

/-- The smaller value (R86). -/
def minVal (x y : Val) : Val :=
  if x.isNan || y.isNan then .nan else if ltVal x y then x else if ltVal y x then y else if x.neg then x else y

/-- The quiet predicates of `VCMP` (R86, R139). -/
def cmpVal (func : Nat) (x y : Val) : Bool :=
  if x.isNan || y.isNan then func == 1
  else
    let lt := ltVal x y
    let gt := ltVal y x
    match func with
    | 0 => !lt && !gt
    | 1 => lt || gt
    | 2 => lt
    | 3 => !gt
    | 4 => gt
    | _ => !lt

/-! ### Exact block accumulation -/

/-- Emax of R81 over the non-zero finite products. -/
def emax : List Val → Option Int
  | [] => none
  | .fin _ m e :: ps =>
    if m = 0 then emax ps
    else match emax ps with
      | none => some (ilog2 m e)
      | some x => some (max x (ilog2 m e))
  | _ :: ps => emax ps

/-- A product truncated toward zero to a multiple of 2^w (R81). -/
def truncTo (w : Int) : Val → Int
  | .fin s m e => let n : Int := shiftNat m (e - w); if s then -n else n
  | _ => 0

/-- The finite block value (R81). -/
def truncSum (ps : List Val) : Val :=
  match emax ps with
  | none => .zero
  | some x =>
    let w := x - 88
    let i := (ps.map (truncTo w)).foldl (· + ·) 0
    .fin (i < 0) i.natAbs w

/-- The block value B (R81, R85). -/
def blockValue (ps : List Val) : Val :=
  let pos := ps.any (· == .inf false)
  let neg := ps.any (· == .inf true)
  if ps.any Val.isNan || (pos && neg) then .nan
  else if pos then .inf false else if neg then .inf true
  else truncSum ps

/-- One update of a float running sum (R83): rounded once, and S unchanged when B is exactly zero. -/
def floatStep (s b : Val) : Val :=
  match b with
  | .fin _ 0 _ => s
  | _ => match addVal s b with
    | .fin _ 0 _ => .zero
    | r => decodeFloat fp32L (toFp32 r)

/-- An integer sum clamped to INT32, and whether it saturated (R84). -/
def clamp32 (i : Int) : Int × Nat :=
  if i > 2 ^ 31 - 1 then (2 ^ 31 - 1, 1) else if i < -(2 ^ 31) then (-(2 ^ 31), 1) else (i, 0)

/-- B × 2^−`QEXP` rounded to an integer, ties to even (R84). -/
def roundBlock (qexp : Int) : Val → Int
  | .fin s m e => let n : Int := roundShift .nearest m (e - qexp); if s then -n else n
  | _ => 0

/-! ### The matrix engine -/

/-- An element of an `MMA` operand: its value under its scale, its encoding and its scale byte. -/
structure Operand where
  v : Val
  raw : Nat
  scale : Nat
deriving DecidableEq, Repr

/-- Column width w and turns t to load a B tile, by the B element's storage width (R33). -/
def colWidth (width : Nat) : Nat := if width = 4 then 128 else if width = 8 then 64 else if width = 16 then 32 else 4
def tileTurns (width : Nat) : Nat := if width = 32 then 1 else 2

/-- Floats of 8 bits or fewer, with or without MX scales. -/
def Fmt.narrowFloat (f : Fmt) : Bool := match f.elem with | .float _ => f.width ≤ 8 | _ => false

/-- The pairs of R35 with `B` first: none for a pair outside the table, else whether it is an integer pair. -/
def pairKind (a b : Fmt) : Option Bool :=
  if b.narrowFloat && a.narrowFloat then some false
  else if b.code = 17 then (if a.code = 17 then some false else none)
  else if b.code = 14 || b.code = 13 || b.code = 12 then
    (if a.code = 13 || a.code = 12 || a.code = 14 then some true else none)
  else if b.code = 2 || b.code = 3 then (if a.code = 2 || a.code = 3 then some false else none)
  else if b.code = 1 then (if a.code = 1 then some false else none)
  else none

/-- 64 elements with the scales of their run. -/
def operands (f : Fmt) (raws scales : List Nat) : List Operand :=
  raws.zipIdx.map fun ri =>
    if f.block = 0 then ⟨decodeElem f.elem ri.1, ri.1, 127⟩
    else
      let s := scales.getD (ri.2 / f.block) 127
      ⟨scaled (decodeElem f.elem ri.1) s, ri.1, s⟩

/-- Scales that 64 elements carry. -/
def scalesPer (f : Fmt) : Nat := if f.block = 0 then 0 else 64 / f.block

/-- Scale bytes at an offset. -/
def scalesAt (f : Fmt) (off : Nat) (bs : List Byte) : List Nat := (sliceB bs off (scalesPer f)).map (·.toNat)

/-- Row `i` of A as blocks of 64 along K (R138). -/
def rowOfA (f : Fmt) (m k i : Nat) (bs : List Byte) : List (List Operand) :=
  let stride := roundUp (k * f.width / 8) 64
  let run := 8 * f.width
  let group := roundUp (m * scalesPer f) 64
  (List.range (k / 64)).map fun kb =>
    operands f (unpackRow f 64 (sliceB bs (i * stride + kb * run) run))
      (scalesAt f (m * stride + kb * group + i * scalesPer f) bs)

/-- Column `j` of B as blocks of 64 along K (R138). -/
def colOfB (f : Fmt) (k n j : Nat) (bs : List Byte) : List (List Operand) :=
  let w := colWidth f.width
  let run := 8 * f.width
  let group := roundUp (w * scalesPer f) 64
  (List.range (k / 64)).map fun kb =>
    let tile := j / w * (k / 64) + kb
    operands f (unpackRow f 64 (sliceB bs (tile * (w * run) + j % w * run) run))
      (scalesAt f (n / w * (k / 64) * (w * run) + tile * group + j % w * scalesPer f) bs)

/-- A product (R80): exact, and for XL4 by adding codes. -/
def product (xl4 : Bool) (a b : Operand) : Val :=
  if xl4 then
    if a.scale = 255 || b.scale = 255 then .nan
    else if a.raw % 8 = 7 || b.raw % 8 = 7 then .zero
    else
      let s := a.raw % 8 + b.raw % 8
      .fin (bit a.raw 3 != bit b.raw 3) (if s % 2 = 1 then xl4T1 else 2 ^ 23)
        (-23 - ((s + 1) / 2 : Nat) + (a.scale : Int) + b.scale - 254)
  else mulVal a.v b.v

/-- A float running sum over the blocks of K (R79). -/
def floatSum (xl4 : Bool) : List (List Operand) → List (List Operand) → Val → Val
  | a :: as, b :: bs, s => floatSum xl4 as bs (floatStep s (blockValue (List.zipWith (product xl4) a b)))
  | _, _, s => s

/-- An integer running sum (R84, R85): the sum, saturations, and whether a scale of 0xFF has set it. -/
def intSum (qexp : Int) : List (List Operand) → List (List Operand) → Int → Nat → Int × Nat × Bool
  | a :: as, b :: bs, s, n =>
    if (a ++ b).any (·.scale == 255) then (-(2 ^ 31), n, true)
    else
      let r := clamp32 (s + roundBlock qexp (truncSum (List.zipWith (product false) a b)))
      intSum qexp as bs r.1 (n + r.2)
  | _, _, s, n => (s, n, false)

/-- The parameters of an `MMA` (R137). -/
structure MmaShape where
  fa : Fmt
  fb : Fmt
  m : Nat
  k : Nat
  n : Nat
  acc : Bool
  qexp : Int
deriving DecidableEq, Repr

/-- One sum of the result: its encoding, saturations, and sums set by a scale of 0xFF. -/
def mmaCell (sh : MmaShape) (a b : List (List Operand)) (init : Nat) : Nat × Nat × Nat :=
  if pairKind sh.fa sh.fb = some true then
    let r := intSum sh.qexp a b (signed 32 init) 0
    (unsigned 32 r.1, r.2.1, b2n r.2.2)
  else (toFp32 (floatSum (sh.fb.code == 17) a b (decodeFloat fp32L init)), 0, 0)

/-- `MMA` (R79 to R85): A, B and the initial sums. -/
def mma (sh : MmaShape) (a b c : List Byte) : Out :=
  let cols := (List.range sh.n).map fun j => colOfB sh.fb sh.k sh.n j b
  let stride := roundUp (4 * sh.n) 64
  let rows := (List.range sh.m).map fun i =>
    let ra := rowOfA sh.fa sh.m sh.k i a
    cols.zipIdx.map fun cj => mmaCell sh ra cj.1 (if sh.acc then field c (i * stride + 4 * cj.2) 4 else 0)
  ⟨rows.flatMap fun r => padTo stride (r.flatMap fun x => toLe 4 x.1),
    sumNat (rows.flatten.map (·.2.1)), sumNat (rows.flatten.map (·.2.2))⟩

/-- `MTRN` (R51): the 64 × 64 transpose of elements of `w` bytes, bits unchanged. -/
def mtrn (w : Nat) (a : List Byte) : Out :=
  ⟨(List.range 64).flatMap fun j => (List.range 64).flatMap fun i => sliceB a (i * 64 * w + j * w) w, 0, 0⟩

/-! ### The vector engine -/

/-- What a vector word states (R139), with the row ids and the tensor of R91. -/
structure VecShape where
  fin : Fmt
  fout : Fmt
  rd : Rounding
  sat : Bool
  opnd2 : Nat
  /-- The value of `s(SREG)`. -/
  sreg : Nat
  rows : Nat
  len : Nat
  func : Nat
  ret : Nat
deriving DecidableEq, Repr

/-- One value for each element from one value for each block of 32 (R519). -/
def spread32 (n : Nat) (xs : List Nat) : List Nat := (xs.flatMap (List.replicate 32)).take n

/-- The encodings of the second operand, one for each element of each row (R519). -/
def secondRaws (f : Fmt) (sh : VecShape) (b : List Byte) : List (List Nat) :=
  match sh.opnd2 with
  | 0 => readRaws f sh.rows sh.len b
  | 1 => List.replicate sh.rows (List.replicate sh.len (sh.sreg % 2 ^ f.elem.bits))
  | 2 => (unpackRow f sh.rows b).map (List.replicate sh.len)
  | _ =>
    let per := ceilDiv sh.len 32
    let st := roundUp (f.rowBytes per) 8
    (List.range sh.rows).map fun r => spread32 sh.len (unpackRow f per (sliceB b (r * st) (f.rowBytes per)))

/-- The values of the second operand in `FMT_IN`. -/
def second (sh : VecShape) (b : List Byte) : List (List Val) :=
  if sh.opnd2 = 0 then readArray sh.fin sh.rows sh.len b
  else (secondRaws sh.fin sh b).map (·.map (decodeElem sh.fin.elem))

/-- The result of an operation rounded once and laid out (R86, R518). -/
def vecOut (sh : VecShape) (n : Nat) (rows : List (List Val)) : Out :=
  writeArray sh.fout sh.rd sh.sat sh.fin.largest n rows

/-- An element-wise operation of two operands. -/
def vecBin (g : Val → Val → Val) (sh : VecShape) (a b : List Byte) : Out :=
  vecOut sh sh.len (List.zipWith (List.zipWith g) (readArray sh.fin sh.rows sh.len a) (second sh b))

/-- `VFMA`: a × b + c, rounded once. -/
def vecFma (sh : VecShape) (a b c : List Byte) : Out :=
  vecOut sh sh.len (List.zipWith (List.zipWith addVal)
    (List.zipWith (List.zipWith mulVal) (readArray sh.fin sh.rows sh.len a) (second sh b))
    (readArray sh.fin sh.rows sh.len c))

/-- Words of a mask row: element j is bit j mod 64 of word ⌊j/64⌋ (R44); `fuel` bounds the words. -/
def maskWords : Nat → List Bool → List Nat
  | 0, _ => []
  | fuel + 1, bs => (bs.take 64).foldr (fun b n => b2n b + 2 * n) 0 :: maskWords fuel (bs.drop 64)

/-- `VCMP`: the mask (R44). -/
def vecCmp (sh : VecShape) (a b : List Byte) : Out :=
  ⟨(List.zipWith (List.zipWith (cmpVal sh.func)) (readArray sh.fin sh.rows sh.len a) (second sh b)).flatMap fun r =>
    (maskWords (ceilDiv sh.len 64) r).flatMap (toLe 8), 0, 0⟩

/-- The bits of a mask row. -/
def maskBits (n : Nat) (bs : List Byte) : List Bool :=
  (bs.flatMap fun b => (List.range 8).map (bit b.toNat)).take n

/-- An encoding with NaN written as the one NaN of its format (R65). -/
def oneNan (f : Fmt) (raw : Nat) : Nat :=
  match f.elem with
  | .float l => if (decodeFloat l raw).isNan then l.nanRaw.getD raw else raw
  | _ => raw

/-- `VSEL` (R44): a where the mask bit is 1. -/
def vecSel (sh : VecShape) (a b c : List Byte) : Out :=
  let ra := readRaws sh.fin sh.rows sh.len a
  let rb := secondRaws sh.fin sh b
  let w := ceilDiv sh.len 64 * 8
  ⟨(List.zip ra rb).zipIdx.flatMap fun p =>
    padTo (sh.fin.stride sh.len) (packRow sh.fin
      (List.zipWith (fun m (x : Nat × Nat) => oneNan sh.fin (if m then x.1 else x.2))
        (maskBits sh.len (sliceB c (p.2 * w) w)) (List.zip p.1.1 p.1.2))), 0, 0⟩

/-- `VCVT` (R71, R72). DESIGN CHOICE (log entry 60): R93 leaves open whether `KIND` 2 or 4 saturates without `SAT` in the word; `SAT`
alone counts. -/
def vecCvt (sh : VecShape) (a : List Byte) : Out := vecOut sh sh.len (readArray sh.fin sh.rows sh.len a)

/-- `VSCALE` (R87): multiplication by E8M0 scales. -/
def vecScale (sh : VecShape) (a b : List Byte) : Out :=
  vecOut sh sh.len (List.zipWith (List.zipWith scaled) (readArray sh.fin sh.rows sh.len a)
    (secondRaws ⟨13, .int 8, 8, 0, 7⟩ sh b))

/-- The row sum over blocks of 64 (R86): of FP32, or of INT32 with saturation. DESIGN CHOICE (log entry 60): an INT32 sum
saturates, and counts, at each block. -/
def rowSum (int : Bool) (xs : List Val) : Val × Nat :=
  (pieces 64 xs.length xs).foldl (fun s blk =>
    if int then
      let r := clamp32 (roundBlock 0 s.1 + roundBlock 0 (truncSum blk))
      (.fin (r.1 < 0) r.1.natAbs 0, s.2 + r.2)
    else (floatStep s.1 (blockValue blk), s.2)) (.zero, 0)

/-- Whether `FMT_IN` is an integer format. -/
def Fmt.isInt (f : Fmt) : Bool := match f.elem with | .int _ => true | _ => false

/-- Row results as one packed row (R518). DESIGN CHOICE (log entry 60): `SAT` applies to the final sum, and every result
rounds under row 0's id, that of the packed row. -/
def vecRows (sh : VecShape) (vs : List (Val × Nat)) : Out :=
  let o := vecOut sh vs.length [vs.map (·.1)]
  ⟨o.bytes, o.sat + sumNat (vs.map (·.2)), o.nan⟩

/-- `VRSUM`, `VRSSQ`, `VRMAX` (R86). -/
def vecRsum (sh : VecShape) (a : List Byte) : Out :=
  vecRows sh ((readArray sh.fin sh.rows sh.len a).map (rowSum sh.fin.isInt))
def vecRssq (sh : VecShape) (a : List Byte) : Out :=
  vecRows sh ((readArray sh.fin sh.rows sh.len a).map fun r => rowSum false (r.map fun x => mulVal x x))
def vecRmax (sh : VecShape) (a : List Byte) : Out :=
  vecRows sh ((readArray sh.fin sh.rows sh.len a).map fun r => (r.foldl maxVal (.inf true), 0))

/-- `VABSMAX` (R87): the scale byte of each block. -/
def vecAbsmax (sh : VecShape) (a : List Byte) : Out :=
  let n := if sh.fout.elem = .xl4 then 16 else 32
  ⟨(readArray sh.fin sh.rows sh.len a).flatMap fun r =>
    padTo (roundUp (ceilDiv sh.len n) 8)
      ((pieces n r.length r).map fun b => BitVec.ofNat 8 (blockScale sh.fout.elem sh.sat sh.fin.largest b)), 0, 0⟩

/-- `VUPD` (R94): an XM40 weight and an FP32 update. -/
def vecUpd (sh : VecShape) (a b : List Byte) : Out :=
  writeArray xm40 .nearest sh.sat sh.fin.largest sh.len
    (List.zipWith (List.zipWith addVal) (readArray xm40 sh.rows sh.len a) (readArray fp32 sh.rows sh.len b))

/-- The gate-weighted sum of one row's contributions, ordered by rank and contribution (R59): exact, rounded once. -/
def combineRow (ret : Nat) (gates : List Val) (contribs : List (List Val)) : List Val :=
  let ts := contribs.zipIdx.map fun ci => ci.1.map (mulVal (gates.getD (ci.2 / ret) .zero))
  match ts with
  | [] => []
  | t :: ts => ts.foldl (List.zipWith addVal) t

/-- `XCOMB` (R59): the contributions of each row in rank and contribution order, and the gate weights (R519). -/
def vecComb (sh : VecShape) (contribs : List (List Byte)) (b : List Byte) : Out :=
  let k := sh.func + 1
  let vs := contribs.map (readArray fp32 sh.rows sh.len)
  let gates := readArray fp32 sh.rows k b
  vecOut sh sh.len ((List.range sh.rows).map fun r => combineRow sh.ret (gates.getD r []) (vs.map (·.getD r [])))

/-- An FP32 function of every element. -/
def vecMap (g : Val → Nat) (sh : VecShape) (a : List Byte) : Out :=
  ⟨(readArray fp32 sh.rows sh.len a).flatMap fun r => padTo (fp32.stride sh.len) (r.flatMap fun x => toLe 4 (g x)), 0, 0⟩

/-- `FSINCOS` (R44): interleaved pairs. -/
def vecSincos (sh : VecShape) (a : List Byte) : Out :=
  ⟨(readArray fp32 sh.rows sh.len a).flatMap fun r =>
    padTo (fp32.stride (2 * sh.len)) (r.flatMap fun x => let p := fsincos x; toLe 4 p.1 ++ toLe 4 p.2), 0, 0⟩

/-- Whether score `x` ranks strictly before `y`, of a lower column (R45). -/
def ranksAfter (x y : Val) : Bool := if y.isNan then false else if x.isNan then true else ltVal x y

/-- The best of the scores that remain, by ascending column: the column, its encoding and value. -/
def bestScore : List (Nat × Nat × Val) → Option (Nat × Nat × Val)
  | [] => none
  | x :: xs => match bestScore xs with
    | none => some x
    | some y => if ranksAfter x.2.2 y.2.2 then some y else some x

/-- The `k` best scores in rank order (R45). -/
def topScores : Nat → List (Nat × Nat × Val) → List (Nat × Nat × Val)
  | 0, _ => []
  | k + 1, xs => match bestScore xs with
    | none => []
    | some x => x :: topScores k (xs.filter fun y => y.1 != x.1)

/-- `TOPK` (R45): k FP32 scores, then k 16-bit columns padded to a word. -/
def vecTopk (sh : VecShape) (a : List Byte) : Out :=
  let k := sh.func + 1
  ⟨(readRaws fp32 sh.rows sh.len a).flatMap fun r =>
    let best := topScores k (r.zipIdx.map fun ri => (ri.2, oneNan fp32 ri.1, decodeFloat fp32L ri.1))
    padTo (roundUp (6 * k) 64) ((best.flatMap fun x => toLe 4 x.2.1) ++ (best.flatMap fun x => toLe 2 x.1)), 0, 0⟩

end Sys2Proof.Machine
end

