-- ==== Sys2Proof/Config.lean ====
section
/-! DEFINITION. What one part fixes and the spec leaves open: free values, opaque, so that no proof can see one. -/

namespace Sys2Proof.Config

/-- Contents of a byte of memory that nothing has written since the power-on of that number (R231, R242): power-on,
space, address. -/
opaque freeByte : Nat → Nat → Nat → Byte

/-- What a read delivers when the stored word's wrong bits lie beyond the code's reach (R111): draw, data. -/
opaque missedRead : Nat → Word → Word

/-- Whether a read that may fall before or after the commit of a write in flight finds the new word (R103): draw, word address. -/
opaque lateRead : Nat → Nat → Bool

/-- A byte of a copy's destination from the failing unit on (R235, R343): draw, offset. -/
opaque copyByte : Nat → Nat → Byte

/-- Global address of a batch's result array (R204): graph, kind, batch number. -/
opaque resultAddr : Nat → Nat → Nat → Nat

/-- Line of the module area at which the done words begin (R206, R223). -/
opaque doneBase : Nat

/-- The 64-byte line of the module area at which the redirect maps of the retirement slots begin, one behind the other (R238, log
entry 65). -/
opaque mapBase : Nat

/-- A byte of the module area that holds the tracker's own data, whose layout no rule gives (R223, R238): draw, offset. -/
opaque areaByte : Nat → Nat → Byte

/-- The step identifier of a batch whose graph asks for one (R204): graph, kind, batch number. -/
opaque stepId : Nat → Nat → Nat → Nat

/-- Where a copy of a multicast lands in a member's Tarn, for the resolved address of the operation (R260 gives no
landing place). -/
opaque mcastWord : Nat → Nat

/-- The monitor's random source (R511): number of the challenge. -/
opaque nonce : Nat → List Byte

/-- Values per part (R481): vendor ID, stepping, board issue, serial number. -/
opaque vendorId : Nat
opaque stepping : Nat
opaque board : Nat
opaque serial : Nat

/-- `GA2` to `GA0`, as the sled straps them (R493, R499). -/
opaque sledAddress : Nat

/-- The device secret, the digest of the boot ROM and the digests of the eight key slots, firmware slots first (R463,
R474). -/
opaque deviceSecret : BitVec 256
opaque romDigest : List Byte
opaque keySlot : Nat → List Byte

/-- The manifest of the firmware image that the module left the factory with (R465). -/
opaque factoryManifest : List Byte

/-- A value that no rule states: draw. -/
opaque freeWord : Nat → Word

end Sys2Proof.Config
end

