-- ==== Sys2Proof/Machine/Table.lean ====
section
/-! DEFINITION. Sparse tables by number, in one canonical form: keys strictly rising, and no entry equal to what
an unlisted key reads as. Memory is the table of bytes. -/

namespace Sys2Proof.Machine

/-- A sparse table: number and value. -/
abbrev Tab (α : Type) := List (Nat × α)

/-- The value at `k`; `d` where no entry is listed. -/
def Tab.get {α : Type} (d : α) : Tab α → Nat → α
  | [], _ => d
  | e :: m, k => if e.1 = k then e.2 else Tab.get d m k

/-- The table without an entry at `k`. -/
def Tab.erase {α : Type} (k : Nat) : Tab α → Tab α
  | [] => []
  | e :: m => if e.1 = k then Tab.erase k m else e :: Tab.erase k m

/-- An entry put ahead of the first greater key. -/
def Tab.ins {α : Type} (k : Nat) (v : α) : Tab α → Tab α
  | [] => [(k, v)]
  | e :: m => if k < e.1 then (k, v) :: e :: m else e :: Tab.ins k v m

/-- The table with `v` at `k`: the value an unlisted key reads as leaves no entry. -/
def Tab.put {α : Type} [DecidableEq α] (d : α) (k : Nat) (v : α) (m : Tab α) : Tab α :=
  if v = d then Tab.erase k m else Tab.ins k v (Tab.erase k m)

/-- The value at `k` changed by `f`. -/
def Tab.upd {α : Type} [DecidableEq α] (d : α) (k : Nat) (f : α → α) (m : Tab α) : Tab α :=
  Tab.put d k (f (Tab.get d m k)) m

/-- Keys strictly rising from above `lo`, and no entry equal to `d`. -/
def Tab.wfFrom {α : Type} [DecidableEq α] (d : α) : Option Nat → Tab α → Bool
  | _, [] => true
  | lo, e :: m =>
    (match lo with
      | none => true
      | some l => decide (l < e.1)) && decide (e.2 ≠ d) && Tab.wfFrom d (some e.1) m

/-- The canonical form. -/
def Tab.wf {α : Type} [DecidableEq α] (d : α) (m : Tab α) : Bool := Tab.wfFrom d none m

/-- A run of values put from `k` on. -/
def Tab.putAll {α : Type} [DecidableEq α] (d : α) : Nat → List α → Tab α → Tab α
  | _, [], m => m
  | k, v :: vs, m => Tab.putAll d (k + 1) vs (Tab.put d k v m)

/-- The run of `n` values from `k` on. -/
def Tab.getAll {α : Type} (d : α) (m : Tab α) : Nat → Nat → List α
  | _, 0 => []
  | k, n + 1 => Tab.get d m k :: Tab.getAll d m (k + 1) n

/-- The table without its entries at keys in `[lo, lo + n)`. -/
def Tab.clear {α : Type} (lo n : Nat) (m : Tab α) : Tab α := m.filter fun e => !(lo ≤ e.1 && e.1 < lo + n)

end Sys2Proof.Machine
end

