-- ==== Sys2Proof/Machine/TileState.lean ====
section
/-! DEFINITION. The state of one tile: its configuration, queues, channels, Tarn, engines and counters
(R21 to R55, R99 to R123, R129 to R143, R173). -/

namespace Sys2Proof.Machine

/-- What a token names (R129). -/
inductive TokenBody where
  /-- Words of the Tarn: address and length in words. -/
  | data (addr len : Nat)
  /-- Rows in an expert overflow area: first row and row count (`OVF`). -/
  | overflow (first rows : Nat)
  /-- A Pennant and its 40-bit `VALUE`. -/
  | pennant (value : Nat)
  /-- A Burgee token and its configuration generation. -/
  | burgee (generation : Nat)
deriving DecidableEq, Repr

/-- A token, a Pennant or a Burgee token (R129). -/
structure Token where
  body : TokenBody
  tag : Nat
  poison : Bool
deriving DecidableEq, Repr

/-- One entry of a queue table (R131). -/
structure QueueCfg where
  depth : Nat
  pairShare : Nat
  source : Nat
  pennant : Bool
  fixed : Bool
  bufBase : Nat
  bufWords : Nat
  groupRows : Nat
  xmap : Nat
  expert : Nat
deriving DecidableEq, Repr

/-- An unused queue. -/
def QueueCfg.reset : QueueCfg := ⟨0, 0, 0, false, false, 0, 0, 0, 0, 0⟩

/-- A message-channel route, `CH_ROUTE[n]` (R54). -/
structure Route where
  dest : Nat
  chan : Nat
  slot : Nat
  enable : Bool
deriving DecidableEq, Repr

/-- `CH_ROUTE[n]` at reset (R54). -/
def Route.reset : Route := ⟨0, 0, 0, false⟩

/-- A tile's configuration: what a Burgee switches (R165) and binding writes (R154). -/
structure TileCfg where
  layerUnits : Nat
  ops : Tab OpWord
  opWords : Nat
  queues : Tab QueueCfg
  routes : Tab Route
  generation : Nat
deriving DecidableEq, Repr

/-- No graph bound: the region count is 88 (R105). -/
def TileCfg.reset : TileCfg := ⟨88, [], 0, [], [], 0⟩

/-- A queue's contents: tokens that count, and tokens that arrived in this turn (R28). -/
structure Queue where
  toks : List Token
  fresh : List Token
  /-- Tokens sent to this queue since the configuration took effect: the ring entry of R133. -/
  sent : Nat
deriving DecidableEq, Repr

/-- An empty queue. -/
def Queue.reset : Queue := ⟨[], [], 0⟩

/-- A producer's credits for one queue: those that count, those that arrived in this turn, those on their way. -/
structure Credit where
  held : Nat
  fresh : Nat
  returning : Nat
deriving DecidableEq, Repr

/-- No credit. -/
def Credit.reset : Credit := ⟨0, 0, 0⟩

/-- One message channel's two sides (R52 to R55). -/
structure Channel where
  recv : List Word
  /-- Words among `recv`, at its end, that arrived in this turn (R53). -/
  fresh : Nat
  credits : Nat
  /-- Send credits that came back in this turn, and count from the next one (R28). -/
  freshCredits : Nat
  parityErr : Bool
  /-- The send side holds its words: the receive side of its route does not yet stand ready (R55). -/
  held : Bool
deriving DecidableEq, Repr

/-- A channel at reset (R54). -/
def Channel.reset : Channel := ⟨[], 0, 0, 0, false, false⟩

/-- A word of the Tarn as stored: the data, the number of wrong bits among its stored cells (R111), and whether the
store carries the poison pattern (R112). -/
structure TarnWord where
  data : Word
  wrong : Nat
  poison : Bool
deriving DecidableEq, Repr

/-- A cleared word (R109). -/
def TarnWord.zero : TarnWord := ⟨0, 0, false⟩

/-- A 48-bit counter with its sticky overflow bit (R32, R394). -/
structure Counter where
  count : Nat
  ovf : Bool
deriving DecidableEq, Repr

/-- A counter at reset. -/
def Counter.reset : Counter := ⟨0, false⟩

/-- `PWR_STATE` of a Tarn (R118). -/
inductive TarnPower where
  | active | retain | off
deriving DecidableEq, Repr

/-- `TARN_ERR_ADDR` (Tarn registers). -/
structure TarnErr where
  word : Nat
  kind : Nat
  valid : Bool
deriving DecidableEq, Repr

/-- Where one piece of a memory-plane transfer stands (R47, R48). -/
inductive PieceState where
  /-- Not yet asked for. -/
  | waiting
  /-- Not yet asked for, since no connection to the module was to be had, and the Cairn from which on it waits (R293, R296). -/
  | unconnected (since : Nat)
  /-- Sent to another module, or to the members of a Bunting; its responses are awaited. -/
  | remote
  /-- Served: the data and its poison mark, or the status other than `OK`. -/
  | served (data : List Byte) (poison : Bool) (status : Nat)
  /-- Landed in the Tarn, or acknowledged. -/
  | landed
deriving DecidableEq, Repr

/-- What a piece is for. -/
inductive PieceKind where
  | read | write | addrList | crcList
  /-- A multicast packet to the members of a graph Bunting (R258). -/
  | cast (bunting : Nat)
deriving DecidableEq, Repr

/-- Where a copy of a multicast packet stands (R258 to R261). Routers are numbered: massif leaves 0 to 19, then spine j of die d
as 20 + 8 × d + j. -/
inductive CopyState where
  /-- Held in the multicast buffer of a branching router. -/
  | held (router : Nat)
  /-- At the input of a branching router whose buffer is full: router, and the link that leads there. -/
  | atInput (router link : Nat)
  /-- Acknowledged, with the poison mark or without. -/
  | acked (poison : Bool)
deriving DecidableEq, Repr

/-- One request of up to 256 bytes of a memory-plane operation (R47). -/
structure Piece where
  kind : PieceKind
  addr : Nat
  tarn : Nat
  bytes : Nat
  data : List Byte
  poison : Bool
  state : PieceState
  /-- Copies of a multicast packet: member tile, whether a parity error has marked the copy, and where it stands. -/
  copies : List (Nat × Bool × CopyState)
deriving DecidableEq, Repr

/-- Words of the Tarn that change while operations may still read them (R103): word, what it held before and after, the first
and last cycle in which the change may be committed, and the firing that makes it, where one does. -/
structure TarnChange where
  word : Nat
  old : TarnWord
  new : TarnWord
  lo : Nat
  hi : Nat
  by_ : Option Nat
deriving DecidableEq, Repr

/-- A firing that has not completed: what R24, R353 and R365 need of it. -/
structure Firing where
  id : Nat
  index : Nat
  /-- Firings of the operation before this one under the configuration (R130). -/
  count : Nat
  /-- Island cycle of the first firing and of the latest one (R353). -/
  first : Nat
  fire : Nat
  issue : Nat
  depth : Nat
  /-- Completion follows R48. -/
  openEnded : Bool
  /-- Consumed tokens, by input (R134). -/
  inputs : List (Nat × Token)
  /-- Ranges of the Tarn that it reads: first word and words (R108, R354). -/
  reads : List (Nat × Nat)
  /-- Scalar registers as they stood at the fire (R136). -/
  regsAt : Tab Word
  outs : List (Nat × Token)
  writes : List (Nat × Word)
  regs : List (Nat × Word)
  poison : Bool
  /-- Poison that came from R100 or R142, which is not repeated (R356). -/
  noReplay : Bool
  sat : Nat
  nan : Nat
  /-- Times fired again for a failure (R353). -/
  again : Nat
  failed : Bool
  /-- No later firing has overwritten what it read (R354). -/
  intact : Bool
  /-- Words it sends on the stream plane, or its Summit's sequence number. -/
  sent : List Word
  pieces : List Piece
  /-- Status other than `OK` recorded under R50. -/
  status : Nat
  /-- The global address at which it failed. -/
  failAt : Nat
  /-- Blocks of a `WLOAD` fetched again (R49). -/
  reloaded : List Nat
  /-- The words of a circuit that a receive awaits, or the one release of a `SUMMIT` (R256). -/
  acks : Nat
  /-- Copies of an `XDISP`'s rows that no member has acknowledged: slot and rank (R260), and the requests of each row
  (R47). -/
  rowAcks : List (Nat × Nat)
  rowRequests : Nat
  /-- Copies of its count records that no member has acknowledged, by expert (R260). -/
  countAcks : List Nat
  /-- Words of its operands that have changed since it fired, as it reads them, and whether it has read them already (R103). -/
  readAs : List (Nat × TarnWord × Bool)
deriving DecidableEq, Repr

/-- Arrival state of one dispatch queue for its step (R57, R58, R152). -/
structure Dispatch where
  tag : Nat
  rows : Nat
  /-- Virtual tiles whose count record has come, with their counts. -/
  counts : List (Nat × Nat)
  /-- Batch slot and rank of each row, in arrival order (R56). -/
  slots : List (Nat × Nat)
  /-- Virtual tiles whose Burgee record has come (R169). -/
  burgees : List Nat
  /-- A count record of the step came with a poison mark (R40, R254). -/
  poison : Bool
deriving DecidableEq, Repr

/-- Nothing has arrived. -/
def Dispatch.reset : Dispatch := ⟨0, 0, [], [], [], false⟩

/-- A tile's counters (R32, R88, R173, R353, Tarn registers). Stalls are numbered engine × 3 + kind in the order of
R173: engines matrix, vector, stream, steering; kinds input, output, engine. -/
structure TileCounters where
  stalls : Tab Counter
  empty : Tab Counter
  full : Tab Counter
  numSat : Counter
  numNan : Counter
  integReplay : Counter
  tarnCe : Counter
  tarnUe : Counter
  tarnPoison : Counter
  tarnCrcReload : Counter
deriving DecidableEq, Repr

/-- Counters at reset and after binding (R173). -/
def TileCounters.reset : TileCounters :=
  ⟨[], [], [], .reset, .reset, .reset, .reset, .reset, .reset, .reset⟩

/-- An engine's timing (R24, R26): the cycle from which it is free, whether it has fired in this turn, and the cycle
at which it last became idle (R31). -/
structure Engine where
  freeAt : Nat
  fired : Bool
  idleSince : Nat
deriving DecidableEq, Repr

/-- An engine from cycle 0. -/
def Engine.reset : Engine := ⟨0, false, 0⟩

/-- What a tile is used for besides being bound (R364, R377, R123, R438). -/
inductive TileUse where
  | free
  /-- Bound to a graph as a virtual tile (R155). -/
  | bound (graph vtile : Nat)
  /-- Shadow of the named primary (R364). -/
  | shadow (primary : Nat)
  /-- Under a stress session (R377): its end, and whether the nominal retest runs (R379). -/
  | stress (until_ : Nat) (cases : Nat) (retest : Bool)
  /-- Staged: the Cairn of its last staging access (R123). -/
  | staged (last : Nat)
  /-- Under an on-demand slice (R438). -/
  | onDemand
deriving DecidableEq, Repr

/-- A wait edge (R160, R382): the queue for whose credits alone an operation of the tile waits, a message channel counting from
256 on, and the island cycles at which the edge began of the tiles that a circle through it may hold. -/
structure WaitEdge where
  queue : Nat
  since : Tab Nat
deriving DecidableEq, Repr

/-- The tile's execution state: what an abandonment returns to the state just after binding (R357). -/
structure TileRun where
  queues : Tab Queue
  credits : Tab Credit
  emitted : List (Nat × Token)
  channels : Tab Channel
  flights : List Firing
  nextId : Nat
  firings : Tab Nat
  engines : Tab Engine
  /-- Weight-half holds (R108): half and the cycle at which the hold ends; `none` for a `WLOAD` that runs. -/
  halfHolds : List (Nat × Option Nat)
  /-- Ring-entry holds (R133): first word of the entry, queue of the ring, end cycle. -/
  ringHolds : List (Nat × Nat × Nat)
  /-- Accumulator bank in use by a firing (R37). -/
  banks : Tab (Option Nat)
  /-- A load-step lead that runs: operation and the cycle it ends (R31). -/
  lead : Option (Nat × Nat)
  /-- `SUMMIT` firings on each module Bunting (R256). -/
  summits : Tab Nat
  dispatch : Tab Dispatch
  /-- Posted receives on circuits: circuit, words, index of the receiving operation (R147). -/
  posted : List (Nat × Nat × Nat)
  /-- The tile has stopped firing under an abandonment (R357). -/
  stopped : Bool
  /-- The Burgee: passed, and the cycle at which the switch ends (R165, R166). -/
  burgeePassed : Bool
  switchUntil : Option Nat
  /-- Layer units before the switch that runs, for its clearing (R109, R165). -/
  clearFrom : Option Nat
  /-- Changes of the Tarn in this turn, for the operations that read beside them (R103). -/
  changes : List TarnChange
  /-- The tile's wait edges as of its last turn (R160). -/
  waiting : List WaitEdge
  /-- In a shadow, the responses of its primary that its own requests have yet to meet (R364): operation, firing count, piece,
  and the response. -/
  copied : List (Nat × Nat × Nat × PieceState)
deriving DecidableEq, Repr

/-- An idle tile's execution state. -/
def TileRun.reset : TileRun :=
  ⟨[], [], [], [], [], 0, [], [], [], [], [], none, [], [], [], false, false, none, none, [], [], []⟩

/-- A tile (R21 to R55, R99 to R123). -/
structure Tile where
  use : TileUse
  cfg : TileCfg
  /-- The configuration staged by a `RECONFIG` load (R163). -/
  staged : Option TileCfg
  /-- Staging writes of the host side that wait for the tile's domains and the clearing: first byte in the Tarn, bytes, poison
  (R123). -/
  staging : List (Nat × List Byte × Bool)
  run : TileRun
  /-- Island cycle at which the current wheel turn began (R22). -/
  cycle : Nat
  sregs : Tab Word
  tarn : Tab TarnWord
  tarnPower : TarnPower
  clearing : Bool
  tarnErr : TarnErr
  cnt : TileCounters
  /-- Compute domain ON (R405). -/
  on : Bool
  fenced : Bool
  score : Nat
  tarnScore : Nat
  /-- Part state 0 OK, 1 WATCH, 2 SUSPECT, 3 FENCED of the tile and of its Tarn (R373). -/
  part : Nat
  tarnPart : Nat
  capped : Bool
  /-- The voltage ceiling asks for the cap (R417, R423). -/
  ceilingCap : Bool
  /-- Depth samples written since binding (R174). -/
  sampleSeq : Nat
  /-- Patrol: next row, and words to write back with their corrected data (R115, R116). -/
  patrolRow : Nat
  patrolTurn : Nat
  patrolBack : List (Nat × Word)
deriving DecidableEq, Repr

/-- A tile at reset: OFF, unbound, every register at its reset value. -/
def Tile.reset : Tile :=
  ⟨.free, .reset, none, [], .reset, 0, [], [], .off, false, ⟨0, 0, false⟩, .reset, false, false, 0, 0, 0, 0, false, false, 0, 0, 0, []⟩

end Sys2Proof.Machine
end

