-- ==== Sys2Proof/Machine/FabricState.lean ====
section
/-! DEFINITION. The state of the Filzor fabric router, its six ports, connections, windows and time lock (R266 to R306,
R488), and of the memory plane's messages between tiles (R254 to R261). -/

namespace Sys2Proof.Machine

/-- `STATE` of a port (R272, R488). -/
inductive PortState where
  | disabled | detect | equalise | align | identify | up | retrain | held | down
deriving DecidableEq, Repr

/-- The code of a port state (R488). -/
def PortState.code : PortState → Nat
  | .disabled => 0 | .detect => 1 | .equalise => 2 | .align => 3 | .identify => 4 | .up => 5 | .retrain => 6 | .held => 7
  | .down => 8

/-- The flit slots of a codeword as sent: a packet's flit, or none for a link flit, whose fields are those of the moment
(R277). -/
abbrev Slots := List (Option (Packet × Nat))

/-- A Filzor port (R269 to R279, R488). -/
structure FzPort where
  enable : Bool
  state : PortState
  half : Bool
  peer : Nat
  peerPort : Nat
  peerValid : Bool
  /-- Next `CSN` to send and the codewords not yet acknowledged, oldest first (R276). -/
  txCsn : Nat
  replay : List (Nat × Slots)
  /-- Packets some of whose flits have been sent, with the number of the next one (R287). -/
  sending : List (Packet × Nat)
  /-- Sequenced codewords since the last link flit (R383), and flits since the last control flit (R287). -/
  sinceLink : Nat
  sinceControl : Nat
  /-- The codewords that the latest event at the port has put on the link. -/
  wire : List Codeword
  /-- `CSN` expected next, the last one received good in sequence, and whether a `NAK` is being sent (R277). -/
  rxCsn : Nat
  rxGood : Option Nat
  nak : Bool
  /-- Packets some of whose flits have come, with the number of the next one (R270). -/
  arriving : List (Packet × Nat)
  /-- Times the oldest unacknowledged `CSN` has been sent again (R278). -/
  resent : Nat
  /-- Instants of the codewords discarded within the last millisecond, oldest first (R278). -/
  discards : List Nat
  retrains : Nat
  /-- Packets received and not yet routed, and packets queued for this output. -/
  input : List Packet
  output : List Packet
  /-- Flits freed since link-up, per virtual channel (R271). -/
  freed : List Nat
  /-- The far side's credit counters, as last received. -/
  farFreed : List Nat
  /-- Flits sent since link-up, per virtual channel. -/
  sent : List Nat
  beaconSeq : Nat
  /-- The latest beacons sent, newest first: number, instant, and fraction in 1/4,096 of a Cairn cycle (R304). -/
  beacons : List (Nat × Nat × Nat)
  /-- The latest beacon from the far end: its number, our Cairn at its arrival with the fraction, its master and its depth
  (R271, R304). -/
  echoSeq : Nat
  rxCairn : Nat
  rxFrac : Nat
  farMaster : Option Nat
  farDepth : Nat
  csym : Counter
  ucw : Counter
  replays : Counter
  retrainCnt : Counter
  score : Nat
  part : Nat
  /-- The injection limit of R292 applies on this output; transit packets since the last injection; and the
  instant of the last `FZ_SCHEDULE_OVERRUN`. -/
  limited : Bool
  transit : Nat
  overrunAt : Option Nat
  /-- The input from which this output looks for its next packet: 0 to 5 the ports, 6 the local injection path (R287). -/
  turn : Nat
  /-- Equalisation taps (R423). -/
  taps : Nat
deriving DecidableEq, Repr

/-- A port at reset (R488). -/
def FzPort.reset : FzPort :=
  ⟨true, .disabled, false, 0, 0, false, 0, [], [], 0, 7, [], 0, none, false, [], 0, [], 0, [], [], [0, 0, 0, 0, 0, 0],
    [0, 0, 0, 0, 0, 0], [0, 0, 0, 0, 0, 0], 0, [], 0, 0, 0, none, 0xFFFF, .reset, .reset, .reset, .reset, 0, 0, false, 0, none, 0, 0⟩

/-- Whose access a request to another module carries: a tile's piece, by firing and number, or the copy engine's job. -/
inductive Requester where
  | piece (tile firing piece : Nat)
  | copy (job : Nat)
deriving DecidableEq, Repr

/-- A packet that has had no response: whose access it carries, when it was last sent and how often (R296). -/
structure Outstanding where
  packet : Packet
  who : Requester
  sentAt : Nat
  sends : Nat
  answered : Bool
deriving DecidableEq, Repr

/-- A sending connection slot (R293). -/
structure SendConn where
  peer : Nat
  gen : Nat
  openSlot : Option Nat
  opened : Bool
  /-- Instant at which the opening began, that of the last `OPEN`, and the number of them. -/
  openFrom : Nat
  openAt : Nat
  openSends : Nat
  busy : Bool
  nextSeq : Nat
  waiting : List Outstanding
  lastUse : Nat
  inUse : Bool
deriving DecidableEq, Repr

/-- A `CLOSE` that its sender may have to send again (R296, R297). -/
structure Closing where
  slot : Nat
  packet : Packet
  sentAt : Nat
  sends : Nat
deriving DecidableEq, Repr

/-- A free sending slot. -/
def SendConn.reset : SendConn := ⟨0, 0, none, false, 0, 0, 0, false, 0, [], 0, false⟩

/-- A receiving connection slot and its record (R293, R295). -/
structure RecvConn where
  src : Nat
  srcSlot : Nat
  gen : Nat
  low : Nat
  /-- Status recorded for each `seq`. -/
  record : List (Nat × Nat)
  lastUse : Nat
  inUse : Bool
deriving DecidableEq, Repr

/-- A free receiving slot. -/
def RecvConn.reset : RecvConn := ⟨0, 0, 0, 0, [], 0, false⟩

/-- A window-table entry (R299 to R303). -/
structure Window where
  gen : Nat
  isOpen : Bool
  /-- Tag of the `WINDOW_CLOSE` that waits. -/
  closing : Option Nat
  space : Nat
  base : Nat
  size : Nat
  filterModule : Nat
  filterMask : Nat
deriving DecidableEq, Repr

/-- An entry never opened. -/
def Window.reset : Window := ⟨0, false, none, 0, 0, 0, 0, 0⟩

/-- An import-table entry (R301). -/
structure Import where
  inUse : Bool
  handle : Nat
  module : Nat
  space : Nat
  base : Nat
  size : Nat
deriving DecidableEq, Repr

/-- A free import entry. -/
def Import.reset : Import := ⟨false, 0, 0, 0, 0, 0⟩

/-- A routing table: the direction for each coordinate of each dimension (R285). -/
structure Routing where
  epoch : Nat
  x : Nat
  y : Nat
  z : Nat
deriving DecidableEq, Repr

/-- Time lock (R305). -/
inductive TimeLock where
  | unlocked | locked | holdover
deriving DecidableEq, Repr

/-- The fabric (R266 to R306, R488). -/
structure Fabric where
  dims : Nat
  self : Nat
  /-- Coordinates from the sideband, as a module ID (R267, R502). -/
  sideband : Option Nat
  /-- Module ID in use and its source: 0 none, 1 sideband, 2 `FZ_SELF`. -/
  id : Nat
  source : Nat
  timeMaster : Nat
  scheduled : Bool
  ports : Tab FzPort
  active : Routing
  /-- Software's tables have replaced the default one (R285). -/
  loaded : Bool
  other : Option Routing
  /-- A scheduled switch: the new epoch and T (R290). -/
  switch_ : Option (Nat × Nat)
  /-- The instant of the last switch, for the release of R291. -/
  switchedAt : Nat
  /-- The old table is held and drains (R291). -/
  draining : Bool
  inject : List Packet
  eject : List Packet
  send : Tab SendConn
  closing : List Closing
  recv : Tab RecvConn
  windows : Tab Window
  /-- Free window indices: those never used from `windowFresh`, then those freed, oldest first (R299). -/
  windowFresh : Nat
  windowFreed : List Nat
  imports : Tab Import
  lock : TimeLock
  /-- Instant since which the offset has stayed within 4 ns (R305). -/
  goodSince : Option Nat
  lastBeacon : Nat
  /-- The latest offset to the parent, in 1/1,024 ns. -/
  lastOffset : Int
  /-- Instant of the latest slew (R305), and the rate last applied while locked: the Cairn cycles from one slew to the next, and
  whether a slew adds 8 (R422); none before two slews. -/
  lastSlew : Nat
  slewRate : Option (Nat × Bool)
  depth : Nat
  counters : Tab Counter
  everUp : Bool
deriving DecidableEq, Repr

/-- A word on its way over a message channel (R52): receiver, channel, sender and its channel, word. -/
structure ChanWord where
  tile : Nat
  chan : Nat
  src : Nat
  srcChan : Nat
  word : Word
  parity : Bool
  /-- Configuration generation of the sender (R55), and the slot of its route (R246). -/
  gen : Nat
  slot : Nat
  /-- Not a word but the channel marker behind the last word of a configuration (R165 step 2). -/
  marker : Bool
deriving DecidableEq, Repr

/-- How one copy of a dispatched packet stands on its way: the up-link by which its packet rose, the links that a copy of the
packet has crossed in good order, and the router where this copy waits (R252, R258, R259). -/
structure Way where
  up : Option Nat
  clean : List Nat
  stand : Option CopyState
deriving DecidableEq, Repr

/-- A copy of a packet that has not risen yet. -/
def Way.start : Way := ⟨none, [], none⟩

/-- A dispatched row on its way to an expert tile (R56). -/
structure RowMsg where
  tile : Nat
  xmap : Nat
  expert : Nat
  src : Nat
  firing : Nat
  slot : Nat
  rank : Nat
  tag : Nat
  data : List Byte
  poison : Bool
  gen : Nat
  way : Way
deriving DecidableEq, Repr

/-- A count record, or a Burgee record, on its way to an expert tile (R56, R169). -/
structure CountMsg where
  tile : Nat
  xmap : Nat
  expert : Nat
  src : Nat
  /-- Virtual tile of the sender, by which a completion count knows it (R57). -/
  vtile : Nat
  count : Nat
  tag : Nat
  burgee : Option Nat
  /-- A parity error has marked it on its way (R254). -/
  poison : Bool
  gen : Nat
  /-- The `XDISP` firing that waits for its acknowledgement (R260); none for a Burgee record. -/
  firing : Option Nat
  way : Way
deriving DecidableEq, Repr

/-- A Summit counter in the spine of that number, counted as die × 8 + spine: module Bunting, sequence number, and the
members that have arrived (R256). -/
structure Summit where
  spine : Nat
  bunting : Nat
  seq : Nat
  arrived : List Nat
  /-- An arrive flit came with a poison mark (R254). -/
  poison : Bool
deriving DecidableEq, Repr

/-- A control flit that waits at an output (R254 to R256). -/
inductive CtrlFlit where
  /-- The arrive flit of a tile's `SUMMIT` firing. -/
  | arrive (tile firing : Nat)
  /-- The release of a Summit: module Bunting and sequence number. -/
  | release (bunting seq : Nat) (poison : Bool)
deriving DecidableEq, Repr

/-- An output of a memory-plane switch (R255): control flits that wait there, all of them Summit flits, the place in the
frame of 16 cycles with the control flits that have taken a cycle of it, and the flits left of a packet that has yielded. -/
structure LinkOut where
  waiting : List CtrlFlit
  cycle : Nat
  control : Nat
  left : Nat
deriving DecidableEq, Repr

/-- An output at the start of a frame, with nothing waiting. -/
def LinkOut.reset : LinkOut := ⟨[], 0, 0, 0⟩

/-- The messages in flight on the two planes. -/
structure Planes where
  words : List ChanWord
  rows : List RowMsg
  counts : List CountMsg
  summits : List Summit
  /-- Outputs by number: the up-links of R371, 0x1000 + tile for the down-link to a tile, and 0x2000 + tile for the link from
  it, where its arrive flits wait while the leaf's outputs are full (R255). -/
  outs : Tab LinkOut
  /-- The up-link that a leaf takes next (R252): massif leaves 0 to 19, memory leaf q as 20 + q. -/
  upNext : Tab Nat
  /-- Owner graph of each module Bunting; `none` free (R149). -/
  buntings : Tab (Option Nat)
  /-- Owned slots: link direction of a lane, slot, and the graph that owns it (R146). -/
  slots : List (Nat × Nat × Nat)
  /-- Score and part state of the memory-plane links and of the massif routers (R371). -/
  linkScore : Tab Nat
  linkPart : Tab Nat
  routerScore : Tab Nat
  routerPart : Tab Nat
  /-- Router domain ON (R251). -/
  routerOn : Tab Bool
deriving DecidableEq, Repr

end Sys2Proof.Machine
end

