-- ==== Sys2Proof/Machine/GraphState.lean ====
section
/-! DEFINITION. The state of graphs, streams and the period scheduler (R124 to R215, R350 to R370). -/

namespace Sys2Proof.Machine

/-- A virtual tile record (R128). -/
structure VTile where
  vdie : Nat
  vmassif : Nat
  vslot : Nat
  layerUnits : Nat
  opWords : Nat
  opOffset : Nat
deriving DecidableEq, Repr

/-- A circuit record (R145). -/
structure Circuit where
  src : Nat
  dst : Nat
  slotMask : Nat
deriving DecidableEq, Repr

/-- One expert of a map (R151). -/
structure Expert where
  bunting : Nat
  ret : Nat
  capacity : Nat
  overflow : Nat
deriving DecidableEq, Repr

/-- An expert map (R151). -/
structure XMap where
  k : Nat
  maxRows : Nat
  rowBytes : Nat
  experts : List Expert
deriving DecidableEq, Repr

/-- A constant reference (R150). -/
structure Const where
  kind : Nat
  value : Nat
  size : Nat
deriving DecidableEq, Repr

/-- What an image states (R124 to R151), with where it came from (R127, R333). -/
structure Image where
  uid : Nat
  mode : Nat
  obsMode : Nat
  layerUnits : Nat
  reconfig : Bool
  baseUid : Nat
  size : Nat
  screeBytes : Nat
  sampleInterval : Nat
  vtiles : List VTile
  sizing : List (Tab QueueCfg)
  ops : List (Tab OpWord)
  circuits : List Circuit
  /-- Per virtual tile: channel, destination virtual tile, channel, slot (R148). -/
  routes : List (Tab (Nat × Nat × Nat))
  buntings : List (List Nat)
  consts : List Const
  xmaps : List XMap
  /-- SHA-512 of the whole image (R474). -/
  digest : List Byte
  addr : Nat
  host : Bool
deriving DecidableEq, Repr

/-- No image. -/
def Image.empty : Image :=
  ⟨0, 0, 0, 88, false, 0, 0, 0, 0, [], [], [], [], [], [], [], [], [], 0, false⟩

/-- A KV page pool of a load descriptor (R190). -/
structure Pool where
  base : Nat
  pages : Nat
deriving DecidableEq, Repr

/-- Serving parameters (R182, R333). -/
structure Serving where
  periodMs : Nat
  batchRows : Nat
  admitTokens : Nat
  chunkTokens : Nat
  prefillCost : Nat
  kvPageTokens : Nat
  maxPages : Nat
  unitNs0 : Nat
  kvPageBytes : Nat
  listBase : Nat
  promptBase : Nat
  promptBytes : Nat
  pools : List Pool
  periodEntries : List (Nat × Nat)
  admissionEntries : List (Nat × Nat)
  stepId : Bool
deriving DecidableEq, Repr

/-- Class budgets and pool orders of a graph (R188, R233, R339); a budget of 0 is none. -/
structure Policy where
  start : List Nat
  token : List Nat
  order : List Nat
  demoteLow : Nat
  promoteHigh : Nat
deriving DecidableEq, Repr

/-- The defaults of R188 and R339. -/
def Policy.default : Policy := ⟨[2, 50, 2000, 0], [1, 1, 4, 0], [0xE4, 0xE4, 0xE4, 0xE4], 0, 0⟩

/-- `state` of a stream record (R178). -/
inductive StreamState where
  | free | pending | prefill | decode | ending | held
deriving DecidableEq, Repr

/-- The code of a stream state (R178). -/
def StreamState.code : StreamState → Nat
  | .free => 0 | .pending => 1 | .prefill => 2 | .decode => 3 | .ending => 4 | .held => 5

/-- A stream record (R178). -/
structure Stream where
  handle : Nat
  state : StreamState
  cls : Nat
  graph : Nat
  hring : Nat
  position : Nat
  limit : Nat
  promptEnd : Nat
  lastToken : Nat
  hvSeq : Nat
  kvPages : Nat
  deadline : Nat
  kvList : Nat
  waitSince : Nat
  cq : Nat
  notifyEach : Bool
  lateSeen : Bool
  trimmedSeen : Bool
  cancelReq : Bool
  firstPeriod : Bool
  remoteRetry : Bool
  endDetail : Nat
  /-- Status of the end, while `ENDING` (R187). -/
  endStatus : Nat
  heldFrom : Nat
  promptAddr : Nat
  userTag : Nat
  temperature : Nat
  topP : Nat
  seed : Nat
  topK : Nat
  stopId : Nat
  submitCairn : Nat
  tokensOut : Nat
  lateCount : Nat
  trimCount : Nat
  preemptCount : Nat
  /-- A deadline broke since the last token record (R211). -/
  lateMark : Bool
  /-- Consecutive periods with `STEP_VERIFY_FAILED` (R370). -/
  verifyFails : Nat
  /-- Cairn instant of the write-through of its open or extend (R197). -/
  wroteAt : Nat
  /-- A range that held a page of it has left service, and its step has not ended (R230). -/
  kvLost : Bool
  /-- The period of its latest `STEP_VERIFY_FAILED` (R370). -/
  failPeriod : Option Nat
  /-- The first period that may choose it again after a remote target has failed its step (R194). -/
  retryFrom : Nat
deriving DecidableEq, Repr

/-- A record that is `FREE`. -/
def Stream.free : Stream :=
  ⟨0, .free, 0, 0, 0, 0, 0, 0, 0, 0, 0, 0, 0, 0, 0, false, false, false, false, false, false, 0, 0, 0, 0, 0, 0, 0, 0, 0,
    0, 0, 0, 0, 0, 0, false, 0, 0, false, none, 0⟩

/-- A prefill chunk of a plan: stream index, class, tokens. -/
structure Chunk where
  idx : Nat
  cls : Nat
  tokens : Nat
deriving DecidableEq, Repr

/-- A period's plan (R199). -/
structure Plan where
  decode : List Nat
  slices : List (List Chunk)
deriving DecidableEq, Repr

/-- One row of an issued batch (R205). -/
structure Row where
  idx : Nat
  handle : Nat
  position : Nat
  count : Nat
  kind : Nat
  cls : Nat
  first : Bool
  token : Nat
  kvList : Nat
  kvPages : Nat
  promptAddr : Nat
  temperature : Nat
  topP : Nat
  seed : Nat
  topK : Nat
deriving DecidableEq, Repr

/-- An issued batch (R203 to R206, R350). -/
structure Batch where
  seq : Nat
  /-- 0 period batch, 1 admission batch. -/
  kind : Nat
  rows : List Row
  pass : Nat
  /-- Abandonments, not counting verification rounds (R359). -/
  abandons : Nat
  units : Nat
  issueCairn : Nat
  generation : Nat
  /-- The step identifier, where the batch carries one (R204). -/
  stepId : Option Nat
  resultAddr : Nat
  doneAddr : Nat
  /-- Entries (virtual tile, queue) to which the batch is not yet delivered. -/
  toDeliver : List (Nat × Nat)
  /-- The done word has been written by a verified pass (R206, R366). -/
  done : Bool
  /-- `INTEG_POLICY` of the four classes at issue (R362). -/
  policy : List Nat
  /-- The step's integrity record (R50): each status other than `OK`, with the address that drew it. -/
  integrity : List (Nat × Nat)
  /-- Virtual tiles of its verification set that no pass of it has been checked on (R363, R367). -/
  toVerify : List Nat
  /-- Firings of primaries whose comparison the harvest waits for: tile and firing (R366). -/
  awaits : List (Nat × Nat)
deriving DecidableEq, Repr

/-- An entry of a harvest journal, with the absolute values that step 2 of R213 writes into the stream's record. -/
structure JournalEntry where
  record : Word
  idx : Nat
  handle : Nat
  position : Nat
  token : Nat
  seq : Nat
  pages : Nat
  wait : Nat
  deadline : Nat
  state : StreamState
deriving DecidableEq, Repr

/-- A harvest journal (R213): ring, first sequence number, and its entries. -/
structure Journal where
  ring : Nat
  first : Nat
  entries : List JournalEntry
deriving DecidableEq, Repr

/-- Scheduler state of a serving graph (R195 to R208). -/
structure Sched where
  /-- Number of the period that runs, and whether one has been issued. -/
  period : Nat
  started : Bool
  /-- B(k) of the period that comes next, and its number. -/
  nextB : Nat
  nextK : Nat
  /-- S(k) of the period that runs, and E(k) once it has ended. -/
  startAt : Nat
  endAt : Option Nat
  periodMs : Nat
  /-- New lengths, and the period from which each applies (R195). -/
  newMs : List (Nat × Nat)
  unitNs : Nat
  /-- Decode rows and prefill tokens issued in the period that runs (R200, R208). -/
  issuedUnits : Nat
  issuedTokens : Nat
  admissionSeq : Nat
  plan : Option Plan
  /-- Planned chunks of the period that runs, not yet issued, by slice. -/
  slices : List (List Chunk)
  slice : Nat
  batches : List Batch
  policy : Policy
  newPolicy : Option Policy
  /-- Free pages of each pool, next first. -/
  freed : Tab (List Nat)
  fresh : Tab Nat
  /-- Pools for which `KV_POOL_EMPTY` has been raised (R192). -/
  emptyRaised : List Nat
  /-- Prompt runs: first unit, units, stream index (R336). -/
  runs : List (Nat × Nat × Nat)
  /-- Page moves under way: stream, entry, old pool, old page, new pool, new page (R234). -/
  moves : List (Nat × Nat × Nat × Nat × Nat × Nat)
deriving DecidableEq, Repr

/-- An abandonment under way (R357). -/
structure Abandon where
  /-- Causes of `STEP_ABANDONED` (R490), all taken together. -/
  causes : List Nat
  /-- Tiles that have not yet stopped. -/
  toStop : List Nat
  /-- Handles of rows that R356 removes. -/
  removed : List Nat
  /-- Virtual tiles to re-place, and those whose tile was fenced, with that tile (R376). -/
  replace : List Nat
  fenced : List (Nat × Nat)
  /-- The instant up to which remote writes of the abandoned passes may still be applied (R357). -/
  until_ : Nat
  /-- The writes have drained, and only the resumption of a suspended graph is awaited (R158). -/
  drained : Bool
deriving DecidableEq, Repr

/-- A digest seen by verification (R365, R369): the firing's number on its tile, virtual tile, operation index, firing
count, tile, digest, tag of its step. -/
structure Seen where
  id : Nat
  vtile : Nat
  op : Nat
  firing : Nat
  tile : Nat
  digest : Nat
  tag : Nat
deriving DecidableEq, Repr

/-- Verification of a graph's batch (R364 to R369). -/
structure Verify where
  /-- Shadows: virtual tile and shadow tile. -/
  shadows : List (Nat × Nat)
  seen : List Seen
  /-- Firing under resolution: virtual tile, operation index, firing count; and passes used (R369). -/
  resolving : Option (Nat × Nat × Nat)
  passes : Nat
  /-- Digests that tiles have produced at that firing. -/
  evidence : List (Nat × Nat)
  /-- Shadows used for the resolution. -/
  used : List Nat
deriving DecidableEq, Repr

/-- No verification. -/
def Verify.reset : Verify := ⟨[], [], none, 0, [], []⟩

/-- Graph mode (R390): native, native run in compatibility mode, compatibility. -/
inductive GraphMode where
  | native | degraded | compat
deriving DecidableEq, Repr

/-- A spilled queue (R170): tile, queue, and its Scree segment in queue order, each token with the words of its ring
entry and whether one of them was poisoned. -/
structure Spill where
  tile : Nat
  queue : Nat
  toks : List (Token × List Word × Bool)
deriving DecidableEq, Repr

/-- A staged change (R163). -/
structure Change where
  image : Image
  place : List Nat
  serving : Option Serving
  start : Nat
  /-- Tag of the descriptor that completes when the Burgee tokens are placed (R335). -/
  tag : Nat
  placed : Bool
  buntings : List Nat
  scree : Nat
  screeBytes : Nat
  sampleAddr : Nat
  sampleRecords : Nat
  stepId : Bool
deriving DecidableEq, Repr

/-- A bound graph (R127, R154). -/
structure Graph where
  image : Image
  mode : GraphMode
  /-- Physical tile of each virtual tile; 320 where it lacks one. -/
  place : List Nat
  /-- Module Bunting of each graph Bunting (R149). -/
  buntings : List Nat
  generation : Nat
  serving : Option Serving
  sched : Sched
  change : Option Change
  scree : Nat
  screeBytes : Nat
  spills : List Spill
  sampleAddr : Nat
  sampleRecords : Nat
  sampleSeq : Nat
  suspended : Bool
  stopped : Bool
  /-- Tag of the `GRAPH_UNLOAD` under way (R338). -/
  unloading : Option Nat
  abandon : Option Abandon
  verify : Verify
deriving DecidableEq, Repr

/-- A scheduler before a binding. -/
def Sched.reset : Sched :=
  ⟨0, false, 0, 0, 0, none, 20, [], 1, 0, 0, 0, none, [], 0, [], .default, none, [], [], [], [], []⟩

end Sys2Proof.Machine
end

