-- ==== Sys2Proof/Machine/HostState.lean ====
section
/-! DEFINITION. The state of the host interface: rings, doorbell values, descriptors held, MSI-X, set-up registers
(R307 to R346, R476 to R489), and of memory (R216 to R243). -/

namespace Sys2Proof.Machine

/-- A ring's registers and counts (R313 to R316, R482). -/
structure Ring where
  base : Nat
  /-- Low word last written to `BASE` (R477). -/
  baseLow : Nat
  enable : Bool
  log2 : Nat
  cq : Nat
  vector : Nat
  irq : Bool
  /-- Submission ring: the head. Completion and harvest ring: the tail. -/
  count : Nat
  /-- Submission ring: the last valid tail. Completion and harvest ring: the last valid head. -/
  other : Nat
  /-- Fetch count f of a submission ring (R315). -/
  fetched : Nat
  /-- Invalid values of the doorbell word that have been reported (R315, R316). -/
  reported : List Nat
  /-- Reserved entries (R325, R199). -/
  reserved : Nat
  lost : Nat
  /-- A read failed: fetching stops until the tail equals the head (R326). -/
  halted : Bool
  /-- Records were written since the last signal (R331). -/
  dirty : Bool
  /-- Harvest ring: the saved tail (R213). -/
  saved : Nat
deriving DecidableEq, Repr

/-- A ring at reset (R482). -/
def Ring.reset : Ring := ⟨0, 0, false, 0, 0, 0, false, 0, 0, 0, [], 0, 0, false, false, 0⟩

/-- A descriptor the module holds (R315, R321). -/
structure Desc where
  tag : Nat
  ring : Nat
  bytes : List Byte
  /-- Count of its first entry, and of the entry behind its last one. -/
  at_ : Nat
  next : Nat
  /-- Its action has started and its completion waits. -/
  started : Bool
deriving DecidableEq, Repr

/-- A read of a descriptor's entries on its way (R325). -/
structure Fetch where
  ring : Nat
  at_ : Nat
  entries : Nat
deriving DecidableEq, Repr

/-- An event record (R329, R490). -/
structure Event where
  code : Nat
  a : Nat
  b : Nat
  c : Nat
deriving DecidableEq, Repr

/-- What the host sets in configuration space (R307): payload and read request size in bytes, relaxed ordering, ECRC, D3hot, and the
width of tags in bits; the negotiated link in lanes and in 0.1 GT/s, the surprise-down status, the errors reported through AER, and
the value of the last configuration read. -/
structure Pcie where
  payload : Nat
  maxRead : Nat
  relaxed : Bool
  ecrc : Bool
  d3hot : Bool
  tagBits : Nat
  lanes : Nat
  rate : Nat
  surpriseDown : Bool
  aer : List AerError
  answer : Nat
deriving DecidableEq, Repr

/-- As the host finds it: the sizes and enables that PCI Express resets to, and a link at its full width and rate (log entry 73).
PRESUMED. -/
def Pcie.reset : Pcie := ⟨128, 512, true, false, false, 8, 16, 640, false, [], 0⟩

/-- The host port and its rings. -/
structure Host_ where
  sq : Tab Ring
  cq : Tab Ring
  hv : Tab Ring
  dbBase : Nat
  dbLow : Nat
  evtRing : Nat
  evtEnable : Bool
  fetches : List Fetch
  descs : List Desc
  nextTag : Nat
  /-- Ring served last, for the round robin of R324. -/
  lastRing : Nat
  /-- Cairn of the last fetch or `WAKE` write, and of the last poll (R319). -/
  lastFetch : Option Nat
  lastPoll : Nat
  /-- The poll a `WAKE` write asked for (R319). -/
  wake : Bool
  /-- MSI-X: unmasked vectors (one not listed is masked), pending vectors, and messages sent, oldest first. -/
  unmasked : Tab Bool
  pendingVec : List Nat
  messages : List Nat
  linkUp : Bool
  /-- Configuration requests are answered with Request Retry Status (R427, R311). -/
  retry : Bool
  /-- BAR0 is open for set-up. -/
  bar0 : Bool
  hbCount : Nat
  lastBeat : Nat
  /-- Host memory as the module's DMA writes have left it. -/
  mem : Tab Byte
  /-- 64-byte lines of host memory written with the poisoned bit set (R343). -/
  poison : List Nat
  /-- The module has stopped DMA after a link loss (R345). -/
  dmaStopped : Bool
  pcie : Pcie
  /-- Address and data of the entries of the MSI-X table (R308); `unmasked` holds their mask bits. -/
  msix : Tab (Nat × Nat)
  /-- The host link went down before the cold start ended, and has not come back (R311, R427). -/
  downInStart : Bool
  /-- The interval to the next doorbell poll, as the read before it left it (R319). -/
  pollNext : Nat
deriving DecidableEq, Repr

/-- Set-up registers that no unit's own state holds (R480 to R489). -/
structure Regs where
  locked : Bool
  lockViolation : Bool
  cfgReject : Bool
  lockViolOffset : Nat
  cfgErrOffset : Nat
  cfgErrCause : Nat
  streamTable : Nat
  streamTableLow : Nat
  policy : List Nat
  hbmScrub : Nat
  cxlIl : Bool
  ilActive : Bool
  bar2 : Nat
  bar2Low : Nat
  cairnLatch : Option Nat
  retrainKind : Nat
  retrainUnit : Nat
deriving DecidableEq, Repr

/-- A retirement slot (R238, R486). -/
structure RetireSlot where
  baseGib : Nat
  enable : Bool
  slice : Nat
  inUse : Bool
deriving DecidableEq, Repr

/-- A slot at reset. -/
def RetireSlot.reset : RetireSlot := ⟨0, false, 0, false⟩

/-- A CXL range (R226, R486). -/
structure CxlRange where
  baseGib : Nat
  sizeGib : Nat
  port : Nat
  paired : Bool
  valid : Bool
  inService : Bool
  serial : Nat
  /-- Serial number of the device on port 1 of a pair; bits for the ports whose device is present (R227). -/
  serial2 : Nat
  members : Nat
  score : Nat
  part : Nat
  /-- Tags of the `CXL_REMOVE`s that wait, oldest first, each with its `FORCE` (R230, R332). -/
  removing : List (Nat × Bool)
deriving DecidableEq, Repr

/-- An empty map entry. -/
def CxlRange.reset : CxlRange := ⟨0, 0, 0, false, false, false, 0, 0, 0, 0, 0, []⟩

/-- Where a slice stands (R239 to R241). -/
inductive SliceState where
  | good
  /-- Frames below `copied` are redirected to the slot. -/
  | retiring (slot copied : Nat)
  | retired (slot : Nat)
  | lost
deriving DecidableEq, Repr

/-- A memory slice (R224, R371). -/
structure Slice where
  state : SliceState
  score : Nat
  part : Nat
  ce : Counter
  uncorr : Counter
  poisonRead : Counter
  /-- Next line of the patrol (R236). -/
  patrol : Nat
deriving DecidableEq, Repr

/-- A slice at reset. -/
def Slice.reset : Slice := ⟨.good, 0, 0, .reset, .reset, .reset, 0⟩

/-- The bytes of one space as writes have left them (Host.Cell), the ranges initialised to zero, and the poisoned
64-byte lines. An unlisted byte reads as zero in an initialised range, and is undefined elsewhere (R242). A test of an HBM stack
leaves its bytes undefined in the ranges initialised before: start, length and stack (R441). -/
structure Memory where
  bytes : Tab Byte
  zeroed : List (Nat × Nat)
  poison : List Nat
  wiped : List (Nat × Nat × Nat)
deriving DecidableEq, Repr

/-- Nothing written: the contents are undefined. -/
def Memory.reset : Memory := ⟨[], [], [], []⟩

/-- The slice of an HBM offset (R222). -/
def hbmSlice (off : Nat) : Nat :=
  let p := off >>> 12
  p % 64 ^^^ p / 64 % 64 ^^^ p / 4096 % 64 ^^^ p / 262144 % 64 ^^^ p / 16777216 % 64

/-- The HBM stack of an offset (R222). -/
def hbmStack (off : Nat) : Nat := hbmSlice off / 8

/-- What a byte reads as where no write is listed: zero in an initialised range, no value elsewhere. -/
def Memory.blank (m : Memory) (a : Nat) : Option Byte :=
  if m.zeroed.any (fun r => r.1 ≤ a && a < r.1 + r.2) && !m.wiped.any (fun w => w.1 ≤ a && a < w.1 + w.2.1 && hbmStack a == w.2.2)
  then some 0 else none

/-- The canonical form: addresses strictly rising, and no entry equal to what the address would read as unlisted. -/
def Memory.wf (m : Memory) : Bool :=
  (m.bytes.map (·.1)).Pairwise (· < ·) && m.bytes.all fun e => decide (m.blank e.1 ≠ some e.2)

/-- Whose copy the copy engine makes (R234, R235, R343): a descriptor's, or a move of a stream's page-list entry. -/
inductive CopyOwner where
  | desc (tag : Nat)
  | page (graph stream entry : Nat)
  /-- The image of a `GRAPH_LOAD` or an `FW_UPDATE`. -/
  | image (tag : Nat)
deriving DecidableEq, Repr

/-- What a copy moves: device memory, host data into the device, device memory to the host, or an image into the module, with
the bytes that have come (R217, R333, R455). -/
inductive CopyKind where
  | device
  | fromHost (data : List Byte)
  | toHost
  | image (bytes : List Byte)
deriving DecidableEq, Repr

/-- A copy that the copy engine has begun (R234, R235, R343): addresses of the unit it has come to, units left, the unit that
has been read with its poison mark, whether another module has been asked, and the unit, by those left, whose access to the
CXL tier draws no response (R229). -/
structure CopyJob where
  id : Nat
  owner : CopyOwner
  kind : CopyKind
  src : Nat
  dst : Nat
  left : Nat
  unit_ : Option (List Byte × Bool)
  asked : Bool
  dead : Option Nat
  /-- The Cairn from which on it waits for a connection (R296). -/
  waitsFrom : Option Nat
deriving DecidableEq, Repr

/-- HBM, the CXL tier, the slices, the ranges and the retirement slots. -/
structure Mem where
  hbm : Memory
  cxl : Memory
  slices : Tab Slice
  ranges : Tab CxlRange
  slots : Tab RetireSlot
  /-- Wrong 16-bit symbols of a stored 64-byte line of HBM, by line number (R224). -/
  wrong : Tab Nat
  /-- Slices lost at a start for want of a slot, which take the next free one (R241). -/
  unplaced : List Nat
  /-- Copies that wait for another module, oldest first, and the number of the next one. -/
  copies : List CopyJob
  nextCopy : Nat
  /-- Devices inserted since power-on, whose contents are undefined (R231). -/
  inserts : Nat
  /-- Staging writes that completed later than they arrived: global address and status (R123). -/
  stagingDone : List (Nat × Nat)
  /-- Images that have come for the descriptors with these tags: bytes and status (R217). -/
  images : List (Nat × List Byte × Nat)
  /-- Test slices that have destroyed the contents of each stack, for the free values of its bytes (R441). -/
  wipes : Tab Nat
  /-- CXL devices that wait for their port's domain to turn on: port, serial number, GiB (R226, R405). -/
  waitDevices : List (Nat × Nat × Nat)
deriving DecidableEq, Repr

end Sys2Proof.Machine
end

