-- ==== Sys2Proof/Machine/ServiceState.lean ====
section
/-! DEFINITION. The state of power and clocks (R397 to R424), start, test, shutdown and recovery (R425 to R461), fuses,
ledger and identity (R462 to R475), the sideband (R496 to R502) and the serial monitor (R507 to R517). -/

namespace Sys2Proof.Machine

/-- A regulator phase (R402, R403): score, part state, stopped for overtemperature, dead. -/
structure Phase where
  score : Nat
  part : Nat
  stopped : Bool
  dead : Bool
  shed : Bool
  /-- Counts as failed until a start-up test passes (`PHASE_FAIL`). -/
  failed : Bool
deriving DecidableEq, Repr

/-- A good phase. -/
def Phase.reset : Phase := ⟨0, 0, false, false, false, false⟩

/-- A staging under way in a neighbourhood (R407, R408): domain, on or off, stage reached (0 before the first), instant
of the next stage, and nanoseconds waited. -/
structure Staging where
  dom : Nat
  on : Bool
  stage : Nat
  at_ : Nat
  waited : Nat
  stalled : Bool
  /-- The set point has fallen a step for the stall (R408). -/
  lowered : Bool
deriving DecidableEq, Repr

/-- Power and clocks. -/
structure Power where
  limitW : Nat
  clkMax : Nat
  capW : Nat
  inputMv : Nat
  inputW : Nat
  setMhz : Nat
  limPower : Bool
  limCurrent : Bool
  limThermal : Bool
  brownout : Bool
  refHoldover : Bool
  computeTemp : Nat
  ioTemp : Nat
  hbmTemp : Nat
  ibcFailed : List Nat
  overvoltage : Bool
  unmet : Bool
  halted : Bool
  /-- Phases, numbered domain ID × 8 + phase; tile phases keep the numbers of R371. -/
  phases : Tab Phase
  /-- Domains other than tile compute, Tarn and router that are OFF. -/
  domOff : Tab Bool
  /-- Trim in units of 2.5 mV (R401, R423); `none` before a saved trim is used stands for +40 mV. -/
  trims : Tab Int
  /-- Stagings: running one first, by neighbourhood (R406, R407). -/
  stagings : Tab (List Staging)
  /-- Cairn values at which an island stretched a cycle by a quarter of a period, of late (R415). -/
  stretch : Tab (List Nat)
  /-- Those at which one island of a Saddle did so without the other (R264, R418); the Saddle of islands a < b is a × 368 + b. -/
  apart : Tab (List Nat)
  lastSample : Nat
  lastRaise : Nat
  lastThermal : Nat
  /-- Domains whose steps reduce the set point for a stalled staging (R408). -/
  stallSteps : Nat
  forecast : List (Nat × Nat)
  /-- The last sample found the current above its limit (R410). -/
  overCurrent : Bool
  /-- Domains that are lost (R404). -/
  lost : List Nat
  /-- HBM read and write delays and receive reference, by slice group (R423). -/
  hbmTrain : Tab Nat
deriving DecidableEq, Repr

/-- A defect-list entry (R433). -/
structure Defect where
  kind : Nat
  source : Nat
  id : Nat
  cause : Nat
  hours : Nat
  startCount : Nat
deriving DecidableEq, Repr

/-- A test result record (R442). -/
structure TestResult where
  slice : Nat
  outcome : Nat
  unit_ : Nat
  coverage : Nat
  failures : Nat
  durationMs : Nat
  budgetMs : Nat
  hours : Nat
  startCount : Nat
  firstFail : Nat
  source : Nat
  lcState : Nat
deriving DecidableEq, Repr

/-- A set of saved training values (R424, R429): part kind and number, the value, the operating hour, the serial number of a stack, and
the set's CRC-32C as the flash holds it. -/
structure Saved where
  kind : Nat
  part : Nat
  value : Nat
  hours : Nat
  serial : Nat
  crc : Nat
deriving DecidableEq, Repr

/-- A LEDGER_CONFLICT that is held (R432): kind, ID, direction. -/
abbrev Conflict := Nat × Nat × Nat

/-- The ledger flash (R424, R433, R442, R454). -/
structure Ledger where
  /-- The image that the header names. -/
  image : List Byte
  events : List (Nat × Event)
  defects : List Defect
  defectsGood : Bool
  results : List TestResult
  hours : Nat
  startCount : Nat
  /-- Retired slices, their slots, and each slot's base in GiB (R239, R241). -/
  retired : List (Nat × Nat × Nat)
  /-- Saved training values (R424). -/
  training : List Saved
  conflicts : List Conflict
  /-- Kind and unit of the next shutdown slice (R440). -/
  schedule : Nat
  /-- A slice that stopped short of its end, by its place in the schedule: the next shutdown runs it again (R441). -/
  missed : Option Nat
  lastSave : Nat
  sessions : List (Nat × Nat × Nat × Nat)
deriving DecidableEq, Repr

/-- The fuse array (R463, R467, R468). -/
structure Fuses where
  level : Nat
  service : Nat
  /-- The decommission fuse as the latest cold start found it, and the fuse itself (R468, R473). -/
  decommission : Bool
  blown : Bool
  rollback : Nat
  fwRevoked : Nat
  lcRevoked : Nat
  /-- Digests in key slots, firmware slots 0 to 3 and life-cycle slots 4 to 7; one not listed holds the part's own (R463). -/
  keys : Tab (List Byte)
  /-- Units the fuse map marks bad: kind and ID (R431). -/
  bad : List (Nat × Nat)
  /-- Life-cycle tokens that have taken effect: none of them does so again (R472). -/
  used : List (List Byte)
deriving DecidableEq, Repr

/-- `DEV_STATE` (R318). -/
inductive DevState where
  | starting | ready | degraded | recovering | failed
deriving DecidableEq, Repr

/-- The code of a device state (R318). -/
def DevState.code : DevState → Nat
  | .starting => 0 | .ready => 1 | .degraded => 2 | .recovering => 3 | .failed => 4

/-- What the sequencer runs (R425, R446). -/
inductive Sequence where
  | idle
  /-- A cold start in the given phase, 1 to 5. -/
  | start (phase : Nat)
  /-- A recovery in the given stage, 1 to 9: restarts so far, dump ended, started by `GO`. -/
  | recovery (stage restarts : Nat) (dumped go : Bool)
  /-- The boot ROM waits for an image (R457). -/
  | rescue
deriving DecidableEq, Repr

/-- What the start-up tests leave: tiles that failed their first known-answer run (R436), and the phase and the unit that make the
start fail (R428), both until the start ends; the parts that failed a test, by kind and ID, which stay bad until the next start
(R431); and the serial numbers of the HBM stacks as the latest training has read them (R429). -/
structure SelfTest where
  katFailed : List Nat
  fault : Option (Nat × Nat)
  failed : List (Nat × Nat)
  serials : Tab Nat
deriving DecidableEq, Repr

/-- No test has run. -/
def SelfTest.reset : SelfTest := ⟨[], none, [], []⟩

/-- The tests of a start or a recovery begin anew, or have ended. -/
def SelfTest.anew (t : SelfTest) : SelfTest := { t with katFailed := [], fault := none }

/-- The crash dump (R452, R453). -/
structure Dump where
  enable : Bool
  startUnit : Nat
  sampleUnits : Nat
  base : Nat
  baseLow : Nat
  size : Nat
  done : Bool
  truncated : Bool
  skipped : Bool
  tiles : Nat
  running : Bool
  cairnStart : Nat
  /-- The Cairn at the latest record (R453). -/
  cairnEnd : Nat
  /-- Tile and unit (0 the register block, 1 + j the sample unit) whose access was abandoned. -/
  unreach : List (Nat × Nat)
deriving DecidableEq, Repr

/-- An orderly shutdown (R439). -/
structure Shutdown where
  forceUnload : Bool
  budgetS : Nat
  busy : Bool
  done : Bool
  /-- Step 3 runs; milliseconds of the budget used. -/
  scheduling : Bool
  usedMs : Nat
deriving DecidableEq, Repr

/-- A firmware unit (R454): the digest of the section that runs, and the one staged. -/
structure FwUnit where
  running : List Byte
  staged : Option (List Byte)
  /-- Chunks received, by number, and the bytes stored of those that came with other bytes than were sent (R456). -/
  chunks : List Nat
  altered : Tab (List Byte)
  failed : Bool
deriving DecidableEq, Repr

/-- Firmware (R454 to R457). -/
structure Firmware where
  units : Tab FwUnit
  /-- The Ensign runs firmware (R320, R443). -/
  running : Bool
  /-- Manifest of the image that the latest start or recovery loaded (R454). -/
  loaded : List Byte
  /-- An update that runs: descriptor tag, image, activate, repair rounds. -/
  update : Option (Nat × List Byte × Bool × Nat)
  /-- Staging ended, and units have still to activate; the descriptor has completed. -/
  activating : Bool
  rescueBuf : List Byte
  rescueBlocks : Tab (List Byte)
  rescueBlock : Nat
  rescueCount : Nat
  rescueResult : Nat
  /-- 0 none, 1 BAR0, 2 UART (R516). -/
  rescueOwner : Nat
  /-- `RESCUE` has opened a rescue of so many blocks. -/
  rescueOpen : Option Nat
  /-- Retraining under way: kind and unit (R458). -/
  retraining : Option (Nat × Nat)
  /-- Last retraining of each unit, kind × 256 + unit and Cairn. -/
  retrained : Tab Nat
  /-- A rescue follows a recovery, so that the Cairn runs on (R446, R447). -/
  cairnKept : Bool
deriving DecidableEq, Repr

/-- The hot-swap controller and the pins of J1 (R493 to R500). -/
structure HotSwap where
  switchOn : Bool
  present : Bool
  inRange : Bool
  ramping : Bool
  pwrDis : Bool
  powerOff : Bool
  cause : Nat
  unread : Bool
  vin : Nat
  iin : Nat
  /-- `ATTN_N` driven low. -/
  attn : Bool
  lastBlink : Nat
deriving DecidableEq, Repr

/-- The management set (R501, R502). -/
structure Mgmt where
  coord : Nat
  alert : Nat
  alertEn : Nat
  resultIdx : Nat
  /-- Address answered on the alert response address, when it was read. -/
  answer : Option Nat
deriving DecidableEq, Repr

/-- One line of the monitor's output (R510). -/
inductive Line where
  | value (name : String) (vals : List Nat)
  | ok
  | err (code : Nat)
  | prompt (rom : Bool)
deriving DecidableEq, Repr

/-- The serial monitor (R507 to R516). -/
structure Monitor where
  baud : Nat
  unlocked : Bool
  nonce : Option Nat
  nonces : Nat
  failures : Nat
  lockout : Option Nat
  lastLine : Nat
  /-- A `TEST` that runs: kind and unit (R514). -/
  testing : Option (Nat × Nat)
  out : List Line
deriving DecidableEq, Repr

end Sys2Proof.Machine
end

