-- ==== Sys2Proof/Machine/State.lean ====
section
/-! DEFINITION. The state of the block: every register, queue, buffer, counter, mode and pin the spec gives it, the queue
of commands that wait, and what the module has sent to the outside. -/

namespace Sys2Proof.Machine

/-- Why a command stops. -/
inductive Fault where
  /-- Raised by `onUnit`, for a command whose operand names a unit outside the spec's numbering (R11 to R15, R371) or
  outside the range the row's rule states. Safe: the spec has no such event, so nothing is claimed of it. -/
  | noSuchUnit
deriving DecidableEq, Repr

/-- Why a command is not run. -/
inductive Refusal where
  /-- Raised by the dispatcher alone, for a row without a meaning. Safe: the run ends. No row is left so. -/
  | notModelled (mnemonic : String)
deriving DecidableEq, Repr

/-- The stream tracker (R175 to R215). -/
structure Tracker where
  streams : Tab Stream
  /-- Free list (R176): indices never used from `fresh`, then those freed, oldest first. -/
  fresh : Nat
  freed : List Nat
  /-- Last generation given on each index. -/
  lastGen : Tab Nat
  /-- Records in the on-die cache, most recently used first (R179, R180). -/
  cache : List Nat
  /-- Pages of each stream's list: pool and page number, by entry (R191). -/
  pages : Tab (List (Nat × Nat))
  journals : List Journal
deriving DecidableEq, Repr

/-- The state of the block. -/
structure State where
  pending : List Instr
  /-- The Cairn, modulo 2^64 (R419). -/
  cairn : Nat
  devState : DevState
  seq : Sequence
  selfTest : SelfTest
  recoveries : Nat
  tiles : Tab Tile
  graphs : Tab (Option Graph)
  tracker : Tracker
  planes : Planes
  fabric : Fabric
  host : Host_
  regs : Regs
  mem : Mem
  power : Power
  ledger : Ledger
  fuses : Fuses
  dump : Dump
  shutdown : Shutdown
  fw : Firmware
  hotSwap : HotSwap
  mgmt : Mgmt
  monitor : Monitor
  /-- The value a read command answered with, and its bytes. -/
  rd : Nat
  rdBytes : List Byte
  /-- The model's own counter of free values drawn. -/
  draws : Nat
  /-- The latest leak instant of the fault scores of each part kind, by the kind's code (R371). -/
  leaks : Tab Nat
deriving DecidableEq, Repr

/-- The tracker with every record `FREE`. -/
def Tracker.reset : Tracker := ⟨[], 0, [], [], [], [], []⟩

/-- The planes with nothing in flight. -/
def Planes.reset : Planes := ⟨[], [], [], [], [], [], [], [], [], [], [], [], []⟩

/-- The default table of a 1 × 1 × 1 torus: every entry is at the module's own coordinate (R285). -/
def Routing.reset : Routing := ⟨0, 0, 0, 0⟩

/-- The fabric at reset (R488): a 1 × 1 × 1 torus, no coordinates, unlocked. -/
def Fabric.reset : Fabric :=
  { dims := 1 + 1 * 2 ^ 6 + 1 * 2 ^ 12, self := 0, sideband := none, id := 0, source := 0, timeMaster := 0,
    scheduled := false, ports := [], active := .reset, loaded := false, other := none, switch_ := none, switchedAt := 0, draining := false,
    inject := [], eject := [], send := [], closing := [], recv := [], windows := [], windowFresh := 0, windowFreed := [], imports := [],
    lock := .unlocked, goodSince := none, lastBeacon := 0, lastOffset := 0, lastSlew := 0, slewRate := none, depth := 0xFFFF, counters := [],
    everUp := false }

/-- The host port at reset (R482, R484). -/
def Host_.reset : Host_ :=
  { sq := [], cq := [], hv := [], dbBase := 0, dbLow := 0, evtRing := 0, evtEnable := false, fetches := [], descs := [],
    nextTag := 0, lastRing := 255, lastFetch := none, lastPoll := 0, wake := false, unmasked := [], pendingVec := [],
    messages := [], linkUp := true, retry := true, bar0 := false, hbCount := 0, lastBeat := 0, mem := [],
    poison := [], dmaStopped := false, pcie := .reset, msix := [], downInStart := false, pollNext := 0 }

/-- The set-up registers at reset (R362, R481, R484, R486). -/
def Regs.reset : Regs :=
  { locked := false, lockViolation := false, cfgReject := false, lockViolOffset := 0, cfgErrOffset := 0, cfgErrCause := 0,
    streamTable := 0x5FB0000000, streamTableLow := 0xB0000000, 
    policy := [0x100002, 0x100001, 0x100001, 0x100000], hbmScrub := 24, cxlIl := false, ilActive := false, bar2 := 0, bar2Low := 0, cairnLatch := none,
    retrainKind := 0, retrainUnit := 0 }

/-- Memory after power-on. -/
def Mem.reset : Mem := ⟨.reset, .reset, [], [], [], [], [], [], 0, 0, [], [], [], []⟩

/-- Power and clocks at reset (Power, clocks and time, Registers; R416). -/
def Power.reset : Power :=
  { limitW := 1950, clkMax := 2000, capW := 1950, inputMv := 0, inputW := 0, setMhz := 1850, limPower := false,
    limCurrent := false, limThermal := false, brownout := false, refHoldover := false, computeTemp := 0, ioTemp := 0,
    hbmTemp := 0, ibcFailed := [], overvoltage := false, unmet := false, halted := false, phases := [], domOff := [],
    trims := [], stagings := [], stretch := [], apart := [], lastSample := 0, lastRaise := 0, lastThermal := 0, stallSteps := 0,
    forecast := [], overCurrent := false, lost := [], hbmTrain := [] }

/-- The ledger of a module that has never started. -/
def Ledger.reset : Ledger :=
  { image := [], events := [], defects := [], defectsGood := true, results := [], hours := 0, startCount := 0, retired := [],
    training := [], conflicts := [], schedule := 0, missed := none, lastSave := 0, sessions := [] }

/-- The fuses of a module in FIELD (R468). -/
def Fuses.reset : Fuses :=
  { level := 3, service := 0, decommission := false, blown := false, rollback := 0, fwRevoked := 0, lcRevoked := 0, keys := [], bad := [], used := [] }

/-- The dump registers at reset (R453). -/
def Dump.reset : Dump :=
  { enable := true, startUnit := 0, sampleUnits := 1, base := 0, baseLow := 0, size := 0, done := false, truncated := false,
    skipped := false, tiles := 0, running := false, cairnStart := 0, cairnEnd := 0, unreach := [] }

/-- `SHUTDOWN_CTRL` at reset (R439). -/
def Shutdown.reset : Shutdown := ⟨false, 60, false, false, false, 0⟩

/-- No update, no rescue (R457). -/
def Firmware.reset : Firmware :=
  { units := [], running := false, loaded := [], update := none, activating := false, rescueBuf := List.replicate 4096 0,
    rescueBlocks := [], rescueBlock := 0, rescueCount := 0, rescueResult := 0, rescueOwner := 0,
    rescueOpen := none, retraining := none, retrained := [], cairnKept := false }

/-- The hot-swap controller when standby power comes (R500). -/
def HotSwap.reset : HotSwap := ⟨false, false, false, false, false, false, 0, false, 0, 0, true, 0⟩

/-- The management set at reset (R501). -/
def Mgmt.reset : Mgmt := ⟨0, 0, 0x1F, 0, none⟩

/-- The monitor after every reset (R507). -/
def Monitor.reset : Monitor := ⟨115200, false, none, 0, 0, none, 0, none, []⟩

/-- The machine right after reset: standby power has come, the input switch is open, and every register holds its reset
value. -/
def State.reset : State :=
  { pending := [], cairn := 0, devState := .starting, seq := .idle, selfTest := .reset, recoveries := 0, tiles := [], graphs := [],
    tracker := .reset, planes := .reset, fabric := .reset, host := .reset, regs := .reset, mem := .reset, power := .reset,
    ledger := .reset, fuses := .reset, dump := .reset, shutdown := .reset, fw := .reset, hotSwap := .reset, mgmt := .reset,
    monitor := .reset, rd := 0, rdBytes := [], draws := 0, leaks := [] }

end Sys2Proof.Machine
end

