-- ==== Sys2Proof/Machine/Ops.lean ====
section
/-! DEFINITION. Named access to the parts of the state: units by number, time, memory bytes, host memory. -/

namespace Sys2Proof.Machine

/-- The outcome of every command. -/
abbrev Out3 := Host.Outcome State Fault Refusal

/-- A command whose operands lie in the spec's numbering answers its next state; another one has no meaning. -/
def onUnit (ok : Bool) (s : State) : Out3 := if ok then .next s else .fault .noSuchUnit

/-- The module serves: no start, recovery or rescue runs, and it has not failed (R387, R427, R428, R446). -/
def State.inService (s : State) : Bool :=
  s.seq == .idle && (s.devState == .ready || s.devState == .degraded)

/-- A command of a part that works only while the module serves: `t` is what it then does (R446). -/
def State.onLive (s : State) (ok : Bool) (t : State) : Out3 := onUnit ok (if s.inService then t else s)

/-- A list sorted by an order; elements that it does not tell apart keep their order. -/
def sortBy {α : Type} (xs : List α) (le : α → α → Bool) : List α := xs.insertionSort fun a b => le a b = true

/-- The element of a list at a position. -/
def listSet {α : Type} (xs : List α) (i : Nat) (x : α) : List α := xs.set i x

/-! ### Units -/

def State.tile (s : State) (t : Nat) : Tile := Tab.get .reset s.tiles t
def State.setTile (s : State) (t : Nat) (x : Tile) : State := { s with tiles := Tab.put .reset t x s.tiles }
def State.updTile (s : State) (t : Nat) (f : Tile → Tile) : State := s.setTile t (f (s.tile t))
def State.graph? (s : State) (g : Nat) : Option Graph := Tab.get none s.graphs g
def State.setGraph (s : State) (g : Nat) (x : Option Graph) : State := { s with graphs := Tab.put none g x s.graphs }
def State.updGraph (s : State) (g : Nat) (f : Graph → Graph) : State :=
  match s.graph? g with
  | none => s
  | some x => s.setGraph g (some (f x))
def State.updSched (s : State) (g : Nat) (f : Sched → Sched) : State := s.updGraph g fun x => { x with sched := f x.sched }
def State.stream (s : State) (i : Nat) : Stream := Tab.get .free s.tracker.streams i
def State.setStream (s : State) (i : Nat) (x : Stream) : State :=
  { s with tracker := { s.tracker with streams := Tab.put .free i x s.tracker.streams } }
def State.updStream (s : State) (i : Nat) (f : Stream → Stream) : State := s.setStream i (f (s.stream i))
def State.sq (s : State) (n : Nat) : Ring := Tab.get .reset s.host.sq n
def State.cq (s : State) (n : Nat) : Ring := Tab.get .reset s.host.cq n
def State.hv (s : State) (n : Nat) : Ring := Tab.get .reset s.host.hv n
def State.updSq (s : State) (n : Nat) (f : Ring → Ring) : State :=
  { s with host := { s.host with sq := Tab.upd .reset n f s.host.sq } }
def State.updCq (s : State) (n : Nat) (f : Ring → Ring) : State :=
  { s with host := { s.host with cq := Tab.upd .reset n f s.host.cq } }
def State.updHv (s : State) (n : Nat) (f : Ring → Ring) : State :=
  { s with host := { s.host with hv := Tab.upd .reset n f s.host.hv } }
def State.slice (s : State) (n : Nat) : Slice := Tab.get .reset s.mem.slices n
def State.updSlice (s : State) (n : Nat) (f : Slice → Slice) : State :=
  { s with mem := { s.mem with slices := Tab.upd .reset n f s.mem.slices } }
def State.range (s : State) (n : Nat) : CxlRange := Tab.get .reset s.mem.ranges n
def State.updRange (s : State) (n : Nat) (f : CxlRange → CxlRange) : State :=
  { s with mem := { s.mem with ranges := Tab.upd .reset n f s.mem.ranges } }
def State.port (s : State) (p : Nat) : FzPort := Tab.get .reset s.fabric.ports p
def State.updPort (s : State) (p : Nat) (f : FzPort → FzPort) : State :=
  { s with fabric := { s.fabric with ports := Tab.upd .reset p f s.fabric.ports } }
def State.phase (s : State) (n : Nat) : Phase := Tab.get .reset s.power.phases n
def State.updPhase (s : State) (n : Nat) (f : Phase → Phase) : State :=
  { s with power := { s.power with phases := Tab.upd .reset n f s.power.phases } }

/-- Graph IDs in use, ascending (R127). -/
def State.graphIds (s : State) : List Nat := (List.range 8).filter fun g => (s.graph? g).isSome

/-- The graph and virtual tile a tile works for: its own, or its primary's as a shadow (R364). -/
def State.owner (s : State) (t : Nat) : Option (Nat × Nat) :=
  match (s.tile t).use with
  | .bound g v => some (g, v)
  | .shadow p => match (s.tile p).use with
    | .bound g v => some (g, v)
    | _ => none
  | _ => none

/-- A graph as one of its tiles sees it: while a change passes, a unit that has switched works from the new image
(R165). -/
def Graph.viewOf (y : Graph) (x : Tile) : Graph :=
  match y.change with
  | none => y
  | some c =>
    if x.cfg.generation = y.generation then y
    else
      { y with
        image := c.image, place := c.place, buntings := c.buntings, scree := c.scree, screeBytes := c.screeBytes
        sampleAddr := c.sampleAddr, sampleRecords := c.sampleRecords }

/-- The graph that a tile works for, as it sees it. -/
def State.graphFor (s : State) (t : Nat) : Option Graph :=
  match s.owner t with
  | none => none
  | some (g, _) => (s.graph? g).map fun y => y.viewOf (s.tile t)

/-- The life-cycle state: 0 BLANK, 1 MANUFACTURE, 2 PROVISIONED, 3 FIELD, 4 SERVICE, 5 DECOMMISSIONED (R468). -/
def Fuses.lcState (f : Fuses) : Nat :=
  if f.decommission then 5 else if f.level = 3 && f.service % 2 == 1 then 4 else min f.level 3

/-! ### Time -/

/-- Time from one Cairn value to a later one, modulo 2^64 (R189, R394). -/
def cairnSince (a b : Nat) : Nat := (BitVec.ofNat 64 b - BitVec.ofNat 64 a).toNat

/-- Whether a Cairn value lies before another, modulo 2^64 (R189, R394, R395). -/
def cairnBefore (a b : Nat) : Bool := cairnSince a b != 0 && cairnSince a b < 2 ^ 63

/-- The later of two Cairn values (R394). -/
def cairnMax (a b : Nat) : Nat := if cairnBefore a b then b % 2 ^ 64 else a

/-- The Cairn let run to the instant `t`, on its 4 ns grid, unless that lies behind it (R394, R419). -/
def State.advanceTo (s : State) (t : Nat) : State := { s with cairn := cairnMax s.cairn (roundUp t 4) }

/-- The Cairn runs: the input switch is closed, and phase 1 of a start lies behind, as does a rescue that a start ended in; one that
a recovery ended in leaves it running (R419, R425, R446, R447, R457). -/
def State.cairnOn (s : State) : Bool :=
  s.hotSwap.switchOn && s.seq != .start 1 && (s.seq != .rescue || s.fw.cairnKept)

/-- One Cairn cycle (R419, R422): it adds 4, and in fabric holdover 0 or 8 wherever the slew rate last applied while locked has it. -/
def State.tick (s : State) : State :=
  match s.fabric.slewRate with
  | some (n, up) =>
    if s.fabric.lock == .holdover && n ≤ cairnSince s.fabric.lastSlew s.cairn then
      let c := (s.cairn + if up then 8 else 0) % 2 ^ 64
      { s with cairn := c, fabric := { s.fabric with lastSlew := c } }
    else { s with cairn := (s.cairn + 4) % 2 ^ 64 }
  | none => { s with cairn := (s.cairn + 4) % 2 ^ 64 }

/-- The arithmetic clock set point's ceiling in MHz: `CLK_MAX_MHZ` in steps of 10, from 900 to 2,000 (R416). -/
def Power.top (p : Power) : Nat := max 900 (min 2000 (p.clkMax / 10 * 10))

/-- The effective power limit of R410 in units of 1/70,000 W: `PWR_LIMIT`, the sideband's cap, the limit that failed converters
leave (R400), and the input voltage × 44.5 A. -/
def Power.limit (p : Power) : Nat :=
  let k := p.ibcFailed.length
  let ibc := if 2 ≤ k then 1950 * (8 - k) * 10000 else 1950 * 70000
  min (min (max 600 (min p.limitW 1950) * 70000) (max 600 (min p.capW 1950) * 70000)) (min ibc (p.inputMv * 445 * 7))

/-- A free value for one draw: the counter the step reads and advances. -/
def State.draw (s : State) : State := { s with draws := s.draws + 1 }

/-! ### Memory -/

/-- The listed byte at an address. -/
def findByte : Tab Byte → Nat → Option Byte
  | [], _ => none
  | e :: m, a => if e.1 = a then some e.2 else findByte m a

/-- A byte of a space: listed, initialised to zero, or undefined and so a free value (R242). -/
def Memory.get (m : Memory) (powerOn space a : Nat) : Byte :=
  match findByte m.bytes a with
  | some b => b
  | none => match m.blank a with
    | some b => b
    | none => Config.freeByte powerOn space a

/-- One byte written, in the canonical form. -/
def Memory.put (m : Memory) (a : Nat) (b : Byte) : Memory :=
  if m.blank a = some b then { m with bytes := Tab.erase a m.bytes }
  else { m with bytes := Tab.ins a b (Tab.erase a m.bytes) }

/-- A run of bytes written. -/
def Memory.putAll : Nat → List Byte → Memory → Memory
  | _, [], m => m
  | a, b :: bs, m => Memory.putAll (a + 1) bs (m.put a b)

/-- A run of bytes read. -/
def Memory.getAll (m : Memory) (powerOn space : Nat) : Nat → Nat → List Byte
  | _, 0 => []
  | a, n + 1 => m.get powerOn space a :: Memory.getAll m powerOn space (a + 1) n

/-- What is left of a run, start and length, without the `n` bytes from `lo` on. -/
def cutRun (lo n : Nat) (r : Nat × Nat) : List (Nat × Nat) :=
  [(r.1, min (r.1 + r.2) lo - r.1), (max r.1 (lo + n), r.1 + r.2 - max r.1 (lo + n))].filter (·.2 != 0)

/-- Entries outside the ranges kept, and entries inside that would not differ from zero dropped. -/
def Memory.zero (m : Memory) (lo n : Nat) : Memory :=
  let r := m.zeroed ++ [(lo, n)]
  let w := m.wiped.flatMap fun w => (cutRun lo n (w.1, w.2.1)).map fun c => (c.1, c.2, w.2.2)
  { bytes := (Tab.clear lo n m.bytes).filter fun e =>
      decide (Memory.blank ⟨[], r, [], w⟩ e.1 ≠ some e.2), zeroed := r, wiped := w, poison := m.poison.filter fun l => !(lo ≤ l * 64 && l * 64 < lo + n) }

/-- A run of bytes of which nothing is known. -/
def Memory.forget (m : Memory) (lo n : Nat) : Memory :=
  { m with bytes := Tab.clear lo n m.bytes, poison := m.poison.filter fun l => !(lo ≤ l * 64 && l * 64 < lo + n) }

/-- The space of an address kind: 0 HBM, 1 CXL. -/
def State.space (s : State) (sp : Nat) : Memory := if sp = 0 then s.mem.hbm else s.mem.cxl
def State.setSpace (s : State) (sp : Nat) (m : Memory) : State :=
  if sp = 0 then { s with mem := { s.mem with hbm := m } } else { s with mem := { s.mem with cxl := m } }

/-- Bytes of a space. -/
def State.readBytes (s : State) (sp a n : Nat) : List Byte :=
  (s.space sp).getAll (s.ledger.startCount * 2 ^ 32 + (if sp = 0 then Tab.get 0 s.mem.wipes (hbmStack a) else s.mem.inserts)) sp a n
def State.writeBytes (s : State) (sp a : Nat) (bs : List Byte) : State := s.setSpace sp (Memory.putAll a bs (s.space sp))

/-- Whether a run of bytes touches a poisoned line (R225). -/
def State.poisoned (s : State) (sp a n : Nat) : Bool := (s.space sp).poison.any fun l => l * 64 < a + n && a < l * 64 + 64

/-- A 64-byte line marked poisoned, or freed of its mark (R225). -/
def State.setPoison (s : State) (sp l : Nat) (on : Bool) : State :=
  let m := s.space sp
  let p := m.poison.filter (· != l)
  s.setSpace sp { m with poison := if on then l :: p else p }

/-! ### Host memory -/

/-- Whether the module may issue DMA (R345). -/
def State.dma (s : State) : Bool := s.host.linkUp && !s.host.dmaStopped

/-- A DMA write; nothing is written while the link is down (R345). -/
def State.hostWrite (s : State) (a : Nat) (bs : List Byte) : State :=
  if s.dma then
    { s with host := { s.host with
        mem := Tab.putAll 0 a bs s.host.mem, poison := s.host.poison.filter fun l => !(a ≤ l * 64 && l * 64 < a + bs.length) } }
  else s

/-- An MSI-X message of a vector (R310): sent, or held pending while the vector is masked. -/
def State.signal (s : State) (v : Nat) : State :=
  if !s.dma then s
  else if Tab.get false s.host.unmasked v then
    { s with host := { s.host with messages := s.host.messages ++ [v] } }
  else if s.host.pendingVec.contains v then s
  else { s with host := { s.host with pendingVec := s.host.pendingVec ++ [v] } }

/-- An error of the module's own read, in the AER status (R312). -/
def State.noteAer (e : AerError) (s : State) : State :=
  { s with host := { s.host with pcie := { s.host.pcie with
      aer := if s.host.pcie.aer.contains e then s.host.pcie.aer else s.host.pcie.aer ++ [e] } } }

/-- Pending vectors that are not masked, sent once DMA runs (R310). -/
def State.sendPending (s : State) : State :=
  if !s.dma then s
  else
    let vs := s.host.pendingVec.filter fun v => Tab.get false s.host.unmasked v
    { s with host := { s.host with pendingVec := s.host.pendingVec.filter (!vs.contains ·), messages := s.host.messages ++ vs } }

/-- The host link as it has trained, to a width and a rate (R307). -/
def State.hostTrained (lanes rate : Nat) (s : State) : State :=
  { s with host := { s.host with pcie := { s.host.pcie with lanes := lanes, rate := rate } } }

/-- Whether the host link trains to a width in lanes and a rate in 0.1 GT/s (R307). -/
def hostLinkOk (lanes rate : Nat) : Bool := [16, 8, 4, 2, 1].contains lanes && [640, 320, 160, 80, 50, 25].contains rate

end Sys2Proof.Machine
end

