-- ==== Sys2Proof/Machine/Flags.lean ====
section
/-! DEFINITION. Reports: counters (R32, R394), completion records and events (R328 to R331, R490), fault scores and
part states (R371 to R376), and the start of an abandonment (R355, R357). -/

namespace Sys2Proof.Machine

/-! ### Counters -/

/-- A 48-bit counter that saturates, with its sticky bit, on reaching its largest value (R32). -/
def Counter.add (n : Nat) (c : Counter) : Counter :=
  if c.count + n ≥ 2 ^ 48 - 1 then ⟨2 ^ 48 - 1, true⟩ else ⟨c.count + n, c.ovf⟩

/-- A counter as its 64-bit register (R173). -/
def Counter.word (c : Counter) : Nat := c.count + 2 ^ 48 * b2n c.ovf

/-! ### Completion records -/

/-- The fields of a completion record (R328). -/
structure Rec where
  kind : Nat
  status : Nat
  detail : Nat
  opcode : Nat
  ring : Nat
  tag : Nat
  word0 : Nat
  word1 : Nat
deriving DecidableEq, Repr

/-- Entries of a ring (R313). -/
def Ring.size (r : Ring) : Nat := 2 ^ r.log2

/-- Counts compared modulo 2^32 (R314). -/
def count32 (a b : Nat) : Nat := (a + 2 ^ 32 - b % 2 ^ 32) % 2 ^ 32

/-- Entries that hold records the host has not taken. -/
def Ring.used (r : Ring) : Nat := count32 r.count r.other

/-- A free entry beyond those reserved (R325, R330). -/
def Ring.hasFree (r : Ring) : Bool := r.enable && r.used + r.reserved < r.size

/-- A record's 32 bytes (R328). -/
def recBytes (r : Rec) (phase lost time : Nat) : List Byte :=
  toLe 1 r.kind ++ toLe 1 r.status ++ toLe 2 r.detail ++ toLe 1 phase ++ toLe 1 r.opcode ++ toLe 1 r.ring ++ [0] ++
    toLe 8 r.tag ++ toLe 4 r.word0 ++ toLe 4 r.word1 ++ toLe 2 lost ++ [0, 0] ++ toLe 4 time

/-- A record written to completion ring `q` at its tail (R330). -/
def State.writeRec (q : Nat) (r : Rec) (s : State) : State :=
  let c := s.cq q
  let phase := 1 - c.count / c.size % 2
  (s.hostWrite (c.base + 32 * (c.count % c.size)) (recBytes r phase c.lost (bits s.cairn 10 32))).updCq q fun c =>
    { c with count := (c.count + 1) % 2 ^ 32, lost := 0, dirty := true }

/-- A notice or an event: written when a free unreserved entry exists, else counted as lost (R330). -/
def State.notice (q : Nat) (r : Rec) (s : State) : State :=
  if (s.cq q).hasFree then s.writeRec q r
  else s.updCq q fun c => { c with lost := min (c.lost + 1) 0xFFFF }

/-! ### Events -/

/-- A record of the ledger's event log. -/
def State.ledgerEvent (code a b c : Nat) (s : State) : State :=
  { s with ledger := { s.ledger with events := s.ledger.events ++ [(s.cairn, ⟨code, a, b, c⟩)] } }

/-- Whether events reach a ring: an event ring is enabled, and no start runs (R329, R432), nor a stage of a recovery that has stopped
DMA (R446). -/
def State.eventRing (s : State) : Bool :=
  s.host.evtEnable && (s.cq s.host.evtRing).enable &&
    (match s.seq with
      | .idle => true
      | .recovery st _ _ _ => st == 9 && s.dma
      | _ => false)

/-- An event raised (R329, R490): in the ledger, and as a record of kind 2 where an event ring is enabled. -/
def State.raise (code a b c : Nat) (s : State) : State :=
  let l := s.ledgerEvent code a b c
  if s.eventRing then l.notice s.host.evtRing ⟨2, 0, code, 0, 0, a % 2 ^ 64, b % 2 ^ 32, c % 2 ^ 32⟩ else l

/-- Events raised one after another. -/
def State.raiseAll (es : List Event) (s : State) : State := es.foldl (fun s e => s.raise e.code e.a e.b e.c) s

/-- A bit of `MG_ALERT` set (R501): 0 `STATE_CHANGE`, 1 `THERMAL`, 2 `POWER`, 3 `SHUTDOWN_DONE`, 4 `COORD_REFUSED`. -/
def State.alert (b : Nat) (s : State) : State := { s with mgmt := { s.mgmt with alert := s.mgmt.alert ||| 2 ^ b } }

/-- `ATTN_N` as its condition now has it (R498): low at the start of the blink in `FAILED`. -/
def State.driveAttn (s : State) : State :=
  { s with hotSwap := { s.hotSwap with
      attn := !s.hotSwap.switchOn || s.shutdown.done || s.devState == .failed, lastBlink := s.cairn } }

/-- `DEV_STATE` set, with its alert and `ATTN_N` (R318, R498, R501). -/
def State.setDev (d : DevState) (s : State) : State :=
  if s.devState = d then s else (({ s with devState := d }).alert 0).driveAttn

/-- "tg" of R490. -/
def tg (tile graph : Nat) : Nat := tile % 512 + 2 ^ 16 * (graph % 8)

/-- `COUNTER_SATURATED` where a counter has just saturated (R32): `block` 0 BAR0, 1 tile side block. -/
def State.noteSaturated (old new : Counter) (offset tile block : Nat) (s : State) : State :=
  if new.ovf && !old.ovf then s.raise 0x1003 (offset + 2 ^ 32 * tile + 2 ^ 48 * block) 0 0 else s

/-! ### Usable tiles -/

/-- Whether the phases of a tile leave its compute domain up: fewer than three count as failed (R402). -/
def State.failedPhases (s : State) (t : Nat) : Nat :=
  (List.range 8).countP fun p => let x := s.phase (t * 8 + p); x.failed || x.stopped || x.dead

/-- Whether the fuse map or the defect list marks a part bad (R431). -/
def State.markedBad (s : State) (kind id : Nat) : Bool :=
  s.fuses.bad.contains (kind, id) || s.ledger.defects.any fun d => d.kind == kind && d.id == id

/-- Whether a part is bad: the fuse map marks it, the defect list holds it, or it has failed a test of this start, be there room for
an entry or not (R431). -/
def State.bad (s : State) (kind id : Nat) : Bool := s.markedBad kind id || s.selfTest.failed.contains (kind, id)

/-- Whether a tile is usable (R16, R431). -/
def State.usable (s : State) (t : Nat) : Bool :=
  !(s.tile t).fenced && !s.bad 1 t && !s.bad 2 t && !s.bad 3 (t / 16) && s.failedPhases t < 3

/-- Phases of a domain (R402, R404). -/
def phasesOf (dom : Nat) : Nat := if dom < 320 then 8 else 2

/-- Usable tiles (R16). -/
def State.usableTiles (s : State) : Nat := (List.range 320).countP s.usable

/-- `DEGRADED` below 256 usable tiles (R17). -/
def State.checkDegraded (s : State) : State :=
  if s.devState == .ready && s.usableTiles < 256 then
    (s.setDev .degraded).raise 0x1001 s.usableTiles 0 0
  else s

/-! ### Abandonment -/

/-- Batches of a graph whose passes are in flight: up to the harvest, since a done word alone does not end the checks on a pass
(R19, R350). -/
def Graph.inFlight (g : Graph) : List Batch := g.sched.batches.filter fun b => !(b.done && b.rows.isEmpty)

/-- Tiles that work for graph `g`, its shadows among them. -/
def State.graphTiles (s : State) (g : Nat) : List Nat :=
  (List.range 320).filter fun t => match s.owner t with
    | some (h, _) => h == g
    | none => false

/-- The passes of a graph are abandoned (R355, R357): `STEP_ABANDONED` for each pass, and an abandon flit to every tile.
A cause that arrives during an abandonment starts it again, with all causes taken together. -/
def State.abandon (g cause : Nat) (removed replace : List Nat) (s : State) : State :=
  match s.graph? g with
  | none => s
  | some x =>
    let old : Abandon := x.abandon.getD ⟨[], [], [], [], [], 0, false⟩
    let a : Abandon :=
      { old with
        causes := old.causes ++ [cause], toStop := s.graphTiles g, removed := old.removed ++ removed
        replace := old.replace ++ replace, drained := false }
    (s.setGraph g (some { x with abandon := some a })).raiseAll
      (x.inFlight.map fun b => ⟨0x1601, b.seq, g, cause⟩)

/-! ### Fault scores -/

/-- The code of a part kind (R433, R490). -/
def partCode : PartKind → Nat
  | .tile => 1 | .tarn => 2 | .router => 3 | .link => 4 | .slice => 5 | .phase => 6 | .cxl => 7 | .filzor => 8

/-- Parts of a kind (R371). -/
def partCount : PartKind → Nat
  | .tile => 320 | .tarn => 320 | .router => 20 | .link => 456 | .slice => 64 | .phase => 2560 | .cxl => 8 | .filzor => 6

/-- Thresholds WATCH, SUSPECT and FENCED (R371). -/
def partThresholds : PartKind → Nat × Nat × Nat
  | .slice => (1024, 8192, 32768)
  | .filzor => (4096, 16384, 49152)
  | .phase => (256, 512, 1024)
  | _ => (256, 1024, 4096)

/-- The leak interval in ns (R371). -/
def partLeak : PartKind → Nat
  | .slice => 10000000
  | .filzor => 1000000
  | .cxl => 1000000000
  | .phase => 1000000000
  | _ => 100000000

/-- A part's score and state. -/
def State.score (s : State) (k : PartKind) (id : Nat) : Nat × Nat :=
  match k with
  | .tile => ((s.tile id).score, (s.tile id).part)
  | .tarn => ((s.tile id).tarnScore, (s.tile id).tarnPart)
  | .router => (Tab.get 0 s.planes.routerScore id, Tab.get 0 s.planes.routerPart id)
  | .link => (Tab.get 0 s.planes.linkScore id, Tab.get 0 s.planes.linkPart id)
  | .slice => ((s.slice id).score, (s.slice id).part)
  | .cxl => ((s.range id).score, (s.range id).part)
  | .filzor => ((s.port id).score, (s.port id).part)
  | .phase => ((s.phase id).score, (s.phase id).part)

/-- A part's score and state set. -/
def State.setScore (s : State) (k : PartKind) (id score part : Nat) : State :=
  match k with
  | .tile => s.updTile id fun x => { x with score := score, part := part }
  | .tarn => s.updTile id fun x => { x with tarnScore := score, tarnPart := part }
  | .router => { s with planes := { s.planes with
      routerScore := Tab.put 0 id score s.planes.routerScore, routerPart := Tab.put 0 id part s.planes.routerPart } }
  | .link => { s with planes := { s.planes with
      linkScore := Tab.put 0 id score s.planes.linkScore, linkPart := Tab.put 0 id part s.planes.linkPart } }
  | .slice => s.updSlice id fun x => { x with score := score, part := part }
  | .cxl => s.updRange id fun x => { x with score := score, part := part }
  | .filzor => s.updPort id fun x => { x with score := score, part := part }
  | .phase => s.updPhase id fun x => { x with score := score, part := part }

/-- The state of a part whose score is `n` (R373): it rises to the highest threshold reached, falls below half a
threshold, and FENCED is final. -/
def nextPart (th : Nat × Nat × Nat) (old n : Nat) : Nat :=
  if old = 3 || n ≥ th.2.2 then 3
  else if n ≥ th.2.1 || (old = 2 && 2 * n ≥ th.2.1) then 2
  else if n ≥ th.1 || (old ≥ 1 && 2 * n ≥ th.1) then 1
  else 0

/-- A defect-list entry (R433); the list holds 4,096. -/
def State.addDefect (kind source id cause : Nat) (s : State) : State :=
  if s.ledger.defects.length ≥ 4096 then s
  else { s with ledger := { s.ledger with defects := s.ledger.defects ++
    [⟨kind, source, id, cause, s.ledger.hours, s.ledger.startCount⟩] } }

/-- A virtual tile loses its tile. -/
def Graph.losePlace (y : Graph) (v : Nat) : Graph :=
  match y.change with
  | none => { y with place := listSet y.place v 320 }
  | some c => { y with place := listSet y.place v 320, change := some { c with place := listSet c.place v 320 } }

/-- The fence of a virtual tile's tile, kept for its re-placement (R376). -/
def Abandon.addFence (a : Abandon) (t v : Nat) : Abandon := { a with fenced := a.fenced ++ [(t, v)] }
def Graph.noteFence (y : Graph) (t v : Nat) : Graph := { y with abandon := y.abandon.map fun a => a.addFence t v }

/-! ### Staged turn-on and turn-off (R406 to R408) -/

/-- The neighbourhood of a domain: 0 to 19 massifs, 20 to 27 HBM stacks, 28 the I/O die (R406). -/
def hoodOf (dom : Nat) : Nat :=
  if dom < 320 then dom / 16 else if dom < 640 then (dom - 320) / 16 else if dom < 660 then dom - 640
  else if dom < 676 then 20 + (dom - 660) / 2 else 28

def State.hood (s : State) (h : Nat) : List Staging := Tab.get [] s.power.stagings h
def State.setHood (s : State) (h : Nat) (q : List Staging) : State :=
  { s with power := { s.power with stagings := Tab.put [] h q s.power.stagings } }

/-- A notice to a neighbourhood: its regulators bring back the phases they have shed (R407). -/
def State.noticeHood (h : Nat) (s : State) : State :=
  if h < 20 then (List.range 128).foldl (fun s i => s.updPhase (h * 128 + i) fun x => { x with shed := false }) s else s

/-- Stagings that wait, in ascending domain ID. -/
def insertStaging (g : Staging) : List Staging → List Staging
  | [] => [g]
  | x :: q => if g.dom < x.dom then g :: x :: q else x :: insertStaging g q

/-- A staging queued, 2 µs after its notice (R407, R408). -/
def State.queueStaging (dom : Nat) (on : Bool) (s : State) : State :=
  let h := hoodOf dom
  let g : Staging := ⟨dom, on, 0, roundUp (s.cairn + 2000) 4, 0, false, false⟩
  let q := match s.hood h with
    | [] => [g]
    | x :: q => x :: insertStaging g q
  (s.noticeHood h).setHood h q

/-- Whether a staging of a domain waits or runs. -/
def State.hasStaging (s : State) (dom : Nat) (on : Bool) : Bool := (s.hood (hoodOf dom)).any fun g => g.dom == dom && g.on == on

/-- A domain asked on or off, once; one that is lost stays OFF (R404). -/
def State.askDomain (dom : Nat) (on : Bool) (s : State) : State :=
  if s.hasStaging dom on || (on && s.power.lost.contains dom) then s else s.queueStaging dom on

/-- The next staging of a queue: the first whose compute domain does not wait for its Tarn (R407). -/
def State.nextStaging (s : State) (q : List Staging) : List Staging :=
  match q.find? fun g => !(g.on && g.dom < 320 && (s.tile g.dom).tarnPower != .active) with
  | none => q
  | some g => { g with at_ := cairnMax g.at_ s.cairn } :: q.erase g

/-- The set point raised again where a staging for which it fell has ended (R408). -/
def State.restorePoint (g : Staging) (s : State) : State :=
  { s with power := { s.power with
      setMhz := if g.lowered then min s.power.top (s.power.setMhz + 10) else s.power.setMhz
      stallSteps := if g.stalled then s.power.stallSteps - 1 else s.power.stallSteps } }

/-- The turn-ons of a domain that nothing needs any more, taken out of its queue (R119, R405). -/
def State.unstage (dom : Nat) (s : State) : State :=
  let h := hoodOf dom
  let q := (s.hood h).filter fun g => !(g.dom == dom && g.on)
  if q = s.hood h then s
  else
    let s1 := ((s.hood h).filter fun g => g.dom == dom && g.on).foldl (fun s g => s.restorePoint g) s
    s1.setHood h (if (s.hood h).head? = q.head? then q else s.nextStaging q)

/-- Whether a tile's compute domain has a use (R405). -/
def Tile.inUse (x : Tile) : Bool := x.use != TileUse.free && !x.fenced

/-- Whether a dump is pending: it runs, or the recovery that runs has yet to come to it (R119, R446). -/
def State.dumpPending (s : State) : Bool :=
  s.dump.running || (s.dump.enable && s.dump.size != 0 && (match s.seq with | .recovery 1 _ false true => true | _ => false))

/-- The Tarns of some fenced tiles are to go OFF, once no dump will read them any more (R119). -/
def State.tarnsOff (ts : List Nat) (s : State) : State :=
  ts.foldl (fun s t => if (s.tile t).fenced && (s.tile t).tarnPower == .retain then s.askDomain (t + 320) false else s) s

/-- The Tarn of a tile whose compute domain is dark (R118, R119, R405, R413): RETAIN, with no stages, for a tile in use and for a
fenced one whose dump is pending, and OFF for one without a use. -/
def State.restTarn (t : Nat) (s : State) : State :=
  let x := s.tile t
  if x.on || x.tarnPower == .off then s
  else if x.inUse || (x.fenced && s.dumpPending) then s.updTile t fun x => { x with tarnPower := .retain }
  else s.askDomain (t + 320) false

/-- A tile that nothing uses goes dark: its compute domain first, then its Tarn (R119, R405, R408). -/
def State.quiet (t : Nat) (s : State) : State := if (s.tile t).on then s.askDomain t false else s.restTarn t

/-- A tile that nothing uses any more. -/
def Tile.idled (x : Tile) : Tile := { x with use := .free, clearing := false, run := .reset, staging := [] }

/-- What lies in the Saddles of a tile's island discarded (R265): channel words, and the Summit flits from it and to it (R261). -/
def State.dropWords (t : Nat) (s : State) : State :=
  { s with planes := { s.planes with
    words := s.planes.words.filter fun w => w.src != t && w.tile != t
    outs := s.planes.outs.map fun e => (e.1, { e.2 with waiting := e.2.waiting.filter fun f => match f with
      | .arrive u _ => u != t
      | .release _ _ _ => e.1 != 0x1000 + t }) } }

/-- The staging writes that wait at a tile complete with a status (R123). -/
def State.completeStaging (t status : Nat) (ws : List (Nat × List Byte × Bool)) (s : State) : State :=
  { s with mem := { s.mem with stagingDone := s.mem.stagingDone ++ ws.map fun w =>
    (2 ^ 59 + s.fabric.id * 2 ^ 44 + t * 2 ^ 23 + w.1, status) } }

/-- A tile let go by what used it: its domains turn off under R408 (R405). -/
def State.letGo (t : Nat) (s : State) : State :=
  (((s.completeStaging t 0x32 (s.tile t).staging).updTile t (·.idled)).unstage t |>.unstage (t + 320)).quiet t

/-- A tile taken out of use (R375, R376): its graph abandons its passes, and its virtual tile waits for another one. What its
Saddles hold is discarded (R265), staging writes that wait complete with `NOT_PERMITTED` (R123), a turn-on under way is given up,
and the tile goes dark, its Tarn to RETAIN while a dump is pending and OFF otherwise (R119, R408). -/
def State.fenceTile (t : Nat) (s : State) : State :=
  let x := s.tile t
  if x.fenced then s
  else
    let own := s.owner t
    let s0 := (s.completeStaging t 0x32 x.staging).dropWords t
    let s1 := (((s0.setTile t { x with fenced := true, use := .free, run := .reset, staging := [], clearing := false }).unstage
      t).unstage (t + 320)).quiet t
    let s2 := match own with
      | none => s1
      | some (g, v) =>
        if x.use == TileUse.bound g v then
          (s1.abandon g 6 [] []).updGraph g fun y => (y.losePlace v).noteFence t v
        else (s1.abandon g 6 [] []).updGraph g fun y =>
          { y with verify := { y.verify with shadows := y.verify.shadows.filter (·.2 != t) } }
    s2.checkDegraded

/-- A part's score and state after a change, with its event and, at FENCED, its defect entry (R373). -/
def State.settleScore (k : PartKind) (id old n cause : Nat) (s : State) : State :=
  let p := nextPart (partThresholds k) old n
  let s1 := s.setScore k id n p
  if p = old then s1
  else
    let s2 := s1.raise (0x1605 + p) n (partCode k) id
    if p = 3 then s2.addDefect (partCode k) 3 id cause else s2

/-- A tile FENCED at once with the score `n` (R373, R375). -/
def State.fenceAt (t n cause : Nat) (s : State) : State :=
  if (s.score .tile t).2 = 3 then s
  else ((((s.setScore .tile t n 3).raise 0x1608 n (partCode .tile) t).addDefect (partCode .tile) 3 t cause)).fenceTile t

/-- A tile FENCED at once (R376, R379): its score reaches the threshold of R371. -/
def State.fenceNow (t cause : Nat) (s : State) : State := s.fenceAt t (max (s.score .tile t).1 4096) cause

/-! ### Filzor ports -/

/-- A port without the packets held in its buffers or queued for it (R278). -/
def FzPort.dropped (x : FzPort) : FzPort := { x with
    replay := [], sending := [], arriving := [], input := [], output := [], nak := false, resent := 0, retrains := 0 }

/-- A port's change of state, with its event (R272). -/
def State.portTo (p : Nat) (st : PortState) (s : State) : State :=
  if (s.port p).state = st then s else (s.updPort p fun x => { x with state := st }).raise 0x1501 0 p st.code

/-- A port taken to `DISABLED` at once, with its packets dropped (R279, R488). -/
def State.disablePort (p : Nat) (s : State) : State := (s.updPort p (·.dropped)).portTo p .disabled

/-- A port that goes `DOWN` (R278). -/
def State.portDown (p : Nat) (s : State) : State := ((s.updPort p (·.dropped)).portTo p .down).raise 0x1507 0 p 0

/-! ### Slices -/

/-- The mapped range at a CXL offset (R226). -/
def State.rangeAt (s : State) (off : Nat) : Option Nat :=
  (List.range 8).find? fun r => let x := s.range r
    x.valid && x.baseGib * 2 ^ 30 ≤ off && off < (x.baseGib + x.sizeGib) * 2 ^ 30

/-- The port that a frame of a range lies on: on an interleaved tier frame p lies on port p mod 2 (R227). -/
def CxlRange.portOf (x : CxlRange) (off : Nat) : Nat := if x.paired then off / 4096 % 2 else x.port

/-- Whether a CXL offset is served: its range is in service, with the device of the frame's port (R227, R229, R230). -/
def State.cxlServed (s : State) (off : Nat) : Bool :=
  match s.rangeAt off with
  | none => false
  | some r => (s.range r).inService && (!(s.range r).paired || bit (s.range r).members ((s.range r).portOf off))

/-- Whether a slot lies wholly on mapped ranges that are in service (R238, R487). -/
def State.slotMapped (s : State) (baseGib : Nat) : Bool :=
  (List.range 6).all fun i => s.cxlServed ((baseGib + i) * 2 ^ 30)

/-- The lowest-numbered free slot, on ranges that are in service (R238, R239). -/
def State.freeSlot (s : State) : Option Nat :=
  (List.range 8).find? fun i => let r := Tab.get RetireSlot.reset s.mem.slots i; r.enable && !r.inUse && s.slotMapped r.baseGib

/-- A slot taken by a slice. -/
def State.takeSlot (i slice : Nat) (s : State) : State :=
  { s with mem := { s.mem with slots := Tab.upd .reset i (fun r => { r with slice := slice, inUse := true }) s.mem.slots } }

/-- A slice redirected to a slot without a copy; where the ledger records it as retired, it records the new slot (R241). -/
def State.slotWithoutCopy (i n : Nat) (s : State) : State :=
  let base := (Tab.get RetireSlot.reset s.mem.slots i).baseGib
  let s1 := ((s.updSlice n fun x => { x with state := .retired i }).takeSlot i n).raise 0x1308 0 n i
  { s1 with
    mem := { s1.mem with unplaced := s1.mem.unplaced.filter (· != n) }
    ledger := { s1.ledger with retired := s1.ledger.retired.map fun e => if e.1 = n then (n, i, base) else e } }

/-- A slot that has become free goes to the lowest slice that waits for one (R241). DESIGN CHOICE (log entry 67): R241 does not
say when a slice for which a start finds no slot takes the next free one; it takes it as soon as there is one. -/
def State.placeSlice (s : State) : State :=
  match s.freeSlot, (sortBy s.mem.unplaced fun a b => a ≤ b).head? with
  | some i, some n => s.slotWithoutCopy i n
  | _, _ => s

/-- A slice retires: its frames are copied from the lowest one on (R239), or the retirement is blocked (R240). -/
def State.retireSlice (n : Nat) (s : State) : State :=
  match (s.slice n).state with
  | .good => match s.freeSlot with
    | some i => ((s.updSlice n fun x => { x with state := .retiring i 0 }).takeSlot i n).raise 0x1307 0 n i
    | none => s.raise 0x1309 0 n 0
  | _ => s

/-- A slice lost (R240): 1 controller failed, 2 slot out of service, 3 no slot. -/
def State.loseSlice (n cause : Nat) (s : State) : State :=
  match (s.slice n).state with
  | .lost => s
  | _ => (s.updSlice n fun x => { x with state := .lost }).raise 0x130A 0 n cause

/-! ### Phases -/

/-- A tile's cap (R402, R417). -/
def State.capTile (t : Nat) (s : State) : State :=
  if (s.tile t).capped then s else (s.updTile t fun x => { x with capped := true }).raise 0x1706 20 t 0

/-- Effects of a phase that newly counts as failed, with the report: 2 overtemperature, 4 dead, 5 FENCED score (R402). -/
def State.tilePhaseFailed (t phase report : Nat) (s : State) : State :=
  let s1 := s.raise 0x1705 report t phase
  let n := s1.failedPhases t
  if n = 2 then s1.capTile t
  else if n ≥ 3 then (s1.updTile t fun x => { x with on := false }).fenceNow t 0x1705
  else s1

/-- What FENCED does to a part (R374, R240, R279, R402). A memory-plane link carries no more packets, and a CXL range gives
no page, by the state recorded here. -/
def State.fencePart (k : PartKind) (id : Nat) (s : State) : State :=
  match k with
  | .tile => s.fenceTile id
  | .tarn => s.fenceTile id
  | .router => (List.range 16).foldl (fun s i => s.fenceTile (id * 16 + i)) s
  | .link => s
  | .slice => s.retireSlice id
  | .cxl => s.raise 0x1306 (s.range id).score id 0
  | .filzor => (s.disablePort id).raise 0x1508 (s.port id).score id 0
  | .phase => (s.updPhase id fun x => { x with failed := true }).tilePhaseFailed (id / 8) (id % 8) 5

/-- A part's score and state after a change, its event, and the effects of FENCED (R373, R374). -/
def State.settle (k : PartKind) (id old n cause : Nat) (s : State) : State :=
  let s1 := s.settleScore k id old n cause
  if old ≠ 3 && nextPart (partThresholds k) old n == 3 then s1.fencePart k id else s1

/-- An event's weight added to a part's score (R371, R372), with the code that a defect entry would take. -/
def State.blame (k : PartKind) (id weight cause : Nat) (s : State) : State :=
  let old := s.score k id
  s.settle k id old.2 (min (old.1 + weight) 65535) cause

end Sys2Proof.Machine
end

