-- ==== Sys2Proof/Machine/Operands.lean ====
section
/-! DEFINITION. Operands of a tile's operations: the fields of an operation word (R134 to R143), the engines and their
timing (R38, R41, R46, R51), Tarn reads and writes under ECC (R99 to R116), and the tokens an operation takes (R25,
R133, R135, R161). An operation word is read as one number `w`, its extension word as `x`. -/

namespace Sys2Proof.Machine

/-! ### Fields of an operation word -/

def opCode (w : Nat) : Nat := bits w 0 8
def inQ (w i : Nat) : Nat := bits w (8 + 8 * i) 8
def outQ (w j : Nat) : Nat := bits w (40 + 8 * j) 8
def inEn (w i : Nat) : Bool := bit w (56 + i)
def outEn (w j : Nat) : Bool := bit w (60 + j)
def opPair (w : Nat) : Bool := bit w 62
def opExt (w : Nat) : Bool := bit w 63

/-- Enabled inputs: index and queue. -/
def inputsOf (w : Nat) : List (Nat × Nat) := ((List.range 4).filter (inEn w)).map fun i => (i, inQ w i)

/-- Enabled outputs: index and queue. -/
def outputsOf (w : Nat) : List (Nat × Nat) := ((List.range 2).filter (outEn w)).map fun j => (j, outQ w j)

/-- The word at an index of the operation store (R134). -/
def Tile.op (x : Tile) (k : Nat) : Nat := (Tab.get 0 x.cfg.ops k).toNat

/-- Indices of first words (R134); `fuel` bounds the words left. -/
def opIndices (ops : Tab OpWord) : Nat → Nat → List Nat
  | 0, _ => []
  | fuel + 1, k =>
    let w := (Tab.get 0 ops k).toNat
    if opExt w then k :: opIndices ops (fuel - 1) (k + 2) else k :: opIndices ops fuel (k + 1)

/-- The engine of an opcode (R51): 0 matrix, 1 vector and special-function, 2 stream, 3 steering. -/
def engineOf (c : Nat) : Option Nat :=
  if c = 0x10 || c = 0x11 then some 0
  else if (0x20 ≤ c && c ≤ 0x2F) || (0x40 ≤ c && c ≤ 0x45) then some 1
  else if 0x50 ≤ c && c ≤ 0x58 then some 2
  else if 0x60 ≤ c && c ≤ 0x65 then some 3
  else none

/-- The code a word names; FP32 where the rules give the operation no code (R42, R44). -/
def fmtAt (w lo : Nat) : Fmt := (Fmt.ofCode (bits w lo 8)).getD fp32

/-- `MMA` (R137). -/
def mmaShape (w : Nat) : MmaShape :=
  let fb := fmtAt w 72
  { fa := fmtAt w 64, fb := fb, m := bits w 80 6 + 1, k := 64 * (bits w 86 8 + 1),
    n := colWidth fb.width * (bits w 94 10 + 1), acc := bit w 104, qexp := signed 8 (bits w 106 8) }

/-- Rows and row length of a vector word (R139). -/
def vecRowsOf (w : Nat) : Nat := bits w 93 6 + 1
def vecLenOf (w : Nat) : Nat := bits w 99 16

/-- A vector or special-function word (R139, R140, R91), with the row ids. -/
def vecShape (w x : Nat) (sreg : Nat → Word) (ids : List Nat) : VecShape :=
  { fin := fmtAt w 64, fout := fmtAt w 72, rd := ⟨bits w 80 2, ids, bits x 32 32⟩, sat := bit w 82,
    opnd2 := bits w 86 2, sreg := (sreg (bits w 88 5)).toNat, rows := vecRowsOf w, len := vecLenOf w,
    func := bits w 115 4, ret := bits w 119 4 + 1 }

/-- Bytes of a stream operation (R141). -/
def streamBytes (w : Nat) : Nat := 64 * (bits w 86 14 + 1)

/-! ### Timing -/

/-- Turns that the drain of one column tile takes, in cycles: D of R38. -/
def mmaDrain (sh : MmaShape) : Nat := ceilDiv (sh.m * colWidth sh.fb.width * 4) 2048 * 8

/-- Issue interval of an `MMA` (R38). -/
def mmaIssue (sh : MmaShape) : Nat :=
  let d := mmaDrain sh
  let a := b2n sh.acc
  let tiles := sh.n / colWidth sh.fb.width
  a * d + roundUp (tiles * max (sh.k / 64 * max sh.m (8 * tileTurns sh.fb.width)) ((1 + a) * d)) 8

/-- Streamed inputs of full length (R41). -/
def streamed (c w : Nat) : Nat :=
  1 + b2n (inEn w 1 && (bits w 86 2 == 0 || c == 0x2E || c == 0x2F)) + b2n (c == 0x23 || c == 0x27)

/-- Issue interval and pipeline depth of an operation with fixed timing (R38, R41, R42, R46, R51). -/
def timing (w : Nat) : Nat × Nat :=
  let c := opCode w
  let l := vecRowsOf w * vecLenOf w
  if c = 0x10 then (mmaIssue (mmaShape w), 24 + mmaDrain (mmaShape w))
  else if c = 0x11 then (16 * 2 ^ bits w 114 2, 12)
  else if c = 0x45 then (roundUp (vecRowsOf w * (ceilDiv (vecLenOf w) 16 + bits w 115 4 + 1)) 8, 20)
  else if c = 0x44 then (roundUp (ceilDiv l 8) 8, 22)
  else if 0x40 ≤ c && c ≤ 0x43 then (roundUp (ceilDiv l 16) 8, 22)
  else if 0x20 ≤ c && c ≤ 0x2F then
    (roundUp (ceilDiv l (if streamed c w = 1 then 64 else if streamed c w = 2 then 32 else 16)) 8, 14)
  else (8, 6)

/-! ### The Tarn -/

/-- Words of a Tarn (R99). -/
def tarnWords : Nat := 786432

/-- First word of the tile window (R105). -/
def Tile.window (x : Tile) : Nat := x.cfg.layerUnits * 8192

/-- Words of one half of the window (R106). -/
def Tile.halfWords (x : Tile) : Nat := (tarnWords - x.window) / 2

/-- First word of a half (R106). -/
def Tile.halfBase (x : Tile) (h : Nat) : Nat := x.window + h * x.halfWords

/-- A range that leaves the valid addresses or crosses the region boundary is not allowed (R100). -/
def Tile.rangeOk (x : Tile) (a n : Nat) : Bool :=
  a + n ≤ tarnWords && (a + n ≤ x.window || x.window ≤ a || n == 0)

/-- Outcomes of a read of one word (R111, R112). -/
inductive ReadKind where
  | good | corrected | uncorrectable | stored | beyond
deriving DecidableEq, Repr

/-- What the word's code finds (R111): SECDED in the layer region, DEC-TED in the tile window. -/
def readKind (win : Bool) (v : TarnWord) : ReadKind :=
  if v.poison then .stored
  else if v.wrong = 0 then .good
  else if win then (if v.wrong ≤ 2 then .corrected else if v.wrong = 3 then .uncorrectable else .beyond)
  else (if v.wrong = 1 then .corrected else if v.wrong = 2 then .uncorrectable else .beyond)

/-- What a read of a run of words delivers and counts. -/
structure ReadRes where
  words : List Word
  /-- Words corrected, and the addresses of those found uncorrectable and of stored poison. -/
  ce : Nat
  ue : List Nat
  stored : List Nat
deriving DecidableEq, Repr

/-- Whether anything was delivered poisoned. -/
def ReadRes.poisoned (r : ReadRes) : Bool := !r.ue.isEmpty || !r.stored.isEmpty

/-- Two reads taken together. -/
def ReadRes.append (a b : ReadRes) : ReadRes := ⟨a.words ++ b.words, a.ce + b.ce, a.ue ++ b.ue, a.stored ++ b.stored⟩

/-- `n` words read from address `a` (R110, R111); beyond the code's reach the delivered word is a free value. -/
def Tile.readWords (x : Tile) (draw : Nat) : Nat → Nat → ReadRes
  | _, 0 => ⟨[], 0, [], []⟩
  | a, n + 1 =>
    let v := Tab.get .zero x.tarn a
    let r := Tile.readWords x draw (a + 1) n
    match readKind (x.window ≤ a) v with
    | .good => { r with words := v.data :: r.words }
    | .corrected => { r with words := v.data :: r.words, ce := r.ce + 1 }
    | .uncorrectable => { r with words := v.data :: r.words, ue := a :: r.ue }
    | .stored => { r with words := v.data :: r.words, stored := a :: r.stored }
    | .beyond => { r with words := Config.missedRead (draw * 2 ^ 20 + a) v.data :: r.words }

/-- Words as bytes (R4). -/
def wordBytes (ws : List Word) : List Byte := ws.flatMap fun w => toLe 8 w.toNat

/-- Bytes as whole words; bits beyond the bytes are zero (R104). -/
def bytesToWords (bs : List Byte) : List Word :=
  (chunks 8 (ceilDiv bs.length 8) bs).map fun n => BitVec.ofNat 64 n

/-- A run of words written (R112): a good write takes away wrong bits and any stored poison, and a write with bad
parity stores the poison pattern. Patrol drops the write-back of a word that is written (R116). -/
def Tile.writeWords (x : Tile) (a : Nat) (ws : List Word) (poison : Bool) : Tile :=
  { x with
    tarn := Tab.putAll .zero a (ws.map fun w => ⟨w, 0, poison⟩) x.tarn
    patrolBack := x.patrolBack.filter fun p => !(a ≤ p.1 && p.1 < a + ws.length) }

/-- A run of words written from outside the tile's own firings, in slot 6 of this turn (R23, R102): operations that read beside
it see it as R103 says. -/
def Tile.writeBeside (x : Tile) (a : Nat) (ws : List Word) (poison : Bool) : Tile :=
  let cs : List TarnChange := ws.zipIdx.map fun w =>
    ⟨a + w.2, Tab.get .zero x.tarn (a + w.2), ⟨w.1, 0, poison⟩, x.cycle + 7, x.cycle + 7, none⟩
  { x.writeWords a ws poison with run := { x.run with changes := x.run.changes ++ cs } }

/-- Wrong bits that have come about in stored words. -/
def Tile.upset (x : Tile) (us : List (Nat × Nat)) : Tile :=
  us.foldl (fun x u =>
    if u.1 < tarnWords then
      { x with tarn := Tab.upd .zero u.1 (fun v => { v with wrong := v.wrong + u.2 }) x.tarn }
    else x) x

/-- The cleared Tarn (R109). -/
def Tile.clear (x : Tile) : Tile := { x with tarn := [], patrolBack := [] }

/-- The counts, events and scores of a read (R111, R113, R372). DESIGN CHOICE (log entry 76): where one read finds several
poisoned words, `TARN_ERR_ADDR` holds the highest one with stored poison, and without any the highest uncorrectable one. -/
def State.noteRead (t : Nat) (r : ReadRes) (s : State) : State :=
  let x := s.tile t
  let c := x.cnt
  let ce := c.tarnCe.add r.ce
  let ue := c.tarnUe.add r.ue.length
  let st := c.tarnPoison.add r.stored.length
  let err : TarnErr := match r.stored.getLast?, r.ue.getLast? with
    | some a, _ => ⟨a, 1, true⟩
    | none, some a => ⟨a, 0, true⟩
    | none, none => x.tarnErr
  let g := (s.owner t).getD (0, 0)
  let s := s.setTile t { x with cnt := { c with tarnCe := ce, tarnUe := ue, tarnPoison := st }, tarnErr := err }
  let s := ((s.noteSaturated c.tarnCe ce 0x08 t 1).noteSaturated c.tarnUe ue 0x10 t 1).noteSaturated c.tarnPoison st 0x18 t 1
  let s := s.raiseAll (r.ue.map fun a => ⟨0x1103, a, tg t g.1, 0⟩)
  if r.ce + r.ue.length = 0 then s else s.blame .tarn t (r.ce + 256 * r.ue.length) 0x1103

/-! ### Queues and tokens -/

def Tile.queue (x : Tile) (q : Nat) : Queue := Tab.get .reset x.run.queues q
def Tile.qcfg (x : Tile) (q : Nat) : QueueCfg := Tab.get .reset x.cfg.queues q
def Tile.credit (x : Tile) (q : Nat) : Credit := Tab.get .reset x.run.credits q
def Tile.engine (x : Tile) (e : Nat) : Engine := Tab.get .reset x.run.engines e
def Tile.channel (x : Tile) (c : Nat) : Channel := Tab.get .reset x.run.channels c
def Tile.updRun (x : Tile) (f : TileRun → TileRun) : Tile := { x with run := f x.run }
def Tile.updQueue (x : Tile) (q : Nat) (f : Queue → Queue) : Tile :=
  x.updRun fun r => { r with queues := Tab.upd .reset q f r.queues }
def Tile.updCredit (x : Tile) (q : Nat) (f : Credit → Credit) : Tile :=
  x.updRun fun r => { r with credits := Tab.upd .reset q f r.credits }
def Tile.updChannel (x : Tile) (c : Nat) (f : Channel → Channel) : Tile :=
  x.updRun fun r => { r with channels := Tab.upd .reset c f r.channels }
def Tile.updEngine (x : Tile) (e : Nat) (f : Engine → Engine) : Tile :=
  x.updRun fun r => { r with engines := Tab.upd .reset e f r.engines }

/-- Whether a token is a Burgee token. -/
def Token.isBurgee (k : Token) : Bool := match k.body with | .burgee _ => true | _ => false

/-- Tokens ahead of any Burgee: an operation never fires on tokens behind one (R164). -/
def Tile.visible (x : Tile) (q : Nat) : List Token := (x.queue q).toks.takeWhile fun k => !k.isBurgee

/-- Tarn address of a data token. -/
def Token.addr (k : Token) : Nat := match k.body with | .data a _ => a | _ => 0

/-- Contributions an `XCOMB` takes (R135). -/
def combineCount (w : Nat) : Nat := (bits w 115 4 + 1) * (bits w 119 4 + 1)

/-- The tag by which a word's inputs pair: that of the oldest token on `IN0` (R161). -/
def Tile.pairTag (x : Tile) (w : Nat) : Option Nat :=
  if opPair w && inEn w 0 then (x.visible (inQ w 0)).head?.map (·.tag) else none

/-- The tag of the contributions that an `XCOMB` takes: the pairing tag, else the first of which enough have come (R59,
R135, R161). DESIGN CHOICE (log entry 76): where several tags have enough and nothing pairs, it takes the one whose first token
is the oldest. -/
def combineTag (n : Nat) (pair : Option Nat) (vis : List Token) : Option Nat :=
  let enough (g : Nat) : Bool := n ≤ (vis.filter (·.tag == g)).length
  match pair with
  | some g => if enough g then some g else none
  | none => (vis.map (·.tag)).dedup.find? enough

/-- The tokens that input `i` of a word would consume from the tokens `vis` of its queue (R25, R135, R161); none while they
are missing. -/
def takeFrom (w i : Nat) (pair : Option Nat) (vis : List Token) : Option (List Token) :=
  if opCode w = 0x2F && i = 0 then
    (combineTag (combineCount w) pair vis).map fun g => (vis.filter (·.tag == g)).take (combineCount w)
  else if opPair w && (i = 1 || i = 2) && inEn w 0 then
    match pair with
    | none => none
    | some g => (vis.find? (·.tag == g)).map fun k => [k]
  else vis.head?.map fun k => [k]

/-- What each input in turn would consume, none where its tokens are missing: two inputs on one queue take tokens one after
the other (R25, R135). `used` are the tokens that the inputs before it take, by queue. -/
def Tile.takes (x : Tile) (w : Nat) : List (Nat × Nat) → List (Nat × List Token) → List (Nat × Nat × Option (List Token))
  | [], _ => []
  | iq :: rest, used =>
    let gone := (used.filter (·.1 == iq.2)).flatMap (·.2)
    let ks := takeFrom w iq.1 (x.pairTag w) ((x.visible iq.2).diff gone)
    (iq.1, iq.2, ks) :: Tile.takes x w rest (used ++ [(iq.2, ks.getD [])])

/-- What the inputs of a word would consume: input, queue, tokens. -/
def Tile.taking (x : Tile) (w : Nat) : List (Nat × Nat × Option (List Token)) := x.takes w (inputsOf w) []

/-- All inputs' tokens: none while any is missing. -/
def Tile.takeAll (x : Tile) (w : Nat) : Option (List (Nat × Nat × List Token)) :=
  let ts := x.taking w
  if ts.all fun t => t.2.2.isSome then some (ts.map fun t => (t.1, t.2.1, t.2.2.getD [])) else none

/-- First word of ring entry `n` of a queue (R133). -/
def QueueCfg.entry (c : QueueCfg) (n : Nat) : Nat := c.bufBase + n % max c.depth 1 * c.bufWords

/-- Whether a token names words of the entry that starts at `a`. -/
def Token.names (k : Token) (a : Nat) : Bool := match k.body with | .data b _ => b == a | _ => false

/-- Whether the next entry of `OUT0`'s ring is held (R133). -/
def Tile.entryHeld (x : Tile) (q : Nat) : Bool :=
  let c := x.qcfg q
  let a := c.entry (x.queue q).sent
  !c.fixed && !c.pennant && c.source == 0 && c.bufWords != 0 &&
    (x.run.queues.any (fun e => (e.2.toks ++ e.2.fresh).any (·.names a)) ||
      x.run.emitted.any (fun e => e.2.names a) ||
      x.run.flights.any (fun f => f.outs.any fun o => o.2.names a) ||
      x.run.ringHolds.any (fun h => h.1 == a && x.cycle < h.2.2))

/-! ### Readiness -/

/-- What keeps an operation from firing: input queues without tokens, output queues without credits, its engine or a load-step
lead, or else a Burgee ahead, or a channel whose route is not enabled or does not yet stand ready (R54, R55). Channel waits stand
as numbers from 256 on, and a missing posted receive as 512. -/
structure Waits where
  inputs : List Nat
  credits : List Nat
  engine : Bool
  kept : Bool
deriving DecidableEq, Repr

/-- Nothing keeps it. -/
def Waits.ready (w : Waits) : Bool := w.inputs.isEmpty && w.credits.isEmpty && !w.engine && !w.kept

/-- It waits for input tokens alone, for output credits alone, or for its engine alone (R32). -/
def Waits.forInput (w : Waits) : Bool := !w.inputs.isEmpty && w.credits.isEmpty && !w.engine && !w.kept
def Waits.forCredit (w : Waits) : Bool := w.inputs.isEmpty && !w.credits.isEmpty && !w.engine && !w.kept
def Waits.forEngine (w : Waits) : Bool := w.inputs.isEmpty && w.credits.isEmpty && w.engine && !w.kept

/-- Requests of up to 256 bytes that a piece stands for (R47). -/
def Piece.requests (p : Piece) : Nat := ceilDiv p.bytes 256

/-- Requests of a firing that have not ended: those of its pieces that satisfy `p`, and those of its dispatched rows. -/
def Firing.requests (p : Piece → Bool) (f : Firing) : Nat :=
  sumNat ((f.pieces.filter p).map (·.requests)) + f.rowAcks.dedup.length * f.rowRequests

/-- Whether a piece has been asked for and has not landed. -/
def Piece.asked (p : Piece) : Bool := match p.state with | .waiting => false | .unconnected _ => false | .landed => false | _ => true

/-- Requests of a tile's pieces that are outstanding (R47). -/
def Tile.asked (x : Tile) : Nat := sumNat (x.run.flights.map fun f => sumNat ((f.pieces.filter Piece.asked).map (·.requests)))

/-- Requests of up to 256 bytes that are outstanding or still to be made (R47). -/
def Tile.outstanding (x : Tile) : Nat :=
  sumNat (x.run.flights.map (Firing.requests fun p => p.state != PieceState.landed))

/-- Whether a half of the window is held (R108). -/
def Tile.halfHeld (x : Tile) (h : Nat) : Bool :=
  x.run.halfHolds.any fun e => e.1 == h && (match e.2 with | none => true | some c => x.cycle < c)

/-- Whether the load-step lead of R31 keeps a matrix operation back: the engine has been idle for 1,024 cycles, and
no lead of this operation has ended. -/
def Tile.leadBlocks (x : Tile) (k : Nat) : Bool :=
  x.cycle ≥ (x.engine 0).idleSince + 1024 &&
    (match x.run.lead with
      | some (j, c) => !(j == k && c ≤ x.cycle)
      | none => true)

/-- Queue credits that the operation would use and does not find (R25). -/
def Tile.missingCredits (x : Tile) (w : Nat) : List Nat :=
  let outs := (outputsOf w).map (·.2)
  outs.dedup.filter fun q => (x.credit q).held < outs.count q

/-- Whether an accumulator bank that a matrix operation needs is in use (R25, R37): an `MMA` needs its own, an `MTRN` any. -/
def Tile.banksBusy (x : Tile) (w : Nat) : Bool :=
  let busy (b : Nat) : Bool := (Tab.get none x.run.banks b).isSome
  if opCode w = 0x10 then busy (bits w 105 1) else opCode w == 0x11 && busy 0 && busy 1

/-- The waits of the operation at `k` (R25, R31, R37, R47, R52, R53, R108, R133, R147, R256, R353). DESIGN CHOICE (log entry
61): R32 has three kinds of stall and names neither of these; a load-step lead counts as a wait for the engine, and a
`CSEND` without a posted receive as a wait for output credits. -/
def Tile.waits (x : Tile) (k : Nat) : Waits :=
  let w := x.op k
  let c := opCode w
  let e := (engineOf c).getD 3
  let chan := bits w 64 6
  { inputs := ((x.taking w).filter fun t => t.2.2.isNone).map (·.2.1) ++
      (if c = 0x61 && (x.channel chan).recv.length ≤ (x.channel chan).fresh then [256 + chan] else [])
    credits := x.missingCredits w ++
      (if c = 0x60 && (x.channel chan).credits == 0 then [256 + chan] else []) ++
      (if c = 0x56 && !(x.run.posted.any fun p => p.1 == bits w 64 16) then [512] else [])
    engine := (x.engine e).freeAt > x.cycle || (x.engine e).fired
      || x.run.flights.any (fun f => f.failed && engineOf (opCode (x.op f.index)) == some e)
      || x.banksBusy w
      || (e = 0 && x.leadBlocks k)
      || (c = 0x58 && x.halfHeld (bits w 100 1))
      || (e = 2 && x.outstanding ≥ 512)
      || (c = 0x65 && x.run.flights.countP (fun f => opCode (x.op f.index) == 0x65) ≥ 4)
      || (outEn w 0 && x.entryHeld (outQ w 0))
    kept := (x.taking w).any (fun t => t.2.2.isNone && (x.queue t.2.1).toks.any (·.isBurgee)) ||
      (c = 0x60 && (!(Tab.get Route.reset x.cfg.routes chan).enable || (x.channel chan).held)) }

/-- Queues and channels for whose credits alone some operation waits (R160, R382). -/
def Tile.waitQueues (x : Tile) : List Nat :=
  (((opIndices x.cfg.ops x.cfg.opWords 0).map x.waits).flatMap fun w =>
    if w.forCredit && !w.credits.contains 512 then w.credits else []).dedup

/-- Operations of an engine, by index. -/
def Tile.opsOf (x : Tile) (e : Nat) : List Nat :=
  (opIndices x.cfg.ops x.cfg.opWords 0).filter fun k => engineOf (opCode (x.op k)) == some e

/-- Whether a tile runs a graph's operations now: bound or a shadow, powered, not stopped and not switching (R21, R28,
R109, R158, R166, R357). -/
def State.runs (s : State) (t : Nat) : Bool :=
  let x := s.tile t
  x.on && x.tarnPower == .active && !s.power.halted && !x.clearing && !x.run.stopped && x.run.switchUntil.isNone && !x.fenced &&
    (match s.owner t with
      | none => false
      | some (g, _) => match s.graph? g with
        | none => false
        | some y => !y.suspended && !y.stopped)

/-- Whether the operation at `k` fires in this turn: it is ready, and the lowest ready one of its engine (R25, R26). -/
def Tile.fires (x : Tile) (k : Nat) : Bool :=
  (x.waits k).ready &&
    (match engineOf (opCode (x.op k)) with
      | none => false
      | some e => ((x.opsOf e).find? fun j => (x.waits j).ready) == some k)

end Sys2Proof.Machine
end

