-- ==== Sys2Proof/Machine/Memory.lean ====
section
/-! DEFINITION. Global addresses and accesses to memory (R216 to R232, R238 to R242). An access touches whole 64-byte
units, each at one instant (R221). -/

namespace Sys2Proof.Machine

/-- Completion statuses (R328, R332). -/
def stOk : Nat := 0x00
def stWindowClosed : Nat := 0x10
def stUnreachable : Nat := 0x11
def stVerifyFailed : Nat := 0x20
def stReplayed : Nat := 0x21
def stFencedRetry : Nat := 0x22
def stPoisoned : Nat := 0x23
def stBad : Nat := 0x30
def stOverrun : Nat := 0x31
def stNotPermitted : Nat := 0x32
def stAborted : Nat := 0x40

/-- No status of the spec: a staging write whose tile is not yet ready for it completes later (R123). -/
def stWait : Nat := 0x100

/-- Bytes of HBM, and the first of the module area (R218, R223). -/
def hbmBytes : Nat := 0x6000000000
def moduleArea : Nat := 0x5FC0000000

/-- What a global address names (R216 to R219). -/
inductive Loc where
  | hbm (off : Nat)
  | cxl (off : Nat)
  | tarn (tile off : Nat)
  | remote (module : Nat)
  | fault
deriving DecidableEq, Repr

/-- A global address decoded (R216 to R219). -/
def State.locate (s : State) (a : Nat) : Loc :=
  let sp := bits a 58 2
  let off := a % 2 ^ 44
  if bits a 44 14 ≠ s.fabric.id then .remote (bits a 44 14)
  else if sp = 0 then (if off < hbmBytes then .hbm off else .fault)
  else if sp = 1 then (if (s.rangeAt off).isSome then .cxl off else .fault)
  else if sp = 2 then
    (if bits off 23 9 < 320 && bits off 32 12 == 0 && off % 2 ^ 23 < 0x600000 then .tarn (bits off 23 9) (off % 2 ^ 23)
      else .fault)
  else .fault

/-- The byte within the slice (R222). -/
def hbmSliceByte (off : Nat) : Nat := (off >>> 18) * 4096 + off % 4096

/-- The HBM offset of a byte of a slice: the inverse of R222. -/
def hbmOffset (slice b : Nat) : Nat :=
  let f := b / 4096
  let low := slice ^^^ bits f 0 6 ^^^ bits f 6 6 ^^^ bits f 12 6 ^^^ bits f 18 6
  f * 2 ^ 18 + low * 2 ^ 12 + b % 4096

/-- Where the bytes of an HBM line stand (R239 to R241). -/
inductive Home where
  | here
  | slot (cxlOff : Nat)
  | lost
deriving DecidableEq, Repr

/-- First CXL offset of a retirement slot. -/
def State.slotBase (s : State) (i : Nat) : Nat := (Tab.get .reset s.mem.slots i).baseGib * 2 ^ 30

/-- The home of an HBM offset. -/
def State.home (s : State) (off : Nat) : Home :=
  let x := s.slice (hbmSlice off)
  let at_ (n : Nat) : Home := .slot (s.slotBase n + hbmSliceByte off)
  match x.state with
  | .good => .here
  | .lost => .lost
  | .retired n => at_ n
  | .retiring n c => if off >>> 18 < c then at_ n else .here

/-- What a read of a unit answers: bytes, poison mark, status. -/
structure Answer where
  bytes : List Byte
  poison : Bool
  status : Nat
deriving DecidableEq, Repr

/-- A read of CXL bytes (R229). -/
def State.readCxl (s : State) (off n : Nat) : Answer :=
  if s.cxlServed off then ⟨s.readBytes 1 off n, s.poisoned 1 off n, stOk⟩ else ⟨[], false, stUnreachable⟩

/-- Words of a Tarn through the side port: corrected, with a poison mark, and with nothing counted (R121). -/
def State.sideWords (s : State) (t a n : Nat) : ReadRes := (s.tile t).readWords s.draws a n

/-- Bytes that a code cannot vouch for, from offset `a` on. -/
def freeBytes (draw a n : Nat) : List Byte := (List.range n).map fun i => Config.copyByte draw (a + i)

/-- Frames of a slice, and bytes of a redirect map: one bit for each frame (R222, R238). -/
def sliceFrames : Nat := 1572864
def mapBytes : Nat := 196608

/-- Frames of a slot's slice that stand in the slot: a retirement copies them in ascending order (R238, R239). -/
def State.framesIn (s : State) (i : Nat) : Nat :=
  let x := Tab.get RetireSlot.reset s.mem.slots i
  if !x.inUse then 0
  else match (s.slice x.slice).state with
    | .retired j => if j = i then sliceFrames else 0
    | .retiring j c => if j = i then c else 0
    | _ => 0

/-- A byte of a slot's redirect map: a bit set for each frame that goes to the slot (R238, R239). -/
def State.mapByte (s : State) (i k : Nat) : Byte := BitVec.ofNat 8 (2 ^ min 8 (s.framesIn i - 8 * k) - 1)

/-- The byte of the redirect maps at a byte of the module area, where one lies there (R238). -/
def State.mapAt (s : State) (off : Nat) : Option Byte :=
  let base := moduleArea + 64 * (Config.mapBase % 2 ^ 24)
  if base ≤ off && off < base + 8 * mapBytes then some (s.mapByte ((off - base) / mapBytes) ((off - base) % mapBytes)) else none

/-- Bytes of the module area (R223): what tiles have written there as done words, the redirect maps of the slots, and for the
tracker's journals, free lists and harvest tails, whose layout no rule gives, free values (log entry 65). -/
def State.areaBytes (s : State) (off n : Nat) : List Byte :=
  (List.range n).map fun i =>
    ((findByte s.mem.hbm.bytes (off + i)).orElse fun _ => s.mapAt (off + i)).getD (Config.areaByte s.draws (off + i))

/-- Wrong symbols of a line of HBM (R224). -/
def State.wrongAt (s : State) (line : Nat) : Nat := Tab.get 0 s.mem.wrong line
def State.setWrong (line n : Nat) (s : State) : State := { s with mem := { s.mem with wrong := Tab.put 0 line n s.mem.wrong } }

/-- Symbols that have gone wrong in lines of HBM: line and number of symbols. -/
def State.hbmUpset (us : List (Nat × Nat)) (s : State) : State :=
  us.foldl (fun s u => if u.1 < hbmBytes / 64 then s.setWrong u.1 (s.wrongAt u.1 + u.2) else s) s

/-- A read of bytes in a line of HBM (R224, R225): one wrong symbol is corrected, two are detected, and beyond that the data are
open. -/
def State.readLine (s : State) (off n : Nat) : Answer :=
  let w := s.wrongAt (off / 64)
  if 3 ≤ w && !s.poisoned 0 off n then ⟨freeBytes s.draws off n, false, stOk⟩
  else ⟨if moduleArea ≤ off then s.areaBytes off n else s.readBytes 0 off n, w == 2 || s.poisoned 0 off n, stOk⟩

/-- A read of bytes that lie in one 64-byte unit. -/
def State.readUnit (s : State) (a n : Nat) : Answer :=
  match s.locate a with
  | .hbm off => match s.home off with
    | .here => s.readLine off n
    | .slot c => s.readCxl c n
    | .lost => ⟨s.readBytes 0 off n, true, stOk⟩
  | .cxl off => s.readCxl off n
  | .tarn t off =>
    if (s.tile t).tarnPower = .off then ⟨[], false, stNotPermitted⟩
    else
      let r := s.sideWords t (off / 8) (ceilDiv (off % 8 + n) 8)
      ⟨sliceB (wordBytes r.words) (off % 8) n, r.poisoned, stOk⟩
  | .remote _ => ⟨[], false, stUnreachable⟩
  | .fault => ⟨[], false, stNotPermitted⟩

/-- The mark and the wrong symbols of the line a write touches: a bad write poisons it, a good write of a whole line frees it
(R225), and symbols that the write replaces or the code corrects are right again. -/
def State.markLines (sp off n : Nat) (poison : Bool) (s : State) : State :=
  let l := off / 64
  let whole := off % 64 == 0 && 64 ≤ n
  let s := if sp = 0 && s.wrongAt l != 0 && (whole || poison || s.wrongAt l == 1) then s.setWrong l 0 else s
  if poison then s.setPoison sp l true
  else if whole && s.poisoned sp off 64 then s.setPoison sp l false
  else s

/-- Bytes written to a space, with their poison. -/
def State.store (sp off : Nat) (bs : List Byte) (poison : Bool) (s : State) : State :=
  (s.writeBytes sp off bs).markLines sp off bs.length poison

/-- A write to CXL bytes (R229). -/
def State.writeCxl (off : Nat) (bs : List Byte) (poison : Bool) (s : State) : State × Nat :=
  if s.cxlServed off then (s.store 1 off bs poison, stOk) else (s, stUnreachable)

/-- Whether a staging write to a tile is taken (R122): a fenced tile cannot be staged (R123), and while a thermal halt stands no
domain turns on (R413). -/
def State.stagingOk (s : State) (t : Nat) : Bool :=
  ((s.owner t).isNone || s.fuses.lcState == 4) && !(s.tile t).fenced && ((s.tile t).on || !s.power.halted)

/-- Whether a tile can take a staging write now: both domains on, and no clearing under way. -/
def Tile.stageReady (x : Tile) : Bool := x.on && x.tarnPower == .active && !x.clearing

/-- Staging words written to a Tarn from byte `off` on. -/
def Tile.stageWords (x : Tile) (w : Nat × List Byte × Bool) : Tile := x.writeBeside (w.1 / 8) (bytesToWords w.2.1) w.2.2

/-- The staging writes that wait are applied once the tile is ready for them, and complete (R123). -/
def State.stagedOn (t : Nat) (s : State) : State :=
  if (s.tile t).stageReady then
    (s.updTile t fun x => { x.staging.foldl Tile.stageWords x with staging := [] }).completeStaging t stOk (s.tile t).staging
  else s

/-- The domains of a tile asked on where they are off, Tarn first, and its massif's router with them (R119, R123, R251, R407); under
a thermal halt they wait for its end (R413). -/
def State.turnTileOn (t : Nat) (s : State) : State :=
  let ask (dom : Nat) (off : Bool) (s : State) : State := if off then s.askDomain dom true else s
  if s.power.halted then s
  else
    ask (640 + t / 16) (!Tab.get false s.planes.routerOn (t / 16))
      (ask t (!(s.tile t).on) (ask (t + 320) ((s.tile t).tarnPower != .active) s))

/-- A staging write to a tile, with its status (R122, R123): a tile that nothing else uses counts as staged from now on. One that
is not ready turns its domains on under R407, and the write is applied behind the clearing: until then it waits where it came
from, and is made again. -/
def State.stageWrite (t off : Nat) (bs : List Byte) (poison : Bool) (s : State) : State × Nat :=
  let free := match (s.tile t).use with | .free => true | .staged _ => true | _ => false
  let s1 := s.updTile t fun x => { x with use := if free then .staged s.cairn else x.use }
  if (s1.tile t).stageReady then (s1.updTile t (·.stageWords (off, bs, poison)), stOk)
  else (if free then s1.turnTileOn t else s1, stWait)

/-- A staging access renews a staged tile's second (R123). -/
def State.renewStaged (a : Nat) (s : State) : State :=
  match s.locate a with
  | .tarn t _ => match (s.tile t).use with
    | .staged _ => s.updTile t fun x => { x with use := .staged s.cairn }
    | _ => s
  | _ => s

/-- A write of bytes that lie in one 64-byte unit, with its status. -/
def State.writeUnit (a : Nat) (bs : List Byte) (poison : Bool) (s : State) : State × Nat :=
  match s.locate a with
  | .hbm off => match s.home off with
    | .here => (s.store 0 off bs poison, stOk)
    | .slot c => s.writeCxl c bs poison
    | .lost => (s, stPoisoned)
  | .cxl off => s.writeCxl off bs poison
  | .tarn t off =>
    if s.stagingOk t then s.stageWrite t off bs poison
    else (s, stNotPermitted)
  | .remote _ => (s, stUnreachable)
  | .fault => (s, stNotPermitted)

/-- A read of a run, unit by unit, up to the first failing status; `fuel` bounds the units. -/
def State.readRun (s : State) : Nat → Nat → Nat → Answer
  | 0, _, _ => ⟨[], false, stOk⟩
  | fuel + 1, a, n =>
    if n = 0 then ⟨[], false, stOk⟩
    else
      let k := min n (64 - a % 64)
      let u := s.readUnit a k
      if u.status ≠ stOk then ⟨[], false, u.status⟩
      else
        let r := State.readRun s fuel (a + k) (n - k)
        ⟨u.bytes ++ r.bytes, u.poison || r.poison, r.status⟩

/-- A read of `n` bytes at a global address. -/
def State.read (s : State) (a n : Nat) : Answer := s.readRun (n / 64 + 2) a n

/-! ### Runs of the CXL tier (R226, R230) -/

/-- Bytes that two runs share. -/
def sharedBytes (a n b m : Nat) : Nat := min (a + n) (b + m) - max a b

/-- Bytes of a run of global addresses that lie on a range of this module's CXL tier. -/
def State.onRange (s : State) (a n r : Nat) : Nat :=
  let x := s.range r
  if bits a 58 2 == 1 && bits a 44 14 == s.fabric.id && x.valid then
    sharedBytes (a % 2 ^ 44) n (x.baseGib * 2 ^ 30) (x.sizeGib * 2 ^ 30)
  else 0

/-- Bytes of a run that lie on ranges of which something holds. -/
def State.bytesOn (s : State) (a n : Nat) (ok : CxlRange → Bool) : Nat :=
  sumNat ((List.range 8).map fun r => if ok (s.range r) then s.onRange a n r else 0)

/-! ### Counts of reads (R224, R225, R486) -/

/-- The global address of a local HBM offset. -/
def State.hbmAddr (s : State) (off : Nat) : Nat := s.fabric.id * 2 ^ 44 + off

/-- A slice's counters: 0 `HBM_CE`, 1 `HBM_UNCORR`, 2 `HBM_POISON_READ` (R486). -/
def Slice.counter (x : Slice) (i : Nat) : Counter := match i with | 0 => x.ce | 1 => x.uncorr | _ => x.poisonRead
def Slice.setCounter (x : Slice) (i : Nat) (c : Counter) : Slice :=
  match i with | 0 => { x with ce := c } | 1 => { x with uncorr := c } | _ => { x with poisonRead := c }

/-- One more in a counter of a slice. -/
def State.countSlice (n i : Nat) (s : State) : State :=
  let old := (s.slice n).counter i
  let new := old.add 1
  (s.updSlice n fun x => x.setCounter i new).noteSaturated old new (0x41000 + 32 * n + 8 * i) 0 0

/-- A corrected line (R224, R372). -/
def State.hbmCorrected (off : Nat) (s : State) : State := (s.countSlice (hbmSlice off) 0).blame .slice (hbmSlice off) 1 0

/-- A line that fails detection (R224, R372). -/
def State.hbmFailed (off : Nat) (s : State) : State :=
  ((s.countSlice (hbmSlice off) 1).raise 0x1301 (s.hbmAddr (off / 64 * 64)) (hbmSlice off) 0).blame .slice (hbmSlice off) 256 0x1301

/-- What a read of a line of HBM counts and raises; where it delivers free values, the next draw is another one. -/
def State.noteLine (off : Nat) (s : State) : State :=
  if s.home off ≠ .here then s
  else if s.poisoned 0 (off / 64 * 64) 64 then s.countSlice (hbmSlice off) 2
  else match s.wrongAt (off / 64) with
    | 0 => if moduleArea ≤ off then s.draw else s
    | 1 => s.hbmCorrected off
    | 2 => s.hbmFailed off
    | _ => s.draw

/-- What a read of a run counts, line by line; `fuel` bounds the lines. -/
def State.noteRun : Nat → Nat → Nat → State → State
  | 0, _, _, s => s
  | fuel + 1, a, n, s =>
    if n = 0 then s
    else
      let k := min n (64 - a % 64)
      State.noteRun fuel (a + k) (n - k) (match s.locate a with
        | .hbm off => s.noteLine off
        | _ => s)

/-- A read of `n` bytes at a global address, with what it counts and, of a staged tile, the second that it renews. -/
def State.readNoting (a n : Nat) (s : State) : Answer × State := (s.read a n, (s.noteRun (n / 64 + 2) a n).renewStaged a)

/-! ### Writes of runs -/

/-- A write of a run, unit by unit, up to the first failing status. -/
def State.writeRun : Nat → Nat → List Byte → Bool → State → State × Nat
  | 0, _, _, _, s => (s, stOk)
  | fuel + 1, a, bs, p, s =>
    if bs.isEmpty then (s, stOk)
    else
      let k := min bs.length (64 - a % 64)
      let r := s.writeUnit a (bs.take k) p
      if r.2 ≠ stOk then r else State.writeRun fuel (a + k) (bs.drop k) p r.1

/-- A write of bytes at a global address, with its status. -/
def State.write (a : Nat) (bs : List Byte) (poison : Bool) (s : State) : State × Nat :=
  s.writeRun (bs.length / 64 + 2) a bs poison

/-- Bytes of a redirected slice that lie in a run of HBM: first CXL offset and length (R222, R239); frames of the slice are
counted in groups of 64. -/
def State.redirected (s : State) (a n i limit slice : Nat) : Nat × Nat :=
  let lo := a / 2 ^ 18 + b2n (hbmOffset slice (a / 2 ^ 18 * 4096) < a)
  let e := a + n
  let hi := min limit (e / 2 ^ 18 + b2n (hbmOffset slice (e / 2 ^ 18 * 4096) < e))
  (s.slotBase i + 4096 * lo, 4096 * (hi - lo))

/-- A run of HBM initialised to zero, with the frames that stand in slots (R239, R242, R485). -/
def State.zeroRun (a n : Nat) (s : State) : State :=
  let cxl (m : Memory) (k : Nat) : Memory := match (s.slice k).state with
    | .retired i => let r := s.redirected a n i (2 ^ 21) k; m.zero r.1 r.2
    | .retiring i c => let r := s.redirected a n i c k; m.zero r.1 r.2
    | _ => m
  { s with mem := { s.mem with
    hbm := s.mem.hbm.zero a n, cxl := (List.range 64).foldl cxl s.mem.cxl
    wrong := Tab.clear (a / 64) (n / 64) s.mem.wrong } }

/-- Whether every byte of a local range lies in HBM or a mapped range (R218); a remote range counts as mapped. -/
def State.mapped (s : State) (a n : Nat) : Bool :=
  let ok (b : Nat) : Bool := match s.locate b with | .fault => false | .tarn _ _ => true | _ => true
  ok a && ok (a + n - 1)

/-- Global address of a batch's done word, in the tracker's area of HBM (R204, R206, R223). DESIGN CHOICE (log entry 65): one
64-byte line for each of 4,096 successive batches of each kind of each graph, from a line that the part fixes. -/
def State.doneWord (s : State) (g kind n : Nat) : Nat :=
  s.hbmAddr (moduleArea + 64 * ((Config.doneBase + (g * 4 + kind) * 4096 + n % 4096) % 2 ^ 24))

/-- Whether a tile may write a unit of the module area: the done word of a batch of its graph (R223). -/
def State.doneWordOk (s : State) (t a n : Nat) : Bool :=
  match s.owner t with
  | none => false
  | some (g, _) => match s.graph? g with
    | none => false
    | some y => y.inFlight.any fun b => b.doneAddr ≤ a && a + n ≤ b.doneAddr + 64

end Sys2Proof.Machine
end

