-- ==== Sys2Proof/Machine/Descriptors.lean ====
section
/-! DEFINITION. Descriptors that the module holds: their fields, the checks common to all of them, their start and their
completion (R321, R324 to R328, R332). -/

namespace Sys2Proof.Machine

/-- Header and body fields (R321). -/
def Desc.opcode (d : Desc) : Nat := field d.bytes 0 1
def Desc.entries (d : Desc) : Nat := field d.bytes 1 1
def Desc.fence (d : Desc) : Bool := bit (field d.bytes 2 1) 0
def Desc.arg (d : Desc) : Nat := field d.bytes 4 4
def Desc.cookie (d : Desc) : Nat := field d.bytes 8 8
def Desc.get (d : Desc) (off n : Nat) : Nat := field d.bytes off n

/-- The descriptor of a tag. -/
def State.desc (s : State) (tag : Nat) : Option Desc := s.host.descs.find? (·.tag == tag)

/-- Opcodes of R332. -/
def opcodesOf332 : List Nat :=
  [0x01, 0x02, 0x10, 0x11, 0x12, 0x13, 0x20, 0x21, 0x22, 0x23, 0x30, 0x31, 0x40, 0x41, 0x42, 0x43, 0x50, 0x51, 0x60, 0x70,
    0x71, 0x72]

/-- Details of R326, R327. -/
def hostReadFailed : Nat := 0x0401
def lifecycleForbids : Nat := 0x0108
def badOpcode : Nat := 0x0402
def badEntries : Nat := 0x0403
def reservedNonzero : Nat := 0x0404
def badAlign : Nat := 0x0405

/-- The completion record of a descriptor, in the entry reserved for it (R325, R328, R330). -/
def State.writeCompletion (ring opcode cookie status detail result head : Nat) (s : State) : State :=
  let q := (s.sq ring).cq
  (s.updCq q fun c => { c with reserved := c.reserved - 1 }).writeRec q
    { kind := 0, status := status, detail := detail, opcode := opcode, ring := ring, tag := cookie, word0 := head,
      word1 := result }

/-- A descriptor leaves the module's store. -/
def State.dropDesc (tag : Nat) (s : State) : State :=
  { s with host := { s.host with descs := s.host.descs.filter (·.tag != tag) } }

/-- A descriptor completes. -/
def State.complete (d : Desc) (status detail result : Nat) (s : State) : State :=
  (s.writeCompletion d.ring d.opcode d.cookie status detail result (s.sq d.ring).count).dropDesc d.tag

/-- A descriptor named by its tag completes, where the module still holds it. -/
def State.completeTag (tag status detail result : Nat) (s : State) : State :=
  match s.desc tag with
  | none => s
  | some d => s.complete d status detail result

/-- A descriptor whose action has begun and whose completion waits. -/
def State.holdDesc (tag : Nat) (s : State) : State :=
  { s with host := { s.host with descs := s.host.descs.map fun e => if e.tag = tag then { e with started := true } else e } }

/-- What a descriptor's layout asks for: its entries, the bits of `arg` in use, the bytes of the body in use as offsets and
lengths, and whether its addresses, sizes and alignments keep their rules. -/
structure Form where
  entries : Nat
  arg : Nat
  named : List (Nat × Nat)
  align : Bool

/-- Whether every byte of the body outside the named fields is zero (R5, R321). -/
def restZero (bytes : List Byte) (named : List (Nat × Nat)) : Bool :=
  (bytes.zipIdx.drop 16).all fun b => b.1 == 0 || named.any fun n => n.1 ≤ b.2 && b.2 < n.1 + n.2

/-- The detail of the first cause of R327 that applies. -/
def Form.fault (f : Form) (d : Desc) : Option Nat :=
  if d.entries ≠ f.entries then some badEntries
  else if field d.bytes 2 1 ≥ 2 || field d.bytes 3 1 != 0 || d.arg &&& f.arg != d.arg || !restZero d.bytes f.named then
    some reservedNonzero
  else if !f.align then some badAlign
  else none

/-- Whether a descriptor may start: earlier ones of its ring have started, and have completed where it is fenced (R324). -/
def State.mayStart (s : State) (d : Desc) : Bool :=
  s.host.descs.all fun e => e.ring != d.ring || d.tag ≤ e.tag || (e.started && !d.fence)

/-- Whether a descriptor's action reads host memory: an image, a prompt, the data of a `HOST_COPY`, or a token (R332). -/
def Desc.readsHost (d : Desc) : Bool :=
  match d.opcode with
  | 0x10 => bit d.arg 0
  | 0x70 => bit d.arg 0
  | 0x20 => true
  | 0x21 => true
  | 0x31 => d.arg == 0
  | 0x71 => true
  | _ => false

/-- Whether the image of a descriptor has come from another module, so that its action goes on (R217). -/
def State.imageCame (s : State) (tag : Nat) : Bool := s.mem.images.any (·.1 == tag)

/-- Whether a descriptor's action may begin, or go on: its turn has come, and host memory that it reads is in reach; while the host
link is down the module issues no DMA (R324, R345). -/
def State.mayRun (s : State) (d : Desc) : Bool :=
  s.inService && (if d.started then s.imageCame d.tag else s.mayStart d) && (s.dma || !d.readsHost)

/-- A descriptor of one kind starts: refused under R327, or carried out. -/
def State.runDesc (opc tag : Nat) (form : Desc → Form) (act : Desc → State → State) (s : State) : Out3 :=
  .next (match s.desc tag with
    | none => s
    | some d =>
      if d.opcode ≠ opc || !s.mayRun d then s
      else match (form d).fault d with
        | some e => s.complete d stBad e 0
        | none => act d s)

/-- A bound graph that takes descriptors (R338). -/
def State.servedGraph (s : State) (g : Nat) : Option Graph :=
  match s.graph? g with
  | none => none
  | some y => if y.unloading.isSome then none else some y

/-- `NO_GRAPH` (R184, R338). -/
def noGraph : Nat := 0x0203

end Sys2Proof.Machine
end

