-- ==== Sys2Proof/Machine/Manifest.lean ====
section
/-! DEFINITION. The firmware manifest, its verification, and the units that run firmware (R454, R463 to R467, R474). -/

namespace Sys2Proof.Machine

/-- Bytes of a manifest, and those that the image digest covers (R465). -/
def maniBytes : Nat := 1280
def maniDigested : Nat := 1216

/-- Header fields of a manifest (R465). -/
def mMagic (b : List Byte) : Nat := field b 0 4
def mVersion (b : List Byte) : Nat := field b 4 2
def mSections (b : List Byte) : Nat := field b 6 2
def mSecurity (b : List Byte) : Nat := field b 8 4
def mSlot (b : List Byte) : Nat := field b 12 1
def mSize (b : List Byte) : Nat := field b 16 8
def mBuild (b : List Byte) : Nat := field b 24 8
def mPub (b : List Byte) : List Byte := sliceB b 32 32
def mSignature (b : List Byte) : List Byte := sliceB b maniDigested 64

/-- Fields of the section entry of unit kind `k` (R465). -/
def mOffset (b : List Byte) (k : Nat) : Nat := field b (68 + 144 * k) 4
def mLength (b : List Byte) (k : Nat) : Nat := field b (72 + 144 * k) 4
def mDigest (b : List Byte) (k : Nat) : List Byte := sliceB b (80 + 144 * k) 64
def mSectSig (b : List Byte) (k : Nat) : List Byte := sliceB b (144 + 144 * k) 64

/-- The bytes of a section. -/
def mSection (b : List Byte) (k : Nat) : List Byte := sliceB b (mOffset b k) (mLength b k)

/-- The image digest (R465). -/
def imageDigest (b : List Byte) : List Byte := sha512 (b.take maniDigested)

/-- Whether two sections share a byte. -/
def sectsMeet (b : List Byte) (i j : Nat) : Bool :=
  mLength b i != 0 && mLength b j != 0 && mOffset b i < mOffset b j + mLength b j && mOffset b j < mOffset b i + mLength b i

/-- Check 1 of R466. -/
def layoutOk (b : List Byte) : Bool :=
  mMagic b == 0x4E464D58 && mVersion b == 1 && mSections b == 8 && mSize b == b.length && maniBytes ≤ b.length &&
    (List.range 8).all (fun k => mOffset b k + mLength b k ≤ b.length) &&
    (List.range 8).all fun i => (List.range i).all fun j => !sectsMeet b i j

/-- The digest in a key slot: firmware slots 0 to 3, life-cycle slots 4 to 7 (R463). -/
def Fuses.keySlot (f : Fuses) (i : Nat) : List Byte :=
  match f.keys.find? (·.1 == i) with
  | some e => e.2
  | none => Config.keySlot i

/-- Check 2 of R466: the key is that of its slot, which is not revoked. -/
def Fuses.fwKeyOk (f : Fuses) (b : List Byte) : Bool :=
  mSlot b < 4 && sha512 (mPub b) == f.keySlot (mSlot b) && !bit f.fwRevoked (mSlot b)

/-- Check 4 of R466 on the bytes of a section, which a unit repeats on those it holds (R456). -/
def bytesOk (b : List Byte) (k : Nat) (section_ : List Byte) : Bool :=
  sha512 section_ == mDigest b k && edVerify (mPub b) (mDigest b k) (mSectSig b k)
def sectionOk (b : List Byte) (k : Nat) : Bool := bytesOk b k (mSection b k)

/-- `FW_SIGNATURE` and `FW_ROLLBACK` (R466). -/
def fwSignature : Nat := 0x0501
def fwRollback : Nat := 0x0504

/-- The detail of an image that does not verify (R466). -/
def Fuses.imageFaultOf (f : Fuses) (b : List Byte) : Option Nat :=
  if layoutOk b && f.fwKeyOk b && edVerify (mPub b) (imageDigest b) (mSignature b) && (List.range 8).all (sectionOk b) then
    (if mSecurity b < f.rollback then some fwRollback else none)
  else some fwSignature

/-- The manifest of the image that the ledger header names; the factory's where no image has been written since. -/
def State.manifest (s : State) : List Byte :=
  if s.ledger.image.isEmpty then Config.factoryManifest else s.ledger.image.take maniBytes

/-- Whether the ledger's image verifies; the factory's does (log entry 30). -/
def State.ledgerVerifies (s : State) : Bool := s.ledger.image.isEmpty || (s.fuses.imageFaultOf s.ledger.image).isNone

/-- `security_version` of the ledger's image; 0 for the factory's (log entry 30). -/
def State.securityVersion (s : State) : Nat := if s.ledger.image.isEmpty then 0 else mSecurity s.ledger.image

/-- The key slot that signs the ledger's image; 0 for the factory's (log entry 30). -/
def State.imageSlot (s : State) : Nat := if s.ledger.image.isEmpty then 0 else mSlot s.ledger.image

/-! ### Units -/

/-- Units of each kind, in the order of R454. -/
def unitCounts : List Nat := [320, 20, 16, 6, 3, 1, 1, 1]

/-- Units of every kind: tile controllers 0 to 319, router controllers 320 to 339, memory controllers 340 to 355, Filzor
controllers 356 to 361, CXL and host port controllers 362 to 364, the tracker 365, the power manager 366, the Ensign 367. -/
def unitTotal : Nat := 368

/-- The kind of a unit. -/
def unitKind (u : Nat) : Nat :=
  if u < 320 then 0 else if u < 340 then 1 else if u < 356 then 2 else if u < 362 then 3 else if u < 365 then 4 else u - 360

/-- Its number within its kind. -/
def unitIndex (u : Nat) : Nat :=
  if u < 320 then u else if u < 340 then u - 320 else if u < 356 then u - 340 else if u < 362 then u - 356
  else if u < 365 then u - 362 else 0

/-- A unit that runs the section it was loaded with, and stages nothing. -/
def FwUnit.reset : FwUnit := ⟨[], none, [], [], false⟩

def State.unit (s : State) (u : Nat) : FwUnit := Tab.get .reset s.fw.units u
def State.updUnit (s : State) (u : Nat) (f : FwUnit → FwUnit) : State :=
  { s with fw := { s.fw with units := Tab.upd .reset u f s.fw.units } }

/-- The digest of the section that a unit runs (R474). -/
def State.unitDigest (s : State) (u : Nat) : List Byte :=
  if (s.unit u).running.isEmpty then mDigest s.fw.loaded (unitKind u) else (s.unit u).running

/-- Units of kind `k` that run another digest than the ledger image's section (R475). -/
def State.mixedUnits (s : State) (k : Nat) : Nat :=
  (List.range unitTotal).countP fun u => unitKind u == k && s.unitDigest u != mDigest s.manifest k

/-- The firmware of every unit loaded from the ledger (R425, R446, R454). -/
def State.loadFirmware (s : State) : State :=
  { s with fw := { s.fw with running := true, loaded := s.manifest, units := [], update := none, activating := false } }

/-! ### Activation -/

/-- Units that hold a section which they do not run yet (R454, R455). -/
def State.stagedUnits (s : State) : List Nat := (List.range unitTotal).filter fun u => (s.unit u).staged.isSome

/-- Whether a unit waits for a Burgee: the controller of a bound tile (R454). -/
def State.waitsBurgee (s : State) (u : Nat) : Bool :=
  match (s.tile u).use with
  | .bound _ _ => u < 320
  | _ => false

/-- What follows an activation, or the end of staging (R455): the descriptor completes once every unit has activated or waits
for a Burgee, and the last activation is reported. -/
def State.settleActivation (s : State) : State :=
  let st := s.stagedUnits
  let build := mBuild s.manifest
  if !s.fw.activating || !st.all s.waitsBurgee then s
  else
    let s1 := match s.fw.update with
      | none => s
      | some u =>
        let s1 := ({ s with fw := { s.fw with update := none } }).completeTag u.1 stOk 0 0
        if st.isEmpty then s1 else s1.raise 0x1802 build st.length 0
    if st.isEmpty then ({ s1 with fw := { s1.fw with activating := false } }).raise 0x1803 build 0 0 else s1

/-- A unit switches to its new section (R454, R474). -/
def State.activateUnit (u : Nat) (s : State) : State :=
  match (s.unit u).staged with
  | none => s
  | some d => if s.fw.activating then (s.updUnit u fun x => { x with running := d, staged := none }).settleActivation else s

end Sys2Proof.Machine
end

