-- ==== Sys2Proof/Machine/Links.lean ====
section
/-! DEFINITION. The memory plane's links: paths and their choice (R250, R252, R258, R371, R374), frames and control flits (R254,
R255), and Summit flits on them (R256). The stream plane's routes and its parity (R244 to R249). -/

namespace Sys2Proof.Machine

/-! ### Paths -/

/-- Where a packet goes: a slice, a tile, or the I/O die. -/
inductive Dest where
  | slice (n : Nat)
  | tile (t : Nat)
  | io
deriving DecidableEq, Repr

/-- Die of a tile. -/
def tileDie (t : Nat) : Nat := t / 160

/-- The up-link of massif leaf `g` of number `u`: link `u` mod 2 to spine `u` / 2 of its die (R371). -/
def upLink (g u : Nat) : Nat := g * 16 + u

/-- The link from spine `s` to the memory leaf of a slice, and the bridge port of spine `s` (R371). -/
def leafLink (n s : Nat) : Nat := 320 + n / 4 * 8 + s
def bridgeLink (s : Nat) : Nat := 448 + s

/-- Links that a packet uses behind the spine `s` of die `d`, and that another path avoids where one is FENCED (R374). -/
def Dest.links (d s : Nat) : Dest → List Nat
  | .slice n => (if n / 32 = d then [] else [bridgeLink s]) ++ [leafLink n s]
  | .tile t => if tileDie t = d then [] else [bridgeLink s]
  | .io => []

/-- Links into a massif leaf and to its tile: the two of the spine's pair, of which the spine picks one, and the down-link
(R250, R371). -/
def downLinks (t s : Nat) : List Nat := [upLink (t / 16) (2 * s), upLink (t / 16) (2 * s + 1), 0x1000 + t]

/-- Whether a link carries packets (R374). -/
def State.linkOpen (s : State) (l : Nat) : Bool := Tab.get 0 s.planes.linkPart l != 3

/-- Numbers from `k` on, round `n`. -/
def roundFrom (k n : Nat) : List Nat := (List.range n).map fun i => (k + i) % n

/-- The up-link that a packet of massif leaf `g` takes: in turn, passing those without a credit and those whose path is
FENCED (R252, R374). -/
def State.pickUp (s : State) (g : Nat) (busy : List Nat) (d : Dest) : Option Nat :=
  (roundFrom (Tab.get 0 s.planes.upNext g) 16).find? fun u =>
    !busy.contains u && s.linkOpen (upLink g u) && (d.links (g / 10) (u / 2)).all s.linkOpen

/-- The up-link that a response of a slice's memory leaf takes to a tile, by its spine (R250, R252, R374). -/
def State.pickBack (s : State) (n t : Nat) (busy : List Nat) : Option Nat :=
  (roundFrom (Tab.get 0 s.planes.upNext (20 + n / 4)) 8).find? fun j =>
    !busy.contains j && s.linkOpen (leafLink n j) && (Dest.links (n / 32) j (.tile t)).all s.linkOpen

/-- A leaf's turn passed on. -/
def State.turnUp (leaf next : Nat) (s : State) : State :=
  { s with planes := { s.planes with upNext := Tab.put 0 leaf next s.planes.upNext } }

/-! ### Frames -/

def State.out (s : State) (l : Nat) : LinkOut := Tab.get .reset s.planes.outs l
def State.updOut (s : State) (l : Nat) (f : LinkOut → LinkOut) : State :=
  { s with planes := { s.planes with outs := Tab.upd .reset l f s.planes.outs } }

/-- The next cycle of the frame. -/
def LinkOut.tick (o : LinkOut) (control : Bool) : LinkOut :=
  if o.cycle = 15 then { o with cycle := 0, control := 0 }
  else { o with cycle := o.cycle + 1, control := o.control + b2n control }

/-- Whether a control flit may take the next cycle: at most five of a frame (R255). -/
def LinkOut.controlMay (o : LinkOut) : Bool := o.control < 5

/-- Whether no control flit is to go ahead of the next bulk flit: none waits, or the frame has had its five (R255). -/
def LinkOut.clear (o : LinkOut) : Bool := o.waiting.isEmpty || !o.controlMay

/-- Flits of a packet, one in each cycle but the reserved one: it yields between two of them where a control flit is to go ahead, and
the rest of it waits (R255). -/
def LinkOut.bulk : Nat → LinkOut → LinkOut
  | 0, o => { o with left := 0 }
  | n + 1, o => if o.clear then LinkOut.bulk n ((if o.cycle = 0 then o.tick false else o).tick false) else { o with left := n + 1 }

/-- A control flit has gone, in the next frame where this one has had its five; a packet that has yielded goes on. -/
def LinkOut.pass (o : LinkOut) (f : CtrlFlit) : LinkOut :=
  LinkOut.bulk o.left (({ waiting := o.waiting.erase f, cycle := if o.controlMay then o.cycle else 0
                          control := if o.controlMay then o.control else 0, left := o.left } : LinkOut).tick true)

/-- Room for another control flit: an output holds 32 (R255). -/
def LinkOut.room (o : LinkOut) : Bool := o.waiting.length < 32

/-- Whether a request or response may take the output: no other packet has flits left, and no control flit is to go ahead. -/
def LinkOut.bulkMay (o : LinkOut) : Bool := o.left == 0 && o.clear

/-- Flits of a packet that carries `n` bytes (R254). -/
def packetFlits (n : Nat) : Nat := 1 + ceilDiv n 64

/-! ### Multicast packets (R258 to R261) -/

/-- Routers are numbered: massif leaves 0 to 19, and spine `j` of die `d` as this. -/
def spineRouter (d j : Nat) : Nat := 20 + 8 * d + j

/-- Branching routers on the way from tile `t` by spine `j` to a member, each with the branch it copies to: a massif leaf, 20
for the bridge, or at a leaf the tile. -/
def castPath (t j m : Nat) : List (Nat × Nat) :=
  if tileDie m = tileDie t then [(spineRouter (tileDie t) j, m / 16), (m / 16, m)]
  else [(spineRouter (tileDie t) j, 20), (spineRouter (tileDie m) j, m / 16), (m / 16, m)]

/-- The link by which a packet comes to a router of that way, from up-link `u`. -/
def castInput (t u m r : Nat) : Nat :=
  let j := u / 2
  if r = spineRouter (tileDie t) j then upLink (t / 16) u
  else if r < 20 then upLink (m / 16) (2 * j)
  else bridgeLink j

/-- Links that a copy to a member uses. -/
def castLinks (t u m : Nat) : List Nat :=
  upLink (t / 16) u :: (Dest.links (tileDie t) (u / 2) (.tile m) ++ downLinks m (u / 2))

/-- The branch that a copy held at a router stands for. -/
def branchOf (r m : Nat) : Nat :=
  if r < 20 then m else if tileDie m = (r - 20) / 8 then m / 16 else 20

/-- Copies of dispatched rows and count records in the multicast buffer of a router: one for each branch of each packet. -/
def Planes.copiesAt (p : Planes) (r : Nat) : Nat :=
  ((p.rows.filter fun m => m.way.stand == some (.held r)).map fun m =>
    (m.src, m.firing, m.slot, m.rank, branchOf r m.tile)).dedup.length +
  ((p.counts.filter fun m => m.way.stand == some (.held r)).map fun m =>
    (m.src, m.xmap, m.expert, m.tag, m.burgee, branchOf r m.tile)).dedup.length

/-- Copies in the multicast buffer of a router: one for each branch of each packet (R259). -/
def State.copiesAt (s : State) (r : Nat) : Nat :=
  sumNat (s.tiles.map fun e => sumNat (e.2.run.flights.map fun f => sumNat (f.pieces.map fun p =>
    ((p.copies.filter fun c => c.2.2 == CopyState.held r).map fun c => branchOf r c.1).dedup.length))) + s.planes.copiesAt r

/-- The link at whose far end a copy waits in a router's input. -/
def CopyState.inputLink : CopyState → Option Nat
  | .atInput _ l => some l
  | _ => none

/-- Links at whose far end a multicast packet waits in a router's input, and holds up what comes behind it (R259). -/
def State.blockedLinks (s : State) : List Nat :=
  (s.tiles.flatMap fun e => e.2.run.flights.flatMap fun f => f.pieces.flatMap fun p => p.copies.filterMap fun c => c.2.2.inputLink) ++
    (s.planes.rows.filterMap fun m => m.way.stand.bind (·.inputLink)) ++
    s.planes.counts.filterMap fun m => m.way.stand.bind (·.inputLink)

/-! ### Dispatched packets on their way (R252, R258, R259) -/

/-- The up-link by which a copy's packet rises: the one that a copy of it has taken, or the next in its leaf's turn that has a
credit, behind which no multicast waits, and whose path is not FENCED. -/
def State.riseUp (s : State) (src dst : Nat) (w : Way) (busy : List Nat) : Option Nat :=
  w.up.orElse fun _ =>
    let stuck := s.blockedLinks
    s.pickUp (src / 16) (busy ++ (List.range 16).filter fun u => (castLinks src u dst).any stuck.contains) (.tile dst)

/-- A packet of `n` flits risen by its up-link, where this copy is the first of it. -/
def State.rise (src u n : Nat) (w : Way) (s : State) : State :=
  if w.up.isSome then s
  else (s.updOut (upLink (src / 16) u) (LinkOut.bulk n)).turnUp (src / 16) ((u + 1) % 16)

/-- Whether it may rise: its up-link has a cycle for it. -/
def State.riseMay (s : State) (src u : Nat) (w : Way) : Bool := w.up.isSome || (s.out (upLink (src / 16) u)).bulkMay

/-- The branches that a copy still has before it. -/
def Way.ahead (w : Way) (src u dst : Nat) : List (Nat × Nat) :=
  match w.stand with
  | some (.held r) => (castPath src (u / 2) dst).dropWhile (·.1 != r)
  | some (.atInput r _) => (castPath src (u / 2) dst).dropWhile (·.1 != r)
  | _ => castPath src (u / 2) dst

/-- Where a copy comes to stand: at the first branch before it without a credit, in the router's buffer, or at its input where
the buffer is full and holds none of its packet for that branch (`same`); none where it reaches its member (R259). -/
def State.standsAt (s : State) (src u dst : Nat) (w : Way) (held : List (Nat × Nat)) (same : Nat → Nat → Bool) : Option CopyState :=
  ((w.ahead src u dst).find? held.contains).map fun rb =>
    if w.stand == some (.held rb.1) || s.copiesAt rb.1 < 64 || same rb.1 rb.2 then .held rb.1
    else .atInput rb.1 (castInput src u dst rb.1)

/-- The parity error that a copy meets: on a link of its way that no copy of its packet has crossed in good order (R254). -/
def Way.hit (w : Way) (src u dst : Nat) (bad : Option Nat) : Option Nat :=
  bad.filter fun l => (castLinks src u dst).contains l && !w.clean.contains l

/-- What the other copies of a packet know of one that has reached `dst`. -/
def Way.after (w : Way) (src u dst : Nat) : Way := { w with up := some u, clean := w.clean ++ castLinks src u dst }

/-- The up-link of an acknowledgement from tile `m` to tile `t`, on the response channel; `back` are links without a credit
there (R252, R260, R374). -/
def State.ackUp (s : State) (m t : Nat) (back : List Nat) : Option Nat :=
  s.pickUp (m / 16) ((List.range 16).filter fun u => back.contains (upLink (m / 16) u)) (.tile t)

/-- An acknowledgement of one flit on its way from tile `m` to tile `t`. -/
def State.ackRise (m t : Nat) (back : List Nat) (s : State) : State :=
  match s.ackUp m t back with
  | none => s
  | some u => ((s.updOut (upLink (m / 16) u) (LinkOut.bulk 1)).turnUp (m / 16) ((u + 1) % 16)).updOut (0x1000 + t) (LinkOut.bulk 1)

/-! ### Parity -/

/-- A parity error on a memory-plane link, or on the down-link of tile l − 0x1000 (R254, R372). -/
def State.mplaneParity (l : Nat) (s : State) : State :=
  let s1 := s.raise 0x1402 0 l 0
  if l < 0x1000 then s1.blame .link l 64 0x1402 else s1.blame .tile (l - 0x1000) 64 0x1402

/-- The parity error that a packet met, where it met one. -/
def State.parityOf (bad : Option Nat) (s : State) : State := bad.elim s fun l => s.mplaneParity l

/-- Whether a number names a link or a down-link. -/
def linkOk (l : Nat) : Bool := l < 456 || (0x1000 ≤ l && l < 0x1000 + 320)

/-! ### Summits -/

/-- The spine that holds the counter of a module Bunting: spine (g mod 8) of the die of the lowest-numbered member (R256). -/
def summitSpine (b : Nat) (members : List Nat) : Nat := tileDie (members.foldl min 319) * 8 + b % 8

/-- The up-link that an arrive flit takes: of the two to the counter's spine, the next that has room and is not FENCED. -/
def State.arriveLink (s : State) (t b : Nat) : Option Nat :=
  let g := t / 16
  let a := 2 * (b % 8)
  let us := if Tab.get 0 s.planes.upNext g % 2 = 0 then [a, a + 1] else [a + 1, a]
  (us.find? fun u => (s.out (upLink g u)).room && s.linkOpen (upLink g u)).map (upLink g)

/-- An arrive flit put at a tile's output, or on the leaf's up-link: where both are full or FENCED it waits on the link from the
tile, which holds the four that a tile may have outstanding (R255, R256). -/
def State.sendArrive (t id b : Nat) (s : State) : State :=
  match s.arriveLink t b with
  | some l => (s.updOut l fun o => { o with waiting := o.waiting ++ [.arrive t id] }).turnUp (t / 16) ((l % 16 + 1) % 16)
  | none => s.updOut (0x2000 + t) fun o => { o with waiting := o.waiting ++ [.arrive t id] }

/-- The output at which a tile's arrive flit waits. -/
def State.findArrive (s : State) (t id : Nat) : Option Nat :=
  (s.planes.outs.find? fun e => e.2.waiting.contains (.arrive t id)).map (·.1)

/-- The links of an arrive flit's way from its leaf's up-link to its counter's spine, and those of a release's way from there to a
tile (R250, R254, R256). -/
def arriveWay (t l spine : Nat) : List Nat := l :: if spine / 8 = tileDie t then [] else [bridgeLink (spine % 8)]
def releaseWay (t spine : Nat) : List Nat := (if spine / 8 = tileDie t then [] else [bridgeLink (spine % 8)]) ++ downLinks t (spine % 8)

/-- Release flits at the down-links of tiles: a tile has at most four Summits outstanding, so an output's 32 places are enough
(R255, R256). -/
def State.sendReleases (b seq : Nat) (poison : Bool) (ts : List Nat) (s : State) : State :=
  ts.foldl (fun s t => s.updOut (0x1000 + t) fun o => { o with waiting := o.waiting ++ [.release b seq poison] }) s

/-- The flits of a tile, and those of a graph's Buntings on their way to it, discarded (R357). -/
def State.dropFlits (t : Nat) (bs : List Nat) (s : State) : State :=
  { s with planes := { s.planes with
    outs := (s.planes.outs.map fun e => (e.1, { e.2 with waiting := e.2.waiting.filter fun f =>
      match f with
      | .arrive u _ => u != t
      | .release b _ _ => !(e.1 == 0x1000 + t && bs.contains b) })).filter fun e => e.2 != .reset } }

/-! ### The stream plane's routes -/

/-- Column and row of a tile's switch (R244). -/
def gridX (t : Nat) : Nat := t / 16 % 10 % 5 * 4 + t % 16 % 4
def gridY (t : Nat) : Nat := t / 16 % 10 / 5 * 4 + t % 16 / 4

/-- The tile at a column and a row of a die (R244). -/
def gridTile (d x y : Nat) : Nat := d * 160 + (y / 4 * 5 + x / 4) * 16 + y % 4 * 4 + x % 4

/-- Link directions of a route, X first: switch, and 0 east, 1 west, 2 north, 3 south (R247). -/
def routeLinks (a b : Nat) : List (Nat × Nat) :=
  let d := a / 160
  let xa := gridX a
  let xb := gridX b
  let ya := gridY a
  let yb := gridY b
  (if xa ≤ xb then (List.range (xb - xa)).map fun i => (gridTile d (xa + i) ya, 0)
    else (List.range (xa - xb)).map fun i => (gridTile d (xa - i) ya, 1)) ++
  (if ya ≤ yb then (List.range (yb - ya)).map fun i => (gridTile d xb (ya + i), 3)
    else (List.range (ya - yb)).map fun i => (gridTile d xb (ya - i), 2))

/-- Slots of a mask. -/
def maskSlots (m : Nat) : List Nat := (List.range 16).filter (bit m)

/-- Links of a route as R490 names them, each by its sending switch and its direction: out of the source's local port, along the
route, and into the destination's local port. -/
def routeHops (a b : Nat) : List (Nat × Nat) := (a, 4) :: routeLinks a b ++ [(b, 4)]

/-- Tiles at whose switches a route stands, in its order. -/
def routeTiles (a b : Nat) : List Nat := ((routeHops a b).map (·.1)).dedup

/-- Whether every router domain on a route is on: a Saddle at a dark one holds no credit, and the producers of one that is about to
go dark have been stopped (R265, R408). -/
def State.routeLit (s : State) (a b : Nat) : Bool := (routeTiles a b).all fun t =>
  Tab.get false s.planes.routerOn (t / 16) && !s.hasStaging (640 + t / 16) false

/-- A parity error of a unit on the stream plane (R249): on a link of its route and in a slot of its owner, of which the event
names one each, and the router of the link's massif takes the weight (R372). Which link and which slot are open (log entry
24). -/
def State.splaneParity (hops : List (Nat × Nat)) (slots : List Nat) (s : State) : State :=
  let h := hops.getD ((Config.freeWord s.draws).toNat % max hops.length 1) (0, 4)
  let k := slots.getD ((Config.freeWord (s.draws + 1)).toNat % max slots.length 1) 0
  ((s.draw.draw).raise 0x1401 0 h.1 (k + 16 * h.2)).blame .router (h.1 / 16) 64 0x1401

end Sys2Proof.Machine
end

