-- ==== Sys2Proof/Machine/Fire.lean ====
section
/-! DEFINITION. Firing an operation, once for all of them (R25 to R31, R37, R108, R129 to R136, R353, R354): readiness,
consumed tokens, operands read, and the firing that waits for its completion. What an operation computes is its own
effect, a function of the context. -/

namespace Sys2Proof.Machine

/-- What an operation sees when it fires. -/
structure Ctx where
  t : Nat
  k : Nat
  /-- Its word and its extension word. -/
  w : Nat
  xw : Nat
  x : Tile
  g : Nat
  v : Nat
  toks : List (Nat × Token)
  /-- Bytes of `IN0` (one entry for each token it consumes), `IN1` and `IN2`. -/
  data0 : List (List Byte)
  data1 : List Byte
  data2 : List Byte
  /-- Row identifiers of R91. -/
  ids : List Nat
  regs : Tab Word
  /-- Ranges of the Tarn that were read. -/
  reads : List (Nat × Nat)

/-- A scalar register. -/
def Ctx.s (c : Ctx) (r : Nat) : Word := Tab.get 0 c.regs r

/-- The first token of an input. -/
def Ctx.tok (c : Ctx) (i : Nat) : Option Token := (c.toks.find? (·.1 == i)).map (·.2)

/-- The words that input 0's token names. -/
def Ctx.len0 (c : Ctx) : Nat :=
  match c.tok 0 with
  | some k => match k.body with
    | .data _ n => n
    | .overflow _ n => n
    | _ => 0
  | none => 0

/-- What an operation does. -/
structure Effect where
  issue : Nat
  depth : Nat
  openEnded : Bool
  /-- Words written at the ring entry of `OUT0` (R133). -/
  result : Option (List Word)
  /-- The words that `OUT0`'s token names where they land otherwise: address (none: the ring entry) and length. -/
  place : Option (Option Nat × Nat)
  /-- A token body other than words of the Tarn. -/
  body : Option TokenBody
  writes : List (Nat × Word)
  regs : List (Nat × Word)
  pieces : List Piece
  /-- A range computed at run time that breaks R100 or R142: the event. -/
  fault : Option Event
  poison : Bool
  sat : Nat
  nan : Nat
  sent : List Word
  acks : Nat
  /-- A range of the Tarn that it reads besides its operands (R143). -/
  reads : List (Nat × Nat)
  rowAcks : List (Nat × Nat)
  rowRequests : Nat
  countAcks : List Nat

/-- An operation that only takes its time. -/
def Effect.none_ (it : Nat × Nat) : Effect :=
  { issue := it.1, depth := it.2, openEnded := false, result := none, place := none, body := none, writes := [],
    regs := [], pieces := [], fault := none, poison := false, sat := 0, nan := 0, sent := [], acks := 0, reads := [],
    rowAcks := [], rowRequests := 0, countAcks := [] }

/-- An operation of fixed timing with a result. -/
def Effect.ofOut (w : Nat) (o : Out) : Effect :=
  { Effect.none_ (timing w) with result := some (bytesToWords o.bytes), sat := o.sat, nan := o.nan }

/-- An operation's effect on the context and the state. -/
abbrev EffectFn := Ctx → State → Effect

/-! ### Operands -/

/-- Bytes of an array, from its first to its last (R518). -/
def spanBytes (f : Fmt) (rows n : Nat) : Nat :=
  if f.block = 0 then (rows - 1) * f.stride n + f.rowBytes n
  else rows * f.stride n + (rows - 1) * f.scaleStride n + ceilDiv n f.block

/-- Bytes of the second operand (R519). -/
def secondBytes (f : Fmt) (opnd2 rows n : Nat) : Nat :=
  match opnd2 with
  | 0 => spanBytes f rows n
  | 1 => 0
  | 2 => f.rowBytes rows
  | _ => rows * roundUp (f.rowBytes (ceilDiv n 32)) 8

/-- E8M0 bytes and the formats that `VUPD` and `XCOMB` fix. -/
def scaleFmt : Fmt := ⟨13, .int 8, 8, 0, 7⟩

/-- Words that an operation reads from input `i` (R135, R138, R518, R519); `len` is the token's `LEN`. -/
def needWords (w i len : Nat) : Nat :=
  let c := opCode w
  let rows := vecRowsOf w
  let n := vecLenOf w
  let f := fmtAt w 64
  ceilDiv (
    if c = 0x10 then
      let sh := mmaShape w
      let kb := sh.k / 64
      match i with
      | 0 => sh.m * roundUp (sh.k * sh.fa.width / 8) 64 + kb * roundUp (sh.m * scalesPer sh.fa) 64
      | 1 =>
        let cw := colWidth sh.fb.width
        sh.n / cw * kb * (cw * 8 * sh.fb.width + roundUp (cw * scalesPer sh.fb) 64)
      | _ => sh.m * roundUp (4 * sh.n) 64
    else if c = 0x11 then 4096 * 2 ^ bits w 114 2
    else if c = 0x2E then spanBytes (if i = 0 then xm40 else fp32) rows n
    else if c = 0x2F then (if i = 0 then spanBytes fp32 rows n else spanBytes fp32 rows (bits w 115 4 + 1))
    else if 0x20 ≤ c && c ≤ 0x45 then
      match i with
      | 0 => spanBytes f rows n
      | 1 => secondBytes (if c = 0x29 then scaleFmt else f) (bits w 86 2) rows n
      | _ => if c = 0x27 then rows * ceilDiv n 64 * 8 else spanBytes f rows n
    else if c = 0x51 || c = 0x53 || c = 0x54 then (if i = 0 then streamBytes w else 0)
    else if c = 0x55 || c = 0x56 then (if i ≤ 1 then 8 * len else 0)
    else 0) 8

/-- Operands read, with the range check of R100 and the ranges. -/
structure Reads where
  res : List (Nat × List Word)
  all : ReadRes
  ok : Bool
  ranges : List (Nat × Nat)

/-- Nothing read. -/
def Reads.none_ : Reads := ⟨[], ⟨[], 0, [], []⟩, true, []⟩

/-- One range more, read for input `i`. -/
def Reads.add (r : Reads) (x : Tile) (draw i a n : Nat) : Reads :=
  if x.rangeOk a n then
    let d := x.readWords draw a n
    ⟨r.res ++ [(i, d.words)], r.all.append d, r.ok, r.ranges ++ [(a, n)]⟩
  else { r with ok := false }

/-- Reads of the tokens' words, in input order. -/
def readInputs (x : Tile) (draw w : Nat) (toks : List (Nat × Token)) : Reads :=
  toks.foldl (fun r it =>
    match it.2.body with
    | .data a n =>
      let k := needWords w it.1 n
      if it.1 ≥ 3 || k = 0 then r else r.add x draw it.1 a k
    | _ => r) .none_

/-- The identifiers of the rows (R91, R140): `s(IDREG)` for every row, or a Tarn word for each, read after the operands `r`. -/
def readIds (x : Tile) (draw w xw : Nat) (regs : Tab Word) (r : Reads) : List Nat × Reads :=
  let rows := vecRowsOf w
  let id := (Tab.get 0 regs (bits xw 8 5)).toNat
  if engineOf (opCode w) ≠ some 1 || bits w 80 2 ≠ 2 then ([], r)
  else if !bit xw 13 then (List.replicate rows id, r)
  else
    let z := r.add x draw 4 id rows
    (((z.res.find? (·.1 == 4)).map fun d => d.2.map (·.toNat)).getD [], z)

/-! ### Reads beside writes in flight (R103) -/

/-- The first and last cycle in which a firing at cycle `c` may read, for its issue interval: those of its engine's read
slots (R101, R102). The spec does not say which turn of the interval reads which word (log entry 64). -/
def readSpan (w c issue : Nat) : Nat × Nat :=
  match engineOf (opCode w) with
  | some 0 => (c, c + issue - 6)
  | some 1 => (c + 3, c + issue - 5)
  | some 2 => (c + 6, c + issue - 2)
  | _ => (c + 7, c + 7)

/-- The first and last cycle in which a write of a firing of fixed timing may be committed (R23, R24): the steering unit's
slot 8 is the one of its fire turn. -/
def Firing.commitSpan (f : Firing) (w : Nat) : Nat × Nat :=
  if engineOf (opCode w) = some 3 then (f.fire + 9, f.fire + 9) else (f.fire + 2, f.fire + f.issue + f.depth)

/-- An upper bound of the issue interval over which an operation reads, before its effect is known. -/
def readIssue (w len0 : Nat) : Nat :=
  let c := opCode w
  if c = 0x56 then 16 * ceilDiv len0 4
  else if engineOf c = some 2 then max 8 (ceilDiv (8 * len0) 2048 * 8)
  else (timing w).1

/-- Firings whose writes an operation finds in flight when it fires: those of earlier turns (R103). -/
def Tile.writing (x : Tile) : List Firing := x.run.flights.filter fun f => !f.openEnded && !f.failed && f.fire < x.cycle

/-- The tile as a firing reads it: with the words that writes in flight commit before its first read, and, of those that
may be committed before its last read, the ones that a free value picks (R103). Changes that come about later are the wheel
turn's (log entry 64). -/
def Tile.asRead (x : Tile) (draw w issue : Nat) : Tile :=
  let r := readSpan w x.cycle issue
  let wOf (f : Firing) : Nat := x.op f.index
  let fs := sortBy x.writing fun a b =>
    (a.commitSpan (wOf a)).2 ≤ (b.commitSpan (wOf b)).2
  fs.foldl (fun y f =>
    let c := f.commitSpan (wOf f)
    f.writes.foldl (fun y v =>
      if c.2 < r.1 then y.writeWords v.1 [v.2] f.poison
      else if c.1 < r.2 && Config.lateRead draw v.1 then y.writeWords v.1 [v.2] f.poison
      else y) y) x

/-- Whether a word lies in one of some ranges. -/
def inRanges (rs : List (Nat × Nat)) (a : Nat) : Bool := rs.any fun r => r.1 ≤ a && a < r.1 + r.2

/-- Words of its operands that a firing has read beside writes in flight, as it reads them (R103). -/
def Ctx.readAs (c : Ctx) (reads : List (Nat × Nat)) : List (Nat × TarnWord × Bool) :=
  ((c.x.writing.flatMap fun f => f.writes.map (·.1)).dedup.filter (inRanges reads)).map fun a => (a, Tab.get .zero c.x.tarn a, true)

/-- The context of a firing, with what its reads found and whether its ranges hold. -/
def State.context (s : State) (t k : Nat) (x : Tile) (toks : List (Nat × Token)) (regs : Tab Word) : Ctx × ReadRes × Bool :=
  let w := x.op k
  let xw := if opExt w then x.op (k + 1) else 0
  let len0 := match (toks.find? (·.1 == 0)).map (·.2.body) with | some (.data _ n) => n | _ => 0
  let y := x.asRead s.draws w (readIssue w len0)
  let i := readIds y s.draws w xw regs (readInputs y s.draws w toks)
  let own := (s.owner t).getD (0, 0)
  let at_ (n : Nat) : List (List Byte) := (i.2.res.filter (·.1 == n)).map fun d => wordBytes d.2
  ({ t := t, k := k, w := w, xw := xw, x := y, g := own.1, v := own.2, toks := toks, data0 := at_ 0,
     data1 := ((at_ 1).head?).getD [], data2 := ((at_ 2).head?).getD [], ids := i.1, regs := regs, reads := i.2.ranges },
    i.2.all, i.2.ok)

/-! ### The batch that a firing works for -/

/-- The batch of a tag: the one whose number the tag repeats, else the oldest (log entry 20). -/
def Graph.batchOf (y : Graph) (tag : Nat) : Option Batch :=
  match y.inFlight.find? fun b => b.seq % 2 ^ 16 == tag with
  | some b => some b
  | none => y.inFlight.head?

/-- `batch_seq` of the batch that a token belongs to. -/
def State.batchSeq (s : State) (t tag : Nat) : Nat :=
  match s.owner t with
  | none => 0
  | some (g, _) => match s.graph? g with
    | none => 0
    | some y => match y.batchOf tag with
      | none => 0
      | some b => b.seq

/-! ### Firing -/

/-- Contributions of an `XCOMB` in rank order and contribution order: they stand in that order in their ring
(log entry 21). -/
def sortByAddr (ks : List Token) : List Token := sortBy ks fun a b => a.addr ≤ b.addr

/-- The tokens consumed, by input. -/
def consumedTokens (w : Nat) (ins : List (Nat × Nat × List Token)) : List (Nat × Token) :=
  ins.flatMap fun e => (if opCode w = 0x2F && e.1 = 0 then sortByAddr e.2.2 else e.2.2).map fun k => (e.1, k)

/-- Input tokens taken from their queues, with a credit on its way to each producer (R27). -/
def Tile.consume (x : Tile) (ins : List (Nat × Nat × List Token)) : Tile :=
  ins.foldl (fun x e =>
    (x.updQueue e.2.1 fun q => { q with toks := q.toks.diff e.2.2 }).updCredit e.2.1
      fun c => { c with returning := c.returning + e.2.2.length }) x

/-- The values of consumed Pennants in `s28` to `s31` (R136). -/
def pennantRegs (toks : List (Nat × Token)) (regs : Tab Word) : Tab Word :=
  toks.foldl (fun r it => match it.2.body with
    | .pennant v => Tab.put 0 (28 + it.1) (BitVec.ofNat 64 v) r
    | _ => r) regs

/-- The tag of the output tokens (R130). -/
def outTag (toks : List (Nat × Token)) (firings : Nat) : Nat :=
  match toks.find? (·.1 == 0) with
  | some it => it.2.tag
  | none => firings % 2 ^ 16

/-- The body of the tokens on the outputs, and the words written (R133). -/
def outBody (x : Tile) (w : Nat) (e : Effect) : TokenBody × List (Nat × Word) :=
  let a := (x.qcfg (outQ w 0)).entry (x.queue (outQ w 0)).sent
  match e.body with
  | some b => (b, e.writes)
  | none => match e.result, e.place with
    | some ws, _ => (.data a ws.length, (ws.zipIdx.map fun wi => (a + wi.2, wi.1)) ++ e.writes)
    | none, some (p, n) => (.data (p.getD a) n, e.writes)
    | none, none => (.data a 0, e.writes)

/-- The event of a range that breaks R100. -/
def State.boundFault (s : State) (t k tag : Nat) : Event :=
  ⟨0x1101, s.batchSeq t tag, tg t ((s.owner t).getD (0, 0)).1, k⟩

/-- Whether a firing's own writes stay where R100 and R107 let them. -/
def writesOk (x : Tile) (w : Nat) (b : TokenBody) (e : Effect) : Bool :=
  match b, e.result, e.place with
  | .data a n, some _, _ => a + n ≤ x.window
  | .data a n, none, some _ => if opCode w = 0x58 then x.rangeOk a n && x.window ≤ a else a + n ≤ x.window
  | _, _, _ => true

/-- Halves of the window that ranges read lie in (R108). -/
def halvesRead (x : Tile) (reads : List (Nat × Nat)) : List Nat :=
  (reads.flatMap fun r =>
    if x.window ≤ r.1 && x.halfWords != 0 then [(r.1 - x.window) / x.halfWords, (r.1 + r.2 - 1 - x.window) / x.halfWords]
    else []).dedup

/-- Words of consumed tokens, for the holds of R133. -/
def addrsRead (toks : List (Nat × Token)) : List Nat :=
  toks.filterMap fun it => match it.2.body with
    | .data a _ => some a
    | _ => none

/-- Whether a ring entry holds words that a firing reads: those of its tokens, and those that it takes row identifiers from (R140,
R354). -/
def Firing.readsEntry (f : Firing) (entry words : Nat) : Bool :=
  (addrsRead f.inputs).contains entry || f.reads.any fun r => r.1 < entry + words && entry < r.1 + r.2

/-- Firings that lose their inputs to the new firing (R354). -/
def spoil (x : Tile) (w : Nat) (entry : Nat) (fs : List Firing) : List Firing :=
  fs.map fun f =>
    let hit := (outEn w 0 && f.readsEntry entry (x.qcfg (outQ w 0)).bufWords) ||
      (opCode w == 0x58 && (halvesRead x f.reads).contains (bits w 100 1))
    { f with intact := f.intact && !hit }

/-- The writes of a firing as changes of the Tarn that other operations may read beside (R103). -/
def Tile.changesBy (x : Tile) (f : Firing) : List TarnChange :=
  let c := f.commitSpan (x.op f.index)
  f.writes.map fun v => ⟨v.1, Tab.get .zero x.tarn v.1, ⟨v.2, 0, f.poison⟩, c.1, c.2, some f.id⟩

/-- The tile after a firing: engine, holds, banks, credits, counts and the firing itself. DESIGN CHOICE (log entry 76): an engine
becomes idle at the end of the issue interval, for the idle times of R31 and R411; neither says whether the drain counts. -/
def Tile.record (x : Tile) (w : Nat) (ins : List (Nat × Nat × List Token)) (f : Firing) : Tile :=
  let eng := (engineOf (opCode w)).getD 3
  let stop := f.fire + f.issue
  let x1 := (outputsOf w).foldl (fun x o => x.updCredit o.2 fun c => { c with held := c.held - 1 }) x
  let x2 := if outEn w 0 then x1.updQueue (outQ w 0) fun q => { q with sent := q.sent + 1 } else x1
  let entry := (x.qcfg (outQ w 0)).entry (x.queue (outQ w 0)).sent
  x2.updRun fun r =>
    { r with
      engines := Tab.put .reset eng ⟨stop, true, stop⟩ r.engines
      firings := Tab.upd 0 f.index (· + 1) r.firings
      nextId := r.nextId + 1
      lead := if eng = 0 then none else r.lead
      banks := if opCode w = 0x10 then Tab.put none (bits w 105 1) (some f.id) r.banks else r.banks
      halfHolds := r.halfHolds ++ (halvesRead x f.reads).map (fun h => (h, some stop)) ++
        (if opCode w = 0x58 then [(bits w 100 1, none)] else [])
      ringHolds := r.ringHolds ++ ins.flatMap fun e => (addrsRead (e.2.2.map fun k => (0, k))).map fun a => (a, e.2.1, stop)
      changes := r.changes ++ x.changesBy f
      flights := spoil x w entry r.flights ++ [f] }

/-- The firing that an effect makes, and the event of a run-time range fault. -/
def State.makeFiring (s : State) (c : Ctx) (e : Effect) (rd : ReadRes) (ok : Bool) (old : Option Firing) : Firing × List Event :=
  let tag := outTag c.toks (Tab.get 0 c.x.run.firings c.k)
  let b := outBody c.x c.w e
  let bad := !ok || !writesOk c.x c.w b.1 e
  let flt := if bad then some (s.boundFault c.t c.k tag) else e.fault
  let poison := c.toks.any (·.2.poison) || rd.poisoned || e.poison || flt.isSome
  let outs := match old with
    | some f => f.outs.map fun o => (o.1, { o.2 with poison := poison })
    | none => (outputsOf c.w).map fun o => (o.2, { body := b.1, tag := tag, poison := poison })
  let writes := match old, e.result with
    | some f, some ws => match f.outs.head? with
      | some o => (ws.zipIdx.map fun wi => (o.2.addr + wi.2, wi.1)) ++ e.writes
      | none => b.2
    | _, _ => b.2
  ({ id := c.x.run.nextId, index := c.k, count := Tab.get 0 c.x.run.firings c.k, first := c.x.cycle, fire := c.x.cycle, issue := e.issue, depth := e.depth,
     openEnded := e.openEnded, inputs := c.toks, reads := c.reads ++ e.reads, regsAt := c.regs, outs := outs, writes := if flt.isSome then [] else writes,
     regs := e.regs, poison := poison, noReplay := flt.isSome, sat := e.sat, nan := e.nan, again := 0, failed := false,
     intact := true, sent := e.sent, pieces := if flt.isSome then [] else e.pieces.map fun p => { p with poison := p.poison || poison }, status := stOk, failAt := 0, reloaded := [],
     acks := if flt.isSome then 0 else e.acks, rowAcks := if flt.isSome then [] else e.rowAcks, rowRequests := e.rowRequests,
     countAcks := if flt.isSome then [] else e.countAcks,
     readAs := c.readAs (c.reads ++ e.reads) },
    flt.toList)

/-- What else an operation does in its fire cycle. -/
abbrev AfterFn := Ctx → Firing → State → State

/-- Nothing else. -/
def afterNone : AfterFn := fun _ _ s => s

/-- The operation at `k` of tile `t`, whose opcode is `opc`, fires if the rules let it (R22, R25, R26); otherwise only the
wrong bits that have come about stand. -/
def State.fire (opc t k : Nat) (u : List (Nat × Nat)) (eff : EffectFn) (after : AfterFn) (s0 : State) : Out3 :=
  s0.onLive (t < 320 && k < 8192)
    (let s := s0.updTile t (·.upset u)
     let x := s.tile t
     if s.runs t && opCode (x.op k) == opc && x.fires k then
       match x.takeAll (x.op k) with
       | none => s
       | some ins =>
         let toks := consumedTokens (x.op k) ins
         let regs := pennantRegs toks x.sregs
         let x1 := { (x.consume ins) with sregs := regs }
         let c := s.context t k x1 toks regs
         let e := eff c.1 s
         let f := s.makeFiring c.1 e c.2.1 c.2.2 none
         let s1 := (s.setTile t (x1.record (x.op k) ins f.1)).draw
         after c.1 f.1 ((s1.noteRead t c.2.1).raiseAll f.2)
     else s)

end Sys2Proof.Machine
end

