-- ==== Sys2Proof/Machine/Engines.lean ====
section
/-! DEFINITION. The operations of the matrix engine, the vector engine and the special-function unit (R33 to R46, R51):
for each its effect, and its firing. -/

namespace Sys2Proof.Machine

/-- The bytes of `IN0`. -/
def Ctx.a (c : Ctx) : List Byte := (c.data0.head?).getD []

/-- The vector word's shape. -/
def Ctx.vec (c : Ctx) : VecShape := vecShape c.w c.xw c.s c.ids

/-- `MMA` (R38, R79 to R85): the product of blocks on top of +0 or the initial sums. -/
def effMma : EffectFn := fun c _ => Effect.ofOut c.w (mma (mmaShape c.w) c.a c.data1 c.data2)

/-- `MTRN` (R51): the transpose of a 64 × 64 block. -/
def effMtrn : EffectFn := fun c _ => Effect.ofOut c.w (mtrn (2 ^ bits c.w 114 2) c.a)

/-- `VADD` (R86). -/
def effVadd : EffectFn := fun c _ => Effect.ofOut c.w (vecBin addVal c.vec c.a c.data1)

/-- `VSUB` (R86). -/
def effVsub : EffectFn := fun c _ => Effect.ofOut c.w (vecBin (fun x y => addVal x y.flip) c.vec c.a c.data1)

/-- `VMUL` (R86). -/
def effVmul : EffectFn := fun c _ => Effect.ofOut c.w (vecBin mulVal c.vec c.a c.data1)

/-- `VFMA` (R86): a × b + c, rounded once. -/
def effVfma : EffectFn := fun c _ => Effect.ofOut c.w (vecFma c.vec c.a c.data1 c.data2)

/-- `VMAX` (R86). -/
def effVmax : EffectFn := fun c _ => Effect.ofOut c.w (vecBin maxVal c.vec c.a c.data1)

/-- `VMIN` (R86). -/
def effVmin : EffectFn := fun c _ => Effect.ofOut c.w (vecBin minVal c.vec c.a c.data1)

/-- `VCMP` (R44, R86): a mask. -/
def effVcmp : EffectFn := fun c _ => Effect.ofOut c.w (vecCmp c.vec c.a c.data1)

/-- `VSEL` (R44). -/
def effVsel : EffectFn := fun c _ => Effect.ofOut c.w (vecSel c.vec c.a c.data1 c.data2)

/-- `VCVT` (R71 to R78, R89 to R91). -/
def effVcvt : EffectFn := fun c _ => Effect.ofOut c.w (vecCvt c.vec c.a)

/-- `VSCALE` (R87, R519). -/
def effVscale : EffectFn := fun c _ => Effect.ofOut c.w (vecScale c.vec c.a c.data1)

/-- `VRSUM` (R86). -/
def effVrsum : EffectFn := fun c _ => Effect.ofOut c.w (vecRsum c.vec c.a)

/-- `VRMAX` (R86). -/
def effVrmax : EffectFn := fun c _ => Effect.ofOut c.w (vecRmax c.vec c.a)

/-- `VRSSQ` (R86). -/
def effVrssq : EffectFn := fun c _ => Effect.ofOut c.w (vecRssq c.vec c.a)

/-- `VABSMAX` (R87). -/
def effVabsmax : EffectFn := fun c _ => Effect.ofOut c.w (vecAbsmax c.vec c.a)

/-- `VUPD` (R94). -/
def effVupd : EffectFn := fun c _ => Effect.ofOut c.w (vecUpd c.vec c.a c.data1)

/-- `XCOMB` (R59, R135). -/
def effXcomb : EffectFn := fun c _ => Effect.ofOut c.w (vecComb c.vec c.data0 c.data1)

/-- `FEXP` (R42, R43). -/
def effFexp : EffectFn := fun c _ => Effect.ofOut c.w (vecMap fexp c.vec c.a)

/-- `FLOG` (R42, R43). -/
def effFlog : EffectFn := fun c _ => Effect.ofOut c.w (vecMap flog c.vec c.a)

/-- `FRCP` (R42, R43). -/
def effFrcp : EffectFn := fun c _ => Effect.ofOut c.w (vecMap frcp c.vec c.a)

/-- `FRSQ` (R42, R43). -/
def effFrsq : EffectFn := fun c _ => Effect.ofOut c.w (vecMap frsq c.vec c.a)

/-- `FSINCOS` (R42 to R44). -/
def effFsincos : EffectFn := fun c _ => Effect.ofOut c.w (vecSincos c.vec c.a)

/-- `TOPK` (R45). -/
def effTopk : EffectFn := fun c _ => Effect.ofOut c.w (vecTopk c.vec c.a)

/-- `MMA` fires (R25 to R30, R51). -/
def execMma (t k : Nat) (u : List Upset) (s : State) : Out3 := s.fire 0x10 t k u effMma afterNone

/-- `MTRN` fires (R25 to R30, R51). -/
def execMtrn (t k : Nat) (u : List Upset) (s : State) : Out3 := s.fire 0x11 t k u effMtrn afterNone

/-- `VADD` fires (R25 to R30, R51). -/
def execVadd (t k : Nat) (u : List Upset) (s : State) : Out3 := s.fire 0x20 t k u effVadd afterNone

/-- `VSUB` fires (R25 to R30, R51). -/
def execVsub (t k : Nat) (u : List Upset) (s : State) : Out3 := s.fire 0x21 t k u effVsub afterNone

/-- `VMUL` fires (R25 to R30, R51). -/
def execVmul (t k : Nat) (u : List Upset) (s : State) : Out3 := s.fire 0x22 t k u effVmul afterNone

/-- `VFMA` fires (R25 to R30, R51). -/
def execVfma (t k : Nat) (u : List Upset) (s : State) : Out3 := s.fire 0x23 t k u effVfma afterNone

/-- `VMAX` fires (R25 to R30, R51). -/
def execVmax (t k : Nat) (u : List Upset) (s : State) : Out3 := s.fire 0x24 t k u effVmax afterNone

/-- `VMIN` fires (R25 to R30, R51). -/
def execVmin (t k : Nat) (u : List Upset) (s : State) : Out3 := s.fire 0x25 t k u effVmin afterNone

/-- `VCMP` fires (R25 to R30, R51). -/
def execVcmp (t k : Nat) (u : List Upset) (s : State) : Out3 := s.fire 0x26 t k u effVcmp afterNone

/-- `VSEL` fires (R25 to R30, R51). -/
def execVsel (t k : Nat) (u : List Upset) (s : State) : Out3 := s.fire 0x27 t k u effVsel afterNone

/-- `VCVT` fires (R25 to R30, R51). -/
def execVcvt (t k : Nat) (u : List Upset) (s : State) : Out3 := s.fire 0x28 t k u effVcvt afterNone

/-- `VSCALE` fires (R25 to R30, R51). -/
def execVscale (t k : Nat) (u : List Upset) (s : State) : Out3 := s.fire 0x29 t k u effVscale afterNone

/-- `VRSUM` fires (R25 to R30, R51). -/
def execVrsum (t k : Nat) (u : List Upset) (s : State) : Out3 := s.fire 0x2A t k u effVrsum afterNone

/-- `VRMAX` fires (R25 to R30, R51). -/
def execVrmax (t k : Nat) (u : List Upset) (s : State) : Out3 := s.fire 0x2B t k u effVrmax afterNone

/-- `VRSSQ` fires (R25 to R30, R51). -/
def execVrssq (t k : Nat) (u : List Upset) (s : State) : Out3 := s.fire 0x2C t k u effVrssq afterNone

/-- `VABSMAX` fires (R25 to R30, R51). -/
def execVabsmax (t k : Nat) (u : List Upset) (s : State) : Out3 := s.fire 0x2D t k u effVabsmax afterNone

/-- `VUPD` fires (R25 to R30, R51). -/
def execVupd (t k : Nat) (u : List Upset) (s : State) : Out3 := s.fire 0x2E t k u effVupd afterNone

/-- `XCOMB` fires (R25 to R30, R51). -/
def execXcomb (t k : Nat) (u : List Upset) (s : State) : Out3 := s.fire 0x2F t k u effXcomb afterNone

/-- `FEXP` fires (R25 to R30, R51). -/
def execFexp (t k : Nat) (u : List Upset) (s : State) : Out3 := s.fire 0x40 t k u effFexp afterNone

/-- `FLOG` fires (R25 to R30, R51). -/
def execFlog (t k : Nat) (u : List Upset) (s : State) : Out3 := s.fire 0x41 t k u effFlog afterNone

/-- `FRCP` fires (R25 to R30, R51). -/
def execFrcp (t k : Nat) (u : List Upset) (s : State) : Out3 := s.fire 0x42 t k u effFrcp afterNone

/-- `FRSQ` fires (R25 to R30, R51). -/
def execFrsq (t k : Nat) (u : List Upset) (s : State) : Out3 := s.fire 0x43 t k u effFrsq afterNone

/-- `FSINCOS` fires (R25 to R30, R51). -/
def execFsincos (t k : Nat) (u : List Upset) (s : State) : Out3 := s.fire 0x44 t k u effFsincos afterNone

/-- `TOPK` fires (R25 to R30, R51). -/
def execTopk (t k : Nat) (u : List Upset) (s : State) : Out3 := s.fire 0x45 t k u effTopk afterNone

/-- The effect of an operation that R353 may fire again. -/
def effectOf (opc : Nat) : EffectFn :=
  if opc = 0x10 then effMma
  else if opc = 0x11 then effMtrn
  else if opc = 0x20 then effVadd
  else if opc = 0x21 then effVsub
  else if opc = 0x22 then effVmul
  else if opc = 0x23 then effVfma
  else if opc = 0x24 then effVmax
  else if opc = 0x25 then effVmin
  else if opc = 0x26 then effVcmp
  else if opc = 0x27 then effVsel
  else if opc = 0x28 then effVcvt
  else if opc = 0x29 then effVscale
  else if opc = 0x2A then effVrsum
  else if opc = 0x2B then effVrmax
  else if opc = 0x2C then effVrssq
  else if opc = 0x2D then effVabsmax
  else if opc = 0x2E then effVupd
  else if opc = 0x2F then effXcomb
  else if opc = 0x40 then effFexp
  else if opc = 0x41 then effFlog
  else if opc = 0x42 then effFrcp
  else if opc = 0x43 then effFrsq
  else if opc = 0x44 then effFsincos
  else if opc = 0x45 then effTopk
  else fun c _ => Effect.none_ (timing c.w)

end Sys2Proof.Machine
end

