-- ==== Sys2Proof/Machine/Stream.lean ====
section
/-! DEFINITION. The operations of the stream engine (R47 to R50, R56, R57, R114, R139 to R153, R248, R260). A memory-plane
operation is made of pieces of up to 256 bytes, each asked for, served and landed by a command of its own. -/

namespace Sys2Proof.Machine

/-- A constant reference resolved (R150). -/
def State.constAddr (s : State) (y : Graph) (i : Nat) : Nat :=
  match y.image.consts[i]? with
  | none => 0
  | some c =>
    if c.kind = 0 then c.value
    else if c.kind = 1 then c.value % 2 ^ 44 + s.fabric.id * 2 ^ 44 + c.value / 2 ^ 58 * 2 ^ 58
    else if c.kind = 2 then y.image.addr + c.value
    else y.scree + c.value

/-- The graph a firing belongs to. -/
def Ctx.graph (c : Ctx) (s : State) : Option Graph := (s.graph? c.g).map fun y => y.viewOf c.x

/-- The resolved address of a reference; 0 for none. -/
def Ctx.const (c : Ctx) (s : State) (i : Nat) : Nat :=
  match c.graph s with
  | none => 0
  | some y => if i = 0xFFFF then 0 else s.constAddr y i

/-- A stream operation's global address (R142). -/
def Ctx.addr (c : Ctx) (s : State) : Nat :=
  (c.const s (bits c.w 64 16) + bits c.xw 8 44 + (if bit c.w 85 then (c.s (bits c.w 80 5)).toNat else 0)) % 2 ^ 60

/-- `ADDR_FAULT` of an address that breaks R47 or R218 (R142). -/
def Ctx.addrFault (c : Ctx) (a : Nat) : Event := ⟨0x1102, a, tg c.t c.g, c.k⟩

/-- Whether an address and its length keep R47 and R218. -/
def State.addrOk (s : State) (a n : Nat) : Bool := a % 64 == 0 && s.mapped a n

/-- Whether a transfer of `n` bytes between an address and a Tarn word keeps R47 and R218. -/
def State.moveOk (s : State) (a n tarn : Nat) : Bool := s.addrOk a n && tarn % 8 == 0

/-- First word of the data that input 0's token names. -/
def Ctx.from0 (c : Ctx) : Nat := (c.tok 0).elim 0 (·.addr)

/-- First word of the ring entry that the result goes to. -/
def Ctx.entry (c : Ctx) : Nat := (c.x.qcfg (outQ c.w 0)).entry (c.x.queue (outQ c.w 0)).sent

/-- Requests of up to 256 bytes (R47), or one for each aligned 512-byte unit of another module's memory, which one Filzor
packet carries (R281); `fuel` bounds their number. -/
def splitPieces (far : Bool) (kind : PieceKind) : Nat → Nat → Nat → Nat → List Byte → List Piece
  | 0, _, _, _, _ => []
  | fuel + 1, addr, tarn, n, data =>
    if n = 0 then []
    else
      let k := if far then min n (512 - addr % 512) else min n 256
      { kind := kind, addr := addr % 2 ^ 60, tarn := tarn, bytes := k, data := data.take k, poison := false, state := .waiting, copies := [] } ::
        splitPieces far kind fuel (addr + k) (tarn + k / 8) (n - k) (data.drop k)

/-- The requests of a transfer. -/
def transfer (far : Bool) (kind : PieceKind) (addr tarn n : Nat) (data : List Byte) : List Piece :=
  splitPieces far kind (n / 256 + 2) addr tarn n data

/-- Whether an address lies in another module (R217). -/
def State.isFar (s : State) (a : Nat) : Bool := bits a 44 14 != s.fabric.id

/-- A memory-plane operation that moves `n` bytes (R24, R51). -/
def Effect.plane (n : Nat) : Effect := { Effect.none_ (ceilDiv n 2048 * 8, 0) with openEnded := true }

/-- The expert map and expert of a dispatch queue (R131, R151). -/
def Ctx.expertOf (c : Ctx) (s : State) (q : Nat) : Option (XMap × Expert) :=
  let qc := c.x.qcfg q
  match c.graph s with
  | none => none
  | some y => match y.image.xmaps[qc.xmap]? with
    | none => none
    | some m => (m.experts[qc.expert]?).map fun e => (m, e)

/-- `SLOAD` with `PASS` (R153). -/
def passEffect (c : Ctx) (s : State) : Effect :=
  match c.tok 0 with
  | none => { Effect.plane 0 with issue := 8 }
  | some k => match k.body with
    | .overflow first rows => match c.expertOf s (inQ c.w 0) with
      | none => { Effect.plane 0 with issue := 8 }
      | some me =>
        let qc := c.x.qcfg (inQ c.w 0)
        let base := c.const s me.2.overflow
        let n := rows * me.1.rowBytes
        if s.moveOk ((base + first * me.1.rowBytes) % 2 ^ 60) n qc.bufBase && (rows ≤ 1 || qc.bufWords % 8 == 0) then
          { Effect.plane n with
            place := some (some qc.bufBase, rows * qc.bufWords)
            pieces := (List.range rows).flatMap fun r =>
              transfer (s.isFar base) .read (base + (first + r) * me.1.rowBytes) (qc.bufBase + r * qc.bufWords) me.1.rowBytes [] }
        else { Effect.plane n with fault := some (c.addrFault (base + first * me.1.rowBytes)) }
    | b => { Effect.plane 0 with issue := 8, body := some b }

/-- `SLOAD` (R141, R142, R153). -/
def effSload : EffectFn := fun c s =>
  let n := streamBytes c.w
  let a := c.addr s
  if bit c.w 101 then passEffect c s
  else if s.moveOk a n c.entry then
    { Effect.plane n with place := some (none, n / 8), pieces := transfer (s.isFar a) .read a c.entry n [] }
  else { Effect.plane n with fault := some (c.addrFault a) }

/-- `SSTORE`. -/
def effSstore : EffectFn := fun c s =>
  let n := streamBytes c.w
  let a := c.addr s
  if s.moveOk a n c.from0 then { Effect.plane n with pieces := transfer (s.isFar a) .write a 0 n c.a }
  else { Effect.plane n with fault := some (c.addrFault a) }

/-- The fetches of an address list of 8 bytes for each 64-byte unit (R141). -/
def listFetch (c : Ctx) (s : State) (n : Nat) : List Piece :=
  transfer (s.isFar (c.const s (bits c.xw 64 16))) .addrList (c.const s (bits c.xw 64 16)) 0 (n / 8) []

/-- `SGATHER`: the list first, then a unit from each address. The addresses are those of the list alone: `CREF`, `OFFSET` and
`s(AREG)` play no part (log entry 22). DESIGN CHOICE. -/
def effSgather : EffectFn := fun c s =>
  let n := streamBytes c.w
  let l := c.const s (bits c.xw 64 16)
  if s.moveOk l (n / 8) c.entry then { Effect.plane n with place := some (none, n / 8), pieces := listFetch c s n }
  else { Effect.plane n with fault := some (c.addrFault l) }

/-- `SSCATTER`: the list first, then a unit to each address, of the list alone (log entry 22). DESIGN CHOICE. -/
def effSscatter : EffectFn := fun c s =>
  let n := streamBytes c.w
  let l := c.const s (bits c.xw 64 16)
  if s.moveOk l (n / 8) c.from0 then { Effect.plane n with pieces := listFetch c s n, sent := bytesToWords c.a }
  else { Effect.plane n with fault := some (c.addrFault l) }

/-- Physical tiles of a graph Bunting's members (R149); a member without a tile is left out. -/
def Graph.members (y : Graph) (b : Nat) : List Nat :=
  ((y.image.buntings.getD b []).map fun v => y.place.getD v 320).filter (· < 320)

/-- `SMCAST` (R141, R142, R260): every request as a multicast packet to the Bunting. -/
def effSmcast : EffectFn := fun c s =>
  let n := streamBytes c.w
  let a := c.addr s
  if s.moveOk a n c.from0 then { Effect.plane n with pieces := transfer false (.cast (bits c.w 102 10)) a 0 n c.a }
  else { Effect.plane n with fault := some (c.addrFault a) }

/-- The columns that `TOPK` chose for row `r` (R44, R518). -/
def chosen (k r : Nat) (bs : List Byte) : List Nat :=
  (List.range k).map fun i => field bs (r * roundUp (6 * k) 64 + 4 * k + 2 * i) 2

/-- Rows of an `XDISP`: their number where the tokens of `IN0` and `IN1` pass the checks of R51. DESIGN CHOICE (log entry
62): R51 does not speak of a chosen column beyond the map's experts; it fails the same check here. -/
def dispatchRows (c : Ctx) (m : XMap) : Option Nat :=
  let n := c.len0 * 8
  let r := n / max m.rowBytes 1
  let len1 := match c.tok 1 with
    | some k => match k.body with | .data _ l => l * 8 | _ => 0
    | none => 0
  let st := roundUp (6 * m.k) 64
  if n % max m.rowBytes 1 = 0 && 1 ≤ r && r ≤ m.maxRows && (len1 == r * st || len1 == (r - 1) * st + roundUp (6 * m.k) 8)
      && (List.range r).all (fun i => (chosen m.k i c.data1).all (· < m.experts.length)) then some r
  else none

/-- The map that an `XDISP` word names. -/
def Ctx.xmap (c : Ctx) (s : State) : Option XMap :=
  match c.graph s with
  | none => none
  | some y => y.image.xmaps[bits c.w 112 8]?

/-- The rows an `XDISP` sends (R56): each row to every member of the chosen experts' Buntings. DESIGN CHOICE (log entry 62):
R56 does not define the batch slot that a row carries; it is the row's index within the `IN0` token. -/
def rowMessages (c : Ctx) (y : Graph) (m : XMap) (id : Nat) (tag rows : Nat) (poison : Bool) : List RowMsg :=
  (List.range rows).flatMap fun r => (chosen m.k r c.data1).zipIdx.flatMap fun er =>
    match m.experts[er.1]? with
    | none => []
    | some e => (y.members e.bunting).map fun t =>
      { tile := t, xmap := bits c.w 112 8, expert := er.1, src := c.t, firing := id, slot := r, rank := er.2, tag := tag,
        data := sliceB c.a (r * m.rowBytes) m.rowBytes, poison := poison, gen := c.x.cfg.generation, way := .start }

/-- The count records that follow (R56). -/
def countMessages (c : Ctx) (y : Graph) (m : XMap) (id tag rows : Nat) : List CountMsg :=
  m.experts.zipIdx.flatMap fun ei => (y.members ei.1.bunting).map fun t =>
    { tile := t, xmap := bits c.w 112 8, expert := ei.2, src := c.t, vtile := c.v,
      count := sumNat ((List.range rows).map fun r => (chosen m.k r c.data1).count ei.2), tag := tag, burgee := none
      poison := false, gen := c.x.cfg.generation, firing := some id, way := .start }

/-- What an `XDISP` sends, for its digest (R365): each row with its expert, slot and rank, then the count records. -/
def dispatchBytes (c : Ctx) (m : XMap) (rows : Nat) : List Byte :=
  ((List.range rows).flatMap fun r => (chosen m.k r c.data1).zipIdx.flatMap fun er =>
    toLe 2 er.1 ++ toLe 2 r ++ toLe 2 er.2 ++ sliceB c.a (r * m.rowBytes) m.rowBytes) ++
  (List.range m.experts.length).flatMap fun e =>
    toLe 2 e ++ toLe 4 (sumNat ((List.range rows).map fun r => (chosen m.k r c.data1).count e))

/-- Whether a tile is a shadow: what it emits goes nowhere (R364). -/
def State.isShadow (s : State) (t : Nat) : Bool := match (s.tile t).use with | .shadow _ => true | _ => false

/-- A tile and its shadows (R364). -/
def State.withShadows (s : State) (t : Nat) : List Nat :=
  t :: (List.range 320).filter fun u => match (s.tile u).use with | .shadow p => p == t | _ => false

/-- `XDISP` (R51, R56): where a check fails, nothing is sent, as R100 gives. DESIGN CHOICE (log entry 62): the issue interval
of such a firing is 8, as R51 gives none. -/
def effXdisp : EffectFn := fun c s =>
  match c.graph s, c.xmap s with
  | some y, some m => match dispatchRows c m with
    | some r =>
      if c.from0 % 8 ≠ 0 then { Effect.plane (r * m.k * m.rowBytes) with fault := some (c.addrFault (c.addr s)) }
      else
        { Effect.plane (r * m.k * m.rowBytes) with
          rowAcks := if s.isShadow c.t then [] else (rowMessages c y m 0 0 r false).map fun g => (g.slot, g.rank)
          rowRequests := ceilDiv m.rowBytes 256
          countAcks := if s.isShadow c.t then [] else (countMessages c y m 0 0 r).map (·.expert)
          sent := bytesToWords (dispatchBytes c m r) }
    | none => { Effect.plane 0 with issue := 8, fault := some (s.boundFault c.t c.k (outTag c.toks 0)) }
  | _, _ => { Effect.plane 0 with issue := 8 }

/-- The rows and records put on the memory plane. -/
def afterXdisp : AfterFn := fun c f s =>
  match c.graph s, c.xmap s with
  | some y, some m => match dispatchRows c m with
    | some r =>
      let tag := outTag c.toks (Tab.get 0 c.x.run.firings c.k)
      if f.noReplay || s.isShadow c.t then s
      else
        { s with
          planes := { s.planes with
            rows := s.planes.rows ++ rowMessages c y m f.id tag r f.poison
            counts := s.planes.counts ++ countMessages c y m f.id tag r } }
    | none => s
  | _, _ => s

/-- `WLOAD` (R49, R107, R114): the CRC array and the blocks. -/
def effWload : EffectFn := fun c s =>
  let n := streamBytes c.w
  let a := c.addr s
  let d := c.x.halfBase (bits c.w 100 1) + bits c.xw 80 16 * 256
  let l := c.const s (bits c.xw 64 16)
  if s.moveOk a n d && s.addrOk l (n / 2048 * 4) then
    { Effect.plane n with
      place := some (some d, n / 8)
      pieces := transfer (s.isFar l) .crcList l 0 (n / 2048 * 4) [] ++ transfer (s.isFar a) .read a d n [] }
  else { Effect.plane n with fault := some (c.addrFault (if s.addrOk a n then l else a)) }

/-! ### Circuits -/

/-- The circuit an operation names. -/
def Ctx.circuit (c : Ctx) (s : State) : Option Circuit :=
  match c.graph s with
  | none => none
  | some y => y.image.circuits[bits c.w 64 16]?

/-- Bits set among the low 16. -/
def popCount16 (m : Nat) : Nat := (List.range 16).countP (bit m)

/-- `|a − b|`. -/
def dist (a b : Nat) : Nat := if a ≤ b then b - a else a - b

/-- Route latency between two tiles of a die (R248). -/
def routeLatency (a b : Nat) : Nat :=
  28 + 2 * (dist (gridX a) (gridX b) + dist (gridY a) (gridY b)) +
    22 * (dist (gridX a / 4) (gridX b / 4) + dist (gridY a / 4) (gridY b / 4))

/-- Issue interval of a circuit operation (R147). -/
def circuitIssue (mask words : Nat) : Nat := 16 * ceilDiv (words * 8) (32 * max (popCount16 mask) 1)

/-- The two tiles of a circuit. -/
def Ctx.ends (c : Ctx) (s : State) (k : Circuit) : Nat × Nat :=
  match c.graph s with
  | none => (320, 320)
  | some y => (y.place.getD k.src 320, y.place.getD k.dst 320)

/-- The receive posted for a circuit at its sender: words and the receiving firing. -/
def Ctx.posted (c : Ctx) : Option (Nat × Nat × Nat) := c.x.run.posted.find? fun p => p.1 == bits c.w 64 16

/-- `CSEND` (R147): the words its token names, or nothing where their number differs from the posted receive. -/
def effCsend : EffectFn := fun c s =>
  match c.circuit s, c.posted with
  | some k, some p =>
    let e := c.ends s k
    let ok := p.2.1 == c.len0
    { Effect.none_ (circuitIssue k.slotMask p.2.1, routeLatency e.1 e.2) with
      sent := if ok then bytesToWords c.a else [], poison := !ok }
  | _, _ => Effect.none_ (8, 0)

/-- What a receiving firing gets: its words, its poison, and the cycles to its completion (R147, R248). -/
def Firing.receive (f : Firing) (now : Nat) (src : Firing) : Firing :=
  let a := match f.outs.head? with
    | some o => o.2.addr
    | none => 0
  { f with
    writes := src.sent.zipIdx.map fun wi => (a + wi.2, wi.1)
    poison := f.poison || src.poison
    outs := f.outs.map fun o => (o.1, { o.2 with poison := o.2.poison || src.poison })
    fire := now, issue := src.issue, depth := src.depth, openEnded := false, acks := 0 }

/-- The oldest receive of an operation takes the words. -/
def receiveFirst (now index : Nat) (src : Firing) : List Firing → List Firing
  | [] => []
  | g :: gs => if g.openEnded && g.index == index then g.receive now src :: gs else g :: receiveFirst now index src gs

/-- The oldest receive of an operation takes the words, which change its ring entry from now on (R103, R147). -/
def Tile.receiveWords (x : Tile) (index : Nat) (src : Firing) : Tile :=
  let fs := receiveFirst x.cycle index src x.run.flights
  let new := fs.filter fun g => !g.openEnded && !x.run.flights.contains g
  x.updRun fun r => { r with flights := fs, changes := r.changes ++ new.flatMap x.changesBy }

/-- The posted receive is used up and the words travel to the receiver and its shadows. -/
def afterCsend : AfterFn := fun c f s =>
  match c.circuit s, c.posted with
  | some k, some p =>
    let dst := (c.ends s k).2
    let s1 := s.updTile c.t fun x => x.updRun fun r => { r with posted := r.posted.erase p }
    if s.isShadow c.t then s1
    else (s1.withShadows dst).foldl (fun s u => s.updTile u fun x => x.receiveWords p.2.2 f) s1
  | _, _ => s

/-- `CRECV` (R147): a posted receive; it completes with the last word. -/
def effCrecv : EffectFn := fun c s =>
  let n := 8 * (bits c.w 86 14 + 1)
  match c.circuit s with
  | some k => { Effect.none_ (circuitIssue k.slotMask n, 0) with openEnded := true, place := some (none, n), acks := 1 }
  | none => Effect.none_ (8, 0)

/-- The receive is posted at the sender and its shadows, where the sender works under the same configuration (R165). -/
def afterCrecv : AfterFn := fun c _ s =>
  match c.circuit s with
  | some k =>
    let src := (c.ends s k).1
    if s.isShadow c.t || (s.tile src).cfg.generation ≠ c.x.cfg.generation then s
    else (s.withShadows src).foldl (fun s u => s.updTile u fun x => x.updRun fun r =>
      { r with posted := r.posted ++ [(bits c.w 64 16, 8 * (bits c.w 86 14 + 1), c.k)] }) s
  | none => s

/-! ### Firings -/

/-- `SLOAD` fires (R25 to R30, R153). -/
def execSload (t k : Nat) (u : List Upset) (s : State) : Out3 := s.fire 0x50 t k u effSload afterNone
/-- `SSTORE` fires. -/
def execSstore (t k : Nat) (u : List Upset) (s : State) : Out3 := s.fire 0x51 t k u effSstore afterNone
/-- `SGATHER` fires (R141). -/
def execSgather (t k : Nat) (u : List Upset) (s : State) : Out3 := s.fire 0x52 t k u effSgather afterNone
/-- `SSCATTER` fires (R141). -/
def execSscatter (t k : Nat) (u : List Upset) (s : State) : Out3 := s.fire 0x53 t k u effSscatter afterNone
/-- `SMCAST` fires (R260). -/
def execSmcast (t k : Nat) (u : List Upset) (s : State) : Out3 := s.fire 0x54 t k u effSmcast afterNone
/-- `XDISP` fires (R56). -/
def execXdisp (t k : Nat) (u : List Upset) (s : State) : Out3 := s.fire 0x55 t k u effXdisp afterXdisp
/-- `CSEND` fires (R147). -/
def execCsend (t k : Nat) (u : List Upset) (s : State) : Out3 := s.fire 0x56 t k u effCsend afterCsend
/-- `CRECV` fires (R147). -/
def execCrecv (t k : Nat) (u : List Upset) (s : State) : Out3 := s.fire 0x57 t k u effCrecv afterCrecv
/-- `WLOAD` fires (R49, R114). -/
def execWload (t k : Nat) (u : List Upset) (s : State) : Out3 := s.fire 0x58 t k u effWload afterNone

end Sys2Proof.Machine
end

