-- ==== Sys2Proof/Machine/Steering.lean ====
section
/-! DEFINITION. The operations of the steering unit (R52 to R54, R143, R256). -/

namespace Sys2Proof.Machine

/-- Registers named by a steering word (R143). -/
def Ctx.sa (c : Ctx) : Word := c.s (bits c.w 70 5)
def Ctx.chan (c : Ctx) : Nat := bits c.w 64 6

/-- Operand b: `IMM` sign-extended, or `s(SB)`. -/
def Ctx.sb (c : Ctx) : Word :=
  if bit c.w 89 then BitVec.ofInt 64 (signed 32 (bits c.w 96 32)) else c.s (bits c.w 75 5)

/-- 64-bit scalar arithmetic (R143); `move` takes operand b (log entry 23). -/
def scalar (func : Nat) (a b : Word) : Word :=
  match func with
  | 0 => a + b
  | 1 => a - b
  | 2 => a &&& b
  | 3 => a ||| b
  | 4 => a ^^^ b
  | 5 => a <<< (b.toNat % 64)
  | 6 => a >>> (b.toNat % 64)
  | 7 => a.sshiftRight (b.toNat % 64)
  | 8 => if a.slt b then 1 else 0
  | 9 => if a = b then 1 else 0
  | _ => b

/-- Bits of a word from a predicate on their numbers. -/
def bitsOf (p : Nat → Bool) : Nat → Nat → Nat
  | _, 0 => 0
  | i, n + 1 => b2n (p i) + 2 * bitsOf p (i + 1) n

/-- `CH_READY` and `CH_SPACE` at the turn's first cycle (R53, R54). -/
def Tile.chReady (x : Tile) : Word :=
  BitVec.ofNat 64 (bitsOf (fun n => (x.channel n).fresh < (x.channel n).recv.length) 0 64)
def Tile.chSpace (x : Tile) : Word :=
  BitVec.ofNat 64 (bitsOf (fun n => 0 < (x.channel n).credits && (Tab.get Route.reset x.cfg.routes n).enable) 0 64)

/-- A steering operation of fixed timing. -/
def Effect.steer : Effect := Effect.none_ (8, 6)

/-- `CHSEND`: the word `s(SA)`. -/
def effChsend : EffectFn := fun c _ => { Effect.steer with sent := [c.sa] }

/-- `CHRECV`: the oldest word of the receive queue to `s(SD)`. -/
def effChrecv : EffectFn := fun c _ =>
  { Effect.steer with regs := [(bits c.w 80 5, ((c.x.channel c.chan).recv.head?).getD 0)] }

/-- `CHPOLL`: `CH_READY` to `s(SD)` and `CH_SPACE` to `s(SB)`. -/
def effChpoll : EffectFn := fun c _ =>
  { Effect.steer with regs := [(bits c.w 80 5, c.x.chReady), (bits c.w 75 5, c.x.chSpace)] }

/-- The Tarn word that `SCALC` loads or stores lies where R100 and R107 allow it. -/
def scalarAddrOk (c : Ctx) : Bool :=
  c.sa.toNat < tarnWords && (bits c.w 85 4 == 11 || c.sa.toNat < c.x.window)

/-- `SCALC` (R143). -/
def effScalc : EffectFn := fun c s =>
  let f := bits c.w 85 4
  let tag := outTag c.toks (Tab.get 0 c.x.run.firings c.k)
  if f = 11 || f = 12 then
    if scalarAddrOk c then
      let r := c.x.readWords s.draws c.sa.toNat 1
      if f = 11 then
        { Effect.steer with
          regs := [(bits c.w 80 5, (r.words.head?).getD 0)], poison := r.poisoned, reads := [(c.sa.toNat, 1)] }
      else { Effect.steer with writes := [(c.sa.toNat, c.sb)] }
    else { Effect.steer with fault := some (s.boundFault c.t c.k tag) }
  else { Effect.steer with regs := [(bits c.w 80 5, scalar f c.sa c.sb)] }

/-- The counts of a `SCALC` load (R111, R113). -/
def afterScalc : AfterFn := fun c f s =>
  if bits c.w 85 4 = 11 && !f.noReplay then s.noteRead c.t (c.x.readWords (s.draws - 1) c.sa.toNat 1) else s

/-- `PSEND`: bits [39:0] of `s(SA)` as a Pennant. -/
def effPsend : EffectFn := fun c _ => { Effect.steer with body := some (.pennant (c.sa.toNat % 2 ^ 40)) }

/-- Module Bunting of a `SUMMIT`. -/
def Ctx.summitBunting (c : Ctx) (s : State) : Nat :=
  match c.graph s with
  | none => 0
  | some y => y.buntings.getD (bits c.w 96 10) 0

/-- `SUMMIT`: an arrive flit with the tile's sequence number on the Bunting (R256). -/
def effSummit : EffectFn := fun c s =>
  { Effect.none_ (8, 0) with
    openEnded := true, acks := 1, sent := [BitVec.ofNat 64 (Tab.get 0 c.x.run.summits (c.summitBunting s) % 2 ^ 16)] }

/-- The sequence number used up, and the arrive flit on its way; a shadow sends none (R364). -/
def afterSummit : AfterFn := fun c f s =>
  let b := c.summitBunting s
  let s1 := s.updTile c.t fun x => x.updRun fun r => { r with summits := Tab.upd 0 b (· + 1) r.summits }
  if s.isShadow c.t then s1 else s1.sendArrive c.t f.id b

/-- A send credit spent (R52). -/
def afterChsend : AfterFn := fun c _ s =>
  s.updTile c.t fun x => x.updChannel c.chan fun h => { h with credits := h.credits - 1 }

/-- The tile and channel that send to a channel of a tile (R54). -/
def State.senderOf (s : State) (t n : Nat) : Option (Nat × Nat) :=
  ((List.range 320).flatMap fun u => ((s.tile u).cfg.routes.filter fun r =>
    r.2.enable && r.2.dest == t && r.2.chan == n && !s.isShadow u).map fun r => (u, r.1)).head?

/-- The word consumed, with a credit back to the sender, which counts from its next turn (R28, R52). -/
def afterChrecv : AfterFn := fun c _ s =>
  let s1 := s.updTile c.t fun x => x.updChannel c.chan fun h => { h with recv := h.recv.drop 1 }
  match (if s.isShadow c.t then none else s.senderOf c.t c.chan) with
  | none => s1
  | some (u, n) => (s.withShadows u).foldl (fun s v => s.updTile v fun x => x.updChannel n fun h =>
      { h with freshCredits := min (h.freshCredits + 1) (16 - h.credits) }) s1

/-- `CHSEND` fires (R52). -/
def execChsend (t k : Nat) (u : List Upset) (s : State) : Out3 := s.fire 0x60 t k u effChsend afterChsend
/-- `CHRECV` fires (R53). -/
def execChrecv (t k : Nat) (u : List Upset) (s : State) : Out3 := s.fire 0x61 t k u effChrecv afterChrecv
/-- `CHPOLL` fires (R53). -/
def execChpoll (t k : Nat) (u : List Upset) (s : State) : Out3 := s.fire 0x62 t k u effChpoll afterNone
/-- `SCALC` fires (R143). -/
def execScalc (t k : Nat) (u : List Upset) (s : State) : Out3 := s.fire 0x63 t k u effScalc afterScalc
/-- `PSEND` fires (R143). -/
def execPsend (t k : Nat) (u : List Upset) (s : State) : Out3 := s.fire 0x64 t k u effPsend afterNone
/-- `SUMMIT` fires (R256). -/
def execSummit (t k : Nat) (u : List Upset) (s : State) : Out3 := s.fire 0x65 t k u effSummit afterSummit

end Sys2Proof.Machine
end

