-- ==== Sys2Proof/Machine/Late.lean ====
section
/-! DEFINITION. Operations that read beside writes (R103): the words of an operand that change after an operation has fired and
before its last read slot are read as they were, or as they become. The spec does not say which turn of the issue interval reads
which word, so a free value picks where either may be read (log entry 64). -/

namespace Sys2Proof.Machine

/-- What a firing reads of a word that changes: the word as it becomes where the change is committed before the first read slot, as
it was where it is committed after the last one, and else as a free value has it. A word that has been read stays as read. -/
def Firing.seeChange (f : Firing) (w draw : Nat) (rs : List (Nat × TarnWord × Bool)) (c : TarnChange) : List (Nat × TarnWord × Bool) :=
  if c.by_ == some f.id || !inRanges f.reads c.word || rs.any (fun r => r.1 == c.word && r.2.2) then rs
  else
    let sp := readSpan w f.fire f.issue
    let new := c.hi < sp.1 || (c.lo < sp.2 && Config.lateRead draw c.word)
    rs.filter (·.1 != c.word) ++ [(c.word, if new then c.new else c.old, !new)]

/-- A tile's Tarn as a firing reads it, in the cycle in which it fired and with nothing in flight. -/
def Tile.beside (x : Tile) (f : Firing) : Tile :=
  { x with
    cycle := f.fire, run := { x.run with flights := [] }
    tarn := f.readAs.foldl (fun m r => Tab.put .zero r.1 r.2.1 m) x.tarn }

/-- The pieces of a storing operation that have not been asked for, with the bytes that it reads now. -/
def renewPieces (poison : Bool) : Nat → List Byte → List Piece → List Piece
  | _, _, [] => []
  | off, bs, p :: ps =>
    (if p.asked || p.state == PieceState.landed then p else { p with data := sliceB bs off p.bytes, poison := p.poison || poison }) ::
      renewPieces poison (off + p.bytes) bs ps

/-- A firing with the results that its operands give as they are read now: those of the matrix and vector engines, the bytes of a
store or a multicast, and the words that a `CSEND` or an `SSCATTER` sends. -/
def Firing.renewed (f n : Firing) (bytes : List Byte) (opc : Nat) : Firing :=
  if engineOf opc = some 0 || engineOf opc = some 1 then
    { f with writes := n.writes, outs := n.outs, poison := n.poison, sat := n.sat, nan := n.nan, noReplay := n.noReplay }
  else
    let p := n.poison
    { f with
      poison := f.poison || p, outs := f.outs.map fun o => (o.1, { o.2 with poison := o.2.poison || p })
      pieces := if opc = 0x51 || opc = 0x54 then renewPieces p 0 bytes f.pieces
        else if opc = 0x53 then f.pieces.take (f.pieces.countP (·.kind == PieceKind.addrList)) ++
          renewPieces p 0 bytes (f.pieces.drop (f.pieces.countP (·.kind == PieceKind.addrList)))
        else f.pieces
      sent := if opc = 0x53 || (opc = 0x56 && !f.sent.isEmpty) then bytesToWords bytes else if opc = 0x55 then n.sent else f.sent }

/-- The rows of an `XDISP` still on their way, with the bytes that it reads now. -/
def State.renewRows (t id : Nat) (bytes : List Byte) (poison : Bool) (s : State) : State :=
  { s with planes := { s.planes with rows := s.planes.rows.map fun m =>
    if m.src == t && m.firing == id then
      { m with data := sliceB bytes (m.slot * m.data.length) m.data.length, poison := m.poison || poison }
    else m } }

/-- The latest receive of a circuit that a `CSEND` has answered. -/
def Tile.latestReceive (x : Tile) (circuit : Nat) : Option Firing :=
  (x.run.flights.filter fun g =>
    opCode (x.op g.index) == 0x57 && bits (x.op g.index) 64 16 == circuit && !g.openEnded).getLast?

/-- The words of a `CSEND` as its receivers take them now. -/
def State.renewReceive (c : Ctx) (f : Firing) (s : State) : State :=
  match c.circuit s with
  | none => s
  | some k => (s.withShadows (c.ends s k).2).foldl (fun s u => s.updTile u fun x =>
      match x.latestReceive (bits c.w 64 16) with
      | none => x
      | some g => x.updRun fun r => { r with flights := r.flights.map fun h =>
          if h.id = g.id then { h.receive g.fire f with count := h.count } else h }) s

/-- One firing beside the changes of a turn (R103): where a word that it reads has changed, its results are those of the words as it
reads them, and words of them with the poison pattern count as read (R113). -/
def State.readBeside (t : Nat) (cs : List TarnChange) (s : State) (f : Firing) : State :=
  let x := s.tile t
  let w := x.op f.index
  let rs := cs.foldl (f.seeChange w s.draws) f.readAs
  if rs = f.readAs then s
  else
    let g := { f with readAs := rs }
    let c := s.context t f.index (x.beside g) f.inputs f.regsAt
    let n := (s.makeFiring c.1 (effectOf (opCode w) c.1 s) c.2.1 c.2.2 (some f)).1
    let h := g.renewed n c.1.a (opCode w)
    let s1 := s.updTile t fun x => x.updRun fun r => { r with flights := r.flights.map fun z => if z.id = f.id then h else z }
    let s2 := if opCode w = 0x55 then s1.renewRows t f.id c.1.a n.poison
      else if opCode w = 0x56 && !s.isShadow t then s1.renewReceive c.1 h else s1
    s2.noteRead t ⟨[], 0, [], (rs.filter fun r => r.2.1.poison && !r.2.2 && !f.readAs.contains r).map (·.1)⟩

/-- The changes of a turn, as the operations of the tile that may still read see them (R103). -/
def State.seeChanges (t : Nat) (s : State) : State :=
  let x := s.tile t
  if x.run.changes.isEmpty then s
  else
    let fs := x.run.flights.filter fun f => !f.failed && engineOf (opCode (x.op f.index)) != some 3
    (fs.foldl (State.readBeside t x.run.changes)
      (s.updTile t fun x => x.updRun fun r => { r with changes := [] })).draw

end Sys2Proof.Machine
end

