-- ==== Sys2Proof/Machine/Tracker.lean ====
section
/-! DEFINITION. The stream tracker's own operations: stream records and their write-through (R175 to R181), deadlines
(R188, R189), KV pages (R190 to R193), prompt runs (R336), notices and ends (R186, R187, R194). -/

namespace Sys2Proof.Machine

/-- Details of R186, R187, R361. -/
def endStop : Nat := 0x0210
def endLimit : Nat := 0x0211
def endCancel : Nat := 0x0212
def endUnloaded : Nat := 0x0213

/-- `sflags` (R178). -/
def Stream.flags (x : Stream) : Nat :=
  b2n x.notifyEach + 2 * b2n x.lateSeen + 4 * b2n x.trimmedSeen + 8 * b2n x.cancelReq + 16 * b2n x.firstPeriod +
    32 * b2n x.remoteRetry

/-- Critical bytes 0 to 111 of a stream record (R178). -/
def Stream.critical (x : Stream) : List Byte :=
  toLe 4 x.handle ++ toLe 1 x.state.code ++ toLe 1 x.cls ++ toLe 1 x.graph ++ toLe 1 x.hring ++ toLe 4 x.position ++
    toLe 4 x.limit ++ toLe 4 x.promptEnd ++ toLe 4 x.lastToken ++ toLe 4 x.hvSeq ++ toLe 4 x.kvPages ++ toLe 8 x.deadline ++
    toLe 8 x.kvList ++ toLe 8 x.waitSince ++ toLe 1 x.cq ++ toLe 1 x.flags ++ toLe 2 x.endDetail ++ toLe 1 x.heldFrom ++
    [0, 0, 0] ++ toLe 8 x.promptAddr ++ toLe 8 x.userTag ++ toLe 4 x.temperature ++ toLe 4 x.topP ++ toLe 4 x.seed ++
    toLe 2 x.topK ++ [0, 0] ++ toLe 4 x.stopId ++ [0, 0, 0, 0] ++ toLe 8 x.submitCairn

/-- Statistics, bytes 112 to 127 (R178). -/
def Stream.statistics (x : Stream) : List Byte :=
  toLe 4 x.tokensOut ++ toLe 2 x.lateCount ++ toLe 2 x.trimCount ++ toLe 2 x.preemptCount ++ [0, 0, 0, 0, 0, 0]

/-- Global address of a record (R178). -/
def State.recordAt (s : State) (i : Nat) : Nat := s.hbmAddr (s.regs.streamTable + 128 * i)

/-- Bytes of a record written to memory, wherever its frame stands (R10, R239, R240). -/
def State.writeTable (i off : Nat) (bs : List Byte) (s : State) : State := (s.write (s.recordAt i + off) bs false).1

/-- The statistics of a record written back (R179). -/
def State.writeStatistics (i : Nat) (x : Stream) (s : State) : State := s.writeTable i 112 x.statistics

/-- The halves of a record in which critical bytes have changed from `old`, each in one write of 64 bytes (R179). -/
def State.writeHalves (i : Nat) (old x : Stream) (s : State) : State :=
  let new (h : Nat) : Bool := old.state == StreamState.free || sliceB old.critical (64 * h) 64 != sliceB x.critical (64 * h) 64
  let put (h : Nat) (s : State) : State :=
    if new h then s.writeTable i (64 * h) (sliceB (x.critical ++ x.statistics) (64 * h) 64) else s
  put 1 (put 0 s)

/-- Streams in issued batches, whose records stay in the cache (R180). -/
def State.pinned (s : State) : List Nat :=
  s.graphIds.flatMap fun g => match s.graph? g with
    | none => []
    | some y => y.sched.batches.flatMap fun b => b.rows.map (·.idx)

/-- The cache after a use of a record: beyond 32,768 the one used least recently leaves, with its statistics written
back (R179, R180). -/
def State.touch (i : Nat) (s : State) : State :=
  let c := i :: s.tracker.cache.filter (· != i)
  let out := if c.length > 32768 then (c.reverse.find? fun j => !s.pinned.contains j) else none
  match out with
  | none => { s with tracker := { s.tracker with cache := c } }
  | some j =>
    State.writeStatistics j (s.stream j) { s with tracker := { s.tracker with cache := c.filter (· != j) } }

/-- The lines of a live record read where the cache does not hold it (R180), with what the reads count (R224, R225). What the
tracker does with a record that reads as poisoned is stated nowhere: it takes the bytes as they come (log entry 78). -/
def State.readRecord (i : Nat) (s : State) : State :=
  if s.tracker.cache.contains i || (s.stream i).state == StreamState.free then s else s.noteRun 3 (s.recordAt i) 128

/-- A record used, and read where the cache does not hold it. -/
def State.useRecord (i : Nat) (s : State) : State := (s.readRecord i).touch i

/-- A record changed, with its critical bytes written through (R179). -/
def State.putStream (i : Nat) (x : Stream) (s : State) : State :=
  (((s.readRecord i).setStream i x).touch i).writeHalves i (s.stream i) x

/-- A record changed by a function. -/
def State.modStream (i : Nat) (f : Stream → Stream) (s : State) : State := s.putStream i (f (s.stream i))

/-- Live streams of a graph: index and record. -/
def State.streamsOf (s : State) (g : Nat) : List (Nat × Stream) :=
  s.tracker.streams.filter fun e => e.2.graph == g && e.2.state != StreamState.free

/-- A deadline of none (R178). -/
def noDeadline : Nat := 0xFFFFFFFFFFFFFFFF

/-- Whether a deadline comes before another one: none comes after every other (R189). -/
def deadlineBefore (a b : Nat) : Bool := a != noDeadline && (b == noDeadline || cairnBefore a b)

/-- `prec`: class, deadline, `wait_since`, index, all ascending (R199). -/
def precLe (a b : Nat × Stream) : Bool :=
  if a.2.cls != b.2.cls then a.2.cls < b.2.cls
  else if a.2.deadline != b.2.deadline then deadlineBefore a.2.deadline b.2.deadline
  else if a.2.waitSince != b.2.waitSince then cairnBefore a.2.waitSince b.2.waitSince
  else a.1 ≤ b.1

/-- Streams in `prec` order. -/
def inPrec (xs : List (Nat × Stream)) : List (Nat × Stream) := sortBy xs precLe

/-! ### Notices -/

/-- A stream's completion record (R187, R328). -/
def Stream.record (x : Stream) (status detail : Nat) : Rec :=
  { kind := 1, status := status, detail := detail, opcode := 0, ring := x.hring, tag := x.userTag, word0 := x.handle,
    word1 := x.position }

/-- A notice to the stream's completion ring, where it asked for one (R187, R361). -/
def State.notify (i status detail : Nat) (s : State) : State :=
  let x := s.stream i
  if x.notifyEach then s.notice x.cq (x.record status detail) else s

/-! ### Pages -/

/-- A range whose pages are to move elsewhere: it is being removed, or fenced (R230, R374). -/
def CxlRange.leaving (x : CxlRange) : Bool := x.inService && (!x.removing.isEmpty || x.part == 3)

/-- A pool's pages: first address and bytes. -/
def Serving.poolRun (v : Serving) (p : Pool) : Nat × Nat := (p.base, p.pages * v.kvPageBytes)

/-- Whether pages are taken from a pool: every CXL range that it lies on is in service, not fenced, and not being removed (R230,
R374). -/
def State.poolOpen (s : State) (v : Serving) (p : Pool) : Bool :=
  let r := v.poolRun p
  !(bits r.1 58 2 == 1 && bits r.1 44 14 == s.fabric.id) || s.bytesOn r.1 r.2 (fun x => x.inService && !x.leaving) == r.2

/-- The next free page of a pool: never used in ascending order, then those freed, oldest first. -/
def Sched.freePage (sc : Sched) (p : Nat) (pool : Pool) : Option Nat :=
  let n := Tab.get 0 sc.fresh p
  if n < pool.pages then some n else (Tab.get [] sc.freed p).head?

/-- A page taken out of its pool. -/
def Sched.takePage (sc : Sched) (p page : Nat) : Sched :=
  if Tab.get 0 sc.fresh p = page then { sc with fresh := Tab.put 0 p (page + 1) sc.fresh }
  else { sc with freed := Tab.upd [] p (fun l => l.erase page) sc.freed }

/-- Free pages of a pool. -/
def Sched.freeCount (sc : Sched) (p : Nat) (pool : Pool) : Nat :=
  pool.pages - Tab.get 0 sc.fresh p + (Tab.get [] sc.freed p).length

/-- The pools of a class in its order (R339). -/
def Policy.poolsOf (po : Policy) (cls pools : Nat) : List Nat :=
  (List.range pools).map fun j => po.order.getD cls 0xE4 >>> (2 * j) % 4

/-- A page-list entry (R191). -/
def pageEntry (v : Serving) (pool page : Nat) : Nat :=
  ((v.pools.getD pool ⟨0, 0⟩).base + page * v.kvPageBytes) % 2 ^ 60 + 2 ^ 60 + pool * 2 ^ 62

/-- The pages a stream holds. -/
def State.pagesOf (s : State) (i : Nat) : List (Nat × Nat) := Tab.get [] s.tracker.pages i
def State.setPages (s : State) (i : Nat) (ps : List (Nat × Nat)) : State :=
  { s with tracker := { s.tracker with pages := Tab.put [] i ps s.tracker.pages } }

/-- The first pool of the class's order with a free page, and that page (R192). -/
def State.findPage (s : State) (y : Graph) (v : Serving) (cls : Nat) : Option (Nat × Nat) :=
  (y.sched.policy.poolsOf cls v.pools.length).findSome? fun p => match v.pools[p]? with
    | none => none
    | some pool => if s.poolOpen v pool then (y.sched.freePage p pool).map fun n => (p, n) else none

/-- Pages taken until the stream holds `need`: the entry is written before `kv_pages` (R192). `fuel` bounds the pages. -/
def State.takePages (g i need : Nat) : Nat → State → State × Bool
  | 0, s => (s, need ≤ (s.stream i).kvPages)
  | fuel + 1, s =>
    let x := s.stream i
    if need ≤ x.kvPages then (s, true)
    else match s.graph? g with
      | none => (s, false)
      | some y => match y.serving with
        | none => (s, false)
        | some v => match s.findPage y v x.cls with
          | none => (s, false)
          | some (p, n) =>
            let s1 := (s.write (x.kvList + 8 * x.kvPages) (toLe 8 (pageEntry v p n)) false).1
            let s2 := s1.updSched g fun sc => sc.takePage p n
            State.takePages g i need fuel ((s2.setPages i (s2.pagesOf i ++ [(p, n)])).putStream i { x with kvPages := x.kvPages + 1 })

/-- `KV_POOL_EMPTY`, once for each graph and pool until a page is freed (R192). -/
def State.raiseEmpty (g : Nat) (pools : List Nat) (s : State) : State :=
  pools.foldl (fun s p => match s.graph? g with
    | none => s
    | some y =>
      if y.sched.emptyRaised.contains p then s
      else (s.updSched g fun sc => { sc with emptyRaised := sc.emptyRaised ++ [p] }).raise 0x1203 g p 0) s

/-- `pages_ready` (R192, R199): pages for `n` more positions; a stream that finds none is `HELD`. -/
def State.pagesReady (g i n : Nat) (s : State) : State × Bool :=
  let x := s.stream i
  match s.graph? g with
  | none => (s, false)
  | some y => match y.serving with
    | none => (s, false)
    | some v =>
      let need := ceilDiv (x.position + n) (max v.kvPageTokens 1)
      let r := s.takePages g i need (need + 1)
      if r.2 then r
      else
        let z := r.1.stream i
        ((r.1.putStream i { z with state := .held, heldFrom := z.state.code }).raiseEmpty g
          (y.sched.policy.poolsOf z.cls v.pools.length), false)

/-- The state that `held_from` names. -/
def heldState (c : Nat) : StreamState := if c = 1 then .pending else if c = 2 then .prefill else .decode

/-- A page back in its pool: streams `HELD` for want of one return to the state they left (R192). -/
def State.freePage (g p page : Nat) (s : State) : State :=
  let s1 := s.updSched g fun sc => { sc with
    freed := Tab.upd [] p (· ++ [page]) sc.freed, emptyRaised := sc.emptyRaised.filter (· != p) }
  match s1.graph? g with
  | none => s1
  | some y =>
    let n := (y.serving.map fun v => v.pools.length).getD 0
    (s1.streamsOf g).foldl (fun s e =>
      if e.2.state == StreamState.held && (y.sched.policy.poolsOf e.2.cls n).contains p then
        s.putStream e.1 { e.2 with state := heldState e.2.heldFrom, heldFrom := 0 }
      else s) s1

/-! ### Prompt runs -/

/-- Whether two runs of units overlap. -/
def runsMeet (a n b m : Nat) : Bool := a < b + m && b < a + n

/-- The lowest run of `n` units that fits among the runs in use (R336); `fuel` bounds the runs passed. -/
def findRun (total n : Nat) (runs : List (Nat × Nat × Nat)) : Nat → Nat → Option Nat
  | 0, _ => none
  | fuel + 1, at_ =>
    if at_ + n > total then none
    else match runs.find? fun r => runsMeet at_ n r.1 r.2.1 with
      | none => some at_
      | some r => findRun total n runs fuel (r.1 + r.2.1)

/-- A prompt run taken, and the tokens written into it (R336). -/
def State.takeRun (g i : Nat) (v : Serving) (tokens : List Byte) (s : State) : Option (State × Nat) :=
  match s.graph? g with
  | none => none
  | some y =>
    let n := ceilDiv tokens.length 64
    match findRun (v.promptBytes / 64) n y.sched.runs (y.sched.runs.length + 1) 0 with
    | none => none
    | some u =>
      let a := v.promptBase + 64 * u
      let s1 := s.updSched g fun sc => { sc with runs := sc.runs ++ [(u, n, i)] }
      some ((s1.write a (padTo (64 * n) tokens) false).1, a)

/-- A stream's prompt runs freed (R336). -/
def State.freeRuns (g i : Nat) (s : State) : State :=
  s.updSched g fun sc => { sc with runs := sc.runs.filter fun r => r.2.2 != i }

/-! ### Plans and batches -/

/-- Whether a stream has a row in an issued batch whose harvest has not ended. -/
def Graph.inBatch (y : Graph) (i : Nat) : Bool := y.sched.batches.any fun b => b.rows.any (·.idx == i)

/-- Chunks planned for a stream, in the period that runs or the next one. -/
def Sched.plannedChunk (sc : Sched) (i : Nat) : Bool :=
  sc.slices.flatten.any (·.idx == i) || (match sc.plan with
    | none => false
    | some p => p.slices.flatten.any (·.idx == i))

/-- Whether a stream stands in a plan. -/
def Sched.planned (sc : Sched) (i : Nat) : Bool :=
  sc.plannedChunk i || (match sc.plan with | none => false | some p => p.decode.contains i)

/-- A harvest slot reserved, or not (R212). -/
def State.reserveSlot (r : Nat) (s : State) : State × Bool :=
  if (s.hv r).hasFree then (s.updHv r fun x => { x with reserved := x.reserved + 1 }, true) else (s, false)

/-- A harvest slot given back. -/
def State.releaseSlot (r : Nat) (s : State) : State := s.updHv r fun x => { x with reserved := x.reserved - 1 }

/-- Whether a chunk is its stream's final one, which holds a harvest slot. -/
def State.chunkFinal (s : State) (c : Chunk) : Bool := (s.stream c.idx).position + c.tokens == (s.stream c.idx).promptEnd

/-- A stream taken out of every plan, with its reservations released (R185). -/
def State.unplan (g i : Nat) (s : State) : State :=
  match s.graph? g with
  | none => s
  | some y =>
    let sc := y.sched
    let drop (cs : List (List Chunk)) : List (List Chunk) := cs.map fun c => c.filter (·.idx != i)
    let chunks := (sc.slices ++ (sc.plan.map (·.slices)).getD []).flatten.filter (·.idx == i)
    let n := (chunks.filter s.chunkFinal).length + ((sc.plan.map (·.decode)).getD []).countP (· == i)
    let s1 := s.updSched g fun sc =>
      { sc with
        slices := drop sc.slices
        plan := sc.plan.map fun p => { decode := p.decode.filter (· != i), slices := drop p.slices } }
    (List.range n).foldl (fun s _ => s.releaseSlot (s.stream i).hring) s1

/-! ### Ends -/

/-- A stream ends (R186, R187): it leaves the plans and waits as `ENDING` for its final record; its statistics
are written back (R179). -/
def State.endStream (i status detail : Nat) (s : State) : State :=
  let x := s.stream i
  if x.state == StreamState.free || x.state == StreamState.ending then s
  else
    (((s.unplan x.graph i).freeRuns x.graph i).putStream i
      { x with state := .ending, endDetail := detail, endStatus := status, heldFrom := 0 }).writeStatistics i x

/-- The status of an end that is no failure (R187). -/
def Stream.goodStatus (x : Stream) : Nat := if x.lateSeen then 0x01 else if x.trimmedSeen then 0x02 else stOk

/-- Copies of a stream's pages given up. -/
def State.dropCopies (i : Nat) (s : State) : State :=
  { s with mem := { s.mem with copies := s.mem.copies.filter fun j => match j.owner with | .page _ k _ => k != i | _ => true } }

/-- The destination pages of a stream's moves returned, and the moves given up (R234). -/
def State.dropMoves (g i : Nat) (s0 : State) : State :=
  match s0.graph? g with
  | none => s0
  | some y =>
    let s := s0.dropCopies i
    let s1 := s.updSched g fun sc => { sc with moves := sc.moves.filter (·.1 != i) }
    (y.sched.moves.filter (·.1 == i)).foldl (fun s m => s.freePage g m.2.2.2.2.1 m.2.2.2.2.2) s1

/-- A record freed: its index joins the tail of the free list (R176), its pages return to their pools (R192), and its
statistics are written back (R179). -/
def State.freeStream (i : Nat) (s0 : State) : State :=
  let x := s0.stream i
  let s := s0.dropMoves x.graph i
  let s1 := (s.pagesOf i).foldl (fun s p => s.freePage x.graph p.1 p.2) s
  let s2 := ((s1.setPages i []).writeStatistics i x).writeHalves i x { x with state := .free }
  let s3 := s2.setStream i .free
  { s3 with
    tracker := { s3.tracker with
      freed := s3.tracker.freed ++ [i], cache := s3.tracker.cache.filter (· != i) } }

/-- Indices (R175). -/
def streamCount : Nat := 2097152

/-- The index at the head of the free list (R176): never used in ascending order, then those freed. -/
def State.takeIndex (s : State) : Option (Nat × State) :=
  if s.tracker.fresh < streamCount then
    some (s.tracker.fresh, { s with tracker := { s.tracker with fresh := s.tracker.fresh + 1 } })
  else match s.tracker.freed with
    | [] => none
    | i :: rest => some (i, { s with tracker := { s.tracker with freed := rest } })

/-- The generation that an index takes next (R176). -/
def nextGen (last : Nat) : Nat := if last = 2047 then 1 else last + 1

/-- The live stream that a handle names (R177). -/
def State.byHandle (s : State) (h : Nat) : Option Nat :=
  let i := h % 2 ^ 21
  let x := s.stream i
  if x.state != StreamState.free && x.handle / 2 ^ 21 == h / 2 ^ 21 && h / 2 ^ 21 != 0 then some i else none

/-! ### Deadlines -/

/-- Period length of period `n` in ns (R195). -/
def Sched.lengthNs (sc : Sched) (n : Nat) : Nat :=
  (match sc.newMs.reverse.find? fun e => e.2 ≤ n with
    | some e => e.1
    | none => sc.periodMs) * 1000000

/-- B(nextK + n) of the grid (R195). -/
def Sched.boundaryAfter (sc : Sched) : Nat → Nat
  | 0 => sc.nextB
  | n + 1 => Sched.boundaryAfter sc n + sc.lengthNs (sc.nextK + n)

/-- B(k) for a period from the next one on. -/
def Sched.boundary (sc : Sched) (k : Nat) : Nat := sc.boundaryAfter (k - sc.nextK)

/-- A start deadline (R189). -/
def Sched.startDeadline (sc : Sched) (cls now : Nat) : Nat :=
  let b := sc.policy.start.getD cls 0
  if b = 0 then noDeadline else (now + b * 1000000) % 2 ^ 64

/-- The deadline of a decode stream whose last token came from period `j` (R189). -/
def Sched.tokenDeadline (sc : Sched) (cls j : Nat) : Nat :=
  let b := sc.policy.token.getD cls 0
  if b = 0 then noDeadline else sc.boundary (j + 1 + b) % 2 ^ 64

/-- Periods from the next one on until the last new length applies (R195). -/
def Sched.settled (sc : Sched) : Nat := (sc.newMs.map (·.2)).foldl max sc.nextK - sc.nextK

/-- The first boundary of the grid after an instant (R189): among the periods up to the last new length, and behind them on an
even grid. -/
def Sched.boundaryPast (sc : Sched) (now : Nat) : Nat :=
  match (List.range (sc.settled + 1)).find? fun n => now < sc.boundaryAfter n with
  | some n => sc.boundaryAfter n
  | none =>
    let l := max (sc.lengthNs (sc.nextK + sc.settled)) 1
    let b := sc.boundaryAfter sc.settled
    b + ((now - b) / l + 1) * l

/-- Whether a stream's deadline has passed unmet. -/
def State.overdue (s : State) (i : Nat) : Bool :=
  let x := s.stream i
  x.deadline != noDeadline && cairnBefore x.deadline s.cairn &&
    (x.state == StreamState.pending || x.state == StreamState.decode || x.state == StreamState.held)

/-- A deadline breaks once, and moves on (R189). -/
def State.breakDeadline (i : Nat) (s : State) : State :=
  let x := s.stream i
  match s.graph? x.graph with
  | none => s
  | some y =>
    let b := y.sched.policy.start.getD x.cls 0 * 1000000
    let pend := x.state == StreamState.pending || (x.state == StreamState.held && x.heldFrom == 1)
    let next :=
      if pend then (if b = 0 then noDeadline else x.deadline + (cairnSince x.deadline s.cairn / b + 1) * b)
      else y.sched.boundaryPast s.cairn
    let s1 := s.putStream i
      { x with lateSeen := true, lateMark := true, lateCount := min (x.lateCount + 1) 0xFFFF, deadline := next % 2 ^ 64 }
    (s1.raise 0x1202 x.deadline x.handle x.cls).notify i 0x01 0x0220

end Sys2Proof.Machine
end

