-- ==== Sys2Proof/Machine/TileEvents.lean ====
section
/-! DEFINITION. What happens in a tile besides firing: completions and their checks (R24, R40, R353 to R356), arrivals
(R28, R52 to R58, R152), Summits (R256), the wheel turn (R22, R32), and the Tarn's own events (R109 to R123). -/

namespace Sys2Proof.Machine

/-! ### Firings in flight -/

/-- The firing of a number. -/
def Tile.flight (x : Tile) (id : Nat) : Option Firing := x.run.flights.find? (·.id == id)

/-- A firing changed. -/
def Tile.setFlight (x : Tile) (f : Firing) : Tile :=
  x.updRun fun r => { r with flights := r.flights.map fun g => if g.id = f.id then f else g }

/-- The tag of a firing's step (R130). -/
def Firing.tag (f : Firing) : Nat := outTag f.inputs f.count

/-- A firing with its results and tokens marked poisoned (R40). -/
def Firing.poisoned (f : Firing) : Firing :=
  { f with poison := true, outs := f.outs.map fun o => (o.1, { o.2 with poison := true }) }

/-- A piece put into a firing. -/
def Firing.setPiece (f : Firing) (i : Nat) (p : Piece) : Firing := { f with pieces := f.pieces.set i p }

/-- A piece put back into its firing. -/
def State.putPiece (t id i : Nat) (p : Piece) (s : State) : State :=
  s.updTile t fun x => match x.flight id with
    | none => x
    | some f => x.setFlight (f.setPiece i p)

/-- The piece of a firing. -/
def State.piece? (s : State) (t id i : Nat) : Option Piece := ((s.tile t).flight id).bind fun f => f.pieces[i]?

/-- A piece's state set. -/
def State.setPiece (t id i : Nat) (st : PieceState) (s : State) : State :=
  match s.piece? t id i with
  | none => s
  | some p => s.putPiece t id i { p with state := st }

/-- A status other than `OK` recorded for the step (R50). -/
def Firing.noteStatus (f : Firing) (status addr : Nat) : Firing :=
  if status = stOk then f
  else { f with poison := true, status := if f.status = stOk then status else f.status, failAt := if f.status = stOk then addr else f.failAt }

/-! ### Digests (R365) -/

/-- The flits of a request, for the digest: what its header says, by kind, address and length, and the data (R254). -/
def Piece.flitBytes (p : Piece) : List Byte :=
  let head (k : Nat) : List Byte := toLe 1 k ++ toLe 8 p.addr ++ toLe 4 p.bytes
  match p.kind with
  | .write => head 2 ++ p.data
  | .cast b => head 3 ++ toLe 2 b ++ p.data
  | _ => head 1

/-- Words that a firing writes, and what it sends: its own words, and the requests of its pieces, header flits and read requests
among them. -/
def Firing.wroteBytes (f : Firing) : List Byte :=
  wordBytes (f.writes.map (·.2)) ++ f.pieces.flatMap fun p => if p.kind == PieceKind.read then p.data else []
def Firing.sentBytes (f : Firing) : List Byte := wordBytes f.sent ++ f.pieces.flatMap (·.flitBytes)

/-- The digest of a firing (R365). -/
def Firing.digest (f : Firing) : Nat :=
  let a := f.wroteBytes
  let b := f.sentBytes
  (if a.isEmpty then 0 else crc32c a) + 2 ^ 32 * (if b.isEmpty then 0 else crc32c b)

/-- A digest recorded for verification, where the tile has a shadow or is one (R365). -/
def State.noteDigest (t : Nat) (f : Firing) (s : State) : State :=
  match s.owner t with
  | none => s
  | some (g, v) => s.updGraph g fun y =>
    if y.verify.shadows.any (·.1 == v) then
      { y with verify := { y.verify with seen := y.verify.seen ++ [⟨f.id, v, f.index, f.count, t, f.digest, f.tag⟩] } }
    else y

/-- Results committed and tokens emitted, poisoned where the firing is (R24, R27, R37, R40, R88, R108, R136). -/
def Tile.commit (x : Tile) (f : Firing) : Tile :=
  let x1 := f.writes.foldl (fun x w => x.writeWords w.1 [w.2] f.poison) x
  let x2 := x1.updRun fun r =>
    { r with
      emitted := r.emitted ++ f.outs.map fun o => (o.1, { o.2 with poison := o.2.poison || f.poison })
      flights := r.flights.filter (·.id != f.id)
      banks := r.banks.filter fun e => e.2 != some f.id
      halfHolds := if opCode (x.op f.index) = 0x58 then
          r.halfHolds.erase (bits (x.op f.index) 100 1, none) else r.halfHolds }
  { x2 with
    sregs := f.regs.foldl (fun m r => Tab.put 0 r.1 r.2 m) x2.sregs
    cnt := { x2.cnt with numSat := x2.cnt.numSat.add f.sat, numNan := x2.cnt.numNan.add f.nan } }

/-- The word of a `CHSEND` on its way to the receiver of its route (R52, R54). -/
def State.sendWord (t : Nat) (f : Firing) (s : State) : State :=
  let x := s.tile t
  let w := x.op f.index
  if opCode w = 0x60 && !s.isShadow t then
    let n := bits w 64 6
    let r := Tab.get Route.reset x.cfg.routes n
    { s with
      planes := { s.planes with
        words := s.planes.words ++
          [⟨r.dest, r.chan, t, n, (f.sent.head?).getD 0, f.poison, x.cfg.generation, r.slot, false⟩] } }
  else s

/-- A firing completes. -/
def State.commit (t : Nat) (f : Firing) (s : State) : State :=
  let old := (s.tile t).cnt
  let s1 := s.updTile t (·.commit f)
  let new := (s1.tile t).cnt
  ((((s1.noteSaturated old.numSat new.numSat (1024 + 0x60) t 1).noteSaturated old.numNan new.numNan (1024 + 0x68) t 1).noteDigest
    t f).sendWord t f)

/-! ### Poison -/

/-- Handles of the rows whose page lists hold an address, or of all rows where none does (R356). -/
def State.rowsHolding (s : State) (y : Graph) (b : Batch) (a : Nat) : List Row :=
  match y.serving with
  | none => b.rows
  | some v =>
    let hit := b.rows.filter fun r => (s.pagesOf r.idx).any fun p =>
      let at_ := (v.pools.getD p.1 ⟨0, 0⟩).base + p.2 * v.kvPageBytes
      at_ ≤ a && a < at_ + v.kvPageBytes
    if hit.isEmpty then b.rows else hit

/-- The end or the first retry of a stream whose step drew a remote status (R194). -/
def State.remoteRow (status : Nat) (s : State) (r : Row) : State :=
  if (s.stream r.idx).remoteRetry then s.endStream r.idx status 0
  else
    let k := (((s.graph? (s.stream r.idx).graph).map (·.sched.period)).getD 0) + 1
    s.modStream r.idx fun z => { z with remoteRetry := true, retryFrom := k }

/-- Every stream with a row in the batch ends with `STEP_FAULT`, and the batch has no row left (R100, R356). -/
def State.failStep (g : Nat) (b : Batch) (s : State) : State :=
  (b.rows.foldl (fun s r => s.endStream r.idx stPoisoned 0x0226) s).updSched g fun sc =>
    { sc with batches := sc.batches.map fun c =>
        if c.seq = b.seq && c.kind = b.kind then { c with rows := [], done := true } else c }

/-- The batch that a firing works for (log entry 20). -/
def Graph.batchOfTag (y : Graph) (tag : Nat) : Option Batch :=
  match y.sched.batches.find? fun b => b.seq % 2 ^ 16 == tag with
  | some b => some b
  | none => y.inFlight.head?

/-- A status other than `OK` in a step's integrity record (R50). -/
def State.noteIntegrity (g : Nat) (b : Batch) (status addr : Nat) (s : State) : State :=
  s.updSched g fun sc => { sc with batches := sc.batches.map fun c =>
    if c.seq = b.seq && c.kind = b.kind then { c with integrity := c.integrity ++ [(status, addr)] } else c }

/-- Whether a firing failed by a status under R50: one that a remote target answered, or that stands for want of an
answer. -/
def State.remoteStatus (s : State) (f : Firing) : Bool :=
  f.status != stOk && (s.isFar f.failAt || f.status == stUnreachable || f.status == stWindowClosed)

/-- Passes abandoned for a remote status (R50, R356): the rows it affects, but for those that this step has already removed,
go under R194. -/
def State.remoteFailure (g : Nat) (y : Graph) (b : Batch) (f : Firing) (s : State) : State :=
  let gone := (y.abandon.map (·.removed)).getD []
  let rows := (s.rowsHolding y b f.failAt).filter fun r => !gone.contains r.handle
  (rows.foldl (fun s r => s.remoteRow f.status r) (s.noteIntegrity g b f.status f.failAt)).abandon g 7 (rows.map (·.handle)) []

/-- What a poisoned completion leads to (R355, R356); where an abandonment runs, it starts again with this cause as well (R357). -/
def State.poisonStep (t : Nat) (f : Firing) (s : State) : State :=
  match s.owner t with
  | none => s
  | some (g, _) => match s.graph? g with
    | none => s
    | some y => match y.batchOfTag f.tag with
      | none => s.abandon g 1 [] []
      | some b =>
        if b.done && b.rows.isEmpty then s
        else if f.noReplay then s.failStep g b
        else if s.remoteStatus f then s.remoteFailure g y b f
        else (if f.status = stOk then s else s.noteIntegrity g b f.status f.failAt).abandon g 1 [] []

/-- Whether a tile's slots move words: its compute domain is on and its Tarn ACTIVE (R118). -/
def Tile.lit (x : Tile) : Bool := x.on && x.tarnPower == .active

/-- A firing completes, and poison takes its course. -/
def State.finish (t : Nat) (f : Firing) (s : State) : State :=
  let s1 := s.commit t f
  if f.poison then s1.poisonStep t f else s1

/-! ### Checks -/

/-- A steering fault (R349, R355, R372). -/
def State.steeringFault (t : Nat) (s : State) : State :=
  let s1 := match s.owner t with
    | none => s
    | some (g, _) => s.abandon g 2 [] []
  s1.blame .tile t 1024 0

/-- Whether a failed firing is fired again (R353, R354). -/
def Firing.repeatable (f : Firing) : Bool := f.inputs.all (fun k => !k.2.poison) && f.intact && f.again < 2

/-- A failed engine check (R40, R353, R372). -/
def State.engineFailure (t : Nat) (f : Firing) (s : State) : State :=
  let s1 := s.blame .tile t 32 0
  let s2 := if f.repeatable || f.again < 2 then s1 else s1.blame .tile t 768 0
  if ((s2.tile t).flight f.id).isNone then s2
  else if f.repeatable then s2.updTile t (·.setFlight { f with failed := true })
  else s2.finish t f.poisoned

/-- A parity error on the units that a `CRECV` has taken (R249): on its circuit's route, in one of its slots. -/
def State.circuitParity (t : Nat) (f : Firing) (s : State) : State :=
  match s.graphFor t with
  | none => s
  | some y => match y.image.circuits[bits ((s.tile t).op f.index) 64 16]? with
    | none => s
    | some c => s.splaneParity (routeHops (y.place.getD c.src 320) (y.place.getD c.dst 320)) (maskSlots c.slotMask)

/-- `OPERATION_COMPLETE` (R24, R40, R249, R349, R353). -/
def execOperationComplete (t id : Nat) (chk : Check) (s : State) : Out3 :=
  s.onLive (t < 320)
    (let x := s.tile t
     match x.flight id with
     | none => s
     | some f =>
       let c := opCode (x.op f.index)
       if !x.lit || f.openEnded || f.failed || x.cycle + 8 ≤ f.fire + f.issue + f.depth then s
       else match chk, engineOf c with
         | .pass, _ => s.finish t f
         | .steering, _ => s.steeringFault t
         | .residue, some 3 => s.steeringFault t
         | .residue, some 2 => (if c = 0x57 then s.circuitParity t f else s).finish t f.poisoned
         | .residue, _ => s.engineFailure t f)

/-- Whether every byte of a memory-plane operation has landed or been acknowledged (R48, R256, R260). -/
def Firing.landed (f : Firing) : Bool :=
  f.pieces.all (fun p => p.state == PieceState.landed) && f.acks == 0 && f.rowAcks.isEmpty && f.countAcks.isEmpty

/-- `MEMORY_OPERATION_COMPLETE` (R24, R48, R347): `bad` says that a parity check on the words it moved has failed at a write. -/
def execMemoryOperationComplete (t id : Nat) (s : State) (bad : Bool := false) : Out3 :=
  s.onLive (t < 320)
    (let x := s.tile t
     match x.flight id with
     | none => s
     | some f => if x.lit && f.openEnded && f.landed && f.fire + f.issue < x.cycle + 8 then s.finish t (if bad then f.poisoned else f) else s)

/-- The holds of a repeated firing (R108, R133). -/
def Tile.repeatHolds (x : Tile) (f : Firing) : Tile :=
  let e := (engineOf (opCode (x.op f.index))).getD 0
  let stop := x.cycle + f.issue
  x.updRun fun r =>
    { r with
      engines := Tab.put .reset e ⟨stop, true, stop⟩ r.engines
      halfHolds := r.halfHolds ++ (halvesRead x f.reads).map (fun h => (h, some stop))
      ringHolds := r.ringHolds ++ (addrsRead f.inputs).map (fun a => (a, 0, stop)) }

/-- `LOCAL_REPLAY` (R353, R354): the operation fires again, ahead of every other; where its inputs have gone since the
failure, it completes poisoned. -/
def execLocalReplay (t id : Nat) (u : List Upset) (s0 : State) : Out3 :=
  s0.onLive (t < 320)
    (let s := s0.updTile t (·.upset u)
     let x := s.tile t
     match x.flight id with
     | none => s
     | some f =>
       let e := (engineOf (opCode (x.op f.index))).getD 0
       if !f.failed || x.cycle ≤ f.fire + f.issue + f.depth || (x.engine e).freeAt > x.cycle || (x.engine e).fired || !s.runs t
       then s
       else if !f.intact then s.finish t f.poisoned
       else
         let c := s.context t f.index x f.inputs f.regsAt
         let n := s.makeFiring c.1 (effectOf (opCode c.1.w) c.1 s) c.2.1 c.2.2 (some f)
         let g := { n.1 with id := f.id, count := f.count, first := f.first, again := f.again + 1, intact := f.intact }
         let x1 := ((x.setFlight g).repeatHolds g).updRun fun r => { r with changes := r.changes ++ x.changesBy g }
         let r := x.cnt.integReplay.add 1
         let s1 := s.setTile t { x1 with cnt := { x1.cnt with integReplay := r } }
         let s2 := s1.noteSaturated x.cnt.integReplay r ((Config.freeWord s.draws).toNat % 2 ^ 32) t 1
         ((s2.draw.draw).noteRead t c.2.1).raiseAll n.2)

/-! ### Readiness and arrivals -/

/-- `LOAD_STEP_NOTICE` (R31, R411): the notice goes out, the lead of 128 cycles begins, and the tile's regulator wakes its
phases. -/
def execLoadStepNotice (t k : Nat) (s : State) : Out3 :=
  s.onLive (t < 320 && k < 8192)
    (let x := s.tile t
     let y := x.updEngine 0 fun e => { e with idleSince := x.cycle }
     if s.runs t && engineOf (opCode (x.op k)) == some 0 && x.cycle ≥ (x.engine 0).idleSince + 1024 && x.run.lead.isNone
        && y.fires k then
       let s1 := s.setTile t (x.updRun fun r => { r with lead := some (k, x.cycle + 128) })
       (List.range 8).foldl (fun s p => s.updPhase (t * 8 + p) fun z => { z with shed := false }) s1
     else s)

/-- A schedule fault of a graph (R160, R162): the event, the abandonment, the virtual tiles of the circle to re-place,
and compatibility mode from now on for a native graph. -/
def State.scheduleFault (g : Nat) (circle : List (Nat × Nat)) (s : State) : State :=
  match s.graph? g with
  | none => s
  | some y =>
    let qs := (circle.filter (·.2 < 256)).map fun c => c.1 * 256 + c.2
    let low := if qs.isEmpty then 0 else qs.foldl min (2 ^ 32 - 1)
    let vs := (circle.map fun c => y.place.idxOf c.1).dedup.filter (· < y.place.length)
    let s1 := s.raise 0x1104 g low circle.length
    if y.mode == GraphMode.native then
      (s1.abandon g 3 [] vs).updGraph g fun z => { z with mode := .degraded }
    else s1.abandon g 3 [] []

/-- Whether a token may enter a queue (R162). -/
def queueTakes (c : QueueCfg) (k : Token) : Bool :=
  match k.body with
  | .burgee _ => true
  | .pennant _ => c.pennant
  | _ => !c.pennant

/-- A token on the queue: it counts from the next turn (R28). -/
def Tile.putToken (x : Tile) (q : Nat) (k : Token) : Tile := x.updQueue q fun z => { z with fresh := z.fresh ++ [k] }

/-- The words that a token names, read for its place in a Scree segment (R110, R111, R170). -/
def Tile.tokenWords (x : Tile) (draw : Nat) (k : Token) : ReadRes :=
  match k.body with
  | .data a n => x.readWords draw a n
  | _ => ⟨[], 0, [], []⟩

/-- A token as its Scree segment holds it: with its words, and whether one of them is poisoned (R170). -/
def screeToken (k : Token) (r : ReadRes) : Token × List Word × Bool := (k, r.words, r.poisoned)

/-- 64 KiB units of the Scree region that a segment takes (R171). DESIGN CHOICE (log entry 84): a segment takes 8 bytes for each token
and each word, and how they lie in the region is no part of the model. -/
def Spill.units (p : Spill) : Nat := max 1 (ceilDiv (sumNat (p.toks.map fun k => 8 + 8 * k.2.1.length)) 65536)

/-- Whether the segments of a graph fit its Scree region (R171). -/
def Graph.screeFits (y : Graph) : Bool :=
  sumNat ((y.spills.filter fun p => !y.verify.shadows.any (·.2 == p.tile)).map (·.units)) * 65536 ≤ y.screeBytes

/-- The tokens of a queue's segment. -/
def Graph.segment (y : Graph) (t q : Nat) : List (Token × List Word × Bool) :=
  ((y.spills.find? fun p => p.tile == t && p.queue == q).map (·.toks)).getD []

/-- A queue's segment set; an empty one is gone. -/
def Graph.setSegment (y : Graph) (t q : Nat) (ks : List (Token × List Word × Bool)) : Graph :=
  { y with spills := (y.spills.filter fun p => !(p.tile == t && p.queue == q)) ++ (if ks.isEmpty then [] else [⟨t, q, ks⟩]) }

/-- A graph stopped for want of Scree (R171). -/
def State.stopGraph (g : Nat) (s : State) : State :=
  (s.updGraph g fun y => { y with stopped := true }).raise 0x1106 g 1 0

/-- The tile itself, or its primary where it is a shadow. -/
def State.primaryOf (s : State) (t : Nat) : Nat := match (s.tile t).use with | .shadow p => p | _ => t

/-- Whether a token goes to a queue's Scree segment: while that holds some; at a shadow, whose segment takes what its primary's
takes, also where the primary's holds that token (R170, R393). -/
def State.diverts (s : State) (y : Graph) (t q : Nat) (k : Token) : Bool :=
  let p := s.primaryOf t
  !(y.segment t q).isEmpty || (t != p && (y.segment p q).any (·.1 == k))

/-- A token's arrival on a queue: behind the tokens of its Scree segment while that holds some (R28, R162, R170, R393). -/
def State.arrive (t q : Nat) (k : Token) (s : State) : State :=
  let x := s.tile t
  if !queueTakes (x.qcfg q) k then
    match s.owner t with
    | none => s
    | some (g, _) => s.scheduleFault g [(t, q)]
  else match s.owner t with
    | none => s.updTile t (·.putToken q k)
    | some (g, _) =>
      match s.graph? g with
      | none => s
      | some y =>
        if s.diverts y t q k then
          let r := x.tokenWords s.draws k
          let z := y.setSegment t q (y.segment t q ++ [screeToken k r])
          let s1 := s.updTile t fun x => x.updCredit q fun c => { c with returning := c.returning + 1 }
          let s2 := ((s1.draw).noteRead t r).setGraph g (some z)
          if z.screeFits then s2 else s2.stopGraph g
        else s.updTile t (·.putToken q k)

/-- The first entry of a list that satisfies `p`, and the list without it. -/
def pickFirst {α : Type} (p : α → Bool) : List α → Option (α × List α)
  | [] => none
  | a :: as => if p a then some (a, as) else (pickFirst p as).map fun r => (r.1, a :: r.2)

/-- `TOKEN_ARRIVAL` (R28, R29, R161, R162). -/
def execTokenArrival (t q : Nat) (s : State) : Out3 :=
  s.onLive (t < 320 && q < 256)
    (match pickFirst (·.1 == q) (s.tile t).run.emitted with
     | none => s
     | some (k, rest) => (s.updTile t fun x => x.updRun fun r => { r with emitted := rest }).arrive t q k.2)

/-- `CREDIT_RETURN` (R27, R28). -/
def execCreditReturn (t q : Nat) (s : State) : Out3 :=
  s.onLive (t < 320 && q < 256)
    (if ((s.tile t).credit q).returning = 0 then s
     else s.updTile t fun x => x.updCredit q fun c => { c with returning := c.returning - 1, fresh := c.fresh + 1 })

/-- Entries of the Saddle behind a local channel lane of a sending tile (R245, R262): at most 16, in the order sent; what follows
waits at the sender for a credit. -/
def State.saddle (s : State) (t lane : Nat) : List ChanWord :=
  (s.planes.words.filter fun w => w.src == t && w.srcChan / 16 == lane).take 16

/-- Credits that the sending tile holds for that Saddle: none while either of its islands is dark, and else one for each of the 16
places that is free (R262, R265). -/
def State.saddleCredits (s : State) (t lane : Nat) : Nat :=
  if (s.tile t).on && Tab.get false s.planes.routerOn (t / 16) then 16 - (s.saddle t lane).length else 0

/-- Whether the receive side of a channel route stands ready for a sender of generation `gen` (R55, R165): the receiver works
under that configuration, every sender of the one before has passed, and nothing of the old route, its marker last, is still on
its way. -/
def State.receiveReady (s : State) (y : Graph) (t c gen : Nat) : Bool :=
  (s.tile t).cfg.generation == gen && (s.tile t).run.switchUntil.isNone &&
    s.planes.words.all (fun w => !(w.tile == t && w.chan == c && w.gen != gen)) &&
    y.place.all fun u => !(u < 320 && (s.tile u).cfg.generation != gen &&
      (s.tile u).cfg.routes.any fun r => r.2.enable && r.2.dest == t && r.2.chan == c)

/-- The send sides of a graph that R55 holds and whose receive side now stands ready go on. -/
def State.releaseChannels (g : Nat) (s : State) : State :=
  match s.graph? g with
  | none => s
  | some y => (s.graphTiles g).foldl (fun s t => s.updTile t fun x => x.updRun fun r =>
      { r with channels := r.channels.map fun e =>
          let z := Tab.get Route.reset x.cfg.routes e.1
          if e.2.held && s.receiveReady y z.dest z.chan x.cfg.generation then (e.1, { e.2 with held := false }) else e }) s

/-- A send credit back at a sender that still works under the configuration of a word, and its shadows: it counts from the next
turn (R28, R52). -/
def State.channelCredit (w : ChanWord) (s : State) : State :=
  if (s.tile w.src).cfg.generation != w.gen then s
  else (s.withShadows w.src).foldl (fun s v => s.updTile v fun x => x.updChannel w.srcChan fun h =>
    { h with freshCredits := min (h.freshCredits + 1) (16 - h.credits) }) s

/-- A word taken by its receiver and the receiver's shadows, and the poison of one with a parity error (R40, R52 to R54). -/
def State.takeWord (w : ChanWord) (v : Word) (err : Bool) (s : State) : State :=
  let s1 := (s.withShadows w.tile).foldl (fun s u => s.updTile u fun x => x.updChannel w.chan fun h =>
    { h with recv := h.recv ++ [v], fresh := h.fresh + 1, parityErr := h.parityErr || err }) s
  match err, s1.owner w.tile with
  | true, some (g, _) => s1.abandon g 1 [] []
  | _, _ => s1

/-- `CHANNEL_WORD_ARRIVAL` (R52, R53, R55, R165, R249, R262): the oldest word of the channel's route, out of its Saddle. One with
a parity error sets `PARITY_ERR`, carries no stated value, and poisons its step. A word of another configuration than the
receiver's is not delivered, and its place stands free again; the marker behind the last one opens the new route. -/
def execChannelWordArrival (t c : Nat) (bad : Bool) (s : State) : Out3 :=
  s.onLive (t < 320 && c < 64)
    (match pickFirst (fun w => w.tile == t && w.chan == c) s.planes.words with
     | none => s
     | some (w, rest) =>
       if !(s.saddle w.src (w.srcChan / 16)).contains w || !s.routeLit w.src t || !(s.tile w.src).on || !(s.tile t).on then s
       else
         let s1 := { s with planes := { s.planes with words := rest } }
         let s2 := if bad then s1.draw.splaneParity (routeHops w.src t) [w.slot] else s1
         if !w.marker && w.gen == (s.tile t).cfg.generation then
           s2.takeWord w (if bad then Config.freeWord s.draws else w.word) (bad || w.parity)
         else
           let s3 := if w.marker then s2 else s2.channelCredit w
           match s3.owner t with
           | none => s3
           | some (g, _) => s3.releaseChannels g)

/-! ### Expert dispatch -/

def Tile.dispatch (x : Tile) (q : Nat) : Dispatch := Tab.get .reset x.run.dispatch q
def Tile.setDispatch (x : Tile) (q : Nat) (d : Dispatch) : Tile :=
  x.updRun fun r => { r with dispatch := Tab.put .reset q d r.dispatch }

/-- The map and the expert of a dispatch queue (R131, R151). -/
def State.expertQueue (s : State) (t q : Nat) : Option (Graph × XMap × Expert) :=
  let qc := (s.tile t).qcfg q
  if qc.source ≠ 2 then none
  else match s.graphFor t with
    | none => none
    | some y => match y.image.xmaps[qc.xmap]? with
      | none => none
      | some m => (m.experts[qc.expert]?).map fun e => (y, m, e)

/-- Virtual tiles that dispatch under a map (R57). -/
def Graph.dispatchers (y : Graph) (m : Nat) : List Nat :=
  (y.image.ops.zipIdx.filter fun ov => ov.1.any fun e => opCode e.2.toNat == 0x55 && bits e.2.toNat 112 8 == m).map (·.2)

/-- Whether a message belongs to the step that the queue takes now. -/
def Dispatch.takes (d : Dispatch) (tag : Nat) : Bool := (d.rows == 0 && d.counts.isEmpty) || d.tag == tag

/-- Tokens of the row groups of a closed completion count (R58, R152). -/
def groupTokens (qc : QueueCfg) (cap rows tag : Nat) (poison : Bool) : List Token :=
  let m := max qc.groupRows 1
  let near := min rows cap
  let far := rows - cap
  ((List.range (ceilDiv near m)).map fun i =>
      ⟨.data (qc.bufBase + i * m * qc.bufWords) (min m (near - i * m) * qc.bufWords), tag, poison⟩) ++
    (List.range (ceilDiv far m)).map fun i => ⟨.overflow (i * m) (min m (far - i * m)), tag, poison⟩

/-- Whether the completion count has closed (R57). -/
def Dispatch.closed (d : Dispatch) (from_ : List Nat) : Bool :=
  from_.all (fun t => d.counts.any (·.1 == t)) && d.rows == sumNat (d.counts.map (·.2))

/-- The group tokens placed in one cycle once the completion count closes (R152); a Pennant queue takes none (R162). -/
def State.closeDispatch (t q : Nat) (s : State) : State :=
  match s.expertQueue t q with
  | none => s
  | some (y, _, e) =>
    let x := s.tile t
    let d := x.dispatch q
    if d.counts.isEmpty || !d.closed (y.dispatchers (x.qcfg q).xmap) then s
    else if (x.qcfg q).pennant && d.rows != 0 then s.scheduleFault ((s.owner t).getD (0, 0)).1 [(t, q)]
    else
      let ks := groupTokens (x.qcfg q) e.capacity d.rows d.tag d.poison
      s.setTile t (((ks.foldl (fun x k => x.putToken q k) x).setDispatch q { Dispatch.reset with burgees := d.burgees }).updCredit q
        fun c => { c with held := c.held - ks.length })

/-- Where a dispatch queue places its next row, by arrival order (R57): a word of the input area, or beyond the capacity an
address of the overflow area, marked `true`. -/
def State.rowPlace (s : State) (u q : Nat) : Option (Bool × Nat) :=
  (s.expertQueue u q).map fun k =>
    let qc := (s.tile u).qcfg q
    let n := ((s.tile u).dispatch q).rows
    if n < k.2.2.capacity then (false, qc.bufBase + n * qc.bufWords)
    else (true, (s.constAddr k.1 k.2.2.overflow + (n - k.2.2.capacity) * k.2.1.rowBytes) % 2 ^ 60)

/-- The global address of a Tarn word (R219). -/
def State.tarnAddr (s : State) (t a : Nat) : Nat := 2 ^ 59 + s.fabric.id * 2 ^ 44 + t * 2 ^ 23 + 8 * a

/-- The address at which a row's place breaks R47 or R218, where it does (R142, R150). -/
def State.rowFault (s : State) (u q bytes : Nat) : Option Nat :=
  match s.rowPlace u q with
  | none => none
  | some (false, a) => if a % 8 = 0 then none else some (s.tarnAddr u a)
  | some (true, a) => if s.addrOk a bytes then none else some a

/-- A row written to an overflow area, with the status of the write; the module area takes none (R223). -/
def State.overflowWrite (a : Nat) (m : RowMsg) (s : State) : State × Nat :=
  match s.locate a with
  | .hbm off => if off + m.data.length ≤ moduleArea then s.write a m.data m.poison else (s, stNotPermitted)
  | .tarn _ _ => (s, stNotPermitted)
  | _ => s.write a m.data m.poison

/-- The status with which a row's place takes it (R150, R260). -/
def State.rowStatus (s : State) (u q : Nat) (m : RowMsg) : Nat × Nat :=
  match s.rowPlace u q with
  | some (true, a) => ((s.overflowWrite a m).2, a)
  | _ => (stOk, 0)

/-- A row placed by its arrival order: the input area, or the overflow area beyond the capacity (R57). No word goes to the
tile window (R107); a row that is `lost` counts, with its mark, and moves nothing (R142). -/
def State.placeRow (q : Nat) (m : RowMsg) (lost : Bool) (s : State) (u : Nat) : State :=
  match s.rowPlace u q with
  | none => s
  | some p =>
    let d := (s.tile u).dispatch q
    let d1 := { d with tag := m.tag, rows := d.rows + 1, slots := d.slots ++ [(m.slot, m.rank)], poison := d.poison || lost }
    let s1 := s.updTile u fun x => x.setDispatch q d1
    if lost then s1
    else if !p.1 then s1.updTile u fun x => x.writeBeside p.2 ((bytesToWords m.data).take (x.window - p.2)) m.poison
    else if s.isShadow u then s1
    else (s1.overflowWrite p.2 m).1

/-- One acknowledgement of a dispatched row, with the poison mark where `poison` says so (R260, R261). -/
def Tile.ackRow (x : Tile) (m : RowMsg) (poison : Bool) : Tile :=
  match x.flight m.firing with
  | none => x
  | some f =>
    let g := if poison then f.poisoned else f
    x.setFlight { g with rowAcks := f.rowAcks.erase (m.slot, m.rank) }

/-- The acknowledgement of a row whose place answered a status other than `OK` (R50). -/
def Tile.failRow (x : Tile) (m : RowMsg) (status addr : Nat) : Tile :=
  match x.flight m.firing with
  | none => x
  | some f => x.setFlight { f.poisoned with
      rowAcks := f.rowAcks.erase (m.slot, m.rank), status := if f.status = stOk then status else f.status
      failAt := if f.status = stOk then addr else f.failAt }

/-- The acknowledgement of a row whose place broke R47 or R218 (R142): the step is not replayed. -/
def Tile.faultRow (x : Tile) (m : RowMsg) : Tile :=
  match x.flight m.firing with
  | none => x
  | some f => x.setFlight { f.poisoned with rowAcks := f.rowAcks.erase (m.slot, m.rank), noReplay := true }

/-- A row that reaches its dispatch queue: placed there and in the tile's shadows, and acknowledged. -/
def State.landRow (t q : Nat) (m : RowMsg) (s : State) : State :=
  match s.rowFault t q m.data.length with
  | some a =>
    let s1 := (s.withShadows t).foldl (State.placeRow q m true) s
    let k := ((s.tile m.src).flight m.firing).elim 0 (·.index)
    (s1.updTile m.src (·.faultRow m)).raise 0x1102 a (tg m.src ((s.owner m.src).getD (0, 0)).1) k
  | none =>
    let r := s.rowStatus t q m
    let s1 := (s.withShadows t).foldl (State.placeRow q m (r.1 != stOk)) s
    s1.updTile m.src fun x => if r.1 = stOk then x.ackRow m false else x.failRow m r.1 r.2

/-- The acknowledgement of a count record, with the poison mark where `poison` says so (R260, R261). -/
def Tile.ackCount (x : Tile) (m : CountMsg) (poison : Bool) : Tile :=
  match m.firing.bind x.flight with
  | none => x
  | some f => x.setFlight { (if poison then f.poisoned else f) with countAcks := f.countAcks.erase m.expert }

/-- A row bound for a fenced tile, dropped at its leaf (R261). -/
def State.dropRow (t : Nat) (s : State) : State :=
  match pickFirst (fun m : RowMsg => m.tile == t) s.planes.rows with
  | none => s
  | some (m, rest) => ({ s with planes := { s.planes with rows := rest } } : State).updTile m.src (·.ackRow m true)

/-- A count record bound for a fenced tile, dropped at its leaf (R261). -/
def State.dropCount (t : Nat) (s : State) : State :=
  match pickFirst (fun m : CountMsg => m.tile == t) s.planes.counts with
  | none => s
  | some (m, rest) => ({ s with planes := { s.planes with counts := rest } } : State).updTile m.src (·.ackCount m true)

/-- Copies of one packet. -/
def RowMsg.sameAs (m n : RowMsg) : Bool := m.src == n.src && m.firing == n.firing && m.slot == n.slot && m.rank == n.rank
def CountMsg.sameAs (m n : CountMsg) : Bool :=
  m.src == n.src && m.xmap == n.xmap && m.expert == n.expert && m.tag == n.tag && m.burgee == n.burgee && m.firing == n.firing

/-- Whether a copy waits in a router's buffer for a branch. -/
def Way.holds (w : Way) (dst r b : Nat) : Bool := w.stand == some (.held r) && branchOf r dst == b

/-- The copies of a row, or of a count record, changed. -/
def State.mapRows (m : RowMsg) (f : RowMsg → RowMsg) (s : State) : State :=
  { s with planes := { s.planes with rows := s.planes.rows.map fun n => if m.sameAs n then f n else n } }
def State.mapCounts (m : CountMsg) (f : CountMsg → CountMsg) (s : State) : State :=
  { s with planes := { s.planes with counts := s.planes.counts.map fun n => if m.sameAs n then f n else n } }

/-- A copy that has come to stand on its way, in its packet's knowledge of the up-link. -/
def Way.stop (w : Way) (u : Nat) (mine : Bool) (c : CopyState) : Way :=
  { w with up := some u, stand := if mine then some c else w.stand }

/-- Copies of multicast packets, rows and count records that wait at the input of a router taken into its buffer while it has room:
first those of tiles, by tile, firing and request, then rows and count records in the order sent. -/
def State.admitCopies (r : Nat) (s : State) : State :=
  let at_ : List (Nat × Nat × Nat) := s.tiles.flatMap fun e => e.2.run.flights.flatMap fun f => f.pieces.zipIdx.filterMap fun pi =>
    if pi.1.copies.any fun c => (match c.2.2 with | .atInput q _ => q == r | _ => false) then some (e.1, f.id, pi.2) else none
  let mine (c : CopyState) : Bool := match c with | .atInput q _ => q == r | _ => false
  let s1 := at_.foldl (fun s k => match s.piece? k.1 k.2.1 k.2.2 with
    | none => s
    | some p =>
      let n := ((p.copies.filter fun c => mine c.2.2).map fun c => branchOf r c.1).dedup.length
      if s.copiesAt r + n ≤ 64 then
        s.putPiece k.1 k.2.1 k.2.2 { p with copies := p.copies.map fun c => if mine c.2.2 then (c.1, c.2.1, .held r) else c }
      else s) s
  let s2 := s.planes.rows.foldl (fun s m =>
    if m.way.stand.any mine && s.copiesAt r < 64 then
      s.mapRows m fun n => if n.way.stand.any mine then { n with way := { n.way with stand := some (.held r) } } else n
    else s) s1
  s.planes.counts.foldl (fun s m =>
    if m.way.stand.any mine && s.copiesAt r < 64 then
      s.mapCounts m fun n => if n.way.stand.any mine then { n with way := { n.way with stand := some (.held r) } } else n
    else s) s2

/-- The router at which a copy waits. -/
def Way.router (w : Way) : Option Nat := w.stand.bind fun c => match c with | .held r => some r | .atInput r _ => some r | _ => none

/-- The place that a copy has left, given to one that waits at the router's input. -/
def State.leaveRouter (w : Way) (s : State) : State := w.router.elim s fun r => s.admitCopies r

/-- Whether a dispatched row is among the 512 requests that its sender keeps outstanding (R47). -/
def State.rowMayGo (s : State) (m : RowMsg) : Bool :=
  let ahead := (s.planes.rows.takeWhile fun n => n != m).filter fun n => n.src == m.src
  ((ahead ++ [m]).map fun n => (n.firing, n.slot, n.rank)).dedup.length * ceilDiv m.data.length 256 + (s.tile m.src).asked ≤ 512

/-- A row that reaches tile `t`: marked, placed and acknowledged, with what the other copies of it know of the way (R252, R254,
R260). -/
def State.rowArrives (t q u : Nat) (m : RowMsg) (rest : List RowMsg) (bad : Option Nat) (back : List Nat) (s : State) : State :=
  let hit := m.way.hit m.src u t bad
  let mark (n : RowMsg) : RowMsg :=
    { n with poison := n.poison || hit.any (castLinks m.src u n.tile).contains, way := n.way.after m.src u t }
  let s1 := State.mapRows m mark { s with planes := { s.planes with rows := rest } }
  let s2 := (s1.landRow t q { m with poison := m.poison || hit.isSome }).updOut (0x1000 + t) (LinkOut.bulk (packetFlits m.data.length))
  let s3 := (s2.ackRise t m.src back).leaveRouter m.way
  ((s3.withShadows t).foldl (fun s u => s.closeDispatch u q) s3).parityOf hit

/-- `EXPERT_ROW_ARRIVAL` (R47, R57, R252, R254, R255, R258 to R261): the copy of the oldest row for tile `t` goes on its way, to its
dispatch queue or to a branch that has no credit, where it waits. `bad` names a link with a parity error on the way, `busy` the
up-links of the sender's leaf without a credit, `held` the branches without one, and `back` the links without one for the
acknowledgement. -/
def execExpertRowArrival (t q : Nat) (s : State) (bad : Option Nat := none) (busy : List Nat := []) (held : List (Nat × Nat) := [])
    (back : List Nat := []) : Out3 :=
  s.onLive (t < 320 && q < 256 && bad.all linkOk)
    (let x := s.tile t
     let qc := x.qcfg q
     if x.fenced then s.dropRow t
     else if (s.expertQueue t q).isNone || !x.lit then s
     else match pickFirst (fun m => m.tile == t && m.xmap == qc.xmap && m.expert == qc.expert && m.gen == x.cfg.generation
           && (x.dispatch q).takes m.tag && s.rowMayGo m)
         s.planes.rows with
       | none => s
       | some (m, rest) => match s.riseUp m.src t m.way busy with
         | none => s
         | some u =>
           if !s.riseMay m.src u m.way then s
           else
             let s1 := s.rise m.src u (packetFlits m.data.length) m.way
             match s1.standsAt m.src u t m.way held fun r b => s.planes.rows.any fun n => m.sameAs n && n.way.holds n.tile r b with
             | some c => s1.mapRows m fun n => { n with way := n.way.stop u (n.tile == t) c }
             | none =>
               if !(s1.out (0x1000 + t)).bulkMay || (s1.ackUp t m.src back).isNone then s
               else s1.rowArrives t q u m rest bad back)

/-- A count record or a Burgee record taken by a dispatch queue (R56, R169): the Burgee token enters the queue with the
last one. -/
def State.takeCount (q : Nat) (m : CountMsg) (s : State) (u : Nat) : State :=
  match s.expertQueue u q with
  | none => s
  | some (y, _, _) =>
    let x := s.tile u
    let d := x.dispatch q
    match m.burgee with
    | none => s.setTile u (x.setDispatch q
        { d with tag := m.tag, counts := d.counts ++ [(m.vtile, m.count)], poison := d.poison || m.poison })
    | some gen =>
      let b := d.burgees ++ [m.vtile]
      if (y.dispatchers (x.qcfg q).xmap).all b.contains then
        s.setTile u ((x.setDispatch q { d with burgees := [] }).putToken q ⟨.burgee gen, 0, false⟩)
      else s.setTile u (x.setDispatch q { d with burgees := b })

/-- A count record that reaches tile `t`. -/
def State.countArrives (t q u : Nat) (m : CountMsg) (rest : List CountMsg) (bad : Option Nat) (back : List Nat) (s : State) : State :=
  let hit := m.way.hit m.src u t bad
  let mark (n : CountMsg) : CountMsg :=
    { n with poison := n.poison || hit.any (castLinks m.src u n.tile).contains, way := n.way.after m.src u t }
  let s1 := State.mapCounts m mark { s with planes := { s.planes with counts := rest } }
  let n := { m with poison := m.poison || hit.isSome }
  let s2 := ((s1.withShadows t).foldl (fun s u => s.takeCount q n u) s1).updOut (0x1000 + t) (LinkOut.bulk 1)
  let s3 := ((s2.updTile m.src (·.ackCount m false)).ackRise t m.src back).leaveRouter m.way
  ((s3.withShadows t).foldl (fun s u => s.closeDispatch u q) s3).parityOf hit

/-- `EXPERT_COUNT_RECORD` (R57, R58, R152, R169, R252, R254, R255, R258 to R261), with the operands of `EXPERT_ROW_ARRIVAL`. -/
def execExpertCountRecord (t q : Nat) (s : State) (bad : Option Nat := none) (busy : List Nat := [])
    (held : List (Nat × Nat) := []) (back : List Nat := []) : Out3 :=
  s.onLive (t < 320 && q < 256 && bad.all linkOk)
    (let x := s.tile t
     let qc := x.qcfg q
     if x.fenced then s.dropCount t
     else if (s.expertQueue t q).isNone then s
     else match pickFirst (fun m => m.tile == t && m.xmap == qc.xmap && m.expert == qc.expert && m.gen == x.cfg.generation
           && (m.burgee.isSome || (x.dispatch q).takes m.tag)) s.planes.counts with
       | none => s
       | some (m, rest) => match s.riseUp m.src t m.way busy with
         | none => s
         | some u =>
           if !s.riseMay m.src u m.way then s
           else
             let s1 := s.rise m.src u 1 m.way
             match s1.standsAt m.src u t m.way held fun r b => s.planes.counts.any fun n => m.sameAs n && n.way.holds n.tile r b with
             | some c => s1.mapCounts m fun n => { n with way := n.way.stop u (n.tile == t) c }
             | none =>
               if !(s1.out (0x1000 + t)).bulkMay || (s1.ackUp t m.src back).isNone then s
               else s1.countArrives t q u m rest bad back)

/-! ### Summits -/

/-- The module Bunting, the members and the virtual tile of a `SUMMIT` in flight (R256). -/
def State.summitOf (s : State) (t : Nat) (f : Firing) : Option (Nat × List Nat × Nat) :=
  match s.owner t, s.graphFor t with
  | some (_, v), some y =>
    let b := bits ((s.tile t).op f.index) 96 10
    if opCode ((s.tile t).op f.index) = 0x65 then some (y.buntings.getD b 0, y.image.buntings.getD b [], v) else none
  | _, _ => none

/-- The sequence number a `SUMMIT` carries. -/
def Firing.summitSeq (f : Firing) : Nat := ((f.sent.head?).getD 0).toNat

/-- Whether an arrive closes the count of its Summit, and the counters after it. A counter keeps its counts until they close; a
tile has at most four Summits outstanding, so no Bunting needs more than its four counts (R256). -/
def countArrive (spine b seq v : Nat) (poison : Bool) (members : List Nat) (cs : List Summit) : Summit × Bool × List Summit :=
  let old := (cs.find? fun c => c.bunting == b && c.seq == seq).getD ⟨spine, b, seq, [], false⟩
  let new : Summit :=
    { old with arrived := if old.arrived.contains v then old.arrived else old.arrived ++ [v], poison := old.poison || poison }
  let rest := cs.filter fun c => !(c.bunting == b && c.seq == seq)
  if members.all new.arrived.contains then (new, true, rest) else (new, false, rest ++ [new])

/-- Physical tiles of a Summit's members, their shadows among them. -/
def State.summitTiles (s : State) (t : Nat) (ms : List Nat) : List Nat :=
  match s.graphFor t with
  | none => []
  | some y => ((ms.map fun v => y.place.getD v 320).filter (· < 320)).flatMap s.withShadows

/-- An arrive flit reaches its counter, which sends the release flits once every member has arrived (R256). -/
def State.arriveAt (t : Nat) (f : Firing) (b v : Nat) (ms : List Nat) (poison : Bool) (s : State) : State :=
  let r := countArrive (summitSpine b (s.summitTiles t ms)) b f.summitSeq v poison ms s.planes.summits
  let s1 := { s with planes := { s.planes with summits := r.2.2 } }
  if r.2.1 then s1.sendReleases b f.summitSeq r.1.poison (s.summitTiles t ms) else s1

/-- `SUMMIT_ARRIVE` (R254 to R256): the flit crosses its leaf's up-link to the counter, or, where it still waits on the link from its
tile, takes a place at the leaf that has come free. -/
def execSummitArrive (t id : Nat) (s : State) (bad : Option Nat := none) : Out3 :=
  s.onLive (t < 320 && bad.all linkOk)
    (match (s.tile t).flight id, s.findArrive t id with
     | some f, some l => match s.summitOf t f with
       | none => s
       | some (b, ms, v) =>
         if 0x2000 ≤ l then
           if (s.arriveLink t b).isNone then s else (s.updOut l (·.pass (.arrive t id))).sendArrive t id b
         else
           let hit := bad.filter (arriveWay t l (summitSpine b (s.summitTiles t ms))).contains
           ((s.updOut l (·.pass (.arrive t id))).arriveAt t f b v ms hit.isSome).parityOf hit
     | _, _ => s)

/-- The release flit of a Summit that waits at a tile's down-link. -/
def LinkOut.releaseFor (o : LinkOut) (b seq : Nat) : Option (CtrlFlit × Bool) :=
  o.waiting.findSome? fun f => match f with
    | .release c n p => if c = b && n = seq then some (f, p) else none
    | _ => none

/-- `SUMMIT_RELEASE` (R254 to R256). -/
def execSummitRelease (t id : Nat) (s : State) (bad : Option Nat := none) : Out3 :=
  s.onLive (t < 320 && bad.all linkOk)
    (match (s.tile t).flight id with
     | none => s
     | some f => match s.summitOf t f with
       | none => s
       | some (b, ms, _) => match (s.out (0x1000 + t)).releaseFor b f.summitSeq with
         | none => s
         | some (k, p) =>
           if (s.tile t).lit && f.fire + f.issue < (s.tile t).cycle + 8 then
             let g := { f with acks := 0 }
             let hit := bad.filter (releaseWay t (summitSpine b (s.summitTiles t ms))).contains
             let s1 := s.updOut (0x1000 + t) (·.pass k)
             (s1.finish t (if p || hit.isSome then g.poisoned else g)).parityOf hit
           else s)

/-! ### The wheel turn -/

/-- A new turn begins: engines may fire again, what arrived in the last turn counts, and holds that have ended go
(R22, R28, R108, R133). -/
def Tile.nextTurn (x : Tile) : Tile :=
  let y := { x with cycle := x.cycle + 8 }
  y.updRun fun r =>
    { r with
      engines := r.engines.map fun e => (e.1, { e.2 with fired := false })
      queues := r.queues.map fun e => (e.1, { e.2 with toks := e.2.toks ++ e.2.fresh, fresh := [] })
      credits := r.credits.map fun e => (e.1, { e.2 with held := e.2.held + e.2.fresh, fresh := 0 })
      channels := r.channels.map fun e =>
        (e.1, { e.2 with fresh := 0, credits := e.2.credits + e.2.freshCredits, freshCredits := 0 })
      halfHolds := r.halfHolds.filter fun h => match h.2 with | none => true | some c => y.cycle < c
      ringHolds := r.ringHolds.filter fun h => y.cycle < h.2.2 }

/-- The stalls of one engine in this turn: input, output, engine (R32). -/
def Tile.stallKinds (x : Tile) (e : Nat) : List Nat :=
  let ws := (x.opsOf e).map x.waits
  let inp := ws.any (·.forInput)
  let out := ws.any (·.forCredit)
  let eng := ws.any (·.forEngine) || ws.countP (·.ready) > 1
  (if inp then [3 * e] else []) ++ (if out then [3 * e + 1] else []) ++ if eng then [3 * e + 2] else []

/-- Whether an operation of a tile waits for a connection to another module (R293). -/
def State.awaitsConn (s : State) (t : Nat) : Bool :=
  (s.tile t).run.flights.any (fun f => f.pieces.any fun p => match p.state with | .unconnected _ => true | _ => false) ||
    s.fabric.send.any fun e => e.2.inUse && !e.2.opened && e.2.waiting.any fun o => !o.answered &&
      (match o.who with | .piece u _ _ => u == t | .copy _ => false)

/-- The stalls of a tile's engines in this turn: a wait for a connection counts as one of the stream engine itself (R32, R293). -/
def State.stallsOf (s : State) (t : Nat) : List Nat :=
  ([0, 1, 2, 3].flatMap (s.tile t).stallKinds ++ (if s.awaitsConn t then [8] else [])).dedup

/-- Queues on whose tokens, or credits, alone an operation waits (R173). -/
def Tile.emptyQueues (x : Tile) : List Nat :=
  (((opIndices x.cfg.ops x.cfg.opWords 0).map x.waits).filterMap fun w =>
    if w.forInput && w.inputs.dedup.length = 1 then w.inputs.head? else none).dedup.filter (· < 256)
def Tile.fullQueues (x : Tile) : List Nat :=
  (((opIndices x.cfg.ops x.cfg.opWords 0).map x.waits).filterMap fun w =>
    if w.forCredit && w.credits.length = 1 then w.credits.head? else none).dedup.filter (· < 256)

/-- One count on each of some counters, with their saturations. -/
def State.countAll (t : Nat) (sel : TileCounters → Tab Counter) (put : TileCounters → Tab Counter → TileCounters)
    (offset : Nat → Nat) (ks : List Nat) (s : State) : State :=
  ks.foldl (fun s k =>
    let c := (s.tile t).cnt
    let old := Tab.get .reset (sel c) k
    let new := old.add 1
    (s.updTile t fun x => { x with cnt := put c (Tab.put .reset k new (sel c)) }).noteSaturated old new (offset k) t 1) s

/-- The wait edges of a tile as this turn finds them (R160, R382): one that stood before keeps its beginning. -/
def State.noteWaits (t : Nat) (s : State) : State :=
  let x := s.tile t
  let peers (q : Nat) : List Nat := if q < 256 then [t] else match s.graphFor t with
    | none => [t]
    | some y => y.place.filter (· < 320)
  let edge (q : Nat) : WaitEdge := (x.run.waiting.find? fun e => e.queue == q).getD
    ⟨q, (peers q).map fun u => (u, (s.tile u).cycle)⟩
  s.updTile t fun x => x.updRun fun r =>
    { r with waiting := if s.runs t && !s.isShadow t then x.waitQueues.map edge else [] }

/-- `WHEEL_TURN` (R22, R32, R103, R160, R173). -/
def execWheelTurn (t : Nat) (s0 : State) : Out3 :=
  s0.onLive (t < 320)
    (let s := ((s0.seeChanges t).updTile t (·.nextTurn)).noteWaits t
     let x := s.tile t
     let obs := match s.owner t with
       | none => false
       | some (g, _) => match s.graph? g with
         | none => false
         | some y => (y.viewOf x).image.obsMode == 1
     if obs && s.runs t then
       let s1 := s.countAll t (·.stalls) (fun c m => { c with stalls := m }) (fun k => 1024 + 8 * k)
         (s.stallsOf t)
       let s2 := s1.countAll t (·.empty) (fun c m => { c with empty := m }) (fun q => 1024 + 0x80 + 8 * q) x.emptyQueues
       s2.countAll t (·.full) (fun c m => { c with full := m }) (fun q => 1024 + 0x880 + 8 * q) x.fullQueues
     else s)

/-! ### Abandonment -/

/-- Credits and channels as the configuration takes effect (R25, R52, R165). -/
def TileCfg.credits (c : TileCfg) : Tab Credit :=
  c.queues.filterMap fun e => if e.2.depth = 0 then none else some (e.1, ⟨e.2.depth, 0, 0⟩)
def freshChannels (old : Tab Channel) : Tab Channel :=
  (List.range 64).map fun n => (n, ⟨[], 0, 16, 0, (Tab.get .reset old n).parityErr, false⟩)

/-- Channels of a unit that passes a Burgee: 16 credits on each, no word of the configuration before, and the send sides held
until their receive sides stand ready (R52, R55). -/
def Tile.passChannels (x : Tile) (routes : Tab Route) : Tab Channel :=
  (freshChannels x.run.channels).map fun e => (e.1, { e.2 with held := (Tab.get Route.reset routes e.1).enable })

/-- The execution state just after binding (R357). -/
def Tile.boundRun (x : Tile) (c : TileCfg) : TileRun :=
  { TileRun.reset with
    credits := c.credits, channels := freshChannels x.run.channels, nextId := x.run.nextId
    engines := x.run.engines.map fun e => (e.1, ⟨min e.2.freeAt x.cycle, false, min e.2.idleSince x.cycle⟩) }

/-- A tile returned to its state just after binding: a unit that had switched runs the old configuration again where a
pass of it is abandoned (R357, R360), and one that is switching goes on with its switch and the clearing. -/
def Tile.toBound (x : Tile) (back : Bool) : Tile :=
  match back && x.run.burgeePassed, x.staged with
  | true, some old => { x with cfg := old, staged := some x.cfg, run := x.boundRun old }
  | _, _ =>
    let r := x.boundRun x.cfg
    { x with run := { r with
        burgeePassed := x.run.burgeePassed, switchUntil := x.run.switchUntil, clearFrom := x.run.clearFrom
        credits := if x.run.switchUntil.isSome then [] else r.credits } }

/-- What is in flight for a tile leaves the planes and its outstanding requests (R357). -/
def State.dropFlights (t : Nat) (s : State) : State :=
  { s with
    planes := { s.planes with
      words := s.planes.words.filter fun w => w.tile != t && w.src != t
      rows := s.planes.rows.filter fun m => m.tile != t && m.src != t
      counts := s.planes.counts.filter fun m => m.tile != t && m.src != t }
    fabric := { s.fabric with
      send := s.fabric.send.map fun e => (e.1, { e.2 with waiting := e.2.waiting.map fun o =>
        match o.who with
        | .piece u _ _ => if u = t then { o with answered := true } else o
        | .copy _ => o }) } }

/-- The instant from which no remote write of a tile is applied any more: 1.1 ms after the last transmission of one (R283, R357). -/
def State.writesUntil (s : State) (t : Nat) : Nat :=
  (s.fabric.send.flatMap fun e => e.2.waiting.filterMap fun o => match o.who with
    | .piece u _ _ => if u = t && o.packet.kind == 0x02 && !o.answered && o.sends != 0 then some (o.sentAt + 1100000) else none
    | .copy _ => none).foldl max 0

/-- Firings of a tile whose writes have drawn a status other than `OK`, which has not come back to the tile, with that status. -/
def Tile.failedWrites (x : Tile) : List Firing :=
  x.run.flights.filterMap fun f => (f.pieces.findSome? fun p => match p.kind, p.state with
    | .write, .served _ _ st => if st = stOk then none else some (st, p.addr)
    | _, _ => none).map fun e => (f.noteStatus e.1 e.2).poisoned

/-- Whether an abandoned pass ran under the configuration before a staged change (R360). -/
def Graph.oldPass (y : Graph) : Bool := y.change.isSome && y.inFlight.any fun b => b.generation == y.generation

/-- `ABANDON_FLIT` (R357, R386): the tile stops, discards the graph's state, and returns to its state just after binding; a write of
it that has failed is a cause of its own. -/
def execAbandonFlit (t : Nat) (s : State) : Out3 :=
  s.onLive (t < 320)
    (match s.owner t with
     | none => s
     | some (g, _) => match s.graph? g with
       | none => s
       | some y => match y.abandon with
         | none => s
         | some a =>
           if !a.toStop.contains t then s
           else
             let s1 := (s.updTile t (·.toBound y.oldPass)).dropFlights t
             let s2 := s1.setGraph g (some { y with
               abandon := some { a with toStop := a.toStop.filter (· != t), until_ := max a.until_ (s.writesUntil t) }
               spills := y.spills.filter (·.tile != t) })
             (s.tile t).failedWrites.foldl (fun s f => s.poisonStep t f)
               (State.dropFlits t y.buntings
                 { s2.updTile t (fun x => x.updRun fun r => { r with stopped := true }) with
                   planes := { s2.planes with summits := s2.planes.summits.filter fun c => !y.buntings.contains c.bunting } }))

/-! ### The Tarn -/

/-- Whether the steering unit uses slot 8 for the Tarn in this turn (R115). -/
def Tile.steeringAccess (x : Tile) : Bool :=
  x.run.flights.any fun f => f.fire == x.cycle && opCode (x.op f.index) == 0x63 &&
    (bits (x.op f.index) 85 4 == 11 || bits (x.op f.index) 85 4 == 12)

/-- Words of a run that a read finds corrected, with their corrected data. -/
def Tile.correctedWords (x : Tile) (a n : Nat) : List (Nat × Word) :=
  (List.range n).filterMap fun i =>
    let v := Tab.get .zero x.tarn (a + i)
    if readKind (x.window ≤ a + i) v = .corrected then some (a + i, v.data) else none

/-- `TARN_PATROL_READ` (R111, R115): one run of a row, at most once every 64 turns, with the write-back of the last run behind
it. -/
def execTarnPatrolRead (t : Nat) (u : List Upset) (s0 : State) : Out3 :=
  s0.onLive (t < 320)
    (let s := s0.updTile t (·.upset u)
     let x := s.tile t
     let turn := x.cycle / 8 + 1
     if x.tarnPower != TarnPower.active || x.steeringAccess || (x.patrolTurn != 0 && turn < x.patrolTurn + 64)
         || !x.patrolBack.isEmpty then s
     else
       let a := x.patrolRow * 256
       let r := x.readWords s.draws a 256
       ((s.setTile t
         { x with
           patrolRow := (x.patrolRow + 1) % 3072, patrolTurn := turn
           patrolBack := x.patrolBack ++ x.correctedWords a 256 }).draw).noteRead t r)

/-- `TARN_PATROL_WRITE_BACK` (R115, R116): words that no newer write has reached, in a later turn than the read. -/
def execTarnPatrolWriteBack (t : Nat) (s : State) : Out3 :=
  s.onLive (t < 320)
    (let x := s.tile t
     if x.tarnPower != TarnPower.active || x.steeringAccess || x.cycle / 8 + 1 ≤ x.patrolTurn then s
     else s.setTile t (x.patrolBack.foldl (fun y p => y.writeWords p.1 [p.2] false) x))

/-- `CH_COUNT` and `CH_ROUTE` of a channel (R54). -/
def Tile.chCount (x : Tile) (n : Nat) : Nat :=
  let c := x.channel n
  c.recv.length % 32 + 2 ^ 8 * ((c.credits + c.freshCredits) % 32) + 2 ^ 16 * b2n c.parityErr
def Tile.chRoute (x : Tile) (n : Nat) : Nat :=
  let r := Tab.get Route.reset x.cfg.routes n
  r.dest % 512 + 2 ^ 9 * (r.chan % 64) + 2 ^ 15 * (r.slot % 16) + 2 ^ 19 * b2n r.enable

/-- The message-channel registers, in the order of R453. -/
def Tile.channelBlock (x : Tile) : List Byte :=
  toLe 8 x.chReady.toNat ++ toLe 8 x.chSpace.toNat ++ (List.range 64).flatMap (fun n => toLe 4 (x.chCount n)) ++
    (List.range 64).flatMap fun n => toLe 4 (x.chRoute n)

/-- The code of `PWR_STATE`. -/
def TarnPower.code : TarnPower → Nat
  | .active => 0 | .retain => 1 | .off => 2

/-- Whether a clearing under R109 runs: at binding, or in a switch that changes the region count. -/
def Tile.clearingNow (x : Tile) : Bool :=
  x.clearing || (x.run.switchUntil.isSome && x.run.clearFrom.any fun n => n != x.cfg.layerUnits)

/-- `TARN_CFG` and `TARN_ERR_ADDR`. -/
def Tile.tarnCfg (x : Tile) : Nat := x.cfg.layerUnits % 128 + 2 ^ 8 * x.tarnPower.code + 2 ^ 10 * b2n x.clearingNow
def TarnErr.word32 (e : TarnErr) : Nat := e.word % 2 ^ 20 + 2 ^ 20 * (e.kind % 4) + 2 ^ 22 * b2n e.valid

/-- The Tarn registers as a block of 64 bytes (R340). -/
def Tile.tarnBlock (x : Tile) : List Byte :=
  toLe 4 x.tarnCfg ++ toLe 4 x.tarnErr.word32 ++ toLe 8 x.cnt.tarnCe.word ++ toLe 8 x.cnt.tarnUe.word ++
    toLe 8 x.cnt.tarnPoison.word ++ toLe 8 x.cnt.tarnCrcReload.word ++ List.replicate 24 0

/-- The observation block of a tile (R173). -/
def TileCounters.block (c : TileCounters) : List Byte :=
  let w (x : Counter) : List Byte := toLe 8 x.word
  (List.range 12).flatMap (fun k => w (Tab.get .reset c.stalls k)) ++ w c.numSat ++ w c.numNan ++ List.replicate 16 0 ++
    (List.range 256).flatMap (fun q => w (Tab.get .reset c.empty q)) ++ (List.range 256).flatMap fun q => w (Tab.get .reset c.full q)

/-- A side read's mark: 0 good, 1 poisoned, 2 unreachable. -/
def sideRegister (blk : List Byte) (addr : Nat) (s : State) : State :=
  { s with rd := field blk (8 * addr) 8, rdBytes := [0] }

/-- `SIDE_READ` (R110, R118, R120, R121, R173): a word of the Tarn, corrected and marked, with nothing changed; or a 64-bit word
of the message-channel registers or the Tarn registers in the order of R453; or half an operation word; or a counter of the
observation block. -/
def execSideRead (t : Nat) (space : SideSpace) (addr : Nat) (u : List Upset) (s0 : State) : Out3 :=
  let s := s0.updTile t (·.upset u)
  let x := s.tile t
  match space with
  | .tarn => onUnit (t < 320 && addr < tarnWords)
    (if x.tarnPower = .off then { s with rd := 0, rdBytes := [2] }
     else
       let r := s.sideWords t addr 1
       { s.draw with rd := ((r.words.head?).getD 0).toNat, rdBytes := [if r.poisoned then 1 else 0] })
  | .channels => onUnit (t < 320 && addr < 66) (sideRegister x.channelBlock addr s)
  | .tarnRegs => onUnit (t < 320 && addr < 8) (sideRegister x.tarnBlock addr s)
  | .observation => onUnit (t < 320 && addr < 528) (sideRegister x.cnt.block addr s)
  | .opStore => onUnit (t < 320 && addr < 16384)
    { s with rd := bits (x.op (addr / 2)) (64 * (addr % 2)) 64, rdBytes := [0] }

/-- `SIDE_ACCESS_TIMEOUT` (R121, R452): the dump records the range as unreachable. -/
def execSideAccessTimeout (t unit_ : Nat) (s : State) : Out3 :=
  onUnit (t < 320 && unit_ < 97)
    (if s.dump.running && !s.dump.unreach.contains (t, unit_) then
       { s with dump := { s.dump with unreach := s.dump.unreach ++ [(t, unit_)] } }
     else s)

/-! ### Staging -/

/-- `TARN_STAGING_WRITE` (R122, R123): `rd` is the status that the write completes with, or `stWait` where it completes only when
the tile's domains are on and its Tarn is cleared; `mem.stagingDone` then takes the status. -/
def execTarnStagingWrite (addr : Nat) (bytes : List Byte) (s : State) : Out3 :=
  s.onLive (addr % 8 = 0 && bytes.length % 8 = 0)
    (match s.locate addr with
     | .tarn t off =>
       let r := s.write addr bytes false
       if r.2 = stWait then
         { r.1.updTile t (fun x => { x with staging := x.staging ++ [(off, bytes, false)] }) with rd := stWait }
       else { r.1 with rd := r.2 }
     | _ => { s with rd := stNotPermitted })

/-- `TARN_STAGING_READ` (R123, R219): `rdBytes` are the bytes and `rd` the status, with bit 8 for poison. -/
def execTarnStagingRead (addr n : Nat) (s : State) : Out3 :=
  s.onLive (n ≤ 256)
    (match s.locate addr with
     | .tarn _ _ =>
       let r := s.read addr n
       { (s.renewStaged addr).draw with rd := r.status + 256 * b2n r.poison, rdBytes := r.bytes }
     | _ => { s with rd := stNotPermitted, rdBytes := [] })

/-- `STAGED_TILE_TIMEOUT` (R123): 1 s after the last staging access. -/
def execStagedTileTimeout (t : Nat) (s : State) : Out3 :=
  s.onLive (t < 320)
    (match (s.tile t).use with
     | .staged l => (s.advanceTo (l + 1000000000)).letGo t
     | _ => s)

end Sys2Proof.Machine
end

