-- ==== Sys2Proof/Machine/Shutdown.lean ====
section
/-! DEFINITION. Test slices, the orderly shutdown, and the training values that the ledger keeps (R424, R437 to R442). -/

namespace Sys2Proof.Machine

/-! ### Saved values -/

/-- The CRC-32C of a saved set (R429); over which bytes it goes is stated nowhere (log entry 79). -/
def Saved.sum (e : Saved) : Nat := crc32c (toLe 1 e.kind ++ toLe 4 e.part ++ toLe 8 e.value ++ toLe 4 e.hours ++ toLe 8 e.serial)

/-- A set as the ledger takes it, with the operating hour and its CRC (R424, R429). -/
def State.savedSet (s : State) (kind part value serial : Nat) : Saved :=
  let e : Saved := ⟨kind, part, value, s.ledger.hours, serial, 0⟩
  { e with crc := e.sum }

/-- The serial number of the stack of a slice group, as the start read it (R429). -/
def State.serialOf (s : State) (group : Nat) : Nat := Tab.get 0 s.selfTest.serials (group / 2)

/-- Saved values of a part that a start may use (R429): the set's CRC passes, the stack has the serial number it was saved for, and
it is at most 720 hours old. -/
def State.saved (s : State) (kind id : Nat) : Option Nat :=
  (s.ledger.training.find? fun e => e.kind == kind && e.part == id && e.crc == e.sum && s.ledger.hours ≤ e.hours + 720 &&
    (kind != 5 || e.serial == s.serialOf id)).map (·.value)

/-- Equalisation values as the ledger keeps them, for each port and peer (R424). -/
def State.equalisation (s : State) : List Saved :=
  (List.range 6).filterMap fun p =>
    let x := s.port p
    if x.peerValid then some (s.savedSet 8 (p * 2 ^ 14 + x.peer) x.taps 0) else none

/-- Training values and trims saved (R424): a group or a domain that is not listed stands at full training. -/
def State.saveTraining (s : State) : State :=
  let eq := s.equalisation
  let kept := s.ledger.training.filter fun e => e.kind == 8 && !(eq.any fun n => n.part == e.part)
  let hbm := s.power.hbmTrain.map fun e => s.savedSet 5 e.1 e.2 (s.serialOf e.1)
  let trims := s.power.trims.map fun e => s.savedSet 6 e.1 (e.2 + 16).toNat 0
  { s with ledger := { s.ledger with training := kept ++ eq ++ hbm ++ trims } }

/-- `TRAINING_SAVE` (R424): every 24 h of operation. -/
def execTrainingSave (s : State) : Out3 :=
  .next (if !s.fw.running || !s.cairnOn then s
    else
      let s1 := s.advanceTo (s.ledger.lastSave + 86400000000000)
      State.saveTraining { s1 with ledger := { s1.ledger with hours := s1.ledger.hours + 24, lastSave := s1.cairn } })

/-! ### Slices -/

/-- Kind and unit of the slice at a place of the schedule (R440). -/
def sliceAt (i : Nat) : Nat × Nat :=
  if i < 20 then (1, i) else if i < 40 then (2, i - 20) else if i < 60 then (3, i - 40) else if i < 68 then (4, i - 60)
  else (5, i - 68)

/-- Slices in a cycle, units of a kind, and the budget of a slice in ms (R440). -/
def sliceCount : Nat := 70
def sliceUnits (k : Nat) : Nat := if k < 4 then 20 else if k = 4 then 8 else 2
def sliceBudget (k : Nat) : Nat := match k with | 1 => 8000 | 2 => 4000 | 3 => 1000 | _ => 2000

/-- Memory-plane links of a die: those of its massifs, its spines and its bridge ports (R371). -/
def dieLinks (d : Nat) : List Nat :=
  (List.range 160).map (fun i => d * 160 + i) ++ (List.range 64).map (fun i => 320 + d * 64 + i) ++
    (List.range 8).map fun j => 448 + j

/-- The parts that a slice covers: kind and ID (R433, R440); the phases of a massif's router follow those of its tiles (log
entry 79). -/
def sliceParts (k u : Nat) : List (Nat × Nat) :=
  match k with
  | 1 => (List.range 16).map fun i => (1, u * 16 + i)
  | 2 => (List.range 16).map fun i => (2, u * 16 + i)
  | 3 => (List.range 128).map (fun i => (6, u * 128 + i)) ++
      (List.range (phasesOf (640 + u))).map fun p => (6, (640 + u) * 8 + p)
  | 4 => (List.range 8).map fun i => (5, u * 8 + i)
  | _ => (dieLinks u).map fun i => (4, i)

/-- The failures of a slice: a part that fuses or the defect list mark bad is skipped (R440). -/
def State.partsFailed (s : State) (r : SliceReport) (k u : Nat) : List (Nat × Nat) :=
  (sliceParts k u).filter fun p => r.failures.contains p && !s.markedBad p.1 p.2

/-- A record of the result log, of which the latest 16,384 stay (R442). -/
def State.addResult (x : TestResult) (s : State) : State :=
  let all := s.ledger.results ++ [x]
  { s with ledger := { s.ledger with results := all.drop (all.length - 16384) } }

/-- The result record of a slice (R442): `source` 1 shutdown, 2 on-demand. -/
def State.sliceResult (s : State) (k u outcome source : Nat) (r : SliceReport) : TestResult :=
  let bad := s.partsFailed r k u
  { slice := k, outcome := outcome, unit_ := u, coverage := r.coverage, failures := bad.length, durationMs := r.durationMs
    budgetMs := sliceBudget k, hours := s.ledger.hours, startCount := s.ledger.startCount
    firstFail := ((bad.head?).map (·.2)).getD 0xFFFF, source := source, lcState := s.fuses.lcState }

/-- A part that failed a slice (R433, R440): an entry of that source, and for a tile the FENCED threshold. -/
def State.sliceFailed (source : Nat) (s : State) (k : Nat × Nat) : State :=
  if s.markedBad k.1 k.2 then s
  else
    let s1 := s.addDefect k.1 source k.2 0
    if k.1 = 1 then
      let n := max (s1.score .tile k.2).1 4096
      ((s1.setScore .tile k.2 n 3).raise 0x1608 n 1 k.2).fenceTile k.2
    else s1

/-- The contents of an HBM stack lost. -/
def Memory.wipe (m : Memory) (u : Nat) : Memory :=
  { m with
    bytes := m.bytes.filter fun e => hbmStack e.1 != u
    poison := m.poison.filter fun l => hbmStack (l * 64) != u
    wiped := m.wiped ++ m.zeroed.map fun r => (r.1, r.2, u) }

/-- Slice kind 4 destroys the contents of its stack (R441): all of it is undefined from then on. -/
def State.wipe (k u : Nat) (s : State) : State :=
  if k = 4 then
    { s with mem := { s.mem with
        hbm := s.mem.hbm.wipe u, wrong := s.mem.wrong.filter fun e => hbmStack (e.1 * 64) != u
        wipes := Tab.upd 0 u (· + 1) s.mem.wipes } }
  else s

/-- A slice recorded, with the entries that its failures make. -/
def State.recordSlice (k u outcome source : Nat) (r : SliceReport) (s : State) : State :=
  let s1 := (s.partsFailed r k u).foldl (State.sliceFailed (if source = 1 then 2 else 4)) (s.wipe k u)
  (s1.addResult (s.sliceResult k u outcome source r)).checkDegraded

/-! ### On-demand slices -/

/-- Lines sent by the monitor (R510). -/
def State.print (ls : List Line) (s : State) : State := { s with monitor := { s.monitor with out := s.monitor.out ++ ls } }

/-- The fields of a result record in table order (R442). -/
def TestResult.fields (x : TestResult) : List Nat :=
  [x.slice, x.outcome, x.unit_, x.coverage, x.failures, x.durationMs, x.budgetMs, x.hours, x.startCount, x.firstFail, x.source,
    x.lcState]

/-- The first 28 bytes of a record (R442). -/
def TestResult.head (x : TestResult) : List Byte :=
  toLe 1 x.slice ++ toLe 1 x.outcome ++ toLe 2 x.unit_ ++ toLe 2 x.coverage ++ toLe 2 x.failures ++ toLe 4 x.durationMs ++
    toLe 4 x.budgetMs ++ toLe 4 x.hours ++ toLe 4 x.startCount ++ toLe 2 x.firstFail ++ toLe 1 x.source ++ toLe 1 x.lcState

/-- Its checksum, and all 32 bytes (R442). -/
def TestResult.crc (x : TestResult) : Nat := crc32c x.head
def TestResult.bytes (x : TestResult) : List Byte := x.head ++ toLe 4 x.crc

/-- A printed record (R513). -/
def TestResult.line (x : TestResult) : Line := .value "result" (x.fields ++ [x.crc])

/-- The on-demand slice that runs ends: it is recorded and printed, and its tiles are free again (R438, R514). -/
def State.endSlice (preempted : Bool) (r : SliceReport) (s : State) : State :=
  match s.monitor.testing with
  | none => s
  | some (k, u) =>
    let out := if preempted then 2 else if (s.partsFailed r k u).isEmpty then 0 else 1
    let s0 := { s with monitor := { s.monitor with testing := none } }
    let s1 := (List.range 320).foldl (fun s t => if (s.tile t).use == TileUse.onDemand then s.letGo t else s) s0
    (s1.recordSlice k u out 2 r).print [(s1.sliceResult k u out 2 r).line, .ok, .prompt false]

/-- Whether a binding or a shadow on a tile takes a unit that an on-demand slice holds (R438). -/
def State.sliceNeeds (s : State) (t : Nat) : Bool :=
  match s.monitor.testing with
  | none => false
  | some (k, u) => if k ≤ 3 then t / 16 == u else k == 4 || t / 160 == u

/-- The slice ended for one (R380, R438): its failures so far are not counted, and the coverage and the time it reached are open. -/
def State.preemptSlice (s : State) : State :=
  let v := (Config.freeWord s.draws).toNat
  s.draw.endSlice true ⟨v % 1001, [], v / 1001 % 2 ^ 32⟩

/-! ### The orderly shutdown -/

/-- `DONE` goes to 1 (R439, R498, R501). -/
def State.finishShutdown (s : State) : State :=
  (State.alert 3 { s with
    shutdown := { s.shutdown with busy := false, done := true, scheduling := false } }).driveAttn

/-- The schedule's place moved on by one slice (R440). -/
def State.nextPlace (s : State) : State :=
  { s with ledger := { s.ledger with schedule := (s.ledger.schedule + 1) % sliceCount } }

/-- A slice that completed, or stopped short of its end: the first of these is run again by the next shutdown (R440, R441). -/
def State.noteMissed (cut : Bool) (s : State) : State :=
  let at_ := s.ledger.schedule
  let m := if cut then s.ledger.missed.orElse fun _ => some at_
    else if s.ledger.missed = some at_ then none else s.ledger.missed
  { s with ledger := { s.ledger with missed := m } }

/-- Slices whose every part the fuse map or the defect list marks bad are skipped and recorded (R440). -/
def State.skipBad : Nat → State → State
  | 0, s => s
  | n + 1, s =>
    let (k, u) := sliceAt s.ledger.schedule
    if (sliceParts k u).all fun p => s.markedBad p.1 p.2 then
      State.skipBad n (s.addResult (s.sliceResult k u 3 1 ⟨0, [], 0⟩)).nextPlace
    else s

/-- `BUDGET_S` in ms, as R439 takes it. -/
def Shutdown.budgetMs (d : Shutdown) : Nat := min d.budgetS 3600 * 1000

/-- Steps 2 and 3 begin (R424, R437, R439): at the slice that the last shutdown left unfinished, or behind its last one (R440,
R441). -/
def State.beginSchedule (s : State) : State :=
  let s0 := s.saveTraining
  let s1 := { s0 with ledger := { s0.ledger with schedule := s0.ledger.missed.getD s0.ledger.schedule, missed := none } }
  if s1.shutdown.budgetMs = 0 || s1.fuses.lcState = 0 || s1.fuses.lcState = 5 then s1.finishShutdown
  else State.skipBad sliceCount { s1 with shutdown := { s1.shutdown with scheduling := true, usedMs := 0 } }

/-- A shutdown that waits for graphs goes on once none is bound (R439). -/
def State.shutdownOn (s : State) : State :=
  if s.shutdown.busy && !s.shutdown.scheduling && s.graphIds.isEmpty then s.beginSchedule else s

/-- Every graph unloads as R338 does, with no descriptor to complete (R439). -/
def State.unloadAll (s : State) : State :=
  s.graphIds.foldl (fun s g =>
    let n := s.host.nextTag
    let s1 := s.updGraph g fun y => if y.unloading.isSome then y else { y with unloading := some n }
    { s1 with host := { s1.host with nextTag := n + 1 } }) s

/-- A shutdown begins (R439): a second request while one runs does nothing. -/
def State.startShutdown (s : State) : State :=
  if s.shutdown.busy || s.seq != .idle then s
  else
    let s1 := State.driveAttn { s with
      shutdown := { s.shutdown with busy := true, done := false, scheduling := false, usedMs := 0 } }
    if s1.graphIds.isEmpty then s1.beginSchedule
    else if s1.shutdown.forceUnload then s1.unloadAll
    else s1.raise 0x1007 (sumNat (s1.graphIds.map fun g => 2 ^ g)) 0 0

/-- The slice under way recorded, with the time it took. -/
def State.shutdownSlice (outcome : Nat) (r : SliceReport) (s : State) : State :=
  let (k, u) := sliceAt s.ledger.schedule
  let s1 := (s.advanceTo (s.cairn + r.durationMs * 1000000)).recordSlice k u outcome 1 r
  { s1 with shutdown := { s1.shutdown with usedMs := s1.shutdown.usedMs + r.durationMs } }

/-- Whether a slice took more than its own budget, or more than is left of `BUDGET_S` (R441). -/
def State.sliceOver (s : State) (r : SliceReport) : Bool :=
  sliceBudget (sliceAt s.ledger.schedule).1 < r.durationMs || s.shutdown.budgetMs - s.shutdown.usedMs < r.durationMs

/-- The slice under way ends, at its end or short of it, and the next one begins within `BUDGET_S`; when that has passed, or `last`
says so, the shutdown ends (R439 to R442). -/
def State.afterSlice (cut last : Bool) (r : SliceReport) (s : State) : State :=
  let (k, u) := sliceAt s.ledger.schedule
  let s1 := s.shutdownSlice (if cut then 2 else if (s.partsFailed r k u).isEmpty then 0 else 1) r
  let s2 := (s1.noteMissed cut).nextPlace
  if last || s2.shutdown.budgetMs ≤ s2.shutdown.usedMs then s2.finishShutdown else s2.skipBad sliceCount

/-- `SHUTDOWN_SLICE_DONE` (R440 to R442): recorded, and the next slice begins within the budget. -/
def execShutdownSliceDone (r : SliceReport) (s : State) : Out3 :=
  onUnit (r.coverage ≤ 1000 && r.durationMs < 2 ^ 32)
    (if !s.shutdown.scheduling || s.seq != .idle then s else s.afterSlice (s.sliceOver r) false r)

/-- `SHUTDOWN_BUDGET_EXPIRY` (R439, R441): the slice is recorded as incomplete and is run again by the next shutdown; with `whole`,
`BUDGET_S` has passed and the shutdown ends, and else the next slice begins. -/
def execShutdownBudgetExpiry (r : SliceReport) (whole : Bool) (s : State) : Out3 :=
  onUnit (r.coverage ≤ 1000 && r.durationMs < 2 ^ 32)
    (if !s.shutdown.scheduling || s.seq != .idle then s else s.afterSlice true whole r)

end Sys2Proof.Machine
end

