-- ==== Sys2Proof/Machine/Placement.lean ====
section
/-! DEFINITION. Placing virtual tiles, routing circuits and channels, and writing tiles (R16, R109, R145 to R149, R154,
R155, R157, R158, R244, R247). -/

namespace Sys2Proof.Machine

/-! ### Candidates -/

/-- A tile free for a binding (R16, R155): usable, and no graph binds it or uses it as a shadow. -/
def State.freeTile (s : State) (t : Nat) : Bool :=
  s.usable t && (s.owner t).isNone

/-- Massifs of a die, nearest first, the lower number first on a tie (R155). -/
def nearMassifs (m : Nat) : List Nat := sortBy (List.range 10) fun a b => dist a m < dist b m || (dist a m == dist b m && a ≤ b)

/-- Physical tiles for a virtual tile in the order of R155. -/
def candidates (v : VTile) : List Nat :=
  let at_ (m u : Nat) : Nat := v.vdie * 160 + m * 16 + u
  at_ v.vmassif v.vslot ::
    ((nearMassifs v.vmassif).flatMap fun m => (List.range 16).map (at_ m)).filter (· != at_ v.vmassif v.vslot)

/-- Virtual tiles placed in ascending order; `fixed` names the tiles that keep theirs; none where a die has too few. -/
def State.placeAll (s : State) (fixed : Nat → Option Nat) : List VTile → Nat → List Nat → Option (List Nat)
  | [], _, _ => some []
  | v :: vs, i, taken =>
    match fixed i with
    | some t => (s.placeAll fixed vs (i + 1) taken).map fun ts => t :: ts
    | none => match (candidates v).find? fun t => s.freeTile t && !taken.contains t with
      | none => none
      | some t => (s.placeAll fixed vs (i + 1) (t :: taken)).map fun ts => t :: ts

/-! ### Routes -/

/-- Lanes that a circuit uses: tile × 32 and 0 to 3 a mesh data lane, 4 and 5 the local data lanes in and out. -/
def circuitLanes (a b : Nat) : List Nat :=
  (a * 32 + 4) :: (routeLinks a b).map (fun l => l.1 * 32 + l.2) ++ [b * 32 + 5]

/-- Lanes that a channel route uses: 8 to 11 a mesh channel lane, 12 to 15 and 16 to 19 the local ones (R146, R245). -/
def channelLanes (a n b d : Nat) : List Nat :=
  (a * 32 + 12 + n / 16) :: (routeLinks a b).map (fun l => l.1 * 32 + 8 + l.2) ++ [b * 32 + 16 + d / 16]

/-- Lanes and slots that an image's circuits and channels take under a placement; an end without a tile takes none
(R146). -/
def Image.lanes (im : Image) (place : List Nat) : List (Nat × Nat) :=
  let at_ (v : Nat) : Nat := place.getD v 320
  let ok (v w : Nat) : Bool := at_ v < 320 && at_ w < 320
  (im.circuits.flatMap fun c =>
    if ok c.src c.dst then (circuitLanes (at_ c.src) (at_ c.dst)).flatMap fun l => (maskSlots c.slotMask).map fun k => (l, k)
    else []) ++
  im.routes.zipIdx.flatMap fun rv => rv.1.flatMap fun e =>
    if ok rv.2 e.2.1 then (channelLanes (at_ rv.2) e.1 (at_ e.2.1) e.2.2.1).map fun l => (l, e.2.2.2) else []

/-- Whether every slot of every lane would have one owner (R146). -/
def State.routes (s : State) (g : Nat) (im : Image) (place : List Nat) : Bool :=
  let ls := im.lanes place
  decide ls.Nodup && ls.all fun l => !(s.planes.slots.any fun o => o.1 == l.1 && o.2.1 == l.2 && o.2.2 != g)

/-- A graph's slots taken anew. -/
def State.takeSlots (g : Nat) (ls : List (Nat × Nat)) (s : State) : State :=
  { s with planes := { s.planes with
    slots := s.planes.slots.filter (fun o => o.2.2 != g) ++ ls.map fun l => (l.1, l.2, g) } }

/-! ### Buntings -/

/-- Free module Buntings, lowest first (R149). -/
def State.freeBuntings (s : State) : List Nat :=
  (List.range 1024).filter fun b => (Tab.get none s.planes.buntings b).isNone

/-- Module Buntings given to a graph. -/
def State.takeBuntings (g : Nat) (bs : List Nat) (s : State) : State :=
  { s with planes := { s.planes with buntings := bs.foldl (fun m b => Tab.put none b (some g) m) s.planes.buntings } }

/-- A graph's Buntings and slots released. -/
def State.releasePlanes (g : Nat) (s : State) : State :=
  { s with planes := { s.planes with
    buntings := s.planes.buntings.filter fun e => e.2 != some g
    slots := s.planes.slots.filter fun o => o.2.2 != g } }

/-! ### Writing tiles -/

/-- A session's record in the ledger: tile, milliseconds, cases, and outcome 0 passed, 1 failed under stress, 3 failed at
nominal as well, 4 ended early (R379, R380). -/
def State.recordSession (t ms cases outcome : Nat) (s : State) : State :=
  { s with ledger := { s.ledger with sessions := s.ledger.sessions ++ [(t, ms, cases, outcome)] } }

/-- The router domain of a massif is ON (R251). -/
def State.routerOn (m : Nat) (s : State) : State :=
  { s with planes := { s.planes with routerOn := Tab.put false m true s.planes.routerOn } }

/-- A tile taken for a use: withdrawn from the stress test, or from an on-demand slice, where it is under one (R380, R438); staging
writes that wait complete with `NOT_PERMITTED`, since the tile is now bound (R122, R123). How many cases such a session had run is
open. -/
def State.withdraw (t : Nat) (s : State) : State :=
  let s0 := if s.sliceNeeds t then s.preemptSlice else s
  let s1 := (s0.completeStaging t stNotPermitted (s0.tile t).staging).updTile t fun x => { x with staging := [] }
  match (s1.tile t).use with
  | .stress e cases retest =>
    let n := if retest then cases else (Config.freeWord s1.draws).toNat % 2 ^ 32
    s1.draw.recordSession t ((20000000000 - cairnSince s1.cairn e) / 1000000) n 4
  | _ => s1

/-- The layer units of a virtual tile (R128). -/
def Image.units (im : Image) (v : Nat) : Nat :=
  match im.vtiles[v]? with
  | none => im.layerUnits
  | some t => if t.layerUnits = 0 then im.layerUnits else t.layerUnits

/-- A virtual tile's configuration under a placement (R54, R131, R134, R148). -/
def Image.tileCfg (im : Image) (place : List Nat) (gen v : Nat) : TileCfg :=
  { layerUnits := im.units v
    ops := im.ops.getD v []
    opWords := (im.vtiles[v]?.map fun t => t.opWords).getD 0
    queues := im.sizing.getD v []
    routes := (im.routes.getD v []).map fun e =>
      (e.1, ⟨place.getD e.2.1 0 % 512, e.2.2.1, e.2.2.2, place.getD e.2.1 320 < 320⟩)
    generation := gen }

/-- A tile written at binding or re-placement: its Tarn to be cleared before any operation fires, its counters of R173 zero, its
state that just after binding (R109, R154, R155, R173, R380). -/
def Tile.write (x : Tile) (use : TileUse) (c : TileCfg) : Tile :=
  { x.clear with
    use := use, cfg := c, staged := none, staging := [], clearing := true, sampleSeq := 0
    cnt := { x.cnt with stalls := [], empty := [], full := [] }
    run := { x.boundRun c with nextId := x.run.nextId, channels := freshChannels [] } }

/-- A tile taken for a use and written, with its domains asked on (R154, R407). -/
def State.writeTile (t : Nat) (f : Tile → Tile) (s : State) : State := ((s.withdraw t).updTile t f).turnTileOn t

/-- Every placed tile of an image written (R154). -/
def State.writeTiles (g : Nat) (im : Image) (place : List Nat) (gen : Nat) (s : State) : State :=
  place.zipIdx.foldl (fun s tv =>
    if tv.1 < 320 then s.writeTile tv.1 fun x => x.write (.bound g tv.2) (im.tileCfg place gen tv.2) else s) s

/-- A tile let go by its graph (R166, R338, R405). -/
def State.freeTileNow (t : Nat) (s : State) : State :=
  if (s.tile t).fenced then s.updTile t fun x => { x with use := .free } else s.letGo t

/-! ### Re-placement -/

/-- Whether every circuit and channel of a virtual tile routes from a tile: those of the image in force, and those of a staged one
(R146, R157, R168). -/
def State.tileRoutes (s : State) (g v t : Nat) (y : Graph) : Bool :=
  (v ≥ y.image.vtiles.length || s.routes g y.image (listSet y.place v t)) &&
    match y.change with
    | none => true
    | some c => v ≥ c.image.vtiles.length || s.routes g c.image (listSet c.place v t)

/-- The record of a virtual tile: of the image in force, or of a staged one that alone has it (R168). -/
def Graph.vtile (y : Graph) (v : Nat) : Option VTile :=
  (y.image.vtiles[v]?).orElse fun _ => y.change.bind fun c => c.image.vtiles[v]?

/-- The first candidate on which every circuit and channel of a virtual tile routes (R157). -/
def State.findTile (s : State) (g v : Nat) (y : Graph) : Option Nat :=
  (y.vtile v).bind fun vt => (candidates vt).find? fun t => s.freeTile t && s.tileRoutes g v t y

/-- A configuration with its `CH_ROUTE`s as an image and a placement give them. -/
def TileCfg.reroute (c : TileCfg) (im : Image) (place : List Nat) (v : Nat) : TileCfg :=
  { c with routes := (im.tileCfg place 0 v).routes }

/-- A unit's configurations with their routes: the one in force, and the one that a change has it hold besides. -/
def Graph.rerouteTile (y : Graph) (v : Nat) (x : Tile) : Tile :=
  match y.change with
  | none => { x with cfg := x.cfg.reroute y.image y.place v }
  | some c =>
    let old (z : TileCfg) : TileCfg := z.reroute y.image y.place v
    let new (z : TileCfg) : TileCfg := z.reroute c.image c.place v
    if x.cfg.generation = y.generation then { x with cfg := old x.cfg, staged := x.staged.map new }
    else { x with cfg := new x.cfg, staged := x.staged.map old }

/-- Every `CH_ROUTE` that names the virtual tile at its new place, in tiles of the image in force and of a staged one (R55,
R157). -/
def State.reroute (g : Nat) (s : State) : State :=
  (s.graphTiles g).foldl (fun s t => match s.owner t with
    | none => s
    | some (h, v) => match s.graph? h with
      | none => s
      | some y => s.updTile t (y.rerouteTile v)) s

/-- The configuration that a re-placed virtual tile takes, the one staged for it, and whether it waits for the change to
start (R157, R166, R168): a unit of the old configuration comes back to that one, as the abandonment that re-places it
returns every unit (R360). -/
def Graph.cfgFor (y : Graph) (v : Nat) : TileCfg × Option TileCfg × Bool :=
  let old := y.image.tileCfg y.place y.generation v
  match y.change with
  | none => (old, none, false)
  | some c =>
    let new := c.image.tileCfg c.place ((y.generation + 1) % 2 ^ 16) v
    if v < y.image.vtiles.length then (old, some new, false) else (new, none, !c.placed)

/-- The lanes and slots of a graph, those of a staged change among them (R146, R163). -/
def Graph.lanes (y : Graph) : List (Nat × Nat) :=
  (y.image.lanes y.place ++ (match y.change with
    | none => []
    | some c => c.image.lanes c.place)).dedup

/-- A virtual tile written to a tile, with the slots, the routes and the place kept in step (R157). -/
def State.putVtile (g v t : Nat) (s : State) : State :=
  match s.graph? g with
  | none => s
  | some y =>
    let place := listSet y.place v t
    let y1 := { y with
      place := place
      change := y.change.map fun c => { c with place := listSet c.place v t } }
    let c := y1.cfgFor v
    let s1 := (s.setGraph g (some y1)).writeTile t fun x =>
      { (x.write (.bound g v) c.1).updRun (fun r => { r with stopped := c.2.2 }) with staged := c.2.1 }
    (s1.takeSlots g y1.lanes).reroute g

/-- A graph suspended (R158): each stream with a row in an abandoned batch gets one record. -/
def State.suspend (g v : Nat) (s : State) : State :=
  match s.graph? g with
  | none => s
  | some y =>
    let s1 := (s.setGraph g (some { y with suspended := true })).raise 0x1107 g v 0
    if y.suspended then s1
    else (y.inFlight.flatMap (·.rows)).foldl (fun s r =>
      let x := s.stream r.idx
      s.notice x.cq (x.record stFencedRetry 0x0227)) s1

/-- A virtual tile without a tile is placed where one is found; otherwise the graph is suspended (R157, R158). -/
def State.replaceVtile (g : Nat) (s : State) (v : Nat) : State :=
  match s.graph? g with
  | none => s
  | some y => match s.findTile g v y with
    | none => s.suspend g v
    | some t => s.putVtile g v t

/-- Virtual tiles of a graph that lack a tile, ascending: those of its image, and while a change is staged those of the new
image, without the ones that the change has released and no pass needs. -/
def Graph.unplaced (y : Graph) : List Nat :=
  match y.change with
  | none => (List.range y.place.length).filter fun v => y.place.getD v 320 ≥ 320
  | some c => (List.range (max y.place.length c.place.length)).filter fun v =>
      if v < y.place.length then y.place.getD v 320 ≥ 320 && (v < c.place.length || y.oldPass || !c.placed)
      else c.place.getD v 320 ≥ 320

end Sys2Proof.Machine
end

