-- ==== Sys2Proof/Machine/Burgee.lean ====
section
/-! DEFINITION. A change of configuration in service: the Burgee train through a graph's tiles (R163 to R169). A unit is a
tile. A queue fed by operations of the tile itself, other than `CRECV`, has run empty when the tile passes, and carries no
Burgee of its own. -/

namespace Sys2Proof.Machine

/-! ### What a tile consumes and feeds -/

/-- First words of a tile's operation list. -/
def Tile.ops (x : Tile) : List Nat := opIndices x.cfg.ops x.cfg.opWords 0

/-- Queues that the tile's operations consume from. -/
def Tile.consumed (x : Tile) : List Nat := (x.ops.flatMap fun k => (inputsOf (x.op k)).map (·.2)).dedup

/-- Queues fed over a circuit, by a `CRECV`. -/
def Tile.received (x : Tile) : List Nat :=
  x.ops.flatMap fun k => if opCode (x.op k) = 0x57 then (outputsOf (x.op k)).map (·.2) else []

/-- Whether a queue is fed from outside the tile. -/
def Tile.fedFromOutside (x : Tile) (q : Nat) : Bool := (x.qcfg q).source != 0 || x.received.contains q

/-- Whether a firing is a posted receive that nothing has answered. -/
def Tile.isPosted (x : Tile) (f : Firing) : Bool := opCode (x.op f.index) == 0x57 && f.openEnded && f.acks != 0

/-- The conditions of R164 on the tile itself. -/
def Tile.passReady (x : Tile) : Bool :=
  x.consumed.all (fun q =>
    if x.fedFromOutside q then match (x.queue q).toks.head? with
      | some k => k.isBurgee
      | none => false
    else (x.queue q).toks.isEmpty && (x.queue q).fresh.isEmpty) &&
  x.run.flights.all x.isPosted && x.run.emitted.all (fun e => x.fedFromOutside e.1)

/-- Whether cross-verification of what a virtual tile did under the old configuration is still awaited (R164, R367). -/
def Graph.verifying (y : Graph) (v : Nat) : Bool :=
  y.verify.seen.any (·.vtile == v) || (y.verify.resolving.any fun r => r.1 == v) ||
    (y.change.isSome && y.inFlight.any fun b => b.generation == y.generation && b.toVerify.contains v &&
      !y.verify.shadows.any (·.1 == v))

/-- The conditions of R164 on a unit: on the tile and on every shadow of it, whose work is the unit's as well (R167), with no
token in a Scree segment (R171), and with every comparison made. -/
def State.passReady (s : State) (y : Graph) (v t : Nat) : Bool :=
  (s.withShadows t).all (fun u => (s.tile u).passReady) &&
    !y.spills.any (fun z => (s.withShadows t).contains z.tile && !z.toks.isEmpty) && !y.verifying v

/-- Circuits that a virtual tile feeds, with the receiving tile, where a `CRECV` of the same configuration takes them. -/
def State.feeds (s : State) (y : Graph) (v gen : Nat) : List (Nat × Nat) :=
  y.image.circuits.zipIdx.filterMap fun c =>
    let r := y.place.getD c.1.dst 320
    let x := s.tile r
    if c.1.src = v && r < 320 && x.cfg.generation == gen
        && x.ops.any (fun k => opCode (x.op k) == 0x57 && bits (x.op k) 64 16 == c.2) then some (c.2, r) else none

/-- The receive of circuit `i` posted at a tile. -/
def Tile.postedFor (x : Tile) (i : Nat) : Option (Nat × Nat × Nat) := x.run.posted.find? fun p => p.1 == i

/-- The oldest open receive of an operation answered by a Burgee. -/
def Tile.receiveBurgee (x : Tile) (k gen : Nat) : Tile :=
  match x.run.flights.find? fun f => x.isPosted f && f.index == k with
  | none => x
  | some f => x.updRun fun r =>
      { r with
        flights := r.flights.filter (·.id != f.id)
        emitted := r.emitted ++ f.outs.map fun o => (o.1, ⟨.burgee gen, 0, false⟩) }

/-- Burgee tokens over the circuits that a tile feeds (R165 step 1). -/
def State.burgeeOverCircuits (t gen : Nat) (feeds : List (Nat × Nat)) (s : State) : State :=
  feeds.foldl (fun s e => match (s.tile t).postedFor e.1 with
    | none => s
    | some p => (s.withShadows e.2).foldl (fun s u => s.updTile u fun x => x.receiveBurgee p.2.2 gen)
        (s.updTile t fun x => x.updRun fun r => { r with posted := r.posted.erase p })) s

/-- Burgee records to every expert Bunting of a virtual tile's maps (R169). -/
def State.burgeeRecords (t v gen : Nat) (y : Graph) (s : State) : State :=
  let x := s.tile t
  let maps := (x.ops.filterMap fun k => if opCode (x.op k) = 0x55 then some (bits (x.op k) 112 8) else none).dedup
  { s with
    planes := { s.planes with
      counts := s.planes.counts ++ maps.flatMap fun m =>
        ((y.image.xmaps[m]?).map (·.experts)).getD [] |>.zipIdx.flatMap fun e => (y.members e.1.bunting).map fun u =>
          { tile := u, xmap := m, expert := e.2, src := t, vtile := v, count := 0, tag := 0,
            burgee := some gen, gen := x.cfg.generation, poison := false, firing := none, way := .start } } }

/-- A channel marker behind the last word of each message channel of a unit that switches (R165 step 2). -/
def State.sendMarkers (t : Nat) (s : State) : State :=
  let x := s.tile t
  { s with
    planes := { s.planes with
      words := s.planes.words ++ (x.cfg.routes.filter (·.2.enable)).map fun e =>
        { tile := e.2.dest, chan := e.2.chan, src := t, srcChan := e.1, word := 0, parity := false,
          gen := x.cfg.generation, slot := e.2.slot, marker := true } } }

/-! ### The switch -/

/-- Whether two configurations give a tile the same work. -/
def TileCfg.same (a b : TileCfg) : Bool :=
  a.layerUnits == b.layerUnits && a.ops == b.ops && a.opWords == b.opWords && a.queues == b.queues && a.routes == b.routes

/-- The Burgee tokens at the heads of a tile's queues taken off, with a credit back for each that came over a circuit. -/
def Tile.dropBurgees (x : Tile) : Tile :=
  x.consumed.foldl (fun x q =>
    if x.fedFromOutside q then
      let y := x.updQueue q fun z => { z with toks := z.toks.drop 1 }
      if (x.qcfg q).source = 0 then y.updCredit q fun c => { c with returning := c.returning + 1 } else y
    else x) x

/-- Whether a unit that passes the Burgee switches: one whose configuration is unchanged does not, unless it also swaps its
firmware (R165, R454). -/
def Tile.switches (x : Tile) (new : TileCfg) (swap : Bool) : Bool := !x.cfg.same new || swap

/-- A tile that passes the Burgee: with an unchanged configuration in one turn, and otherwise with a switch of 512 cycles
and the clearing of R109 (R165, R166). In either case its channels and its Summits begin the configuration anew (R52, R55, R256). -/
def Tile.pass (x : Tile) (new : TileCfg) (swap : Bool) : Tile :=
  if !x.switches new swap then
    { x.dropBurgees.updRun (fun r => { r with burgeePassed := true, channels := x.passChannels new.routes, summits := [] }) with
      cfg := new, staged := some x.cfg }
  else
    { x with
      cfg := new, staged := some x.cfg
      run := { x.boundRun new with
        burgeePassed := true, credits := [], channels := x.passChannels new.routes, clearFrom := some x.cfg.layerUnits
        switchUntil := some (x.cycle + 512 + 256 * dist x.cfg.layerUnits new.layerUnits) } }

/-- Whether a bound tile's Burgee passage also swaps its firmware (R454). -/
def State.swaps (s : State) (t : Nat) : Bool := s.fw.activating && (s.unit t).staged.isSome

/-- The generation that a change brings (R163). -/
def Graph.nextGen (y : Graph) : Nat := (y.generation + 1) % 2 ^ 16

/-- Whether every unit of the graph has passed (R166). -/
def State.allPassed (s : State) (y : Graph) (c : Change) : Bool :=
  c.place.all (fun t => t ≥ 320 || (s.tile t).cfg.generation == y.nextGen) &&
    (List.range y.place.length).all fun v => v < c.place.length || y.place.getD v 320 ≥ 320

/-- Whether the serving parameters of a change have come into force (R333). -/
def Graph.servingCame (y : Graph) (c : Change) : Bool :=
  match c.serving with
  | none => true
  | some _ => y.sched.started && c.start ≤ y.sched.period

/-- The end of a change: once every unit has passed, the graph's mode is the new image's, and with the serving parameters all of it
is (R165, R333, R392). -/
def State.finishChange (g : Nat) (s : State) : State :=
  match s.graph? g with
  | none => s
  | some y => match y.change with
    | none => s
    | some c =>
      let mode : GraphMode := if c.image.mode = 0 then .native else .compat
      if !(c.placed && s.allPassed y c) then s
      else if !y.servingCame c then s.setGraph g (some { y with mode := mode })
      else
        let y1 := { y with
          image := c.image, place := c.place, buntings := c.buntings, generation := y.nextGen, change := none, mode := mode
          sampleAddr := c.sampleAddr, sampleRecords := c.sampleRecords }
        let s1 := s.setGraph g (some y1)
        let s2 := c.place.foldl (fun s t =>
          if t < 320 then s.updTile t fun x => { x.updRun (fun r => { r with burgeePassed := false }) with staged := none }
          else s) s1
        ({ s2 with
          planes := { s2.planes with
            buntings := s2.planes.buntings.filter fun e => e.2 != some g || c.buntings.contains e.1
            summits := s2.planes.summits.filter fun m => !y.buntings.contains m.bunting } }).takeSlots g
          (c.image.lanes c.place)

/-! ### Receives of the new configuration -/

/-- Receives posted on the circuits of a virtual tile by tiles of its configuration. -/
def State.postsFor (s : State) (y : Graph) (v gen : Nat) : List (Nat × Nat × Nat) :=
  y.place.flatMap fun r =>
    let x := s.tile r
    if r < 320 && x.cfg.generation == gen then (x.run.flights.filter x.isPosted).filterMap fun f =>
      let i := bits (x.op f.index) 64 16
      if ((y.image.circuits[i]?).map (·.src)) == some v then some (i, 8 * (bits (x.op f.index) 86 14 + 1), f.index)
      else none
    else []

/-- One more receive posted at a tile. -/
def Tile.post (x : Tile) (p : Nat × Nat × Nat) : Tile := x.updRun fun r => { r with posted := r.posted ++ [p] }

/-- The receives of a unit that passes with its configuration unchanged: it holds those that tiles of the new configuration have
posted, and no others, and its own open ones are posted at the senders that have passed; a producer holds no credit for the new
configuration before its consumer's step 5 (R147, R165). A sender that still switches takes them at its switch's end. -/
def State.repost (t v : Nat) (s : State) : State :=
  match s.graphFor t with
  | none => s
  | some y =>
    let x := s.tile t
    let gen := x.cfg.generation
    let mine := s.postsFor y v gen
    let s1 := (s.withShadows t).foldl (fun s u => s.updTile u fun z => z.updRun fun r => { r with posted := mine }) s
    (x.run.flights.filter x.isPosted).foldl (fun s f =>
      let i := bits (x.op f.index) 64 16
      let src := ((y.image.circuits[i]?).map fun c => y.place.getD c.src 320).getD 320
      let z := s.tile src
      if src < 320 && src != t && z.cfg.generation == gen && z.run.switchUntil.isNone then
        (s.withShadows src).foldl (fun s u => s.updTile u (·.post (i, 8 * (bits (x.op f.index) 86 14 + 1), f.index))) s
      else s) s1

/-! ### Placing the Burgee -/

/-- Whether an issued batch of the old configuration has yet to reach a memory-plane queue. -/
def Graph.awaits (y : Graph) (v q : Nat) : Bool :=
  y.sched.batches.any fun b => b.generation == y.generation && b.toDeliver.any fun e => e.1 == v && (e.2 == q || e.2 + 1 == q)

/-- A Burgee token on its way to a queue of a tile and its shadows. -/
def State.sendBurgee (t q gen : Nat) (s : State) : State :=
  (s.withShadows t).foldl (fun s u => s.updTile u fun x => x.updRun fun r =>
    { r with emitted := r.emitted ++ [(q, ⟨.burgee gen, 0, false⟩)] }) s

/-- Burgee tokens on the memory-plane queues of every tile that works under the old configuration, but for those that an
issued batch has yet to reach (R163, R360). -/
def State.sendBurgees (g : Nat) (s : State) : State :=
  match s.graph? g with
  | none => s
  | some y => y.place.zipIdx.foldl (fun s tv =>
      if tv.1 < 320 && (s.tile tv.1).cfg.generation == y.generation then
        ((s.tile tv.1).cfg.queues.filter fun e => e.2.source == 1 && e.2.depth != 0 && !y.awaits tv.2 e.1).foldl
          (fun s e => s.sendBurgee tv.1 e.1 y.nextGen) s
      else s) s

/-- A tile of the new image alone starts (R166); its channels are held as R55 has it. -/
def State.startNewTiles (g : Nat) (s : State) : State :=
  match s.graph? g with
  | none => s
  | some y => match y.change with
    | none => s
    | some c => c.place.foldl (fun s t =>
        if t < 320 && (s.tile t).cfg.generation == y.nextGen && !(s.tile t).run.burgeePassed then
          s.updTile t fun x => x.updRun fun r => { r with stopped := false, channels := x.passChannels x.cfg.routes }
        else s) s

/-- The Burgee tokens of a staged change placed, and its descriptor completed, with the start period in the result
(R163, R166, R335). -/
def State.placeBurgees (g start : Nat) (s : State) : State :=
  match s.graph? g with
  | none => s
  | some y => match y.change with
    | none => s
    | some c =>
      if c.placed then s
      else
        ((((s.setGraph g (some { y with change := some { c with placed := true, start := start } })).sendBurgees g).startNewTiles
          g).releaseChannels g).completeTag c.tag stOk 0 (g + 2 ^ 8 * (start % 2 ^ 24))

/-! ### Delivering again -/

/-- `POLICY` of a class in a batch (R362). -/
def Batch.policyOf (b : Batch) (cls : Nat) : Nat := bits (b.policy.getD cls 0) 0 2

/-- Whether a row's stream is to produce a token, and so holds a harvest slot (R199, R202). -/
def Row.produces (r : Row) : Bool := r.kind != 1

/-- A row taken out of its batch: its harvest slot is free again (R358). -/
def State.releaseRow (r : Row) (s : State) : State := if r.produces then s.releaseSlot (s.stream r.idx).hring else s

/-- A stream with no step in flight ends where its pages are lost, or where `CANCEL_REQ` asks for it (R186, R230). -/
def State.endCancelled (i : Nat) (s : State) : State :=
  let x := s.stream i
  if x.kvLost then s.endStream i stUnreachable 0x0228
  else if x.cancelReq then s.endStream i x.goodStatus endCancel
  else s

/-- A row removed from its batch (R358, R359, R361, R369): its stream takes the notice, and ends if that was asked. -/
def State.removeRow (status detail : Nat) (s : State) (r : Row) : State :=
  let s1 := s.releaseRow r
  if (s.stream r.idx).state == StreamState.ending then s1
  else (s1.notify r.idx status detail).endCancelled r.idx

/-- Entries to which a batch of a kind goes (R203). -/
def Graph.entriesOf (y : Graph) (kind : Nat) : List (Nat × Nat) :=
  match y.serving with
  | none => []
  | some v => if kind = 0 then v.periodEntries else v.admissionEntries

/-- An abandoned batch made ready for its next pass (R357 step 6, R358, R359): rows that stay run again. -/
def State.batchAgain (g : Nat) (causes handles : List Nat) (s : State) (b : Batch) : State :=
  match s.graph? g with
  | none => s
  | some y =>
    let n := if causes.all (· == 5) then b.abandons else b.abandons + 1
    let goes (r : Row) : Bool :=
      n ≥ 4 || b.policyOf r.cls == 0 || handles.contains r.handle || (s.stream r.idx).cancelReq ||
        (s.stream r.idx).kvLost
    let stay := b.rows.filter fun r => !goes r
    let s1 := (b.rows.filter goes).foldl (State.removeRow stReplayed (if n ≥ 4 then 0x0225 else 0x0223)) s
    let s2 := stay.foldl (fun s r => s.notify r.idx stReplayed 0x0222) s1
    s2.updSched g fun sc =>
      { sc with batches := sc.batches.map fun c =>
          if c.seq = b.seq && c.kind = b.kind then
            { c with
              rows := stay, abandons := n, pass := c.pass + 1, done := stay.isEmpty, awaits := []
              toDeliver := if stay.isEmpty then [] else y.entriesOf b.kind }
          else c }

/-- The tiles of a graph run again; a tile that waits for a change to start goes on waiting. -/
def State.letRun (g : Nat) (s : State) : State :=
  match s.graph? g with
  | none => s
  | some y =>
    let waits (t : Nat) : Bool := match y.change with
      | none => false
      | some c => !c.placed && (s.tile t).cfg.generation == y.nextGen
    (s.graphTiles g).foldl (fun s t => if waits t then s else s.updTile t fun x => x.updRun fun r => { r with stopped := false }) s

/-- Units that no old pass holds back any more pass a Burgee that an abandonment has taken from them; where an old pass
runs again, the Burgee tokens are placed again behind it (R360). -/
def State.burgeeAgain (g : Nat) (s : State) : State :=
  match s.graph? g with
  | none => s
  | some y => match y.change with
    | none => s
    | some c =>
      if !c.placed then s
      else if y.oldPass then s.sendBurgees g
      else
        (y.place.zipIdx.foldl (fun s tv =>
          if tv.1 < 320 && (s.tile tv.1).cfg.generation == y.generation then
            (if c.place.getD tv.2 320 < 320 then
              let new := c.image.tileCfg c.place y.nextGen tv.2
              let s1 := s.updTile tv.1 fun x => x.pass new (s.swaps tv.1)
              (if (s.tile tv.1).switches new (s.swaps tv.1) then s1 else s1.repost tv.1 tv.2).activateUnit tv.1
            else (s.freeTileNow tv.1).updGraph g fun y => { y with place := listSet y.place tv.2 320 })
          else s) s).releaseChannels g |>.finishChange g

/-- The abandoned batches of a graph delivered again, in their issue order (R357 step 6). -/
def State.deliverAgain (g : Nat) (causes handles : List Nat) (s : State) : State :=
  match s.graph? g with
  | none => s
  | some y => ((y.inFlight.foldl (State.batchAgain g causes handles) s).letRun g).burgeeAgain g

/-- The next start of a period grid (R195, R449). -/
def State.gridStart (s : State) : Nat := roundUp (s.cairn + 1000000) 1000000

/-- A new period grid: numbers go on, and the period that was cut off gives no estimate (R208, R449). -/
def State.newGrid (g : Nat) (s : State) : State :=
  let b := s.gridStart
  s.updSched g fun sc => { sc with nextB := b, issuedUnits := 0, issuedTokens := 0, endAt := if sc.batches.isEmpty then some s.cairn else none }

/-- A suspended graph resumes (R158). -/
def State.resume (g cause : Nat) (s : State) : State :=
  match s.graph? g with
  | none => s
  | some y =>
    let a := y.abandon.getD ⟨[5], [], [], [], [], 0, true⟩
    (((s.setGraph g (some { y with suspended := false, abandon := none })).raise 0x1108 g cause 0).newGrid g).deliverAgain g
      a.causes a.removed

/-- The virtual tiles that lack a tile are tried again, and the graph resumes once all are placed (R158). -/
def State.retry (s : State) (g : Nat) : State :=
  match s.graph? g with
  | none => s
  | some y =>
    if !y.suspended || (match y.abandon with | none => false | some a => !a.drained) then s
    else
      let s1 := y.unplaced.foldl (fun s v => match (s.graph? g).bind fun z => s.findTile g v z with
        | none => s
        | some t => s.putVtile g v t) s
      match s1.graph? g with
      | none => s1
      | some z => if z.unplaced.isEmpty then s1.resume g 1 else s1

/-- A tile has become usable and free: suspended graphs are tried again (R158). -/
def State.retryAll (s : State) : State := s.graphIds.foldl State.retry s

/-! ### The commands -/

/-- `BURGEE_PASS` (R164, R165, R166, R168, R169): the tile and its shadows pass; a tile that the new image leaves out is
freed. -/
def execBurgeePass (t : Nat) (s : State) : Out3 :=
  s.onLive (t < 320)
    (match (s.tile t).use with
     | .bound g v => match s.graph? g with
       | none => s
       | some y => match y.change with
         | none => s
         | some c =>
           let x := s.tile t
           let feeds := s.feeds y v x.cfg.generation
           if c.placed && x.cfg.generation == y.generation && s.runs t && s.passReady y v t
               && feeds.all (fun e => (x.postedFor e.1).isSome) then
             let us := s.withShadows t
             let s1 := (s.burgeeOverCircuits t y.nextGen feeds).burgeeRecords t v y.nextGen y
             if c.place.getD v 320 < 320 then
               let new := c.image.tileCfg c.place y.nextGen v
               let swap := s.swaps t
               let s2 := if x.switches new swap then s1.sendMarkers t else s1
               let s3 := us.foldl (fun s u => s.updTile u fun x => x.pass new swap) s2
               let s4 := if x.switches new swap then s3 else s3.repost t v
               ((s4.activateUnit t).releaseChannels g).finishChange g
             else
               let s2 := us.foldl (fun s u => s.freeTileNow u) (s1.sendMarkers t)
               (((s2.updGraph g fun y => { y with place := listSet y.place v 320 }).releaseChannels g).finishChange g).retryAll
           else s
     | _ => s)

/-- The Tarn words that change region, cleared (R109). -/
def Tile.clearBetween (x : Tile) (a b : Nat) : Tile :=
  let lo := min a b * 8192
  let n := dist a b * 8192
  { x with tarn := Tab.clear lo n x.tarn, patrolBack := x.patrolBack.filter fun p => !(lo ≤ p.1 && p.1 < lo + n) }

/-- `BURGEE_SWITCH_COMPLETE` (R165, R166): the switch ends, and the producers hold the credits of the new queue table. -/
def execBurgeeSwitchComplete (t : Nat) (s : State) : Out3 :=
  s.onLive (t < 320)
    (let x := s.tile t
     match x.run.switchUntil, s.owner t, s.graphFor t with
     | some e, some (g, v), some y =>
       let old := x.run.clearFrom.getD x.cfg.layerUnits
       let x1 := (x.clearBetween old x.cfg.layerUnits).updRun fun r =>
         { r with switchUntil := none, clearFrom := none, credits := x.cfg.credits, posted := s.postsFor y v x.cfg.generation }
       (s.setTile t { x1 with cycle := max x.cycle (roundUp e 8) }).releaseChannels g
     | _, _, _ => s)

end Sys2Proof.Machine
end

