-- ==== Sys2Proof/Machine/Landing.lean ====
section
/-! DEFINITION. What the pieces of a memory-plane operation bring back: data that lands in the Tarn, acknowledgements, address
lists and CRC arrays (R47 to R50, R114, R141, R254, R260). -/

namespace Sys2Proof.Machine

/-! ### Pieces -/

/-- A served piece (R47). -/
def Piece.answer (p : Piece) (a : Answer) : Piece := { p with state := .served a.bytes a.poison a.status }

/-- A piece that has landed, with the data it brought. -/
def Piece.land (p : Piece) (data : List Byte) : Piece :=
  match p.kind with
  | .write => { p with state := .landed }
  | .cast _ => { p with state := .landed }
  | _ => { p with state := .landed, data := data }

/-- The bytes that the pieces of one kind brought, in order. -/
def Firing.listBytes (f : Firing) (k : PieceKind) : List Byte :=
  f.pieces.flatMap fun p => if p.kind == k then p.data else []

/-- Whether every piece of a kind has landed. -/
def Firing.allLanded (f : Firing) (k : PieceKind) : Bool := f.pieces.all fun p => p.kind != k || p.state == PieceState.landed

/-! ### Weight blocks (R114) -/

/-- First word that a `WLOAD` fills. -/
def Firing.base (f : Firing) : Nat := (f.outs.head?).elim 0 fun o => o.2.addr

/-- Byte of the transfer at which a piece's data begin. -/
def Firing.pieceAt (f : Firing) (p : Piece) : Nat := (p.tarn - f.base) * 8

/-- Numbers of the pieces that carry bytes of block `j` of a `WLOAD`: a request to another module is cut at 512-byte units of
the source, so it may carry bytes of two blocks. -/
def Firing.blockPieces (f : Firing) (j : Nat) : List Nat :=
  (f.pieces.zipIdx.filter fun pi =>
    let o := f.pieceAt pi.1
    pi.1.kind == PieceKind.read && o < 2048 * (j + 1) && 2048 * j < o + pi.1.bytes).map (·.2)

/-- Whether every byte of block `j` has landed: a piece that ended with a status other than `OK` brought none. -/
def Firing.blockLanded (f : Firing) (j : Nat) : Bool :=
  (f.blockPieces j).all fun i => f.pieces[i]?.all fun p => p.state == PieceState.landed && p.data.length == p.bytes

/-- The bytes of block `j`. -/
def Firing.blockBytes (f : Firing) (j : Nat) : List Byte :=
  let ps := (f.blockPieces j).filterMap fun i => f.pieces[i]?
  sliceB (ps.flatMap (·.data)) (2048 * j - (ps.head?).elim 0 f.pieceAt) 2048

/-- `TARN_ERR_ADDR` after an event of a CRC block: 2 reload, 3 reload failed. -/
def Tile.crcEvent (x : Tile) (word kind : Nat) : Tile := { x with tarnErr := ⟨word, kind, true⟩ }

/-- A block checked: fetched once more on a mismatch, and poisoned where that failed as well (R49, R114, R372). -/
def State.checkBlock (t id : Nat) (s : State) (j : Nat) : State :=
  let x := s.tile t
  match x.flight id with
  | none => s
  | some f =>
    let first := f.base + 256 * j
    if !f.blockLanded j || crc32c (f.blockBytes j) == field (f.listBytes .crcList) (4 * j) 4 then s
    else if f.reloaded.contains j then
      (s.updTile t fun x => (x.setFlight { f with poison := true }).crcEvent first 3).blame .tarn t 256 0
    else
      let ps := f.pieces.zipIdx.map fun pi =>
        if (f.blockPieces j).contains pi.2 then { pi.1 with state := PieceState.waiting, data := [] } else pi.1
      let c := x.cnt.tarnCrcReload.add 1
      let s1 := s.updTile t fun x =>
        { (x.setFlight { f with pieces := ps, reloaded := f.reloaded ++ [j] }).crcEvent first 2 with
          cnt := { x.cnt with tarnCrcReload := c } }
      (s1.noteSaturated x.cnt.tarnCrcReload c 0x20 t 1).blame .tarn t 8 0

/-- The checks that a landed piece of a `WLOAD` allows: of every block with the CRC array, and else of the blocks whose bytes
it carries. -/
def State.checkWeights (t id i : Nat) (s : State) : State :=
  match (s.tile t).flight id with
  | none => s
  | some f => match f.pieces[i]? with
    | none => s
    | some p =>
      let w := (s.tile t).op f.index
      if opCode w ≠ 0x58 || !f.allLanded .crcList then s
      else ((List.range (streamBytes w / 2048)).filter fun j =>
        p.kind == PieceKind.crcList || (f.blockPieces j).contains i).foldl (State.checkBlock t id) s

/-! ### Address lists (R141) -/

/-- The requests that a whole list asks for: a unit from, or to, each address in turn (log entry 22). -/
def Firing.listPieces (f : Firing) (gather : Bool) : List Piece :=
  let l := f.listBytes .addrList
  let data := wordBytes f.sent
  let a := ((f.outs.head?).map fun o => o.2.addr).getD 0
  (List.range (l.length / 8)).map fun i =>
    { kind := if gather then .read else .write, addr := field l (8 * i) 8 % 2 ^ 60, tarn := a + 8 * i, bytes := 64
      data := if gather then [] else sliceB data (64 * i) 64, poison := f.poison, state := .waiting, copies := [] }

/-- The list taken, or the fault of an address in it (R142). -/
def State.takeList (t id : Nat) (s : State) : State :=
  let x := s.tile t
  match x.flight id, s.owner t with
  | some f, some (g, _) =>
    let c := opCode (x.op f.index)
    if (c ≠ 0x52 && c ≠ 0x53) || !f.allLanded .addrList || f.pieces.any (fun p => p.kind != PieceKind.addrList) then s
    else
      let ps := f.listPieces (c == 0x52)
      match ps.find? fun p => !s.addrOk p.addr 64 with
      | some p => (s.updTile t fun x => x.setFlight { f with poison := true, noReplay := true }).raise 0x1102 p.addr (tg t g) f.index
      | none => s.updTile t fun x => x.setFlight { f with pieces := f.pieces ++ ps }
  | _, _ => s

/-! ### Landing -/

/-- The slice that serves a piece; none where the I/O die, another module or other tiles do. -/
def State.sliceOf (s : State) (p : Piece) : Option Nat :=
  match p.kind with
  | .cast _ => none
  | _ => match s.locate p.addr with
    | .hbm off => match s.home off with
      | .slot _ => none
      | _ => some (hbmSlice off)
    | _ => none

/-- A served piece lands (R48): data goes to the Tarn, and its mark and status to the firing. -/
def State.landPiece (t id i : Nat) (s : State) : State :=
  let x := s.tile t
  match x.flight id with
  | none => s
  | some f => match f.pieces[i]? with
    | none => s
    | some p => match p.state with
      | .served data poison status =>
        let f1 := (f.setPiece i (p.land data)).noteStatus status p.addr
        let f2 := if poison then { f1 with poison := true } else f1
        let x1 := x.setFlight f2
        let x2 := if p.kind == PieceKind.read && status == stOk then x1.writeBeside p.tarn (bytesToWords data) poison else x1
        ((s.setTile t x2).checkWeights t id i).takeList t id
      | _ => s

/-- Where a piece's response comes from: a slice, a tile, or the I/O die. -/
def State.answerFrom (s : State) (p : Piece) : Dest :=
  match p.kind with
  | .cast _ => .io
  | _ => match s.sliceOf p with
    | some n => .slice n
    | none => match s.locate p.addr with
      | .tarn u _ => .tile u
      | _ => .io

/-- The spine that takes a response to tile `t` (R250, R252, R374): of a slice by its memory leaf's turn, of another tile by its leaf's
turn, and from the I/O die one of the tile's own die; none where every link has no credit or is FENCED. `busy` are the spines, for
another tile the up-links, without a credit. -/
def State.spineBack (s : State) (t : Nat) (p : Piece) (busy : List Nat) : Option Nat :=
  match s.answerFrom p with
  | .slice n => s.pickBack n t busy
  | .tile u => (s.pickUp (u / 16) busy (.tile t)).map (· / 2)
  | .io => (List.range 8).find? fun j => !busy.contains j

/-- The links that a piece's response may meet on its way to tile `t` by spine `j` (R250, R252, R258). -/
def State.responseLinks (s : State) (t : Nat) (p : Piece) (j : Nat) : List Nat :=
  match s.answerFrom p with
  | .slice n => leafLink n j :: Dest.links (n / 32) j (.tile t) ++ downLinks t j
  | .tile u => [upLink (u / 16) (2 * j), upLink (u / 16) (2 * j + 1)] ++ Dest.links (tileDie u) j (.tile t) ++ downLinks t j
  | .io => downLinks t j

/-- The turn of the leaf that a response has left passed on. -/
def State.turnBack (p : Piece) (j : Nat) (s : State) : State :=
  match s.answerFrom p with
  | .slice n => s.turnUp (20 + n / 4) ((j + 1) % 8)
  | .tile u => s.turnUp (u / 16) ((2 * j + 1) % 16)
  | .io => s

/-- Whether a response may land now: the tile's slots move words, and its down-link has a cycle. -/
def State.mayLand (s : State) (t : Nat) : Bool := (s.tile t).lit && (s.out (0x1000 + t)).bulkMay

/-- A response at its tile is copied to the tile's shadows (R364): there it meets the request of the same firing. -/
def State.copyResponse (t id i : Nat) (st : PieceState) (s : State) : State :=
  match (s.tile t).flight id with
  | none => s
  | some f => ((s.withShadows t).filter (· != t)).foldl (fun s u => s.updTile u fun x => x.updRun fun r =>
      { r with copied := r.copied ++ [(f.index, f.count, i, st)] }) s

/-- The copy of its primary's response that a shadow's request meets (R364). -/
def Tile.copyFor (x : Tile) (f : Firing) (i : Nat) : Option (Nat × Nat × Nat × PieceState) :=
  x.run.copied.find? fun c => c.1 == f.index && c.2.1 == f.count && c.2.2.1 == i

/-- A shadow's request answered by the copy of its primary's response (R364). -/
def State.landCopy (t id i : Nat) (f : Firing) (s : State) : State :=
  match (s.tile t).copyFor f i with
  | none => s
  | some c =>
    ((s.updTile t fun x => x.updRun fun r => { r with copied := r.copied.erase c }).setPiece t id i c.2.2.2).landPiece t id i

/-- `MPLANE_RESPONSE` (R48, R252, R254, R255, R260, R364): data or an acknowledgement reaches the tile; a shadow takes a copy of its
primary's. `bad` names a link with a parity error on its way, which marks it poisoned; `busy` are the spines to which the leaf that it
leaves has no credit, or where that is another tile's leaf its up-links. -/
def execMplaneResponse (t id i : Nat) (bad : Option Nat) (s : State) (busy : List Nat := []) : Out3 :=
  s.onLive (t < 320 && bad.all linkOk)
    (let x := s.tile t
     match x.flight id with
     | none => s
     | some f => if s.isShadow t then (if x.lit then s.landCopy t id i f else s) else match f.pieces[i]? with
       | none => s
       | some p => match p.state, s.spineBack t p busy with
         | .served data poison status, some j =>
           if !s.mayLand t then s
           else
             let hit := bad.filter (s.responseLinks t p j).contains
             let st := PieceState.served data (poison || hit.isSome) status
             let s1 := (s.updTile t fun x => x.setFlight (f.setPiece i { p with state := st })).copyResponse t id i st
             let s2 := s1.turnBack p j
             let s3 := (s2.updOut (0x1000 + t) (LinkOut.bulk (packetFlits data.length))).parityOf hit
             s3.landPiece t id i
         | _, _ => s)

end Sys2Proof.Machine
end

