-- ==== Sys2Proof/Machine/Fabric.lean ====
section
/-! DEFINITION. The Filzor fabric's own operations: coordinates and routing tables (R266 to R268, R285, R286, R489), packets
(R280 to R284), injection, the sending side of connections (R293, R294, R297) and imports (R301). -/

namespace Sys2Proof.Machine

/-! ### Coordinates -/

/-- Dimensions in `FZ_DIMS` (R488). -/
def dimX (d : Nat) : Nat := d % 64
def dimY (d : Nat) : Nat := d / 2 ^ 6 % 64
def dimZ (d : Nat) : Nat := d / 2 ^ 12 % 32

/-- Coordinates of a module ID (R266). -/
def idX (m : Nat) : Nat := m % 32
def idY (m : Nat) : Nat := m / 2 ^ 5 % 32
def idZ (m : Nat) : Nat := m / 2 ^ 10

/-- Whether an ID names a module of the torus (R266). -/
def idIn (d m : Nat) : Bool := idX m < dimX d && idY m < dimY d && idZ m < dimZ d && idZ m < 16

/-- A module ID from coordinates. -/
def mkId (x y z : Nat) : Nat := z * 1024 + y * 32 + x

/-- The neighbour across a port (R268). -/
def neighbour (d m p : Nat) : Nat :=
  let move (c n : Nat) (plus : Bool) : Nat := if plus then (c + 1) % max n 1 else (c + n - 1) % max n 1
  match p with
  | 0 => mkId (move (idX m) (dimX d) true) (idY m) (idZ m)
  | 1 => mkId (move (idX m) (dimX d) false) (idY m) (idZ m)
  | 2 => mkId (idX m) (move (idY m) (dimY d) true) (idZ m)
  | 3 => mkId (idX m) (move (idY m) (dimY d) false) (idZ m)
  | 4 => mkId (idX m) (idY m) (move (idZ m) (dimZ d) true)
  | _ => mkId (idX m) (idY m) (move (idZ m) (dimZ d) false)

/-- Size of the dimension that a port lies in (R13). -/
def portDim (d p : Nat) : Nat := if p < 2 then dimX d else if p < 4 then dimY d else dimZ d

/-- Whether the module has coordinates (R267). -/
def State.placed (s : State) : Bool := s.fabric.source != 0

/-! ### Routing tables -/

/-- A table entry (R285): 0 done, 1 plus, 2 minus, 3 unreachable. -/
def entryAt (w c : Nat) : Nat := bits w (2 * c) 2

/-- Where a packet goes. -/
inductive Hop where
  | eject
  | port (p : Nat)
  | unreachable
deriving DecidableEq, Repr

/-- The hop of a table towards a module: X, then Y, then Z (R286). -/
def Routing.hop (r : Routing) (m : Nat) : Hop :=
  let go (e base : Nat) : Hop := if e = 3 then .unreachable else .port (base + e - 1)
  let x := entryAt r.x (idX m)
  let y := entryAt r.y (idY m)
  let z := entryAt r.z (idZ m)
  if x ≠ 0 then go x 0 else if y ≠ 0 then go y 2 else if z ≠ 0 then go z 4 else .eject

/-- A word of the default table: the shorter direction, and plus on a tie (R285). -/
def defaultWord (n c : Nat) : Nat :=
  sumNat ((List.range n).map fun i =>
    (if i = c then 0 else if 2 * ((i + n - c) % n) ≤ n then 1 else 2) * 4 ^ i)

/-- The default table of a module. -/
def defaultTable (d m : Nat) : Routing :=
  ⟨0, defaultWord (dimX d) (idX m), defaultWord (dimY d) (idY m), defaultWord (dimZ d) (idZ m)⟩

/-- Whether a word keeps the rules of R285. -/
def wordOk (n c w : Nat) : Bool :=
  (List.range n).all (fun i => (entryAt w i == 0) == (i == c)) && w < 4 ^ n

/-- Whether a table keeps them. -/
def tableOk (d m : Nat) (r : Routing) : Bool :=
  wordOk (dimX d) (idX m) r.x && wordOk (dimY d) (idY m) r.y && wordOk (dimZ d) (idZ m) r.z

/-- The table of an epoch, where the router holds one. -/
def Fabric.table (f : Fabric) (e : Nat) : Option Routing :=
  if f.active.epoch = e then some f.active
  else match f.other with
    | some r => if r.epoch = e then some r else none
    | none => none

/-- Coordinates taken into use, with the default table they give until software has loaded one (R267, R285). -/
def State.useId (m source : Nat) (s : State) : State :=
  let f := s.fabric
  { s with
    fabric := { f with
      id := m, source := source
      active := if !f.loaded && f.other.isNone then defaultTable f.dims m else f.active } }

/-- Coordinates no longer known: the own ID reads as 0 (R267). -/
def State.loseId (s : State) : State := { s with fabric := { s.fabric with id := 0, source := 0 } }

/-- `FZ_SELF` as the rules have it in use: valid and within the dimensions, unless the sideband has given coordinates
(R267). -/
def State.refreshId (s : State) : State :=
  match s.fabric.sideband with
  | some m => s.useId m 1
  | none =>
    if bit s.fabric.self 14 && idIn s.fabric.dims (s.fabric.self % 2 ^ 14) then s.useId (s.fabric.self % 2 ^ 14) 2 else s.loseId

/-! ### Time lock -/

/-- The master that `FZ_TIME_MASTER` names (R304). -/
def State.master (s : State) : Option Nat := if bit s.fabric.timeMaster 14 then some (s.fabric.timeMaster % 2 ^ 14) else none

/-- A module that names itself as the master is locked (R393). -/
def State.lockSelf (s : State) : State :=
  if s.placed && s.master == some s.fabric.id && s.fabric.lock != TimeLock.locked then
    ({ s with fabric := { s.fabric with lock := .locked, depth := 0, lastOffset := 0 } }).raise 0x150C 0 s.fabric.id 0
  else s

/-- The parent port: the port of the active table towards the master (R304). -/
def State.parentPort (s : State) : Option Nat :=
  match s.master with
  | none => none
  | some m => match s.fabric.active.hop m with
    | .port p => if m = s.fabric.id then none else some p
    | _ => none

/-! ### Counters -/

/-- Module counters (R306): 0 `FZ_E2E_CRC`, 1 `FZ_AGED_DROP`, 2 `FZ_HOP_LIMIT`, 3 `FZ_ROUTE_DROP`, 4 `FZ_EPOCH_UNKNOWN`,
5 `FZ_RETX`. -/
def State.countFz (i : Nat) (s : State) : State :=
  let old := Tab.get Counter.reset s.fabric.counters i
  let new := old.add 1
  ({ s with fabric := { s.fabric with counters := Tab.put .reset i new s.fabric.counters } }).noteSaturated old new
    (0x50300 + 8 * i) 0 0

/-- Port counters: 0 `FZ_FEC_CSYM`, 1 `FZ_FEC_UCW`, 2 `FZ_REPLAY`, 3 `FZ_RETRAIN`. -/
def FzPort.counter (x : FzPort) (i : Nat) : Counter :=
  match i with | 0 => x.csym | 1 => x.ucw | 2 => x.replays | _ => x.retrainCnt
def FzPort.setCounter (x : FzPort) (i : Nat) (c : Counter) : FzPort :=
  match i with
  | 0 => { x with csym := c }
  | 1 => { x with ucw := c }
  | 2 => { x with replays := c }
  | _ => { x with retrainCnt := c }
def State.countPort (p i n : Nat) (s : State) : State :=
  let old := (s.port p).counter i
  let new := old.add n
  (s.updPort p fun x => x.setCounter i new).noteSaturated old new (0x50100 + 64 * p + 32 + 8 * i) 0 0

/-! ### Packets -/

/-- The bytes that `crc` covers: header bytes 0, 1 and 4 to 59, then the payload (R280). -/
def crcBytes (p : Packet) : List Byte :=
  toLe 1 p.kind ++ toLe 1 p.flits ++ toLe 2 p.dst ++ toLe 2 p.src ++ toLe 2 p.dstConn ++ toLe 2 p.srcConn ++ toLe 2 p.stamp ++
    toLe 2 p.connGen ++ toLe 4 p.seq ++ toLe 4 p.low ++ toLe 8 p.addr ++ toLe 2 p.length ++ toLe 1 p.status ++ [0] ++
    toLe 4 p.window ++ toLe 8 p.opaque_ ++ List.replicate 12 0 ++ p.payload

/-- A packet with its `crc`. -/
def withCrc (p : Packet) : Packet := { p with crc := crc32c (crcBytes p) }

/-- Class of a kind: 0 request, 1 response, 2 control (R281). -/
def kindClass (k : Nat) : Nat := if k < 0x10 then 0 else if k < 0x20 then 1 else 2

/-- Whether a packet's kind, class, `flits` and `length` agree (R281). -/
def agrees (p : Packet) : Bool :=
  let data := 2 ≤ p.flits && p.flits ≤ 9 && p.length == 64 * (p.flits - 1)
  p.payload.length == 64 * (p.flits - 1) &&
  (match p.kind with
    | 0x01 => p.cls == 0 && p.flits == 1 && p.length % 64 == 0 && 64 ≤ p.length && p.length ≤ 512
    | 0x02 => p.cls == 0 && data
    | 0x11 => p.cls == 1 && (if p.status = stOk then data else p.flits == 1 && p.length == 0)
    | 0x12 => p.cls == 1 && p.flits == 1 && p.length == 0
    | k => 0x21 ≤ k && k ≤ 0x26 && p.cls == 2 && p.flits == 1 && p.length == 0)

/-- A packet from this module, not yet stamped. -/
def mkPacket (kind dst : Nat) (payload : List Byte) : Packet :=
  { kind := kind, flits := 1 + ceilDiv payload.length 64, epoch := 0, dateline := false, cls := kindClass kind, poison := false
    hops := 0, dst := dst, src := 0, dstConn := 0, srcConn := 0, stamp := 0, connGen := 0, seq := 0, low := 0, addr := 0
    length := payload.length, status := 0, window := 0, opaque_ := 0, payload := payload, crc := 0 }

/-- Whether the module may inject and forward (R284). -/
def State.fzLocked (s : State) : Bool := s.fabric.lock != TimeLock.unlocked

/-- Whether an access to a module may be injected (R266, R267, R284, R286). -/
def State.reachable (s : State) (m : Nat) : Bool :=
  s.placed && s.fzLocked && idIn s.fabric.dims m && s.fabric.active.hop m != Hop.unreachable

/-- A packet put on the local injection path with a new stamp and the current epoch (R280, R290). -/
def State.inject (p : Packet) (s : State) : State :=
  if s.fzLocked then
    let q : Packet := { p with
      src := s.fabric.id, epoch := s.fabric.active.epoch, stamp := bits s.cairn 14 16, dateline := false, hops := 0 }
    { s with fabric := { s.fabric with inject := s.fabric.inject ++ [withCrc q] } }
  else s

/-! ### Sending connections -/

def State.send (s : State) (n : Nat) : SendConn := Tab.get .reset s.fabric.send n
def State.updSend (s : State) (n : Nat) (f : SendConn → SendConn) : State :=
  { s with fabric := { s.fabric with send := Tab.upd .reset n f s.fabric.send } }

/-- Packets of a connection that wait for their response. -/
def SendConn.open_ (c : SendConn) : List Outstanding := c.waiting.filter fun o => !o.answered

/-- The next generation, skipping 0 (R293). -/
def connGenNext (g : Nat) : Nat := if g % 65536 = 65535 then 1 else g % 65536 + 1

/-- The lowest unacknowledged `seq` (R294); `own` where none is. -/
def SendConn.lowSeq (c : SendConn) (own : Nat) : Nat := ((c.open_.head?).map fun o => o.packet.seq).getD own

/-- `OPEN` of a slot sent (R293). -/
def State.sendOpen (n : Nat) (s : State) : State :=
  let c := s.send n
  (s.updSend n fun c => { c with openSends := c.openSends + 1, openAt := s.cairn }).inject
    { mkPacket 0x21 c.peer [] with srcConn := n, connGen := c.gen }

/-- A connection closed by its sender (R293, R296, R297): `CLOSE` goes out, and the slot is free. -/
def State.closeSend (n : Nat) (s : State) : State :=
  let c := s.send n
  let s1 := match c.openSlot with
    | some k =>
      let q : Packet := { mkPacket 0x24 c.peer [] with srcConn := n, dstConn := k, connGen := c.gen }
      State.inject q { s with fabric := { s.fabric with closing := s.fabric.closing ++ [(⟨n, q, s.cairn, 1⟩ : Closing)] } }
    | none => s
  s1.updSend n fun c => { SendConn.reset with gen := c.gen }

/-- The connection to a peer. -/
def State.sendTo (s : State) (m : Nat) : Option Nat :=
  (s.fabric.send.find? fun e => e.2.inUse && e.2.peer == m).map (·.1)

/-- Connection slots (R293). -/
def connSlots : Nat := 8192

/-- The slot for a new connection: a free one, or the one used least recently that has nothing outstanding (R293). -/
def State.slotFor (s : State) : Option (Nat × Bool) :=
  match (List.range connSlots).find? fun n => !(s.send n).inUse with
  | some n => some (n, false)
  | none =>
    let idle := (List.range connSlots).filter fun n => (s.send n).opened && (s.send n).open_.isEmpty
    match idle with
    | [] => none
    | n :: ns => some (ns.foldl (fun a b => if (s.send b).lastUse < (s.send a).lastUse then b else a) n, true)

/-- A slot opened towards a peer: the next generation, and `OPEN` (R293). -/
def State.startConn (n m : Nat) (s : State) : State :=
  (s.updSend n fun c =>
    { SendConn.reset with peer := m, gen := connGenNext c.gen, openFrom := s.cairn, lastUse := s.cairn, inUse := true }).sendOpen n

/-- The connection to a peer, opened where there is none. -/
def State.connFor (m : Nat) (s : State) : Option (Nat × State) :=
  match s.sendTo m with
  | some n => some (n, s)
  | none => match s.slotFor with
    | none => none
    | some (n, busy) => some (n, (if busy then s.closeSend n else s).startConn n m)

/-- A packet of an open connection sent, or sent again (R294, R296). -/
def State.transmit (n : Nat) (o : Outstanding) (s : State) : State :=
  let c := s.send n
  let o1 : Outstanding := { o with
    packet := { o.packet with dstConn := c.openSlot.getD 0, srcConn := n, connGen := c.gen, low := c.lowSeq o.packet.seq }
    sentAt := s.cairn, sends := o.sends + 1 }
  (s.updSend n fun c => { c with
    waiting := c.waiting.map fun e => if e.packet.seq = o.packet.seq then o1 else e
    lastUse := s.cairn }).inject o1.packet

/-- A request to another module: it takes the next `seq` of its connection, and goes out once that is open (R293, R294);
`none` where no connection is to be had, or its `seq` would pass 4,096 beyond `low` (R395). -/
def State.request (p : Packet) (who : Requester) (s : State) : Option State :=
  match s.connFor p.dst with
  | none => none
  | some (n, s1) =>
    let c := s1.send n
    if (c.nextSeq + 2 ^ 32 - c.lowSeq c.nextSeq) % 2 ^ 32 ≥ 4096 then none
    else
      let o : Outstanding := ⟨{ p with seq := c.nextSeq }, who, s.cairn, 0, false⟩
      let s2 := s1.updSend n fun c => { c with
        nextSeq := (c.nextSeq + 1) % 2 ^ 32, waiting := c.open_ ++ [o], lastUse := s.cairn }
      some (if c.opened then s2.transmit n o else s2)

/-! ### Imports -/

/-- The handle of the import entry whose range holds a whole packet, or 0 (R301). -/
def State.importHandle (s : State) (a n : Nat) : Nat :=
  let off := a % 2 ^ 44
  match s.fabric.imports.find? fun e => e.2.inUse && e.2.module == bits a 44 14 && e.2.space == bits a 58 2 && e.2.base ≤ off
      && off + n ≤ e.2.base + e.2.size with
  | some e => e.2.handle
  | none => 0

end Sys2Proof.Machine
end

