-- ==== Sys2Proof/Machine/Ports.lean ====
section
/-! DEFINITION. The Filzor ports and the router: training (R272 to R274), hop recovery (R275 to R279), time beacons (R304,
R305) and forwarding (R283, R284, R286, R292). -/

namespace Sys2Proof.Machine

/-! ### Training -/

/-- A port as its link comes up: sequence numbers, buffers and credits begin anew (R271, R276). -/
def FzPort.fresh (x : FzPort) : FzPort :=
  { x.dropped with
    txCsn := 0, rxCsn := 0, rxGood := none, sinceLink := 0, sinceControl := 7, freed := List.replicate 6 0, farFreed := List.replicate 6 0, sent := List.replicate 6 0, beacons := []
    limited := false, transit := 0, discards := [] }

/-- Saved equalisation values of a port and its neighbour (R424, R429). -/
def State.savedTaps (s : State) (p : Nat) : Option Nat :=
  s.saved 8 (p * 2 ^ 14 + neighbour s.fabric.dims s.fabric.id p)

/-- A row that takes a port from one state to another. -/
def State.portStep (p : Nat) (from_ : PortState) (act : State → State) (s : State) : Out3 :=
  onUnit (p < 6) (if (s.port p).state = from_ then act s else s)

/-- `FZ_SIGNAL_DETECT` (R272). -/
def execFzSignalDetect (p : Nat) (s : State) : Out3 :=
  s.portStep p .detect fun s =>
    (s.updPort p fun x => { x with taps := (s.savedTaps p).getD x.taps }).portTo p .equalise

/-- `FZ_EQUALISE_DONE` (R272). -/
def execFzEqualiseDone (p : Nat) (s : State) : Out3 := s.portStep p .equalise (State.portTo p .align)

/-- `FZ_EQUALISE_TIMEOUT` (R272). -/
def execFzEqualiseTimeout (p : Nat) (s : State) : Out3 := s.portStep p .equalise (State.portDown p)

/-- `FZ_ALIGN_DONE` (R274): `failed` is the mask of lanes that failed. -/
def execFzAlignDone (p failed : Nat) (s : State) : Out3 :=
  s.portStep p .align fun s =>
    if failed % 256 = 0 then (s.updPort p fun x => { x with half := false }).portTo p .identify
    else if failed % 16 = 0 then
      ((s.updPort p fun x => { x with half := true }).raise 0x1506 (failed % 256) p 0).portTo p .identify
    else s.portDown p

/-- `FZ_ALIGN_TIMEOUT` (R272). -/
def execFzAlignTimeout (p : Nat) (s : State) : Out3 := s.portStep p .align (State.portTo p .equalise)

/-- The pair of a port (R13). -/
def pairPort (p : Nat) : Nat := if p % 2 = 0 then p + 1 else p - 1

/-- The failure events of the identity checks (R273). -/
def State.identityFaults (s : State) (p : Nat) (m : Nat) (far : FarId) : List Event :=
  (if far.port = pairPort p then [] else [⟨0x1503, m, p, far.port⟩]) ++
  (if far.dims = s.fabric.dims then [] else [⟨0x1504, far.dims, p, 0⟩]) ++
  (if m = neighbour s.fabric.dims s.fabric.id p then [] else [⟨0x1505, m, p, neighbour s.fabric.dims s.fabric.id p⟩])

/-- The far side's identity taken (R273): `UP` where every check passes, `HELD` where one fails, and no change while a side
has no coordinates. -/
def State.identify (p : Nat) (far : FarId) (s : State) : State :=
  match far.id with
  | none => s
  | some m =>
    if !s.placed then s
    else
      let s1 := s.updPort p fun x => { x with peer := m % 2 ^ 14, peerPort := far.port % 8, peerValid := true }
      let es := s.identityFaults p m far
      if es.isEmpty then
        let s2 := (s1.updPort p (·.fresh)).portTo p .up
        if (s2.port p).half then s2.blame .filzor p 1024 0x1506 else s2
      else (s1.raiseAll es).portTo p .held

/-- `FZ_IDENTIFY_EXCHANGE` (R273). -/
def execFzIdentifyExchange (p : Nat) (far : FarId) (s : State) : Out3 := s.portStep p .identify (State.identify p far)

/-- `FZ_HELD_RETRY` (R272, R273). -/
def execFzHeldRetry (p : Nat) (far : FarId) (s : State) : Out3 := s.portStep p .held (State.identify p far)

/-- `FZ_DOWN_RETRY` (R272). -/
def execFzDownRetry (p : Nat) (s : State) : Out3 :=
  s.portStep p .down fun s => if (s.port p).enable then s.portTo p .detect else s

/-- Whether a port's function is in use: it is enabled, its dimension is used, and it is not fenced (R272, R279, R405, R488). -/
def State.portWanted (s : State) (p : Nat) : Bool :=
  let x := s.port p
  x.enable && x.part != 3 && portDim s.fabric.dims p > 1

/-- A port enabled: it trains once its domain is on (R272, R279, R405, R488), and not at all where that is lost (R404). -/
def State.enablePort (p : Nat) (s : State) : State :=
  if !(s.portWanted p && (s.port p).state == .disabled) || s.power.lost.contains (679 + p) then s
  else if Tab.get false s.power.domOff (679 + p) then s.askDomain (679 + p) true
  else s.portTo p .detect

/-! ### Sending -/

/-- The virtual channel of a packet (R286), and its buffer at a port input in flits (R287). -/
def vcOf (k : Packet) : Nat := 2 * (k.cls % 3) + b2n k.dateline
def vcRoom (v : Nat) : Nat := if v < 4 then 128 else 32

/-- Whether the far side has room for a packet (R271, R287). -/
def FzPort.credit (x : FzPort) (k : Packet) : Bool :=
  let v := vcOf k
  (x.sent.getD v 0 + 65536 - x.farFreed.getD v 0 % 65536) % 65536 + k.flits ≤ vcRoom v

/-- The next flit of a class: of the packet in progress, else of the first packet that has room (R287). -/
def FzPort.candidate (x : FzPort) (control : Bool) : Option (Packet × Nat) :=
  match x.sending.find? fun e => (e.1.cls == 2) == control with
  | some e => some e
  | none => (x.output.find? fun k => (k.cls == 2) == control && x.credit k).map fun k => (k, 0)

/-- The next flit to send: control flits go ahead, up to one in every 8 (R287). -/
def FzPort.nextFlit (x : FzPort) : Option (Packet × Nat) :=
  match x.candidate true, x.candidate false with
  | some c, some b => if 7 ≤ x.sinceControl then some c else some b
  | some c, none => some c
  | none, b => b

/-- A flit sent. -/
def FzPort.sendFlit (x : FzPort) (e : Packet × Nat) : FzPort :=
  let rest := x.sending.erase e
  { x with
    output := if e.2 = 0 then x.output.erase e.1 else x.output
    sending := if e.2 + 1 < e.1.flits then rest ++ [(e.1, e.2 + 1)] else rest
    sent := x.sent.modify (vcOf e.1) fun n => (n + 1) % 65536
    sinceControl := if e.1.cls = 2 then 0 else x.sinceControl + 1 }

/-- The next flits in their slots, and none in those that are left. -/
def FzPort.fill : Nat → FzPort → FzPort × Slots
  | 0, x => (x, [])
  | n + 1, x => match x.nextFlit with
    | none => let r := FzPort.fill n x; (r.1, none :: r.2)
    | some e => let r := FzPort.fill n (x.sendFlit e); (r.1, some e :: r.2)

/-- The next sequenced codeword while the replay buffer has room (R270, R276): one of every 16 gives a slot to a link flit
(R383). -/
def FzPort.nextWord (x : FzPort) : Option (FzPort × Nat × Slots) :=
  if x.state ≠ .up || x.replay.length ≥ 512 || x.nextFlit.isNone then none
  else
    let r := if x.sinceLink ≥ 15 then let r := x.fill 9; (r.1, none :: r.2) else x.fill 10
    some ({ r.1 with
      replay := r.1.replay ++ [(r.1.txCsn, r.2)], txCsn := (r.1.txCsn + 1) % 1024
      sinceLink := if r.2.contains none then 0 else r.1.sinceLink + 1 }, r.1.txCsn, r.2)

/-- Sequenced codewords while there are flits to send; `fuel` bounds their number. -/
def FzPort.flush : Nat → FzPort → FzPort × List (Nat × Slots)
  | 0, x => (x, [])
  | fuel + 1, x => match x.nextWord with
    | none => (x, [])
    | some w => let r := FzPort.flush fuel w.1; (r.1, w.2 :: r.2)

/-- The link flit that a port sends now (R271, R304): with `beacon` its beacon, stamped at the fraction `frac` of a Cairn
cycle. -/
def State.linkFlit (s : State) (p : Nat) (beacon : Bool) (frac : Nat) : LinkFlit :=
  let x := s.port p
  { beacon := beacon, nak := x.nak, retrainReq := x.state == .retrain, ackValid := x.rxGood.isSome, ackCsn := x.rxGood.getD 0
    nakCsn := x.rxCsn, credits := x.freed, txCairn := s.cairn, txFrac := frac, beaconSeq := x.beaconSeq, rxCairn := x.rxCairn
    rxFrac := x.rxFrac, echoSeq := x.echoSeq, masterValid := bit s.fabric.timeMaster 14, master := s.fabric.timeMaster % 2 ^ 14
    depth := if s.fabric.lock = .unlocked then 0xFFFF else s.fabric.depth }

/-- A codeword as it goes out: with the link flits of the moment in the slots that no fabric flit fills (R271, R277). -/
def State.codeword (s : State) (p : Nat) (w : Nat × Slots) : Codeword :=
  ⟨0, w.1, w.2.map fun f => f.elim (.link (s.linkFlit p false 0)) fun e => .fabric e.1 e.2⟩

/-- A codeword with every slot a link flit (R270): it repeats the last `CSN`. -/
def State.linkWord (s : State) (p : Nat) (beacon : Bool) (frac : Nat) : Codeword :=
  ⟨0, ((s.port p).txCsn + 1023) % 1024, List.replicate 10 (.link (s.linkFlit p beacon frac))⟩

/-- A port sends what it can behind codewords that go out already, and where there is nothing a codeword of link flits. -/
def State.flushAfter (p : Nat) (before : List Codeword) (s : State) : State :=
  let x := s.port p
  let r := x.flush (9 * (x.output.length + x.sending.length) + 1)
  let s1 := s.updPort p fun _ => r.1
  if x.state ≠ .up then s1
  else s1.updPort p fun x =>
    { x with wire := if before.isEmpty && r.2.isEmpty then [s1.linkWord p false 0] else before ++ r.2.map (s1.codeword p) }

/-- A port sends what it can, and else a codeword of link flits. -/
def State.flushPort (p : Nat) (s : State) : State := s.flushAfter p []

/-! ### Layout of a codeword (R270, R271, R280) -/

/-- The header flit of a packet (R280). -/
def headerFlit (k : Packet) : List Byte :=
  toLe 1 k.kind ++ toLe 1 k.flits ++
    toLe 1 (k.epoch % 4 + 4 * b2n k.dateline + 8 * (k.cls % 4) + 32 * b2n k.poison) ++ toLe 1 k.hops ++
    (crcBytes { k with payload := [] }).drop 2 ++ toLe 4 k.crc

/-- The bytes of a link flit (R271). -/
def linkBytes (l : LinkFlit) : List Byte :=
  toLe 1 (b2n l.beacon + 2 * b2n l.nak + 4 * b2n l.retrainReq) ++ [0] ++ toLe 2 (l.ackCsn % 1024 + 2 ^ 15 * b2n l.ackValid) ++
    toLe 2 (l.nakCsn % 1024) ++ [0, 0] ++ l.credits.flatMap (toLe 2) ++ toLe 8 l.txCairn ++ toLe 2 (l.txFrac % 4096) ++
    toLe 2 l.beaconSeq ++ toLe 8 l.rxCairn ++ toLe 2 (l.rxFrac % 4096) ++ toLe 2 l.echoSeq ++
    toLe 2 (l.master % 2 ^ 14 + 2 ^ 15 * b2n l.masterValid) ++ toLe 2 l.depth ++ List.replicate 16 0

/-- The 64 bytes of a slot. -/
def slotBytes : Slot → List Byte
  | .link l => linkBytes l
  | .fabric k n => if n = 0 then headerFlit k else sliceB k.payload (64 * (n - 1)) 64

/-- The 20 blocks of a codeword, each its type bit and 32 bytes (R270). -/
def codewordBlocks (cw : Codeword) : List (Bool × List Byte) :=
  cw.slots.zipIdx.flatMap fun si =>
    [(match si.1 with | .link _ => true | .fabric _ _ => false, (slotBytes si.1).take 32), (bit cw.csn si.2, (slotBytes si.1).drop 32)]

/-- Whether a codeword is sequenced: any slot is a fabric flit (R270). -/
def isSequenced (cw : Codeword) : Bool := cw.slots.any fun x => match x with | .fabric _ _ => true | .link _ => false

/-- The link flit of a codeword: where it has several, their fields are the same (R271). -/
def linkOf (cw : Codeword) : Option LinkFlit := cw.slots.findSome? fun x => match x with | .link l => some l | .fabric _ _ => none

/-! ### Retraining -/

/-- A port enters `RETRAIN`, and asks the far side for it (R278, R372). -/
def State.portRetrain (p : Nat) (s : State) : State :=
  if (s.port p).state = .up then
    let s1 := (((s.updPort p fun x => { x with retrains := 0, resent := 0 }).countPort p 3 1).portTo p .retrain)
    (s1.updPort p fun x => { x with wire := [s1.linkWord p false 0] }).blame .filzor p 64 0
  else s

/-- `FZ_LOCK_LOSS` (R278). -/
def execFzLockLoss (p : Nat) (s : State) : Out3 := s.portStep p .up (State.portRetrain p)

/-- `FZ_RETRAIN_DONE` (R278): a port that is `UP` again resumes from the first codeword not acknowledged; the third failure in a
row takes the port `DOWN`. -/
def execFzRetrainDone (p : Nat) (ok : Bool) (s : State) : Out3 :=
  s.portStep p .retrain fun s =>
    let n := (s.port p).retrains + 1
    if ok then
      let s1 := (s.updPort p fun x => { x with retrains := 0, resent := 0 }).portTo p .up
      s1.updPort p fun x => { x with wire := x.replay.map (s1.codeword p) }
    else if n ≥ 3 then s.portDown p
    else s.updPort p fun x => { x with retrains := n }

/-- `FZ_RETRAIN_TIMEOUT` (R278). -/
def execFzRetrainTimeout (p : Nat) (s : State) : Out3 := s.portStep p .retrain (State.portDown p)

/-! ### Time (R304, R305) -/

/-- The offset to the parent's time in 1/1,024 ns, from a beacon that echoes one of ours: the stamps are instants with their
fractions, `now` of the beacon's arrival and `sent` of our own beacon. -/
def beaconOffset (now sent : Nat × Nat) (l : LinkFlit) : Int :=
  let at_ (i f : Nat) : Int := (i : Int) * 1024 + f
  let tx := at_ l.txCairn l.txFrac
  let n := at_ now.1 now.2
  let delay := ((n - at_ sent.1 sent.2) - (tx - at_ l.rxCairn l.rxFrac)) / 2
  tx + delay - n

/-- An offset in whole nanoseconds, as events name it. -/
def offsetNs (o : Int) : Int := o.tdiv 1024

/-- Whether an offset lies within a number of nanoseconds (R305). -/
def offsetWithin (o : Int) (ns : Nat) : Bool := o.natAbs ≤ ns * 1024

/-- A signed value as an event argument. -/
def signedArg (n : Nat) (i : Int) : Nat := (i % (2 ^ n : Int)).toNat

/-- A step of the Cairn before the lock, to the nearest point of the grid of 4 ns (R305, R419). -/
def State.stepCairn (o : Int) (s : State) : State :=
  { s with cairn := (((s.cairn : Int) + (o + (if o < 0 then -2048 else 2048)).tdiv 4096 * 4) % (2 ^ 64 : Int)).toNat }

/-- A slew: one Cairn cycle that adds 0 or 8, at most once in 1,024 cycles (R305); its rate is kept for the holdover (R422). DESIGN
CHOICE (log entry 81): the rate is the time since the slew before it, or since the lock. -/
def State.slew (o : Int) (s : State) : State :=
  let n := cairnSince s.fabric.lastSlew s.cairn
  if o.natAbs < 4 * 1024 || n < 4096 then s
  else
    let c := (s.cairn + if o > 0 then 8 else 0) % 2 ^ 64
    { s with cairn := c, fabric := { s.fabric with lastSlew := c, slewRate := some (n, decide (o > 0)) } }

/-- A module follows its parent's time (R305). -/
def State.follow (p master depth : Nat) (o : Int) (s : State) : State :=
  let f := s.fabric
  let s1 := { s with fabric := { f with
    lastBeacon := s.cairn, lastOffset := o, depth := if f.lock == TimeLock.unlocked then f.depth else min (depth + 1) 63 } }
  match f.lock with
  | .unlocked =>
    if offsetWithin o 4 then
      let since := f.goodSince.getD s.cairn
      if 1000000 ≤ cairnSince since s.cairn then
        ({ s1 with fabric := { s1.fabric with
          lock := .locked, goodSince := none, depth := min (depth + 1) 63, lastSlew := s.cairn, slewRate := none } }).raise 0x150C (signedArg 64 (offsetNs o)) master
          (min (depth + 1) 63)
      else { s1 with fabric := { s1.fabric with goodSince := some since } }
    else ({ s1 with fabric := { s1.fabric with goodSince := none } }).stepCairn o
  | _ =>
    let s2 := { s1 with fabric := { s1.fabric with lock := .locked } }
    let s3 := if !offsetWithin o 10000 && offsetWithin f.lastOffset 10000 then s2.raise 0x150D (signedArg 64 (offsetNs o)) p 0 else s2
    s3.slew o

/-- A beacon taken, at the fraction `frac` of a Cairn cycle: its stamps are kept for the next one sent, and the parent's is
followed (R304). -/
def State.takeBeacon (p frac : Nat) (l : LinkFlit) (s : State) : State :=
  let sent := ((s.port p).beacons.find? fun b => b.1 == l.echoSeq).map (·.2)
  let s1 := s.updPort p fun x =>
    { x with
      echoSeq := l.beaconSeq, rxCairn := s.cairn, rxFrac := frac % 4096, farMaster := if l.masterValid then some l.master else none
      farDepth := l.depth }
  match s.master, sent with
  | some m, some t =>
    if s.parentPort == some p && l.masterValid && l.master == m && l.depth ≠ 0xFFFF then
      s1.follow p m l.depth (beaconOffset (s.cairn, frac % 4096) t l)
    else s1
  | _, _ => s1

/-- `FZ_BEACON_SEND` (R271, R304): 1 µs after the one before it, in a codeword that starts at the fraction `frac`, in 1/4,096, of
a Cairn cycle. -/
def execFzBeaconSend (p : Nat) (s : State) (frac : Nat := 0) : Out3 :=
  s.portStep p .up fun s =>
    let x := s.port p
    let s1 := match x.beacons.head? with
      | none => s
      | some b => s.advanceTo (b.2.1 + 1000)
    let n := (x.beaconSeq + 1) % 65536
    let s2 := s1.updPort p fun x => { x with beaconSeq := n, beacons := ((n, s1.cairn, frac % 4096) :: x.beacons).take 4 }
    s2.updPort p fun x => { x with wire := [s2.linkWord p true (frac % 4096)] }

/-- `FZ_TIME_HOLDOVER` (R305): 100 µs after the parent's last beacon. -/
def execFzTimeHoldover (s : State) : Out3 :=
  .next (match s.fabric.lock, s.parentPort with
    | .locked, some p =>
      let s1 := s.advanceTo (s.fabric.lastBeacon + 100000)
      ({ s1 with fabric := { s1.fabric with lock := .holdover } }).raise 0x150E (signedArg 64 (offsetNs s.fabric.lastOffset)) p 0
    | _, _ => s)

/-! ### Codewords -/

/-- An acknowledgement taken: the codewords that it covers leave the replay buffer (R276). -/
def FzPort.ack (x : FzPort) (csn : Nat) : FzPort :=
  let left := x.replay.filter fun e => (csn + 1024 - e.1) % 1024 ≥ 512
  { x with replay := left, resent := if left.length < x.replay.length then 0 else x.resent }

/-- The codewords from a `CSN` on sent again: fabric flits in their slots, and link flits of the moment (R277). -/
def State.resend (p csn : Nat) (s : State) : State :=
  s.updPort p fun x => { x with wire := (x.replay.dropWhile fun e => e.1 != csn).map (s.codeword p) }

/-- A `NAK` acted on (R277, R278, R372): the codewords are sent again, and the eighth time the port retrains. -/
def State.actOnNak (p csn : Nat) (s : State) : State :=
  if !(s.port p).replay.any (·.1 == csn) then s
  else
    let n := (s.port p).resent + 1
    let s1 := ((s.updPort p fun x => { x with resent := n }).countPort p 2 1).blame .filzor p 1 0
    if n ≥ 8 then s1.portRetrain p else s1.resend p csn

/-- A link flit taken (R271, R276 to R278, R304). -/
def State.takeLinkFlit (p frac : Nat) (l : LinkFlit) (s : State) : State :=
  let s1 := s.updPort p fun x => { (if l.ackValid then x.ack l.ackCsn else x) with farFreed := l.credits }
  let s2 := if l.nak then s1.actOnNak p l.nakCsn else s1
  let s3 := if l.retrainReq then s2.portRetrain p else s2
  if l.beacon then s3.takeBeacon p frac l else s3

/-- A codeword discarded (R277, R278): a `NAK` is sent, and more than 1,000 within 1 ms retrain the port. -/
def State.discarded (p : Nat) (s : State) : State :=
  let ds := (s.port p).discards.filter (fun t => cairnSince t s.cairn < 1000000) ++ [s.cairn]
  let s1 := s.updPort p fun x => { x with nak := true, discards := ds }
  if ds.length > 1000 then s1.portRetrain p else s1

/-- A codeword that cannot be corrected (R275, R277, R278, R372). -/
def State.discardCodeword (p : Nat) (s : State) : State := ((s.countPort p 1 1).blame .filzor p 1 0).discarded p

/-- Corrected symbols counted, with a weight for each 2^20 of them (R275, R372). -/
def State.countSymbols (p n : Nat) (s : State) : State :=
  let old := (s.port p).csym.count
  let s1 := s.countPort p 0 n
  if (s1.port p).csym.count / 2 ^ 20 > old / 2 ^ 20 then s1.blame .filzor p 1 0 else s1

/-- A flit that has come (R270, R280): with its last flit a packet waits for the router. -/
def FzPort.takeFlit (x : FzPort) (k : Packet) (n : Nat) : FzPort :=
  let ok := n == 0 || x.arriving.contains (k, n)
  let rest := x.arriving.erase (k, n)
  if !ok then x
  else if n + 1 < k.flits then { x with arriving := rest ++ [(k, n + 1)] }
  else { x with arriving := rest, input := x.input ++ [k] }

/-- The slots of a codeword that is taken in order. -/
def FzPort.takeCodeword (x : FzPort) (cw : Codeword) : FzPort :=
  cw.slots.foldl (fun x f => match f with | .fabric k n => x.takeFlit k n | .link _ => x)
    { x with rxCsn := (x.rxCsn + 1) % 1024, rxGood := some x.rxCsn, nak := false }

/-- A corrected codeword (R277): a sequenced one is taken in `CSN` order, and discarded out of it. -/
def State.acceptCodeword (p : Nat) (cw : Codeword) (s : State) : State :=
  let x := s.port p
  if x.state ≠ .up || !isSequenced cw then s
  else if cw.csn = x.rxCsn then s.updPort p fun x => x.takeCodeword cw
  else s.discarded p

/-- `FZ_CODEWORD_RECEIVE` (R270, R271, R275 to R279, R304, R305), at the fraction `frac`, in 1/4,096, of a Cairn cycle: what a `NAK`
has sent again goes out ahead of anything new, and a discarded codeword is answered with a `NAK` (R277). -/
def execFzCodewordReceive (p : Nat) (cw : Codeword) (s : State) (frac : Nat := 0) : Out3 :=
  s.portStep p .up fun s =>
    if cw.wrong > 15 then (s.discardCodeword p).flushPort p
    else
      let s0 := s.updPort p fun x => { x with wire := [] }
      let s1 := if cw.wrong = 0 then s0 else s0.countSymbols p cw.wrong
      let s2 := match linkOf cw with
        | none => s1
        | some l => if (s1.port p).state == PortState.up then s1.takeLinkFlit p frac l else s1
      let s3 := s2.acceptCodeword p cw
      s3.flushAfter p (s3.port p).wire

/-! ### The router -/

/-- The packet that waits at an input: port 0 to 5, or 6 for the local injection path. -/
def State.waitingAt (s : State) (p : Nat) : Option Packet := if p = 6 then s.fabric.inject.head? else (s.port p).input.head?

/-- That packet taken out, with the credit of its flits (R271). -/
def State.takeAt (p : Nat) (s : State) : State :=
  if p = 6 then { s with fabric := { s.fabric with inject := s.fabric.inject.drop 1 } }
  else s.updPort p fun x => match x.input with
    | [] => x
    | k :: ks => { x with input := ks, freed := x.freed.modify (vcOf k) fun n => (n + k.flits) % 65536 }

/-- Whether a port's link is the wrap-around one of its ring (R286). -/
def wrapLink (d m p : Nat) : Bool :=
  let c := if p < 2 then idX m else if p < 4 then idY m else idZ m
  if p % 2 = 0 then c + 1 == portDim d p else c == 0

/-- A packet as it leaves on port `q`, having come in on `p` (R286). -/
def State.hopped (s : State) (p q : Nat) (k : Packet) : Packet :=
  let turned := p == 6 || p / 2 != q / 2
  { k with hops := k.hops + 1, dateline := (!turned && k.dateline) || wrapLink s.fabric.dims s.fabric.id q }

/-- The injection limit of an output as its queue fills to `depth` per cent (R292). -/
def State.limit (q depth : Nat) (s : State) : State :=
  let x := s.port q
  if depth ≥ 75 then
    let s1 := if x.limited then s else s.updPort q fun x => { x with limited := true, transit := 0 }
    if s.fabric.scheduled && x.overrunAt.all fun t => 1000000 ≤ cairnSince t s.cairn then
      (s1.updPort q fun x => { x with overrunAt := some s.cairn }).raise 0x150B 0 q 0
    else s1
  else if depth < 25 then s.updPort q fun x => { x with limited := false } else s

/-- A packet put on an output; one for a port that is not up is dropped (R278, R287, R292). -/
def State.output (p q : Nat) (k : Packet) (s : State) : State :=
  let s1 := s.takeAt p
  let x := s1.port q
  if x.state ≠ .up && x.state ≠ .retrain then s1
  else
    (s1.updPort q fun x =>
      { x with output := x.output ++ [s.hopped p q k], turn := (p + 1) % 7, transit := if p = 6 then 0 else x.transit + 1 }).flushPort q

/-- Whether a packet at input `p` waits for output `q`, and the injection limit lets it go (R287, R292). -/
def State.readyFor (s : State) (q p : Nat) : Bool :=
  (match s.waitingAt p with
    | none => false
    | some k => (s.fabric.table k.epoch).any fun r => r.hop k.dst == .port q) &&
  !(p == 6 && (s.port q).limited && (s.port q).transit < 16)

/-- Whether the round of output `q` over its inputs has come to `p`: the first ready one from its turn on (R287). -/
def State.turnIs (s : State) (q p : Nat) : Bool :=
  (((List.range 7).map fun i => ((s.port q).turn + i) % 7).find? (s.readyFor q)) == some p

/-- A packet ejected: dropped where its `crc` or its fields fail (R281, R282). -/
def State.ejectPacket (k : Packet) (s : State) : State :=
  if k.crc = (withCrc k).crc && agrees k then { s with fabric := { s.fabric with eject := s.fabric.eject ++ [k] } }
  else s.countFz 0

/-- Age of a packet in units of 2^14 ns (R283). -/
def State.ageOf (s : State) (k : Packet) : Nat := (bits s.cairn 14 16 + 65536 - k.stamp % 65536) % 65536

/-- `FZ_PACKET_FORWARD` (R283, R284, R286, R287, R290 to R292): the packet at input `p`, and the filling of its output's queue in
per cent; it waits until the round of its output comes to it. -/
def execFzPacketForward (p depth : Nat) (s : State) : Out3 :=
  onUnit (p < 7)
    (match s.waitingAt p with
     | none => s
     | some k =>
       if !s.fzLocked || s.ageOf k ≥ 64 then (s.takeAt p).countFz 1
       else match s.fabric.table k.epoch with
         | none => (s.takeAt p).countFz 4
         | some r => match r.hop k.dst with
           | .unreachable => (s.takeAt p).countFz 3
           | .eject => (s.takeAt p).ejectPacket k
           | .port q =>
             if k.hops ≥ 63 then (s.takeAt p).countFz 2
             else
               let s1 := s.limit q depth
               if s1.turnIs q p then s1.output p q k else s1)

end Sys2Proof.Machine
end

