-- ==== Sys2Proof/Machine/Plane.lean ====
section
/-! DEFINITION. Requests on the memory plane: reads and writes served by a slice, the CXL tier, a Tarn or another module, and
multicast packets (R217, R220 to R230, R252, R254, R258 to R261, R301). -/

namespace Sys2Proof.Machine

/-! ### Writes of tiles -/

/-- Firings of a tile whose work goes on: all but posted receives and Summits, which wait for other tiles. -/
def Tile.working (x : Tile) : List Firing :=
  x.run.flights.filter fun f => !(f.openEnded && f.acks != 0 && (opCode (x.op f.index) == 0x57 || opCode (x.op f.index) == 0x65))

/-- What the harvest of a batch waits for once its done word is written (R19, R366): the comparisons that primaries' firings still
lack, and the firings under way, each with its tile. -/
def State.openChecks (s : State) (y : Graph) : List (Nat × Nat) :=
  ((y.verify.seen.filter fun e => y.place.contains e.tile).map fun e => (e.tile, e.id)) ++
    (y.place.filter (· < 320)).flatMap fun u => (s.tile u).working.map fun f => (u, f.id)

/-- A done word written: its batch is done (R206). -/
def State.markDone (t a : Nat) (data : List Byte) (s : State) : State :=
  match s.owner t with
  | none => s
  | some (g, _) => match s.graph? g with
    | none => s
    | some y =>
      let checks := s.openChecks y
      s.updSched g fun sc =>
        { sc with batches := sc.batches.map fun b =>
            if a ≤ b.doneAddr && b.doneAddr + 8 ≤ a + data.length && field data (b.doneAddr - a) 8 == b.seq then
              { b with done := true, awaits := checks }
            else b }

/-- A tile's write to local memory, with its status; the module area takes only the done words of its graph (R223). -/
def State.tileWrite (t a : Nat) (data : List Byte) (poison : Bool) (s : State) : State × Nat :=
  match s.locate a with
  | .hbm off =>
    if off + data.length ≤ moduleArea then s.write a data poison
    else if !s.doneWordOk t a data.length then (s, stNotPermitted)
    else
      let r := s.write a data poison
      (if poison then r.1 else r.1.markDone t a data, r.2)
  | _ => s.write a data poison

/-! ### Multicast packets (R258 to R261) -/

/-- Where a copy lands in a member's Tarn: within its layer region (R107, R260). -/
def Tile.castWord (x : Tile) (a n : Nat) : Nat := 8 * (Config.mcastWord a % ((x.window - n) / 8 + 1))

/-- A copy at its member: the data, to the member and its shadows, and the acknowledgement; a tile that takes none drops it at
its leaf, which acknowledges it with the poison mark (R260, R261). -/
def State.deliverCopy (p : Piece) (m : Nat) (bad : Bool) (s : State) : State × CopyState :=
  if (s.tile m).fenced || (s.owner m).isNone || !(s.tile m).lit then (s, .acked true)
  else
    let ws := bytesToWords p.data
    let put (x : Tile) : Tile :=
      if ws.length ≤ x.window then x.writeBeside (x.castWord p.addr ws.length) ws (p.poison || bad) else x
    ((s.withShadows m).foldl (fun s u => s.updTile u put) s, .acked bad)

/-- The acknowledgements of copies that have come to their members between two sights of a packet (R252, R260). -/
def State.ackCopies (t : Nat) (back : List Nat) (old new : List (Nat × Bool × CopyState)) (s : State) : State :=
  let done (cs : List (Nat × Bool × CopyState)) : List Nat :=
    (cs.filter fun c => match c.2.2 with | .acked _ => true | _ => false).map (·.1)
  ((done new).filter fun m => !(done old).contains m).foldl (fun s m => s.ackRise m t back) s

/-- A multicast packet's copies as they stand: member, parity error, place. -/
abbrev Copies := List (Nat × Bool × CopyState)

/-- A copy sent on from where its way still leads: to the first branch without a credit, where it is held or keeps the packet
at the router's input, or to its member (R258, R259); `others` are the packet's other copies, among which one may hold the
same branch. -/
def State.sendCopy (t u : Nat) (p : Piece) (others : Copies) (held way : List (Nat × Nat)) (m : Nat) (bad : Bool) (s : State) :
    State × CopyState :=
  match way.find? held.contains with
  | none => s.deliverCopy p m bad
  | some (r, b) =>
    let room := s.copiesAt r < 64 || others.any fun c => c.2.2 == CopyState.held r && branchOf r c.1 == b
    (s, if room then .held r else .atInput r (castInput t u m r))

/-- A piece with every copy acknowledged has its answer (R260). -/
def Piece.castDone (p : Piece) : Piece :=
  match p.kind with
  | .cast _ =>
    if p.copies.all fun c => c.2.2 == .acked true || c.2.2 == .acked false then
      { p with state := .served [] (p.copies.any fun c => c.2.2 == .acked true) stOk }
    else p
  | _ => p

/-! ### Requests -/

/-- A multicast packet at its spine: a copy for each member that the Bunting has now (R258, R261); `hit` is the link of a
parity error on the way. -/
def State.castPiece (t id i u : Nat) (hit : Option Nat) (held : List (Nat × Nat)) (back : List Nat) (p : Piece) (b : Nat) (s : State) :
    State :=
  let ms := (s.graphFor t).elim [] fun y => y.members b
  let go (a : State × Copies) (m : Nat) : State × Copies :=
    let bad := hit.any (castLinks t u m).contains
    let r := a.1.sendCopy t u p a.2 held (castPath t (u / 2) m) m bad
    (r.1.putPiece t id i { p with state := .remote, copies := a.2 ++ [(m, bad, r.2)] }, a.2 ++ [(m, bad, r.2)])
  let r := ms.foldl go (s, [])
  (r.1.putPiece t id i (Piece.castDone { p with state := .remote, copies := r.2 })).ackCopies t back [] r.2

/-- The 10-bit leaf mask of a spine of die `d` for a Bunting with a bit 10 for the other die, and the 16-bit tile mask of massif leaf
`g` (R258): what the members' places give. -/
def Graph.spineMask (y : Graph) (b d : Nat) : Nat :=
  sumNat ((List.range 10).map fun i => 2 ^ i * b2n ((y.members b).any fun m => m / 16 == 10 * d + i)) +
    1024 * b2n ((y.members b).any fun m => tileDie m != d)
def Graph.leafMask (y : Graph) (b g : Nat) : Nat :=
  sumNat ((List.range 16).map fun i => 2 ^ i * b2n ((y.members b).contains (16 * g + i)))

/-- A request to another module (R217, R284, R301): one that finds no connection waits for one, for at most 4.8 ms (R296). -/
def State.farRequest (t id i : Nat) (p : Piece) (s : State) : State :=
  let m := bits p.addr 44 14
  if !s.reachable m then s.setPiece t id i (.served [] false stUnreachable)
  else
    let q : Packet :=
      if p.kind == PieceKind.write then
        { mkPacket 0x02 m p.data with addr := p.addr, window := s.importHandle p.addr p.bytes, poison := p.poison }
      else { mkPacket 0x01 m [] with addr := p.addr, length := p.bytes }
    match s.request q (.piece t id i) with
    | none =>
      let since := match p.state with | .unconnected c => c | _ => s.cairn
      s.setPiece t id i (if 4800000 ≤ cairnSince since s.cairn then .served [] false stUnreachable else .unconnected since)
    | some s1 => s1.setPiece t id i .remote

/-- A piece served where its address lies. -/
def State.servePiece (t id i : Nat) (p : Piece) (s : State) : State :=
  if p.kind == PieceKind.write then
    if s.isFar p.addr then s.farRequest t id i p
    else
      let r := s.tileWrite t p.addr p.data p.poison
      if r.2 = stWait then r.1 else r.1.setPiece t id i (.served [] false r.2)
  else if s.isFar p.addr then s.farRequest t id i p
  else
    let r := s.readNoting p.addr p.bytes
    r.2.setPiece t id i (.served r.1.bytes (r.1.poison || p.poison) r.1.status)

/-- Where a piece goes on the plane; for a multicast, one of the members behind the bridge stands for them all. -/
def State.destOf (s : State) (t : Nat) (p : Piece) : Dest :=
  match p.kind with
  | .cast b => (((s.graphFor t).elim [] fun y => y.members b).find? fun m => tileDie m != tileDie t).elim .io .tile
  | _ => match s.sliceOf p with
    | some n => .slice n
    | none => match s.locate p.addr with
      | .tarn u _ => .tile u
      | _ => .io

/-- The links of a request's way from up-link `u`. -/
def requestLinks (t u : Nat) (d : Dest) : List Nat :=
  upLink (t / 16) u :: (d.links (tileDie t) (u / 2) ++ (match d with | .tile m => downLinks m (u / 2) | _ => []))

/-- The links of a multicast packet's way to all the members of its Bunting. -/
def State.castWays (s : State) (t u b : Nat) : List Nat := ((s.graphFor t).elim [] fun y => y.members b).flatMap (castLinks t u)

/-- The up-link that a piece of a tile takes: in its leaf's turn, passing links without a credit, those behind which a multicast
packet waits, and those whose path is FENCED (R252, R259, R374). -/
def State.upFor (s : State) (t : Nat) (p : Piece) (busy : List Nat) : Option Nat :=
  let d := s.destOf t p
  let stuck := s.blockedLinks
  s.pickUp (t / 16) (busy ++ (List.range 16).filter fun u => (requestLinks t u d).any stuck.contains) d

/-- Whether a piece may be asked for now: it is not under way, it keeps the 512 of R47, and the up-link has a cycle for it. -/
def State.mayAsk (s : State) (t u : Nat) (p : Piece) : Bool :=
  (match p.state with | .waiting => true | .unconnected _ => true | _ => false) && (s.tile t).asked + p.requests ≤ 512 &&
    (s.out (upLink (t / 16) u)).bulkMay

/-- A request goes out by up-link `u`, and is served. -/
def State.sendPiece (t id i u : Nat) (bad : Option Nat) (sym : List (Nat × Nat)) (held : List (Nat × Nat)) (back : List Nat) (p : Piece)
    (s : State) : State :=
  let way := match p.kind with
    | .cast b => s.castWays t u b
    | _ => requestLinks t u (s.destOf t p)
  let hit := bad.filter way.contains
  let sent := if p.kind == PieceKind.read then 0 else p.data.length
  let s1 := ((s.updOut (upLink (t / 16) u) (LinkOut.bulk (packetFlits sent))).turnUp (t / 16) ((u + 1) % 16)).hbmUpset sym
  let s2 := s1.parityOf hit
  if (s2.piece? t id i).isNone then s2
  else match p.kind with
  | .cast b => s2.castPiece t id i u hit held back p b
  | _ =>
    let q := { p with poison := p.poison || hit.isSome }
    (s2.putPiece t id i q).servePiece t id i q

/-- `MPLANE_REQUEST` (R47, R217, R221 to R230, R252, R254, R255, R258, R259, R364): the request goes out on the up-link that its
leaf's turn comes to, and is served; a shadow's goes no further than its own router. `bad` names a link with a parity error, which
counts where it lies on the way; `sym` are the symbols that have gone wrong in lines of HBM, `busy` the leaf's up-links without a
credit, `held` the branches without one, by router, and `back` the links without one for a multicast's acknowledgements. -/
def execMplaneRequest (t id i : Nat) (bad : Option Nat) (sym : List (Nat × Nat)) (busy : List Nat) (s : State)
    (held : List (Nat × Nat) := []) (back : List Nat := []) : Out3 :=
  s.onLive (t < 320 && bad.all linkOk)
    (match s.piece? t id i with
     | none => s
     | some p =>
       if s.isShadow t then
         (if p.state == PieceState.waiting && (s.tile t).asked + p.requests ≤ 512 then s.setPiece t id i .remote else s)
       else match s.upFor t p busy with
       | none => s
       | some u => if !s.mayAsk t u p then s else s.sendPiece t id i u bad sym held back p)

/-- Where a copy of a packet stands on its way, behind the branch that it waits for. -/
def wayBehind (t u m r b : Nat) : List (Nat × Nat) :=
  ((castPath t (u / 2) m).dropWhile (· != (r, b))).drop 1

/-- The spine that a copy's router stands for: its number, or for a leaf that of the link that leads there. -/
def copySpine (r : Nat) : Nat := if r < 20 then 0 else (r - 20) % 8

/-- The copies of a packet that wait at a router for one branch sent on (R259). -/
def State.releaseBranch (t id i r b : Nat) (held : List (Nat × Nat)) (back : List Nat) (p : Piece) (s : State) : State :=
  let waits (c : Nat × Bool × CopyState) : Bool := branchOf r c.1 == b &&
    (match c.2.2 with | .held q => q == r | .atInput q _ => q == r | _ => false)
  let go (a : State × Copies) (c : Nat × Bool × CopyState) : State × Copies :=
    if waits c then
      let u := 2 * copySpine r
      let k := a.1.sendCopy t u p a.2 held (wayBehind t u c.1 r b) c.1 c.2.1
      (k.1, a.2 ++ [(c.1, c.2.1, k.2)])
    else (a.1, a.2 ++ [c])
  let k := p.copies.foldl go (s, [])
  (k.1.putPiece t id i (Piece.castDone { p with copies := k.2 })).ackCopies t back p.copies k.2

/-- `MULTICAST_BRANCH_RELEASE` (R259): a credit has come back to branch `b` of router `r`, and the copy for it goes out;
`held` are the branches behind it that have none. -/
def execMulticastBranchRelease (t id i : Nat) (s : State) (r b : Nat := 0) (held : List (Nat × Nat) := [])
    (back : List Nat := []) : Out3 :=
  s.onLive (t < 320 && r < 36)
    (match s.piece? t id i with
     | none => s
     | some p => (s.releaseBranch t id i r b held back p).admitCopies r)

/-- Whether an access to a local address goes to the CXL tier: an address of space 0b01, or a frame of HBM that stands in a
retirement slot (R229, R239). -/
def State.onCxl (s : State) (a : Nat) : Bool :=
  match s.locate a with
  | .cxl _ => true
  | .hbm off => match s.home off with
    | .slot _ => true
    | _ => false
  | _ => false

/-- `CXL_ACCESS_TIMEOUT` (R229): an access of a tile to the CXL tier that draws no response. -/
def execCxlAccessTimeout (t id i : Nat) (s : State) : Out3 :=
  s.onLive (t < 320)
    (match s.piece? t id i with
     | none => s
     | some p =>
       if p.state == PieceState.waiting && !s.isShadow t && s.onCxl p.addr && (match p.kind with | .cast _ => false | _ => true) then
         s.setPiece t id i (.served [] false stUnreachable)
       else s)

end Sys2Proof.Machine
end

