-- ==== Sys2Proof/Machine/Tier.lean ====
section
/-! DEFINITION. The memory tier: copies (R235, R343), page migration (R233, R234), patrol (R236, R237), retirement (R239,
R240), CXL devices (R226 to R231, R459) and the BAR2 window (R232, R309). -/

namespace Sys2Proof.Machine

/-! ### Copies -/

/-- Whether device memory answers: no recovery or failure keeps it away, and a start has come to its last phase (R306, R309,
R425). -/
def State.memUp (s : State) : Bool :=
  match s.seq with
  | .idle => s.inService
  | .start p => 5 ≤ p
  | _ => false

/-- A unit written to local memory by the copy engine: never into the module area (R223, R343), and into a Tarn as a staging
write (R122, R123). -/
def State.copyWrite (a : Nat) (bs : List Byte) (poison : Bool) (s : State) : State × Nat :=
  match s.locate a with
  | .hbm off => if off + bs.length ≤ moduleArea then s.write a bs poison else (s, stNotPermitted)
  | _ => s.write a bs poison

/-- Local memory from the failing unit on: open (R235, R343). -/
def State.scribble (draw a : Nat) : Nat → State → State
  | 0, s => s
  | n + 1, s => State.scribble draw (a + 64) n (if s.isFar a then s else (s.copyWrite a (freeBytes draw (64 * n) 64) false).1)

/-- A line of host memory marked as written with the poisoned bit (R343). -/
def State.hostPoison (a : Nat) (s : State) : State :=
  if s.dma then { s with host := { s.host with poison := s.host.poison ++ [a / 64] } } else s

/-- The destination of a copy from the failing unit on: open (R235, R343). -/
def State.spoil (j : CopyJob) (s : State) : State :=
  match j.kind with
  | .image _ => s
  | .toHost => (s.hostWrite j.dst (freeBytes s.draws 0 (64 * j.left))).draw
  | _ => (s.scribble s.draws j.dst j.left).draw

/-- What a copy has come to: its end with a status and detail, or another module or a tile's staging that it waits for (R123,
R217). -/
inductive CopyEnd where
  | done (status detail : Nat)
  | waits
deriving DecidableEq, Repr

/-- Whether a poisoned unit fails the copy: it goes with its mark to the host and to a page (R234, R235, R343). -/
def CopyJob.failsOn (j : CopyJob) (poison : Bool) : Bool :=
  poison && (match j.kind, j.owner with
    | .device, .desc _ => true
    | .image _, _ => true
    | _, _ => false)

/-- The next unit read. -/
def CopyJob.got (j : CopyJob) (bytes : List Byte) (poison : Bool) : CopyJob := { j with unit_ := some (bytes, poison), asked := false }

/-- The unit written, and the copy at the one behind it. -/
def CopyJob.put (j : CopyJob) : CopyJob :=
  { j with
    unit_ := none, asked := false, left := j.left - 1, src := j.src + 64, dst := j.dst + 64
    kind := match j.kind, j.unit_ with
      | .fromHost d, _ => .fromHost (d.drop 64)
      | .image bs, some u => .image (bs ++ u.1)
      | k, _ => k }

/-- Whether the access of this unit to the CXL tier draws no response (R229). -/
def State.unitDead (s : State) (j : CopyJob) (a : Nat) : Bool := j.dead == some j.left && s.onCxl a

/-- The local reading of a copy's unit, with its status and detail. -/
def State.copyGet (j : CopyJob) (s : State) : Answer × Nat × State :=
  match j.kind with
  | .fromHost d => if d.length < 64 then (⟨[], false, stPoisoned⟩, hostReadFailed, s) else (⟨d.take 64, false, stOk⟩, 0, s)
  | _ =>
    if s.unitDead j j.src then (⟨[], false, stUnreachable⟩, 0, s)
    else
      let r := s.readNoting j.src 64
      (if r.1.status = stOk && j.failsOn r.1.poison then ⟨[], false, stPoisoned⟩ else r.1, 0, r.2)

/-- The local writing of a copy's unit, with its status. -/
def State.copyPut (j : CopyJob) (bytes : List Byte) (poison : Bool) (s : State) : State × Nat :=
  match j.kind with
  | .toHost =>
    let s1 := s.hostWrite j.dst bytes
    (if poison then s1.hostPoison j.dst else s1, stOk)
  | .image _ => (s, stOk)
  | _ => if s.unitDead j j.dst then (s, stUnreachable) else s.copyWrite j.dst bytes poison

/-- Whether the source, or the destination, of a copy's unit lies in another module. -/
def State.farSource (s : State) (j : CopyJob) : Bool := (match j.kind with | .fromHost _ => false | _ => true) && s.isFar j.src
def State.farTarget (s : State) (j : CopyJob) : Bool :=
  (match j.kind with | .toHost => false | .image _ => false | _ => true) && s.isFar j.dst

/-- Whether a copy's next access goes to another module. -/
def State.copyFar (s : State) (j : CopyJob) : Bool := if j.unit_.isNone then s.farSource j else s.farTarget j

/-- Whether the life-cycle state is what keeps a staging write out of a tile (R122, R469): the tile is bound, and the state is not
`SERVICE`. -/
def State.stagingBarred (s : State) (a : Nat) : Bool :=
  match s.locate a with
  | .tarn t _ => (s.owner t).isSome && s.fuses.lcState != 4
  | _ => false

/-- A copy run on, a reading or a writing of a unit at a time, up to its end or to a unit of another module (R234, R235, R343);
`fuel` bounds these. -/
def State.runCopy : Nat → CopyJob → State → State × CopyJob × CopyEnd
  | 0, j, s => (s, j, .done stOk 0)
  | fuel + 1, j, s =>
    let fail (st detail : Nat) (s : State) : State × CopyJob × CopyEnd := (s.spoil j, j, .done st detail)
    if j.left = 0 then (s, j, .done stOk 0)
    else match j.unit_ with
      | none =>
        if s.farSource j then if s.reachable (bits j.src 44 14) then (s, j, .waits) else fail stUnreachable 0 s
        else
          let r := s.copyGet j
          if r.1.status = stOk then State.runCopy fuel (j.got r.1.bytes r.1.poison) r.2.2 else fail r.1.status r.2.1 r.2.2
      | some u =>
        if s.farTarget j then if s.reachable (bits j.dst 44 14) then (s, j, .waits) else fail stUnreachable 0 s
        else
          let w := s.copyPut j u.1 u.2
          if w.2 = stOk then State.runCopy fuel j.put w.1
          else if w.2 = stWait then (w.1, j, .waits)
          else if w.2 = stNotPermitted && w.1.stagingBarred j.dst then fail w.2 lifecycleForbids w.1
          else fail w.2 0 w.1

/-- A copy run as far as it goes. -/
def State.copyOn (j : CopyJob) (s : State) : State × CopyJob × CopyEnd := s.runCopy (2 * j.left + 1) j

/-- The packet that carries a copy's unit to or from another module (R217, R301). -/
def State.copyPacket (s : State) (j : CopyJob) : Packet :=
  match j.unit_ with
  | none => { mkPacket 0x01 (bits j.src 44 14) [] with addr := j.src % 2 ^ 60, length := 64 }
  | some u => { mkPacket 0x02 (bits j.dst 44 14) u.1 with addr := j.dst % 2 ^ 60, window := s.importHandle j.dst 64, poison := u.2 }

/-- A copy kept in the engine, with the request of an access to another module sent where a connection takes it; one that finds
none waits from then on (R296). -/
def State.keepCopy (j : CopyJob) (s : State) : State :=
  let keep (j : CopyJob) (s : State) : State := { s with mem := { s.mem with copies := s.mem.copies ++ [j] } }
  if !s.copyFar j then keep { j with asked := false, waitsFrom := none } s
  else match s.request (s.copyPacket j) (.copy j.id) with
    | none => keep { j with asked := false, waitsFrom := some (j.waitsFrom.getD s.cairn) } s
    | some s1 => keep { j with asked := true, waitsFrom := none } s1

/-- Whether a copy has waited 4.8 ms for a connection (R296). -/
def State.copyLate (s : State) (j : CopyJob) : Bool := j.waitsFrom.any fun c => 4800000 ≤ cairnSince c s.cairn

/-- A copy begun for a descriptor: it ends at once, or the descriptor waits for another module. -/
def State.beginCopy (d : Desc) (kind : CopyKind) (dead : Option Nat) (s : State) : State :=
  let r := s.copyOn ⟨s.mem.nextCopy, .desc d.tag, kind, d.get 16 8, d.get 24 8, d.get 32 8 / 64, none, false, dead, none⟩
  match r.2.2 with
  | .done st detail => r.1.complete d st detail 0
  | .waits => (State.keepCopy r.2.1 { r.1 with mem := { r.1.mem with nextCopy := r.1.mem.nextCopy + 1 } }).holdDesc d.tag

/-- The layout of `MEM_COPY` and `HOST_COPY` (R332): addresses aligned to 64, global ones below 2^60. -/
def copyForm (arg : Nat) (d : Desc) : Form :=
  let glob (a : Nat) (host : Bool) : Bool := host || a < 2 ^ 60
  { entries := 1, arg := arg, named := [(16, 24)]
    align := d.get 16 8 % 64 == 0 && d.get 24 8 % 64 == 0 && d.get 32 8 % 64 == 0 && 64 ≤ d.get 32 8 && d.get 32 8 ≤ 2 ^ 40 &&
      glob (d.get 16 8) (arg == 1 && d.arg == 0) && glob (d.get 24 8) (arg == 1 && d.arg == 1) }

/-- `MEM_COPY` (R229, R235). -/
def execMemCopy (d : Nat) (dead : Option Nat) (s : State) : Out3 :=
  s.runDesc 0x30 d (copyForm 0) fun d s => s.beginCopy d .device dead

/-- The bytes that a host read returned, up to one that failed. -/
def dmaBytes : Dma → List Byte
  | .data b => b
  | .failed _ b => b

/-- How a host read of `n` bytes failed, where it did: one that ends short drew no completion in time (R307, R312). -/
def dmaError (n : Nat) : Dma → Option AerError
  | .data b => if b.length < n then some .timeout else none
  | .failed e _ => some e

/-- `HOST_COPY` (R229, R312, R343): `data` is what the reads of host memory returned, up to the first one that failed. -/
def execHostCopy (d : Nat) (data : Dma) (dead : Option Nat) (s : State) : Out3 :=
  s.runDesc 0x31 d (copyForm 1) fun d s =>
    if d.arg = 0 then ((dmaError (d.get 32 8) data).elim s fun e => s.noteAer e).beginCopy d (.fromHost (dmaBytes data)) dead
    else s.beginCopy d .toHost dead

/-! ### Pages -/

/-- The first global address of a page (R190, R191). -/
def pageAddr (v : Serving) (pool page : Nat) : Nat := ((v.pools.getD pool ⟨0, 0⟩).base + page * v.kvPageBytes) % 2 ^ 60

/-- Whether a page lies, wholly or in part, on a range that is to be emptied (R230, R374). -/
def State.pageLeaving (s : State) (v : Serving) (pool page : Nat) : Bool :=
  s.bytesOn (pageAddr v pool page) v.kvPageBytes CxlRange.leaving != 0

/-- Streams whose pages may move: in no issued or planned batch, and with no move under way (R193, R233). -/
def State.movable (s : State) (g : Nat) (y : Graph) : List (Nat × Stream) :=
  (s.streamsOf g).filter fun e =>
    e.2.state != StreamState.ending && !y.inBatch e.1 && !y.sched.planned e.1 && !(y.sched.moves.any (·.1 == e.1))

/-- The first pool of a class's order, other than those left out, that is open and has `n` free pages; none is open that lies on a
range to be emptied. -/
def State.roomFor (s : State) (y : Graph) (v : Serving) (cls n : Nat) (skip : Nat → Bool) : Option Nat :=
  (y.sched.policy.poolsOf cls v.pools.length).find? fun p => !skip p &&
    (match v.pools[p]? with
      | none => false
      | some pool => s.poolOpen v pool && n ≤ y.sched.freeCount p pool)

/-- The moves of some entries of a stream to a pool: a page is taken for each (R234). -/
def State.startMoves (g i p : Nat) (es : List (Nat × Nat × Nat)) (s : State) : State :=
  es.foldl (fun s e => match s.graph? g with
    | none => s
    | some y => match (y.serving.bind fun v => v.pools[p]?).bind fun pool => y.sched.freePage p pool with
      | none => s
      | some n => s.updSched g fun sc =>
        let sc1 := sc.takePage p n
        { sc1 with moves := sc1.moves ++ [(i, e.1, e.2.1, e.2.2, p, n)] }) s

/-- The entries of a stream whose pages a predicate names by pool and page: entry, pool, page. -/
def State.entriesIn (s : State) (i : Nat) (q : Nat → Nat → Bool) : List (Nat × Nat × Nat) :=
  ((s.pagesOf i).zipIdx.filter fun e => q e.1.1 e.1.2).map fun e => (e.2, e.1.1, e.1.2)

/-- Some pages of a stream moved elsewhere, where all of them find room. -/
def State.moveOut (g : Nat) (y : Graph) (v : Serving) (q : Nat → Nat → Bool) (to_ : Nat → Nat → Option Nat) (s : State) (e : Nat × Stream) :
    Option State :=
  let es := s.entriesIn e.1 q
  if es.isEmpty || v.pools.length = 0 || y.sched.moves.any (·.1 == e.1) then none
  else (to_ e.2.cls es.length).map fun p => s.startMoves g e.1 p es

/-- A stream's pages on ranges that are being emptied moved elsewhere, each that finds room (R230, R233, R374). -/
def State.evacuate (g : Nat) (y : Graph) (v : Serving) (s : State) (e : Nat × Stream) : Option State :=
  let room (s : State) : Option Nat := (s.graph? g).bind fun y => s.roomFor y v e.2.cls 1 fun _ => false
  let es := s.entriesIn e.1 (s.pageLeaving v)
  if es.isEmpty || (room s).isNone || y.sched.moves.any (·.1 == e.1) then none
  else some (es.foldl (fun s k => (room s).elim s fun p => s.startMoves g e.1 p [k]) s)

/-- First pool of a class, and its free pages. -/
def Graph.firstPool (y : Graph) (v : Serving) (cls : Nat) : Nat × Nat :=
  let p := ((y.sched.policy.poolsOf cls v.pools.length).head?).getD 0
  (p, y.sched.freeCount p (v.pools.getD p ⟨0, 0⟩))

/-- The first stream that a function can move. -/
def firstMove (f : Nat × Stream → Option State) (xs : List (Nat × Stream)) : Option State := xs.findSome? f

/-- `KV_PAGE_MIGRATION` (R193, R230, R233, R374): pages leave a range that is being removed or is fenced; else the stream of
class 3, 2 or 1 that has waited longest is demoted where its first pool runs low; else a `DECODE` stream is promoted. -/
def execKvPageMigration (g : Nat) (s : State) : Out3 :=
  s.onLive (g < 8)
    (match s.graph? g with
     | none => s
     | some y => match y.serving with
       | none => s
       | some v =>
         let xs := s.movable g y
         let po := y.sched.policy
         let evacuate := firstMove (s.evacuate g y v) (inPrec xs)
         let waiting (c : Nat) := sortBy (xs.filter (·.2.cls == c)) fun a b => !cairnBefore b.2.waitSince a.2.waitSince
         let demote := [3, 2, 1].findSome? fun c =>
           let f := y.firstPool v c
           if po.demoteLow != 0 && f.2 < po.demoteLow then
             firstMove (s.moveOut g y v (fun p _ => p == f.1) fun c n => s.roomFor y v c n (· == f.1)) (waiting c)
           else none
         let promote := firstMove (fun e =>
             let f := y.firstPool v e.2.cls
             if po.promoteHigh != 0 && f.2 > po.promoteHigh && e.2.state == StreamState.decode then
               s.moveOut g y v (fun p _ => p != f.1) (fun c n => s.roomFor y v c n (· != f.1)) e
             else none) (inPrec xs)
         ((evacuate.orElse fun _ => demote).orElse fun _ => promote).getD s)

/-- A page's copy has ended (R193, R234): the entry as one write, then the old page's return; where the copy failed, the old
entry stays and the new page is freed. -/
def State.finishMove (g idx entry : Nat) (ok : Bool) (s : State) : State :=
  match s.graph? g with
  | none => s
  | some y => match y.serving, y.sched.moves.find? fun m => m.1 == idx && m.2.1 == entry with
    | some v, some m =>
      let s1 := s.updSched g fun sc => { sc with moves := sc.moves.erase m }
      if ok then
        let s2 := (s1.write ((s.stream idx).kvList + 8 * entry) (toLe 8 (pageEntry v m.2.2.2.2.1 m.2.2.2.2.2)) false).1
        let s3 := s2.setPages idx ((s2.pagesOf idx).set entry (m.2.2.2.2.1, m.2.2.2.2.2))
        s3.freePage g m.2.2.1 m.2.2.2.1
      else s1.freePage g m.2.2.2.2.1 m.2.2.2.2.2
    | _, _ => s

/-- The bytes of an image that have come. -/
def CopyJob.imageBytes (j : CopyJob) : List Byte := match j.kind with | .image bs => bs | _ => []

/-- A copy has ended; an image waits for its descriptor to go on. -/
def State.endCopy (j : CopyJob) (status detail : Nat) (s : State) : State :=
  match j.owner with
  | .desc tag => s.completeTag tag status detail 0
  | .page g i e => s.finishMove g i e (status == stOk)
  | .image tag => { s with mem := { s.mem with images := s.mem.images ++ [(tag, j.imageBytes, status)] } }

/-- A copy that has begun goes on. -/
def State.moveCopy (j : CopyJob) (s : State) : State :=
  let r := s.copyOn j
  match r.2.2 with
  | .done st detail => r.1.endCopy r.2.1 st detail
  | .waits => r.1.keepCopy r.2.1

/-- The image of a descriptor, read unit by unit with what the reads count: its bytes and status, or none while a part of it that
lies in another module is awaited (R217, R333, R455); the descriptor's command then comes again. -/
def State.readImage (tag addr size : Nat) (dead : Option Nat) (s : State) : Option (List Byte × Nat) × State :=
  match s.mem.images.find? (·.1 == tag) with
  | some e => (some (e.2.1.take size, e.2.2), { s with mem := { s.mem with images := s.mem.images.filter (·.1 != tag) } })
  | none =>
    if s.mem.copies.any (·.owner == .image tag) then (none, s)
    else
      let r := s.copyOn ⟨s.mem.nextCopy, .image tag, .image [], addr, 0, ceilDiv size 64, none, false, dead, none⟩
      match r.2.2 with
      | .done st _ => (some (r.2.1.imageBytes.take size, st), r.1)
      | .waits => (none, State.keepCopy r.2.1 { r.1 with mem := { r.1.mem with nextCopy := r.1.mem.nextCopy + 1 } })

/-- The answer of another module to a copy's unit: a status other than `OK`, or a poisoned unit that the copy does not carry,
ends it (R234, R235). -/
def State.copyAnswer (id : Nat) (data : List Byte) (poison : Bool) (status : Nat) (s : State) : State :=
  match s.mem.copies.find? (·.id == id) with
  | none => s
  | some j =>
    let s1 := { s with mem := { s.mem with copies := s.mem.copies.erase j } }
    let st := if status = stOk && j.failsOn poison then stPoisoned else status
    if st ≠ stOk then (s1.spoil j).endCopy j st 0
    else s1.moveCopy (if j.unit_.isNone then j.got data poison else j.put)

/-- Copies that found no connection, or wait for a tile's staging, tried again; one that has waited 4.8 ms for a connection fails
(R123, R296). -/
def State.retryCopies (s : State) : State :=
  (s.mem.copies.filter fun j => !j.asked).foldl (fun s j =>
    let s1 := { s with mem := { s.mem with copies := s.mem.copies.erase j } }
    if s.copyLate j then (s1.spoil j).endCopy j stUnreachable 0 else s1.moveCopy j) s

/-- `TARN_CLEAR_DONE` (R109, R123): every word is zero; the clearing has taken 3,072 turns. Staging writes and copies that waited for
it go on. -/
def execTarnClearDone (t : Nat) (s : State) : Out3 :=
  s.onLive (t < 320)
    (if (s.tile t).clearing && (s.tile t).tarnPower == .active then
       (State.stagedOn t (s.updTile t fun x => { x.clear with clearing := false, cycle := x.cycle + 24576 })).retryCopies
     else s)

/-- `KV_PAGE_MOVE_DONE` (R190, R193, R229, R234): the page is copied, and the move ends once the copy has; `ok` false is a copy
whose access to the CXL tier draws no response. -/
def execKvPageMoveDone (g idx entry : Nat) (ok : Bool) (s : State) : Out3 :=
  s.onLive (g < 8)
    (match s.graph? g with
     | none => s
     | some y => match y.serving, y.sched.moves.find? fun m => m.1 == idx && m.2.1 == entry with
       | some v, some m =>
         let owner := CopyOwner.page g idx entry
         if s.mem.copies.any fun j => j.owner == owner then s
         else if !ok then s.finishMove g idx entry false
         else State.moveCopy ⟨s.mem.nextCopy, owner, .device, pageAddr v m.2.2.1 m.2.2.2.1, pageAddr v m.2.2.2.2.1 m.2.2.2.2.2,
           v.kvPageBytes / 64, none, false, none, none⟩ { s with mem := { s.mem with nextCopy := s.mem.nextCopy + 1 } }
       | _, _ => s)

/-! ### Patrol and retirement -/

/-- Lines of a slice (R222). -/
def sliceLines : Nat := 100663296

/-- `HBM_PATROL_READ` (R236, R237): the next line of slice `slice` of group `sg`, in which `wrong` more symbols have gone wrong;
a line that was corrected is written back, and one that fails detection is stored as poisoned. -/
def execHbmPatrolRead (sg slice wrong : Nat) (s : State) : Out3 :=
  s.onLive (sg < 16 && slice < 4)
    (let n := 4 * sg + slice
     let x := s.slice n
     let covered := match x.state with | .good => true | .retiring _ _ => true | _ => false
     if s.regs.hbmScrub = 0 || !s.memUp || !covered then s
     else
       let off := hbmOffset n (64 * x.patrol)
       let s1 := (s.updSlice n fun x => { x with patrol := (x.patrol + 1) % sliceLines }).hbmUpset
         (if wrong = 0 then [] else [(off / 64, wrong)])
       if s.poisoned 0 off 64 then s1
       else match s1.wrongAt (off / 64) with
         | 1 => (s1.hbmCorrected off).setWrong (off / 64) 0
         | 2 => ((s1.hbmFailed off).setPoison 0 (off / 64) true).setWrong (off / 64) 0
         | _ => s1)

/-- A frame copied to its slot, line by line with what the reads count: a poisoned line, and one that fails detection, is
copied as poison (R224, R225, R239). -/
def State.copyFrame (slice frame c : Nat) (s : State) : State :=
  let off := hbmOffset slice (4096 * frame)
  (List.range 64).foldl (fun s i =>
    let r := s.readLine (off + 64 * i) 64
    (s.noteLine (off + 64 * i)).store 1 (c + 64 * i) r.bytes r.poison) s

/-- `RETIRE_FRAME_COPIED` (R229, R239): the next frame of a slice stands in its slot; with the last one the slice is retired. With
`dead` the slot's device does not acknowledge the copy in time: the frame's bit is not set, and the frame is copied again. -/
def execRetireFrameCopied (slice : Nat) (s : State) (dead : Bool := false) : Out3 :=
  s.onLive (slice < 64)
    (match (s.slice slice).state with
     | .retiring i f =>
       let c := s.slotBase i + 4096 * f
       if !s.cxlServed c then s.loseSlice slice 2
       else
         let s1 := s.copyFrame slice f c
         if dead then s1
         else if f + 1 < sliceFrames then s1.updSlice slice fun x => { x with state := .retiring i (f + 1) }
         else
           let s2 := s1.updSlice slice fun x => { x with state := .retired i }
           ({ s2 with ledger := { s2.ledger with retired := s2.ledger.retired ++ [(slice, i, (Tab.get RetireSlot.reset s.mem.slots i).baseGib)] } }).raise 0x1308 0 slice i
     | _ => s)

/-! ### CXL ranges -/

/-- Whether a stream holds a page that lies, wholly or in part, on a range. -/
def State.holdsPage (s : State) (r g i : Nat) : Bool :=
  match (s.graph? g).bind (·.serving) with
  | none => false
  | some v => (s.pagesOf i).any fun p => s.onRange (pageAddr v p.1 p.2) v.kvPageBytes r != 0

/-- Streams with a page on a range: graph and index. -/
def State.holders (s : State) (r : Nat) : List (Nat × Nat) :=
  s.graphIds.flatMap fun g => ((s.streamsOf g).filter fun e => s.holdsPage r g e.1).map fun e => (g, e.1)

/-- Whether any of a slot's 6 GiB lies on a range. -/
def State.slotOn (s : State) (r i : Nat) : Bool := (List.range 6).any fun k => s.rangeAt (s.slotBase i + k * 2 ^ 30) == some r

/-- Slices whose slot reaches onto a range. -/
def State.slicesOn (s : State) (r : Nat) : List (Nat × Nat) :=
  (List.range 64).filterMap fun n =>
    let on (i : Nat) : Bool := s.slotOn r i
    match (s.slice n).state with
    | .retired i => if on i then some (n, i) else none
    | .retiring i _ => if on i then some (n, i) else none
    | _ => none

/-- A stream loses the pages that it held on a range (R230). -/
def State.loseKv (s : State) (gi : Nat × Nat) : State :=
  match s.graph? gi.1 with
  | none => s
  | some y =>
    if y.inBatch gi.2 then s.updStream gi.2 fun x => { x with kvLost := true }
    else s.endStream gi.2 stUnreachable 0x0228

/-- A range leaves service (R230): its streams end, and the slices of its slots are lost. -/
def State.rangeOut (r members : Nat) (s : State) : State :=
  let s1 := s.updRange r fun x => { x with inService := false, members := members, removing := [] }
  let s2 := (s.holders r).foldl State.loseKv s1
  (s.slicesOn r).foldl (fun s ni => s.loseSlice ni.1 2) s2

/-- The descriptors of managed removals complete once their range is out of service (R332, R459). -/
def State.removalDone (waiting : List (Nat × Bool)) (s : State) : State := waiting.foldl (fun s w => s.completeTag w.1 stOk 0 0) s

/-- A managed removal carried out, with the descriptors that wait for it (R230, R459). -/
def State.removeRange (r : Nat) (waiting : List (Nat × Bool)) (s : State) : State :=
  let x := s.range r
  ((s.rangeOut r 0).raise 0x1305 (x.baseGib * 2 ^ 30) r x.sizeGib).removalDone waiting

/-- The device of a range on a port is gone (R228, R230). -/
def State.loseDevice (port : Nat) (s : State) (r : Nat) : State :=
  let x := s.range r
  if !x.valid || !bit x.members port then s
  else if !x.inService then s.updRange r fun x => { x with members := x.members - 2 ^ port }
  else (s.rangeOut r (x.members - 2 ^ port)).removalDone x.removing

/-- `CXL_RANGE_LOST` (R228, R230): the device on `port` is gone. -/
def execCxlRangeLost (r port : Nat) (s : State) : Out3 :=
  onUnit (r < 8 && port < 2)
    (s.loseDevice port r)

/-- `CXL_REMOVE` (R230, R332, R459). -/
def execCxlRemove (d : Nat) (s : State) : Out3 :=
  s.runDesc 0x60 d (fun _ => { entries := 1, arg := 0x107, named := [], align := true }) fun d s =>
    let r := d.arg % 8
    let x := s.range r
    if !x.valid || !x.inService then s.complete d stNotPermitted 0x0601 0
    else if bit d.arg 8 || (s.holders r).isEmpty then s.removeRange r (x.removing ++ [(d.tag, bit d.arg 8)])
    else (s.updRange r fun x => { x with removing := x.removing ++ [(d.tag, false)] }).holdDesc d.tag

/-- `CXL_REMOVE_PROCEED` (R230, R459): the range holds no KV page any more, or the removal is forced. -/
def execCxlRemoveProceed (r : Nat) (s : State) : Out3 :=
  onUnit (r < 8)
    (let ws := (s.range r).removing
     if !ws.isEmpty && (ws.any (·.2) || (s.holders r).isEmpty) then s.removeRange r ws else s)

/-- `CXL_EVENT_RECORD` (R228, R372). -/
def execCxlEventRecord (r : Nat) (s : State) : Out3 :=
  onUnit (r < 8) (if (s.range r).valid then s.blame .cxl r 16 0 else s)

/-! ### CXL devices -/

/-- Gigabytes of the space (R226). -/
def cxlGib : Nat := 8192

/-- Ranges in service or waiting for a pair's other member. -/
def State.usedRanges (s : State) : List (Nat × CxlRange) :=
  ((List.range 8).map fun r => (r, s.range r)).filter fun e => e.2.valid && e.2.members != 0

/-- Whether two runs of whole GiB overlap. -/
def gibMeet (a n b m : Nat) : Bool := a < b + m && b < a + n

/-- The lowest free offset at which a size fits, in GiB, and how much of it lies below 8 TiB (R226, R231); `fuel` bounds the
ranges passed. -/
def lowestGib (used : List (Nat × CxlRange)) (n : Nat) : Nat → Nat → Option (Nat × Nat)
  | 0, _ => none
  | fuel + 1, at_ =>
    if cxlGib ≤ at_ then none
    else match used.find? fun e => gibMeet at_ n e.2.baseGib e.2.sizeGib with
      | none => some (at_, min n (cxlGib - at_))
      | some e => lowestGib used n fuel (e.2.baseGib + e.2.sizeGib)

/-- The contents of a run of the CXL tier forgotten (R231). -/
def State.forgetCxl (lo n : Nat) (s : State) : State :=
  let m := s.mem.cxl
  { s with
    mem := { s.mem with
      inserts := s.mem.inserts + 1
      cxl := { m with
        bytes := Tab.clear lo n m.bytes, zeroed := m.zeroed.flatMap (cutRun lo n), poison := m.poison.filter fun l => !(lo ≤ l * 64 && l * 64 < lo + n) } } }

/-- Lost slices whose slot stands on a range that returns (R459). -/
def State.slicesBack (r : Nat) (s : State) : State :=
  (List.range 8).foldl (fun s i =>
    let x := Tab.get RetireSlot.reset s.mem.slots i
    if x.inUse && s.slotOn r i && s.slotMapped x.baseGib && (s.slice x.slice).state == .lost then
      let s1 := (s.updSlice x.slice fun y => { y with state := .retired i }).raise 0x1308 0 x.slice i
      { s1 with mem := { s1.mem with unplaced := s1.mem.unplaced.filter (· != x.slice) } }
    else s) s

/-- A range in service, with undefined contents (R231). -/
def State.rangeOnline (r : Nat) (s : State) : State :=
  let x := s.range r
  let s1 := (s.updRange r fun x => { x with inService := true }).forgetCxl (x.baseGib * 2 ^ 30) (x.sizeGib * 2 ^ 30)
  (s1.raise 0x1304 (x.baseGib * 2 ^ 30) r x.sizeGib).slicesBack r

/-- The entry of the map for a new range: one that names no range, and else one whose device is gone (R226, R231). Former ranges
that the new one overlaps are gone from the map by then. -/
def State.freeRange (s : State) : Option Nat :=
  ((List.range 8).find? fun r => !(s.range r).valid).orElse fun _ => (List.range 8).find? fun r => (s.range r).members == 0

/-- A device placed on a range of its own: the lowest free offset, with what lies below 8 TiB, unless its port holds 4 ranges
(R226, R231). -/
def State.placeDevice (port serial size : Nat) (s : State) : Option (Nat × State) :=
  let used := s.usedRanges
  if size = 0 || (used.countP fun e => e.2.paired || e.2.port == port) ≥ 4 then none
  else match lowestGib used size 9 0 with
    | none => none
    | some (b, gib) =>
      let s1 := (List.range 8).foldl (fun s q =>
        let x := s.range q
        if x.valid && x.members == 0 && gibMeet b gib x.baseGib x.sizeGib then s.updRange q fun _ => .reset else s) s
      s1.freeRange.map fun r => (r, s1.updRange r fun _ =>
        { CxlRange.reset with baseGib := b, sizeGib := gib, port := port, valid := true, serial := serial, members := 2 ^ port })

/-- The former range of a device: its serial number matches, and the range waits for it, on either port unless the port holds
half of its frames (R227, R231). -/
def State.formerRange (s : State) (port serial : Nat) : Option Nat :=
  (List.range 8).find? fun r => let x := s.range r
    x.valid && !x.inService &&
      (if x.paired then !bit x.members port && (if port = 0 then x.serial else x.serial2) == serial
       else x.members == 0 && x.serial == serial)

/-- A device back on its former range. -/
def CxlRange.rejoin (port : Nat) (x : CxlRange) : CxlRange :=
  { x with members := x.members ||| 2 ^ port, port := if x.paired then x.port else port }

/-- A device enumerated at its insertion: back on its former range, or on a new one (R226, R231). -/
def State.insertDevice (port serial gib : Nat) (s : State) : State :=
  match s.formerRange port serial with
  | some r =>
    let s1 := s.updRange r (CxlRange.rejoin port)
    let x := s1.range r
    if x.paired && x.members ≠ 3 then s1 else s1.rangeOnline r
  | none => match s.placeDevice port serial gib with
    | none => s
    | some (r, s1) => s1.rangeOnline r

/-- `CXL_DEVICE_INSERT` (R226, R228, R231, R459): a device whose port's domain is off waits until that has turned on, and one at a
port whose domain is lost is not enumerated (R404, R405). -/
def execCxlDeviceInsert (port kind serial gib : Nat) (s : State) : Out3 :=
  onUnit (port < 2)
    (if s.power.lost.contains (677 + port) then s
     else if kind ≠ 3 then s.raise 0x1303 serial port kind
     else if Tab.get false s.power.domOff (677 + port) then
       State.askDomain (677 + port) true { s with mem := { s.mem with waitDevices := s.mem.waitDevices ++ [(port, serial, gib)] } }
     else s.insertDevice port serial gib)

/-- The devices that waited for the domain of their port, enumerated (R226, R405). -/
def State.enumerateWaiting (port : Nat) (s : State) : State :=
  (s.mem.waitDevices.filter (·.1 == port)).foldl (fun s d => s.insertDevice d.1 d.2.1 d.2.2)
    { s with mem := { s.mem with waitDevices := s.mem.waitDevices.filter (·.1 != port) } }

/-- The devices found at a start, in the order of R226. -/
def startOrder (ds : List (Nat × Nat × Nat × Nat)) : List (Nat × Nat × Nat × Nat) :=
  sortBy ds fun a b => if a.1 != b.1 then a.1 < b.1 else a.2.2.1 ≤ b.2.2.1

/-- The CXL map of a start (R226, R228). -/
def State.enumerate (ds : List (Nat × Nat × Nat × Nat)) (s : State) : State :=
  (startOrder ds).foldl (fun s d =>
    if d.2.1 ≠ 3 then s.raise 0x1303 d.2.2.1 d.1 d.2.1
    else match s.placeDevice d.1 d.2.2.1 d.2.2.2 with
      | none => s
      | some (r, s1) => s1.updRange r fun x => { x with inService := true }) s

/-- The ranges of the two ports paired by position: at each position the run that one range of each port covers, in GiB; `fuel`
bounds the ranges. -/
def pairRanges : Nat → List CxlRange → List CxlRange → List (Nat × CxlRange × CxlRange)
  | 0, _, _ => []
  | fuel + 1, a :: as, b :: bs =>
    let n := min a.sizeGib b.sizeGib
    let rest (x : CxlRange) (xs : List CxlRange) : List CxlRange := if x.sizeGib = n then xs else { x with sizeGib := x.sizeGib - n } :: xs
    (n, a, b) :: pairRanges fuel (rest a as) (rest b bs)
  | _, _, _ => []

/-- A range that spans both ports. -/
def CxlRange.pair (base n : Nat) (a b : CxlRange) : CxlRange :=
  { CxlRange.reset with
    baseGib := base, sizeGib := 2 * n, paired := true, valid := true, inService := a.inService && b.inService
    serial := a.serial, serial2 := b.serial, members := b2n a.inService + 2 * b2n b.inService
    score := max a.score b.score, part := max a.part b.part }

/-- The two ports interleaved when the set-up lock is set, where both present equal mapped capacity: their ranges pair up by
position, from offset 0 on (R227, R486). DESIGN CHOICE (log entry 40): where the ranges of the two ports differ in size, each
pair is a run that lies on one range of each. -/
def State.interleave (s : State) : State :=
  let of (p : Nat) : List CxlRange :=
    sortBy ((s.usedRanges.filter fun e => !e.2.paired && e.2.port == p).map (·.2)) fun a b => a.baseGib ≤ b.baseGib
  let size (xs : List CxlRange) : Nat := sumNat (xs.map (·.sizeGib))
  if !s.regs.cxlIl || (of 0).isEmpty || size (of 0) ≠ size (of 1) then s
  else
    let put (a : State × Nat × Nat) (e : Nat × CxlRange × CxlRange) : State × Nat × Nat :=
      (a.1.updRange a.2.1 fun _ => CxlRange.pair a.2.2 e.1 e.2.1 e.2.2, a.2.1 + 1, a.2.2 + 2 * e.1)
    let empty := (List.range 8).foldl (fun s r => s.updRange r fun _ => .reset) s
    let s1 := ((pairRanges 8 (of 0) (of 1)).foldl put (empty, 0, 0)).1
    { s1 with regs := { s1.regs with ilActive := true } }

/-! ### BAR2 -/

/-- The global address of a flat offset (R232). -/
def State.flat (s : State) (f : Nat) : Option Nat :=
  if f < hbmBytes then some (s.fabric.id * 2 ^ 44 + f)
  else if 2 ^ 40 ≤ f && (s.rangeAt (f - 2 ^ 40)).isSome then some (2 ^ 58 + s.fabric.id * 2 ^ 44 + (f - 2 ^ 40))
  else none

/-- A read through the window, unit by unit: all ones where nothing lies, or where memory is out of reach (R232, R309); the
bytes of a range that is out of service, and with `dead` those of a device that does not respond in time, are open (R229). -/
def State.flatRead (dead : Bool) : Nat → Nat → Nat → State → List Byte × Bool × State
  | 0, _, _, s => ([], false, s)
  | fuel + 1, f, n, s =>
    if n = 0 then ([], false, s)
    else
      let k := min n (64 - f % 64)
      let u : List Byte × Bool × State := match s.flat f with
        | none => (List.replicate k 0xFF, false, s)
        | some a =>
          let r := s.readNoting a k
          if r.1.status = stOk && !(dead && s.onCxl a) then (r.1.bytes, r.1.poison, r.2) else (freeBytes s.draws a k, false, s.draw)
      let t := State.flatRead dead fuel (f + k) (n - k) u.2.2
      (u.1 ++ t.1, u.2.1 || t.2.1, t.2.2)

/-- `BAR2_READ` (R221, R232, R309): `rdBytes` are the bytes, and bit 0 of `rd` says that one of them is poisoned. -/
def execBar2Read (off n : Nat) (s : State) (dead : Bool := false) : Out3 :=
  onUnit (off + n ≤ 2 ^ 32)
    (if !s.memUp || !s.host.linkUp then { s with rd := 0, rdBytes := List.replicate n 0xFF }
     else
       let r := State.flatRead dead (n / 64 + 2) (s.regs.bar2 + off) n s
       { r.2.2 with rd := b2n r.2.1, rdBytes := r.1 })

/-- A write through the window, unit by unit; bytes for the module area are dropped (R223, R232), and with `dead` those for a
device that does not respond (R229). -/
def State.flatWrite (dead : Bool) : Nat → Nat → List Byte → State → State
  | 0, _, _, s => s
  | fuel + 1, f, bs, s =>
    if bs.isEmpty then s
    else
      let k := min bs.length (64 - f % 64)
      let s1 := match s.flat f with
        | none => s
        | some a => if (moduleArea ≤ f && f < hbmBytes) || (dead && s.onCxl a) then s else (s.write a (bs.take k) false).1
      State.flatWrite dead fuel (f + k) (bs.drop k) s1

/-- `BAR2_WRITE` (R221, R223, R232, R309). -/
def execBar2Write (off : Nat) (bytes : List Byte) (s : State) (dead : Bool := false) : Out3 :=
  onUnit (off + bytes.length ≤ 2 ^ 32)
    (if !s.memUp || !s.host.linkUp then s
     else
       let f := s.regs.bar2 + off
       let s1 := State.flatWrite dead (bytes.length / 64 + 2) f bytes s
       let first := max f moduleArea
       if first < min (f + bytes.length) hbmBytes then s1.raise 0x1302 first 0 0 else s1)

end Sys2Proof.Machine
end

