-- ==== Sys2Proof/Machine/Connections.lean ====
section
/-! DEFINITION. Packets at their destination (R282, R293 to R298), remote windows and imports (R299 to R303, R344), and the
epochs of routing tables (R285, R289 to R291). -/

namespace Sys2Proof.Machine

/-! ### Packets ejected -/

/-- The oldest ejected packet of a kind, taken out. -/
def State.takeEject (kind : Nat) (s : State) : Option (Packet × State) :=
  (pickFirst (fun k => k.kind == kind) s.fabric.eject).map fun r => (r.1, { s with fabric := { s.fabric with eject := r.2 } })

/-- A row that takes the oldest packet of its kind. -/
def State.onPacket (kind : Nat) (act : Packet → State → State) (s : State) : Out3 :=
  .next (match s.takeEject kind with
    | none => s
    | some r => act r.1 r.2)

/-- An answer to a packet, on the same connection (R294). -/
def answerTo (k : Packet) (kind : Nat) (payload : List Byte) : Packet :=
  { mkPacket kind k.src payload with
    dstConn := k.dstConn, srcConn := k.srcConn, connGen := k.connGen, seq := k.seq, opaque_ := k.opaque_ }

/-! ### The receiving side -/

def State.recv (s : State) (n : Nat) : RecvConn := Tab.get .reset s.fabric.recv n
def State.updRecv (s : State) (n : Nat) (f : RecvConn → RecvConn) : State :=
  { s with fabric := { s.fabric with recv := Tab.upd .reset n f s.fabric.recv } }

/-- Whether a receiver slot belongs to a packet's source, slot and generation (R297). -/
def RecvConn.owns (c : RecvConn) (k : Packet) : Bool := c.inUse && c.src == k.src && c.srcSlot == k.srcConn && c.gen == k.connGen

/-- The receiver slot of a repeated `OPEN`, or the lowest free one (R293). -/
def State.recvSlot (s : State) (k : Packet) : Option Nat :=
  match s.fabric.recv.find? fun e => e.2.owns k with
  | some e => some e.1
  | none => (List.range connSlots).find? fun n => !(s.recv n).inUse

/-- The connection used least recently among those that have carried no packet for 100 µs (R293). -/
def State.reclaimable (s : State) : Option (Nat × RecvConn) :=
  match s.fabric.recv.filter fun e => e.2.inUse && 100000 ≤ cairnSince e.2.lastUse s.cairn with
  | [] => none
  | e :: es => some (es.foldl (fun a b => if cairnBefore b.2.lastUse a.2.lastUse then b else a) e)

/-- `OPEN` (R293). -/
def execOpenConn (s : State) : Out3 :=
  s.onPacket 0x21 fun k s =>
    match s.recvSlot k with
    | some n =>
      let s1 := if (s.recv n).owns k then s.updRecv n fun c => { c with lastUse := s.cairn }
        else s.updRecv n fun _ => ⟨k.src, k.srcConn, k.connGen, 0, [], s.cairn, true⟩
      s1.inject { answerTo k 0x22 [] with dstConn := n }
    | none =>
      let s1 := s.inject (answerTo k 0x23 [])
      match s.reclaimable with
      | none => s1
      | some (n, c) => s1.inject { mkPacket 0x25 c.src [] with dstConn := n, srcConn := c.srcSlot, connGen := c.gen }

/-- `CLOSE` (R297). -/
def execCloseConn (s : State) : Out3 :=
  s.onPacket 0x24 fun k s =>
    if (s.recv k.dstConn).owns k then s.updRecv k.dstConn fun _ => .reset else s.inject (answerTo k 0x26 [])

/-- Whether `a` lies below `b`, modulo 2^32 (R295). -/
def seqBelow (a b : Nat) : Bool := let d := (b + 2 ^ 32 - a % 2 ^ 32) % 2 ^ 32; 0 < d && d < 2 ^ 31

/-- A request's `low` taken, and the record below it dropped (R295). -/
def RecvConn.advance (c : RecvConn) (low now : Nat) : RecvConn :=
  let l := if seqBelow c.low low then low else c.low
  { c with low := l, record := c.record.filter fun e => !seqBelow e.1 l, lastUse := now }

/-- A request of an open connection, served unless it lies below the record; another one is answered `STALE_CONN` (R295,
R297). -/
def State.onRequest (serve : Packet → State → State) (k : Packet) (s : State) : State :=
  if !(s.recv k.dstConn).owns k then s.inject (answerTo k 0x26 [])
  else
    let s1 := s.updRecv k.dstConn fun c => c.advance k.low s.cairn
    if seqBelow k.seq (s1.recv k.dstConn).low then s1 else serve k s1

/-- Whether a request's access to the CXL tier draws no response within 2 ms (R229). -/
def State.noResponse (s : State) (dead : Bool) (k : Packet) : Bool := dead && s.onCxl k.addr

/-- A read served (R123, R218, R229, R294, R306). -/
def State.serveRead (dead : Bool) (k : Packet) (s : State) : State :=
  let r := if !s.memUp || s.noResponse dead k then (⟨[], false, stUnreachable⟩, s) else s.readNoting k.addr k.length
  let data := if r.1.status = stOk then r.1.bytes else []
  r.2.inject { answerTo k 0x11 data with addr := k.addr, status := r.1.status, poison := r.1.poison && r.1.status == stOk }

/-- `READ_REQ` (R229, R294 to R297). -/
def execReadReq (s : State) (dead : Bool := false) : Out3 := s.onPacket 0x01 (State.onRequest (State.serveRead dead))

/-! ### Windows -/

def State.window (s : State) (i : Nat) : Window := Tab.get .reset s.fabric.windows i
def State.updWindow (s : State) (i : Nat) (f : Window → Window) : State :=
  { s with fabric := { s.fabric with windows := Tab.upd .reset i f s.fabric.windows } }

/-- The check of a `WRITE` at the window table (R302). -/
def State.windowCheck (s : State) (k : Packet) : Nat :=
  let w := s.window (k.window % 65536)
  let off := k.addr % 2 ^ 44
  let inside := w.isOpen && w.gen == k.window / 65536 && w.gen != 0 && w.space == bits k.addr 58 2 && w.base ≤ off &&
    off + k.length ≤ w.base + w.size
  if !inside then stWindowClosed
  else if k.src &&& w.filterMask != w.filterModule &&& w.filterMask then stNotPermitted
  else stOk

/-- A write applied whole, or refused (R122, R218, R220, R223, R229, R302). -/
def State.applyWrite (dead : Bool) (k : Packet) (s : State) : State × Nat :=
  match s.locate k.addr with
  | .fault => (s, stNotPermitted)
  | .remote _ => (s, stUnreachable)
  | .tarn _ _ => s.copyWrite k.addr k.payload k.poison
  | _ =>
    let st := s.windowCheck k
    if st ≠ stOk then (s, st) else if s.noResponse dead k then (s, stUnreachable) else s.write k.addr k.payload k.poison

/-- A write served once; a repeat takes the recorded status (R294, R295). While memory is out of reach every request is answered
`REMOTE_UNREACHABLE`, and nothing is recorded (R306, R450). One that waits for a Tarn to be cleared is answered once it is applied:
it stays with the packets to be served, and comes again (R123). -/
def State.serveWrite (dead : Bool) (k : Packet) (s : State) : State :=
  let answer (st : Nat) (s : State) : State := s.inject { answerTo k 0x12 [] with status := st }
  if !s.memUp then answer stUnreachable s
  else match (s.recv k.dstConn).record.find? fun e => e.1 == k.seq with
  | some e => answer e.2 s
  | none =>
    let r := s.applyWrite dead k
    if r.2 = stWait then { r.1 with fabric := { r.1.fabric with eject := r.1.fabric.eject ++ [k] } }
    else answer r.2 (r.1.updRecv k.dstConn fun c => { c with record := c.record ++ [(k.seq, r.2)] })

/-- `WRITE` (R220, R229, R294, R295, R302): `dead` says that its access to the CXL tier draws no response. -/
def execWrite (s : State) (dead : Bool := false) : Out3 := s.onPacket 0x02 (State.onRequest (State.serveWrite dead))

/-! ### The sending side -/

/-- Whether a sending slot is the one that a packet names. -/
def SendConn.owns (c : SendConn) (k : Packet) : Bool := c.inUse && c.peer == k.src && c.gen == k.connGen

/-- The response of an outstanding packet, at its tile or at the copy engine (R48, R50, R235, R294). -/
def State.respond (o : Outstanding) (data : List Byte) (poison : Bool) (status : Nat) (s : State) : State :=
  if o.answered then s
  else match o.who with
    | .copy j => s.copyAnswer j data poison status
    | .piece t id i =>
      if (s.piece? t id i).any fun p => p.state == PieceState.remote then
        (s.setPiece t id i (.served data poison status)).landPiece t id i
      else s

/-- A response that reaches its source (R294). -/
def State.onResponse (k : Packet) (s : State) : State :=
  let c := s.send k.srcConn
  if !c.owns k then s
  else match c.waiting.find? fun o => o.packet.seq == k.seq with
    | none => s
    | some o =>
      (s.updSend k.srcConn fun c => { c with waiting := c.waiting.filter fun e => e.packet.seq != k.seq, lastUse := s.cairn }).respond
        o k.payload k.poison k.status

/-- `READ_RESP` (R282, R294); a copy that found no connection may find one now. -/
def execReadResp (s : State) : Out3 := s.onPacket 0x11 fun k s => (s.onResponse k).retryCopies

/-- `WRITE_ACK` (R294). -/
def execWriteAck (s : State) : Out3 := s.onPacket 0x12 fun k s => (s.onResponse k).retryCopies

/-- Packets of a connection that have not gone out yet, sent. -/
def State.sendWaiting (n : Nat) (s : State) : State :=
  ((s.send n).waiting.filter fun o => o.sends == 0 && !o.answered).foldl (fun s o => s.transmit n o) s

/-- `OPEN_ACK` (R293). -/
def execOpenAck (s : State) : Out3 :=
  s.onPacket 0x22 fun k s =>
    if (s.send k.srcConn).owns k && !(s.send k.srcConn).opened then
      (s.updSend k.srcConn fun c =>
        { c with opened := true, busy := false, openSlot := some k.dstConn, lastUse := s.cairn }).sendWaiting k.srcConn
    else s

/-- `OPEN_BUSY` (R293). -/
def execOpenBusy (s : State) : Out3 :=
  s.onPacket 0x23 fun k s =>
    if (s.send k.srcConn).owns k && !(s.send k.srcConn).opened then s.updSend k.srcConn fun c => { c with busy := true } else s

/-- `RECLAIM` (R293). -/
def execReclaim (s : State) : Out3 :=
  s.onPacket 0x25 fun k s =>
    if (s.send k.srcConn).owns k && (s.send k.srcConn).open_.isEmpty then s.closeSend k.srcConn else s

/-- A `CLOSE` answered, or given up. -/
def State.dropClosing (slot gen : Nat) (s : State) : State :=
  { s with fabric := { s.fabric with closing := s.fabric.closing.filter fun c => !(c.slot == slot && c.packet.connGen == gen) } }

/-- `STALE_CONN` (R297): a new connection takes the unacknowledged packets; a `CLOSE` that it answers is not sent again. -/
def execStaleConn (s : State) : Out3 :=
  s.onPacket 0x26 fun k s0 =>
    let s := s0.dropClosing k.srcConn k.connGen
    let c := s.send k.srcConn
    if !c.owns k then s
    else
      let os := c.open_.zipIdx.map fun oi => { oi.1 with packet := { oi.1.packet with seq := oi.2 }, sends := 0 }
      (s.startConn k.srcConn c.peer).updSend k.srcConn fun c => { c with waiting := os, nextSeq := os.length }

/-- Every access that waits on a connection fails, and the slot is free (R296). -/
def State.failConn (n : Nat) (s : State) : State :=
  let os := (s.send n).open_
  os.foldl (fun s o => s.respond o [] false stUnreachable) (s.updSend n fun c => { SendConn.reset with gen := c.gen })

/-- Nanoseconds to a resend, and to the end of an opening (R296). -/
def resendNs : Nat := 1200000
def openNs : Nat := 4800000

/-- A `CLOSE` sent again, or given up after the fourth timeout (R296). No packet answers a `CLOSE` but `STALE_CONN`. -/
def State.resendClose (slot : Nat) (s : State) : State :=
  match s.fabric.closing.find? (·.slot == slot) with
  | none => s
  | some c =>
    let s1 := s.advanceTo (c.sentAt + resendNs)
    let rest := s1.fabric.closing.erase c
    if c.sends ≥ 4 then { s1 with fabric := { s1.fabric with closing := rest } }
    else
      (State.inject c.packet { s1 with
        fabric := { s1.fabric with closing := rest ++ [{ c with sentAt := s1.cairn, sends := c.sends + 1 }] } }).countFz 5

/-- `FZ_RESEND_TIMEOUT` (R296): 1.2 ms after the packet, the `OPEN` of the slot, or where `closing` says so its latest `CLOSE`, was
last sent. -/
def execFzResendTimeout (slot seq : Nat) (s : State) (closing : Bool := false) : Out3 :=
  onUnit (slot < connSlots)
    (let c := s.send slot
     if closing then s.resendClose slot
     else if !c.inUse then s
     else if !c.opened then
       if openNs ≤ cairnSince c.openFrom c.openAt + resendNs then ((s.advanceTo (c.openFrom + openNs)).failConn slot).retryCopies
       else ((s.advanceTo (c.openAt + resendNs)).sendOpen slot).countFz 5
     else match c.open_.find? fun o => o.packet.seq == seq && o.sends != 0 with
       | none => s
       | some o =>
         let s1 := s.advanceTo (o.sentAt + resendNs)
         if o.sends ≥ 4 then
           ((s1.updSend slot fun c => { c with waiting := c.waiting.filter fun e => e.packet.seq != seq }).respond o [] false
             stUnreachable).retryCopies
         else (s1.transmit slot o).countFz 5)

/-- `FZ_OPEN_RETRY` (R293, R296): 50 µs after `OPEN_BUSY`. -/
def execFzOpenRetry (slot : Nat) (s : State) : Out3 :=
  onUnit (slot < connSlots)
    (let c := s.send slot
     if !c.inUse || !c.busy then s
     else
       if openNs ≤ cairnSince c.openFrom s.cairn + 50000 then ((s.advanceTo (c.openFrom + openNs)).failConn slot).retryCopies
       else ((s.advanceTo (s.cairn + 50000)).updSend slot fun c => { c with busy := false }).sendOpen slot)

/-- `FZ_RECEIVER_IDLE` (R297): 1 s without a packet. -/
def execFzReceiverIdle (slot : Nat) (s : State) : Out3 :=
  onUnit (slot < connSlots)
    (let c := s.recv slot
     if c.inUse then (s.advanceTo (c.lastUse + 1000000000)).updRecv slot fun _ => .reset else s)

/-- `FZ_SENDER_IDLE` (R297): 0.5 s without a packet; the sender takes the connection as closed. -/
def execFzSenderIdle (slot : Nat) (s : State) : Out3 :=
  onUnit (slot < connSlots)
    (let c := s.send slot
     if c.inUse && c.opened && c.open_.isEmpty then
       (s.advanceTo (c.lastUse + 500000000)).updSend slot fun c => { SendConn.reset with gen := c.gen }
     else s)

/-! ### Window descriptors -/

/-- Details of R300, R344. -/
def windowOverlap : Nat := 0x0301
def noWindowIndex : Nat := 0x0302
def windowRange : Nat := 0x0303
def badHandle : Nat := 0x0304
def noImportEntry : Nat := 0x0305

/-- Whether a local range lies in mapped memory and clear of the module area (R300). -/
def State.windowFits (s : State) (space base size : Nat) : Bool :=
  if space = 0 then base + size ≤ moduleArea
  else (List.range ((base + size - 1) / 2 ^ 30 - base / 2 ^ 30 + 1)).all fun i => (s.rangeAt ((base / 2 ^ 30 + i) * 2 ^ 30)).isSome

/-- Whether two runs of bytes overlap. -/
def runsOverlap (a n b m : Nat) : Bool := a < b + m && b < a + n

/-- The index at the head of the free list (R299). -/
def State.windowIndex (s : State) : Option (Nat × State) :=
  let f := s.fabric
  if f.windowFresh < 65536 then some (f.windowFresh, { s with fabric := { f with windowFresh := f.windowFresh + 1 } })
  else match f.windowFreed with
    | [] => none
    | i :: is => some (i, { s with fabric := { f with windowFreed := is } })

/-- A generation raised (R299). -/
def windowGen (g : Nat) : Nat := if g = 65535 then 1 else g + 1

/-- The layout of `WINDOW_OPEN`. -/
def windowOpenForm (d : Desc) : Form :=
  { entries := 1, arg := 1
    named := if d.get 32 2 < 2 ^ 14 && d.get 34 2 < 2 ^ 14 then [(16, 20)] else []
    align := d.get 16 8 % 4096 == 0 && d.get 24 8 % 4096 == 0 && d.get 24 8 != 0 }

/-- `WINDOW_OPEN` (R299, R300). -/
def execWindowOpen (d : Nat) (s : State) : Out3 :=
  s.runDesc 0x40 d windowOpenForm fun d s =>
    let space := d.arg % 2
    let base := d.get 16 8
    let size := d.get 24 8
    if s.fabric.windows.any fun e => e.2.isOpen && e.2.space == space && runsOverlap base size e.2.base e.2.size then
      s.complete d stNotPermitted windowOverlap 0
    else match s.windowIndex with
      | none => s.complete d stNotPermitted noWindowIndex 0
      | some (i, s1) =>
        if !s.windowFits space base size then s.complete d stNotPermitted windowRange 0
        else
          let g := windowGen (s1.window i).gen
          (s1.updWindow i fun _ => ⟨g, true, none, space, base, size, d.get 32 2, d.get 34 2⟩).complete d stOk 0 (i + g * 65536)

/-- `WINDOW_CLOSE` (R303): the generation rises and the window closes; the completion waits for the writes accepted
before. -/
def execWindowClose (d : Nat) (s : State) : Out3 :=
  s.runDesc 0x41 d (fun _ => { entries := 1, arg := 0, named := [(36, 4)], align := true }) fun d s =>
    let h := d.get 36 4
    let w := s.window (h % 65536)
    if !w.isOpen || w.gen ≠ h / 65536 then s.complete d stNotPermitted badHandle 0
    else (s.updWindow (h % 65536) fun w => { w with gen := windowGen w.gen, isOpen := false, closing := some d.tag }).holdDesc d.tag

/-- `WINDOW_CLOSE_DONE` (R303). -/
def execWindowCloseDone (idx : Nat) (s : State) : Out3 :=
  onUnit (idx < 65536)
    (match (s.window idx).closing with
     | none => s
     | some t =>
       let s1 := s.updWindow idx fun w => { w with closing := none }
       ({ s1 with fabric := { s1.fabric with windowFreed := s1.fabric.windowFreed ++ [idx] } }).completeTag t stOk 0 0)

/-- The layout of `WINDOW_IMPORT`. -/
def windowImportForm (d : Desc) : Form :=
  { entries := 1, arg := 0
    named := if d.get 40 2 < 2 ^ 14 && d.get 42 1 < 2 then [(16, 16), (36, 7)] else []
    align := d.get 16 8 % 4096 == 0 && d.get 24 8 % 4096 == 0 && d.get 24 8 != 0 }

/-- `WINDOW_IMPORT` (R300, R301). -/
def execWindowImport (d : Nat) (s : State) : Out3 :=
  s.runDesc 0x42 d windowImportForm fun d s =>
    let e : Import := ⟨true, d.get 36 4, d.get 40 2, d.get 42 1, d.get 16 8, d.get 24 8⟩
    let overlaps := s.fabric.imports.any fun i => i.2.inUse && i.2.module == e.module && i.2.space == e.space &&
      runsOverlap e.base e.size i.2.base i.2.size
    match (List.range 4096).find? fun i => !(Tab.get Import.reset s.fabric.imports i).inUse with
    | none => s.complete d stNotPermitted noImportEntry 0
    | some i =>
      if overlaps then s.complete d stNotPermitted noImportEntry 0
      else ({ s with fabric := { s.fabric with imports := Tab.put .reset i e s.fabric.imports } }).complete d stOk 0 i

/-- `WINDOW_UNIMPORT` (R344). -/
def execWindowUnimport (d : Nat) (s : State) : Out3 :=
  s.runDesc 0x43 d (fun _ => { entries := 1, arg := 0, named := [(44, 2)], align := true }) fun d s =>
    let i := d.get 44 2
    if (Tab.get Import.reset s.fabric.imports i).inUse then
      ({ s with fabric := { s.fabric with imports := Tab.put .reset i .reset s.fabric.imports } }).complete d stOk 0 0
    else s.complete d stNotPermitted badHandle 0

/-! ### Epochs -/

/-- Details of R289, R290. -/
def epochBusy : Nat := 0x0306
def noTable : Nat := 0x0307

/-- `FABRIC_TABLE` (R285, R289): a repeat with the words of the active table changes nothing. -/
def execFabricTable (d : Nat) (s : State) : Out3 :=
  s.runDesc 0x50 d (fun _ => { entries := 1, arg := 3, named := [(16, 24)], align := true }) fun d s =>
    let f := s.fabric
    let r : Routing := ⟨d.arg % 4, d.get 16 8, d.get 24 8, d.get 32 8⟩
    if !tableOk f.dims f.id r then s.complete d stBad badAlign 0
    else if r = f.active then s.complete d stOk 0 0
    else if f.draining then s.complete d stNotPermitted epochBusy 0
    else if r.epoch ≠ (f.active.epoch + 1) % 4 then s.complete d stBad badAlign 0
    else ({ s with fabric := { f with other := some r } }).complete d stOk 0 0

/-- The switch of the epoch stamped into packets (R290). -/
def State.switchEpoch (e t : Nat) (s : State) : State :=
  let f := s.fabric
  match f.other with
  | some r =>
    if r.epoch = e && !f.draining then
      { s with fabric := { f with active := r, loaded := true, other := some f.active, draining := true, switchedAt := t, switch_ := none } }
    else s
  | none => s

/-- `FABRIC_EPOCH` (R290). -/
def execFabricEpoch (d : Nat) (s : State) : Out3 :=
  s.runDesc 0x51 d (fun _ => { entries := 1, arg := 3, named := [(16, 8)], align := true }) fun d s =>
    let f := s.fabric
    let e := d.arg % 4
    let t := d.get 16 8
    let loaded := match f.other with | some r => r.epoch == e && !f.draining | none => false
    if e = f.active.epoch then s.complete d stOk 0 0
    else if !loaded then s.complete d stNotPermitted noTable 0
    else if cairnBefore t s.cairn then ((s.switchEpoch e t).raise 0x1509 t e 0).complete d stOk 0 0
    else ({ s with fabric := { f with switch_ := some (e, t) } }).complete d stOk 0 0

/-- `FZ_EPOCH_SWITCH` (R290): at T. -/
def execFzEpochSwitch (s : State) : Out3 :=
  .next (match s.fabric.switch_ with
    | none => s
    | some (e, t) => (s.advanceTo t).switchEpoch e t)

/-- Packets of an epoch in the router's buffers (R291). -/
def State.drainCount (s : State) (e : Nat) : Nat :=
  s.fabric.inject.countP (·.epoch == e) + sumNat ((List.range 6).map fun p =>
    (s.port p).input.countP (·.epoch == e) + (s.port p).output.countP (·.epoch == e) +
      (s.port p).arriving.countP (·.1.epoch == e) + (s.port p).sending.countP (·.1.epoch == e))

/-- `FZ_EPOCH_RELEASE` (R291, R393): 1.2 ms after T, with no packet of the old epoch left, and not in time holdover. -/
def execFzEpochRelease (s : State) : Out3 :=
  .next (match s.fabric.other with
    | none => s
    | some r =>
      if !s.fabric.draining || s.fabric.lock == TimeLock.holdover || s.drainCount r.epoch ≠ 0 then s
      else
        let s1 := s.advanceTo (s.fabric.switchedAt + 1200004)
        ({ s1 with fabric := { s1.fabric with other := none, draining := false } }).raise 0x150A s1.cairn r.epoch 0)

end Sys2Proof.Machine
end

