-- ==== Sys2Proof/Machine/Image.lean ====
section
/-! DEFINITION. Graph images: their layout and the checks of a load, each with its detail code, in the order of R156
(R124 to R151, R154, R183). -/

namespace Sys2Proof.Machine

/-! ### Checks -/

/-- A rule with the detail code of its failure. -/
abbrev Rule := Nat × Bool

/-- The detail of the first rule broken. -/
def firstBad : List Rule → Option Nat
  | [] => none
  | r :: rs => if r.2 then firstBad rs else some r.1

/-- Details (R156, R183). -/
def badHeader : Nat := 1
def badSection : Nat := 2
def sealMismatch : Nat := 3
def badOperation : Nat := 4
def badRange : Nat := 5
def badSizing : Nat := 6
def badCircuit : Nat := 7
def badReference : Nat := 8
def badEntry : Nat := 9

/-! ### Header and sections (R125, R126) -/

/-- The header's magic and fields. -/
def hMode (b : List Byte) : Nat := field b 8 1
def hObs (b : List Byte) : Nat := field b 9 1
def hUnits (b : List Byte) : Nat := field b 10 1
def hReconfig (b : List Byte) : Bool := bit (field b 11 1) 0
def hVtiles (b : List Byte) : Nat := field b 12 2
def hBuntings (b : List Byte) : Nat := field b 14 2
def hUid (b : List Byte) : Nat := field b 16 8
def hBase (b : List Byte) : Nat := field b 24 8
def hSize (b : List Byte) : Nat := field b 32 8
def hScree (b : List Byte) : Nat := field b 40 8
def hTable (b : List Byte) : Nat := field b 48 8
def hInterval (b : List Byte) : Nat := field b 56 4
def hSections (b : List Byte) : Nat := field b 60 2
def hSeal (b : List Byte) : List Byte := sliceB b 64 64

/-- Whether a run of bytes is all zero. -/
def allZero (b : List Byte) : Bool := b.all (· == 0)

/-- Step 1, the header (R125, R154). -/
def headerRules (b : List Byte) : List Rule :=
  [(badHeader, 192 ≤ b.length && field b 0 4 == 0x4D494758 && field b 4 2 == 1),
   (badHeader, crc32c (b.take 188) == field b 188 4),
   (badHeader, hSize b == b.length && hSize b % 64 == 0),
   (badHeader, hMode b ≤ 1 && hObs b ≤ 2 && 32 ≤ hUnits b && hUnits b ≤ 95 && field b 11 1 < 2),
   (badHeader, 1 ≤ hVtiles b && hVtiles b ≤ 320 && hBuntings b ≤ 1024 && hUid b != 0),
   (badHeader, hReconfig b || hBase b == 0),
   (badHeader, hScree b % 65536 == 0 && (hMode b == 0 || 1048576 ≤ hScree b)),
   (badHeader, if hObs b = 2 then hInterval b % 4 == 0 && 10000 ≤ hInterval b && hInterval b ≤ 1000000000
      else hInterval b == 0),
   (badHeader, 3 ≤ hSections b && hSections b ≤ 8 && field b 62 2 == 0 && allZero (sliceB b 128 60))]

/-- A section table entry: type, CRC, offset, size, and whether its reserved fields are zero. -/
structure Sect where
  type : Nat
  crc : Nat
  off : Nat
  size : Nat
  zero : Bool
deriving DecidableEq, Repr

/-- The section table. -/
def sectsOf (b : List Byte) : List Sect :=
  (List.range (hSections b)).map fun i =>
    let e := sliceB b (hTable b + 32 * i) 32
    ⟨field e 0 2, field e 4 4, field e 8 8, field e 16 8, field e 2 2 == 0 && field e 24 8 == 0⟩

/-- Whether two ranges share a byte. -/
def rangesMeet (a n b m : Nat) : Bool := n != 0 && m != 0 && a < b + m && b < a + n

/-- Step 1, the section table and the CRCs (R126). -/
def sectionRules (b : List Byte) : List Rule :=
  let es := sectsOf b
  let toff := hTable b
  let tn := 32 * hSections b
  (badSection, toff % 64 == 0 && 192 ≤ toff && toff + tn ≤ b.length) ::
    (es.zipIdx.map fun e => (badSection,
      1 ≤ e.1.type && e.1.type ≤ 8 && e.1.zero && !((es.take e.2).any (·.type == e.1.type)) && e.1.off % 64 == 0 &&
        e.1.off + e.1.size ≤ b.length && !rangesMeet e.1.off e.1.size 0 192 && !rangesMeet e.1.off e.1.size toff tn &&
        !((es.take e.2).any fun f => rangesMeet e.1.off e.1.size f.off f.size) &&
        crc32c (sliceB b e.1.off e.1.size) == e.1.crc)) ++
    [(badSection, [1, 2, 3].all fun k => es.any (·.type == k))]

/-- A section's bytes; an absent one is empty. -/
def sectBytes (b : List Byte) (k : Nat) : List Byte :=
  match (sectsOf b).find? (·.type == k) with
  | none => []
  | some e => sliceB b e.off e.size

/-- Step 2 (R154, R159). -/
def sealRules (b : List Byte) : List Rule :=
  [(sealMismatch, if hMode b = 0 then sha512 (sectBytes b 2) == hSeal b else allZero (hSeal b))]

/-! ### Records -/

/-- Virtual tile records (R128). -/
def vtilesOf (b : List Byte) : List VTile :=
  let s := sectBytes b 1
  (List.range (hVtiles b)).map fun v =>
    let r := sliceB s (16 * v) 16
    ⟨field r 2 1, field r 3 1, field r 4 1, field r 5 1, field r 6 2, field r 8 4⟩

/-- The rules of R128 and R105. -/
def vtileRules (b : List Byte) : List Rule :=
  let s := sectBytes b 1
  let vs := vtilesOf b
  (badSection, s.length == 16 * hVtiles b) ::
    vs.zipIdx.flatMap fun v =>
      [(badSection, field s (16 * v.2) 2 == v.2 && v.1.vdie ≤ 1 && v.1.vmassif ≤ 9 && v.1.vslot ≤ 15 &&
          1 ≤ v.1.opWords && v.1.opWords ≤ 8192 && v.1.opOffset % 16 == 0 && field s (16 * v.2 + 12) 4 == 0 &&
          v.1.opOffset + 16 * v.1.opWords ≤ (sectBytes b 3).length &&
          !((vs.take v.2).any fun w => w.vdie == v.1.vdie && w.vmassif == v.1.vmassif && w.vslot == v.1.vslot)),
       (badRange, v.1.layerUnits == 0 || (32 ≤ v.1.layerUnits && v.1.layerUnits ≤ 95))]

/-- Constant references (R150). -/
def constsOf (b : List Byte) : List Const :=
  let s := sectBytes b 7
  (List.range (s.length / 16)).map fun i => ⟨field s (16 * i) 8 / 2 ^ 60, field s (16 * i) 8 % 2 ^ 60, field s (16 * i + 8) 8⟩

/-- The rules of R150. -/
def constRules (b : List Byte) : List Rule :=
  (badReference, (sectBytes b 7).length % 16 == 0) ::
    (constsOf b).map fun c => (badReference, c.kind < 4 && (c.kind != 2 || c.value + c.size ≤ hSize b) &&
      (c.kind != 3 || c.value + c.size ≤ hScree b))

/-- Bunting member lists (R149). -/
def buntingsOf (b : List Byte) : List (List Nat) :=
  let s := sectBytes b 6
  (List.range (hBuntings b)).map fun i =>
    (List.range (field s (8 * i) 2)).map fun j => field s (field s (8 * i + 4) 4 + 2 * j) 2

/-- Strictly rising numbers. -/
def rising (xs : List Nat) : Bool := decide (xs.Pairwise (· < ·))

/-- The rules of R149. -/
def buntingRules (b : List Byte) : List Rule :=
  let s := sectBytes b 6
  (badReference, 8 * hBuntings b ≤ s.length) ::
    (buntingsOf b).zipIdx.map fun m => (badReference,
      1 ≤ m.1.length && m.1.length ≤ 320 && field s (8 * m.2 + 2) 2 == 0 &&
        field s (8 * m.2 + 4) 4 + 2 * m.1.length ≤ s.length && rising m.1 && m.1.all (· < hVtiles b))

/-- Expert maps from an offset on; `fuel` bounds their number (R151). -/
def xmapsFrom (s : List Byte) : Nat → Nat → List (XMap × Bool)
  | 0, _ => []
  | fuel + 1, at_ =>
    if s.length ≤ at_ then []
    else
      let n := field s at_ 2
      let m : XMap :=
        { k := field s (at_ + 2) 1, maxRows := field s (at_ + 4) 4, rowBytes := field s (at_ + 8) 4
          experts := (List.range n).map fun e =>
            let o := at_ + 16 + 8 * e
            ⟨field s o 2, field s (o + 2) 1, field s (o + 4) 2, field s (o + 6) 2⟩ }
      let ok := 1 ≤ n && n ≤ 256 && at_ + 16 + 8 * n ≤ s.length && field s (at_ + 3) 1 == 0 && field s (at_ + 12) 4 == 0 &&
        (List.range n).all fun e => field s (at_ + 16 + 8 * e + 3) 1 == 0
      (m, ok) :: xmapsFrom s fuel (at_ + roundUp (16 + 8 * n) 16)

/-- The expert maps. -/
def xmapsOf (b : List Byte) : List (XMap × Bool) := xmapsFrom (sectBytes b 8) ((sectBytes b 8).length / 16 + 1) 0

/-- The rules of R57 and R151. -/
def xmapRules (b : List Byte) : List Rule :=
  let cs := constsOf b
  (xmapsOf b).map fun m => (badReference,
    m.2 && 1 ≤ m.1.k && m.1.k ≤ 16 && m.1.rowBytes % 64 == 0 &&
      m.1.experts.all fun e => e.bunting < hBuntings b && 1 ≤ e.ret && e.ret ≤ 16 &&
        (if m.1.maxRows ≤ e.capacity then e.overflow == 0xFFFF
         else e.overflow < cs.length && (m.1.maxRows - e.capacity) * m.1.rowBytes ≤ (cs.getD e.overflow ⟨0, 0, 0⟩).size))

/-- A queue table's entry (R131). -/
def queueAt (s : List Byte) (o : Nat) : QueueCfg :=
  let f := field s (o + 3) 1
  { depth := field s o 1, pairShare := field s (o + 1) 1, source := field s (o + 2) 1, pennant := bit f 0, fixed := bit f 1,
    bufBase := field s (o + 4) 4, bufWords := field s (o + 8) 4, groupRows := field s (o + 12) 2, xmap := field s (o + 14) 1,
    expert := field s (o + 15) 1 }

/-- All 256 entries of a virtual tile's queue table. -/
def entriesOf (b : List Byte) (v : Nat) : Tab QueueCfg :=
  (List.range 256).map fun q => (q, queueAt (sectBytes b 2) (4096 * v + 16 * q))

/-- A virtual tile's queues in use. -/
def queuesOf (b : List Byte) (v : Nat) : Tab QueueCfg :=
  (entriesOf b v).filter (·.2.depth != 0)

/-- The words of a queue's ring or input area (R132); none for a queue without one. -/
def ringWords (maps : List (XMap × Bool)) (q : QueueCfg) : Nat :=
  if q.source = 2 then
    (((maps[q.xmap]?).bind fun m => m.1.experts[q.expert]?).map fun e => e.capacity * q.bufWords).getD 0
  else if q.fixed then 0 else q.depth * q.bufWords

/-- The rule of one entry (R131), and of one queue in use (R152). -/
def queueOk (maps : List (XMap × Bool)) (q : QueueCfg) : Bool :=
  (q.pairShare == 0 || q.pairShare == q.depth) && q.source ≤ 2 &&
    (if q.source = 2 then
      match maps[q.xmap]? with
      | none => false
      | some m => match m.1.experts[q.expert]? with
        | none => false
        | some e => q.depth == 0 || (q.groupRows != 0 &&
          ceilDiv (min m.1.maxRows e.capacity) q.groupRows + ceilDiv (m.1.maxRows - e.capacity) q.groupRows ≤ q.depth)
    else q.groupRows == 0 && q.xmap == 0 && q.expert == 0)

/-- The layer units of a virtual tile. -/
def unitsOf (b : List Byte) (v : VTile) : Nat := if v.layerUnits = 0 then hUnits b else v.layerUnits

/-- The rules of R131, R132 and R152. -/
def sizingRules (b : List Byte) : List Rule :=
  let s := sectBytes b 2
  let maps := xmapsOf b
  (badSection, s.length == 4096 * hVtiles b) ::
    (vtilesOf b).zipIdx.flatMap fun v =>
      let qs := queuesOf b v.2
      let rings := (qs.map fun q => (q.2.bufBase, ringWords maps q.2)).filter (·.2 != 0)
      [(badSizing, (List.range 256).all fun q =>
          let o := 4096 * v.2 + 16 * q
          field s (o + 3) 1 < 4 && field s (o + 4) 4 < 2 ^ 20),
       (badSizing, (entriesOf b v.2).all fun q => queueOk maps q.2),
       (badSizing, sumNat (qs.map (·.2.depth)) ≤ 4096 && sumNat (qs.map (·.2.pairShare)) ≤ 256),
       (badSizing, rings.all fun r => r.1 + r.2 ≤ unitsOf b v.1 * 8192),
       (badSizing, decide (rings.Pairwise fun x y => rangesMeet x.1 x.2 y.1 y.2 = false))]

/-- Circuit records (R145). -/
def circuitsOf (b : List Byte) : List Circuit :=
  let s := sectBytes b 4
  (List.range (s.length / 8)).map fun i => ⟨field s (8 * i) 2, field s (8 * i + 2) 2, field s (8 * i + 4) 2⟩

/-- Whether two virtual tiles lie on one die. -/
def sameDie (vs : List VTile) (a c : Nat) : Bool :=
  match vs[a]?, vs[c]? with
  | some x, some y => x.vdie == y.vdie
  | _, _ => false

/-- The rules of R145. -/
def circuitRules (b : List Byte) : List Rule :=
  let s := sectBytes b 4
  let vs := vtilesOf b
  (badCircuit, s.length % 8 == 0) ::
    (circuitsOf b).zipIdx.map fun c => (badCircuit,
      sameDie vs c.1.src c.1.dst && c.1.src != c.1.dst && c.1.slotMask != 0 && field s (8 * c.2 + 6) 2 == 0)

/-- A virtual tile's channel routes in use (R148). -/
def routesOf (b : List Byte) (v : Nat) : Tab (Nat × Nat × Nat) :=
  let s := sectBytes b 5
  if s.isEmpty then []
  else ((List.range 64).map fun n =>
    let o := 256 * v + 4 * n
    (n, (field s o 2, field s (o + 2) 1, field s (o + 3) 1))).filter (·.2.1 != 0xFFFF)

/-- The rules of R148. -/
def channelRules (b : List Byte) : List Rule :=
  let s := sectBytes b 5
  let vs := vtilesOf b
  (badSection, s.isEmpty || s.length == 256 * hVtiles b) ::
    (List.range (hVtiles b)).map fun v => (badCircuit, (routesOf b v).all fun r =>
      sameDie vs v r.2.1 && r.2.2.1 ≤ 63 && r.2.2.2 ≤ 15)

/-! ### Operation words -/

/-- A virtual tile's operation words. -/
def opsOfImage (b : List Byte) (v : VTile) : Tab OpWord :=
  let s := sectBytes b 3
  ((List.range v.opWords).map fun i => (i, BitVec.ofNat 128 (field s (v.opOffset + 16 * i) 16))).filter (·.2 != 0)

/-- How a queue stands to an operation: required, optional or forbidden (R135). -/
inductive Role where
  | need | may | none_
deriving DecidableEq, Repr

/-- A queue that is required on a condition and forbidden otherwise. -/
def needIf (c : Bool) : Role := if c then .need else .none_

/-- The roles of `IN0` to `IN2`, `OUT0` and `OUT1` (R135). -/
def roles (w : Nat) : List Role :=
  let c := opCode w
  let b := needIf (bits w 86 2 != 1)
  if c = 0x10 then [.need, .need, needIf (bit w 104), .need, .may]
  else if c = 0x11 then [.need, .none_, .none_, .need, .may]
  else if c = 0x23 || c = 0x27 then [.need, b, .need, .need, .may]
  else if 0x20 ≤ c && c ≤ 0x26 || c = 0x29 then [.need, b, .none_, .need, .may]
  else if c = 0x2E || c = 0x2F then [.need, .need, .none_, .need, .may]
  else if 0x28 ≤ c && c ≤ 0x45 then [.need, .none_, .none_, .need, .may]
  else if c = 0x50 && bit w 101 then [.need, .none_, .none_, .need, .may]
  else if c = 0x50 || c = 0x52 || c = 0x57 || c = 0x58 then [.may, .none_, .none_, .need, .may]
  else if c = 0x51 || c = 0x53 || c = 0x54 || c = 0x56 then [.need, .none_, .none_, .may, .none_]
  else if c = 0x55 then [.need, .need, .none_, .may, .none_]
  else if c = 0x64 then [.may, .none_, .none_, .need, .none_]
  else [.may, .none_, .none_, .may, .none_]

/-- Whether an enable keeps its role. -/
def roleOk (r : Role) (en : Bool) : Bool := match r with | .need => en | .may => true | .none_ => !en

/-- Pairs of R35: FP32 sums. -/
def floatPair (a c : Nat) : Bool :=
  let narrow := [4, 5, 6, 7, 8, 9, 41, 10, 42, 11]
  (narrow.contains a && narrow.contains c) || (a == 17 && c == 17) || ([2, 3].contains a && [2, 3].contains c) ||
    (a == 1 && c == 1)

/-- Pairs of R35: INT32 sums. -/
def intPair (a c : Nat) : Bool := [13, 12, 14].contains a && [13, 12, 14].contains c

/-- The rule of an `MMA` word (R35, R38, R137). -/
def mmaOk (w : Nat) : Bool :=
  let a := bits w 64 8
  let c := bits w 72 8
  let sh := mmaShape w
  (floatPair a c && bits w 106 8 == 0 || intPair a c) && bits w 114 2 == 0 && bits w 116 12 == 0 && sh.n ≤ 4096

/-- The rule of an `MTRN` word (R51, R60, R137): the codes it carries are codes of R60, though only `ELEM` is used. -/
def mtrnOk (w : Nat) : Bool :=
  (Fmt.ofCode (bits w 64 8)).isSome && (Fmt.ofCode (bits w 72 8)).isSome && bits w 114 2 < 3 && bits w 116 12 == 0

/-- Formats that an opcode takes as its input (R42, R51). DESIGN CHOICE (log entry 60): `VUPD` (R94), whose two streams have different
formats, names XM40 in `FMT_IN`. -/
def inFormats (c : Nat) : List Nat :=
  if (0x20 ≤ c && c ≤ 0x22) || (0x24 ≤ c && c ≤ 0x26) then [1, 2, 3, 15]
  else if c = 0x2A then [1, 15]
  else if c = 0x2E then [16]
  else if c = 0x27 || c = 0x28 || c = 0x2D then []
  else [1]

/-- A format with a scale recipe (R76, R77), which `VABSMAX` may name. DESIGN CHOICE (log entry 60): a plain format, of
whose scale R87 says nothing, is refused. -/
def hasRecipe (f : Fmt) : Bool := match f.elem with
  | .float l => l == e4m3L || l == e5m2L || l == e3m2L || l == e2m3L || l == e2m1L
  | .mxint => true
  | .int n => n == 8 || n == 4
  | .xl4 => true

/-- Largest `FUNC` of an opcode (R139). -/
def funcMax (c : Nat) : Nat := if c = 0x26 then 5 else if c = 0x29 then 2 else if c = 0x45 || c = 0x2F then 15 else 0

/-- Whether a row length fits a format's blocks (R62, R71). -/
def blocksFit (f : Fmt) (n : Nat) : Bool := f.block == 0 || n % f.block == 0

/-- The rule of a vector or special-function word and its extension word (R42, R44, R60, R71, R73, R89, R94, R139, R140,
R518, R519). DESIGN CHOICE (log entry 60): the Formats column of R51 binds `FMT_IN`; `FMT_OUT` of `VADD` to `VMIN`, `VFMA`,
`VSCALE`, `XCOMB` and the reductions may be any format, into which the result is rounded. -/
def vectorOk (w x : Nat) : Bool :=
  let c := opCode w
  let n := vecLenOf w
  let func := bits w 115 4
  let opnd := bits w 86 2
  match Fmt.ofCode (bits w 64 8), Fmt.ofCode (if c = 0x26 then 1 else bits w 72 8) with
  | some fi, some fo =>
    ((inFormats c).isEmpty || (inFormats c).contains fi.code) && (c != 0x26 || bits w 72 8 == 0) &&
    (c < 0x40 || fo.code == 1) && (c != 0x2E || fo.code == 16) && (c != 0x2D || hasRecipe fo) &&
    (c != 0x27 || (fi.block == 0 && fo.code == fi.code)) &&
    bits w 80 2 != 3 && (bits w 80 2 != 2 || opExt w) && bits w 83 3 ≤ 4 && n != 0 && func ≤ funcMax c &&
    (c == 0x2F || bits w 119 4 == 0) && bits w 123 5 == 0 && (c != 0x45 || (n ≤ 1024 && func + 1 ≤ n)) &&
    (c != 0x29 || [(0, 0), (0, 1), (1, 2), (2, 3)].contains (func, opnd)) && (c != 0x2F || opnd == 0) &&
    blocksFit fi n && (c == 0x2D || blocksFit fo (if 0x2A ≤ c && c ≤ 0x2C then vecRowsOf w else n)) &&
    (c != 0x28 || bits w 83 3 != 4 || fi.sig ≤ fo.sig || bits w 80 2 == 2) &&
    (!opExt w || (bits x 14 18 == 0 && bits x 64 64 == 0))
  | _, _ => false

/-- The rule of a stream word and its extension word, with what it names (R47, R114, R141). `HALF`, `PASS`, `BUNT`, `XMAP`
and `WOFF` are not looked at in an operation that does not use them: no rule states a value for them there (log entry
53). -/
def streamOk (v nc nb nx : Nat) (cs : List Circuit) (w x : Nat) : Bool :=
  let c := opCode w
  let cref := bits w 64 16
  let cref2 := bits x 64 16
  let list := c == 0x52 || c == 0x53 || c == 0x58
  opExt w && bits w 120 8 == 0 && bits x 52 12 == 0 && bits x 96 32 == 0 &&
    (if c = 0x56 || c = 0x57 then
      match cs[cref]? with
      | none => false
      | some k => (if c = 0x56 then k.src else k.dst) == v
     else cref == 0xFFFF || cref < nc) &&
    (if list then cref2 < nc else cref2 == 0xFFFF) &&
    (c != 0x54 || bits w 102 10 < nb) && (c != 0x55 || bits w 112 8 < nx) &&
    (c != 0x55 || bits w 86 14 == 0) && (c != 0x58 || streamBytes w % 2048 == 0)

/-- The rule of a steering word (R143). -/
def steeringOk (nb w : Nat) : Bool :=
  bits w 90 6 == 0 && (opCode w != 0x63 || bits w 85 4 ≤ 12) && (opCode w != 0x65 || bits w 96 10 < nb)

/-- Whether an extension word is one (R134). -/
def extOk (x : Nat) : Bool := bits x 0 8 == 1

/-- The queues of a word: roles, depths, pairing shares and `FIXED` (R132, R135, R144). -/
def queuesOk (qs : Tab QueueCfg) (w : Nat) : Bool :=
  let c := opCode w
  let q (n : Nat) : QueueCfg := Tab.get .reset qs n
  let en := [inEn w 0, inEn w 1, inEn w 2, outEn w 0, outEn w 1]
  let mustFix := c == 0x58 || (c == 0x50 && bit w 101)
  ((roles w).zip en).all (fun r => roleOk r.1 r.2) &&
    (inputsOf w).all (fun i => (q i.2).depth != 0) && (outputsOf w).all (fun o => (q o.2).depth != 0) &&
    (!opPair w || (inputsOf w).all fun i => i.1 == 3 || (q i.2).pairShare != 0) &&
    (outputsOf w).all fun o => (q o.2).fixed == mustFix

/-- Words of the result that an operation writes at its ring entry, fixed by its word (R138, R44, R141, R518); 0 of an
operation that writes none there. -/
def resultWords (w : Nat) : Nat :=
  let c := opCode w
  let rows := vecRowsOf w
  let n := vecLenOf w
  let fo := fmtAt w 72
  let k := bits w 115 4 + 1
  let sh := mmaShape w
  let bytes :=
    if c = 0x10 then sh.m * roundUp (4 * sh.n) 64
    else if c = 0x11 then 4096 * 2 ^ bits w 114 2
    else if c = 0x26 then rows * ceilDiv n 64 * 8
    else if 0x2A ≤ c && c ≤ 0x2C then fo.arrayBytes 1 rows
    else if c = 0x2D then rows * roundUp (ceilDiv n (if fo.elem = .xl4 then 16 else 32)) 8
    else if c = 0x2E then xm40.arrayBytes rows n
    else if 0x20 ≤ c && c ≤ 0x2F then fo.arrayBytes rows n
    else if 0x40 ≤ c && c ≤ 0x43 then rows * fp32.stride n
    else if c = 0x44 then rows * fp32.stride (2 * n)
    else if c = 0x45 then rows * roundUp (6 * k) 64
    else if c = 0x52 || c = 0x57 || (c = 0x50 && !bit w 101) then streamBytes w
    else 0
  bytes / 8

/-- Whether a result that starts at a queue's last ring entry stays in a layer region of `units` (R100, R107). -/
def ringFits (q : QueueCfg) (n units : Nat) : Bool := n == 0 || q.fixed || q.bufBase + (q.depth - 1) * q.bufWords + n ≤ units * 8192

/-- Whether the rows that an `XDISP` sends to an expert map's input areas stay in the layer regions (R57, R107). -/
def rowsFit (b : List Byte) (map : Nat) : Bool :=
  match (xmapsOf b)[map]? with
  | none => true
  | some m => (vtilesOf b).zipIdx.all fun v => (queuesOf b v.2).all fun q =>
      q.2.source != 2 || q.2.xmap != map ||
        ((m.1.experts[q.2.expert]?).all fun e => e.capacity == 0 ||
          q.2.bufBase + (e.capacity - 1) * q.2.bufWords + m.1.rowBytes / 8 ≤ unitsOf b v.1 * 8192)

/-- Whether an overflow group that an `SLOAD` with `PASS` puts into its input area stays in a layer region of `units` (R58, R107,
R153). -/
def passFits (b : List Byte) (q : QueueCfg) (units : Nat) : Bool :=
  match ((xmapsOf b)[q.xmap]?).bind fun m => (m.1.experts[q.expert]?).map fun e => (m.1, e) with
  | none => true
  | some (m, e) =>
    let n := min q.groupRows (m.maxRows - e.capacity)
    q.source != 2 || n == 0 || q.bufBase + (n - 1) * q.bufWords + m.rowBytes / 8 ≤ units * 8192

/-- The rules of one operation word (R36, R100, R107, R134 to R144). -/
def wordRules (b : List Byte) (v : Nat) (vt : VTile) (qs : Tab QueueCfg) (ops : Tab OpWord) (k : Nat) : List Rule :=
  let w := (Tab.get 0 ops k).toNat
  let x := (Tab.get 0 ops (k + 1)).toNat
  let nb := hBuntings b
  let half := (96 - unitsOf b vt) * 8192 / 2
  let ok := match engineOf (opCode w) with
    | none => false
    | some 0 => !opExt w && (if opCode w = 0x10 then mmaOk w else mtrnOk w)
    | some 1 => vectorOk w x
    | some 2 => streamOk v (constsOf b).length nb (xmapsOf b).length (circuitsOf b) w x
    | some _ => !opExt w && steeringOk nb w
  [(badOperation, ok && (!opExt w || (k + 1 < vt.opWords && extOk x)) && queuesOk qs w),
   (badRange, (opCode w != 0x58 || bits x 80 16 * 256 + streamBytes w / 8 ≤ half) &&
      ringFits (Tab.get .reset qs (outQ w 0)) (resultWords w) (unitsOf b vt) && (opCode w != 0x55 || rowsFit b (bits w 112 8)) &&
      (opCode w != 0x50 || !bit w 101 || passFits b (Tab.get .reset qs (inQ w 0)) (unitsOf b vt)))]

/-- The rules of the operations section, from its start on (R36, R144, R156). -/
def operationRules (b : List Byte) : List Rule :=
  (sortBy (vtilesOf b).zipIdx fun v u => v.1.opOffset ≤ u.1.opOffset).flatMap fun v =>
    let ops := opsOfImage b v.1
    let qs := queuesOf b v.2
    (opIndices ops v.1.opWords 0).flatMap fun k => wordRules b v.2 v.1 qs ops k

/-! ### The whole image -/

/-- What an image states, with where it lies. -/
def imageOf (b : List Byte) (addr : Nat) (host : Bool) : Image :=
  let vs := vtilesOf b
  { uid := hUid b, mode := hMode b, obsMode := hObs b, layerUnits := hUnits b, reconfig := hReconfig b, baseUid := hBase b,
    size := hSize b, screeBytes := hScree b, sampleInterval := hInterval b, vtiles := vs,
    sizing := (List.range vs.length).map (queuesOf b), ops := vs.map (opsOfImage b), circuits := circuitsOf b,
    routes := (List.range vs.length).map (routesOf b), buntings := buntingsOf b, consts := constsOf b,
    xmaps := (xmapsOf b).map (·.1), digest := sha512 b, addr := addr, host := host }

/-- Step 3 after the records, in ascending section type (R156). -/
def recordRules (b : List Byte) : List Rule :=
  vtileRules b ++ sizingRules b ++ operationRules b ++ circuitRules b ++ channelRules b ++ buntingRules b ++ constRules b ++
    xmapRules b

/-- The detail of the first failure of a load's steps 1 to 3; `desc` are the rules of the descriptor's own fields and
`entries` those of its entries (R154, R156, R183, R334). Sections are not read from a header that fails, nor records from
sections that fail. -/
def imageFault (b : List Byte) (desc : List Rule) (entries : List Rule) : Option Nat :=
  match firstBad (headerRules b ++ desc) with
  | some e => some e
  | none => match firstBad (sectionRules b) with
    | some e => some e
    | none => match firstBad (sealRules b) with
      | some e => some e
      | none => firstBad (recordRules b ++ entries)

end Sys2Proof.Machine
end

