-- ==== Sys2Proof/Machine/Integrity.lean ====
section
/-! DEFINITION. The end of an abandonment, cross-tile verification, the leak of fault scores, and the continual stress test
(R157, R160, R357 to R380). -/

namespace Sys2Proof.Machine

/-! ### Verification sets and rounds -/

/-- Whether a tile is SUSPECT, by its own state or its Tarn's (R374). -/
def Tile.suspect (x : Tile) : Bool := !x.fenced && max x.part x.tarnPart == 2

/-- Virtual tiles of a graph on SUSPECT tiles. -/
def State.suspects (s : State) (y : Graph) : List Nat :=
  (List.range y.place.length).filter fun v => y.place.getD v 320 < 320 && (s.tile (y.place.getD v 320)).suspect

/-- Placed virtual tiles. -/
def Graph.placed (y : Graph) : List Nat := (List.range y.place.length).filter fun v => y.place.getD v 320 < 320

/-- What the policy of one class asks of a batch (R363). -/
def State.policySet (s : State) (y : Graph) (b : Batch) (cls : Nat) : List Nat :=
  match b.policyOf cls with
  | 0 => []
  | 1 => s.suspects y
  | 2 => if b.seq % max (bits (b.policy.getD cls 0) 16 16) 1 = 0 then y.placed else s.suspects y
  | _ => y.placed

/-- A batch's verification set at its issue, and at an abandonment that begins its passes anew (R363). -/
def State.verifySet (s : State) (y : Graph) (b : Batch) : List Nat :=
  sortBy (((b.rows.map (·.cls)).dedup).flatMap (s.policySet y b)).dedup (· ≤ ·)

/-- Virtual tiles that a pass of some batch in flight has yet to be checked on, and that have no shadow (R367). -/
def Graph.toCheck (y : Graph) : List Nat :=
  sortBy ((y.inFlight.flatMap (·.toVerify)).dedup.filter fun v => !y.verify.shadows.any (·.1 == v)) (· ≤ ·)

/-- What a batch has left to verify behind a pass under the present shadows. -/
def Graph.unchecked (y : Graph) (b : Batch) : List Nat := b.toVerify.filter fun v => !y.verify.shadows.any (·.1 == v)

/-- The verification sets of the batches in flight changed. -/
def State.mapVerify (g : Nat) (f : Batch → List Nat) (s : State) : State :=
  s.updSched g fun sc => { sc with batches := sc.batches.map fun b => { b with toVerify := f b } }

/-- The verification sets formed anew: a pass under other shadows or on other tiles begins. -/
def State.verifyAnew (g : Nat) (s : State) : State :=
  match s.graph? g with
  | none => s
  | some y => s.mapVerify g fun b => s.verifySet y b

/-- Massif of a virtual tile's place. -/
def Graph.massif (y : Graph) (v : Nat) : Nat := y.place.getD v 320 / 16

/-- Tiles of a massif that can serve as shadows (R364). -/
def State.spares (s : State) (m : Nat) : List Nat := ((List.range 16).map fun i => m * 16 + i).filter s.freeTile

/-- A shadow as its primary stands (R364): the configuration in force and a staged one, the counts, credits and channels, the
receives that are posted, and the Burgee tokens that wait (R164). -/
def Tile.asPrimary (x p : Tile) : Tile := { x with staged := p.staged, run := p.run, cycle := max x.cycle p.cycle }

/-- A shadow set up: withdrawn from stress, cleared, and configured as its primary (R364), with its domains asked on (R407). -/
def State.setShadow (g v t : Nat) (s : State) : State :=
  match s.graph? g with
  | none => s
  | some y =>
    let p := y.place.getD v 320
    let z := s.tile p
    (s.writeTile t fun x => (x.write (.shadow p) z.cfg).asPrimary z).updGraph g fun y =>
      { y with
        spills := y.spills.filter (·.tile != t)
        verify := { y.verify with shadows := y.verify.shadows ++ [(v, t)] } }

/-- A shadow let go. -/
def State.dropShadow (g : Nat) (s : State) (e : Nat × Nat) : State :=
  (s.freeTileNow e.2).updGraph g fun y =>
    { y with
      spills := y.spills.filter (·.tile != e.2)
      verify := { y.verify with shadows := y.verify.shadows.filter (· != e) } }

/-- Every shadow of a graph let go. -/
def State.dropShadows (g : Nat) (s : State) : State :=
  match s.graph? g with
  | none => s
  | some y => (y.verify.shadows.foldl (State.dropShadow g) s).updGraph g fun y => { y with verify := { y.verify with seen := [] } }

/-- Verified virtual tiles of one massif in the order of R367: those on SUSPECT tiles first, then ascending. -/
def State.roundOrder (s : State) (y : Graph) (vs : List Nat) : List Nat :=
  vs.filter (fun v => (s.tile (y.place.getD v 320)).suspect) ++ vs.filter fun v => !(s.tile (y.place.getD v 320)).suspect

/-- The shadows of one round, massif by massif (R367). -/
def State.nextRound (g : Nat) (s : State) : State :=
  (List.range 20).foldl (fun s m => match s.graph? g with
    | none => s
    | some y =>
      let vs := s.roundOrder y (y.toCheck.filter fun v => y.massif v == m)
      (vs.zip (s.spares m)).foldl (fun s vt => s.setShadow g vt.1 vt.2) s) s

/-- Verification of a batch that has just been issued: where no other pass is in flight, its first round's shadows are set up; else
its first pass is a round under the shadows that stand, and those that it lacks come with the rounds that follow (R367). -/
def State.beginVerify (g : Nat) (s : State) : State :=
  match s.graph? g with
  | none => s
  | some y => if y.inFlight.length = 1 && !y.toCheck.isEmpty then (s.dropShadows g).nextRound g else s

/-! ### Massifs without a shadow (R368) -/

/-- The massifs of the same die with two free tiles, the nearest first (R368). -/
def State.roomierMassifs (s : State) (m : Nat) : List Nat :=
  ((nearMassifs (m % 10)).map fun n => m / 10 * 10 + n).filter fun n => n != m && 2 ≤ (s.spares n).length

/-- The first tile of a massif on which every circuit and channel of a virtual tile routes. -/
def State.tileIn (s : State) (g v m : Nat) (y : Graph) : Option Nat :=
  (s.spares m).find? fun t => s.tileRoutes g v t y

/-- A virtual tile moved from a usable tile to another one. -/
def State.moveVtile (g v t : Nat) (s : State) : State :=
  match s.graph? g with
  | none => s
  | some y => (s.putVtile g v t).freeTileNow (y.place.getD v 320)

/-- Rows of policy-3 classes that go unverified are removed (R368). -/
def State.skipVerify (g m : Nat) (s : State) : State :=
  match s.graph? g with
  | none => s
  | some y =>
    let s1 := s.raise 0x1604 0 m g
    y.inFlight.foldl (fun s b =>
      let out := b.rows.filter fun r => b.policyOf r.cls == 3
      (out.foldl (State.removeRow stReplayed 0x0223) s).updSched g fun sc =>
        { sc with batches := sc.batches.map fun c =>
            if c.seq = b.seq && c.kind = b.kind then
              let stay := c.rows.filter fun r => b.policyOf r.cls != 3
              { c with rows := stay, done := stay.isEmpty, toDeliver := if stay.isEmpty then [] else c.toDeliver }
            else c }) s1

/-- A massif's part of the verification sets given up: rows of policy 2 commit without it (R368). -/
def State.giveUpMassif (g m : Nat) (s : State) : State :=
  match s.graph? g with
  | none => s
  | some y => (s.skipVerify g m).mapVerify g fun b => b.toVerify.filter fun v => y.massif v != m

/-- A massif that has virtual tiles to verify and no tile to shadow them (R368): its SUSPECT tiles are fenced, and the
highest-numbered virtual tile that it still holds moves to the nearest massif with room on which it routes. -/
def State.relieveMassif (g : Nat) (s : State) (m : Nat) : State :=
  match s.graph? g with
  | none => s
  | some y =>
    if !(y.toCheck.any fun v => y.massif v == m) || !(s.spares m).isEmpty then s
    else
      let s1 := (((List.range 16).map fun i => m * 16 + i).filter fun t => (s.tile t).suspect).foldl (fun s t =>
        s.fenceAt t (s.score .tile t).1 0) s
      match (s1.graph? g).bind fun z => ((z.placed.filter fun v => z.massif v == m).getLast?).map fun v => (z, v) with
      | none => s1
      | some (z, v) => match (s1.roomierMassifs m).findSome? fun n => s1.tileIn g v n z with
        | some t => s1.moveVtile g v t
        | none => s1.giveUpMassif g m

/-! ### The end of an abandonment -/

/-- The tile of a virtual tile of the image in force, or of a staged one that alone has it. -/
def Graph.tileAt (y : Graph) (v : Nat) : Nat :=
  match y.change with
  | some c => if v < y.place.length then y.place.getD v 320 else c.place.getD v 320
  | none => y.place.getD v 320

/-- A virtual tile of a circle on another tile; where none routes it lacks a tile, and the graph is suspended (R157, R160). -/
def State.moveOne (g : Nat) (s : State) (v : Nat) : State :=
  match (s.graph? g).bind fun z => s.findTile g v z with
  | none => (s.updGraph g (·.losePlace v)).suspend g v
  | some t => s.putVtile g v t

/-- Virtual tiles of a circle moved to other tiles, where the die has as many free ones; the old tiles stay usable (R160). -/
def State.moveCircle (g : Nat) (vs : List Nat) (s : State) : State :=
  match s.graph? g with
  | none => s
  | some y =>
    let need (d : Nat) : Nat := vs.countP fun v => y.tileAt v / 160 == d
    let free (d : Nat) : Nat := ((List.range 10).map fun m => (s.spares (d * 10 + m)).length).foldl (· + ·) 0
    if need 0 > free 0 || need 1 > free 1 then s
    else
      let old := (vs.map y.tileAt).filter (· < 320)
      let s1 := vs.foldl (State.moveOne g) s
      match s1.graph? g with
      | none => s1
      | some z =>
        let held (t : Nat) : Bool := z.place.contains t || z.change.any fun c => c.place.contains t
        old.foldl (fun s t => if held t then s else s.freeTileNow t) s1

/-- The shadow of the virtual tile under resolution for the next pass: a tile of the massif that has not served in it yet, where
there is one, and else the one that stands or any that can serve (R369, R375). -/
def State.changeShadow (g v : Nat) (s : State) : State :=
  match s.graph? g with
  | none => s
  | some y =>
    let old := y.verify.shadows.filter (·.1 == v)
    let free := s.spares (y.massif v)
    let other := (free.find? fun t => !y.verify.used.contains t).orElse fun _ => if old.isEmpty then free.head? else none
    match other with
    | none => s
    | some t => old.foldl (State.dropShadow g) ((s.updGraph g fun y =>
        { y with verify := { y.verify with used := if y.verify.used.contains t then y.verify.used else y.verify.used ++ [t] } }).setShadow
          g v t)

/-- Shadows whose primary stands on another tile by now let go, and their virtual tiles shadowed anew where their massif has a tile
for it (R364, R375). -/
def State.settleShadows (g : Nat) (s : State) : State :=
  match s.graph? g with
  | none => s
  | some y =>
    let gone := y.verify.shadows.filter fun e => (s.tile e.2).use != TileUse.shadow (y.place.getD e.1 320)
    gone.foldl (fun s e =>
      let s1 := s.dropShadow g e
      match (s1.spares (y.massif e.1)).head? with
      | none => s1
      | some t => if y.place.getD e.1 320 < 320 then s1.setShadow g e.1 t else s1) s

/-- The shadows of a new round, once the massifs that have none are relieved (R367, R368). -/
def State.newRound (g : Nat) (s : State) : State := ((List.range 20).foldl (State.relieveMassif g) (s.dropShadows g)).nextRound g

/-- A resolution given up, and the digests seen: no shadow is left for it. -/
def Verify.unresolve (x : Verify) : Verify := { x with seen := [], resolving := none, evidence := [], passes := 0, used := [] }

/-- The shadows for the next pass (R364, R367 to R369, R375): for a mismatch under resolution another shadow; else a new round, in
which verification begins anew unless the abandonment was for the round itself. -/
def State.changeShadows (g : Nat) (causes : List Nat) (s : State) : State :=
  match s.graph? g with
  | none => s
  | some y => match y.verify.resolving with
    | some r =>
      let s1 := ((s.settleShadows g).changeShadow g r.1).updGraph g fun y => { y with verify := { y.verify with seen := [] } }
      if ((s1.graph? g).map fun z => z.verify.shadows.any (·.1 == r.1)) == some true then s1
      else ((s1.updGraph g fun y => { y with verify := y.verify.unresolve }).verifyAnew g).newRound g
    | none => (if causes.all (· == 5) then s else s.verifyAnew g).newRound g

/-- Virtual tiles that lack a tile, in the order of their re-placement: by the physical tiles whose fences took them, ascending, then
the others (R376). -/
def replaceOrder (fenced : List (Nat × Nat)) (vs : List Nat) : List Nat :=
  let first := ((sortBy fenced fun a b => a.1 ≤ b.1).map (·.2)).dedup.filter vs.contains
  first ++ vs.filter fun v => !first.contains v

/-- `ABANDON_DRAIN_DONE` (R157, R158, R357 to R361, R364 to R369, R376): every tile has stopped and the writes have drained, those to
other modules 1.1 ms behind their last transmission. Virtual tiles are placed again, shadows change, and every abandoned batch is
delivered again, unless the graph is now suspended. -/
def execAbandonDrainDone (g : Nat) (s : State) : Out3 :=
  s.onLive (g < 8)
    (match s.graph? g with
     | none => s
     | some y => match y.abandon with
       | none => s
       | some a =>
         if !a.toStop.isEmpty || a.drained || s.power.halted then s
         else
           let vs := (a.replace ++ y.unplaced).dedup
           let lost := vs.filter fun v => y.tileAt v ≥ 320
           let s0 := if a.until_ = 0 then s else s.advanceTo a.until_
           let s1 := (replaceOrder a.fenced lost).foldl (State.replaceVtile g) s0
           let s2 := if ((s1.graph? g).map (·.suspended)) == some true then s1
             else s1.moveCircle g (vs.filter fun v => !lost.contains v)
           match s2.graph? g with
           | none => s2
           | some z =>
             if z.suspended then s2.setGraph g (some { z with abandon := z.abandon.map fun a => { a with drained := true } })
             else
               let s3 := (s2.setGraph g (some { z with abandon := none })).changeShadows g a.causes
               match s3.graph? g with
               | none => s3
               | some w => if w.abandon.isSome then s3 else (s3.deliverAgain g a.causes a.removed).retryAll)

/-! ### Comparing digests -/

/-- A tile blamed (R369, R372, R373): a SUSPECT tile becomes FENCED at once, with the weight added all the same. -/
def State.blameTile (weight : Nat) (s : State) (t : Nat) : State :=
  if (s.tile t).suspect then s.fenceAt t (min ((s.score .tile t).1 + weight) 65535) 0 else s.blame .tile t weight 0

/-- A stream's row has failed verification in a period: one more period in a row, or the first one (R370). -/
def Stream.verifyFailed (x : Stream) (period : Nat) : Stream :=
  { x with
    failPeriod := some period
    verifyFails :=
      if x.failPeriod = some period then x.verifyFails
      else if x.verifyFails != 0 && x.failPeriod.any fun p => p + 1 == period then x.verifyFails + 1
      else 1 }

/-- A digest that two different tiles have produced. -/
def agreed (ev : List (Nat × Nat)) : Option Nat :=
  (ev.find? fun e => ev.any fun f => f.2 == e.2 && f.1 != e.1).map (·.2)

/-- A mismatch that three passes have not resolved (R369, R370): the rows go, and two tiles that were alone in it share a
blame. -/
def State.unresolved (g v tag : Nat) (ev : List (Nat × Nat)) (s : State) : State :=
  match s.graph? g with
  | none => s
  | some y => match y.batchOfTag tag with
    | none => s
    | some b =>
      let s1 := s.raise 0x1603 b.seq g v
      let s2 := b.rows.foldl (fun s r =>
        let s2 := (s.removeRow stVerifyFailed 0x0224 r).updStream r.idx fun x => x.verifyFailed y.sched.period
        if 3 ≤ (s2.stream r.idx).verifyFails then s2.endStream r.idx stVerifyFailed 0x0224 else s2) s1
      let s3 := s2.updSched g fun sc => { sc with batches := sc.batches.map fun c =>
        if c.seq = b.seq && c.kind = b.kind then { c with rows := [], done := true, toDeliver := [] } else c }
      let ts := (ev.map (·.1)).dedup
      let s4 := s3.updGraph g fun y =>
        { y with verify := { y.verify with resolving := none, evidence := [], passes := 0, used := [] } }
      if ts.length = 2 then ts.foldl (State.blameTile 512) s4 else s4

/-- What one comparison leads to (R365, R369). -/
def State.compareDigests (g : Nat) (p q : Seen) (s : State) : State :=
  match s.graph? g with
  | none => s
  | some y =>
    let at_ := (p.vtile, p.op, p.firing)
    let ver := { y.verify with seen := y.verify.seen.filter fun e => e != p && e != q }
    let here := y.verify.resolving == some at_
    let ev := (if here then y.verify.evidence else []) ++ [(p.tile, p.digest), (q.tile, q.digest)]
    let mis := p.digest != q.digest
    if !here && !mis then s.setGraph g (some { y with verify := ver })
    else
      let s1 := if here then s else s.raise 0x1602 p.digest (tg p.vtile g) q.tile
      match (if here then agreed ev else none) with
      | some d =>
        let s2 := s1.setGraph g (some { y with verify :=
          { ver with resolving := none, evidence := [], passes := 0, used := [] } })
        let s3 := if mis then s2.abandon g 4 [] [] else s2
        (((ev.filter (·.2 != d)).map (·.1)).dedup).foldl (State.blameTile 1024) s3
      | none =>
        let n := if here then y.verify.passes + 1 else 1
        if n ≥ 3 then
          ((s1.setGraph g (some { y with verify := ver })).unresolved g p.vtile p.tag ev).abandon g 4 [] []
        else
          (s1.setGraph g (some { y with verify :=
            { ver with
              resolving := some at_, evidence := ev, passes := n
              used :=
                let u := if here then y.verify.used else []
                if u.contains q.tile then u else u ++ [q.tile] } })).abandon g 4 [] []

/-- `DIGEST_COMPARE` (R365, R369, R386): the digests of firing `id` of primary `t` and of the same firing of a shadow, those already
on their way as an abandonment runs among them. -/
def execDigestCompare (t id : Nat) (shadow : Nat) (s : State) : Out3 :=
  s.onLive (t < 320 && shadow < 320)
    (match s.owner t with
     | none => s
     | some (g, v) => match s.graph? g with
       | none => s
       | some y =>
         if !y.verify.shadows.contains (v, shadow) then s
         else match y.verify.seen.find? fun e => e.tile == t && e.id == id with
           | none => s
           | some p =>
             match y.verify.seen.find? fun e => e.tile == shadow && e.vtile == v && e.op == p.op && e.firing == p.firing with
             | none => s
             | some q => s.compareDigests g p q)

/-! ### Fault scores -/

/-- The instant of a kind's next leak (R371): this one, where it is a whole multiple of the leak interval and the kind has not
leaked at it, and else the next multiple. -/
def State.nextLeak (s : State) (kind : PartKind) : Nat :=
  let l := partLeak kind
  if s.cairn % l = 0 && Tab.get 0 s.leaks (partCode kind) != s.cairn + 1 then s.cairn else (s.cairn / l + 1) * l

/-- `FAULT_SCORE_LEAK` (R371, R373): at the next instant of the kind's leak interval every score falls by 1. -/
def execFaultScoreLeak (kind : PartKind) (s : State) : Out3 :=
  let s1 := s.advanceTo (s.nextLeak kind)
  .next ((List.range (partCount kind)).foldl (fun s id =>
    let old := s.score kind id
    if old.1 = 0 then s else s.settle kind id old.2 (old.1 - 1) 0)
    { s1 with leaks := Tab.put 0 (partCode kind) (s1.cairn + 1) s1.leaks })

/-! ### Stress -/

/-- Whether a tile may take a stress session (R377): one with two failed phases is never chosen (R402). -/
def State.stressable (s : State) (t : Nat) : Bool := s.freeTile t && (s.tile t).use == TileUse.free && s.failedPhases t < 2

/-- The tile last under stress in a massif. -/
def State.lastStressed (s : State) (m : Nat) : Nat :=
  match s.ledger.sessions.reverse.find? fun e => e.1 / 16 == m with
  | none => m * 16 + 15
  | some e => e.1

/-- `STRESS_SESSION_START` (R377, R378, R407, R410): the next eligible tile of the massif in rotation, for 20 s, with its domains
asked on. -/
def execStressSessionStart (massif : Nat) (s : State) : Out3 :=
  s.onLive (massif < 20)
    (let ts := (List.range 16).map fun i => massif * 16 + i
     let l := s.lastStressed massif
     if s.power.brownout || s.power.halted || 9 * s.power.limit < s.power.inputW * 700000 || ts.any (fun t => match (s.tile t).use with | .stress _ _ _ => true | _ => false)
     then s
     else match (ts.filter (· > l) ++ ts.filter (· ≤ l)).find? s.stressable with
       | none => s
       | some t => (s.updTile t fun x => { x.clear with use := .stress (s.cairn + 20000000000) 0 false }).turnTileOn t)

/-- Milliseconds of a session that ends at `e` at the latest. -/
def State.sessionMs (s : State) (e : Nat) : Nat := (20000000000 - cairnSince s.cairn e) / 1000000

/-- `STRESS_SESSION_END` (R379): 20 s have passed with every expected bit, after `cases` cases. -/
def execStressSessionEnd (t : Nat) (s : State) (cases : Nat := 0) : Out3 :=
  s.onLive (t < 320)
    (match (s.tile t).use with
     | .stress e _ false => (((s.advanceTo e).recordSession t 20000 cases 0).letGo t).retryAll
     | _ => s)

/-- The nominal retest of a tile that failed under stress has ended, and with it the session (R379). -/
def State.endRetest (t e cases : Nat) (pass : Bool) (s : State) : State :=
  let o := if pass then 1 else 3
  (s.recordSession t (s.sessionMs e) cases o).raise 0x1609 cases t o

/-- `STRESS_MISMATCH` (R372, R379): the weight is added, and the nominal retest begins. Where the weight itself makes the tile
FENCED, the retest, which ends with `nominal`, is all that is left of the session. -/
def execStressMismatch (t cases : Nat) (s : State) (nominal : Bool := true) : Out3 :=
  s.onLive (t < 320)
    (match (s.tile t).use with
     | .stress e _ false =>
       let s1 := (s.updTile t fun x => { x with use := .stress e cases true }).blame .tile t 1024 0x1609
       if (s1.tile t).fenced then s1.endRetest t e cases nominal else s1
     | _ => s)

/-- `STRESS_NOMINAL_RETEST_DONE` (R372, R379). -/
def execStressNominalRetestDone (t : Nat) (pass : Bool) (s : State) : Out3 :=
  s.onLive (t < 320)
    (match (s.tile t).use with
     | .stress e cases true =>
       let s1 := s.endRetest t e cases pass
       if pass then (s1.letGo t).retryAll else s1.fenceNow t 0x1609
     | _ => s)

end Sys2Proof.Machine
end

