-- ==== Sys2Proof/Machine/Graphs.lean ====
section
/-! DEFINITION. Graphs: loading, binding, staging, unloading and policy (R127, R154 to R158, R163, R182, R183, R333 to R340,
R392, R393), circles of wait edges and the Scree (R160, R170, R171), and depth samples (R174). -/

namespace Sys2Proof.Machine

/-! ### The load descriptor -/

/-- Details of a load (R156, R180, R393). -/
def noTiles : Nat := 0x0101
def noBuntings : Nat := 0x0102
def circuitConflict : Nat := 0x0103
def noGraphSlot : Nat := 0x0104
def baseMismatch : Nat := 0x0105
def batchLimit : Nat := 0x0106
def timeUnlocked : Nat := 0x0107

/-- Fields of `GRAPH_LOAD` (R333). -/
def Desc.imageHost (d : Desc) : Bool := bit d.arg 0
def Desc.wantsStepId (d : Desc) : Bool := bit d.arg 1
def Desc.serves (d : Desc) : Bool := bit d.arg 2
def Desc.imageAddr (d : Desc) : Nat := d.get 16 8
def Desc.imageSize (d : Desc) : Nat := d.get 24 8
def Desc.screeAddr (d : Desc) : Nat := d.get 32 8
def Desc.sampleAddr (d : Desc) : Nat := d.get 40 8
def Desc.sampleRecords (d : Desc) : Nat := d.get 48 4
def Desc.startPeriod (d : Desc) : Nat := d.get 56 8

/-- The layout of `GRAPH_LOAD` (R333). -/
def loadForm (d : Desc) : Form :=
  { entries := if d.serves then 5 else 1
    arg := 7
    named := [(16, 36), (56, 8)] ++ (if d.serves then
      [(64, 17), (84, 8), (96, 24)] ++ (List.range 4).map (fun p => (128 + 16 * p, 12)) ++
        (List.range 32).map fun i => (192 + 4 * i, 3) else [])
    align := d.imageAddr % 64 == 0 && d.screeAddr % 65536 == 0 && d.sampleAddr % 64 == 0 &&
      (d.imageHost || d.imageAddr < 2 ^ 60) && d.screeAddr < 2 ^ 60 && d.sampleAddr < 2 ^ 60 &&
      (!d.serves || (d.get 96 8 % 64 == 0 && d.get 104 8 % 4096 == 0 && d.get 112 8 % 4096 == 0 && 4096 ≤ d.get 112 8 &&
        (List.range 4).all fun p => d.get (128 + 16 * p) 8 % 4096 == 0)) }

/-- Entries of a list of `n` in a load descriptor: virtual tile and queue. -/
def entriesAt (d : Desc) (off n : Nat) : List (Nat × Nat) :=
  (List.range n).map fun i => (d.get (off + 4 * i) 2, d.get (off + 4 * i + 2) 1)

/-- The serving parameters of a load (R182, R333). -/
def servingOf (d : Desc) : Serving :=
  { periodMs := d.get 64 2, batchRows := d.get 66 2, admitTokens := d.get 68 2, chunkTokens := d.get 70 2,
    prefillCost := d.get 72 2, kvPageTokens := d.get 74 2, maxPages := d.get 76 2, unitNs0 := d.get 84 4,
    kvPageBytes := d.get 88 4, listBase := d.get 96 8, promptBase := d.get 104 8, promptBytes := d.get 112 8,
    pools := (List.range (d.get 78 1)).map fun p => ⟨d.get (128 + 16 * p) 8, d.get (136 + 16 * p) 4⟩,
    periodEntries := entriesAt d 192 (d.get 79 1), admissionEntries := entriesAt d 256 (d.get 80 1),
    stepId := d.wantsStepId }

/-- Whether a run of this module's memory lies wholly in mapped memory of one space, and outside the module area (R182, R218,
R223). -/
def State.runMapped (s : State) (a n : Nat) : Bool :=
  a < 2 ^ 60 && bits a 44 14 == s.fabric.id &&
    (match bits a 58 2 with
      | 0 => a % 2 ^ 44 + n ≤ moduleArea
      | 1 => s.bytesOn a n (fun _ => true) == n
      | _ => false)

/-- Whether a run lies in this module's HBM below the module area. -/
def State.hbmRun (s : State) (a n : Nat) : Bool := bits a 58 2 == 0 && s.runMapped a n

/-- Whether two runs of global addresses overlap. -/
def addrsMeet (a b : Nat × Nat) : Bool := a.2 != 0 && b.2 != 0 && a.1 < b.1 + b.2 && b.1 < a.1 + a.2

/-- A page-list area (R182). -/
def Serving.listRun (v : Serving) : Nat × Nat := (v.listBase, 2097152 * v.maxPages * 8)

/-- A pool lies in local HBM below the module area, in the CXL tier, or in another module's HBM (R190, R334). -/
def State.poolOk (s : State) (v : Serving) (p : Pool) : Bool :=
  let r := v.poolRun p
  p.base % 4096 == 0 && p.base < 2 ^ 60 &&
    (if bits p.base 44 14 ≠ s.fabric.id then bits p.base 58 2 == 0 && p.base % 2 ^ 44 + r.2 ≤ hbmBytes else s.runMapped r.1 r.2)

/-- Runs that the stream table and other graphs hold: Scree regions, page-list areas, pools and prompt areas (R182, R334). -/
def State.heldRuns (s : State) (not_ : Nat) : List (Nat × Nat) :=
  (s.hbmAddr s.regs.streamTable, 2 ^ 28) :: (s.graphIds.filter (· != not_)).flatMap fun g => match s.graph? g with
    | none => []
    | some y => (y.scree, y.screeBytes) :: (match y.serving with
      | none => []
      | some v => [v.listRun, (v.promptBase, v.promptBytes)] ++ v.pools.map v.poolRun)

/-- Ranges of the serving parameters (R182, R334). -/
def State.servingOk (s : State) (d : Desc) (v : Serving) (g scree screeBytes : Nat) : Bool :=
  2 ≤ v.periodMs && v.periodMs ≤ 200 && 1 ≤ v.batchRows && v.batchRows ≤ 4096 && 1 ≤ v.chunkTokens && 1 ≤ v.prefillCost &&
  1 ≤ v.unitNs0 && [1, 2, 4, 8, 16, 32, 64, 128, 256, 512, 1024, 2048, 4096].contains v.kvPageTokens &&
  v.kvPageBytes % 4096 == 0 && v.kvPageBytes != 0 && 1 ≤ v.maxPages &&
  1 ≤ d.get 78 1 && d.get 78 1 ≤ 4 && 1 ≤ d.get 79 1 && d.get 79 1 ≤ 16 && d.get 80 1 ≤ 16 &&
  (List.range 4).all (fun p => p < v.pools.length || (d.get (128 + 16 * p) 8 == 0 && d.get (136 + 16 * p) 4 == 0)) &&
  (List.range 16).all (fun i => (i < v.periodEntries.length || d.get (192 + 4 * i) 3 == 0) &&
    (i < v.admissionEntries.length || d.get (256 + 4 * i) 3 == 0)) &&
  v.listBase % 64 == 0 && s.runMapped v.listRun.1 v.listRun.2 &&
  v.promptBase % 4096 == 0 && v.promptBytes % 4096 == 0 && 4096 ≤ v.promptBytes && s.hbmRun v.promptBase v.promptBytes &&
  v.pools.all (s.poolOk v) &&
  decide (v.pools.Pairwise fun p q => !addrsMeet (v.poolRun p) (v.poolRun q)) &&
  ((v.promptBase, v.promptBytes) :: (scree, screeBytes) :: (v.pools.map v.poolRun ++ s.heldRuns g)).all fun r =>
    !addrsMeet v.listRun r

/-- The graph that a `RECONFIG` image replaces. -/
def State.baseOf (s : State) (uid : Nat) : Option Nat := s.graphIds.find? fun g => ((s.graph? g).map (·.image.uid)) == some uid

/-- The rules of the descriptor's own fields (R333, R334, R392). -/
def State.loadRules (s : State) (d : Desc) (b : List Byte) : List Rule :=
  let base := if hReconfig b then (s.baseOf (hBase b)).bind s.graph? else none
  let id := if hReconfig b then (s.baseOf (hBase b)).getD 8 else 8
  let scree := (base.map (·.scree)).getD d.screeAddr
  let bytes := (base.map (·.screeBytes)).getD (hScree b)
  [(badHeader, match base with
      | some y => hScree b == 0 || hScree b == y.screeBytes
      | none => true),
   (badHeader, if hScree b = 0 then d.screeAddr == 0 else s.hbmRun d.screeAddr (hScree b)),
   (badHeader, if hObs b = 2 then [6, 7, 8, 9, 10, 11, 12, 13, 14, 15, 16, 17, 18, 19, 20].any (fun k => d.sampleRecords == 2 ^ k)
      else d.sampleAddr == 0 && d.sampleRecords == 0),
   (badHeader, hReconfig b || d.startPeriod == 0),
   (badHeader, !d.serves || s.servingOk d (servingOf d) id scree bytes)]

/-- Whether an operation of a virtual tile feeds a queue. -/
def Image.feeds (im : Image) (v q : Nat) : Bool :=
  (opIndices (im.ops.getD v []) (((im.vtiles[v]?).map (·.opWords)).getD 0) 0).any fun k =>
    (outputsOf (Tab.get 0 (im.ops.getD v []) k).toNat).any (·.2 == q)

/-- One entry (R183). -/
def Image.entryOk (im : Image) (rows : Nat) (e : Nat × Nat) : Bool :=
  let a := Tab.get QueueCfg.reset (im.sizing.getD e.1 []) e.2
  let b := Tab.get QueueCfg.reset (im.sizing.getD e.1 []) (e.2 + 1)
  e.1 < im.vtiles.length && e.2 < 255 && a.depth != 0 && a.source == 1 && a.pennant && b.depth != 0 && b.source == 1 &&
    !b.pennant && !b.fixed && 8 + 8 * rows ≤ b.bufWords && !im.feeds e.1 e.2 && !im.feeds e.1 (e.2 + 1)

/-- The rules of a load's entries (R183). -/
def entryRules (im : Image) (v : Serving) : List Rule :=
  v.periodEntries.map (fun e => (badEntry, im.entryOk v.batchRows e)) ++
    v.admissionEntries.map fun e => (badEntry, im.entryOk (min v.admitTokens 4096) e)

/-- Records that a graph's batches of one period may pin (R180). DEDUCED (log entry 68): the admission rows of one period are the
most that one admission batch carries, as the graph of the rule's chapter example could not be bound with those of every slice. -/
def Serving.pins (v : Serving) : Nat := v.batchRows + min v.admitTokens 4096

/-- Records that a bound graph may pin, before or after a change that is staged for it (R163, R180). -/
def Graph.pins (y : Graph) : Nat :=
  max ((y.serving.map Serving.pins).getD 0) (((y.change.bind (·.serving)).map Serving.pins).getD 0)

/-- Whether the records pinned by every graph fit the cache (R180). -/
def State.batchesFit (s : State) (g : Nat) (v : Serving) : Bool :=
  v.pins + sumNat (((s.graphIds.filter (· != g)).filterMap s.graph?).map Graph.pins) ≤ 16384

/-! ### Binding -/

/-- A placement, the module Buntings and their checks (R154 step 4): the refusal's detail where one fails. -/
def State.planBinding (s : State) (g : Nat) (im : Image) (fixed : Nat → Option Nat) : Except Nat (List Nat × List Nat) :=
  let bs := s.freeBuntings.take im.buntings.length
  if bs.length < im.buntings.length then .error noBuntings
  else match s.placeAll fixed im.vtiles 0 [] with
    | none => .error noTiles
    | some place => if s.routes g im place then .ok (place, bs) else .error circuitConflict

/-- The scheduler of a graph just bound (R195, R208). -/
def State.newSched (s : State) (sv : Option Serving) : Sched :=
  match sv with
  | none => Sched.reset
  | some v => { Sched.reset with nextB := s.gridStart, periodMs := v.periodMs, unitNs := max v.unitNs0 1 }

/-- A graph bound (R154 step 5). -/
def State.bind (g : Nat) (y : Graph) (s : State) : State :=
  (((s.takeBuntings g y.buntings).takeSlots g (y.image.lanes y.place)).setGraph g (some y)).writeTiles g y.image y.place
    y.generation

/-- A new graph from a load. -/
def newGraph (im : Image) (d : Desc) (sv : Option Serving) (sc : Sched) (place bs : List Nat) : Graph :=
  { image := im, mode := if im.mode = 0 then .native else .compat, place := place, buntings := bs, generation := 0,
    serving := sv, sched := sc, change := none, scree := d.screeAddr, screeBytes := im.screeBytes, spills := [],
    sampleAddr := d.sampleAddr, sampleRecords := d.sampleRecords, sampleSeq := 0, suspended := false, stopped := false,
    unloading := none, abandon := none, verify := .reset }

/-- A load without `RECONFIG` (R154). -/
def State.loadNew (d : Desc) (im : Image) (sv : Option Serving) (s : State) : State :=
  if s.freeBuntings.length < im.buntings.length then s.complete d stNotPermitted noBuntings 0
  else match (List.range 8).find? fun g => (s.graph? g).isNone with
    | none => s.complete d stNotPermitted noGraphSlot 0
    | some g => match s.planBinding g im fun _ => none with
      | .error e => s.complete d stNotPermitted e 0
      | .ok (place, bs) => (s.bind g (newGraph im d sv (s.newSched sv) place bs)).complete d stOk 0 g

/-- Every tile, shadow, Bunting and slot of a graph let go. -/
def State.unbind (g : Nat) (y : Graph) (s : State) : State :=
  let ts := y.place ++ (match y.change with | none => [] | some c => c.place) ++ y.verify.shadows.map (·.2)
  let s1 := (ts.dedup.filter (· < 320)).foldl (fun s t => s.freeTileNow t) s
  let s2 := s1.releasePlanes g
  { s2 with
    planes := { s2.planes with
      words := s2.planes.words.filter fun w => !ts.contains w.tile
      rows := s2.planes.rows.filter fun w => !ts.contains w.tile
      counts := s2.planes.counts.filter fun w => !ts.contains w.tile
      summits := s2.planes.summits.filter fun m => !y.buntings.contains m.bunting } }

/-- The serving parameters after a `RECONFIG` load: those it gives, else the ones in force; `STEP_ID` is the load's own (R204,
R333). -/
def servingAfter (d : Desc) (sv old : Option Serving) : Option Serving :=
  sv.orElse fun _ => old.map fun v => { v with stepId := d.wantsStepId }

/-- A `RECONFIG` load for a suspended or a stopped graph: a fresh binding that keeps the graph ID and the streams (R158,
R171). -/
def State.loadAfresh (d : Desc) (g : Nat) (y : Graph) (im : Image) (sv : Option Serving) (s : State) : State :=
  let s0 := s.unbind g y
  match s0.planBinding g im fun _ => none with
  | .error e => s.complete d stNotPermitted e 0
  | .ok (place, bs) =>
    let sc := match sv with
      | none => y.sched
      | some v => { y.sched with periodMs := v.periodMs, newMs := [] }
    let z := { newGraph im d (servingAfter d sv y.serving) sc place bs with
      generation := y.nextGen, scree := y.scree, screeBytes := y.screeBytes, suspended := y.suspended, abandon := y.abandon }
    let s1 := match y.change with
      | none => s0
      | some c => s0.completeTag c.tag stAborted 0 0
    let s2 := s1.bind g z
    let a := y.abandon.getD ⟨[5], [], [], [], [], 0, true⟩
    let s3 := if y.suspended then s2.resume g 2
      else ((s2.setGraph g (some { z with abandon := none })).newGrid g).deliverAgain g a.causes a.removed
    (s3.complete d stOk 0 (g + 2 ^ 8 * (y.sched.nextK % 2 ^ 24))).retryAll

/-- A `RECONFIG` load staged beside the configuration that runs (R163, R335): it completes when its Burgee tokens are placed,
at once for a graph without periods. -/
def State.loadStaged (d : Desc) (g : Nat) (y : Graph) (im : Image) (sv : Option Serving) (s : State) : State :=
  match s.planBinding g im fun v => y.place[v]? with
  | .error e => s.complete d stNotPermitted e 0
  | .ok (place, bs) =>
    let c : Change :=
      { image := im, place := place, serving := sv, start := d.startPeriod, tag := d.tag, placed := false, buntings := bs,
        scree := y.scree, screeBytes := y.screeBytes, sampleAddr := d.sampleAddr, sampleRecords := d.sampleRecords,
        stepId := d.wantsStepId }
    let z := { y with change := some c }
    let s1 := ((s.takeBuntings g bs).setGraph g (some z)).takeSlots g z.lanes
    let s2 := place.zipIdx.foldl (fun s tv =>
      let cfg := im.tileCfg place y.nextGen tv.2
      if tv.2 < y.place.length then s.updTile tv.1 fun x => { x with staged := some cfg }
      else s.writeTile tv.1 fun x => (x.write (.bound g tv.2) cfg).updRun fun r => { r with stopped := true }) s1
    let s3 := s2.holdDesc d.tag
    if y.serving.isNone then s3.placeBurgees g d.startPeriod else s3

/-- A `RECONFIG` load (R127, R156, R158, R163). -/
def State.loadReconfig (d : Desc) (im : Image) (sv : Option Serving) (s : State) : State :=
  match s.baseOf im.baseUid with
  | none =>
    s.complete d stNotPermitted (if s.freeBuntings.length < im.buntings.length then noBuntings else baseMismatch) 0
  | some g => match s.graph? g with
    | none => s
    | some y =>
      if y.unloading.isSome then s.complete d stNotPermitted noGraph 0
      else if y.suspended || y.stopped then s.loadAfresh d g y im sv
      else s.loadStaged d g y im sv

/-- Whether a `RECONFIG` load can be taken up now: the change before it has ended, and no abandonment is under way. -/
def State.loadMayGo (s : State) (b : List Byte) : Bool :=
  match (s.baseOf (hBase b)).bind s.graph? with
  | none => true
  | some y =>
    !hReconfig b || y.unloading.isSome ||
      (match y.abandon with
        | none => y.suspended || y.stopped || y.change.isNone
        | some a => a.drained)

/-- The steps of R154 on an image that has been read. -/
def State.loadImage (d : Desc) (b : List Byte) (s : State) : State :=
  let im := imageOf b d.imageAddr d.imageHost
  let sv := if d.serves then some (servingOf d) else none
  let id := if im.reconfig then (s.baseOf im.baseUid).getD 8 else 8
  let kept := if im.reconfig then ((s.baseOf im.baseUid).bind s.graph?).bind (·.serving) else none
  match imageFault b (s.loadRules d b) (match sv.orElse fun _ => kept with | none => [] | some v => entryRules im v) with
  | some e => s.complete d stBad e 0
  | none =>
    if !(match sv with | none => true | some v => s.batchesFit id v) then s.complete d stNotPermitted batchLimit 0
    else if !s.loadMayGo b then s
    else if im.reconfig then s.loadReconfig d im sv
    else s.loadNew d im sv

/-- What `GRAPH_LOAD` does once its form is good (R154, R312, R393). -/
def loadAct (img : Dma) (dead : Option Nat) (d : Desc) (s : State) : State :=
  if [0, 2, 5].contains s.fuses.lcState then s.complete d stNotPermitted lifecycleForbids 0
  else if d.serves && s.fabric.lock == TimeLock.unlocked then s.complete d stNotPermitted timeUnlocked 0
  else if d.imageHost then
    match img with
    | .failed e _ => (s.noteAer e).complete d stPoisoned hostReadFailed 0
    | .data b => if b.length = d.imageSize then s.loadImage d b else s
  else
    let r := s.readImage d.tag d.imageAddr d.imageSize dead
    match r.1 with
    | none => r.2.holdDesc d.tag
    | some b => if b.2 = stOk then r.2.loadImage d b.1 else r.2.complete d b.2 0 0

/-- `GRAPH_LOAD` (R127, R154 to R156, R163, R333 to R335). -/
def execGraphLoad (d : Nat) (img : Dma) (s : State) (dead : Option Nat := none) : Out3 := s.runDesc 0x10 d loadForm (loadAct img dead)

/-! ### Unloading -/

/-- `GRAPH_UNLOAD` (R338): the graph's batches stop, and the descriptor waits for the harvests. -/
def execGraphUnload (d : Nat) (s : State) : Out3 :=
  s.runDesc 0x11 d (fun _ => ⟨1, 7, [], true⟩) fun d s =>
    match s.servedGraph (d.arg % 8) with
    | none => s.complete d stNotPermitted noGraph 0
    | some y => (s.setGraph (d.arg % 8) (some { y with unloading := some d.tag })).holdDesc d.tag

/-- Every stream of a graph ends (R338): a pool that is gone takes no page back. -/
def State.endStreams (g : Nat) (s : State) : State :=
  (s.streamsOf g).foldl (fun s e => (s.endStream e.1 e.2.goodStatus endUnloaded).setPages e.1 []) s

/-- `GRAPH_UNLOAD_COMPLETE` (R158, R171, R338): the harvest of every issued batch has ended, or the graph runs no more. -/
def execGraphUnloadComplete (g : Nat) (s : State) : Out3 :=
  s.onLive (g < 8)
    (match s.graph? g with
     | none => s
     | some y => match y.unloading with
       | none => s
       | some tag =>
         if !(y.sched.batches.isEmpty || y.suspended || y.stopped) then s
         else
           let s1 := (y.sched.batches.flatMap (·.rows)).foldl (fun s r => s.releaseRow r) s
           let s2 := (s1.endStreams g).unbind g y
           let s3 := match y.change with
             | none => s2
             | some c => s2.completeTag c.tag stAborted 0 0
           ((s3.setGraph g none).completeTag tag stOk 0 0).retryAll.shutdownOn)

/-! ### Policy and status -/

/-- The layout of `CLASS_POLICY` (R339). -/
def policyForm (_ : Desc) : Form := ⟨1, 7, [(16, 26)], true⟩

/-- The policy that a descriptor gives. -/
def policyOf (d : Desc) : Policy :=
  let cs := List.range 4
  { start := cs.map fun c => d.get (16 + 4 * c) 2, token := cs.map fun c => d.get (18 + 4 * c) 1,
    order := cs.map fun c => d.get (19 + 4 * c) 1, demoteLow := d.get 32 4, promoteHigh := d.get 36 4 }

/-- Whether a policy keeps the rules of R339. -/
def Policy.ok (p : Policy) (pools : Nat) : Bool :=
  (List.range 4).all (fun c => decide (p.poolsOf c pools).Nodup && (p.poolsOf c pools).all (· < pools)) &&
    (p.demoteLow == 0 || p.promoteHigh == 0 || p.demoteLow < p.promoteHigh)

/-- `CLASS_POLICY` (R188, R195, R339): it waits for the next period boundary; a new length of period waits for one period
more. -/
def execClassPolicy (d : Nat) (s : State) : Out3 :=
  s.runDesc 0x12 d policyForm fun d s =>
    let g := d.arg % 8
    match s.servedGraph g with
    | none => s.complete d stNotPermitted noGraph 0
    | some y => match y.serving with
      | none => s.complete d stNotPermitted noGraph 0
      | some v =>
        let ms := d.get 40 2
        if (policyOf d).ok v.pools.length && (ms == 0 || (2 ≤ ms && ms ≤ 200)) then
          (s.updSched g fun sc =>
            { sc with
              newPolicy := some (policyOf d)
              newMs := if ms = 0 then sc.newMs else sc.newMs ++ [(ms, sc.nextK + 1)] }).complete d stOk 0 0
        else s.complete d stBad 0x0408 0

/-- A counter whose sticky bit has been written with 1 (R8, R340). -/
def Counter.clearOvf (c : Counter) : Counter := { c with ovf := false }

/-- The sticky bits of the observation block cleared (R340). -/
def TileCounters.clearObs (c : TileCounters) : TileCounters :=
  let f (m : Tab Counter) : Tab Counter := m.map fun e => (e.1, e.2.clearOvf)
  { c with stalls := f c.stalls, empty := f c.empty, full := f c.full, numSat := c.numSat.clearOvf, numNan := c.numNan.clearOvf }

/-- The sticky bits of the Tarn registers cleared (R340). -/
def Tile.clearTarnRegs (x : Tile) : Tile :=
  { x with
    tarnErr := { x.tarnErr with valid := false }
    cnt := { x.cnt with
      tarnCe := x.cnt.tarnCe.clearOvf, tarnUe := x.cnt.tarnUe.clearOvf, tarnPoison := x.cnt.tarnPoison.clearOvf,
      tarnCrcReload := x.cnt.tarnCrcReload.clearOvf } }

/-- The layout of `STATUS_READ` (R340): modes 2 and 3 are reserved. -/
def statusForm (d : Desc) : Form :=
  let t := d.get 18 2
  ⟨1, 0x101, [(16, 1), (18, 2), (24, 8)], d.get 24 8 % 64 == 0 && t < 320⟩

/-- The observation block of a virtual tile: zero while it lacks a tile. -/
def State.obsBlock (s : State) (t : Nat) : List Byte :=
  if t < 320 then (s.tile t).cnt.block else List.replicate 0x1080 0

/-- `STATUS_READ` (R340). -/
def execStatusRead (d : Nat) (s : State) : Out3 :=
  s.runDesc 0x13 d statusForm fun d s =>
    let buf := d.get 24 8
    let clear := bit d.arg 8
    if d.arg % 4 = 0 then
      match s.servedGraph (d.get 16 1) with
      | none => s.complete d stNotPermitted noGraph 0
      | some y =>
        if d.get 18 2 ≥ y.place.length then s.complete d stBad badAlign 0
        else
          let t := y.place.getD (d.get 18 2) 320
          let s1 := s.hostWrite buf (s.obsBlock t)
          let s2 := if clear && t < 320 then s1.updTile t fun x => { x with cnt := x.cnt.clearObs } else s1
          s2.complete d stOk 0 0x1080
    else
      let t := d.get 18 2
      let s1 := s.hostWrite buf (s.tile t).tarnBlock
      let s2 := if clear then s1.updTile t (·.clearTarnRegs) else s1
      s2.complete d stOk 0 64

/-! ### Circles of wait edges -/

/-- Virtual tiles of a graph with their tiles, those that only a change under way has among them (R166). -/
def Graph.tilesNow (y : Graph) : List (Nat × Nat) :=
  let new := match y.change with
    | none => []
    | some c => if c.placed then c.place.zipIdx.drop y.place.length else []
  ((y.place.zipIdx ++ new).filter (·.1 < 320)).map fun tv => (tv.2, tv.1)

/-- The tile that drains what a wait edge of a tile names: its own queue, or the channel's receiver (R160, R382). -/
def Tile.drainedBy (x : Tile) (t q : Nat) : Nat := if q < 256 then t else (Tab.get Route.reset x.cfg.routes (q - 256)).dest

/-- Whether a wait edge of a tile has stood for `n` island cycles of the tile `low` (R160, R170). -/
def State.edgeStands (s : State) (low n : Nat) (e : Nat × Nat) : Bool :=
  match (s.tile e.1).run.waiting.find? fun w => w.queue == e.2 with
  | none => false
  | some w => match w.since.find? fun z => z.1 == low with
    | none => false
    | some z => z.2 + n ≤ (s.tile low).cycle

/-- Whether wait edges, each a tile of the graph and the queue it waits on, form a circle that has persisted for `n` island cycles
of the lowest-numbered tile in it (R160, R170, R382). -/
def State.circleStands (s : State) (y : Graph) (n : Nat) (circle : List (Nat × Nat)) : Bool :=
  let ts := circle.map (·.1)
  !circle.isEmpty && decide ts.Nodup && ts.all (fun t => t < 320 && y.tilesNow.any fun vt => vt.2 == t) &&
    (circle.zip (ts.drop 1 ++ ts.take 1)).all (fun e => (s.tile e.1.1).drainedBy e.1.1 e.1.2 == e.2) &&
    circle.all (s.edgeStands (ts.foldl min 320) n)

/-- `SCHEDULE_VIOLATION` (R160, R382). -/
def execScheduleViolation (g : Nat) (circle : List (Nat × Nat)) (s : State) : Out3 :=
  s.onLive (g < 8)
    (match s.graph? g with
     | none => s
     | some y =>
       if y.mode == GraphMode.native && !y.suspended && !y.stopped && y.abandon.isNone && s.circleStands y 65536 circle then
         s.scheduleFault g circle
       else s)

/-- Tokens that a queue keeps in a spill (R170, R393): at the primary its oldest one, and at a shadow those that are not among the
tokens `out` that the primary spills. -/
def Queue.keeps (z : Queue) (primary : Bool) (out : List Token) : Queue :=
  if primary then { z with toks := z.toks.take 1, fresh := z.fresh.take (1 - z.toks.length) }
  else { z with toks := z.toks.diff out, fresh := z.fresh.diff (out.diff z.toks) }

/-- The tokens that it spills. -/
def Queue.spills (z : Queue) (primary : Bool) (out : List Token) : List Token :=
  let w := z.keeps primary out
  (z.toks ++ z.fresh).diff (w.toks ++ w.fresh)

/-- Tokens taken off a queue, each with a credit back (R170). -/
def Tile.spill (x : Tile) (q : Nat) (primary : Bool) (out : List Token) : Tile :=
  (x.updQueue q (·.keeps primary out)).updCredit q
    fun c => { c with returning := c.returning + ((x.queue q).spills primary out).length }

/-- Tokens of a tile's queue moved to its Scree segment, ahead of what that holds (R170): at the primary those behind the oldest
one, and at a shadow those of them that it holds (R393). -/
def State.spillTokens (g q : Nat) (primary : Bool) (out : List Token) (s : State) (t : Nat) : State :=
  match s.graph? g with
  | none => s
  | some y =>
    let x := s.tile t
    let rs := ((x.queue q).spills primary out).map fun k => (k, x.tokenWords s.draws k)
    let y1 := y.setSegment t q (rs.map (fun e => screeToken e.1 e.2) ++ y.segment t q)
    if y1.screeFits then
      (rs.foldl (fun (s : State) e => s.noteRead t e.2) (s.draw.setGraph g (some y1))).updTile t (·.spill q primary out)
    else s.stopGraph g

/-- A queue spilled to its Scree segment, with the same queue of every shadow (R170, R171, R393). -/
def State.spillQueue (g t q : Nat) (s : State) : State :=
  let z := (s.tile t).queue q
  (s.withShadows t).foldl (fun s u => s.spillTokens g q (u == t) ((z.toks ++ z.fresh).drop 1) u) s

/-- The lowest queue of a circle, by tile and then by queue (R170): none where only message channels stand in it. -/
def lowestQueue (circle : List (Nat × Nat)) : Option (Nat × Nat) :=
  let qs := (circle.filter (·.2 < 256)).map fun c => c.1 * 256 + c.2
  if qs.isEmpty then none else some (qs.foldl min (2 ^ 32 - 1) / 256, qs.foldl min (2 ^ 32 - 1) % 256)

/-- `CYCLIC_WAIT` (R160, R170, R171, R382, R392): the lowest-numbered queue of the circle is spilled; without a Scree the graph
stops. DESIGN CHOICE (log entry 69): a circle of message channels alone has no queue to spill; the event is raised and the wait
edges of its tiles begin anew. -/
def execCyclicWait (g : Nat) (circle : List (Nat × Nat)) (s : State) : Out3 :=
  s.onLive (g < 8)
    (match s.graph? g with
     | none => s
     | some y =>
       if y.mode != GraphMode.native && !y.suspended && !y.stopped && y.abandon.isNone && s.circleStands y 4096 circle then
         let s1 := (circle.map (·.1)).foldl (fun s t => s.updTile t fun x => x.updRun fun r => { r with waiting := [] }) s
         match lowestQueue circle with
         | some c => (s1.raise 0x1105 g (c.1 * 256 + c.2) circle.length).spillQueue g c.1 c.2
         | none =>
           let s2 := s1.raise 0x1105 g 0 circle.length
           if y.screeBytes = 0 then s2.stopGraph g else s2
       else s)

/-- A token back in its queue, with the words that it names. -/
def Tile.refill (x : Tile) (q : Nat) (k : Token × List Word × Bool) : Tile :=
  ((x.writeWords k.1.addr k.2.1 k.2.2).putToken q k.1).updCredit q fun c => { c with held := c.held - 1 }

/-- Whether a ring entry that a spilled token names has been taken by a producer since, in flight or behind it (R133, R170). -/
def Tile.entryTaken (x : Tile) (q : Nat) (k : Token) : Bool :=
  match k.body with
  | .data a n => (x.qcfg q).source == 0 && n != 0 &&
      (x.run.emitted.any (fun e => e.2.names a) || x.run.flights.any (fun f => f.outs.any fun o => o.2.names a) ||
        x.run.queues.any (fun e => (e.2.toks ++ e.2.fresh).any fun k => k.names a) || x.run.ringHolds.any fun h => h.1 == a && x.cycle < h.2.2)
  | _ => false

/-- Tokens of a tile's segment put back in its queue (R170): of a shadow's, those at its front that come back at its primary
(R393). -/
def State.refillTokens (g q : Nat) (back : List Token) (s : State) (t : Nat) : State :=
  match s.graph? g with
  | none => s
  | some y =>
    let ks := y.segment t q
    let now := (ks.take back.length).takeWhile fun k => back.contains k.1
    (s.setGraph g (some (y.setSegment t q (ks.drop now.length)))).updTile t fun x => now.foldl (fun x k => x.refill q k) x

/-- `SCREE_REFILL` (R170): the local entries have drained; as many tokens come back as there are places and ring entries that no
producer has taken or a waiting token still names. -/
def execScreeRefill (t q : Nat) (s : State) : Out3 :=
  s.onLive (t < 320 && q < 256)
    (match s.owner t with
     | none => s
     | some (g, _) => match s.graph? g with
       | none => s
       | some y =>
         let x := s.tile t
         let ks := ((y.segment t q).take (x.credit q).held).takeWhile fun k => !x.entryTaken q k.1
         if !(x.queue q).toks.isEmpty || !(x.queue q).fresh.isEmpty || ks.isEmpty || !s.runs t || s.isShadow t then s
         else (s.withShadows t).foldl (State.refillTokens g q (ks.map (·.1))) s)

/-! ### Depth samples -/

/-- Tokens in a queue: local ones and those of its Scree segment (R174, R393). -/
def State.depthOf (s : State) (y : Graph) (t q : Nat) : Nat :=
  let z := (s.tile t).queue q
  min (z.toks.length + z.fresh.length + (y.segment t q).length) 255

/-- A sample record (R174). -/
def State.sampleBytes (s : State) (y : Graph) (v t : Nat) : List Byte :=
  let x := s.tile t
  toLe 8 s.cairn ++ toLe 4 x.sampleSeq ++ toLe 2 v ++ toLe 2 t ++ toLe 2 x.cfg.generation ++ List.replicate 46 0 ++
    (List.range 256).map fun q => BitVec.ofNat 8 (s.depthOf y t q)

/-- One tile's sample written into the ring. -/
def State.sampleTile (g : Nat) (s : State) (vt : Nat × Nat) : State :=
  match s.graph? g with
  | none => s
  | some y =>
    let w := y.viewOf (s.tile vt.2)
    if w.image.obsMode ≠ 2 then s
    else
      let a := w.sampleAddr + y.sampleSeq % max w.sampleRecords 1 * 320
      let s1 := (s.write a (s.sampleBytes y vt.1 vt.2) false).1
      (s1.updTile vt.2 fun x => { x with sampleSeq := (x.sampleSeq + 1) % 2 ^ 32 }).updGraph g fun y =>
        { y with sampleSeq := y.sampleSeq + 1 }

/-- The sample interval in force at a tile of a graph, by the configuration it runs; 0 where it takes no samples (R166, R174). -/
def State.sampleInterval (s : State) (y : Graph) (t : Nat) : Nat :=
  let w := y.viewOf (s.tile t)
  if w.image.obsMode = 2 then w.image.sampleInterval else 0

/-- The tiles of a graph that take samples (R174). -/
def State.sampled (s : State) (y : Graph) : List (Nat × Nat) := y.tilesNow.filter fun vt => s.sampleInterval y vt.2 != 0

/-- The next Cairn instant after now that is a multiple of the sample interval of some tile of a graph. -/
def State.nextSample (s : State) (y : Graph) : Option Nat :=
  ((s.sampled y).map fun vt => (s.cairn / s.sampleInterval y vt.2 + 1) * s.sampleInterval y vt.2).min?

/-- `QUEUE_DEPTH_SAMPLE` (R174): the Cairn comes to the next multiple of the sample interval of any of the graph's tiles, and each
tile whose own interval it is a multiple of records its depths. -/
def execQueueDepthSample (g : Nat) (s : State) : Out3 :=
  s.onLive (g < 8)
    (match s.graph? g with
     | none => s
     | some y => match s.nextSample y with
       | none => s
       | some n => ((s.sampled y).filter fun vt => n % s.sampleInterval y vt.2 == 0).foldl (State.sampleTile g) (s.advanceTo n))

end Sys2Proof.Machine
end

