-- ==== Sys2Proof/Machine/Rings.lean ====
section
/-! DEFINITION. The rings: doorbell polls, fetching, `SKIP`, `NOP`, the heartbeat and MSI-X (R310, R313 to R331). -/

namespace Sys2Proof.Machine

/-! ### The doorbell page -/

/-- Whether a submission ring holds entries that are not fetched. -/
def Ring.unfetched (r : Ring) : Bool := r.enable && r.fetched != r.other

/-- The module is active (R319). -/
def State.active (s : State) : Bool :=
  s.host.sq.any (fun e => e.2.unfetched) || s.tracker.streams.any (fun e => e.2.state != StreamState.free) ||
    (match s.host.lastFetch with
      | none => false
      | some t => cairnSince t s.cairn < 10000000)

/-- Whether the module reads the doorbell page and fetches (R345, R427, R484). -/
def State.ringsRun (s : State) : Bool :=
  s.dma && s.host.dbBase != 0 && s.inService

/-- The instant of the next poll (R319): the interval is the one that applied when the read before it ended. -/
def State.pollDue (s : State) : Nat := if s.host.wake then s.cairn else s.host.lastPoll + s.host.pollNext

/-- A poll has ended: the interval to the next one (R319). -/
def State.polled (s : State) : State := { s with host := { s.host with pollNext := if s.active then 2000 else 100000 } }

/-- A tail read from the page (R315, R326). -/
def State.takeTail (page : List Byte) (s : State) (n : Nat) : State :=
  let r := s.sq n
  let t := field page (4 * n) 4
  if !r.enable then s
  else if r.halted && t = r.count then s.updSq n fun r => { r with halted := false, other := t, fetched := t }
  else if count32 r.fetched r.count ≤ count32 t r.count && count32 t r.count ≤ r.size then
    s.updSq n fun r => { r with other := t }
  else if r.reported.contains t then s
  else
    (s.updSq n fun r => { r with reported := r.reported ++ [t] }).notice r.cq ⟨0, 0x31, 0x0406, 0, n, 0, r.count, 0⟩

/-- Whether a head lies between the last valid one and the tail (R316). -/
def Ring.headOk (r : Ring) (h : Nat) : Bool := count32 h r.other ≤ r.used

/-- A head of a completion ring read from the page (R316). -/
def State.takeCqHead (page : List Byte) (s : State) (n : Nat) : State :=
  let r := s.cq n
  let h := field page (0x400 + 4 * n) 4
  if !r.enable then s
  else if r.headOk h then s.updCq n fun r => { r with other := h }
  else if r.reported.contains h then s
  else (s.updCq n fun r => { r with reported := r.reported ++ [h] }).raise 0x0407 h 0 n

/-- A head of a harvest ring read from the page (R316). -/
def State.takeHvHead (page : List Byte) (s : State) (n : Nat) : State :=
  let r := s.hv n
  let h := field page (0x800 + 4 * n) 4
  if !r.enable then s
  else if r.headOk h then s.updHv n fun r => { r with other := h }
  else if r.reported.contains h then s
  else (s.updHv n fun r => { r with reported := r.reported ++ [h] }).raise 0x0407 h 1 n

/-- The vectors of completion rings written since the last poll (R331). -/
def State.signalRings (s : State) : State :=
  (List.range 256).foldl (fun s n =>
    let r := s.cq n
    if !r.dirty then s
    else
      let s1 := s.updCq n fun r => { r with dirty := false }
      if r.irq then s1.signal r.vector else s1) s

/-- `DOORBELL_POLL` (R312, R315 to R319, R331): `page` is what the read of the page's first 0x900 bytes returned. -/
def execDoorbellPoll (page : Dma) (s : State) : Out3 :=
  .next (if !s.ringsRun then s
    else
      let s0 := s.advanceTo s.pollDue
      let s1 := ({ s0 with host := { s0.host with lastPoll := s0.cairn, wake := false } }).signalRings
      match page with
      | .failed e _ => (s1.noteAer e).polled
      | .data b =>
        if b.length ≠ 0x900 then s
        else
          let s2 := (List.range 256).foldl (State.takeTail b) s1
          let s3 := (List.range 256).foldl (State.takeCqHead b) s2
          ((List.range 64).foldl (State.takeHvHead b) s3).polled)

/-! ### Fetching -/

/-- Entries that a descriptor covers; one whose count is out of range covers its first (R321). -/
def coveredEntries (n : Nat) : Nat := if 1 ≤ n && n ≤ 16 then n else 1

/-- Entries from a count to the end of its ring (R322). -/
def Ring.toEnd (r : Ring) (at_ : Nat) : Nat := r.size - at_ % r.size

/-- Whether a descriptor of `n` entries would run past the end of its ring (R322). -/
def Ring.runsPast (r : Ring) (at_ n : Nat) : Bool := r.toEnd at_ < n

/-- Entries that the module reads for a descriptor of `n` entries at its fetch count (R317, R322). -/
def Ring.reads (r : Ring) (n : Nat) : Nat := min (coveredEntries n) (r.toEnd r.fetched)

/-- Entries that a descriptor of `n` entries takes up: every one to the ring end where it would run past (R317, R322). -/
def Ring.takesUp (r : Ring) (n : Nat) : Nat := if r.runsPast r.fetched n then r.toEnd r.fetched else coveredEntries n

/-- Whether the tail covers what a descriptor takes up (R317, R322). -/
def Ring.covers (r : Ring) (n : Nat) : Bool := r.takesUp n ≤ count32 r.other r.fetched

/-- Read requests that `n` entries take, each of at most the size the host set (R307). -/
def State.readRequests (s : State) (n : Nat) : Nat := ceilDiv (64 * n) (max 128 s.host.pcie.maxRead)

/-- Entries that a fetch under way reads. -/
def State.fetchEntries (s : State) (f : Fetch) : Nat := min (coveredEntries f.entries) ((s.sq f.ring).toEnd f.at_)

/-- Whether `n` more entries can be read within the 1,024 non-posted requests outstanding, or as many as the tags in use tell apart
(R307). -/
def State.tagsFor (s : State) (n : Nat) : Bool :=
  sumNat (s.host.fetches.map fun f => s.readRequests (s.fetchEntries f)) + s.readRequests n ≤ min 1024 (2 ^ s.host.pcie.tagBits)

/-- Whether the next descriptor of a ring can be fetched (R307, R324, R325, R326). -/
def State.canFetch (s : State) (entries n : Nat) : Bool :=
  let r := s.sq n
  r.unfetched && !r.halted && r.covers entries && !(s.host.fetches.any (·.ring == n)) &&
    !(s.host.descs.any fun d => d.ring == n && field d.bytes 0 1 == 1) && (s.cq r.cq).hasFree &&
    s.host.descs.length + s.host.fetches.length < 4096 && s.tagsFor (r.reads entries)

/-- `DESCRIPTOR_FETCH` (R317, R322, R324, R325): the read of the next ring's next descriptor, of `entries` entries, is issued. A
shutdown stops it (R439). -/
def execDescriptorFetch (entries : Nat) (s : State) : Out3 :=
  onUnit (entries < 256)
    (if !s.ringsRun || s.shutdown.busy || s.shutdown.done then s
     else match ((List.range 256).map fun i => (s.host.lastRing + 1 + i) % 256).find? (s.canFetch entries) with
       | none => s
       | some n =>
         let r := s.sq n
         let s1 := s.updSq n fun r => { r with fetched := (r.fetched + r.takesUp entries) % 2 ^ 32 }
         let s2 := s1.updCq r.cq fun c => { c with reserved := c.reserved + 1 }
         { s2 with host := { s2.host with
             fetches := s2.host.fetches ++ [⟨n, r.fetched, entries⟩], lastRing := n, lastFetch := some s.cairn } })

/-- A descriptor held, ready to start. -/
def State.keepDesc (ring at_ next : Nat) (bytes : List Byte) (s : State) : State :=
  { s with host := { s.host with
      descs := s.host.descs ++ [⟨s.host.nextTag, ring, bytes, at_, next, false⟩], nextTag := s.host.nextTag + 1 } }

/-- A descriptor completed unread as `BAD_DESCRIPTOR`, with the head at `next` (R322, R327). -/
def State.refuse (ring next : Nat) (bytes : List Byte) (detail : Nat) (s : State) : State :=
  let s1 := s.updSq ring fun r => { r with count := next }
  s1.writeCompletion ring (field bytes 0 1) (field bytes 8 8) stBad detail 0 next

/-- The entries of a fetched descriptor have come (R315, R322, R323, R327). -/
def State.takeEntries (f : Fetch) (bytes : List Byte) (s : State) : State :=
  let r := s.sq f.ring
  let m := r.toEnd f.at_
  let next := (f.at_ + coveredEntries f.entries) % 2 ^ 32
  let ringEnd := (f.at_ + m) % 2 ^ 32
  if field bytes 0 1 = 1 && f.entries = m && m < 16 then
    (s.updCq r.cq fun c => { c with reserved := c.reserved - 1 }).keepDesc f.ring f.at_ ringEnd bytes
  else if field bytes 0 1 = 1 || r.runsPast f.at_ f.entries then
    (s.updSq f.ring fun r => { r with fetched := ringEnd }).refuse f.ring ringEnd bytes badEntries
  else if !opcodesOf332.contains (field bytes 0 1) then s.refuse f.ring next bytes badOpcode
  else (s.updSq f.ring fun r => { r with count := next }).keepDesc f.ring f.at_ next bytes

/-- A failed read of entries (R326). -/
def State.fetchFailed (f : Fetch) (s : State) : State :=
  (s.updSq f.ring fun r => { r with fetched := f.at_, halted := true }).writeCompletion f.ring 0 0 stBad hostReadFailed 0 f.at_

/-- Whether what has come is the descriptor that was fetched, and the tail covers what it takes up (R322). -/
def State.fetchFits (s : State) (f : Fetch) (bytes : List Byte) : Bool :=
  let r := s.sq f.ring
  let m := r.toEnd f.at_
  field bytes 1 1 == f.entries && bytes.length == 64 * min (coveredEntries f.entries) m &&
    ((field bytes 0 1 != 1 && !r.runsPast f.at_ f.entries) || m ≤ count32 r.other f.at_)

/-- `HOST_READ_COMPLETION` (R312, R315, R322, R323, R326, R327): the read of a ring's descriptor ends. -/
def execHostReadCompletion (ring : Nat) (data : Dma) (s : State) : Out3 :=
  onUnit (ring < 256)
    (match s.host.fetches.find? (·.ring == ring) with
     | none => s
     | some f =>
       let s1 := { s with host := { s.host with fetches := s.host.fetches.erase f } }
       match data with
       | .failed e _ => (s1.noteAer e).fetchFailed f
       | .data b => if s.fetchFits f b then s1.takeEntries f b else s)

/-- `SKIP` (R323): the head moves to the ring end, and no record is written. -/
def execSkip (d : Nat) (s : State) : Out3 :=
  .next (match s.desc d with
    | none => s
    | some x => if x.opcode ≠ 1 then s else (s.updSq x.ring fun r => { r with count := x.next }).dropDesc d)

/-- `NOP` (R332). -/
def execNop (d : Nat) (s : State) : Out3 :=
  s.runDesc 0x02 d (fun _ => { entries := 1, arg := 0, named := [], align := true }) fun d s => s.complete d stOk 0 0

/-! ### The device status block -/

/-- The device status block (R318). -/
def State.statusBlock (s : State) : List Byte :=
  toLe 8 s.host.hbCount ++ toLe 8 s.cairn ++ toLe 1 s.devState.code ++ [0] ++ toLe 2 s.usableTiles ++ toLe 4 s.recoveries ++
    List.replicate 40 0

/-- Bytes written to host memory while the rings' own DMA is stopped: the status block and the dump (R320, R446). -/
def State.hostRaw (a : Nat) (bs : List Byte) (s : State) : State :=
  if s.host.linkUp then { s with host := { s.host with mem := Tab.putAll 0 a bs s.host.mem } } else s

/-- The block written once (R320, R387). -/
def State.writeStatus (s : State) : State :=
  if s.host.dbBase = 0 then s
  else
    let s1 := { s with host := { s.host with hbCount := (s.host.hbCount + 1) % 2 ^ 64, lastBeat := s.cairn } }
    s1.hostRaw (s.host.dbBase + 0xF00) s1.statusBlock

/-- Whether the Ensign writes the block: it runs firmware, and no stage up to the fourth of a recovery stops DMA (R320, R446). -/
def State.beats (s : State) : Bool :=
  s.fw.running && s.host.dbBase != 0 && s.host.linkUp &&
    (match s.seq with
      | .recovery st _ _ _ => 5 ≤ st
      | _ => true)

/-- `HEARTBEAT_WRITE` (R318, R320, R443): 10 ms after the one before. -/
def execHeartbeatWrite (s : State) : Out3 :=
  .next (if s.beats then (s.advanceTo (s.host.lastBeat + 10000000)).writeStatus else s)

/-! ### MSI-X -/

/-- `MSIX_UNMASK` (R308, R310): a write of an entry of the MSI-X table: its mask bit, and its address and data where the write gives
them. A vector unmasked sends its pending message once. -/
def execMsixUnmask (v : Nat) (s : State) (mask : Bool := false) (entry : Option (Nat × Nat) := none) : Out3 :=
  onUnit (v < 2048)
    (State.sendPending { s with host := { s.host with
      unmasked := Tab.put false v (!mask) s.host.unmasked
      msix := entry.elim s.host.msix fun e => Tab.put (0, 0) v (e.1 % 2 ^ 64, e.2 % 2 ^ 32) s.host.msix } })

/-! ### Configuration requests -/

/-- Whether the host port has a feature (R307). -/
def pciHas (f : PciFeature) : Bool :=
  match f with
  | .flitMode | .msix | .aer | .flr | .powerManagement => true
  | .sriov | .pasid | .ats | .pri | .msi | .intx | .noSoftReset | .aspm | .resizableBar | .ptm | .doe | .ide | .tph | .atomics =>
    false

/-- The bit of an error in the AER status. -/
def aerBit : AerError → Nat
  | .poisoned => 0
  | .unsupported => 1
  | .abort => 2
  | .timeout => 3

/-- A field of configuration space (R307, R308, R312). -/
def State.configRead (s : State) (f : ConfigField) : Nat :=
  let p := s.host.pcie
  match f with
  | .vendorId => Config.vendorId % 2 ^ 16
  | .deviceId => 0x0A48
  | .headerType => 0
  | .classCode => 0x120000
  | .barSize n => if n = 0 then 2 ^ 25 else if n = 2 then 2 ^ 32 else if n = 4 then 2 ^ 16 else 0
  | .feature f => b2n (pciHas f)
  | .tags => 1024
  | .vectors => 2048
  | .maxPayload => p.payload
  | .maxRead => p.maxRead
  | .relaxed => b2n p.relaxed
  | .ecrc => b2n p.ecrc
  | .linkLanes => p.lanes
  | .linkRate => p.rate
  | .surpriseDown => b2n p.surpriseDown
  | .tagBits => p.tagBits
  | .aerStatus => sumNat (p.aer.map fun e => 2 ^ aerBit e)
  | .powerState => if p.d3hot then 3 else 0

/-- Whether a size is a power of two from 128 to `top`. -/
def sizeOk (top v : Nat) : Bool := [128, 256, 512, 1024, 2048, 4096].contains v && v ≤ top

/-- A field written: what the host may set, to a value it may have (R307); a status bit is cleared by writing 1. -/
def Pcie.write (f : ConfigField) (v : Nat) (p : Pcie) : Pcie :=
  match f with
  | .maxPayload => if sizeOk 512 v then { p with payload := v } else p
  | .maxRead => if sizeOk 4096 v then { p with maxRead := v } else p
  | .relaxed => { p with relaxed := v != 0 }
  | .ecrc => { p with ecrc := v != 0 }
  | .tagBits => if [8, 10, 14].contains v then { p with tagBits := v } else p
  | .surpriseDown => if v = 0 then p else { p with surpriseDown := false }
  | .aerStatus => { p with aer := p.aer.filter fun e => !v.testBit (aerBit e) }
  | .powerState => if v = 3 then { p with d3hot := true } else p
  | .vendorId | .deviceId | .headerType | .classCode | .barSize _ | .feature _ | .tags | .vectors | .linkLanes | .linkRate => p

/-- `PCIE_CONFIG_REQUEST` (R307, R311, R427): `v` is the value of a write. `rd` is 1 for Request Retry Status and 0 for a normal
answer. Before phase 2 nothing answers. A write of D0 in D3hot is the row `D3HOT_TO_D0`. -/
def execPcieConfigRequest (s : State) (f : ConfigField := .vendorId) (v : Option Nat := none) : Out3 :=
  .next (if !s.hotSwap.switchOn || !s.host.linkUp || s.seq == .start 1 then s
    else if s.host.retry then { s with rd := 1 }
    else
      let p := match v with
        | none => { s.host.pcie with answer := s.configRead f }
        | some n => s.host.pcie.write f n
      { s with rd := 0, host := { s.host with pcie := p } })

end Sys2Proof.Machine
end

