-- ==== Sys2Proof/Machine/Dump.lean ====
section
/-! DEFINITION. The crash dump (R120, R121, R452, R453). -/

namespace Sys2Proof.Machine

/-- `START_UNIT` and `SAMPLE_UNITS` as the engine takes them (R453). -/
def Dump.firstUnit (d : Dump) : Nat := d.startUnit % 96
def Dump.units (d : Dump) : Nat := min d.sampleUnits 96

/-- Bytes of a tile record, and of the part before the first one (R453). -/
def Dump.recordBytes (d : Dump) : Nat := 8256 + 65536 * d.units
def dumpHead : Nat := 65536

/-- Words of a Tarn that sample unit `j` starts at (R453). -/
def Dump.unitStart (d : Dump) (j : Nat) : Nat := (d.firstUnit + j) % 96 * 8192

/-- Whether a unit of a tile's record could not be read: given up after 50 µs, or part of a Tarn that is OFF (R452). -/
def State.unread (s : State) (t u : Nat) : Bool :=
  s.dump.unreach.contains (t, u) || (1 ≤ u && (s.tile t).tarnPower == .off)

/-- The units of a tile that count as unreachable, as `unreach` holds them (R453). -/
def State.unreachBits (s : State) (t : Nat) : Nat :=
  sumNat ((List.range (s.dump.units + 1)).map fun u => if s.unread t u then 2 ^ u else 0)

/-- The register block of a record (R453). -/
def State.dumpRegisters (s : State) (t : Nat) : List Byte :=
  let x := s.tile t
  let obs := match s.graphFor t with
    | none => false
    | some y => y.image.obsMode == 1
  x.tarnBlock ++ x.channelBlock ++ List.replicate 432 0 ++
    (if obs then x.cnt.block else List.replicate 4224 0) ++ List.replicate 2944 0

/-- One sample unit: its bytes, and the words that came with a poison mark, in the order of their reads. -/
def State.dumpUnit (s : State) (t j : Nat) : List Byte × List Nat :=
  if s.unread t (1 + j) then (List.replicate 65536 0, [])
  else
    let r := s.sideWords t (s.dump.unitStart j) 8192
    (wordBytes r.words, sortBy (r.ue ++ r.stored) fun a b => a ≤ b)

/-- `tflags` (R453). -/
def Tile.dumpFlags (x : Tile) : Nat :=
  (match x.use with
    | .bound _ _ => 1
    | .shadow _ => 2
    | .stress _ _ _ => 4
    | _ => 0) + 8 * b2n x.fenced + 16 * x.tarnPower.code

/-- A tile's record (R453). -/
def State.dumpRecord (s : State) (t : Nat) : List Byte :=
  let x := s.tile t
  let gv : Nat × Nat := match x.use with
    | .bound g v => (g, v)
    | _ => (0xFF, 0xFFFF)
  let units := (List.range s.dump.units).map fun j => s.dumpUnit t j
  let bad := units.flatMap (·.2)
  let body := (if s.unread t 0 then List.replicate 8192 0 else s.dumpRegisters t) ++ units.flatMap (·.1)
  let head := toLe 2 t ++ toLe 1 gv.1 ++ toLe 1 x.dumpFlags ++ toLe 2 gv.2 ++ toLe 2 x.cfg.generation ++ toLe 8 s.cairn ++
    toLe 16 (s.unreachBits t) ++ toLe 4 bad.length ++ toLe 4 (bad.headD 0xFFFFFFFF) ++
    List.replicate 20 0
  head ++ toLe 4 (crc32c (head ++ body)) ++ body

/-- Time that a tile's record takes (R452). -/
def State.dumpTime (s : State) (t : Nat) : Nat :=
  let x := s.tile t
  let rate := if x.tarnPower = .retain then 32 else 8
  let words (u : Nat) : Nat := if s.unread t u then 0 else if u = 0 then 1024 else 8192
  sumNat ((List.range (s.dump.units + 1)).map fun u => words u * rate) +
    50000 * (s.dump.unreach.countP fun e => e.1 == t)

/-- The dump header (R453). -/
def State.dumpHeader (s : State) : List Byte :=
  let d := s.dump
  let n := min d.size (dumpHead + d.tiles * d.recordBytes)
  let head := toLe 4 0x504D5544 ++ toLe 2 1 ++ toLe 2 d.tiles ++ toLe 8 d.cairnStart ++ toLe 8 d.cairnEnd ++ toLe 4 d.recordBytes ++
    toLe 2 d.units ++ toLe 2 d.firstUnit ++ toLe 4 (b2n (!d.truncated) + 2 * b2n d.truncated) ++ toLe 4 s.recoveries ++
    toLe 8 n ++ toLe 2 (s.fabric.id % 2 ^ 14) ++ List.replicate 10 0
  head ++ toLe 4 (crc32c head)

/-- The dump ends: the event log's bytes, whose form no rule gives, and the header last (R452, R453). -/
def State.endDump (s : State) : State :=
  let s1 := s.hostRaw (s.dump.base + 64) (freeBytes s.draws 0 (min (s.dump.size - 64) 65472))
  let s2 := s1.draw.hostRaw s1.dump.base s1.dumpHeader
  State.tarnsOff (List.range 320) { s2 with dump := { s2.dump with done := true, running := false } }

/-- The dump's sequence begins (R452): its status starts anew. -/
def State.beginDump (s : State) : State :=
  { s with dump := { s.dump with
      done := false, truncated := false, skipped := false, tiles := 0, running := true, cairnStart := s.cairn, cairnEnd := s.cairn, unreach := [] } }

/-- Whether a tile's record lies within `DUMP_SIZE` (R453). -/
def Dump.holds (d : Dump) (t : Nat) : Bool := dumpHead + (t + 1) * d.recordBytes ≤ d.size

/-- A record written (R453). -/
def State.writeRecord (s : State) (t : Nat) : State :=
  let s1 := s.hostRaw (s.dump.base + dumpHead + t * s.dump.recordBytes) (s.dumpRecord t)
  State.tarnsOff [t] { s1 with dump := { s1.dump with tiles := t + 1 } }

/-- `DUMP_GROUP_DONE` (R452, R453): the next eight tiles, as many as fit; `unreach` names accesses that were given up, as tile and
unit. -/
def execDumpGroupDone (unreach : List (Nat × Nat)) (s : State) : Out3 :=
  onUnit (unreach.all fun e => e.1 < 320 && e.2 < 97)
    (if !s.dump.running then s
     else
       let group := ((List.range 8).map fun i => s.dump.tiles + i).filter (· < 320)
       let ts := group.filter s.dump.holds
       let s1 := { s with dump := { s.dump with unreach := (s.dump.unreach ++ unreach).dedup } }
       let time := ts.foldl (fun m t => max m (s1.dumpTime t)) 0
       if cairnSince s.dump.cairnStart s.cairn + time > 300000000 then s
       else
         let s2 := (ts.foldl State.writeRecord s1).advanceTo (s.cairn + time)
         let s3 := if ts.isEmpty then s2 else { s2 with dump := { s2.dump with cairnEnd := s2.cairn } }
         if ts.length < group.length then State.endDump { s3 with dump := { s3.dump with truncated := true } }
         else if s3.dump.tiles ≥ 320 then s3.endDump
         else s3)

/-- `DUMP_BUDGET_EXPIRY` (R453): 300 ms after its start. -/
def execDumpBudgetExpiry (s : State) : Out3 :=
  .next (if !s.dump.running then s
    else
      let s1 := s.advanceTo (s.dump.cairnStart + 300000000)
      State.endDump { s1 with dump := { s1.dump with truncated := true } })

end Sys2Proof.Machine
end

