-- ==== Sys2Proof/Machine/Start.lean ====
section
/-! DEFINITION. Loss of power and the cold start: its five phases, its tests and its end (R17, R241, R242, R399, R425 to R436,
R442, R467). -/

namespace Sys2Proof.Machine

/-! ### Power -/

/-- What is left once the module's power has gone: the ledger, the fuses, the hot-swap controller on standby power, and what
the module has sent to the outside (R242, R399, R424, R463). -/
def State.bare (s : State) : State :=
  { State.reset with
    pending := s.pending
    host := { Host_.reset with mem := s.host.mem, poison := s.host.poison, messages := s.host.messages }
    ledger := s.ledger, fuses := s.fuses, hotSwap := s.hotSwap
    monitor := { Monitor.reset with nonces := s.monitor.nonces, out := s.monitor.out }
    rd := s.rd, rdBytes := s.rdBytes, draws := s.draws }

/-- The input switch opens, and the cause is latched (R399, R497). -/
def State.openSwitch (cause : Nat) (s : State) : State :=
  if !s.hotSwap.switchOn then s
  else
    let b := s.bare
    { b with hotSwap := { b.hotSwap with
        switchOn := false, ramping := false, cause := cause, unread := true, iin := 0, attn := true } }

/-- A cold start begins (R425, R473): the decommission fuse takes effect. -/
def State.coldStart (s : State) : State :=
  let b := s.bare
  { b with
    seq := .start 1
    ledger := { b.ledger with startCount := b.ledger.startCount + 1, lastSave := 0 }
    fuses := { b.fuses with decommission := b.fuses.blown }
    hotSwap := { b.hotSwap with attn := false } }

/-! ### What the tests find -/

/-- A `LEDGER_CONFLICT` recorded and held for the event ring (R432). -/
def State.conflict (kind id dir : Nat) (s : State) : State :=
  let s1 := s.ledgerEvent 0x1005 kind id dir
  if s1.ledger.conflicts.contains (kind, id, dir) then s1
  else { s1 with ledger := { s1.ledger with conflicts := s1.ledger.conflicts ++ [(kind, id, dir)] } }

/-- The conflicts held since the last start raised, once an event ring is enabled (R432). -/
def State.flushConflicts (s : State) : State :=
  if !s.eventRing then s
  else
    let s1 := { s with ledger := { s.ledger with conflicts := [] } }
    s.ledger.conflicts.foldl (fun s c => s.notice s.host.evtRing ⟨2, 0, 0x1005, 0, 0, c.1, c.2.1, c.2.2⟩) s1

/-- Whether the fuse map marks a part bad (R431). -/
def State.fusedBad (s : State) (k : Nat × Nat) : Bool := s.fuses.bad.contains k

/-- A part that failed a test of this start (R431, R442). -/
def State.noteFailed (k : Nat × Nat) (s : State) : State :=
  if s.selfTest.failed.contains k then s else { s with selfTest := { s.selfTest with failed := s.selfTest.failed ++ [k] } }

/-- A part that failed its start-up test (R431 to R433): a defect entry, and where `cold` the conflict with a fuse map that
marks it good. -/
def State.testFailed (cold : Bool) (s0 : State) (k : Nat × Nat) : State :=
  let s := s0.noteFailed k
  if s.fusedBad k then s
  else
    let s1 := if cold then s.conflict k.1 k.2 1 else s
    if s1.markedBad k.1 k.2 then s1 else s1.addDefect k.1 1 k.2 0

/-- A part that passed although the fuse map marks it bad (R432). -/
def State.testPassed (s : State) (k : Nat × Nat) : State := if s.fusedBad k then s.conflict k.1 k.2 0 else s

/-- The first finding that makes the start fail is kept: phase and unit, a domain ID (R428). -/
def State.startFault (phase unit_ : Nat) (s : State) : State :=
  match s.selfTest.fault with
  | some _ => s
  | none => { s with selfTest := { s.selfTest with fault := some (phase, unit_) } }

/-- The tracker and the bridge (R428). -/
def State.coreTests (phase : Nat) (r : StartReport) (s : State) : State :=
  let s1 := if r.tracker then s else s.startFault phase 686
  if r.bridge then s1 else s1.startFault phase 687

/-! ### Phases -/

/-- Phase 1 ends (R399, R425, R457): the firmware runs, or the boot ROM waits for an image. -/
def State.phase1 (r : StartReport) (s : State) : State :=
  let s0 := { s with hotSwap := { s.hotSwap with ramping := false } }
  if r.image && s0.ledgerVerifies then
    let s1 := if 1 ≤ s0.hotSwap.cause && s0.hotSwap.cause ≤ 5 then s0.ledgerEvent (0x1F00 + s0.hotSwap.cause) 0 0 0 else s0
    let s2 := if r.defectList then s1
      else { s1 with ledger := { s1.ledger with defectsGood := false, defects := [] } }
    ({ s2 with seq := .start 2, cairn := 0 }).loadFirmware
  else { s0 with
    seq := .rescue, host := { s0.host with bar0 := true, retry := false }, fw := { s0.fw with cairnKept := false } }

/-- Voltage trims as a start takes them (R423, R429): in steps of 2.5 mV, saved with 16 added; one not listed is +40 mV. -/
def State.startTrims (s : State) : State :=
  { s with power := { s.power with trims := (List.range 688).foldl (fun m d =>
      match s.saved 6 d with
      | none => m
      | some v => Tab.put 16 d ((v : Int) - 16) m) [] } }

/-- The clocks and networks of phase 2 and of recovery stage 5 (R404, R425, R428): the router domains are on but for lost ones,
and a spine that failed is kept. -/
def State.networks (cold : Bool) (phase : Nat) (r : StartReport) (s : State) : State :=
  let s1 := s.coreTests phase r
  let s2 := (r.failed.filter fun k => k.1 == 3 || k.1 == 4).foldl (State.testFailed cold) s1
  let s3 := match r.failed.find? fun k => k.1 == 3 && k.2 % 10 < 8 with
    | none => s2
    | some k => s2.startFault phase (640 + k.2)
  { s3 with planes := { s3.planes with routerOn := ((List.range 20).filter fun m => !s3.power.lost.contains (640 + m)).map fun m => (m, true) } }

/-- Phase 2 ends. -/
def State.phase2 (r : StartReport) (s : State) : State := { (s.startTrims.networks true 2 r) with seq := .start 3 }

/-- A slice that failed training, or whose recorded slot is gone, takes the lowest free slot without a copy, or is lost until
there is one (R240, R241, R430). -/
def State.slotOrLost (cause : Nat) (s : State) (n : Nat) : State :=
  match s.freeSlot with
  | some i => s.slotWithoutCopy i n
  | none =>
    let s1 := s.loseSlice n cause
    { s1 with mem := { s1.mem with unplaced := s1.mem.unplaced ++ [n] } }

/-- The slices of a training report that are still in use. -/
def State.untrained (s : State) (r : StartReport) : List Nat :=
  (r.failed.filter fun k => k.1 == 5 && k.2 < 64 && (s.slice k.2).state == .good).map (·.2)

/-- Slices that failed training (R430): a whole group is a failed controller unit (R240). -/
def State.takeUntrained (r : StartReport) (s : State) : State :=
  let ns := s.untrained r
  ns.foldl (fun s n => (s.noteFailed (5, n)).slotOrLost (if (List.range 4).all fun i => ns.contains (n / 4 * 4 + i) then 1 else 3) n) s

/-- Lost slices (R428). -/
def State.lostSlices (s : State) : List Nat := (List.range 64).filter fun n => (s.slice n).state == .lost

/-- The limits of R428 on memory. -/
def State.memoryTests (phase : Nat) (r : StartReport) (s : State) : State :=
  if s.lostSlices.length > 32 || !r.area then s.startFault phase (660 + ((s.lostSlices.head?).getD 0) / 4) else s

/-- The retired slices of the ledger on their recorded slots (R241). -/
def State.restoreRetired (s : State) : State :=
  s.ledger.retired.foldl (fun s e =>
    let s1 := s.updSlice e.1 fun x => { x with state := .retired e.2.1 }
    { s1 with mem := { s1.mem with slots := Tab.put .reset e.2.1 ⟨e.2.2, true, e.1, true⟩ s1.mem.slots } }) s

/-- Phase 3 ends (R241, R242, R425, R429, R430): with the redirects restored, the stream table and the module area are
initialised. A stack trains from its saved values, and in full where it has none or fails the check pattern. -/
def State.phase3 (r : StartReport) (s0 : State) : State :=
  let s := { s0 with selfTest := { s0.selfTest with serials := r.serials } }
  let s1 := { s with
    mem := { s.mem with
      hbm := s.mem.hbm.forget moduleArea (hbmBytes - moduleArea) }
    power := { s.power with hbmTrain := (List.range 16).foldl (fun m g =>
      match s.saved 5 g with
      | none => m
      | some v => if r.pattern.contains (g / 2) then m else Tab.put 0 g v m) [] } }
  let s2 := ((s1.coreTests 3 r).restoreRetired.takeUntrained r).zeroRun s.regs.streamTable (2 ^ 28)
  { (s2.memoryTests 3 r) with seq := .start 4 }

/-- A retired slice whose slot is no longer mapped (R241). -/
def State.recheckRetired (s : State) (n : Nat) : State :=
  match (s.slice n).state with
  | .retired i =>
    if s.slotMapped (Tab.get RetireSlot.reset s.mem.slots i).baseGib then s else s.slotOrLost 2 n
  | _ => s

/-- Phase 4 ends (R226, R241, R272, R307, R426, R427): host and fabric are open. -/
def State.phase4 (r : StartReport) (s : State) : State :=
  let s1 := (List.range 64).foldl State.recheckRetired ((s.coreTests 4 r).enumerate r.devices)
  let s2 := (List.range 6).foldl (fun s p => s.enablePort p) (s1.memoryTests 4 r)
  let s3 := if hostLinkOk r.hostLanes r.hostRate then s2.hostTrained r.hostLanes r.hostRate else s2
  { s3 with seq := .start 5, host := { s3.host with bar0 := true, retry := false } }

/-! ### The end of the tests -/

/-- Parts that the tests of phase 5 cover: tiles, Tarns, massif routers, links and tile phases (R435). -/
def testedParts : List (Nat × Nat) :=
  (List.range 320).map (fun i => (1, i)) ++ (List.range 320).map (fun i => (2, i)) ++ (List.range 20).map (fun i => (3, i)) ++
    (List.range 456).map (fun i => (4, i)) ++ (List.range 2560).map fun i => (6, i)

/-- Tiles that failed both known-answer runs (R436). -/
def SelfTest.failedTiles (t : SelfTest) : List Nat := t.katFailed.dedup.filter fun i => 2 ≤ t.katFailed.count i

/-- Whether a part failed its test of this phase. -/
def State.failedNow (s : State) (r : StartReport) (k : Nat × Nat) : Bool :=
  r.failed.contains k || (k.1 == 1 && s.selfTest.failedTiles.contains k.2)

/-- Phase entries that a passed test removes, and the entries of tiles fenced only because their phases failed (R434). -/
def State.clearPassed (r : StartReport) (s : State) : State :=
  let stays (d : Defect) : Bool :=
    !(d.kind == 6 && d.source == 3 && d.cause != 4 && !r.failed.contains (6, d.id) && !r.untested.contains (6, d.id))
  let s1 := { s with ledger := { s.ledger with defects := s.ledger.defects.filter stays } }
  let badPhases (t : Nat) : Nat := (List.range 8).countP fun p => s1.bad 6 (t * 8 + p) || r.failed.contains (6, t * 8 + p)
  { s1 with ledger := { s1.ledger with defects := s1.ledger.defects.filter fun d =>
      !(d.kind == 1 && d.source == 3 && d.cause == 0x1705 && badPhases d.id < 3) } }

/-- A defect list that was lost, built again from the fuse map and the tests (R433). -/
def State.rebuildDefects (s : State) : State :=
  if s.ledger.defectsGood then s
  else
    let fused := s.fuses.bad.map fun k => (⟨k.1, 0, k.2, 0, s.ledger.hours, s.ledger.startCount⟩ : Defect)
    let all := (fused ++ s.ledger.defects).take 4096
    ({ s with ledger := { s.ledger with defects := all, defectsGood := true } }).raise 0x1006 all.length 0 0

/-- The parts that fuses and the defect list mark bad put out of use (R374, R431); kinds 7 and 8 are history (R433). -/
def State.applyBad (s : State) (k : Nat × Nat) : State :=
  match k.1 with
  | 1 => s.updTile k.2 fun x => { x with fenced := true, part := 3 }
  | 2 => s.updTile k.2 fun x => { x with fenced := true, tarnPart := 3 }
  | 3 =>
    let s1 := s.setScore .router k.2 (s.score .router k.2).1 3
    (List.range 16).foldl (fun s i => s.updTile (k.2 * 16 + i) fun x => { x with fenced := true }) s1
  | 4 => s.setScore .link k.2 (s.score .link k.2).1 3
  | 5 => (s.updSlice k.2 fun x => { x with part := 3 }).retireSlice k.2
  | 6 => s.updPhase k.2 fun x => { x with failed := true, part := 3 }
  | _ => s

/-- Parts whose test could not run stay out of use (R435). -/
def State.applyUntested (s : State) (k : Nat × Nat) : State :=
  match k.1 with
  | 1 => s.updTile k.2 fun x => { x with fenced := true }
  | 2 => s.updTile k.2 fun x => { x with fenced := true }
  | 3 => (List.range 16).foldl (fun s i => s.updTile (k.2 * 16 + i) fun x => { x with fenced := true }) s
  | 4 => s.setScore .link k.2 (s.score .link k.2).1 3
  | 6 => s.updPhase k.2 fun x => { x with failed := true }
  | _ => s

/-- What a tile's failed phases do to it (R402, R431). -/
def State.applyPhases (s : State) (t : Nat) : State :=
  let n := s.failedPhases t
  if n ≥ 3 then s.updTile t fun x => { x with fenced := true } else if n = 2 then s.capTile t else s

/-- Every part as fuse map, defect list and tests leave it. -/
def State.applyUnion (r : StartReport) (s : State) : State :=
  let marked := (s.fuses.bad ++ (s.ledger.defects.map fun d => (d.kind, d.id)) ++ s.selfTest.failed.filter (·.1 != 5)).dedup
  (List.range 320).foldl State.applyPhases (r.untested.foldl State.applyUntested (marked.foldl State.applyBad s))

/-- The result record of a start: slice kind 0, over the tests of all phases (R442). -/
def State.startResult (r : StartReport) (s : State) : TestResult :=
  let bad := s.selfTest.failed
  { slice := 0, outcome := if bad.isEmpty && s.selfTest.fault.isNone then 0 else 1, unit_ := 0, coverage := min r.coverage 1000
    failures := bad.length, durationMs := r.durationMs, budgetMs := 1000, hours := s.ledger.hours
    startCount := s.ledger.startCount, firstFail := ((bad.head?).map (·.2)).getD 0xFFFF, source := 0
    lcState := s.fuses.lcState }

/-- Whether the latest record of R17 in the event log says that the module entered DEGRADED. -/
def State.wasDegraded (s : State) : Bool :=
  ((s.ledger.events.reverse.find? fun e => e.2.code == 0x1001 || e.2.code == 0x1002).map (·.2.code)) == some 0x1001

/-- The rollback count advances after a start that ended well (R467). -/
def State.advanceRollback (s : State) : State :=
  if s.fuses.rollback < s.securityVersion then
    ({ s with fuses := { s.fuses with rollback := max s.fuses.rollback (min s.securityVersion 64) } }).raise 0x1806 0 (min s.securityVersion 64) 0
  else s

/-- The module ends a start or a recovery with its tiles tested (R17, R428): `READY` or `DEGRADED`. -/
def State.intoService (s : State) : State :=
  if s.usableTiles < 256 then (s.setDev .degraded).raise 0x1001 s.usableTiles 0 0
  else if s.wasDegraded then (s.setDev .ready).raise 0x1002 s.usableTiles 0 0
  else s.setDev .ready

/-- The findings of phase 5 in the ledger and on the parts (R430 to R436). -/
def State.endTests (r : StartReport) (s : State) : State :=
  let s1 := s.clearPassed r
  let s2 := (r.failed.filter fun k => k.1 == 1 || k.1 == 2 || k.1 == 3 || k.1 == 4 || k.1 == 6).foldl (State.testFailed true) s1
  let s3 := (testedParts.filter fun k => s.fusedBad k && !s.failedNow r k && !r.untested.contains k).foldl State.testPassed s2
  s3.rebuildDefects.applyUnion r

/-- Phase 5 ends, and with it the start (R427, R428, R432, R442, R467). -/
def State.phase5 (r : StartReport) (s : State) : State :=
  let s1 := (s.coreTests 5 r).endTests r
  let s2 := s1.addResult (s1.startResult r)
  match s2.selfTest.fault with
  | some f =>
    State.flushConflicts { ((s2.setDev .failed).ledgerEvent 0x1F07 f.1 f.2 0) with seq := .idle }
  | none =>
    let s3 := { s2.intoService with seq := .idle, selfTest := s2.selfTest.anew }
    let s4 := s3.advanceRollback.flushConflicts
    { s4 with host := { s4.host with wake := true, lastBeat := s4.cairn } }

/-- The phase that runs ends. -/
def State.endPhase (r : StartReport) (s : State) : State :=
  match s.seq with
  | .start 1 => s.phase1 r
  | .start 2 => s.phase2 r
  | .start 3 => s.phase3 r
  | .start 4 => s.phase4 r
  | .start 5 => s.phase5 r
  | _ => s

/-- `START_PHASE_COMPLETE` (R425). -/
def execStartPhaseComplete (r : StartReport) (s : State) : Out3 := .next (s.endPhase r)

/-- `START_PHASE_BUDGET_EXPIRY` (R425): units that have not finished stand among those that failed. -/
def execStartPhaseBudgetExpiry (r : StartReport) (s : State) : Out3 := .next (s.endPhase r)

/-! ### Known-answer runs -/

/-- Whether the tiles' start-up tests run: phase 5 of a start or stage 8 of a recovery. -/
def State.tilesTested (s : State) : Bool :=
  match s.seq with
  | .start 5 => true
  | .recovery 8 _ _ _ => true
  | _ => false

/-- A tile FENCED by its second failure at start (R372, R436). -/
def State.katFenced (cold : Bool) (t : Nat) (s : State) : State :=
  let s1 := (s.setScore .tile t 4096 3).raise 0x1608 4096 1 t
  (s1.testFailed cold (1, t)).fenceTile t

/-- `KNOWN_ANSWER_RUN_DONE` (R436): one repeat, FENCED at the second failure, SUSPECT at a pass that follows a failure. -/
def execKnownAnswerRunDone (t : Nat) (pass : Bool) (s : State) : Out3 :=
  onUnit (t < 320)
    (let n := s.selfTest.katFailed.count t
     if !s.tilesTested || n ≥ 2 then s
     else if pass then
       (if n = 0 then s
        else
          let s1 := { s with selfTest := { s.selfTest with katFailed := s.selfTest.katFailed.filter (· != t) } }
          s1.settle .tile t (s1.score .tile t).2 1024 0)
     else
       let s1 := { s with selfTest := { s.selfTest with katFailed := s.selfTest.katFailed ++ [t] } }
       if n = 0 then s1 else s1.katFenced (s.seq == .start 5) t)

end Sys2Proof.Machine
end

