-- ==== Sys2Proof/Machine/Firmware.lean ====
section
/-! DEFINITION. Firmware update in service and rescue (R454 to R457, R466, R516, R517). -/

namespace Sys2Proof.Machine

/-! ### The update -/

/-- Details of R455. -/
def fwLedgerWrite : Nat := 0x0502
def fwBusy : Nat := 0x0503

/-- The layout of `FW_UPDATE`. -/
def fwForm (d : Desc) : Form :=
  { entries := 1, arg := 3, named := [(16, 16)], align := bit d.arg 0 || d.get 16 8 < 2 ^ 60 }

/-- Chunks of a section (R456). -/
def sectionChunks (img : List Byte) (k : Nat) : Nat := ceilDiv (mLength img k) 256

/-- The bytes of chunk `i` of a section as they are sent (R456). -/
def sentChunk (img : List Byte) (k i : Nat) : List Byte := sliceB (mSection img k) (256 * i) 256

/-- The section that a unit holds once it has every chunk: the bytes that it stored (R456). -/
def FwUnit.held (x : FwUnit) (img : List Byte) (k : Nat) : List Byte :=
  if x.altered.isEmpty then mSection img k
  else ((List.range (sectionChunks img k)).flatMap fun i => ((x.altered.find? (·.1 == i)).map (·.2)).getD (sentChunk img k i)).take
    (mLength img k)

/-- A unit that holds every chunk of its section (R456): the section is ready when its signature verifies, and is discarded
and counted as wholly missing when not. -/
def State.checkSection (img : List Byte) (s : State) (u : Nat) : State :=
  let k := unitKind u
  let x := s.unit u
  if x.chunks.length < sectionChunks img k then s
  else if bytesOk img k (x.held img k) then s.updUnit u fun x => { x with staged := some (mDigest img k), altered := [] }
  else s.updUnit u fun x => { x with chunks := [], altered := [] }

/-- A chunk stored, and its bit set; one that comes again is stored again (R456). -/
def FwUnit.store (x : FwUnit) (i : Nat) (sent : List Byte) (data : Option (List Byte)) : FwUnit :=
  { x with
    chunks := if x.chunks.contains i then x.chunks else x.chunks ++ [i]
    altered := match data with
      | none => Tab.erase i x.altered
      | some bs => if bs = sent then Tab.erase i x.altered else Tab.put [] i bs x.altered }

/-- Whether a unit already runs the section of an image (R456). -/
def State.unitCurrent (s : State) (img : List Byte) (u : Nat) : Bool := s.unitDigest u == mDigest img (unitKind u)

/-- Distribution begins (R455 step 4): what had been staged before is dropped. -/
def State.beginStaging (d : Desc) (img : List Byte) (s : State) : State :=
  let s1 := { s with
    ledger := { s.ledger with image := img }
    fw := { s.fw with update := some (d.tag, img, bit d.arg 1, 0), activating := false } }
  let us := List.range unitTotal
  let s2 := us.foldl (fun s u => s.updUnit u fun x => { x with staged := none, chunks := [], altered := [], failed := false }) s1
  ((us.filter fun u => !s2.unitCurrent img u).foldl (State.checkSection img) s2).holdDesc d.tag

/-- The steps of R455 on an image that has been read. -/
def State.updateFirmware (d : Desc) (img : List Byte) (ok : Bool) (s : State) : State :=
  match s.fuses.imageFaultOf img with
  | some e => s.complete d stNotPermitted e 0
  | none => if ok then s.beginStaging d img else s.complete d stPoisoned fwLedgerWrite 0

/-- Whether another `FW_UPDATE` awaits its image from another module. -/
def State.fetchesFirmware (s : State) (tag : Nat) : Bool :=
  s.host.descs.any fun d => d.opcode == 0x70 && d.tag != tag &&
    (s.mem.copies.any (·.owner == .image d.tag) || s.mem.images.any (·.1 == d.tag))

/-- `FW_UPDATE` (R455, R466, R469): `ok` says that the ledger write read back well. -/
def execFwUpdate (d : Nat) (img : Dma) (ok : Bool) (s : State) (dead : Option Nat := none) : Out3 :=
  s.runDesc 0x70 d fwForm fun d s =>
    let n := d.get 24 8
    if s.fuses.lcState = 0 || s.fuses.lcState = 5 then s.complete d stNotPermitted lifecycleForbids 0
    else if s.fw.update.isSome || s.fetchesFirmware d.tag then s.complete d stNotPermitted fwBusy 0
    else if bit d.arg 0 then
      match img with
      | .failed e _ => (s.noteAer e).complete d stPoisoned hostReadFailed 0
      | .data b => if b.length = n then s.updateFirmware d b ok else s
    else
      let r := s.readImage d.tag (d.get 16 8) n dead
      match r.1 with
      | none => r.2.holdDesc d.tag
      | some b => if b.2 = stOk then r.2.updateFirmware d b.1 ok else r.2.complete d b.2 0 0

/-- Units whose section of the update is neither running nor ready. -/
def State.missingUnits (s : State) (img : List Byte) : List Nat :=
  (List.range unitTotal).filter fun u => !s.unitCurrent img u && (s.unit u).staged.isNone

/-- `FW_CHUNK` (R456): a chunk whose tag is that of the image is stored; `data` are its bytes where they came otherwise than they
were sent. -/
def execFwChunk (unit_ seq tag : Nat) (s : State) (data : Option (List Byte) := none) : Out3 :=
  onUnit (unit_ < unitTotal)
    (match s.fw.update with
     | none => s
     | some (_, img, _, _) =>
       let x := s.unit unit_
       if tag ≠ field (imageDigest img) 0 4 || sectionChunks img (unitKind unit_) ≤ seq || x.staged.isSome || 
           s.unitCurrent img unit_ || s.fw.activating then s
       else (s.updUnit unit_ fun x => x.store seq (sentChunk img (unitKind unit_) seq) data).checkSection img unit_)

/-- Distribution ends (R455 steps 4 and 5, R456): units that are incomplete keep their firmware. -/
def State.endStaging (tag : Nat) (img : List Byte) (activate : Bool) (s : State) : State :=
  let bad := s.missingUnits img
  let s1 := bad.foldl (fun s u =>
    (s.updUnit u fun x => { x with failed := true, chunks := [], altered := [] }).raise 0x1804 (mBuild img) (unitKind u) (unitIndex u)) s
  let s2 := s1.raise 0x1801 (mBuild img) 0 0
  if activate then State.settleActivation { s2 with fw := { s2.fw with activating := true } }
  else ({ s2 with fw := { s2.fw with update := none } }).completeTag tag stOk 0 0

/-- `FW_REPAIR_ROUND` (R455, R456): the bitmaps are collected; missing chunks are sent again, in four rounds at most. -/
def execFwRepairRound (s : State) : Out3 :=
  .next (match s.fw.update with
    | none => s
    | some (tag, img, act, n) =>
      if s.fw.activating then s
      else if (s.missingUnits img).isEmpty || n ≥ 4 then s.endStaging tag img act
      else { s with fw := { s.fw with update := some (tag, img, act, n + 1) } })

/-- Whether the next slice of a period issues an admission batch (R197, R201): it has planned chunks, or a class-0 stream waits. -/
def State.sliceIssues (s : State) (g : Nat) (sc : Sched) : Bool :=
  !(sc.slices.getD sc.slice []).isEmpty ||
    (s.streamsOf g).any fun e => e.2.cls == 0 && (e.2.state == StreamState.pending || e.2.state == StreamState.prefill)

/-- Whether an issue is due within 1 ms: a period's start, or a slice that issues (R454). -/
def State.issueNear (s : State) : Bool :=
  s.graphIds.any fun g => match s.graph? g with
    | none => false
    | some y =>
      let sc := y.sched
      let near (c : Nat) : Bool := cairnBefore c (s.cairn + 1000000)
      y.serving.isSome && (near sc.nextB || (sc.started && near (sc.startAt + sc.slice * 1000000) && s.sliceIssues g sc))

/-- Whether a harvest runs: a done word has come, and the harvest has not ended (R454). -/
def State.harvesting (s : State) : Bool :=
  s.graphIds.any fun g => (s.graph? g).any fun y => y.sched.batches.any (·.done)

/-- Whether a unit stands at its activation point (R454). A bound tile's controller waits for its Burgee, and the Ensign is the
last. -/
def State.atActivation (s : State) (u : Nat) : Bool :=
  match unitKind u with
  | 0 => match (s.tile u).use with
    | .bound _ _ => false
    | .shadow _ => false
    | .stress _ _ _ => false
    | _ => true
  | 5 => !s.issueNear && !s.harvesting
  | 7 => s.stagedUnits.all fun v => v == u || s.waitsBurgee v
  | _ => true

/-- `FW_UNIT_ACTIVATE` (R454, R455, R474): the tracker's activation takes 200 µs. -/
def execFwUnitActivate (unit_ : Nat) (s : State) : Out3 :=
  onUnit (unit_ < unitTotal)
    (if !s.fw.activating || (s.unit unit_).staged.isNone || !s.atActivation unit_ then s
     else
       let s1 := if unitKind unit_ = 5 then s.advanceTo (s.cairn + 200000) else s
       s1.activateUnit unit_)

/-! ### Rescue -/

/-- Bytes of a block of a rescue. -/
def blockBytes : Nat := 4096

/-- A block programmed into the ledger (R457, R517). -/
def State.programBlock (i : Nat) (data : List Byte) (s : State) : State :=
  { s with fw := { s.fw with rescueBlocks := Tab.put [] i data s.fw.rescueBlocks } }

/-- The image of a rescue, cut to its stated size; none while a block is missing (R457). -/
def State.rescueImage (s : State) (n : Nat) : Option (List Byte) :=
  if (List.range n).all fun i => (Tab.get [] s.fw.rescueBlocks i).length == blockBytes then
    let all := (List.range n).flatMap fun i => Tab.get [] s.fw.rescueBlocks i
    some (all.take (mSize all))
  else none

/-- `COMMIT` (R457, R466, R517): 1 accepted, with a cold start; 2 signature failed; 3 flash write failed. -/
def State.commitRescue (n : Nat) (ok : Bool) (s : State) : State × Nat :=
  let free (r : Nat) : State := { s with fw := { s.fw with rescueResult := r, rescueOwner := 0 } }
  match s.rescueImage n with
  | none => (free 2, 2)
  | some img =>
    if (s.fuses.imageFaultOf img).isSome then (free 2, 2)
    else if !ok then (free 3, 3)
    else (State.coldStart { s with ledger := { s.ledger with image := img } }, 1)

end Sys2Proof.Machine
end

