-- ==== Sys2Proof/Machine/Security.lean ====
section
/-! DEFINITION. Life-cycle tokens, the device key and the attestation report (R463, R464, R469 to R475). -/

namespace Sys2Proof.Machine

/-! ### The device key -/

/-- The key is derived: not in BLANK and DECOMMISSIONED (R464, R469). -/
def Fuses.keyed (f : Fuses) : Bool := f.lcState != 0 && f.lcState != 5

/-- The seed of the device key (R464). -/
def deviceSeed : List Byte := (sha512 (ascii "NYMPEX-XA48-DEVICE-KEY" ++ toLe 32 Config.deviceSecret.toNat)).take 32

/-- `DEVICE_PUB` and `DEVICE_ID` (R464, R481): zero where the key is not derived. -/
def Fuses.devicePub (f : Fuses) : List Byte := if f.keyed then edPublic deviceSeed else List.replicate 32 0
def Fuses.deviceId (f : Fuses) : List Byte := if f.keyed then (sha512 (edPublic deviceSeed)).take 16 else List.replicate 16 0

/-- Details of R472. -/
def lcTokenSignature : Nat := 0x0701
def lcWrongDevice : Nat := 0x0702
def lcStale : Nat := 0x0703
def lcTransition : Nat := 0x0704
def lcGraphsBound : Nat := 0x0705
def lcFuseFailed : Nat := 0x0706
def lcServiceExhausted : Nat := 0x0707
def revokeActiveSlot : Nat := 0x0708

/-! ### Tokens -/

/-- Fields of a token (R470). -/
def tKind (b : List Byte) : Nat := field b 4 1
def tFrom (b : List Byte) : Nat := field b 5 1
def tTo (b : List Byte) : Nat := field b 6 1
def tSlot (b : List Byte) : Nat := field b 7 1
def tService (b : List Byte) : Nat := field b 24 4
def tRevoke (b : List Byte) : Nat := field b 28 1

/-- The first check of R472. -/
def Fuses.tokenGenuine (f : Fuses) (b : List Byte) : Bool :=
  field b 0 4 == 0x4E4B544C && (tKind b == 1 || tKind b == 2) && field b 29 3 == 0 && (tKind b == 2 || tRevoke b == 0) &&
    tSlot b < 4 && sha512 (sliceB b 32 32) == f.keySlot (4 + tSlot b) && !bit f.lcRevoked (tSlot b) &&
    signedOk (sliceB b 32 32) (b.take 64) (sliceB b 64 64)

/-- The transitions of R471; a revocation keeps the state. -/
def transitionOk (kind from_ to_ : Nat) : Bool :=
  if kind = 2 then from_ == to_
  else [(0, 1), (1, 2), (2, 3), (3, 4), (4, 3)].contains (from_, to_) || (to_ == 5 && 1 ≤ from_ && from_ ≤ 4)

/-- Moves that need every graph unbound (R471). -/
def needsNoGraph (kind from_ to_ : Nat) : Bool := kind == 1 && ((from_ == 1 && to_ == 2) || to_ == 5)

/-- The state that the fuses as they are blown stand for (R332, R468, R472). -/
def Fuses.newState (f : Fuses) : Nat := if f.blown then 5 else f.lcState

/-- The detail of the first check of R472 that fails. DEDUCED (log entry 83): a token that has taken effect fails `LC_STALE`, a revocation
too, which leaves the state and the count as they were. -/
def State.tokenFault (s : State) (b : List Byte) : Option Nat :=
  let f := s.fuses
  let checks : List (Nat × Bool) :=
    [(lcTokenSignature, f.tokenGenuine b),
     (lcWrongDevice, sliceB b 8 16 == f.deviceId),
     (lcStale, tFrom b == f.newState && tService b == f.service && !f.used.contains b),
     (lcTransition, transitionOk (tKind b) (tFrom b) (tTo b)),
     (lcGraphsBound, !needsNoGraph (tKind b) (tFrom b) (tTo b) || s.graphIds.isEmpty),
     (lcServiceExhausted, !(tKind b == 1 && tFrom b == 3 && tTo b == 4) || f.service ≤ 62),
     (revokeActiveSlot, !(tKind b == 2 && bit (tRevoke b) s.imageSlot)),
     (fwBusy, s.fw.update.isNone)]
  (checks.find? fun c => !c.2).map (·.1)

/-- The fuses after a transition (R468). -/
def Fuses.moved (f : Fuses) (to_ : Nat) : Fuses :=
  if to_ = 5 then { f with blown := true }
  else if f.lcState ≥ 3 then { f with service := f.service + 1 }
  else { f with level := f.level + 1 }

/-- The fuses after a revocation (R470). -/
def Fuses.revoked (f : Fuses) (mask : Nat) : Fuses :=
  { f with fwRevoked := f.fwRevoked ||| mask % 16, lcRevoked := f.lcRevoked ||| mask / 16 % 16 }

/-- Entering DECOMMISSIONED (R473): the ledger keeps the image, the defect list and the result log. -/
def State.eraseLedger (s : State) : State :=
  { s with ledger := { Ledger.reset with
      image := s.ledger.image, defects := s.ledger.defects, defectsGood := s.ledger.defectsGood, results := s.ledger.results } }

/-- An unlocked session of the monitor ends (R512). -/
def State.lockSession (s : State) : State := { s with monitor := { s.monitor with unlocked := false } }

/-- The fuses programmed for a token; `mask` holds the triples that read back as blown: bit 0 for a transition, the slots for a
revocation. -/
def State.programFuses (b : List Byte) (mask : Nat) (s : State) : State :=
  if tKind b = 2 then { s with fuses := s.fuses.revoked (tRevoke b &&& mask) }
  else if bit mask 0 then
    let s1 := { s with fuses := s.fuses.moved (tTo b) }
    (if tTo b = 5 then s1.eraseLedger else s1).lockSession
  else s

/-- A token acted on (R472): `ok` says that every triple read back well; otherwise those that did are open. -/
def State.takeToken (d : Desc) (b : List Byte) (ok : Bool) (s : State) : State :=
  match s.tokenFault b with
  | some e => s.complete d stNotPermitted e 0
  | none =>
    if ok then
      let s0 := s.programFuses b 0xFF
      let s1 := { s0 with fuses := { s0.fuses with used := s0.fuses.used ++ [b] } }
      s1.complete d stOk 0 s1.fuses.newState
    else (s.draw.programFuses b (Config.freeWord s.draws).toNat).complete d stPoisoned lcFuseFailed 0

/-- `LIFECYCLE` (R470 to R473). -/
def execLifecycle (d : Nat) (tok : Dma) (ok : Bool) (s : State) : Out3 :=
  s.runDesc 0x71 d (fun d => ⟨1, 0, [(16, 16)], d.get 24 8 == 128⟩) fun d s =>
    match tok with
    | .failed e _ => (s.noteAer e).complete d stPoisoned hostReadFailed 0
    | .data b => if b.length = 128 then s.takeToken d b ok else s

/-! ### The report -/

/-- `mode` of a graph (R390, R475). -/
def GraphMode.code : GraphMode → Nat
  | .native => 0 | .degraded => 1 | .compat => 2

/-- A graph's entry (R475): the image whose Burgee tokens were placed last, or the bound one. -/
def graphEntry (g : Nat) (y : Graph) : List Byte :=
  let passing := match y.change with
    | none => false
    | some c => c.placed
  let im := match y.change with
    | none => y.image
    | some c => if c.placed then c.image else y.image
  let gen := if passing then y.nextGen else y.generation
  toLe 1 g ++ toLe 1 y.mode.code ++ toLe 2 (b2n passing) ++ toLe 2 gen ++ List.replicate 2 0 ++ toLe 8 im.uid ++ im.digest

/-- The report's bytes before its signature (R475). -/
def State.reportBody (nonce : List Byte) (s : State) : List Byte :=
  let gs := s.graphIds
  let img := s.manifest
  let pend := (List.range 8).map s.mixedUnits
  let flags := b2n (pend.any (· != 0)) + 2 * b2n (s.devState == .degraded) + 4 * b2n (s.fabric.lock == .locked)
  toLe 4 0x54415458 ++ toLe 2 1 ++ toLe 2 (832 + 80 * gs.length + 64) ++ nonce ++ s.fuses.deviceId ++ toLe 8 s.cairn ++
    s.fuses.devicePub ++ toLe 1 s.fuses.lcState ++ toLe 1 s.imageSlot ++ toLe 1 gs.length ++ toLe 1 flags ++
    toLe 4 s.securityVersion ++ toLe 4 s.fuses.rollback ++ toLe 2 s.usableTiles ++ toLe 2 s.fuses.service ++
    toLe 4 s.recoveries ++ List.replicate 12 (0 : Byte) ++ sliceB Config.romDigest 0 64 ++ imageDigest img ++
    (List.range 8).flatMap (mDigest img) ++ pend.flatMap (toLe 2) ++ List.replicate 48 (0 : Byte) ++
    (gs.flatMap fun g => ((s.graph? g).map (graphEntry g)).getD [])

/-- The report, signed by the device key (R462, R475). -/
def State.report (nonce : List Byte) (s : State) : List Byte :=
  let b := s.reportBody nonce
  b ++ edSign deviceSeed (sha512 b)

/-- `ATTEST` (R469, R475). -/
def execAttest (d : Nat) (s : State) : Out3 :=
  s.runDesc 0x72 d (fun d => ⟨1, 0, [(16, 44)], d.get 48 8 % 64 == 0 && 1536 ≤ d.get 56 4⟩) fun d s =>
    if !s.fuses.keyed then s.complete d stNotPermitted lifecycleForbids 0
    else
      let r := s.report (sliceB d.bytes 16 32)
      (s.hostWrite (d.get 48 8) r).complete d stOk 0 r.length

end Sys2Proof.Machine
end

