-- ==== Sys2Proof/Machine/Monitor.lean ====
section
/-! DEFINITION. The serial monitor: its two programs, its commands, sessions, on-demand tests and the rescue over the UART
(R434, R438, R507 to R517). -/

namespace Sys2Proof.Machine

/-! ### Lines -/

/-- The program that serves the UART: `some true` the boot ROM, `some false` the firmware, which discards input in stages 4 to 8
of a recovery (R508). -/
def State.program (s : State) : Option Bool :=
  if !s.hotSwap.switchOn then none
  else match s.seq with
    | .rescue => some true
    | .recovery st _ _ _ => if s.fw.running && !(4 ≤ st && st ≤ 8) then some false else none
    | _ => if s.fw.running then some false else none

/-- What a command answers: lines, the code of its final line (0 `OK`), the state, and whether the prompt follows (R510). -/
structure Reply where
  lines : List Line
  code : Nat
  next : State
  prompt : Bool

/-- A command that fails changes nothing (R510). -/
def State.err (s : State) (code : Nat) : Reply := ⟨[], code, s, true⟩

/-- A command that succeeds. -/
def State.done (s : State) (lines : List Line) : Reply := ⟨lines, 0, s, true⟩

/-- The output of a command (R510). -/
def State.reply (rom : Bool) (r : Reply) : State :=
  r.next.print (r.lines ++ [if r.code = 0 then Line.ok else .err r.code] ++ if r.prompt then [.prompt rom] else [])

/-- A line that is a command: `serves` says which programs know it, and `busyOk` whether it runs beside a `TEST` (R510, R514). -/
def State.command (serves : Bool → Bool) (busyOk : Bool) (act : State → Reply) (s : State) : State :=
  match s.program with
  | none => s
  | some rom =>
    let s1 := { s with monitor := { s.monitor with lastLine := s.cairn } }
    if !serves rom then State.reply rom (s1.err 2)
    else if s1.monitor.testing.isSome && !busyOk then State.reply rom (s1.err 6)
    else State.reply rom (act s1)

/-- Commands of both programs, of the firmware, and of the boot ROM. -/
def both (_ : Bool) : Bool := true
def firmwareOnly (rom : Bool) : Bool := !rom
def romOnly (rom : Bool) : Bool := rom

/-- The checks of a gated command: the state first, then the session (R513). -/
def State.gated (s : State) (states : List Nat) (act : State → Reply) : Reply :=
  if !states.contains s.fuses.lcState then s.err 4 else if !s.monitor.unlocked then s.err 3 else act s

/-- A byte string as it is printed. -/
def byteVals (bs : List Byte) : List Nat := bs.map (·.toNat)

/-! ### Information -/

/-- Commands that are permitted now (R513). -/
def State.permitted (s : State) (rom : Bool) : List String :=
  let lc := s.fuses.lcState
  let keyed := s.fuses.keyed
  let busy := s.monitor.testing.isSome
  let open_ := s.monitor.unlocked && !rom && !busy
  let all : List (String × Bool) :=
    [("HELP", !busy), ("INFO", !busy), ("STATE", !rom), ("BAUD", !busy), ("LOG", true), ("DEFECTS", !rom && !busy),
     ("RESULT", !rom && !busy), ("CHALLENGE", keyed && !busy), ("UNLOCK", keyed && !busy), ("LOCK", !busy),
     ("TEST", open_ && (lc == 1 || lc == 4)), ("DEFECT CLEAR", open_ && (lc == 1 || lc == 4)),
     ("RESULT ERASE", open_ && lc == 1), ("FUSE", open_ && lc == 1), ("RESCUE", rom),
     ("BLOCK", rom && s.fw.rescueOpen.isSome), ("COMMIT", rom && s.fw.rescueOpen.isSome)]
  (all.filter (·.2)).map (·.1)

/-- `HELP` (R513). -/
def execHelp (s : State) : Out3 :=
  .next (s.command both false fun s => s.done ((s.permitted (s.seq == .rescue)).map fun c => .value ("cmd " ++ c) []))

/-- `INFO` (R513). -/
def execInfo (s : State) : Out3 :=
  .next (s.command both false fun s => s.done
    [.value "serial" [Config.serial], .value "device_id" (byteVals s.fuses.deviceId), .value "build_id" [mBuild s.manifest],
     .value "secver" [s.securityVersion], .value "stepping" [Config.stepping], .value "lc_state" [s.fuses.lcState]])

/-- `STATE` (R513). -/
def execState (s : State) : Out3 :=
  .next (s.command firmwareOnly true fun s => s.done
    [.value "dev_state" [s.devState.code], .value "usable_tiles" [s.usableTiles], .value "set_mhz" [s.power.setMhz],
     .value "input_w" [s.power.inputW], .value "compute_c" [s.power.computeTemp],
     .value "time_locked" [b2n (s.fabric.lock == .locked)], .value "recoveries" [s.recoveries]])

/-- The rates of R507. -/
def baudRates : List Nat := [115200, 230400, 460800, 921600, 1000000, 2000000, 3000000]

/-- `BAUD` (R507). -/
def execBaud (rate : Nat) (s : State) : Out3 :=
  .next (s.command both false fun s =>
    if baudRates.contains rate then State.done { s with monitor := { s.monitor with baud := rate } } [] else s.err 5)

/-- A record of the event log as it is printed (R513). -/
def eventLine (e : Nat × Event) : Line := .value "event" [e.1, e.2.code, e.2.a, e.2.b, e.2.c]

/-- `LOG` (R513): the newest records, newest last. -/
def execLog (n : Nat) (s : State) : Out3 :=
  .next (s.command both true fun s =>
    if n = 0 || 256 < n then s.err 5 else s.done ((s.ledger.events.drop (s.ledger.events.length - n)).map eventLine))

/-- A defect entry as it is printed (R513). -/
def defectLine (i : Nat) (d : Defect) : Line := .value "defect" [i, d.kind, d.id, d.source, d.cause, d.hours, d.startCount]

/-- `DEFECTS` (R513). -/
def execDefects (s : State) : Out3 :=
  .next (s.command firmwareOnly false fun s => s.done (s.ledger.defects.zipIdx.map fun d => defectLine d.2 d.1))

/-- `RESULT` (R442, R513): index 0 is the newest record. -/
def execResult (idx n : Nat) (s : State) : Out3 :=
  .next (s.command firmwareOnly false fun s =>
    if s.ledger.results.length ≤ idx || n = 0 then s.err 5
    else s.done (((s.ledger.results.reverse.drop idx).take n).map (·.line)))

/-- `UNKNOWN_COMMAND` (R509, R510). -/
def execUnknownCommand (why : BadLine) (s : State) : Out3 :=
  .next (match s.program with
    | none => s
    | some rom =>
      let s1 := { s with monitor := { s.monitor with lastLine := s.cairn } }
      State.reply rom (s1.err (match why with | .unknown => 2 | _ => 1)))

/-- `UART_BREAK` (R508, R512): the rate goes back, an unlocked session ends, and the prompt is sent again. -/
def execUartBreak (s : State) : Out3 :=
  .next (if !s.hotSwap.switchOn then s
    else
      let s1 := { s with monitor := { s.monitor with baud := 115200, unlocked := false } }
      match s1.program with
      | none => s1
      | some rom => s1.print [.prompt rom])

/-! ### Sessions -/

/-- `CHALLENGE` is held back after three failures (R511). -/
def State.lockedOut (s : State) : Bool :=
  match s.monitor.lockout with
  | none => false
  | some t => !s.cairnOn || cairnBefore s.cairn t

/-- `CHALLENGE` (R511): a new nonce invalidates the earlier one. -/
def execChallenge (s : State) : Out3 :=
  .next (s.command both false fun s =>
    if !s.fuses.keyed then s.err 4
    else if s.lockedOut then s.err 6
    else
      let n := s.monitor.nonces
      State.done { s with monitor := { s.monitor with nonce := some n, nonces := n + 1, lockout := none } }
        [.value "nonce" (byteVals (sliceB (Config.nonce n) 0 32)), .value "device_id" (byteVals s.fuses.deviceId)])

/-- The bytes that an unlock signs (R511). -/
def State.unlockBytes (s : State) (nonce slot : Nat) : List Byte :=
  ascii "NYMPEX-XA48-MONITOR" ++ sliceB (Config.nonce nonce) 0 32 ++ s.fuses.deviceId ++ toLe 1 slot

/-- Whether an unlock succeeds (R511). -/
def State.unlocks (s : State) (slot : Nat) (pub sig : List Byte) : Bool :=
  match s.monitor.nonce with
  | none => false
  | some n =>
    sha512 pub == s.fuses.keySlot (4 + slot) && !bit s.fuses.lcRevoked slot && signedOk pub (s.unlockBytes n slot) sig

/-- A failed attempt (R511). -/
def State.unlockFailed (s : State) : State :=
  let n := s.monitor.failures + 1
  { s with monitor := { s.monitor with
      nonce := none, failures := if n ≥ 3 then 0 else n
      lockout := if n ≥ 3 then some (s.cairn + 60000000000) else s.monitor.lockout } }

/-- `UNLOCK` (R511): each nonce serves one attempt. -/
def execUnlock (slot : Nat) (pub sig : List Byte) (s : State) : Out3 :=
  .next (s.command both false fun s =>
    if pub.length ≠ 32 || sig.length ≠ 64 then s.err 1
    else if !s.fuses.keyed then s.err 4
    else if 4 ≤ slot then s.err 5
    else if s.unlocks slot pub sig then
      State.done { s with monitor := { s.monitor with unlocked := true, nonce := none, failures := 0 } } []
    else s.unlockFailed.err 7)

/-- `UNLOCK_LOCKOUT_EXPIRY` (R511): 60 s after the third failure. -/
def execUnlockLockoutExpiry (s : State) : Out3 :=
  .next (match s.monitor.lockout with
    | none => s
    | some t =>
      let s1 := if s.cairnOn then s.advanceTo t else s
      { s1 with monitor := { s1.monitor with lockout := none } })

/-- `LOCK` (R512). -/
def execLock (s : State) : Out3 := .next (s.command both false fun s => s.lockSession.done [])

/-- `SESSION_TIMEOUT` (R512): 15 min without a line. -/
def execSessionTimeout (s : State) : Out3 :=
  .next (if !s.monitor.unlocked then s
    else (if s.cairnOn then s.advanceTo (s.monitor.lastLine + 900000000000) else s).lockSession)

/-! ### Tests, defects, fuses -/

/-- Whether the units of a slice are free (R438): as a stress session would take tiles, with no graph and no fence on the parts of
a stack or a die. -/
def State.sliceFree (s : State) (k u : Nat) : Bool :=
  let free (t : Nat) : Bool := s.usable t && match (s.tile t).use with
    | .free => true
    | .stress _ _ _ => true
    | _ => false
  if k ≤ 3 then (List.range 16).all fun i => free (u * 16 + i)
  else if k = 4 then
    s.graphIds.isEmpty && (List.range 8).all fun i => let x := s.slice (u * 8 + i); x.state == .good && x.part != 3
  else
    (dieLinks u).all (fun l => (s.score .link l).2 != 3) && (List.range 160).all fun i => (s.owner (u * 160 + i)).isNone

/-- A slice begins: its tiles leave the stress test, with their domains asked on (R380, R407, R438). -/
def State.beginSlice (k u : Nat) (s : State) : State :=
  let s1 := if 3 < k then s
    else (List.range 16).foldl (fun s i =>
      ((s.withdraw (u * 16 + i)).updTile (u * 16 + i) fun x => { x with use := .onDemand }).turnTileOn (u * 16 + i)) s
  { s1 with monitor := { s1.monitor with testing := some (k, u), lastLine := s.cairn } }

/-- Codes that `TEST` answers without a slice (R510, R513). -/
def State.testFault (s : State) (kind unit_ : Nat) : Option Nat :=
  if s.fuses.lcState != 1 && s.fuses.lcState != 4 then some 4
  else if !s.monitor.unlocked then some 3
  else if kind = 0 || 5 < kind || sliceUnits kind ≤ unit_ then some 5
  else if s.monitor.testing.isSome || s.shutdown.busy || !s.inService then some 6
  else none

/-- `TEST` (R438, R514): its answer waits for the slice; a slice whose units are not all free is recorded with outcome 3. -/
def execTest (kind unit_ : Nat) (s : State) : Out3 :=
  .next (match s.program with
    | none => s
    | some rom =>
      let s1 := { s with monitor := { s.monitor with lastLine := s.cairn } }
      if rom then State.reply rom (s1.err 2)
      else match s1.testFault kind unit_ with
        | some c => State.reply rom (s1.err c)
        | none =>
          if s1.sliceFree kind unit_ then s1.beginSlice kind unit_
          else
            let x := s1.sliceResult kind unit_ 3 2 ⟨0, [], 0⟩
            State.reply rom ((s1.addResult x).done [x.line]))

/-- `ON_DEMAND_SLICE_DONE` (R438, R442, R514). -/
def execOnDemandSliceDone (r : SliceReport) (preempted : Bool) (s : State) : Out3 :=
  onUnit (r.coverage ≤ 1000 && r.durationMs < 2 ^ 32)
    (if s.monitor.testing.isNone || s.program != some false then s
     else ((s.advanceTo (s.cairn + r.durationMs * 1000000)).endSlice preempted r).retryAll)

/-- The slices that cover a part of a clearable kind (R440, R515). -/
def coversPart (k u : Nat) (p : Nat × Nat) : Bool :=
  if p.1 = 3 then k == 5 && u == p.2 / 10 else (sliceParts k u).contains p

/-- Whether an entry may be cleared (R434, R515). -/
def State.clearable (s : State) (d : Defect) : Bool :=
  [1, 2, 3, 4, 6].contains d.kind && d.source != 0 &&
    s.ledger.results.any fun x =>
      x.source == 2 && d.hours < x.hours && x.outcome == 0 && x.coverage == 1000 && coversPart x.slice x.unit_ (d.kind, d.id)

/-- A part stays out of use until the next cold start although its entry is gone (R515). -/
def State.keepOut (d : Defect) (s : State) : State :=
  let fence (s : State) (t : Nat) : State := s.updTile t fun x => { x with fenced := true }
  match d.kind with
  | 1 => fence s d.id
  | 2 => fence s d.id
  | 3 => (List.range 16).foldl (fun s i => fence s (d.id * 16 + i)) s
  | _ => s

/-- `DEFECT_CLEAR` (R434, R515). -/
def execDefectClear (idx : Nat) (s : State) : Out3 :=
  .next (s.command firmwareOnly false fun s => s.gated [1, 4] fun s =>
    match s.ledger.defects[idx]? with
    | none => s.err 5
    | some d =>
      if s.clearable d then
        let s1 := s.keepOut d
        State.done { s1 with ledger := { s1.ledger with defects := s1.ledger.defects.eraseIdx idx } } [defectLine idx d]
      else s.err 5)

/-- `RESULT_ERASE` (R437, R513). -/
def execResultErase (s : State) : Out3 :=
  .next (s.command firmwareOnly false fun s => s.gated [1] fun s =>
    State.done { s with ledger := { s.ledger with results := [] } } [.value "erased" [s.ledger.results.length]])

/-- Units of a fuse-map kind (R371, R433). -/
def fuseUnits (k : Nat) : Nat :=
  match k with
  | 1 => 320 | 2 => 320 | 3 => 20 | 4 => 456 | 5 => 64 | 6 => 2560 | _ => 0

/-- `FUSE` (R437, R515): `ok` says that the entry read back. A tile that stops being usable counts at once (R16, R17). -/
def execFuse (kind id : Nat) (ok : Bool) (s : State) : Out3 :=
  .next (s.command firmwareOnly false fun s => s.gated [1] fun s =>
    if fuseUnits kind ≤ id then s.err 5
    else if !ok then s.err 9
    else
      let bad := if s.fuses.bad.contains (kind, id) then s.fuses.bad else s.fuses.bad ++ [(kind, id)]
      State.done ({ s with fuses := { s.fuses with bad := bad } } : State).checkDegraded [.value "fuse" [kind, id]])

/-! ### Rescue -/

/-- `RESCUE` (R516). -/
def execRescue (blocks : Nat) (s : State) : Out3 :=
  .next (s.command romOnly false fun s =>
    if blocks = 0 || 4096 < blocks then s.err 5
    else if s.fw.rescueOwner = 1 then s.err 6
    else State.done { s with fw := { s.fw with rescueOpen := some blocks } } [])

/-- A block received (R516, R517). -/
def State.takeBlock (idx crc : Nat) (data : List Byte) (ok : Bool) (s : State) : Reply :=
  match s.fw.rescueOpen with
  | none => s.err 4
  | some n =>
    if s.fw.rescueOwner = 1 then s.err 6
    else if n ≤ idx then s.err 5
    else if crc32c data ≠ crc then s.err 8
    else if !ok then (s.programBlock idx []).err 9
    else
      let s1 := s.programBlock idx data
      State.done { s1 with fw := { s1.fw with rescueBuf := data, rescueOwner := 2 } } []

/-- `BLOCK` (R517): exactly 4,096 bytes follow its line. -/
def execBlock (idx crc : Nat) (data : List Byte) (ok : Bool) (s : State) : Out3 :=
  onUnit (data.length = blockBytes) (s.command romOnly false (State.takeBlock idx crc data ok))

/-- `COMMIT` (R516, R517). -/
def execCommit (ok : Bool) (s : State) : Out3 :=
  .next (s.command romOnly false fun s =>
    match s.fw.rescueOpen with
    | none => s.err 4
    | some n =>
      let r := s.commitRescue n ok
      ⟨[.value "result" [r.2]], if r.2 = 1 then 0 else if r.2 = 2 then 7 else 9, r.1, r.2 != 1⟩)

/-- `RESCUE_OWNERSHIP_TIMEOUT` (R516): 60 s without a block. -/
def execRescueOwnershipTimeout (s : State) : Out3 :=
  .next (if s.seq == .rescue then { s with fw := { s.fw with rescueOwner := 0 } } else s)

end Sys2Proof.Machine
end

