-- ==== Sys2Proof/Machine/Streams.lean ====
section
/-! DEFINITION. The stream descriptors and the ends of streams (R175 to R192, R336, R337, R341, R342). -/

namespace Sys2Proof.Machine

/-- Details of the stream descriptors (R177, R184, R185, R336). -/
def staleHandle : Nat := 0x0201
def noStreamIndex : Nat := 0x0202
def limitTooLong : Nat := 0x0204
def streamBusy : Nat := 0x0205
def noPromptSpace : Nat := 0x0206

/-- Whether the rings that an open names are enabled (R341, R342). -/
def State.ringsOn (s : State) (hring cq : Nat) : Bool := hring < 64 && (s.hv hring).enable && (s.cq cq).enable

/-- The layout of `STREAM_OPEN` (R341). -/
def openForm (s : State) (d : Desc) : Form :=
  { entries := 1, arg := 0
    named := [(16, 48)]
    align := d.get 24 8 % 4 == 0 && s.ringsOn (d.get 18 1) (d.get 19 1) }

/-- Whether the reserved bits of `class`, `stop_id` and `oflags` are zero (R178, R341). -/
def openReserved (d : Desc) : Bool := d.get 17 1 < 4 && d.get 36 4 < 2 ^ 24 && d.get 62 2 < 2

/-- A descriptor whose named fields hold reserved bits of their own is refused as R327 orders the causes. -/
def reservedForm (f : Form) (ok : Bool) : Form := if ok then f else { f with named := [] }

/-- The tokens of a prompt. -/
def promptBytes (n : Nat) (p : Dma) : Option (List Byte) :=
  match p with
  | .failed _ _ => none
  | .data b => if b.length = 4 * n then some b else none

/-- Whether the operand of a command is a prompt of `n` tokens, or a failed read. -/
def promptFits (n : Nat) (p : Dma) : Bool :=
  match p with
  | .failed _ _ => true
  | .data b => b.length == 4 * n

/-- A descriptor whose read of a prompt failed (R312). -/
def State.promptFailed (d : Desc) (p : Dma) (s : State) : State :=
  match p with
  | .failed e _ => (s.noteAer e).complete d stPoisoned hostReadFailed 0
  | .data _ => s

/-- The record of a stream just opened (R178, R184). -/
def openRecord (s : State) (d : Desc) (y : Graph) (v : Serving) (i gen addr : Nat) (prompt : List Byte) : Stream :=
  let n := d.get 20 4
  { Stream.free with
    handle := i + gen * 2 ^ 21, state := .pending, cls := d.get 17 1, graph := d.get 16 1, hring := d.get 18 1,
    limit := d.get 32 4, promptEnd := n, lastToken := field prompt (4 * (n - 1)) 4 % 2 ^ 24
    deadline := y.sched.startDeadline (d.get 17 1) s.cairn, kvList := v.listBase + i * v.maxPages * 8, waitSince := s.cairn
    cq := d.get 19 1, notifyEach := bit (d.get 62 2) 0, firstPeriod := true, promptAddr := addr, userTag := d.get 40 8
    temperature := d.get 48 4, topP := d.get 52 4, seed := d.get 56 4, topK := d.get 60 2, stopId := d.get 36 4
    submitCairn := s.cairn, wroteAt := s.cairn }

/-- A stream opened on the index at the head of the free list (R176, R184). -/
def State.openStream (d : Desc) (y : Graph) (v : Serving) (prompt : List Byte) (s : State) : State :=
  match s.takeIndex with
  | none => s.complete d stNotPermitted noStreamIndex 0
  | some (i, s1) => match s1.takeRun (d.get 16 1) i v prompt with
    | none => s.complete d stNotPermitted noPromptSpace 0
    | some (s2, addr) =>
      let gen := nextGen (Tab.get 0 s2.tracker.lastGen i)
      let x := openRecord s d y v i gen addr prompt
      let s3 := { s2 with tracker := { s2.tracker with lastGen := Tab.put 0 i gen s2.tracker.lastGen } }
      (s3.putStream i x).complete d stOk 0 x.handle

/-- `STREAM_OPEN` (R184, R336, R337, R341, R342). -/
def execStreamOpen (d : Nat) (prompt : Dma) (s : State) : Out3 :=
  s.runDesc 0x20 d (fun d => reservedForm (openForm s d) (openReserved d)) fun d s =>
    let n := d.get 20 4
    let limit := d.get 32 4
    match s.servedGraph (d.get 16 1) with
    | none => s.complete d stNotPermitted noGraph 0
    | some y => match y.serving with
      | none => s.complete d stNotPermitted noGraph 0
      | some v =>
        if limit > v.maxPages * v.kvPageTokens || n = 0 || n ≥ limit then s.complete d stNotPermitted limitTooLong 0
        else if s.takeIndex.isNone then s.complete d stNotPermitted noStreamIndex 0
        else if !promptFits n prompt then s
        else match promptBytes n prompt with
          | none => s.promptFailed d prompt
          | some b => s.openStream d y v b

/-- The stream that a descriptor names at byte 16, in a graph that takes descriptors (R177, R338). -/
def State.namedStream (d : Desc) (refuse act : Nat → State → State) (s : State) : State :=
  match s.byHandle (d.get 16 4) with
  | none => refuse staleHandle s
  | some i => if (s.servedGraph (s.stream i).graph).isNone then refuse noGraph s else act i s

/-- Whether a stream may be extended (R185). -/
def State.mayExtend (s : State) (y : Graph) (i : Nat) : Bool :=
  let x := s.stream i
  (x.state == StreamState.decode && !y.inBatch i) || (x.state == StreamState.held && x.heldFrom == 3)

/-- A stream extended (R185, R336). -/
def State.extendStream (d : Desc) (i : Nat) (y : Graph) (v : Serving) (tokens : List Byte) (s : State) : State :=
  let x := s.stream i
  match (s.freeRuns x.graph i).takeRun x.graph i v (toLe 4 x.lastToken ++ tokens) with
  | none => s.complete d stNotPermitted noPromptSpace 0
  | some (s1, addr) =>
    ((s1.unplan x.graph i).putStream i
      { x with
        state := .pending, heldFrom := 0, promptEnd := x.position + 1 + d.get 20 4, promptAddr := addr
        deadline := y.sched.startDeadline x.cls s.cairn, wroteAt := s.cairn }).complete d stOk 0 0

/-- The layout of `STREAM_EXTEND`; a stream whose rings are no longer enabled is refused (R341, R342). -/
def extendForm (s : State) (d : Desc) : Form :=
  { entries := 1, arg := 0, named := [(16, 16)]
    align := d.get 20 4 != 0 && d.get 24 8 % 4 == 0 &&
      (match s.byHandle (d.get 16 4) with
        | none => true
        | some i => s.ringsOn (s.stream i).hring (s.stream i).cq) }

/-- `STREAM_EXTEND` (R185, R336, R337). -/
def execStreamExtend (d : Nat) (prompt : Dma) (s : State) : Out3 :=
  s.runDesc 0x21 d (extendForm s) fun d s =>
    s.namedStream d (fun e s => s.complete d stNotPermitted e 0) (fun i s =>
      let x := s.stream i
      match s.graph? x.graph with
      | none => s.complete d stNotPermitted noGraph 0
      | some y => match y.serving with
        | none => s.complete d stNotPermitted noGraph 0
        | some v =>
          let n := d.get 20 4
          if !s.mayExtend y i then s.complete d stNotPermitted streamBusy 0
          else if x.position + 1 + n ≥ x.limit then s.complete d stNotPermitted limitTooLong 0
          else if !promptFits n prompt then s
          else match promptBytes n prompt with
            | none => s.promptFailed d prompt
            | some b => s.extendStream d i y v b)

/-- The layout of `STREAM_CANCEL`. -/
def cancelForm (_ : Desc) : Form := ⟨1, 0, [(16, 4)], true⟩

/-- Whether a stream has a step in flight. -/
def State.inFlightStream (s : State) (i : Nat) : Bool :=
  match s.graph? (s.stream i).graph with
  | none => false
  | some y => y.inBatch i

/-- `STREAM_CANCEL` (R186): the stream is chosen for no further batch. -/
def execStreamCancel (d : Nat) (s : State) : Out3 :=
  s.runDesc 0x22 d cancelForm fun d s =>
    s.namedStream d (fun e s => s.complete d stNotPermitted e 0) (fun i s =>
      let x := s.stream i
      if x.state == StreamState.ending then s.complete d stOk 0 0
      else
        let s1 := (s.putStream i { x with cancelReq := true }).unplan x.graph i
        (if s1.inFlightStream i then s1 else s1.endCancelled i).complete d stOk 0 0)

/-- The layout of `STREAM_QUERY`. -/
def queryForm (d : Desc) : Form := ⟨1, 0, [(16, 4), (24, 8)], d.get 24 8 % 64 == 0⟩

/-- A stream's record of 128 bytes (R178). -/
def Stream.bytes (x : Stream) : List Byte := x.critical ++ x.statistics

/-- `STREAM_QUERY` (R342). -/
def execStreamQuery (d : Nat) (s : State) : Out3 :=
  s.runDesc 0x23 d queryForm fun d s =>
    s.namedStream d (fun e s => s.complete d stNotPermitted e 0) (fun i s =>
      ((s.hostWrite (d.get 24 8) (s.stream i).bytes).useRecord i).complete d stOk 0 (s.stream i).state.code)

/-- `STREAM_FINAL_RECORD` (R186, R187, R192, R330): the record waits for a free unreserved entry, and the index for the end of
any step that may still read its pages (R210). -/
def execStreamFinalRecord (idx : Nat) (s : State) : Out3 :=
  s.onLive (idx < streamCount)
    (let x := s.stream idx
     if x.state == StreamState.ending && (s.cq x.cq).hasFree && s.dma && !s.inFlightStream idx then
       (s.writeRec x.cq (x.record x.endStatus x.endDetail)).freeStream idx
     else s)

/-- `DEADLINE_EXPIRY` (R187, R189, R211): the Cairn runs past the deadline. -/
def execDeadlineExpiry (idx : Nat) (s : State) : Out3 :=
  s.onLive (idx < streamCount)
    (let x := s.stream idx
     let s1 := if x.deadline == noDeadline then s else s.advanceTo (x.deadline + 1)
     if s1.overdue idx then s1.breakDeadline idx else s)

end Sys2Proof.Machine
end

