-- ==== Sys2Proof/Machine/Periods.lean ====
section
/-! DEFINITION. The period scheduler: selection, issue, slices, delivery and harvest (R195 to R215, R412). -/

namespace Sys2Proof.Machine

/-- A millisecond of the Cairn. -/
def ms : Nat := 1000000

/-- Whether the scheduler issues and harvests for a graph now (R158, R171, R338, R357). -/
def Graph.active (y : Graph) : Bool :=
  !y.suspended && !y.stopped && y.unloading.isNone && y.abandon.isNone && y.serving.isSome

/-- The serving parameters of a period: a change brings its own from its start period on (R333). -/
def Graph.servingFor (y : Graph) (k : Nat) : Option Serving :=
  match y.change with
  | none => y.serving
  | some c => if c.placed && c.start ≤ k then c.serving.orElse fun _ => y.serving else y.serving

/-- Units of a chunk of `n` tokens (R200). -/
def chunkUnits (v : Serving) (n : Nat) : Nat := ceilDiv (n * v.prefillCost) 256

/-- Tokens planned in a list of chunks. -/
def tokensOf (cs : List Chunk) : Nat := sumNat (cs.map (·.tokens))

/-- The work of a plan (R200). -/
def Plan.units (v : Serving) (p : Plan) : Nat := p.decode.length + chunkUnits v (tokensOf p.slices.flatten)

/-- Whether a stream's page is being moved (R234). -/
def Sched.moving (sc : Sched) (i : Nat) : Bool := sc.moves.any (·.1 == i)

/-! ### Selection -/

/-- Whether a stream may be chosen for a batch at all (R186, R234). -/
def State.choosable (s : State) (y : Graph) (i : Nat) : Bool := !(s.stream i).cancelReq && !y.sched.moving i

/-- One stream considered for the decode batch (R192, R199, R212): the row that it would write lies behind the one in
flight. -/
def State.selectDecode (g rows : Nat) (s : State) (e : Nat × Stream) : State :=
  match s.graph? g with
  | none => s
  | some y => match y.sched.plan with
    | none => s
    | some p =>
      let x := s.stream e.1
      if p.decode.length ≥ rows || x.state != StreamState.decode || !s.choosable y e.1 then s
      else
        let r := s.pagesReady g e.1 (min (1 + b2n (y.inBatch e.1)) (x.limit - x.position))
        if !r.2 then r.1
        else
          let h := r.1.reserveSlot x.hring
          if !h.2 then r.1.raise 0x1204 g x.hring 0
          else h.1.updSched g fun sc =>
            { sc with plan := sc.plan.map fun p => { p with decode := p.decode ++ [e.1] } }

/-- A chunk put into a slice of a list of slices. -/
def addChunk (j : Nat) (c : Chunk) (ss : List (List Chunk)) : List (List Chunk) :=
  ss.zipIdx.map fun e => if e.2 = j then e.1 ++ [c] else e.1

/-- One stream considered for slice `j` of the plan (R199). -/
def State.selectChunk (g j : Nat) (v : Serving) (s : State) (e : Nat × Stream) : State :=
  match s.graph? g with
  | none => s
  | some y => match y.sched.plan with
    | none => s
    | some p =>
      let x := s.stream e.1
      let n := min (min (x.promptEnd - x.position) v.chunkTokens) (v.admitTokens - tokensOf (p.slices.getD j []))
      if !(x.state == StreamState.pending || x.state == StreamState.prefill) || x.cls = 0 || !s.choosable y e.1
          || y.sched.plannedChunk e.1 || y.inBatch e.1 || n = 0 then s
      else
        let r := s.pagesReady g e.1 n
        if !r.2 then r.1
        else
          let c : Chunk := ⟨e.1, x.cls, n⟩
          let h := if r.1.chunkFinal c then r.1.reserveSlot x.hring else (r.1, true)
          if !h.2 then r.1
          else h.1.updSched g fun sc =>
            { sc with plan := sc.plan.map fun p => { p with slices := addChunk j c p.slices } }

/-- The selection for the next period (R199). -/
def State.selectPeriod (g : Nat) (s : State) : State :=
  match s.graph? g with
  | none => s
  | some y => match y.servingFor y.sched.nextK with
    | none => s
    | some v =>
      let n := y.sched.lengthNs y.sched.nextK / ms
      let s1 := s.updSched g fun sc => { sc with plan := some ⟨[], List.replicate n []⟩ }
      let xs := inPrec (s1.streamsOf g)
      let s2 := xs.foldl (State.selectDecode g v.batchRows) s1
      (List.range n).foldl (fun s j => xs.foldl (State.selectChunk g j v) s) s2

/-- `PERIOD_SELECTION` (R198, R199): at Q(k). -/
def execPeriodSelection (g : Nat) (s : State) : Out3 :=
  s.onLive (g < 8)
    (match s.graph? g with
     | none => s
     | some y =>
       let sc := y.sched
       if y.active && sc.plan.isNone then
         (s.advanceTo (if sc.started then cairnMax (sc.nextB - ms) sc.startAt else sc.nextB - ms)).selectPeriod g
       else s)

/-! ### Issue -/

/-- A row of a batch (R205). -/
def State.rowOf (s : State) (i kind count : Nat) : Row :=
  let x := s.stream i
  { idx := i, handle := x.handle, position := x.position, count := count, kind := kind, cls := x.cls, first := x.firstPeriod,
    token := if kind = 0 then x.lastToken else 0, kvList := x.kvList, kvPages := x.kvPages,
    promptAddr := if kind = 0 then 0 else x.promptAddr, temperature := x.temperature, topP := x.topP, seed := x.seed,
    topK := x.topK }

/-- The row of a chunk (R202). -/
def State.chunkRow (s : State) (c : Chunk) : Row := s.rowOf c.idx (if s.chunkFinal c then 2 else 1) c.tokens

/-- Rows in `prec` order (R205). -/
def State.sortRows (s : State) (rs : List Row) : List Row :=
  sortBy rs fun a b => precLe (a.idx, s.stream a.idx) (b.idx, s.stream b.idx)

/-- A stream whose row is issued: a first chunk meets its start deadline (R189, R202). -/
def State.issueRow (s : State) (r : Row) : State :=
  if r.kind = 0 then s.useRecord r.idx
  else
    let s1 := if s.overdue r.idx then s.breakDeadline r.idx else s
    s1.modStream r.idx fun x =>
      if x.state == StreamState.pending then { x with state := .prefill, deadline := noDeadline } else x

/-- The generation under which a batch issued now runs (R163, R204). -/
def Graph.issueGen (y : Graph) : Nat :=
  match y.change with
  | none => y.generation
  | some c => if c.placed then y.nextGen else y.generation

/-- A batch issued (R203 to R206, R362 to R364). -/
def State.issueBatch (g kind seq units : Nat) (rows : List Row) (s : State) : State :=
  match s.graph? g with
  | none => s
  | some y =>
    let b : Batch :=
      { seq := seq, kind := kind, rows := rows, pass := 1, abandons := 0, units := units, issueCairn := s.cairn,
        generation := y.issueGen
        stepId := if (y.serving.map (·.stepId)).getD false then some (Config.stepId g kind seq) else none
        resultAddr := Config.resultAddr g kind seq, doneAddr := s.doneWord g kind seq, toDeliver := y.entriesOf kind
        done := false, policy := s.regs.policy, integrity := [], toVerify := [], awaits := [] }
    let s1 := rows.foldl State.issueRow s
    (s1.updSched g fun sc =>
      { sc with
        batches := sc.batches ++ [{ b with toVerify := s.verifySet y b }], endAt := none
        issuedUnits := sc.issuedUnits + (rows.filter (·.kind == 0)).length
        issuedTokens := sc.issuedTokens + sumNat ((rows.filter (·.kind != 0)).map (·.count)) }).beginVerify g

/-- `period_end` (R208). -/
def Sched.periodEnd (v : Serving) (sc : Sched) : Sched :=
  let w := sc.issuedUnits + chunkUnits v sc.issuedTokens
  match sc.endAt with
  | none => sc
  | some e => if w = 0 then sc else { sc with unitNs := max 1 ((3 * sc.unitNs + cairnSince sc.startAt e / w) / 4) }

/-- Chunks of a class in the order of trimming: latest slice first, then highest index first (R208). -/
def trimOrder (cls : Nat) (ss : List (List Chunk)) : List (Nat × Chunk) :=
  (ss.zipIdx.reverse).flatMap fun e => (sortBy (e.1.filter (·.cls == cls)) fun a b => a.idx ≥ b.idx).map fun c => (e.2, c)

/-- The chunks that `trim` removes (R208). -/
def trimmed (v : Serving) (cut cap : Nat) : List (Nat × Chunk) → Nat → List (Nat × Chunk)
  | [], _ => []
  | c :: cs, done =>
    if done ≥ cut then []
    else
      let u := chunkUnits v c.2.tokens
      if done + u > cap then [] else c :: trimmed v cut cap cs (done + u)

/-- A stream whose chunk was trimmed (R187, R208, R209). -/
def State.markTrimmed (s : State) (c : Chunk) : State :=
  let s1 := if s.chunkFinal c then s.releaseSlot (s.stream c.idx).hring else s
  (s1.modStream c.idx fun x => { x with trimmedSeen := true, trimCount := min (x.trimCount + 1) 0xFFFF }).notify c.idx 0x02
    0x0221

/-- A late period trimmed (R208). -/
def State.trim (g k lag : Nat) (v : Serving) (s : State) : State :=
  match s.graph? g with
  | none => s
  | some y => match y.sched.plan with
    | none => s
    | some p =>
      if lag = 0 then s
      else
        let out := trimmed v (ceilDiv lag (max y.sched.unitNs 1)) (p.units v / 2)
          ([3, 2, 1].flatMap fun c => trimOrder c p.slices) 0
        let left := p.slices.zipIdx.map fun e => e.1.filter fun c => !out.any fun o => o.1 == e.2 && o.2.idx == c.idx
        let s1 := (s.raise 0x1201 lag g (k % 2 ^ 32)).updSched g fun sc =>
          { sc with plan := some { p with slices := left } }
        (out.map (·.2)).foldl State.markTrimmed s1

/-- Chunks that leave the plans, with their reservations (R201). -/
def State.dropChunks (cs : List Chunk) (s : State) : State :=
  cs.foldl (fun s c => if s.chunkFinal c then s.releaseSlot (s.stream c.idx).hring else s) s

/-- Whether a planned decode row still stands. -/
def State.decodeStands (s : State) (g i : Nat) : Bool :=
  let x := s.stream i
  x.graph == g && x.state == StreamState.decode && !x.cancelReq

/-- The grid and the counts move on to period `k` (R195). -/
def Sched.enter (k start : Nat) (slices : List (List Chunk)) (sc : Sched) : Sched :=
  { sc with
    period := k, started := true, startAt := start, endAt := none, nextB := sc.nextB + sc.lengthNs k, nextK := k + 1
    periodMs := sc.lengthNs k / ms, newMs := sc.newMs.filter fun e => k < e.2
    issuedUnits := 0, issuedTokens := 0, plan := none, slices := slices, slice := 0 }

/-- The serving parameters that a change brings at the start of its period `k` (R333). -/
def State.serveChange (g k : Nat) (s : State) : State :=
  match s.graph? g with
  | none => s
  | some y => match y.change with
    | none => s
    | some c =>
      if c.placed && c.start = k then
        (s.setGraph g (some { y with
          serving := (c.serving.orElse fun _ => y.serving).map fun v => { v with stepId := c.stepId } })).finishChange g
      else s

/-- The Burgee tokens of a change, placed behind the Pennant of the period before its start, which is period `k` (R163, R335). -/
def State.changeBehind (g k : Nat) (s : State) : State :=
  match s.graph? g with
  | none => s
  | some y => match y.change with
    | none => s
    | some c =>
      if !c.placed && c.start ≤ k + 1 then
        (s.updSched g fun sc => match c.serving with
          | none => sc
          | some v => { sc with newMs := sc.newMs ++ [(v.periodMs, k + 1)] }).placeBurgees g (k + 1)
      else s

/-- Period `k` issued at its start (R188, R195, R198, R208): the period that ends is reckoned by its own parameters, and the batch
goes out under those of period `k` (R203, R204, R333). DESIGN CHOICE (log entry 80): planned chunks whose slice boundary has not come
leave the plan with their reservations. -/
def State.startPeriod (g : Nat) (y : Graph) (v : Serving) (p : Plan) (s : State) : State :=
  let sc := y.sched
  let k := sc.nextK
  let start := sc.endAt.elim sc.nextB (cairnMax sc.nextB)
  let s1 := (s.advanceTo start).updSched g fun sc =>
    let z := sc.periodEnd (y.serving.getD v)
    { z with policy := z.newPolicy.getD z.policy, newPolicy := none }
  let s2 := (s1.dropChunks sc.slices.flatten).trim g k (cairnSince sc.nextB start) v
  let slices := (((s2.graph? g).bind fun y => y.sched.plan).map (·.slices)).getD []
  let stand := p.decode.filter (s2.decodeStands g)
  let s3 := (p.decode.filter fun i => !s2.decodeStands g i).foldl (fun s i => s.releaseSlot (s.stream i).hring) s2
  let s4 := (s3.updSched g (Sched.enter k start slices)).serveChange g k
  let rows := s4.sortRows (stand.map fun i => s4.rowOf i 0 1)
  (s4.issueBatch g 0 k rows.length rows).changeBehind g k

/-- `PERIOD_BATCH_ISSUE` (R196, R198, R208): at S(k), once the period before has ended. -/
def execPeriodBatchIssue (g : Nat) (s : State) : Out3 :=
  s.onLive (g < 8)
    (match s.graph? g with
     | none => s
     | some y => match y.sched.plan, y.servingFor y.sched.nextK with
       | some p, some v =>
         if y.active && y.sched.batches.isEmpty && (!y.sched.started || y.sched.endAt.isSome) then s.startPeriod g y v p else s
       | _, _ => s)

/-! ### Slices -/

/-- Rows of an admission batch (R183, R203). -/
def batchMost : Nat := 4096

/-- One class-0 stream considered at a slice boundary (R197, R201), but for one that waits for the next period since a remote target
failed its step (R194): the rows so far and the state. -/
def State.admitFirst (g at_ : Nat) (v : Serving) (r : State × List Row) (e : Nat × Stream) : State × List Row :=
  let s := r.1
  match s.graph? g with
  | none => r
  | some y =>
    let x := s.stream e.1
    let left := v.admitTokens - sumNat (r.2.map (·.count))
    let n := min (min (x.promptEnd - x.position) v.chunkTokens) left
    if x.cls != 0 || !(x.state == StreamState.pending || x.state == StreamState.prefill) || !s.choosable y e.1
        || (x.remoteRetry && y.sched.period < x.retryFrom) || y.inBatch e.1 || cairnSince x.wroteAt at_ < 20000 || cairnBefore at_ x.wroteAt || n = 0 || r.2.length ≥ batchMost then r
    else
      let p := s.pagesReady g e.1 n
      if !p.2 then (p.1, r.2)
      else
        let c : Chunk := ⟨e.1, 0, n⟩
        let h := if p.1.chunkFinal c then p.1.reserveSlot x.hring else (p.1, true)
        if !h.2 then (p.1.raise 0x1204 g x.hring 0, r.2) else (h.1, r.2 ++ [h.1.chunkRow c])

/-- The first slice from `j` on with room for `n` tokens. -/
def roomySlice (v : Serving) (n : Nat) (ss : List (List Chunk)) (j : Nat) : Option Nat :=
  (List.range ss.length).find? fun i => j ≤ i && tokensOf (ss.getD i []) + n ≤ v.admitTokens

/-- A displaced chunk (R201). -/
def State.displace (g j : Nat) (v : Serving) (s : State) (c : Chunk) : State :=
  match s.graph? g with
  | none => s
  | some y =>
    let s1 := s.updStream c.idx fun x => { x with preemptCount := min (x.preemptCount + 1) 0xFFFF }
    match roomySlice v c.tokens y.sched.slices (j + 1) with
    | some i => s1.updSched g fun sc => { sc with slices := addChunk i c sc.slices }
    | none => match y.sched.plan.bind fun p => roomySlice v c.tokens p.slices 0 with
      | some i => s1.updSched g fun sc =>
          { sc with plan := sc.plan.map fun p => { p with slices := addChunk i c p.slices } }
      | none => s1.dropChunks [c]

/-- Whether a planned chunk still stands. -/
def State.chunkStands (s : State) (g : Nat) (c : Chunk) : Bool :=
  let x := s.stream c.idx
  x.graph == g && (x.state == StreamState.pending || x.state == StreamState.prefill) && !x.cancelReq

/-- One planned chunk at its slice (R201). -/
def State.admitPlanned (g j : Nat) (v : Serving) (r : State × List Row) (c : Chunk) : State × List Row :=
  let s := r.1
  if !s.chunkStands g c then (s.dropChunks [c], r.2)
  else if sumNat (r.2.map (·.count)) + c.tokens ≤ v.admitTokens && r.2.length < batchMost then (s, r.2 ++ [s.chunkRow c])
  else (s.displace g j v c, r.2)

/-- `SLICE_BOUNDARY` (R197, R201): the admission batch of the next slice. -/
def execSliceBoundary (g : Nat) (s : State) : Out3 :=
  s.onLive (g < 8)
    (match s.graph? g with
     | none => s
     | some y => match y.serving with
       | none => s
       | some v =>
         if !(y.active && y.sched.started) then s
         else
           let j := y.sched.slice
           let at_ := y.sched.startAt + j * ms
           let s0 := s.advanceTo at_
           let r := (inPrec (s0.streamsOf g)).foldl (State.admitFirst g at_ v) (s0, [])
           let mine := sortBy (y.sched.slices.getD j []) fun a b =>
             precLe (a.idx, s0.stream a.idx) (b.idx, s0.stream b.idx)
           let s1 := r.1.updSched g fun sc => { sc with slice := j + 1, slices := sc.slices.set j [] }
           let q := mine.foldl (State.admitPlanned g j v) (s1, r.2)
           let rows := q.1.sortRows q.2
           if rows.isEmpty then q.1
           else
             (q.1.issueBatch g 1 y.sched.admissionSeq (chunkUnits v (sumNat (rows.map (·.count)))) rows).updSched g fun sc =>
               { sc with admissionSeq := sc.admissionSeq + 1 })

/-! ### Delivery -/

/-- The 64 bytes of a row (R205). -/
def Row.bytes (r : Row) : List Byte :=
  toLe 4 r.handle ++ toLe 4 r.position ++ toLe 4 r.count ++ toLe 1 r.kind ++ toLe 1 r.cls ++ toLe 2 (b2n r.first) ++
    toLe 4 r.token ++ [0, 0, 0, 0] ++ toLe 8 r.kvList ++ toLe 4 r.kvPages ++ [0, 0, 0, 0] ++ toLe 8 r.promptAddr ++
    toLe 4 r.temperature ++ toLe 4 r.topP ++ toLe 4 r.seed ++ toLe 2 r.topK ++ [0, 0]

/-- The batch data (R204). -/
def batchBytes (g tableBase : Nat) (b : Batch) : List Byte :=
  toLe 4 0x48544142 ++ toLe 1 g ++ toLe 1 b.kind ++ toLe 2 b.generation ++ toLe 8 b.seq ++ toLe 8 b.issueCairn ++
    toLe 4 b.rows.length ++ toLe 4 (b2n b.stepId.isSome) ++ toLe 8 tableBase ++ toLe 8 (b.stepId.getD 0) ++
    toLe 8 b.resultAddr ++ toLe 8 b.doneAddr ++ b.rows.flatMap Row.bytes

/-- `VALUE` of a batch Pennant (R203). -/
def Batch.pennant (b : Batch) : Nat := b.rows.length % 2 ^ 13 + 2 ^ 13 * b.kind

/-- One delivery into a tile: the batch in the ring entry of queue q + 1, a token on q + 1 and a Pennant on q (R203); a parity error
on the batch's way poisons its token and its words (R40, R254). -/
def Tile.deliver (x : Tile) (q tag value : Nat) (data : List Byte) (bad : Bool := false) : Tile :=
  let a := (x.qcfg (q + 1)).entry (x.queue (q + 1)).sent
  let ws := bytesToWords data
  let y := ((((x.writeBeside a ws bad).updQueue (q + 1) fun z => { z with sent := z.sent + 1 }).updQueue q fun z =>
    { z with sent := z.sent + 1 }).updCredit q fun c => { c with held := c.held - 1 }).updCredit (q + 1) fun c =>
    { c with held := c.held - 1 }
  y.updRun fun r =>
    { r with emitted := r.emitted ++ [(q, ⟨.pennant value, tag, false⟩), (q + 1, ⟨.data a ws.length, tag, bad⟩)] }

/-- Whether an entry can take a batch of a configuration: its tile stands ready under that configuration, so that the credits of
its queue table have been granted (R165 step 5), as every shadow of it does (R364), and both queues hold a credit (R203). -/
def State.entryReady (s : State) (t q gen : Nat) : Bool :=
  let ready (x : Tile) : Bool :=
    x.cfg.generation == gen && x.on && x.tarnPower == .active && !x.clearing && x.run.switchUntil.isNone && !x.run.stopped
  t < 320 && (s.withShadows t).all (fun u => ready (s.tile u)) && ((s.tile t).credit q).held != 0 &&
    ((s.tile t).credit (q + 1)).held != 0

/-- The tile of a virtual tile under a configuration: a change brings its own placement. -/
def Graph.entryTile (y : Graph) (gen v : Nat) : Nat :=
  match y.change with
  | none => y.place.getD v 320
  | some c => if gen = y.generation then y.place.getD v 320 else c.place.getD v 320

/-- Whether a link lies on some way from the I/O die to a tile: an up-link of its leaf or its own down-link (R253). -/
def onWayTo (t l : Nat) : Bool := (List.range 8).any fun j => (downLinks t j).contains l

/-- A batch delivered to one entry, with the Burgee tokens that wait behind it (R163, R203), and with the parity error that its packet
met on its way, where the link that names it lies there (R254). -/
def State.deliverTo (g : Nat) (b : Batch) (bad : Option Nat) (s : State) (e : Nat × Nat) : State :=
  match s.graph? g with
  | none => s
  | some y =>
    let t := y.entryTile b.generation e.1
    if !s.entryReady t e.2 b.generation then s
    else
      let data := batchBytes g (s.hbmAddr s.regs.streamTable) b
      let met := bad.filter (onWayTo t)
      let s1 := (s.withShadows t).foldl (fun s u => s.updTile u fun x =>
        x.deliver e.2 (b.seq % 2 ^ 16) b.pennant data met.isSome) (s.parityOf met)
      let s2 := s1.updSched g fun sc => { sc with batches := sc.batches.map fun c =>
        if c.seq = b.seq && c.kind = b.kind then { c with toDeliver := c.toDeliver.erase e } else c }
      match s2.graph? g with
      | none => s2
      | some z => match z.change with
        | none => s2
        | some c =>
          if c.placed && b.generation == z.generation && !z.awaits e.1 e.2 then
            (s2.sendBurgee t e.2 z.nextGen).sendBurgee t (e.2 + 1) z.nextGen
          else s2

/-- `BATCH_DELIVERY` (R203 to R205): to every entry of its kind that holds its credits. -/
def execBatchDelivery (g kind seq : Nat) (s : State) (bad : Option Nat := none) : Out3 :=
  s.onLive (g < 8 && kind < 2 && bad.all linkOk)
    (match s.graph? g with
     | none => s
     | some y => match y.sched.batches.find? fun b => b.kind == kind && b.seq == seq with
       | none => s
       | some b =>
         if y.suspended || y.stopped || y.abandon.isSome || b.done then s else b.toDeliver.foldl (State.deliverTo g b bad) s)

/-- Units of the batch that the scheduler issues next: a period's decode batch once the period before has ended, and
otherwise the chunks of the next slice. -/
def Sched.nextUnits (v : Serving) (sc : Sched) : Nat :=
  if sc.batches.isEmpty && (!sc.started || sc.endAt.isSome) then ((sc.plan.map fun p => p.decode.length)).getD 0
  else chunkUnits v (tokensOf (sc.slices.getD sc.slice []))

/-- `POWER_FORECAST` (R412): the power manager holds the latest forecast of each graph. -/
def execPowerForecast (g : Nat) (s : State) : Out3 :=
  s.onLive (g < 8)
    (match s.graph? g with
     | none => s
     | some y => match y.serving with
       | none => s
       | some v =>
         { s with power := { s.power with
             forecast := s.power.forecast.filter (·.1 != g) ++ [(g, y.sched.nextUnits v)] } })

/-! ### Harvest -/

/-- Whether every check lets a done batch be harvested (R19, R350, R366): no mismatch is under resolution, and of what stood open as
its done word was written, every firing has completed and every comparison has matched. -/
def State.verified (s : State) (y : Graph) (b : Batch) : Bool :=
  y.verify.resolving.isNone && b.awaits.all fun a =>
    !((s.tile a.1).run.flights.any (·.id == a.2)) && !y.verify.seen.any fun e => e.tile == a.1 && e.id == a.2

/-- The result entry of a row: token, and whether the row's handle stands in it (R206, R207). DESIGN CHOICE (log entry 80): an entry
that reads poisoned or with a failing status names no handle. -/
def State.resultOf (s : State) (b : Batch) (i : Nat) (r : Row) : Nat × Bool :=
  let a := s.read (b.resultAddr + 8 * i) 8
  (field a.bytes 0 3, a.status == stOk && !a.poison && field a.bytes 4 4 == r.handle)

/-- How a token ends its stream, by the order of R186 (R215). -/
def Stream.endsWith (x : Stream) (tok pos : Nat) : Option Nat :=
  if x.stopId != 0xFFFFFF && tok == x.stopId then some endStop
  else if pos ≥ x.limit then some endLimit
  else if x.cancelReq then some endCancel
  else none

/-- A token record (R211). -/
def tokenRecord (x : Stream) (tok phase : Nat) (first final : Bool) : Word :=
  BitVec.ofNat 64 (x.handle + 2 ^ 32 * (tok % 2 ^ 24) + 2 ^ 56 * phase + 2 ^ 57 * b2n first + 2 ^ 58 * b2n final +
    2 ^ 59 * b2n x.lateMark)

/-- A stream's record after its token (R202, R211, R213). -/
def Stream.harvested (x : Stream) (r : Row) (tok seq now deadline : Nat) : Stream :=
  { x with
    position := r.position + r.count, lastToken := tok, hvSeq := seq, waitSince := now
    deadline := if (x.endsWith tok (r.position + r.count)).isSome then noDeadline else deadline
    state := if x.state == StreamState.held then .held else .decode
    heldFrom := if x.state == StreamState.held then 3 else 0
    firstPeriod := if r.kind = 0 then false else x.firstPeriod
    tokensOut := x.tokensOut + 1, lateMark := false, remoteRetry := false }

/-- Entries of a ring's journal (R213), from a sequence number on. -/
def State.journalEntries (s : State) (sc : Sched) (ring : Nat) : Nat → List (Row × Nat) → List JournalEntry
  | _, [] => []
  | seq, (r, tok) :: rest =>
    let x := s.stream r.idx
    let fin := (x.endsWith tok (r.position + r.count)).isSome
    let z := x.harvested r tok seq s.cairn (sc.tokenDeadline x.cls sc.period)
    { record := tokenRecord x tok (1 - seq / (s.hv ring).size % 2) (r.kind == 2) fin, idx := r.idx, handle := x.handle,
      position := z.position, token := tok, seq := seq, pages := z.kvPages, wait := z.waitSince, deadline := z.deadline,
      state := z.state } :: s.journalEntries sc ring ((seq + 1) % 2 ^ 32) rest

/-- What step 2 of R213 writes: absolute values, and nothing else of the record. -/
def Stream.journaled (x : Stream) (e : JournalEntry) : Stream :=
  { x with
    position := e.position, lastToken := e.token, hvSeq := e.seq, kvPages := e.pages, waitSince := e.wait
    deadline := e.deadline, state := e.state }

/-- Step 2 of a journal, written or repeated (R213, R214): of streams that still run under their handles. -/
def State.journalRecords (j : Journal) (s : State) : State :=
  j.entries.foldl (fun s e =>
    let x := s.stream e.idx
    if x.handle = e.handle && x.state != StreamState.free && x.state != StreamState.ending then s.putStream e.idx (x.journaled e)
    else s) s

/-- The first sequence number of a ring's next journal (R213): behind those that no saved tail has retired yet. -/
def State.nextHarvest (s : State) (ring : Nat) : Nat :=
  match s.tracker.journals.reverse.find? fun j => j.ring == ring with
  | none => (s.hv ring).count
  | some j => (j.first + j.entries.length) % 2 ^ 32

/-- Step 3: the token records. -/
def State.journalTokens (j : Journal) (s : State) : State :=
  let h := s.hv j.ring
  (j.entries.zipIdx).foldl (fun s e => s.hostWrite (h.base + 8 * ((j.first + e.2) % h.size)) (toLe 8 e.1.record.toNat)) s

/-- Step 4: the saved tail, which retires the journal. -/
def State.journalTail (j : Journal) (s : State) : State :=
  let n := (j.first + j.entries.length) % 2 ^ 32
  let s1 := s.updHv j.ring fun h => { h with count := n, saved := n }
  { s1 with tracker := { s1.tracker with journals := s1.tracker.journals.erase j } }

/-- One ring's share of a harvest (R213): cut off before its third step where the host link is down (R345). -/
def State.harvestRing (g ring : Nat) (rows : List (Row × Nat)) (s : State) : State :=
  match s.graph? g with
  | none => s
  | some y =>
    let n := s.nextHarvest ring
    let j : Journal := ⟨ring, n, s.journalEntries y.sched ring n rows⟩
    let s1 := (rows.zip j.entries).foldl (fun s e => s.modStream e.2.idx fun x =>
        x.harvested e.1.1 e.1.2 e.2.seq e.2.wait e.2.deadline)
      { s with tracker := { s.tracker with journals := s.tracker.journals ++ [j] } }
    let s2 := (s1.updHv ring fun h => { h with reserved := h.reserved - rows.length })
    if !s.dma then s2
    else
      let s3 := (s2.journalTokens j).journalTail j
      if (s3.hv ring).irq then s3.signal (s3.hv ring).vector else s3

/-- A final chunk's run is freed, and a stream that its token ends goes to `ENDING` (R186, R215, R336). -/
def State.afterToken (g : Nat) (s : State) (r : Row × Nat) : State :=
  let x := s.stream r.1.idx
  let s1 := if r.1.kind = 2 then s.freeRuns g r.1.idx else s
  match x.endsWith r.2 x.position with
  | some d => s1.endStream r.1.idx x.goodStatus d
  | none => s1

/-- A row without a token: a chunk that is not final commits (R202), and a row whose stream has ended lets its slot go. -/
def State.commitChunk (s : State) (r : Row) : State :=
  let x := s.stream r.idx
  if x.handle != r.handle || x.state == StreamState.ending then s
  else s.putStream r.idx
    { x with
      position := r.position + r.count, promptAddr := x.promptAddr + 4 * r.count, waitSince := s.cairn
      remoteRetry := false }

/-- Whether a row's stream still runs. -/
def State.rowLives (s : State) (r : Row) : Bool := (s.stream r.idx).handle == r.handle && (s.stream r.idx).state != StreamState.ending

/-- A stream whose result entry does not name it (R207). -/
def State.mismatch (seq : Nat) (s : State) (e : Row × Nat) : State :=
  ((s.raise 0x1205 seq e.1.handle e.2).releaseRow e.1).endStream e.1.idx stPoisoned 0

/-- The tokens of a batch, and what becomes of each row (R206, R207, R211 to R215); the tracker's reads of the results count as
any others (R224, R225). -/
def State.harvestRows (g : Nat) (b : Batch) (s0 : State) : State :=
  let s := b.rows.foldl (fun s r => if s.overdue r.idx then s.breakDeadline r.idx else s) s0
  let rows := b.rows.zipIdx
  let dead := rows.filter fun e => e.1.produces && !s.rowLives e.1
  let live := rows.filter fun e => e.1.produces && s.rowLives e.1
  let good := live.filter fun e => (s.resultOf b e.2 e.1).2
  let bad := live.filter fun e => !(s.resultOf b e.2 e.1).2
  let toks := good.map fun e => (e.1, (s.resultOf b e.2 e.1).1)
  let s1 := dead.foldl (fun s e => s.releaseRow e.1) (s.readNoting b.resultAddr (8 * b.rows.length)).2
  let s2 := bad.foldl (State.mismatch b.seq) s1
  let s3 := ((rows.filter fun e => !e.1.produces).map (·.1)).foldl State.commitChunk s2
  let ringOf (r : Row × Nat) : Nat := (s3.stream r.1.idx).hring
  let rings := sortBy (toks.map ringOf).dedup (· ≤ ·)
  let s4 := rings.foldl (fun s n => s.harvestRing g n (toks.filter fun r => ringOf r == n)) s3
  toks.foldl (State.afterToken g) s4

/-- A batch leaves the scheduler; the last one's harvest ends the period (R196). -/
def Sched.dropBatch (now : Nat) (b : Batch) (sc : Sched) : Sched :=
  let rest := sc.batches.filter fun c => !(c.seq == b.seq && c.kind == b.kind)
  { sc with batches := rest, endAt := if rest.isEmpty then some now else sc.endAt }

/-- The harvest of a batch (R196, R206, R213, R367). -/
def State.harvestBatch (g : Nat) (b : Batch) (s : State) : State :=
  let s1 := ((s.draw).harvestRows g b).updSched g (Sched.dropBatch s.cairn b)
  let s2 := b.rows.foldl (fun s r => if s.rowLives r && !s.inFlightStream r.idx then s.endCancelled r.idx else s) s1
  match s2.graph? g with
  | none => s2
  | some y =>
    if y.sched.batches.isEmpty then
      ((s2.dropShadows g).updGraph g fun y => { y with verify := .reset }).retryAll
    else s2

/-- Another verification round (R367): what batches that are done have been checked on under the present shadows leaves their sets. -/
def State.verifyRound (g : Nat) (s : State) : State :=
  match s.graph? g with
  | none => s
  | some y => (s.mapVerify g fun b => if b.done && s.verified y b then y.unchecked b else b.toVerify).abandon g 5 [] []

/-- `HARVEST` (R206, R213, R366, R367): of a batch whose done word a verified pass has written. -/
def execHarvest (g kind seq : Nat) (s : State) : Out3 :=
  s.onLive (g < 8 && kind < 2)
    (match s.graph? g with
     | none => s
     | some y => match y.sched.batches.find? fun b => b.kind == kind && b.seq == seq with
       | none => s
       | some b =>
         if !b.done || y.suspended || y.stopped || y.abandon.isSome then s
         else if b.rows.isEmpty then s.harvestBatch g b
         else if !s.verified y b then s
         else if !(y.unchecked b).isEmpty then s.verifyRound g
         else s.harvestBatch g b)

end Sys2Proof.Machine
end

