-- ==== Sys2Proof/Machine/Recovery.lean ====
section
/-! DEFINITION. The resets of R311 and the recovery reset: its stages, its restarts and its end (R243, R311, R345, R346, R387,
R445 to R451, R494). -/

namespace Sys2Proof.Machine

/-! ### Registers -/

/-- The ring, doorbell-page and interrupt registers, the lock and what R480 marks `R311`, at their reset values (R311); an
unlocked session ends (R512). -/
def State.clearR311 (s : State) : State :=
  { s with
    host := { s.host with
      sq := [], cq := [], hv := [], dbBase := 0, dbLow := 0, evtRing := 0, evtEnable := false, fetches := [], descs := []
      wake := false, unmasked := [], pendingVec := [], msix := [], pollNext := 0
      pcie := { Pcie.reset with
        lanes := s.host.pcie.lanes, rate := s.host.pcie.rate, surpriseDown := s.host.pcie.surpriseDown, aer := s.host.pcie.aer } }
    regs := { s.regs with
      locked := false, lockViolation := false, cfgReject := false, lockViolOffset := 0, cfgErrOffset := 0, cfgErrCause := 0
      bar2 := 0, bar2Low := 0 }
    monitor := { s.monitor with unlocked := false } }

/-! ### Freeze -/

/-- Reads of descriptors on their way are given up, and their entries stand unfetched again. -/
def State.dropFetches (s : State) : State :=
  let s1 := s.host.fetches.foldl (fun s f =>
    (s.updCq (s.sq f.ring).cq fun c => { c with reserved := c.reserved - 1 }).updSq f.ring fun r => { r with fetched := f.at_ }) s
  { s1 with host := { s1.host with fetches := [] } }

/-- A `SKIP` that has not been carried out stands unfetched again. -/
def State.dropSkips (s : State) : State :=
  let s1 := (s.host.descs.filter fun d => d.opcode == 1).foldl (fun s d => s.updSq d.ring fun r => { r with fetched := d.at_ }) s
  { s1 with host := { s1.host with descs := s1.host.descs.filter fun d => d.opcode != 1 } }

/-- A tile whose clock has stopped: what a dump reads of it stays, and its passes are gone. -/
def Tile.freeze (x : Tile) : Tile := { x with run := { TileRun.reset with channels := x.run.channels, stopped := true } }

/-- Stage 1 (R446, R450): fetching, issue and DMA stop, the tiles and their messages stop, and the module's own remote accesses
are abandoned with the copies that ran, their slots freed and their generations kept. -/
def State.freeze (s : State) : State :=
  let s1 := s.dropFetches.dropSkips
  { s1 with
    tiles := s1.tiles.map fun e => (e.1, e.2.freeze)
    planes := { s1.planes with words := [], rows := [], counts := [], summits := [] }
    mem := { s1.mem with copies := [], images := [] }
    fabric := { s1.fabric with
      closing := []
      send := (s1.fabric.send.filter fun e => e.2.gen != 0).map fun e => (e.1, { SendConn.reset with gen := e.2.gen }) }
    host := { s1.host with dmaStopped := true, wake := false } }

/-! ### Starting and restarting -/

/-- A recovery begins (R445, R446), and an unlocked session ends (R512). -/
def State.startRecovery (go : Bool) (s : State) : State :=
  State.setDev .recovering { s.freeze with
    seq := .recovery 1 0 false go, selfTest := s.selfTest.anew, monitor := { s.monitor with unlocked := false } }

/-- The recovery stops for good (R387). -/
def State.recoveryFailed (s : State) : State :=
  let s1 := State.tarnsOff (List.range 320) { s with
    seq := .idle, selfTest := s.selfTest.anew, host := { s.host with bar0 := true, retry := false }
    dump := { s.dump with running := false, truncated := s.dump.truncated || s.dump.running } }
  ((s1.setDev .failed).ledgerEvent 0x1F08 0 0 0).writeStatus

/-- A fault or a new trigger restarts a recovery (R387, R451). -/
def State.restartRecovery (s : State) : State :=
  match s.seq with
  | .recovery st n dumped go =>
    if n ≥ 3 then s.recoveryFailed
    else
      let from_ := if st ≥ 3 || (st = 2 && !s.dump.running) then 3 else 1
      (if s.dump.running then State.tarnsOff (List.range 320) else id) { s with
        seq := .recovery from_ (n + 1) (dumped || s.dump.running) go
        selfTest := s.selfTest.anew
        dump := { s.dump with running := false, truncated := s.dump.truncated || s.dump.running } }
  | _ => s

/-- What a trigger does: it starts a recovery, or restarts the one that runs. -/
def State.trigger (go : Bool) (s : State) : State :=
  match s.seq with
  | .recovery _ _ _ _ => s.restartRecovery
  | _ => s.startRecovery go

/-- Whether a reset of R311 starts a recovery: not before a start has ended, and not after a start that failed (R311, R427,
R428). -/
def State.r311Recovers (s : State) : Bool :=
  match s.seq with
  | .idle => s.selfTest.fault.isNone
  | .recovery _ _ _ _ => true
  | _ => false

/-- A reset of R311 (R311, R427, R451): its registers are cleared, and a recovery runs. -/
def State.r311 (s : State) : State :=
  if !s.hotSwap.switchOn then s
  else if s.r311Recovers then
    let s1 := s.clearR311.trigger false
    if s1.seq == .idle then s1 else { s1 with host := { s1.host with retry := true, bar0 := false } }
  else s.clearR311

/-- `FUNCTION_LEVEL_RESET` (R311). -/
def execFunctionLevelReset (s : State) : Out3 := .next (if s.host.linkUp then s.r311 else s)

/-- `HOT_RESET` (R311). -/
def execHotReset (s : State) : Out3 := .next (if s.host.linkUp then s.r311 else s)

/-- `D3HOT_TO_D0` (R311). -/
def execD3hotToD0 (s : State) : Out3 := .next (if s.host.linkUp then s.r311 else s)

/-- `PERST_N_ASSERT` (R494). -/
def execPerstNAssert (s : State) : Out3 := .next s.r311

/-- The host link goes down (R311, R345, R427): no DMA any more; before a start has ended the registers go back at once. -/
def State.hostDown (s : State) : State :=
  if !s.hotSwap.switchOn || !s.host.linkUp then s
  else
    let s1 := { s with host := { s.host with linkUp := false, pcie := { s.host.pcie with surpriseDown := true } } }
    if s1.r311Recovers then { s1 with host := { s1.host with dmaStopped := true } }
    else State.clearR311 { s1 with host := { s1.host with downInStart := true } }

/-- `HOST_LINK_DOWN` (R311, R345, R427). -/
def execHostLinkDown (s : State) : Out3 := .next s.hostDown

/-- `HOST_LINK_RETURN` (R307, R311, R345, R427): the link has trained to `lanes` and to `rate` in 0.1 GT/s. One that went down before the
cold start had ended starts no recovery. -/
def execHostLinkReturn (s : State) (lanes : Nat := 16) (rate : Nat := 640) : Out3 :=
  onUnit (hostLinkOk lanes rate)
    (if s.host.linkUp then s
    else
      let s1 := State.hostTrained lanes rate { s with host := { s.host with linkUp := true, downInStart := false } }
      if s1.r311Recovers && !s.host.downInStart then s1.r311 else s1)

/-! ### Stages 2 to 8 -/

/-- Stage 2 begins (R445, R451): with a dump, or with `SKIPPED` set; a recovery takes one at most. -/
def State.enterDump (n : Nat) (dumped go : Bool) (s : State) : State :=
  if dumped then { s with seq := .recovery 2 n true go }
  else if go && s.dump.enable && s.dump.size != 0 then { s.beginDump with seq := .recovery 2 n true go }
  else { s with seq := .recovery 2 n true go, dump := { s.dump with skipped := true } }

/-- A phase as its domain comes out of the reset: `PHASE_FAIL` and a dead phase stay (R447, PHASE_FAIL). -/
def Phase.restarted (x : Phase) : Phase :=
  { x with score := 0, part := if x.part = 3 then 3 else 0, shed := false }

/-- Power and clocks after stage 4: the power manager starts anew, and what BAR0 and the converters hold stays. -/
def Power.restarted (p : Power) : Power :=
  { p with
    setMhz := min Power.reset.setMhz p.top, limPower := false, limCurrent := false, limThermal := false, unmet := false
    halted := false, phases := (p.phases.map fun e => (e.1, e.2.restarted)).filter fun e => decide (e.2 ≠ .reset)
    domOff := (p.lost.filter (660 ≤ ·)).foldl (fun t d => Tab.put false d true t) [], overCurrent := false
    stagings := (p.stagings.map fun e => (e.1, e.2.filter fun g => 677 ≤ g.dom && g.dom < 685)).filter fun e => !e.2.isEmpty
    stretch := [], apart := [], stallSteps := 0, forecast := [] }

/-- The statistics of a record, as the last write-back left them in memory (R179), read with what the read counts (R224, R225). -/
def State.oldStatistics (s : State) (i : Nat) : State :=
  let r := s.readNoting (s.recordAt i + 112) 16
  let b := r.1.bytes
  r.2.updStream i fun x =>
    { x with tokensOut := field b 0 4, lateCount := field b 4 2, trimCount := field b 6 2, preemptCount := field b 8 2 }

/-- The tracker's cache lost with its domain (R179). -/
def State.loseCache (s : State) : State :=
  let s1 := (s.tracker.cache.filter fun i => (s.stream i).state != StreamState.free).foldl State.oldStatistics s
  { s1 with tracker := { s1.tracker with cache := [] } }

/-- A score that restarts at 0 while a fence stays (R447). -/
def FzPort.restarted (x : FzPort) : FzPort := { x with score := 0, part := if x.part = 3 then 3 else 0 }
def CxlRange.restarted (x : CxlRange) : CxlRange := { x with score := 0, part := if x.part = 3 then 3 else 0, removing := [] }
def Slice.restarted (x : Slice) : Slice := { x with score := 0, part := if x.part = 3 then 3 else 0 }

/-- Every domain but the ports', the HBM supplies' and the Cairn's resets (R242, R446, R447, R507). -/
def State.resetDomains (s : State) : State :=
  let s1 := s.loseCache
  { s1 with
    tiles := [], planes := .reset
    power := s1.power.restarted
    mem := { s1.mem with
      copies := [], images := []
      slices := s1.mem.slices.map fun e => (e.1, e.2.restarted), ranges := s1.mem.ranges.map fun e => (e.1, e.2.restarted) }
    fabric := { s1.fabric with
      ports := s1.fabric.ports.map (fun e => (e.1, e.2.restarted)), scheduled := false }
    fw := { s1.fw with retraining := none }
    monitor := { Monitor.reset with nonces := s1.monitor.nonces, out := s1.monitor.out } }

/-- Stage 4 ends (R446): the boot ROM has verified the image and started the Ensign, or waits for another image. -/
def State.stage4 (r : StartReport) (n : Nat) (go : Bool) (s : State) : State :=
  let s1 := s.resetDomains
  if r.image && s1.ledgerVerifies then { s1.loadFirmware with seq := .recovery 5 n true go }
  else { s1 with
    seq := .rescue, host := { s1.host with bar0 := true, retry := false }, fw := { s1.fw with cairnKept := true } }

/-- Stage 8 ends (R446): the tests of phase 5, under the defect list as it stands. -/
def State.stage8 (r : StartReport) (n : Nat) (go : Bool) (s : State) : State :=
  let s1 := s.coreTests 8 r
  let s2 := (r.failed.filter fun k => k.1 == 1 || k.1 == 2 || k.1 == 3 || k.1 == 4 || k.1 == 6).foldl (State.testFailed false) s1
  { (s2.applyUnion r) with seq := .recovery 9 n true go }

/-! ### Stage 9 -/

/-- A harvest journal repeated (R214): its ring's step is left out where the ring is not enabled. -/
def State.repeatJournal (s : State) (j : Journal) : State :=
  let s1 := s.journalRecords j
  (if (s1.hv j.ring).enable then s1.journalTokens j else s1).journalTail j

/-- A graph lost (R448): its streams end. -/
def State.graphLost (g status detail : Nat) (s : State) : State :=
  (((s.raise 0x1008 g status detail).endStreams g).releasePlanes g).setGraph g none

/-- The configuration in force for a graph's first period after recovery, bare of tiles (R392, R448). -/
def Graph.recovered (y : Graph) : Graph :=
  let z := match y.change with
    | none => y
    | some c =>
      if c.placed then
        { y with
          image := c.image, generation := y.nextGen, change := none
          serving := c.serving.orElse fun _ => y.serving
          mode := if c.image.mode = 0 then .native else .compat
          sampleAddr := c.sampleAddr, sampleRecords := c.sampleRecords }
      else y
  { z with
    spills := [], suspended := false, stopped := false, unloading := none, abandon := none, verify := .reset
    sched := { z.sched with
      plan := none, slices := [], slice := 0, batches := [], moves := [], issuedUnits := 0, issuedTokens := 0 } }

/-- A change that had not started staged again (R448): where its period has passed, it starts in the second one. -/
def State.restage (g : Nat) (c : Change) (s : State) : State :=
  match s.graph? g with
  | none => s
  | some y => match s.planBinding g c.image fun v => y.place[v]? with
    | .error _ => s
    | .ok (place, bs) =>
      let start := if c.start < y.sched.nextK then y.sched.nextK + 1 else c.start
      let z := { y with change := some { c with place := place, buntings := bs, start := start } }
      let s1 := ((s.takeBuntings g bs).setGraph g (some z)).takeSlots g z.lanes
      place.zipIdx.foldl (fun s tv =>
        let cfg := c.image.tileCfg place y.nextGen tv.2
        if tv.2 < y.place.length then s.updTile tv.1 fun x => { x with staged := some cfg }
        else s.writeTile tv.1 fun x => (x.write (.bound g tv.2) cfg).updRun fun r => { r with stopped := true }) s1

/-- A graph bound again from its image in HBM (R154, R156, R448). -/
def State.rebind (s : State) (g : Nat) : State :=
  match s.graph? g with
  | none => s
  | some y =>
    let z := y.recovered
    let s1 := s.setGraph g (some { z with change := none, place := [], buntings := [] })
    if z.image.host then s1.graphLost g 0 0
    else
      let rs := s1.readNoting z.image.addr z.image.size
      let r := rs.1
      let s0 := rs.2
      if r.status ≠ stOk then s0.graphLost g r.status 0
      else if r.poison then s0.graphLost g stPoisoned 0
      else match imageFault r.bytes [] [] with
        | some e => s0.graphLost g stBad e
        | none =>
          let im := imageOf r.bytes z.image.addr false
          match s0.planBinding g im fun _ => none with
          | .error e => s0.graphLost g stNotPermitted e
          | .ok (place, bs) =>
            let s1 := s0.draw.bind g { z with image := im, place := place, buntings := bs, change := none }
            match z.change with
            | none => s1
            | some c => s1.restage g c

/-- The windows whose close was cut off: the close has taken effect, and their indices are free (R303, R346, R447). -/
def State.closeWindows (s : State) : State :=
  (s.fabric.windows.filter fun e => e.2.closing.isSome).foldl (fun s e =>
    let s1 := s.updWindow e.1 fun w => { w with closing := none }
    { s1 with fabric := { s1.fabric with windowFreed := s1.fabric.windowFreed ++ [e.1] } }) s

/-- Every live stream that asked for its end, or lost its pages, ends (R230, R449). -/
def State.endAsked (s : State) : State :=
  (s.tracker.streams.filter fun e => e.2.state != StreamState.free).foldl (fun s e => s.endCancelled e.1) s

/-- Harvest entries that plans and batches had reserved stand free again. -/
def State.freeHarvest (s : State) : State :=
  { s with host := { s.host with hv := s.host.hv.map fun e => (e.1, { e.2 with reserved := 0 }) } }

/-- One record for each descriptor that was fetched and not completed (R346). -/
def State.abortDescs (s : State) : State := s.host.descs.foldl (fun s d => s.complete d stAborted 0 0) s

/-- Each deadline that passed while the tracker did not run breaks once (R189, R449 step 4). -/
def State.breakPassed (s : State) : State :=
  s.tracker.streams.foldl (fun s e => if s.overdue e.1 then s.breakDeadline e.1 else s) s

/-- Stage 9 ends the recovery (R446 to R449). -/
def State.stage9 (s : State) : State :=
  match s.selfTest.fault with
  | some _ => ({ s with recoveries := (s.recoveries + 1) % 2 ^ 32 }).recoveryFailed
  | none =>
    let s1 := { s with host := { s.host with dmaStopped := false } }
    let s2 := (s1.graphIds.foldl State.rebind s1).closeWindows
    let s3 := (s2.tracker.journals.foldl State.repeatJournal s2).endAsked.freeHarvest
    let s4 := (s3.graphIds.foldl (fun s g => s.newGrid g) s3).breakPassed
    let s5 := { s4.intoService with recoveries := (s4.recoveries + 1) % 2 ^ 32, seq := .idle }
    let s6 := s5.abortDescs.flushConflicts.sendPending
    let s7 := { s6 with host := { s6.host with wake := true } }
    (if s7.shutdown.busy && s7.shutdown.forceUnload then s7.unloadAll else s7).shutdownOn

/-- The stage that runs ends. -/
def State.endStage (r : StartReport) (s : State) : State :=
  match s.seq with
  | .recovery 1 n d go => s.enterDump n d go
  | .recovery 2 n d go => if s.dump.running then s else { s with seq := .recovery 3 n d go }
  | .recovery 3 n d go => { s with seq := .recovery 4 n d go, fw := { s.fw with running := false } }
  | .recovery 4 n _ go => s.stage4 r n go
  | .recovery 5 n d go => { (s.networks false 5 r) with seq := .recovery 6 n d go }
  | .recovery 6 n d go => { (((s.coreTests 6 r).takeUntrained r).memoryTests 6 r) with seq := .recovery 7 n d go }
  | .recovery 7 n d go =>
    let s1 := if go || !hostLinkOk r.hostLanes r.hostRate then s else s.hostTrained r.hostLanes r.hostRate
    { s1 with seq := .recovery 8 n d go, host := { s1.host with bar0 := true, retry := false } }
  | .recovery 8 n _ go => s.stage8 r n go
  | .recovery 9 _ _ _ => s.stage9
  | _ => s

/-- `RECOVERY_STAGE_COMPLETE` (R446). -/
def execRecoveryStageComplete (r : StartReport) (s : State) : Out3 := .next (s.endStage r)

/-- `RECOVERY_STAGE_TIMEOUT` (R446, R451): a stage other than the dump has exceeded its budget. -/
def execRecoveryStageTimeout (s : State) : Out3 :=
  .next (match s.seq with
    | .recovery 2 _ _ _ => s
    | _ => s.restartRecovery)

end Sys2Proof.Machine
end

