-- ==== Sys2Proof/Machine/Setup.lean ====
section
/-! DEFINITION. Writes to BAR0: access rules, the set-up lock, and the effect of each register (R7, R9, R227, R267, R309, R319,
R420, R439, R445, R457, R458, R476 to R489). -/

namespace Sys2Proof.Machine

/-! ### Access rules -/

/-- A 4-byte part of a write: its own offset, the offset that a finding about it reports, and its value (R476). -/
structure Part where
  at_ : Nat
  origin : Nat
  v : Nat
deriving DecidableEq, Repr

/-- A refused write (R478): 1 out of range, 2 a register it depends on, 3 object in use. -/
def State.refuseWrite (at_ cause : Nat) (s : State) : State :=
  { s with regs := { s.regs with cfgReject := true, cfgErrOffset := at_, cfgErrCause := cause } }

/-- A write that the lock has ignored, and that would have changed a field (R9, R479). -/
def State.lockedWrite (at_ : Nat) (s : State) : State :=
  let s1 := { s with regs := { s.regs with lockViolation := true, lockViolOffset := at_ } }
  if s.regs.lockViolation then s1 else s1.raise 0x1004 at_ 0 0

/-- A write of RWL fields, `old` being their current value (R7, R9). -/
def State.rwl (p : Part) (old new : Nat) (act : State → State) (s : State) : State :=
  if !s.regs.locked then act s else if old = new then s else s.lockedWrite p.origin

/-! ### Rings -/

/-- Ring `n` of a kind: 0 submission, 1 completion, 2 harvest. -/
def State.ring (s : State) (k n : Nat) : Ring := match k with | 0 => s.sq n | 1 => s.cq n | _ => s.hv n
def State.updRing (s : State) (k n : Nat) (f : Ring → Ring) : State :=
  match k with
  | 0 => s.updSq n f
  | 1 => s.updCq n f
  | _ => s.updHv n f

/-- Whether a ring is in use (R483). -/
def State.ringInUse (s : State) (k n : Nat) : Bool :=
  match k with
  | 0 => s.host.descs.any (·.ring == n) || s.host.fetches.any (·.ring == n)
  | 1 =>
    s.host.sq.any (fun e => e.2.enable && e.2.cq == n) || (s.host.evtEnable && s.host.evtRing == n) ||
      s.tracker.streams.any fun e => e.2.state != StreamState.free && e.2.cq == n
  | _ => s.tracker.streams.any fun e => e.2.state != StreamState.free && e.2.hring == n

/-- `CTRL` of a ring without `IRQ_EN` (R482). -/
def Ring.ctrl (k : Nat) (r : Ring) : Nat :=
  b2n r.enable + 2 * r.log2 + if k = 0 then 2 ^ 8 * r.cq else 2 ^ 16 * r.vector

/-- A written value cut to those fields. -/
def ctrlFields (k v : Nat) : Nat := v % 2 ^ 6 + if k = 0 then 2 ^ 8 * bits v 8 8 else 2 ^ 16 * bits v 16 11

/-- A ring as `CTRL` sets it. -/
def Ring.setCtrl (k v : Nat) (r : Ring) : Ring :=
  { r with
    enable := bit v 0, log2 := bits v 1 5
    cq := if k = 0 then bits v 8 8 else r.cq
    vector := if k = 0 then r.vector else bits v 16 11
    irq := if k = 0 then r.irq else bit v 27 }

/-- A ring that has just been enabled: its counts are 0 (R483). -/
def Ring.fresh (r : Ring) : Ring :=
  { r with
    count := 0, other := 0, fetched := 0, reported := [], reserved := 0, lost := 0, halted := false, dirty := false
    saved := 0 }

/-- Why a ring may not be enabled (R483). -/
def State.enableFault (s : State) (k : Nat) (x : Ring) : Option Nat :=
  if x.log2 < 6 || 16 < x.log2 then some 1
  else if x.base = 0 then some 2
  else if k = 0 && !(s.cq x.cq).enable then some 2
  else none

/-- `IRQ_EN` set, which may be changed at any time (R483). -/
def State.setIrq (k n v : Nat) (s : State) : State := s.updRing k n fun r => { r with irq := if k = 0 then r.irq else bit v 27 }

/-- `CTRL` written before the lock (R483). -/
def State.writeCtrl (k n : Nat) (p : Part) (s : State) : State :=
  let r := s.ring k n
  let x := r.setCtrl k p.v
  if r.enable then
    if (x.log2, x.cq, x.vector) ≠ (r.log2, r.cq, r.vector) || (!x.enable && s.ringInUse k n) then s.refuseWrite p.origin 3
    else s.updRing k n fun _ => x
  else if x.enable then
    match s.enableFault k x with
    | some c => s.refuseWrite p.origin c
    | none => s.updRing k n fun _ => x.fresh
  else s.updRing k n fun _ => x

/-- `CTRL` written (R9, R482, R483). -/
def State.ringCtrl (k n : Nat) (p : Part) (s : State) : State :=
  if s.regs.locked then (s.setIrq k n p.v).rwl p ((s.ring k n).ctrl k) (ctrlFields k p.v) id else s.writeCtrl k n p

/-- The low word of an address that starts at bit 12. -/
def page4k (v : Nat) : Nat := v % 2 ^ 32 / 2 ^ 12 * 2 ^ 12

/-- `BASE`, a word of it (R477, R482, R483). -/
def State.ringBase (k n : Nat) (high : Bool) (p : Part) (s : State) : State :=
  let r := s.ring k n
  if high then
    s.rwl p (r.base / 2 ^ 32) p.v fun s =>
      let b := p.v * 2 ^ 32 + r.baseLow
      if r.enable && b != r.base then s.refuseWrite p.origin 3 else s.updRing k n fun r => { r with base := b }
  else s.rwl p (r.base % 2 ^ 32) (page4k p.v) fun s => s.updRing k n fun r => { r with baseLow := page4k p.v }

/-- A word of a ring's block (R482). -/
def State.ringPart (k n : Nat) (p : Part) (s : State) : State :=
  match p.at_ % 16 with
  | 0 => s.ringBase k n false p
  | 4 => s.ringBase k n true p
  | 8 => s.ringCtrl k n p
  | _ => s

/-- `DB_BASE` (R477, R484). -/
def State.writeDbBase (high : Bool) (p : Part) (s : State) : State :=
  if high then
    s.rwl p (s.host.dbBase / 2 ^ 32) p.v fun s => { s with host := { s.host with dbBase := p.v * 2 ^ 32 + s.host.dbLow } }
  else s.rwl p (s.host.dbBase % 2 ^ 32) (page4k p.v) fun s => { s with host := { s.host with dbLow := page4k p.v } }

/-- `WAKE` (R319). -/
def State.writeWake (s : State) : State := { s with host := { s.host with wake := true, lastFetch := some s.cairn } }

/-- `EVT_RING` (R432, R484). -/
def State.writeEvtRing (p : Part) (s : State) : State :=
  s.rwl p (s.host.evtRing + 2 ^ 8 * b2n s.host.evtEnable) (p.v % 2 ^ 9) fun s =>
    if bit p.v 8 && !(s.cq (bits p.v 0 8)).enable then s.refuseWrite p.origin 2
    else State.flushConflicts { s with host := { s.host with evtRing := bits p.v 0 8, evtEnable := bit p.v 8 } }

/-- Records of the stream table written as `FREE` at a new place (R485). -/
def State.moveTable (a : Nat) (s : State) : State :=
  let s1 := s.zeroRun a (2 ^ 28)
  { s1 with regs := { s1.regs with streamTable := a }, tracker := { s1.tracker with cache := [] } }

/-- `STREAM_TABLE_BASE` (R477, R484, R485). -/
def State.writeStreamTable (high : Bool) (p : Part) (s : State) : State :=
  let low (v : Nat) : Nat := v % 2 ^ 32 / 2 ^ 16 * 2 ^ 16
  if high then
    s.rwl p (s.regs.streamTable / 2 ^ 32) (p.v % 2 ^ 12) fun s =>
      let a := p.v % 2 ^ 12 * 2 ^ 32 + s.regs.streamTableLow
      let serving := s.graphIds.any fun g => match s.graph? g with
        | none => false
        | some y => y.serving.isSome
      if serving || s.tracker.streams.any (fun e => e.2.state != StreamState.free) then s.refuseWrite p.origin 3
      else if moduleArea < a + 2 ^ 28 then s.refuseWrite p.origin 1
      else s.moveTable a
  else s.rwl p (s.regs.streamTable % 2 ^ 32) (low p.v) fun s => { s with regs := { s.regs with streamTableLow := low p.v } }

/-! ### Lock -/

/-- `FZ_SELF` lies outside `FZ_DIMS` (R489). -/
def State.selfOut (s : State) : Bool := bit s.fabric.self 14 && !idIn s.fabric.dims (s.fabric.self % 2 ^ 14)

/-- Coordinates checked as the lock is set (R267, R489, R502). -/
def State.checkIds (s : State) : State :=
  let s1 := if s.selfOut then s.refuseWrite 0x50004 1 else s
  match s1.fabric.sideband with
  | none => s1.refreshId
  | some m =>
    if idIn s1.fabric.dims m then s1.refreshId
    else State.loseId (State.alert 4 { s1 with fabric := { s1.fabric with sideband := none } })

/-- `SET` (R227, R479, R489, R502). -/
def State.setLock (s : State) : State :=
  if s.regs.locked then s
  else (State.checkIds (State.interleave { s with regs := { s.regs with locked := true } })).lockSelf

/-- `SETUP_LOCK` (R481). -/
def State.writeLock (v : Nat) (s : State) : State :=
  let s1 := { s with regs := { s.regs with
    lockViolation := s.regs.lockViolation && !bit v 2, cfgReject := s.regs.cfgReject && !bit v 3 } }
  if bit v 0 then s1.setLock else s1

/-! ### Power, integrity and memory -/

/-- `PWR_LIMIT`: the set point obeys a lower `CLK_MAX_MHZ` at once (R416). DESIGN CHOICE (log entry 85): its clamped fields read back as
written, and are clamped where they are used. -/
def State.writePwrLimit (v : Nat) (s : State) : State :=
  let p := { s.power with limitW := bits v 0 12, clkMax := bits v 16 11 }
  { s with power := { p with setMhz := min p.setMhz p.top } }

/-- `INTEG_POLICY[c]` (R362). -/
def State.writePolicy (c v : Nat) (s : State) : State :=
  { s with regs := { s.regs with policy := listSet s.regs.policy c (v % 4 + 2 ^ 16 * bits v 16 16) } }

/-- `BAR2_BASE` (R309, R477). -/
def State.writeBar2 (high : Bool) (v : Nat) (s : State) : State :=
  if high then
    { s with regs := { s.regs with bar2 := (v % 2 ^ 12 * 2 ^ 32 + s.regs.bar2Low) / 2 ^ 30 * 2 ^ 30 } }
  else { s with regs := { s.regs with bar2Low := v } }

/-- The two slots overlap (R487). -/
def slotsMeet (a b : Nat) : Bool := a < b + 6 && b < a + 6

/-- Whether an enabled slot other than `i` overlaps 6 GiB from `base` (R487). -/
def State.slotTaken (s : State) (i base : Nat) : Bool :=
  (List.range 8).any fun j =>
    let r := Tab.get RetireSlot.reset s.mem.slots j
    j != i && r.enable && slotsMeet base r.baseGib

/-- `RETIRE_SLOT[i]` (R241, R486, R487). -/
def State.writeSlot (i : Nat) (p : Part) (s : State) : State :=
  let r := Tab.get RetireSlot.reset s.mem.slots i
  s.rwl p (r.baseGib + 2 ^ 13 * b2n r.enable) (p.v % 2 ^ 14) fun s =>
    let base := bits p.v 0 13
    if r.inUse then s.refuseWrite p.origin 3
    else if bit p.v 13 && !s.slotMapped base then s.refuseWrite p.origin 2
    else if bit p.v 13 && s.slotTaken i base then s.refuseWrite p.origin 3
    else State.placeSlice
      { s with mem := { s.mem with slots := Tab.put .reset i { r with baseGib := base, enable := bit p.v 13 } s.mem.slots } }

/-- `OVF` of a counter, written by its high word (R32, R486). -/
def Counter.w1c (v : Nat) (c : Counter) : Counter := if bit v 16 then { c with ovf := false } else c

/-- A counter of `HBM_CNT[s]` (R486). -/
def State.clearSliceOvf (n i v : Nat) (s : State) : State :=
  s.updSlice n fun x => if i < 3 then x.setCounter i ((x.counter i).w1c v) else x

/-! ### Fabric -/

/-- Ports of dimensions as `FZ_DIMS` has them: a port of size 1 stays disabled, and the others train (R488). -/
def State.dimPorts (s : State) : State :=
  (List.range 6).foldl (fun s p => if portDim s.fabric.dims p = 1 then s.disablePort p else s.enablePort p) s

/-- Whether `FZ_DIMS` lies in range (R488, R489). -/
def dimsOk (v : Nat) : Bool :=
  1 ≤ bits v 0 6 && bits v 0 6 ≤ 32 && 1 ≤ bits v 6 6 && bits v 6 6 ≤ 32 && 1 ≤ bits v 12 5 && bits v 12 5 ≤ 16

/-- `FZ_DIMS` (R267, R488, R489). -/
def State.writeDims (p : Part) (s : State) : State :=
  let v := p.v % 2 ^ 17
  s.rwl p s.fabric.dims v fun s =>
    if !dimsOk v then s.refuseWrite p.origin 1
    else State.lockSelf (State.dimPorts (State.refreshId { s with fabric := { s.fabric with dims := v } }))

/-- `FZ_SELF` (R267): coordinates that differ from those of the sideband are reported. -/
def State.writeSelf (p : Part) (s : State) : State :=
  let v := p.v % 2 ^ 15
  s.rwl p s.fabric.self v fun s =>
    let s1 := (State.refreshId { s with fabric := { s.fabric with self := v } }).lockSelf
    match s.fabric.sideband with
    | none => s1
    | some m => if bit v 14 && v % 2 ^ 14 != m then s1.raise 0x1502 0 m (v % 2 ^ 14) else s1

/-- `FZ_TIME_MASTER` (R304, R393). -/
def State.writeMaster (p : Part) (s : State) : State :=
  let v := p.v % 2 ^ 15
  s.rwl p s.fabric.timeMaster v fun s => State.lockSelf { s with fabric := { s.fabric with timeMaster := v } }

/-- `FZ_PORT[p]` `CTRL` (R272, R488). -/
def State.writePortCtrl (p v : Nat) (s : State) : State :=
  let s1 := s.updPort p fun x => { x with enable := bit v 0 }
  if bit v 0 then s1.enablePort p else s1.disablePort p

/-- A counter of a port (R488). -/
def State.clearPortOvf (p i v : Nat) (s : State) : State :=
  s.updPort p fun x => match i with
    | 0 => { x with csym := x.csym.w1c v }
    | 1 => { x with ucw := x.ucw.w1c v }
    | 2 => { x with replays := x.replays.w1c v }
    | _ => { x with retrainCnt := x.retrainCnt.w1c v }

/-- A word of a port's block (R488). -/
def State.portPart (p at_ v : Nat) (s : State) : State :=
  if at_ = 0 then s.writePortCtrl p v else if 32 ≤ at_ && at_ % 8 = 4 then s.clearPortOvf p ((at_ - 32) / 8) v else s

/-- A counter of the module's table of R306 (R488). -/
def State.clearFzOvf (i v : Nat) (s : State) : State :=
  { s with fabric := { s.fabric with counters := Tab.upd .reset i (Counter.w1c v) s.fabric.counters } }

/-! ### Shutdown, recovery, retraining -/

/-- `SHUTDOWN_CTRL` (R439). -/
def State.writeShutdown (v : Nat) (s : State) : State :=
  let s1 := { s with shutdown := { s.shutdown with forceUnload := bit v 1, budgetS := bits v 2 12 } }
  if bit v 0 then s1.startShutdown else s1

/-- Whether `GO` starts a recovery: not in `FAILED`, which only a reset of R311 or a cold start ends (R387, R445). -/
def State.goStarts (s : State) : Bool := s.seq != .rescue && !(s.seq == .idle && s.devState == .failed)

/-- `RECOVERY_CTRL` (R445, R453). -/
def State.writeRecovery (v : Nat) (s : State) : State :=
  let s1 := { s with dump := { s.dump with enable := bit v 1, startUnit := bits v 8 7, sampleUnits := bits v 16 7 } }
  if !bit v 0 then s1
  else
    let s2 := { s1 with dump := { s1.dump with done := false, truncated := false, skipped := false, tiles := 0 } }
    if s2.goStarts then s2.trigger true else s2

/-- `DUMP_BASE` (R453, R477). -/
def State.writeDumpBase (high : Bool) (v : Nat) (s : State) : State :=
  if high then { s with dump := { s.dump with base := v * 2 ^ 32 + s.dump.baseLow } }
  else { s with dump := { s.dump with baseLow := page4k v } }

/-- Whether a unit may be retrained now: one at a time, each at most once in 10 min (R458). -/
def State.retrainable (s : State) (kind unit_ : Nat) : Bool :=
  s.inService && s.fw.retraining.isNone &&
    (match kind with
      | 1 => unit_ < 6 && (s.port unit_).state == PortState.up
      | 2 => unit_ < 16
      | 3 => unit_ < 2
      | _ => false) &&
    (match (s.fw.retrained.find? fun e => e.1 == kind * 256 + unit_) with
      | none => true
      | some e => 600000000000 ≤ cairnSince e.2 s.cairn)

/-- A retraining begins (R278, R458). -/
def State.startRetrain (kind unit_ : Nat) (s : State) : State :=
  if !s.retrainable kind unit_ then s
  else
    let k := kind * 256 + unit_
    let s1 := { s with fw := { s.fw with
      retraining := some (kind, unit_), retrained := s.fw.retrained.filter (fun e => e.1 != k) ++ [(k, s.cairn)] } }
    if kind = 1 then s1.portRetrain unit_ else s1

/-- `RETRAIN_REQ` (R458). -/
def State.writeRetrain (v : Nat) (s : State) : State :=
  let s1 := { s with regs := { s.regs with retrainKind := bits v 0 4, retrainUnit := bits v 4 8 } }
  if bit v 31 then s1.startRetrain (bits v 0 4) (bits v 4 8) else s1

/-! ### Rescue -/

/-- `WRITE` of `RESCUE_CTRL` (R457, R516): `ok` says that the block read back well. -/
def State.rescueWrite (block : Nat) (ok : Bool) (s : State) : State :=
  if ok then
    let s1 := s.programBlock block s.fw.rescueBuf
    { s1 with fw := { s1.fw with rescueOwner := 1 } }
  else { s with fw := { s.fw with rescueResult := 3 } }

/-- `RESCUE_CTRL` (R457, R516): ignored while the UART owns the rescue. -/
def State.writeRescue (v : Nat) (ok : Bool) (s : State) : State :=
  if s.fw.rescueOwner = 2 then s
  else
    let s1 := { s with fw := { s.fw with rescueBlock := bits v 0 12, rescueCount := bits v 16 12 } }
    let s2 := if bit v 12 then s1.rescueWrite (bits v 0 12) ok else s1
    if bit v 13 then (s2.commitRescue (bits v 16 12 + 1) ok).1 else s2

/-- A word of `RESCUE_DATA` (R457). -/
def State.rescueData (off v : Nat) (s : State) : State :=
  let b := s.fw.rescueBuf
  { s with fw := { s.fw with rescueBuf := b.take off ++ toLe 4 v ++ b.drop (off + 4) } }

/-! ### The map -/

/-- What the boot ROM exposes in a rescue (R457). -/
def State.romPart (ok : Bool) (p : Part) (s : State) : State :=
  if p.at_ = 0x60020 then s.writeRescue p.v ok
  else if 0x61000 ≤ p.at_ && p.at_ < 0x62000 then s.rescueData (p.at_ - 0x61000) p.v
  else s

/-- Registers up to 0x1_FFFF (R480). -/
def State.lowPart (p : Part) (s : State) : State :=
  let a := p.at_
  if a = 0x20 then s.writeLock p.v
  else if 0x10000 ≤ a && a < 0x11000 then s.ringPart 0 ((a - 0x10000) / 16) p
  else if 0x11000 ≤ a && a < 0x12000 then s.ringPart 1 ((a - 0x11000) / 16) p
  else if 0x12000 ≤ a && a < 0x12400 then s.ringPart 2 ((a - 0x12000) / 16) p
  else if a = 0x13000 then s.writeDbBase false p
  else if a = 0x13004 then s.writeDbBase true p
  else if a = 0x13008 then s.writeWake
  else if a = 0x1300C then s.writeEvtRing p
  else if a = 0x13010 then s.writeStreamTable false p
  else if a = 0x13014 then s.writeStreamTable true p
  else s

/-- Registers from 0x2_0000 to 0x4_FFFF (R480). -/
def State.midPart (p : Part) (s : State) : State :=
  let a := p.at_
  if a = 0x20000 then s.writePwrLimit p.v
  else if a = 0x20020 then s.writeShutdown p.v
  else if 0x30000 ≤ a && a < 0x30010 then s.writePolicy ((a - 0x30000) / 4) p.v
  else if a = 0x40000 then { s with regs := { s.regs with hbmScrub := p.v % 2 ^ 8 } }
  else if a = 0x40004 then
    s.rwl p (b2n s.regs.cxlIl) (p.v % 2) fun s => { s with regs := { s.regs with cxlIl := bit p.v 0 } }
  else if a = 0x40008 then s.writeBar2 false p.v
  else if a = 0x4000C then s.writeBar2 true p.v
  else if 0x40040 ≤ a && a < 0x40060 then s.writeSlot ((a - 0x40040) / 4) p
  else if 0x41000 ≤ a && a < 0x41800 && a % 8 = 4 then s.clearSliceOvf ((a - 0x41000) / 32) (a % 32 / 8) p.v
  else s

/-- Registers from 0x5_0000 on (R480). DESIGN CHOICE (log entry 63): `RESCUE_CTRL` and `RESCUE_DATA` take no write outside
a rescue (R457), and read as they stand. -/
def State.highPart (p : Part) (s : State) : State :=
  let a := p.at_
  if a = 0x50000 then s.writeDims p
  else if a = 0x50004 then s.writeSelf p
  else if a = 0x5000C then s.writeMaster p
  else if a = 0x50010 then { s with fabric := { s.fabric with scheduled := bit p.v 0 } }
  else if 0x50100 ≤ a && a < 0x50280 then s.portPart ((a - 0x50100) / 64) ((a - 0x50100) % 64) p.v
  else if 0x50300 ≤ a && a < 0x50330 && a % 8 = 4 then s.clearFzOvf ((a - 0x50300) / 8) p.v
  else if a = 0x60000 then s.writeRecovery p.v
  else if a = 0x60008 then s.writeDumpBase false p.v
  else if a = 0x6000C then s.writeDumpBase true p.v
  else if a = 0x60010 then { s with dump := { s.dump with size := p.v } }
  else if a = 0x60018 then s.writeRetrain p.v
  else s

/-- A part written (R480): reserved offsets and read-only registers ignore it. -/
def State.writePart (ok : Bool) (s : State) (p : Part) : State :=
  if s.seq == .rescue then s.romPart ok p
  else if p.at_ < 0x20000 then s.lowPart p
  else if p.at_ < 0x50000 then s.midPart p
  else s.highPart p

/-- Offsets of the 64-bit registers that a command writes (R480). -/
def wide (a : Nat) : Bool :=
  (0x10000 ≤ a && a < 0x12400 && a % 16 == 0) || a == 0x13000 || a == 0x13010 || a == 0x40008 || a == 0x60008 ||
    (0x41000 ≤ a && a < 0x41800) || (0x50100 ≤ a && a < 0x50280 && 32 ≤ (a - 0x50100) % 64) || (0x50300 ≤ a && a < 0x50330)

/-- The parts of a write in their order (R476); one that is not an aligned access of 4 or 8 bytes has none. -/
def barParts (w : BarWrite) : List Part :=
  if w.size = 4 && w.off % 4 = 0 then [⟨w.off, w.off, w.value % 2 ^ 32⟩]
  else if w.size = 8 && w.off % 8 = 0 then
    [⟨w.off, w.off, w.value % 2 ^ 32⟩, ⟨w.off + 4, if wide w.off then w.off else w.off + 4, w.value / 2 ^ 32 % 2 ^ 32⟩]
  else []

/-- BAR0 answers (R311, R345, R427). -/
def State.bar0Answers (s : State) : Bool := s.hotSwap.switchOn && s.host.linkUp && s.host.bar0

/-- A BAR0 write (R476). -/
def State.bar0 (ok : Bool) (w : BarWrite) (s : State) : State :=
  if s.bar0Answers then (barParts w).foldl (State.writePart ok) s else s

/-- A write that covers a register whose word satisfies `p`. -/
def barCovers (w : BarWrite) (p : Nat → Nat → Bool) : Bool := (barParts w).any fun x => p x.at_ x.v

/-- A write row with a register of its own. -/
def State.ownWrite (p : Nat → Nat → Bool) (w : BarWrite) (s : State) : Out3 := onUnit (barCovers w p) (s.bar0 true w)

/-- `REGISTER_WRITE` (R7, R9, R476). Programming and verifying in a rescue have rows of their own. -/
def execRegisterWrite (w : BarWrite) (s : State) : Out3 :=
  onUnit (w.off < 2 ^ 25 && !barCovers w fun a v => a == 0x60020 && (bit v 12 || bit v 13)) (s.bar0 true w)

/-- `SETUP_LOCK_SET` (R479). -/
def execSetupLockSet (w : BarWrite) (s : State) : Out3 := s.ownWrite (fun a v => a == 0x20 && bit v 0) w

/-- `RING_CTRL_WRITE` (R483). -/
def execRingCtrlWrite (w : BarWrite) (s : State) : Out3 :=
  s.ownWrite (fun a _ => 0x10000 ≤ a && a < 0x12400 && a % 16 == 8) w

/-- `DB_BASE_WRITE` (R484). -/
def execDbBaseWrite (w : BarWrite) (s : State) : Out3 := s.ownWrite (fun a _ => a == 0x13000 || a == 0x13004) w

/-- `EVT_RING_WRITE` (R484). -/
def execEvtRingWrite (w : BarWrite) (s : State) : Out3 := s.ownWrite (fun a _ => a == 0x1300C) w

/-- `STREAM_TABLE_BASE_WRITE` (R485). -/
def execStreamTableBaseWrite (w : BarWrite) (s : State) : Out3 := s.ownWrite (fun a _ => a == 0x13010 || a == 0x13014) w

/-- `BAR2_BASE_WRITE` (R309). -/
def execBar2BaseWrite (w : BarWrite) (s : State) : Out3 := s.ownWrite (fun a _ => a == 0x40008 || a == 0x4000C) w

/-- `RETIRE_SLOT_WRITE` (R487). -/
def execRetireSlotWrite (w : BarWrite) (s : State) : Out3 := s.ownWrite (fun a _ => 0x40040 ≤ a && a < 0x40060) w

/-- `FZ_DIMS_WRITE` (R489). -/
def execFzDimsWrite (w : BarWrite) (s : State) : Out3 := s.ownWrite (fun a _ => a == 0x50000) w

/-- `FZ_SELF_WRITE` (R267). -/
def execFzSelfWrite (w : BarWrite) (s : State) : Out3 := s.ownWrite (fun a _ => a == 0x50004) w

/-- `FZ_PORT_CTRL_WRITE` (R488). -/
def execFzPortCtrlWrite (w : BarWrite) (s : State) : Out3 :=
  s.ownWrite (fun a _ => 0x50100 ≤ a && a < 0x50280 && (a - 0x50100) % 64 == 0) w

/-- `WAKE` (R319). -/
def execWake (w : BarWrite) (s : State) : Out3 := s.ownWrite (fun a _ => a == 0x13008) w

/-- `SHUTDOWN_CTRL_GO` (R439). -/
def execShutdownCtrlGo (w : BarWrite) (s : State) : Out3 := s.ownWrite (fun a v => a == 0x20020 && bit v 0) w

/-- `RECOVERY_CTRL_GO` (R445). -/
def execRecoveryCtrlGo (w : BarWrite) (s : State) : Out3 := s.ownWrite (fun a v => a == 0x60000 && bit v 0) w

/-- A write of `RETRAIN_REQ` with `GO` set for a kind. -/
def retrainOf (kind a v : Nat) : Bool := a == 0x60018 && bit v 31 && bits v 0 4 == kind

/-- `RETRAIN_FILZOR_PORT` (R458). -/
def execRetrainFilzorPort (w : BarWrite) (s : State) : Out3 := s.ownWrite (retrainOf 1) w

/-- `RETRAIN_HBM_SLICE_GROUP` (R458). -/
def execRetrainHbmSliceGroup (w : BarWrite) (s : State) : Out3 := s.ownWrite (retrainOf 2) w

/-- `RETRAIN_CXL_PORT` (R458). -/
def execRetrainCxlPort (w : BarWrite) (s : State) : Out3 := s.ownWrite (retrainOf 3) w

/-- What a retraining that has ended leaves (R240, R458): a group that failed twice loses its slices. -/
def State.retrainEffect (kind unit_ outcome : Nat) (s : State) : State :=
  if kind = 2 && outcome = 2 then (List.range 4).foldl (fun s i => s.loseSlice (unit_ * 4 + i) 1) s else s

/-- `RETRAIN_COMPLETE` (R458): 0 passed, 1 passed from saved values, 2 failed. A Filzor port ends as its link does. -/
def execRetrainComplete (outcome : Nat) (s : State) : Out3 :=
  onUnit (outcome < 3)
    (match s.fw.retraining with
     | none => s
     | some (k, u) =>
       let st := (s.port u).state
       if !s.inService || (k = 1 && st == PortState.retrain) then s
       else
         let o := if k = 1 then (if st == PortState.up then 0 else 2) else outcome
         (State.retrainEffect k u o { s with fw := { s.fw with retraining := none } }).raise 0x1805 0 (k * 256 + u) o)

/-- `RESCUE_CTRL_WRITE` (R457). -/
def execRescueCtrlWrite (w : BarWrite) (ok : Bool) (s : State) : Out3 :=
  onUnit (barCovers w fun a v => a == 0x60020 && bit v 12) (s.bar0 ok w)

/-- `RESCUE_CTRL_COMMIT` (R457). -/
def execRescueCtrlCommit (w : BarWrite) (ok : Bool) (s : State) : Out3 :=
  onUnit (barCovers w fun a v => a == 0x60020 && bit v 13) (s.bar0 ok w)

/-! ### Reads with an effect -/

/-- `CAIRN_LOW_READ` (R420): the high word is latched, even over a value the latch holds. -/
def execCairnLowRead (s : State) : Out3 :=
  .next (if !s.bar0Answers then s
    else if s.seq == .rescue then { s with rd := 0 }
    else { s with rd := s.cairn % 2 ^ 32, regs := { s.regs with cairnLatch := some (s.cairn / 2 ^ 32) } })

/-- `CAIRN_HIGH_READ` (R420): the latch where it holds a value, which empties it; else the current high word. -/
def execCairnHighRead (s : State) : Out3 :=
  .next (if !s.bar0Answers then s
    else if s.seq == .rescue then { s with rd := 0 }
    else { s with rd := s.regs.cairnLatch.getD (s.cairn / 2 ^ 32), regs := { s.regs with cairnLatch := none } })

end Sys2Proof.Machine
end

