-- ==== Sys2Proof/Machine/Power.lean ====
section
/-! DEFINITION. Power, clocks and their loops: the input, the bus converters, regulator phases, staged turn-on, limits, droop,
heat, the clock reference, trims (R397 to R423). -/

namespace Sys2Proof.Machine

/-- The power manager runs: in the Ensign domain, on firmware. -/
def State.managed (s : State) : Bool := s.hotSwap.switchOn && s.fw.running

/-! ### The input -/

/-- The input voltage as the hot-swap controller sees it (HS_STATUS, HS_VIN). -/
def State.seeInput (mv : Nat) (s : State) : State :=
  { s with hotSwap := { s.hotSwap with vin := mv % 2 ^ 16, inRange := 44000 ≤ mv && mv ≤ 57000 } }

/-- Every stress session ends (R380). -/
def State.endSessions (s : State) : State :=
  (List.range 320).foldl (fun s t => match (s.tile t).use with
    | .stress e cases _ =>
      (s.recordSession t ((20000000000 - cairnSince s.cairn e) / 1000000) cases 4).letGo t
    | _ => s) s

/-- `BROWNOUT_WARN` (R398): nothing new while `BROWNOUT` is set. -/
def execBrownoutWarn (mv : Nat) (s : State) : Out3 :=
  .next (if !s.hotSwap.switchOn || 42500 ≤ mv || s.power.brownout then s
    else
      let s1 := s.seeInput mv
      State.endSessions (((State.alert 2 { s1 with power := { s1.power with brownout := true } }).raise 0x1701 mv 0 0)))

/-- `BROWNOUT_CLEAR` (R398): at or above 43.0 V for 1 ms. -/
def execBrownoutClear (mv : Nat) (s : State) : Out3 :=
  .next (if !s.power.brownout || mv < 43000 then s
    else
      let s1 := s.seeInput mv
      ({ s1 with power := { s1.power with brownout := false } }).raise 0x1702 mv 0 0)

/-- `BROWNOUT_RESET` (R399): below 40.0 V for 20 µs. -/
def execBrownoutReset (mv : Nat) (s : State) : Out3 :=
  .next (if 40000 ≤ mv || !s.hotSwap.switchOn then s else (s.seeInput mv).openSwitch 1)

/-- `OVERVOLTAGE_WARN` (R398): once until the input has come down again. -/
def execOvervoltageWarn (mv : Nat) (s : State) : Out3 :=
  .next (if !s.hotSwap.switchOn || mv ≤ 57000 || s.power.overvoltage then s
    else
      let s1 := s.seeInput mv
      ({ s1 with power := { s1.power with overvoltage := true } }).raise 0x1703 mv 0 0)

/-- `OVERVOLTAGE_REARM` (R398): at or below 56.5 V for 1 ms. -/
def execOvervoltageRearm (s : State) : Out3 := .next { s with power := { s.power with overvoltage := false } }

/-- `INPUT_OVERVOLTAGE_TRIP` (R398): above 60.0 V. -/
def execInputOvervoltageTrip (mv : Nat) (s : State) : Out3 :=
  .next (if mv ≤ 60000 || !s.hotSwap.switchOn then s else (s.seeInput mv).openSwitch 2)

/-- `IBC_FAIL` (R400): with six or more failed the module takes the power-off path. -/
def execIbcFail (n : Nat) (s : State) : Out3 :=
  onUnit (n < 8)
    (if !s.managed || s.power.ibcFailed.contains n then s
     else
       let ns := s.power.ibcFailed ++ [n]
       let s1 := (State.alert 2 { s with power := { s.power with ibcFailed := ns } }).raise 0x1704 0 n ns.length
       if 6 ≤ ns.length then s1.openSwitch 3 else s1)

/-! ### Phases -/

/-- A phase of any domain: `domain ID × 8 + phase`, which for a tile's domain is its number in R371. -/
def phaseNo (dom p : Nat) : Nat := dom * 8 + p

/-- A phase that counts as failed (R402, R403). -/
def Phase.bad (x : Phase) : Bool := x.failed || x.stopped || x.dead

/-- The memory-plane links of a massif's spine (R371, R404). -/
def spineLinks (m : Nat) : List Nat :=
  let d := m / 10
  let j := m % 10
  (List.range 10).flatMap (fun g => (List.range 2).map fun u => (d * 10 + g) * 16 + j * 2 + u) ++
    (List.range 8).map (fun q => 320 + (d * 8 + q) * 8 + j) ++ [448 + j]

/-- Whether a router that goes dark takes data of tile `t` with it: a channel word or circuit unit on a route through its massif,
a multicast copy held at its leaf or spine, or an arrive flit that waits for its spine (R265). -/
def State.darkens (s : State) (m t : Nat) : Bool :=
  let here (a b : Nat) : Bool := (routeTiles a b).any fun u => u / 16 == m
  let x := s.tile t
  let circuit (k : Nat) : Bool := match s.graphFor t with
    | none => false
    | some y => match y.image.circuits[bits (x.op k) 64 16]? with
      | none => false
      | some c => here (y.place.getD c.src 320) (y.place.getD c.dst 320)
  s.planes.words.any (fun w => w.src == t && here w.src w.tile) ||
    x.run.flights.any (fun f =>
      ((opCode (x.op f.index) == 0x56 || opCode (x.op f.index) == 0x57) && circuit f.index) ||
        f.pieces.any fun p => p.copies.any fun c => match c.2.2 with
          | .held r => r == m || (m % 10 < 8 && r == spineRouter (m / 10) (m % 10))
          | .atInput r _ => r == m || (m % 10 < 8 && r == spineRouter (m / 10) (m % 10))
          | .acked _ => false) ||
    (m % 10 < 8 && (spineLinks m).any fun l => (s.out l).waiting.any fun w => match w with
      | .arrive u _ => u == t
      | .release _ _ _ => false)

/-- Graphs whose steps lose data when a router goes dark; a Summit counter in its spine is such data (R256, R265). -/
def State.darkened (s : State) (m : Nat) : List Nat :=
  (List.range 8).filter fun g => match s.graph? g with
    | none => false
    | some y => (s.graphTiles g).any (s.darkens m) ||
        (m % 10 < 8 && s.planes.summits.any fun c => c.spine == m / 10 * 8 + m % 10 && y.buntings.contains c.bunting)

/-- A massif's router OFF: the data in its Saddles are discarded, and every step that loses some is poisoned, so that its graph's
passes are abandoned (R265, R351). -/
def State.routerOff (m : Nat) (s : State) : State :=
  let s1 := (s.darkened m).foldl (fun s g => s.abandon g 1 [] []) s
  { s1 with planes := { s1.planes with
      routerOn := Tab.put false m false s1.planes.routerOn
      words := s1.planes.words.filter fun w => !(routeTiles w.src w.tile).any fun u => u / 16 == m } }

/-- A Tarn that has lost its supply. -/
def Tile.tarnLost (x : Tile) : Tile := { x with tarnPower := .off, tarn := [], patrolBack := [] }

/-- What the loss of a domain does (R404, R405): it is OFF, and does not turn on again before the next cold start. -/
def State.domainLost (dom : Nat) (s : State) : State :=
  let s0 := s.raise 0x1707 0 dom 0
  let s1 := { s0 with power := { s0.power with
    lost := s0.power.lost ++ [dom], domOff := if 660 ≤ dom then Tab.put false dom true s0.power.domOff else s0.power.domOff } }
  if dom < 640 then
    let t := dom - 320
    (s1.updTile t (·.tarnLost)).fenceTile t
  else if dom < 660 then
    let m := dom - 640
    let s2 := (List.range 16).foldl (fun s i => s.fenceTile (m * 16 + i)) s1
    let s3 := s2.routerOff m
    if m % 10 < 8 then (spineLinks m).foldl (fun s l => s.setScore .link l (s.score .link l).1 3) s3 else s3
  else if dom < 676 then (List.range 4).foldl (fun s i => s.loseSlice ((dom - 660) * 4 + i) 1) s1
  else if dom = 676 then s1.hostDown
  else if dom < 679 then (List.range 8).foldl (State.loseDevice (dom - 677)) s1
  else if dom < 685 then (s1.portDown (dom - 679)).disablePort (dom - 679)
  else if dom = 685 then s1.openSwitch 4
  else State.setDev .failed { s1 with seq := .idle }

/-- A phase outside tile compute that has newly failed (R404): a domain is lost once. -/
def State.otherPhaseFailed (dom p report : Nat) (s : State) : State :=
  let s1 := s.raise 0x1705 report dom p
  if !s.power.lost.contains dom && (s1.phase (phaseNo dom 0)).bad && (s1.phase (phaseNo dom 1)).bad then s1.domainLost dom
  else s1

/-- A soft report (R372, R403, R404): outside tile compute it is recorded in the ledger only. -/
def State.softReport (dom p report : Nat) (s : State) : State :=
  if (s.phase (phaseNo dom p)).dead then s
  else if dom < 320 then s.blame .phase (phaseNo dom p) 256 5
  else s.ledgerEvent 0x1705 report dom p

/-- A row of a phase report. -/
def State.onPhase (s : State) (dom p : Nat) (t : State) : Out3 :=
  onUnit (dom < 688 && p < phasesOf dom) (if s.managed then t else s)

/-- `PH_OVERCURRENT` (R403). -/
def execPhOvercurrent (dom phase : Nat) (s : State) : Out3 := s.onPhase dom phase (s.softReport dom phase 1)

/-- `PH_OVERTEMP` (R402, R403): the phase stops, and counts as failed while it is stopped. -/
def execPhOvertemp (dom phase : Nat) (s : State) : Out3 :=
  s.onPhase dom phase
    (let n := phaseNo dom phase
     let x := s.phase n
     if x.stopped || x.dead then s
     else
       let s1 := s.updPhase n fun x => { x with stopped := true }
       let s2 := if x.bad then s1
         else if dom < 320 then s1.tilePhaseFailed dom phase 2
         else s1.otherPhaseFailed dom phase 2
       if dom < 320 then s2.softReport dom phase 2 else s2)

/-- `PH_OVERTEMP_CLEAR` (R402, R403): below 110 °C the phase resumes; a tile with fewer than two failed phases
keeps only the cap that the voltage ceiling asks for (R417). -/
def execPhOvertempClear (dom phase : Nat) (s : State) : Out3 :=
  s.onPhase dom phase
    (let n := phaseNo dom phase
     if !(s.phase n).stopped then s
     else
       let s1 := s.updPhase n fun x => { x with stopped := false }
       if dom < 320 && s1.failedPhases dom < 2 then s1.updTile dom fun x => { x with capped := x.ceilingCap } else s1)

/-- `PH_REGULATION` (R403). -/
def execPhRegulation (dom phase : Nat) (s : State) : Out3 := s.onPhase dom phase (s.softReport dom phase 3)

/-- `PH_DEAD` (R402 to R404): the phase is disconnected, and in a tile's domain its score goes to its FENCED threshold. -/
def execPhDead (dom phase : Nat) (s : State) : Out3 :=
  s.onPhase dom phase
    (let n := phaseNo dom phase
     let x := s.phase n
     if x.dead then s
     else
       let s1 := s.updPhase n fun x => { x with dead := true, failed := true }
       if dom < 320 then
         let old := s1.score .phase n
         (s1.settleScore .phase n old.2 (max old.1 1024) 4).tilePhaseFailed dom phase 4
       else s1.otherPhaseFailed dom phase 4)

/-- `UNDERVOLTAGE` (R409): for a tile's domain, a report on the phase nearest the lowest sensor. -/
def execUndervoltage (dom phase : Nat) (s : State) : Out3 :=
  s.onPhase dom phase (if dom < 320 then s.softReport dom phase 3 else s.ledgerEvent 0x1F09 0 dom 0)

/-- Whether every engine of a tile has been idle for 1,024 island cycles, or its island stands still (R411). -/
def Tile.quietEngines (x : Tile) : Bool :=
  !x.on || [0, 1, 2, 3].all fun e => (x.engine e).freeAt ≤ x.cycle && (x.engine e).idleSince + 1024 ≤ x.cycle

/-- `PHASE_SHED` (R411): of the good phases of a tile whose engines have been idle for 1,024 cycles the first two stay active. -/
def execPhaseShed (dom : Nat) (s : State) : Out3 :=
  onUnit (dom < 688)
    (if !s.managed || 320 ≤ dom || !(s.tile dom).quietEngines then s
     else
       let good := (List.range 8).filter fun p => !(s.phase (phaseNo dom p)).bad
       (good.drop 2).foldl (fun s p => s.updPhase (phaseNo dom p) fun x => { x with shed := true }) s)

/-! ### Staged turn-on and turn-off -/

/-- Whether a slice has no use for its HBM: its bytes stand in a slot, or are lost (R239, R240). -/
def Slice.idle (x : Slice) : Bool := match x.state with | .retired _ => true | .lost => true | _ => false

/-- Whether a domain outside tiles, Tarns and routers is out of use (R239, R405). -/
def State.idleDomain (s : State) (dom : Nat) : Bool :=
  if dom < 676 then (List.range 4).all fun i => (s.slice ((dom - 660) * 4 + i)).idle
  else if dom = 677 || dom = 678 then (List.range 8).all fun r => let x := s.range r; !(x.valid && bit x.members (dom - 677)) &&
      !s.mem.waitDevices.any (·.1 == dom - 677)
  else if 679 ≤ dom && dom < 685 then (s.port (dom - 679)).state == PortState.disabled && !s.portWanted (dom - 679)
  else false

/-- Whether a domain may turn on (R119, R404, R405): a compute domain follows its Tarn, and a lost domain stays OFF. -/
def State.mayTurnOn (s : State) (dom : Nat) : Bool :=
  if s.power.lost.contains dom then false
  else if dom < 320 then
    let x := s.tile dom
    !x.on && x.inUse && !s.power.halted &&
      (x.tarnPower == .active || (s.hood (hoodOf dom)).any fun g => g.on && g.dom == dom + 320)
  else if dom < 640 then
    let x := s.tile (dom - 320)
    x.tarnPower != .active && x.inUse && !s.power.halted
  else if dom < 660 then !Tab.get false s.planes.routerOn (dom - 640)
  else Tab.get false s.power.domOff dom

/-- Whether a domain may turn off (R119, R251, R405, R413): the compute domain of a tile in use only under a thermal halt. -/
def State.mayTurnOff (s : State) (dom : Nat) : Bool :=
  if dom < 320 then (s.tile dom).on && (!(s.tile dom).inUse || s.power.halted)
  else if dom < 640 then
    let x := s.tile (dom - 320)
    x.tarnPower != .off && !x.on && !(x.inUse && x.tarnPower != .active) && !(x.fenced && s.dumpPending) &&
      !s.hasStaging (dom - 320) true
  else if dom < 660 then
    let m := dom - 640
    8 ≤ m % 10 && Tab.get false s.planes.routerOn m &&
      (List.range 16).all fun i => let x := s.tile (m * 16 + i); !x.on && (s.owner (m * 16 + i)).isNone
  else !Tab.get false s.power.domOff dom && s.idleDomain dom

/-- `POWER_DOMAIN_TURN_ON` (R118, R119, R405, R407). -/
def execPowerDomainTurnOn (dom : Nat) (s : State) : Out3 :=
  onUnit (dom < 688)
    (if !s.managed || s.seq != .idle || !s.mayTurnOn dom || s.hasStaging dom true then s
     else s.queueStaging dom true)

/-- `POWER_DOMAIN_TURN_OFF` (R118, R119, R251, R405, R408): the Tarn of a tile in use goes to RETAIN over 4 µs, with no stages. -/
def execPowerDomainTurnOff (dom : Nat) (s : State) : Out3 :=
  onUnit (dom < 688)
    (if !s.managed || s.seq != .idle || !s.mayTurnOff dom || s.hasStaging dom false then s
     else if 320 ≤ dom && dom < 640 && (s.tile (dom - 320)).inUse then
       (s.advanceTo (s.cairn + 4000)).updTile (dom - 320) fun x => { x with tarnPower := .retain }
     else s.queueStaging dom false)

/-- A Tarn that becomes ACTIVE: one that was OFF is cleared before any operation fires (R119). -/
def Tile.tarnOn (x : Tile) : Tile :=
  if x.tarnPower == .off then { x.clear with tarnPower := .active, clearing := true } else { x with tarnPower := .active }

/-- Graphs with a channel word to or from a tile in a Saddle. -/
def State.wordGraphs (s : State) (t : Nat) : List Nat :=
  ((s.planes.words.filter fun w => !w.marker && (w.src == t || w.tile == t)).flatMap fun w =>
    [w.src, w.tile].filterMap fun u => (s.owner u).map (·.1)).dedup

/-- A tile's island goes dark (R119, R265): what its Saddles hold is discarded, each step that loses some is poisoned, and its Tarn
follows. -/
def State.tileOff (t : Nat) (s : State) : State :=
  let s1 := if s.power.halted then s else (s.wordGraphs t).foldl (fun s g => s.abandon g 1 [] []) s
  ((s1.dropWords t).updTile t fun x => { x with on := false }).restTarn t

/-- A domain as its staging leaves it (R265, R407, R408): the clock of a tile's or a router's island starts 500 ns later. -/
def State.switchDomain (dom : Nat) (on : Bool) (s : State) : State :=
  let s1 := if on && (dom < 320 || (640 ≤ dom && dom < 660)) then s.advanceTo (s.cairn + 500) else s
  if dom < 320 then
    if on then (State.stagedOn dom (s1.updTile dom fun x => { x with on := true })).retryCopies else s1.tileOff dom
  else if dom < 640 then
    s1.updTile (dom - 320) fun x => if on then x.tarnOn else x.tarnLost
  else if dom < 660 then if on then s1.routerOn (dom - 640) else s1.routerOff (dom - 640)
  else
    let s2 := { s with power := { s.power with domOff := Tab.put false dom (!on) s.power.domOff } }
    if !on then s2
    else if dom = 677 || dom = 678 then s2.enumerateWaiting (dom - 677)
    else if 679 ≤ dom && dom < 685 then s2.enablePort (dom - 679)
    else s2

/-- A staging that has ended (R407, R408): a domain that must no longer turn off stays on (R251, R405), and one lost meanwhile stays
OFF (R404). What its end asks for, a Tarn's turn-off behind its tile's, stands in the queue with the rest. -/
def State.finishStaging (h : Nat) (g : Staging) (rest : List Staging) (s : State) : State :=
  let s0 := s.advanceTo g.at_
  let keeps := if g.on then s0.power.lost.contains g.dom else !s0.mayTurnOff g.dom
  let s1 := s0.setHood h rest
  let s2 := (if keeps then s1 else s1.switchDomain g.dom g.on).restorePoint g
  s2.setHood h (s2.nextStaging (s2.hood h))

/-- `POWER_STAGE` (R407 to R409): the next of 16 stages of 250 ns, or one Cairn cycle of waiting while `low` says that another
domain of the neighbourhood is below its warning margin; after the last stage the domain has switched. -/
def execPowerStage (hood : Nat) (low : Bool) (s : State) : Out3 :=
  onUnit (hood < 29)
    (match s.hood hood with
     | [] => s
     | g :: q =>
       if !s.managed then s
       else if g.stage = 16 then s.finishStaging hood g q
       else if g.on && low && 1 ≤ g.stage then
         let from_ := cairnMax s.cairn g.at_
         let s1 := s.advanceTo (from_ + 4)
         s1.setHood hood ({ g with at_ := s1.cairn, waited := g.waited + cairnSince from_ s1.cairn } :: q)
       else (s.advanceTo g.at_).setHood hood ({ g with stage := g.stage + 1, at_ := g.at_ + 250 } :: q))

/-- `POWER_STAGE_STALLED` (R408): a staging has waited 1 ms, and the set point falls one step. -/
def execPowerStageStalled (hood : Nat) (s : State) : Out3 :=
  onUnit (hood < 29)
    (match s.hood hood with
     | [] => s
     | g :: q =>
       if !s.managed || !g.on || g.stalled || g.stage = 0 || g.stage = 16 then s
       else
         let s1 := s.advanceTo (cairnMax s.cairn g.at_ + (1000000 - g.waited))
         let g1 := { g with
           at_ := s1.cairn, waited := max g.waited 1000000, stalled := true, lowered := 910 ≤ s1.power.setMhz }
         let s2 := (s1.setHood hood (g1 :: q)).raise 0x1708 g1.waited g.dom 0
         { s2 with power := { s2.power with
             setMhz := max 900 (s2.power.setMhz - 10), stallSteps := s2.power.stallSteps + 1 } })

/-! ### Limits -/

/-- The readings of a sample in the registers (PWR_STATUS, HS_VIN, HS_IIN, MG_TEMP). -/
def State.takeReading (r : PowerReading) (s : State) : State :=
  let s1 := s.seeInput r.mv
  { s1 with
    power := { s1.power with
      inputMv := r.mv % 2 ^ 16, inputW := r.w10 % 2 ^ 12, computeTemp := min r.computeC 255, ioTemp := min r.ioC 255
      hbmTemp := min r.hbmC 255, lastSample := s1.cairn }
    hotSwap := { s1.hotSwap with iin := r.iNow % 2 ^ 16 } }

/-- The set point and the flags after a sample (R410, R416): five steps where the current has just come above its limit, and the
flags clear where the set point, with nothing to limit it, stands at `CLK_MAX_MHZ`. -/
def Power.adjust (r : PowerReading) (now : Nat) (p : Power) : Power :=
  let above := p.limit < r.w10 * 70000
  let current := 4450 < r.i1
  let cut := (if above then 10 else 0) + if current then (if p.overCurrent then 10 else 50) else 0
  let low := max 900 (p.setMhz - cut)
  let calm := !above && !current && r.computeC ≤ 105 && r.ioC ≤ 100 && r.w100 * 100 * 70000 < 95 * p.limit
  let up := calm && p.setMhz < p.top && 1000000 ≤ cairnSince p.lastRaise now
  let f := if up then min p.top (p.setMhz + 10) else low
  let clear := calm && p.top ≤ f
  { p with
    setMhz := f, limPower := !clear && (p.limPower || above), limCurrent := !clear && (p.limCurrent || current)
    limThermal := !clear && p.limThermal, lastRaise := if up then now else p.lastRaise, overCurrent := current }

/-- `POWER_LIMIT_UNMET`, once while the set point at 0.90 GHz is not enough (R410). -/
def State.noteUnmet (r : PowerReading) (s : State) : State :=
  let above := s.power.limit < r.w10 * 70000
  let unmet := above && s.power.setMhz == 900
  let s1 := { s with power := { s.power with unmet := above && (s.power.unmet || unmet) } }
  if unmet && !s.power.unmet then (s1.alert 2).raise 0x1709 r.w10 (s.power.limit / 70000) 0 else s1

/-- `POWER_SAMPLE` (R397, R410, R416): every 100 µs; above the limit the stress sessions end first. -/
def execPowerSample (r : PowerReading) (s : State) : Out3 :=
  .next (if !s.managed then s
    else
      let s1 := (s.advanceTo (s.power.lastSample + 100000)).takeReading r
      let s2 := if s1.power.limit < r.w10 * 70000 then s1.endSessions else s1
      State.noteUnmet r { s2 with power := s2.power.adjust r s2.cairn })

/-! ### Droop -/

/-- The set frequency of a tile's island in kHz (R414, R417). -/
def State.tileKhz (s : State) (t : Nat) : Nat :=
  match (s.tile t).use with
  | .stress _ _ _ => min 2000000 (s.power.setMhz * 1040)
  | _ => s.power.setMhz * if (s.tile t).capped then 800 else 1000

/-- The set frequency of an island in kHz (R15, R414). -/
def islandKhz (s : State) (i : Nat) : Nat :=
  if i < 320 then s.tileKhz i
  else if i < 340 then s.power.setMhz * 1000
  else if i < 356 || i = 367 then 2450000
  else if 359 ≤ i && i < 365 then 1562500
  else 1000000

/-- The die of an island of the two compute dies. -/
def islandDie (i : Nat) : Nat := if i < 320 then tileDie i else if i < 340 then (i - 320) / 10 else (i - 340) / 8

/-- Whether a Saddle joins two islands, the lower number first (R244, R250): a tile and its router, two routers of a die, a spine's
router and a memory leaf of its die, a spine's router and an island of the I/O die, the bridge among them. -/
def saddleJoins (i j : Nat) : Bool :=
  let spine := 320 ≤ i && i < 340 && (i - 320) % 10 < 8
  if j < 320 then false
  else if j < 340 then if i < 320 then j == 320 + i / 16 else islandDie i == islandDie j && i != j
  else if j < 356 then spine && islandDie i == islandDie j
  else spine && j < 368

/-- A Saddle's number: its lower island and its higher one. -/
def saddleNo (a b : Nat) : Nat := min a b * 368 + max a b

/-- Whether an island's clock runs. -/
def State.islandOn (s : State) (i : Nat) : Bool :=
  if i < 320 then (s.tile i).on
  else if i < 340 then Tab.get false s.planes.routerOn (i - 320)
  else !Tab.get false s.power.domOff (i + 320)

/-- The Saddle neighbours of an island whose clocks run. -/
def State.saddleMates (s : State) (i : Nat) : List Nat :=
  (List.range 368).filter fun j => saddleJoins (min i j) (max i j) && s.islandOn j

/-- The quarters of a period among `xs` that lie within the last 16 periods at `khz`. -/
def State.quarters (s : State) (khz : Nat) (xs : List Nat) : List Nat := xs.filter fun a => cairnSince a s.cairn * khz < 16000000

/-- Quarters that an island has stretched within its last 16 set periods (R415). -/
def State.stretchOf (s : State) (i : Nat) : List Nat := s.quarters (islandKhz s i) (Tab.get [] s.power.stretch i)

/-- Quarters that the two islands of a Saddle have stretched apart within 16 periods of the faster one (R264, R418). -/
def State.apartOf (s : State) (i j : Nat) : List Nat :=
  s.quarters (max (islandKhz s i) (islandKhz s j)) (Tab.get [] s.power.apart (saddleNo i j))

/-- Islands that stretch in step with those of `done`, found in `fuel` rounds, and those whose own budget forbids it (R415, R418):
a neighbour stretches where another quarter apart would pass 4 cycles in 16. -/
def State.inStep (s : State) : Nat → List Nat → List Nat → List Nat × List Nat
  | 0, done, short => (done, short)
  | fuel + 1, done, short =>
    let new := (done.flatMap fun i => (s.saddleMates i).filter fun j =>
      !done.contains j && !short.contains j && 16 ≤ (s.apartOf i j).length).dedup
    if new.isEmpty then (done, short)
    else s.inStep fuel (done ++ new.filter fun j => (s.stretchOf j).length < 16)
      (short ++ new.filter fun j => 16 ≤ (s.stretchOf j).length)

/-- A quarter of a period stretched by the islands `is`, at once (R415, R418). -/
def State.stretchAll (is : List Nat) (s : State) : State :=
  { s with power := { s.power with
      stretch := is.foldl (fun t i => Tab.put [] i (s.stretchOf i ++ [s.cairn]) t) s.power.stretch
      apart := is.foldl (fun t i => ((s.saddleMates i).filter fun j => !is.contains j).foldl
        (fun t j => Tab.put [] (saddleNo i j) (s.apartOf i j ++ [s.cairn]) t) t) s.power.apart } }

/-- `DROOP_STRETCH` (R264, R415, R418): a cycle of the island is stretched by a quarter of its period, within 4 periods in any 16;
Saddle neighbours that would else drift too far from it stretch in step. DEDUCED (log entry 71): the stretch of the one island is
added to that of the other, and only what they stretch at one time leaves the difference as it is; where the budget of a neighbour
that would have to stretch is spent, none of them stretches. -/
def execDroopStretch (island : Nat) (s : State) : Out3 :=
  onUnit (island < 368)
    (if !s.managed || !s.islandOn island then s
     else if 16 ≤ (s.stretchOf island).length then s.raise 0x170D 0 island 0
     else
       let r := s.inStep 368 [island] []
       if r.2.isEmpty then s.stretchAll r.1 else s.raiseAll (r.2.map fun j => ⟨0x170D, 0, j, 0⟩))

/-! ### Heat -/

/-- The limit of an island's sensors in °C (R413). -/
def islandLimit (i : Nat) : Nat := if i < 356 then 105 else 100

/-- Thermal limiting begins, once (R413). -/
def State.limitHeat (celsius island : Nat) (s : State) : State :=
  if s.power.limThermal then s
  else (State.alert 1 { s with power := { s.power with limThermal := true } }).raise 0x170A celsius island 0

/-- Whether an island is that of a tile under stress, whose heat limits nothing by itself (R378, R413). -/
def State.stressed (s : State) (island : Nat) : Bool :=
  island < 320 && match (s.tile island).use with | .stress _ _ _ => true | _ => false

/-- `THERMAL_STEP` (R413): every 1 ms while a sensor is above its limit, but for that of a tile under stress. -/
def execThermalStep (celsius island : Nat) (hot : Bool) (s : State) : Out3 :=
  onUnit (island < 368)
    (if !s.managed || !(hot || islandLimit island < celsius) || s.stressed island then s
     else
       let s1 := s.advanceTo (s.power.lastThermal + 1000000)
       State.limitHeat celsius island { s1 with power := { s1.power with
         setMhz := max 900 (s1.power.setMhz - 10), lastThermal := s1.cairn } })

/-- `THERMAL_HALT` (R357, R408, R413): a compute die has been above 115 °C for 1 ms; every compute domain turns off, and the Tarns
of tiles in use go to RETAIN behind it. -/
def execThermalHalt (celsius island : Nat) (s : State) : Out3 :=
  onUnit (island < 368)
    (if !s.managed || s.power.halted || celsius ≤ 115 || 356 ≤ island then s
     else
       let s1 := ((s.limitHeat celsius island).alert 1).raise 0x170B celsius island 0
       let s2 := (s1.graphIds.foldl (fun s g => s.abandon g 6 [] []) s1).endSessions
       let s3 := if s2.monitor.testing.isSome then s2.preemptSlice else s2
       let s4 := { s3 with power := { s3.power with halted := true } }
       (List.range 320).foldl (fun s t => (((s.unstage t).unstage (t + 320)).dropWords t).quiet t) s4)

/-- The Tarn of a tile in use after a thermal halt: a bound tile's is cleared (R109, R413). -/
def Tile.resume (x : Tile) : Tile :=
  match x.use with
  | .bound _ _ => { x.clear with clearing := true }
  | .shadow _ => { x.clear with clearing := true }
  | _ => x

/-- `THERMAL_RESUME` (R407, R413): every compute sensor has been below 95 °C for 100 ms; the tiles in use turn on. -/
def execThermalResume (celsius island : Nat) (s : State) : Out3 :=
  onUnit (island < 368)
    (if !s.managed || !s.power.halted || 95 ≤ celsius then s
     else
       let s1 := ({ s with power := { s.power with halted := false } }).raise 0x170C celsius island 0
       (List.range 320).foldl (fun s t => if (s.tile t).inUse then (s.updTile t (·.resume)).turnTileOn t else s) s1)

/-- `THERMAL_TRIP` (R413): the I/O die has been above 115 °C for 1 ms. -/
def execThermalTrip (celsius island : Nat) (s : State) : Out3 :=
  onUnit (island < 368)
    (if !s.managed || celsius ≤ 115 || island < 356 then s else (s.limitHeat celsius island).openSwitch 5)

/-! ### The clock reference -/

/-- `CLOCK_REF_LOST` (R421). -/
def execClockRefLost (s : State) : Out3 :=
  .next (if !s.managed || s.power.refHoldover then s
    else ({ s with power := { s.power with refHoldover := true } }).raise 0x170E s.cairn 0 0)

/-- `CLOCK_REF_RESTORED` (R421): good again for 10 ms. -/
def execClockRefRestored (s : State) : Out3 :=
  .next (if !s.managed || !s.power.refHoldover then s
    else ({ s with power := { s.power with refHoldover := false } }).raise 0x170F s.cairn 0 0)

/-- `CLOCK_LOST` (R421): recorded in the ledger, and the power-off path. -/
def execClockLost (s : State) : Out3 :=
  .next (if !s.managed then s else (s.ledgerEvent 0x1F06 0 0 0).openSwitch 6)

/-! ### Loops -/

/-- V(f) of R401 in units of 1/30,000 mV, for f in kHz. DESIGN CHOICE (log entry 77): below 0.90 GHz, where a capped tile may run
and R401 gives no point, it stays at 600 mV. -/
def voltageOf (f : Nat) : Nat :=
  if f ≤ 1200000 then 600 * 30000 + (f - 900000) * 5
  else if f ≤ 1500000 then 650 * 30000 + (f - 1200000) * 6
  else if f ≤ 1850000 then 710 * 30000 + (f - 1500000) * 6
  else 780 * 30000 + (f - 1850000) * 8

/-- Whether a domain's set point at `f` kHz with a trim of so many steps of 2.5 mV lies above 950 mV (R401, R423). -/
def overCeiling (f : Nat) (trim : Int) : Bool := 950 * 30000 < (voltageOf f : Int) + trim * 75000

/-- The trim of a domain; one not listed is +40 mV (R429). -/
def State.trimOf (s : State) (dom : Nat) : Int := Tab.get 16 s.power.trims dom

/-- A set point kept within 0.50 V and 0.95 V (R401). -/
def clampPoint (v : Int) : Int := max (500 * 30000) (min (950 * 30000) v)

/-- The set point of a domain in units of 1/30,000 mV (R401). -/
def State.setPoint (s : State) (dom : Nat) : Int :=
  if dom < 320 then clampPoint (voltageOf (s.tileKhz dom) + s.trimOf dom * 75000)
  else if dom < 640 then (if (s.tile (dom - 320)).tarnPower == .retain then 500 else 750) * 30000
  else if dom < 660 then clampPoint (voltageOf (s.power.setMhz * 1000) + s.trimOf dom * 75000)
  else if 679 ≤ dom && dom < 685 then 850 * 30000
  else 750 * 30000

/-- What a domain's regulators hold, in units of 1/600,000 mV: its set point, and 5 % less on the compute rail of a tile under
stress (R378, R401). -/
def State.railPoint (s : State) (dom : Nat) : Int := s.setPoint dom * if s.stressed dom then 19 else 20

/-- `VOLTAGE_LOOP` (R401, R417, R423): the trim moves by `steps` of 2.5 mV within −40 mV and +80 mV. One that would need more
than 950 mV caps the tile for as long as it would, and where the cap of 20 % is not enough the tile is FENCED. -/
def execVoltageLoop (dom : Nat) (steps : Int) (s : State) : Out3 :=
  onUnit (dom < 688)
    (if !s.managed || (320 ≤ dom && dom < 640) || 660 ≤ dom then s
     else
       let want := s.trimOf dom + steps
       let f := s.power.setMhz * 1000
       let s1 := { s with power := { s.power with trims := Tab.put 16 dom (max (-16) (min 32 want)) s.power.trims } }
       if 320 ≤ dom then s1
       else if !overCeiling f want then s1.updTile dom fun x =>
         if x.ceilingCap then { x with ceilingCap := false, capped := 2 ≤ s1.failedPhases dom } else x
       else if overCeiling (f * 8 / 10) want then s1.fenceNow dom 0x1706
       else (s1.updTile dom fun x => { x with ceilingCap := true }).capTile dom)

/-- `FILZOR_EQUALISATION_UPDATE` (R423): every 1 ms in `UP`; `cxl` is a CXL port that the loop finds it cannot hold, and that the
module retrains itself (R458). -/
def execFilzorEqualisationUpdate (p taps : Nat) (s : State) (cxl : Option Nat := none) : Out3 :=
  onUnit (p < 6 && cxl.all (· < 2))
    (let s1 := if (s.port p).state == PortState.up then s.updPort p fun x => { x with taps := taps } else s
     cxl.elim s1 fun c => s1.startRetrain 3 c)

/-- `HBM_TRAINING_UPDATE` (R423): every 100 ms for each slice group; one that the loop cannot hold is retrained by the module itself
(R458). -/
def execHbmTrainingUpdate (sg vals : Nat) (s : State) (held : Bool := true) : Out3 :=
  onUnit (sg < 16)
    (if !s.inService then s
     else
       let s1 := { s with power := { s.power with hbmTrain := Tab.put 0 sg vals s.power.hbmTrain } }
       if held then s1 else s1.startRetrain 2 sg)

end Sys2Proof.Machine
end

