-- ==== Sys2Proof/Machine/Sideband.lean ====
section
/-! DEFINITION. The hot-swap controller, the pins of J1 and the management sideband (R399, R439, R496 to R502). -/

namespace Sys2Proof.Machine

/-! ### Hot swap -/

/-- `INPUT_SWITCH_CLOSE` (R399, R425, R496): presence, range and enables have held, and the input is `mv`. -/
def execInputSwitchClose (mv : Nat) (s : State) : Out3 :=
  .next (if s.hotSwap.switchOn || s.hotSwap.pwrDis || s.hotSwap.powerOff || mv < 44000 || 57000 < mv then s
    else State.coldStart { s with hotSwap := { s.hotSwap with
      present := true, inRange := true, vin := mv, switchOn := true, ramping := true } })

/-- `MODULE_REMOVAL` (R497). -/
def execModuleRemoval (s : State) : Out3 :=
  .next (State.openSwitch 7 { s with hotSwap := { s.hotSwap with present := false } })

/-- `PWR_DIS_HIGH` (R497). -/
def execPwrDisHigh (s : State) : Out3 := .next (State.openSwitch 8 { s with hotSwap := { s.hotSwap with pwrDis := true } })

/-- `PWR_DIS_LOW` (R496). -/
def execPwrDisLow (s : State) : Out3 := .next { s with hotSwap := { s.hotSwap with pwrDis := false } }

/-- `STANDBY_POWER_LOSS` (R424, R496, R500): the controller's own state resets as well. -/
def execStandbyPowerLoss (s : State) : Out3 := .next { s.bare with hotSwap := .reset }

/-- `ATTN_BLINK` (R498): in `FAILED`, with the switch closed and no shutdown done, every 500 ms. -/
def execAttnBlink (s : State) : Out3 :=
  .next (if !s.hotSwap.switchOn || s.shutdown.done || s.devState != .failed then s
    else
      let s1 := s.advanceTo (s.hotSwap.lastBlink + 500000000)
      { s1 with hotSwap := { s1.hotSwap with attn := !s1.hotSwap.attn, lastBlink := s1.cairn } })

/-- `POWER_OFF` (R497, HS_CTRL): `pec` is false where the packet error check failed. -/
def execPowerOff (v : Bool) (pec : Bool) (s : State) : Out3 :=
  .next (if !pec then s
    else
      let s1 := { s with hotSwap := { s.hotSwap with powerOff := v } }
      if v then s1.openSwitch 9 else s1)

/-- `POWER_CYCLE` (R497, HS_CTRL): no effect while `POWER_OFF` is 1. -/
def execPowerCycle (pec : Bool) (s : State) : Out3 :=
  .next (if !pec || s.hotSwap.powerOff then s else s.openSwitch 9)

/-! ### The management set -/

/-- The management set answers its address (R499). -/
def State.mgmtAnswers (s : State) : Bool := s.hotSwap.switchOn && s.fw.running

/-- `MG_COORD` with `VALID` (R267, R502). -/
def State.takeCoord (m : Nat) (s : State) : State :=
  let f := s.fabric
  if !idIn f.dims m || (f.everUp && f.source != 0 && f.id != m) then s.alert 4
  else if f.source = 1 && f.id = m then s
  else (State.refreshId { s with fabric := { f with sideband := some m } }).lockSelf

/-- `MG_COORD_WRITE` (R502). -/
def execMgCoordWrite (v : Nat) (pec : Bool) (s : State) : Out3 :=
  .next (if !pec || !s.mgmtAnswers then s
    else
      let s1 := { s with mgmt := { s.mgmt with coord := v % 2 ^ 15 } }
      if bit v 14 then s1.takeCoord (v % 2 ^ 14) else s1)

/-- `MG_SHUTDOWN_REQ` (R439). -/
def execMgShutdownReq (pec : Bool) (s : State) : Out3 := .next (if !pec || !s.mgmtAnswers then s else s.startShutdown)

/-- `SMBUS_ALERT_RESPONSE` (R500): answered while `SMBALERT_N` is low. -/
def execSmbusAlertResponse (s : State) : Out3 :=
  .next (if !s.mgmtAnswers || s.mgmt.alert &&& s.mgmt.alertEn = 0 then { s with mgmt := { s.mgmt with answer := none } }
    else { s with mgmt := { s.mgmt with answer := some (0x50 + Config.sledAddress % 8) } })

/-- Registers of the management set with no row of their own (R501). DESIGN CHOICE (log entry 85): `CAP_W` reads back as written, and is
clamped where it is used. -/
def State.writeMgmt (off : Nat) (b : List Byte) (s : State) : State :=
  let v := leNat b
  if off = 0x18 && b.length = 4 then { s with power := { s.power with capW := v % 2 ^ 12 } }
  else if off = 0x24 && b.length = 2 then { s with mgmt := { s.mgmt with alert := s.mgmt.alert &&& (0x1F - v % 2 ^ 5) } }
  else if off = 0x26 && b.length = 2 then { s with mgmt := { s.mgmt with alertEn := v % 2 ^ 5 } }
  else if off = 0x28 && b.length = 2 then { s with mgmt := { s.mgmt with resultIdx := v } }
  else s

/-- `HS_CAUSE` (R497): `UNREAD` is cleared by a write of 1. -/
def State.writeHotSwap (off : Nat) (b : List Byte) (s : State) : State :=
  if off = 1 && b.length = 1 && bit (leNat b) 7 then { s with hotSwap := { s.hotSwap with unread := false } } else s

/-- `SMBUS_REGISTER_WRITE` (R499, R501). `HS_CTRL`, `MG_COORD` and `MG_SHUTDOWN` have rows of their own. -/
def execSmbusRegisterWrite (set_ : SmbusSet) (off : Nat) (bytes : List Byte) (pec : Bool) (s : State) : Out3 :=
  match set_ with
  | .hotSwap => onUnit (off < 256 && off != 6) (if pec then s.writeHotSwap off bytes else s)
  | .management =>
    onUnit (off < 256 && off != 0x1C && off != 0x20) (if pec && s.mgmtAnswers then s.writeMgmt off bytes else s)

end Sys2Proof.Machine
end

