-- ==== Sys2Proof/Machine/Dispatch.lean ====
section
/-! DEFINITION. One meaning for each command. -/

namespace Sys2Proof.Machine

/-- The effect of a command on everything but the queue. -/
def exec (i : Instr) (s : State) : Host.Outcome State Fault Refusal :=
  match i with
  | .mma t k u => Sys2Proof.Machine.execMma t k u s
  | .mtrn t k u => Sys2Proof.Machine.execMtrn t k u s
  | .vadd t k u => Sys2Proof.Machine.execVadd t k u s
  | .vsub t k u => Sys2Proof.Machine.execVsub t k u s
  | .vmul t k u => Sys2Proof.Machine.execVmul t k u s
  | .vfma t k u => Sys2Proof.Machine.execVfma t k u s
  | .vmax t k u => Sys2Proof.Machine.execVmax t k u s
  | .vmin t k u => Sys2Proof.Machine.execVmin t k u s
  | .vcmp t k u => Sys2Proof.Machine.execVcmp t k u s
  | .vsel t k u => Sys2Proof.Machine.execVsel t k u s
  | .vcvt t k u => Sys2Proof.Machine.execVcvt t k u s
  | .vscale t k u => Sys2Proof.Machine.execVscale t k u s
  | .vrsum t k u => Sys2Proof.Machine.execVrsum t k u s
  | .vrmax t k u => Sys2Proof.Machine.execVrmax t k u s
  | .vrssq t k u => Sys2Proof.Machine.execVrssq t k u s
  | .vabsmax t k u => Sys2Proof.Machine.execVabsmax t k u s
  | .vupd t k u => Sys2Proof.Machine.execVupd t k u s
  | .xcomb t k u => Sys2Proof.Machine.execXcomb t k u s
  | .fexp t k u => Sys2Proof.Machine.execFexp t k u s
  | .flog t k u => Sys2Proof.Machine.execFlog t k u s
  | .frcp t k u => Sys2Proof.Machine.execFrcp t k u s
  | .frsq t k u => Sys2Proof.Machine.execFrsq t k u s
  | .fsincos t k u => Sys2Proof.Machine.execFsincos t k u s
  | .topk t k u => Sys2Proof.Machine.execTopk t k u s
  | .sload t k u => Sys2Proof.Machine.execSload t k u s
  | .sstore t k u => Sys2Proof.Machine.execSstore t k u s
  | .sgather t k u => Sys2Proof.Machine.execSgather t k u s
  | .sscatter t k u => Sys2Proof.Machine.execSscatter t k u s
  | .smcast t k u => Sys2Proof.Machine.execSmcast t k u s
  | .xdisp t k u => Sys2Proof.Machine.execXdisp t k u s
  | .csend t k u => Sys2Proof.Machine.execCsend t k u s
  | .crecv t k u => Sys2Proof.Machine.execCrecv t k u s
  | .wload t k u => Sys2Proof.Machine.execWload t k u s
  | .chsend t k u => Sys2Proof.Machine.execChsend t k u s
  | .chrecv t k u => Sys2Proof.Machine.execChrecv t k u s
  | .chpoll t k u => Sys2Proof.Machine.execChpoll t k u s
  | .scalc t k u => Sys2Proof.Machine.execScalc t k u s
  | .psend t k u => Sys2Proof.Machine.execPsend t k u s
  | .summit t k u => Sys2Proof.Machine.execSummit t k u s
  | .operationComplete t id chk => Sys2Proof.Machine.execOperationComplete t id chk s
  | .memoryOperationComplete t id bad => Sys2Proof.Machine.execMemoryOperationComplete t id s bad
  | .localReplay t id u => Sys2Proof.Machine.execLocalReplay t id u s
  | .loadStepNotice t k => Sys2Proof.Machine.execLoadStepNotice t k s
  | .tokenArrival t q => Sys2Proof.Machine.execTokenArrival t q s
  | .creditReturn t q => Sys2Proof.Machine.execCreditReturn t q s
  | .channelWordArrival t c bad => Sys2Proof.Machine.execChannelWordArrival t c bad s
  | .expertRowArrival t q bad busy held back => Sys2Proof.Machine.execExpertRowArrival t q s bad busy held back
  | .expertCountRecord t q bad busy held back => Sys2Proof.Machine.execExpertCountRecord t q s bad busy held back
  | .mplaneResponse t id pc bad busy => Sys2Proof.Machine.execMplaneResponse t id pc bad s busy
  | .mplaneRequest t id pc bad sym busy held back => Sys2Proof.Machine.execMplaneRequest t id pc bad sym busy s held back
  | .multicastBranchRelease t id pc r b held back => Sys2Proof.Machine.execMulticastBranchRelease t id pc s r b held back
  | .summitArrive t id bad => Sys2Proof.Machine.execSummitArrive t id s bad
  | .summitRelease t id bad => Sys2Proof.Machine.execSummitRelease t id s bad
  | .abandonFlit t => Sys2Proof.Machine.execAbandonFlit t s
  | .abandonDrainDone g => Sys2Proof.Machine.execAbandonDrainDone g s
  | .tarnClearDone t => Sys2Proof.Machine.execTarnClearDone t s
  | .tarnPatrolRead t u => Sys2Proof.Machine.execTarnPatrolRead t u s
  | .tarnPatrolWriteBack t => Sys2Proof.Machine.execTarnPatrolWriteBack t s
  | .sideRead t space addr u => Sys2Proof.Machine.execSideRead t space addr u s
  | .sideAccessTimeout t unit_ => Sys2Proof.Machine.execSideAccessTimeout t unit_ s
  | .tarnStagingWrite addr bytes => Sys2Proof.Machine.execTarnStagingWrite addr bytes s
  | .tarnStagingRead addr n => Sys2Proof.Machine.execTarnStagingRead addr n s
  | .stagedTileTimeout t => Sys2Proof.Machine.execStagedTileTimeout t s
  | .graphLoad d img dead => Sys2Proof.Machine.execGraphLoad d img s dead
  | .graphUnload d => Sys2Proof.Machine.execGraphUnload d s
  | .graphUnloadComplete g => Sys2Proof.Machine.execGraphUnloadComplete g s
  | .classPolicy d => Sys2Proof.Machine.execClassPolicy d s
  | .statusRead d => Sys2Proof.Machine.execStatusRead d s
  | .burgeePass t => Sys2Proof.Machine.execBurgeePass t s
  | .burgeeSwitchComplete t => Sys2Proof.Machine.execBurgeeSwitchComplete t s
  | .scheduleViolation g circle => Sys2Proof.Machine.execScheduleViolation g circle s
  | .cyclicWait g circle => Sys2Proof.Machine.execCyclicWait g circle s
  | .screeRefill t q => Sys2Proof.Machine.execScreeRefill t q s
  | .queueDepthSample g => Sys2Proof.Machine.execQueueDepthSample g s
  | .streamOpen d prompt => Sys2Proof.Machine.execStreamOpen d prompt s
  | .streamExtend d prompt => Sys2Proof.Machine.execStreamExtend d prompt s
  | .streamCancel d => Sys2Proof.Machine.execStreamCancel d s
  | .streamQuery d => Sys2Proof.Machine.execStreamQuery d s
  | .streamFinalRecord idx => Sys2Proof.Machine.execStreamFinalRecord idx s
  | .deadlineExpiry idx => Sys2Proof.Machine.execDeadlineExpiry idx s
  | .periodSelection g => Sys2Proof.Machine.execPeriodSelection g s
  | .periodBatchIssue g => Sys2Proof.Machine.execPeriodBatchIssue g s
  | .sliceBoundary g => Sys2Proof.Machine.execSliceBoundary g s
  | .batchDelivery g kind seq bad => Sys2Proof.Machine.execBatchDelivery g kind seq s bad
  | .powerForecast g => Sys2Proof.Machine.execPowerForecast g s
  | .harvest g kind seq => Sys2Proof.Machine.execHarvest g kind seq s
  | .kvPageMigration g => Sys2Proof.Machine.execKvPageMigration g s
  | .kvPageMoveDone g idx entry ok => Sys2Proof.Machine.execKvPageMoveDone g idx entry ok s
  | .memCopy d dead => Sys2Proof.Machine.execMemCopy d dead s
  | .hostCopy d data dead => Sys2Proof.Machine.execHostCopy d data dead s
  | .hbmPatrolRead sg slice wrong => Sys2Proof.Machine.execHbmPatrolRead sg slice wrong s
  | .retireFrameCopied slice dead => Sys2Proof.Machine.execRetireFrameCopied slice s dead
  | .cxlAccessTimeout t id pc => Sys2Proof.Machine.execCxlAccessTimeout t id pc s
  | .cxlRangeLost r port => Sys2Proof.Machine.execCxlRangeLost r port s
  | .cxlDeviceInsert port kind serial gib => Sys2Proof.Machine.execCxlDeviceInsert port kind serial gib s
  | .cxlRemove d => Sys2Proof.Machine.execCxlRemove d s
  | .cxlRemoveProceed r => Sys2Proof.Machine.execCxlRemoveProceed r s
  | .cxlEventRecord r => Sys2Proof.Machine.execCxlEventRecord r s
  | .bar2Read off n dead => Sys2Proof.Machine.execBar2Read off n s dead
  | .bar2Write off bytes dead => Sys2Proof.Machine.execBar2Write off bytes s dead
  | .fzSignalDetect p => Sys2Proof.Machine.execFzSignalDetect p s
  | .fzEqualiseDone p => Sys2Proof.Machine.execFzEqualiseDone p s
  | .fzEqualiseTimeout p => Sys2Proof.Machine.execFzEqualiseTimeout p s
  | .fzAlignDone p failed => Sys2Proof.Machine.execFzAlignDone p failed s
  | .fzAlignTimeout p => Sys2Proof.Machine.execFzAlignTimeout p s
  | .fzIdentifyExchange p far => Sys2Proof.Machine.execFzIdentifyExchange p far s
  | .fzHeldRetry p far => Sys2Proof.Machine.execFzHeldRetry p far s
  | .fzDownRetry p => Sys2Proof.Machine.execFzDownRetry p s
  | .fzCodewordReceive p cw frac => Sys2Proof.Machine.execFzCodewordReceive p cw s frac
  | .fzLockLoss p => Sys2Proof.Machine.execFzLockLoss p s
  | .fzRetrainDone p ok => Sys2Proof.Machine.execFzRetrainDone p ok s
  | .fzRetrainTimeout p => Sys2Proof.Machine.execFzRetrainTimeout p s
  | .fzBeaconSend p frac => Sys2Proof.Machine.execFzBeaconSend p s frac
  | .fzTimeHoldover => Sys2Proof.Machine.execFzTimeHoldover s
  | .fzPacketForward p depth => Sys2Proof.Machine.execFzPacketForward p depth s
  | .readReq dead => Sys2Proof.Machine.execReadReq s dead
  | .write dead => Sys2Proof.Machine.execWrite s dead
  | .readResp => Sys2Proof.Machine.execReadResp s
  | .writeAck => Sys2Proof.Machine.execWriteAck s
  | .openConn => Sys2Proof.Machine.execOpenConn s
  | .openAck => Sys2Proof.Machine.execOpenAck s
  | .openBusy => Sys2Proof.Machine.execOpenBusy s
  | .closeConn => Sys2Proof.Machine.execCloseConn s
  | .reclaim => Sys2Proof.Machine.execReclaim s
  | .staleConn => Sys2Proof.Machine.execStaleConn s
  | .fzResendTimeout slot seq closing => Sys2Proof.Machine.execFzResendTimeout slot seq s closing
  | .fzOpenRetry slot => Sys2Proof.Machine.execFzOpenRetry slot s
  | .fzReceiverIdle slot => Sys2Proof.Machine.execFzReceiverIdle slot s
  | .fzSenderIdle slot => Sys2Proof.Machine.execFzSenderIdle slot s
  | .fabricTable d => Sys2Proof.Machine.execFabricTable d s
  | .fabricEpoch d => Sys2Proof.Machine.execFabricEpoch d s
  | .fzEpochSwitch => Sys2Proof.Machine.execFzEpochSwitch s
  | .fzEpochRelease => Sys2Proof.Machine.execFzEpochRelease s
  | .windowOpen d => Sys2Proof.Machine.execWindowOpen d s
  | .windowClose d => Sys2Proof.Machine.execWindowClose d s
  | .windowCloseDone idx => Sys2Proof.Machine.execWindowCloseDone idx s
  | .windowImport d => Sys2Proof.Machine.execWindowImport d s
  | .windowUnimport d => Sys2Proof.Machine.execWindowUnimport d s
  | .doorbellPoll page => Sys2Proof.Machine.execDoorbellPoll page s
  | .descriptorFetch entries => Sys2Proof.Machine.execDescriptorFetch entries s
  | .skip d => Sys2Proof.Machine.execSkip d s
  | .nop d => Sys2Proof.Machine.execNop d s
  | .heartbeatWrite => Sys2Proof.Machine.execHeartbeatWrite s
  | .functionLevelReset => Sys2Proof.Machine.execFunctionLevelReset s
  | .hotReset => Sys2Proof.Machine.execHotReset s
  | .d3hotToD0 => Sys2Proof.Machine.execD3hotToD0 s
  | .hostLinkDown => Sys2Proof.Machine.execHostLinkDown s
  | .perstNAssert => Sys2Proof.Machine.execPerstNAssert s
  | .pcieConfigRequest f v => Sys2Proof.Machine.execPcieConfigRequest s f v
  | .msixUnmask v mask entry => Sys2Proof.Machine.execMsixUnmask v s mask entry
  | .registerWrite w => Sys2Proof.Machine.execRegisterWrite w s
  | .setupLockSet w => Sys2Proof.Machine.execSetupLockSet w s
  | .ringCtrlWrite w => Sys2Proof.Machine.execRingCtrlWrite w s
  | .dbBaseWrite w => Sys2Proof.Machine.execDbBaseWrite w s
  | .evtRingWrite w => Sys2Proof.Machine.execEvtRingWrite w s
  | .streamTableBaseWrite w => Sys2Proof.Machine.execStreamTableBaseWrite w s
  | .bar2BaseWrite w => Sys2Proof.Machine.execBar2BaseWrite w s
  | .retireSlotWrite w => Sys2Proof.Machine.execRetireSlotWrite w s
  | .fzDimsWrite w => Sys2Proof.Machine.execFzDimsWrite w s
  | .fzSelfWrite w => Sys2Proof.Machine.execFzSelfWrite w s
  | .fzPortCtrlWrite w => Sys2Proof.Machine.execFzPortCtrlWrite w s
  | .wake w => Sys2Proof.Machine.execWake w s
  | .cairnLowRead => Sys2Proof.Machine.execCairnLowRead s
  | .cairnHighRead => Sys2Proof.Machine.execCairnHighRead s
  | .recoveryCtrlGo w => Sys2Proof.Machine.execRecoveryCtrlGo w s
  | .shutdownCtrlGo w => Sys2Proof.Machine.execShutdownCtrlGo w s
  | .retrainFilzorPort w => Sys2Proof.Machine.execRetrainFilzorPort w s
  | .retrainHbmSliceGroup w => Sys2Proof.Machine.execRetrainHbmSliceGroup w s
  | .retrainCxlPort w => Sys2Proof.Machine.execRetrainCxlPort w s
  | .retrainComplete outcome => Sys2Proof.Machine.execRetrainComplete outcome s
  | .rescueCtrlWrite w ok => Sys2Proof.Machine.execRescueCtrlWrite w ok s
  | .rescueCtrlCommit w ok => Sys2Proof.Machine.execRescueCtrlCommit w ok s
  | .smbusRegisterWrite set_ off bytes pec => Sys2Proof.Machine.execSmbusRegisterWrite set_ off bytes pec s
  | .powerOff v pec => Sys2Proof.Machine.execPowerOff v pec s
  | .powerCycle pec => Sys2Proof.Machine.execPowerCycle pec s
  | .mgCoordWrite v pec => Sys2Proof.Machine.execMgCoordWrite v pec s
  | .mgShutdownReq pec => Sys2Proof.Machine.execMgShutdownReq pec s
  | .smbusAlertResponse => Sys2Proof.Machine.execSmbusAlertResponse s
  | .inputSwitchClose mv => Sys2Proof.Machine.execInputSwitchClose mv s
  | .moduleRemoval => Sys2Proof.Machine.execModuleRemoval s
  | .pwrDisHigh => Sys2Proof.Machine.execPwrDisHigh s
  | .pwrDisLow => Sys2Proof.Machine.execPwrDisLow s
  | .attnBlink => Sys2Proof.Machine.execAttnBlink s
  | .brownoutWarn mv => Sys2Proof.Machine.execBrownoutWarn mv s
  | .brownoutClear mv => Sys2Proof.Machine.execBrownoutClear mv s
  | .brownoutReset mv => Sys2Proof.Machine.execBrownoutReset mv s
  | .overvoltageWarn mv => Sys2Proof.Machine.execOvervoltageWarn mv s
  | .inputOvervoltageTrip mv => Sys2Proof.Machine.execInputOvervoltageTrip mv s
  | .ibcFail n => Sys2Proof.Machine.execIbcFail n s
  | .phOvercurrent dom phase => Sys2Proof.Machine.execPhOvercurrent dom phase s
  | .phOvertemp dom phase => Sys2Proof.Machine.execPhOvertemp dom phase s
  | .phOvertempClear dom phase => Sys2Proof.Machine.execPhOvertempClear dom phase s
  | .phRegulation dom phase => Sys2Proof.Machine.execPhRegulation dom phase s
  | .phDead dom phase => Sys2Proof.Machine.execPhDead dom phase s
  | .powerDomainTurnOn dom => Sys2Proof.Machine.execPowerDomainTurnOn dom s
  | .powerStage hood low => Sys2Proof.Machine.execPowerStage hood low s
  | .powerDomainTurnOff dom => Sys2Proof.Machine.execPowerDomainTurnOff dom s
  | .powerStageStalled hood => Sys2Proof.Machine.execPowerStageStalled hood s
  | .powerSample r => Sys2Proof.Machine.execPowerSample r s
  | .droopStretch island => Sys2Proof.Machine.execDroopStretch island s
  | .undervoltage dom phase => Sys2Proof.Machine.execUndervoltage dom phase s
  | .phaseShed dom => Sys2Proof.Machine.execPhaseShed dom s
  | .thermalStep celsius island hot => Sys2Proof.Machine.execThermalStep celsius island hot s
  | .thermalHalt celsius island => Sys2Proof.Machine.execThermalHalt celsius island s
  | .thermalResume celsius island => Sys2Proof.Machine.execThermalResume celsius island s
  | .thermalTrip celsius island => Sys2Proof.Machine.execThermalTrip celsius island s
  | .clockRefLost => Sys2Proof.Machine.execClockRefLost s
  | .clockRefRestored => Sys2Proof.Machine.execClockRefRestored s
  | .clockLost => Sys2Proof.Machine.execClockLost s
  | .voltageLoop dom steps => Sys2Proof.Machine.execVoltageLoop dom steps s
  | .filzorEqualisationUpdate p taps cxl => Sys2Proof.Machine.execFilzorEqualisationUpdate p taps s cxl
  | .hbmTrainingUpdate sg vals held => Sys2Proof.Machine.execHbmTrainingUpdate sg vals s held
  | .trainingSave => Sys2Proof.Machine.execTrainingSave s
  | .digestCompare t id shadow => Sys2Proof.Machine.execDigestCompare t id shadow s
  | .faultScoreLeak kind => Sys2Proof.Machine.execFaultScoreLeak kind s
  | .stressSessionStart massif => Sys2Proof.Machine.execStressSessionStart massif s
  | .stressSessionEnd t cases => Sys2Proof.Machine.execStressSessionEnd t s cases
  | .stressMismatch t cases nominal => Sys2Proof.Machine.execStressMismatch t cases s nominal
  | .stressNominalRetestDone t pass => Sys2Proof.Machine.execStressNominalRetestDone t pass s
  | .startPhaseComplete r => Sys2Proof.Machine.execStartPhaseComplete r s
  | .startPhaseBudgetExpiry r => Sys2Proof.Machine.execStartPhaseBudgetExpiry r s
  | .knownAnswerRunDone t pass => Sys2Proof.Machine.execKnownAnswerRunDone t pass s
  | .shutdownSliceDone r => Sys2Proof.Machine.execShutdownSliceDone r s
  | .shutdownBudgetExpiry r whole => Sys2Proof.Machine.execShutdownBudgetExpiry r whole s
  | .onDemandSliceDone r preempted => Sys2Proof.Machine.execOnDemandSliceDone r preempted s
  | .recoveryStageComplete r => Sys2Proof.Machine.execRecoveryStageComplete r s
  | .recoveryStageTimeout => Sys2Proof.Machine.execRecoveryStageTimeout s
  | .dumpGroupDone unreach => Sys2Proof.Machine.execDumpGroupDone unreach s
  | .dumpBudgetExpiry => Sys2Proof.Machine.execDumpBudgetExpiry s
  | .fwUpdate d img ok dead => Sys2Proof.Machine.execFwUpdate d img ok s dead
  | .fwChunk unit_ seq tag data => Sys2Proof.Machine.execFwChunk unit_ seq tag s data
  | .fwRepairRound => Sys2Proof.Machine.execFwRepairRound s
  | .fwUnitActivate unit_ => Sys2Proof.Machine.execFwUnitActivate unit_ s
  | .lifecycle d tok ok => Sys2Proof.Machine.execLifecycle d tok ok s
  | .attest d => Sys2Proof.Machine.execAttest d s
  | .uartBreak => Sys2Proof.Machine.execUartBreak s
  | .help => Sys2Proof.Machine.execHelp s
  | .info => Sys2Proof.Machine.execInfo s
  | .state => Sys2Proof.Machine.execState s
  | .baud rate => Sys2Proof.Machine.execBaud rate s
  | .log n => Sys2Proof.Machine.execLog n s
  | .defects => Sys2Proof.Machine.execDefects s
  | .result idx n => Sys2Proof.Machine.execResult idx n s
  | .challenge => Sys2Proof.Machine.execChallenge s
  | .unlock slot pub sig => Sys2Proof.Machine.execUnlock slot pub sig s
  | .unlockLockoutExpiry => Sys2Proof.Machine.execUnlockLockoutExpiry s
  | .lock => Sys2Proof.Machine.execLock s
  | .sessionTimeout => Sys2Proof.Machine.execSessionTimeout s
  | .test kind unit_ => Sys2Proof.Machine.execTest kind unit_ s
  | .defectClear idx => Sys2Proof.Machine.execDefectClear idx s
  | .resultErase => Sys2Proof.Machine.execResultErase s
  | .fuse kind id ok => Sys2Proof.Machine.execFuse kind id ok s
  | .rescue blocks => Sys2Proof.Machine.execRescue blocks s
  | .block idx crc data ok => Sys2Proof.Machine.execBlock idx crc data ok s
  | .commit ok => Sys2Proof.Machine.execCommit ok s
  | .rescueOwnershipTimeout => Sys2Proof.Machine.execRescueOwnershipTimeout s
  | .hostLinkReturn lanes rate => Sys2Proof.Machine.execHostLinkReturn s lanes rate
  | .hostReadCompletion ring data => Sys2Proof.Machine.execHostReadCompletion ring data s
  | .wheelTurn t => Sys2Proof.Machine.execWheelTurn t s
  | .overvoltageRearm => Sys2Proof.Machine.execOvervoltageRearm s
  | .standbyPowerLoss => Sys2Proof.Machine.execStandbyPowerLoss s
  | .unknownCommand why => Sys2Proof.Machine.execUnknownCommand why s

end Sys2Proof.Machine
end

