-- ==== Sys2Proof/Machine/Views.lean ====
section
/-! DEFINITION. What reads return: the words of BAR0 (R7, R453, R458, R480 to R489, PWR_STATUS, PHASE_FAIL) and the registers of
the sideband (R500, R501). No read of them changes the state; the reads of `CAIRN_NOW` that do have rows of their own. -/

namespace Sys2Proof.Machine

/-- The 4-byte word of a 64-bit register: `high` for its second half. -/
def half (high : Bool) (v : Nat) : Nat := if high then v / 2 ^ 32 % 2 ^ 32 else v % 2 ^ 32

/-- The word at `off` of a run of bytes. -/
def wordAt (bs : List Byte) (off : Nat) : Nat := leNat (sliceB bs off 4)

/-- `ID_VENDOR` and `ID_REV` (R481). -/
def idVendor : Nat := Config.vendorId % 2 ^ 16 + 2 ^ 16 * 0x0A48
def idRev : Nat := Config.stepping % 2 ^ 8 + 2 ^ 8 * (Config.board % 2 ^ 8)

/-- `SETUP_LOCK`, `CFG_ERR_OFFSET` and `LC_STATE` (R481). -/
def Regs.setupLock (r : Regs) : Nat := 2 * b2n r.locked + 4 * b2n r.lockViolation + 8 * b2n r.cfgReject
def Regs.cfgErr (r : Regs) : Nat := r.cfgErrOffset % 2 ^ 25 + 2 ^ 25 * r.cfgErrCause
def Fuses.lcWord (f : Fuses) : Nat :=
  f.lcState + 2 ^ 4 * f.service + 2 ^ 11 * f.rollback + 2 ^ 18 * f.fwRevoked + 2 ^ 22 * f.lcRevoked

/-- Identity and lock (R481). -/
def State.readId (a : Nat) (s : State) : Nat :=
  if a = 0x00 then idVendor
  else if a = 0x04 then idRev
  else if a = 0x08 || a = 0x0C then half (a == 0x0C) Config.serial
  else if a = 0x10 || a = 0x14 then half (a == 0x14) (mBuild s.manifest)
  else if a = 0x18 then s.securityVersion % 2 ^ 7
  else if a = 0x20 then s.regs.setupLock
  else if a = 0x24 then s.regs.lockViolOffset % 2 ^ 25
  else if a = 0x28 then s.regs.cfgErr
  else if a = 0x100 then s.fuses.lcWord
  else if 0x120 ≤ a && a < 0x140 then wordAt s.fuses.devicePub (a - 0x120)
  else if 0x140 ≤ a && a < 0x150 then wordAt s.fuses.deviceId (a - 0x140)
  else 0

/-- A word of a ring's block (R482). -/
def State.readRing (k n off : Nat) (s : State) : Nat :=
  let r := s.ring k n
  match off with
  | 0 => half false r.base
  | 4 => half true r.base
  | 8 => r.ctrl k + if k = 0 then 0 else 2 ^ 27 * b2n r.irq
  | _ => r.count % 2 ^ 32

/-- Rings, doorbell page and stream table (R482, R484): `BUSY` never stands, because a table is initialised within its write. -/
def State.readRings (a : Nat) (s : State) : Nat :=
  if 0x10000 ≤ a && a < 0x11000 then s.readRing 0 ((a - 0x10000) / 16) (a % 16)
  else if 0x11000 ≤ a && a < 0x12000 then s.readRing 1 ((a - 0x11000) / 16) (a % 16)
  else if 0x12000 ≤ a && a < 0x12400 then s.readRing 2 ((a - 0x12000) / 16) (a % 16)
  else if a = 0x13000 || a = 0x13004 then half (a == 0x13004) s.host.dbBase
  else if a = 0x1300C then s.host.evtRing + 2 ^ 8 * b2n s.host.evtEnable
  else if a = 0x13010 || a = 0x13014 then half (a == 0x13014) s.regs.streamTable
  else 0

/-- `PWR_STATUS` (Power, clocks and time, Registers). -/
def Power.status (p : Power) : Nat :=
  p.inputMv + 2 ^ 16 * p.inputW +
    2 ^ 32 * (p.setMhz + 2 ^ 11 * b2n p.limPower + 2 ^ 12 * b2n p.limCurrent + 2 ^ 13 * b2n p.limThermal +
      2 ^ 14 * b2n p.brownout + 2 ^ 15 * b2n p.refHoldover + 2 ^ 16 * max p.computeTemp p.ioTemp +
      2 ^ 24 * min p.ibcFailed.length 7)

/-- `PHASE_FAIL[i]` (R402). -/
def State.phaseFail (i : Nat) (s : State) : Nat :=
  sumNat ((List.range 32).map fun j => if (s.phase (i * 32 + j)).bad then 2 ^ j else 0)

/-- `SHUTDOWN_CTRL` (R439). -/
def Shutdown.word (d : Shutdown) : Nat :=
  2 * b2n d.forceUnload + 4 * d.budgetS + 2 ^ 16 * b2n d.busy + 2 ^ 17 * b2n d.done

/-- Power, clocks, time and shutdown. -/
def State.readPower (a : Nat) (s : State) : Nat :=
  if a = 0x20000 then s.power.limitW + 2 ^ 16 * s.power.clkMax
  else if a = 0x20008 || a = 0x2000C then half (a == 0x2000C) s.power.status
  else if a = 0x20010 || a = 0x20014 then half (a == 0x20014) s.cairn
  else if a = 0x20020 then s.shutdown.word
  else if 0x20100 ≤ a && a < 0x20240 then s.phaseFail ((a - 0x20100) / 4)
  else 0

/-- `RETIRE_SLOT[i]` (R486). -/
def RetireSlot.word (r : RetireSlot) : Nat :=
  r.baseGib + 2 ^ 13 * b2n r.enable + 2 ^ 14 * r.slice + 2 ^ 20 * b2n r.inUse

/-- `MAP` of `CXL_MAP[i]` (R486). -/
def CxlRange.map (r : CxlRange) : Nat :=
  r.baseGib + 2 ^ 13 * r.sizeGib + 2 ^ 27 * r.port + 2 ^ 28 * b2n r.paired + 2 ^ 29 * b2n r.valid + 2 ^ 30 * b2n r.inService +
    2 ^ 31 * b2n (r.part == 3)

/-- Integrity and memory (R362, R486). -/
def State.readMemory (a : Nat) (s : State) : Nat :=
  if 0x30000 ≤ a && a < 0x30010 then s.regs.policy.getD ((a - 0x30000) / 4) 0
  else if a = 0x40000 then s.regs.hbmScrub
  else if a = 0x40004 then b2n s.regs.cxlIl + 2 * b2n s.regs.ilActive
  else if a = 0x40008 || a = 0x4000C then half (a == 0x4000C) s.regs.bar2
  else if 0x40040 ≤ a && a < 0x40060 then (Tab.get RetireSlot.reset s.mem.slots ((a - 0x40040) / 4)).word
  else if 0x40100 ≤ a && a < 0x40180 then
    let r := s.range ((a - 0x40100) / 16)
    match a % 16 with
    | 0 => r.map
    | 8 => half false r.serial
    | 12 => half true r.serial
    | _ => 0
  else if 0x41000 ≤ a && a < 0x41800 && a % 32 < 24 then
    half (a % 8 == 4) ((s.slice ((a - 0x41000) / 32)).counter (a % 32 / 8)).word
  else 0

/-- `FZ_EPOCH` (R488). -/
def Fabric.epochWord (f : Fabric) : Nat :=
  f.active.epoch % 4 + (match f.other with
    | none => 0
    | some r => 4 * (r.epoch % 4) + 16)

/-- `STATUS` of a port (R488). -/
def FzPort.status (x : FzPort) : Nat :=
  x.state.code + 2 ^ 4 * b2n (x.half && x.state == .up) + 2 ^ 5 * x.peer + 2 ^ 19 * x.peerPort + 2 ^ 22 * b2n x.peerValid

/-- A word of a port's block (R488). -/
def State.readPort (p off : Nat) (s : State) : Nat :=
  let x := s.port p
  if off = 0 then b2n x.enable
  else if off = 4 then x.status
  else if 32 ≤ off then half (off % 8 == 4) (x.counter ((off - 32) / 8)).word
  else 0

/-- The fabric (R488). -/
def State.readFabric (a : Nat) (s : State) : Nat :=
  let f := s.fabric
  if a = 0x50000 then f.dims
  else if a = 0x50004 then f.self
  else if a = 0x50008 then f.id + 2 ^ 14 * f.source
  else if a = 0x5000C then f.timeMaster
  else if a = 0x50010 then b2n f.scheduled
  else if a = 0x50014 then f.epochWord
  else if 0x50100 ≤ a && a < 0x50280 then s.readPort ((a - 0x50100) / 64) ((a - 0x50100) % 64)
  else if 0x50300 ≤ a && a < 0x50330 then half (a % 8 == 4) (Tab.get Counter.reset f.counters ((a - 0x50300) / 8)).word
  else 0

/-- `RECOVERY_CTRL` and `DUMP_STATUS` (R453). -/
def Dump.ctrl (d : Dump) : Nat := 2 * b2n d.enable + 2 ^ 8 * d.startUnit + 2 ^ 16 * d.sampleUnits
def Dump.status (d : Dump) : Nat := b2n d.done + 2 * b2n d.truncated + 4 * b2n d.skipped + 2 ^ 8 * d.tiles

/-- `RESCUE_CTRL` (R457, R516): `BUSY` while the UART owns the rescue. -/
def Firmware.rescueWord (f : Firmware) : Nat :=
  f.rescueBlock + 2 ^ 14 * b2n (f.rescueOwner == 2) + 2 ^ 16 * f.rescueCount + 2 ^ 28 * f.rescueResult

/-- Recovery and live service. -/
def State.readService (a : Nat) (s : State) : Nat :=
  if a = 0x60000 then s.dump.ctrl
  else if a = 0x60008 || a = 0x6000C then half (a == 0x6000C) s.dump.base
  else if a = 0x60010 then s.dump.size
  else if a = 0x60014 then s.dump.status
  else if a = 0x60018 then s.regs.retrainKind + 2 ^ 4 * s.regs.retrainUnit
  else if a = 0x60020 then s.fw.rescueWord
  else if 0x61000 ≤ a && a < 0x62000 then wordAt s.fw.rescueBuf (a - 0x61000)
  else 0

/-- The word that a 4-byte read of BAR0 returns (R480): reserved offsets read as zero, and in a rescue so does every register but
those of the rescue (R457). -/
def State.readReg (a : Nat) (s : State) : Nat :=
  if s.seq == .rescue then (if a = 0x60020 || (0x61000 ≤ a && a < 0x62000) then s.readService a else 0)
  else if a < 0x10000 then s.readId a
  else if a < 0x20000 then s.readRings a
  else if a < 0x30000 then s.readPower a
  else if a < 0x50000 then s.readMemory a
  else if a < 0x60000 then s.readFabric a
  else s.readService a

/-- What a read of `n` bytes of BAR0 returns: aligned ones of 4 and 8 bytes the registers, and one of any other size all ones
(R308). -/
def State.readBar0 (a n : Nat) (s : State) : Nat :=
  if n = 4 && a % 4 = 0 then s.readReg a
  else if n = 8 && a % 8 = 0 then s.readReg a + 2 ^ 32 * s.readReg (a + 4)
  else 2 ^ (8 * n) - 1

/-- The 4-byte word at an offset of BAR4 (R308, R310): the MSI-X table, of which each entry holds an address, a data word and a mask
bit, and the pending-bit array. -/
def State.readBar4 (a : Nat) (s : State) : Nat :=
  if a < 0x8000 then
    let e := Tab.get (0, 0) s.host.msix (a / 16)
    match a % 16 with
    | 0 => half false e.1
    | 4 => half true e.1
    | 8 => e.2
    | _ => b2n (!Tab.get false s.host.unmasked (a / 16))
  else if a < 0x8100 then sumNat ((s.host.pendingVec.filter fun v => v / 32 == (a - 0x8000) / 4).map fun v => 2 ^ (v % 32))
  else 0

/-! ### The sideband -/

/-- Registers of the hot-swap controller by offset (R500). -/
def State.readHotSwap (off : Nat) (s : State) : Nat :=
  let h := s.hotSwap
  if off = 0 then b2n h.switchOn + 2 * b2n h.present + 4 * b2n h.inRange + 8 * b2n h.ramping + 16 * b2n (h.pwrDis || h.powerOff)
  else if off = 1 then h.cause + 2 ^ 7 * b2n h.unread
  else if off = 2 then h.vin
  else if off = 4 then h.iin
  else if off = 6 then b2n h.powerOff
  else 0

/-- Registers of the management set by offset (R501). -/
def State.readMgmt (off : Nat) (s : State) : Nat :=
  if off = 0x00 then idVendor
  else if off = 0x04 then Config.serial % 2 ^ 64
  else if off = 0x0C then
    s.devState.code + 2 ^ 3 * s.fuses.lcState + 2 ^ 6 * s.usableTiles + 2 ^ 15 * b2n (s.fabric.lock == .locked)
  else if off = 0x10 then
    s.power.inputW + 2 ^ 12 * s.power.setMhz + 2 ^ 23 * b2n s.power.limPower + 2 ^ 24 * b2n s.power.limCurrent +
      2 ^ 25 * b2n s.power.limThermal
  else if off = 0x14 then s.power.computeTemp + 2 ^ 8 * s.power.ioTemp + 2 ^ 16 * s.power.hbmTemp
  else if off = 0x18 then s.power.capW
  else if off = 0x1C then s.mgmt.coord
  else if off = 0x20 then 2 * b2n s.shutdown.busy + 4 * b2n s.shutdown.done
  else if off = 0x24 then s.mgmt.alert
  else if off = 0x26 then s.mgmt.alertEn
  else if off = 0x28 then s.mgmt.resultIdx
  else 0

/-- `MG_RESULT` (R501): the record that `MG_RESULT_IDX` names, or zeros. -/
def State.mgResult (s : State) : List Byte :=
  match s.ledger.results.reverse[s.mgmt.resultIdx]? with
  | none => List.replicate 32 0
  | some x => x.bytes

/-- `SMBALERT_N` is driven low (R500). -/
def State.smbAlert (s : State) : Bool := s.mgmt.alert &&& s.mgmt.alertEn != 0

end Sys2Proof.Machine
end

