-- ==== Sys2Proof/Safety.lean ====
section
/-! DEFINITION. What a safe run is, in the terms that claims use. -/

namespace Sys2Proof

/-- A step answers a next state: no fault, no refusal. -/
def Machine.State.Advances (s : Machine.State) : Prop := ∃ t, Machine.step s = .next t

/-- A run of `k` steps reaches no fault and no refusal. -/
def Machine.State.SafeFor (k : Nat) (s : Machine.State) : Prop := ∃ t, core.run k s = .next t

namespace Machine

/-- Both spaces and the host's bytes stand in the canonical form. -/
def State.memWf (s : State) : Bool := s.mem.hbm.wf && s.mem.cxl.wf && Tab.wf 0 s.host.mem

/-- The descriptor `x` with the tag `tag` may start: the module is in service, it is of the operation `opc`, it has not
started, its order lets it start (R324), and none of the form checks of its operation fails. -/
def State.starts (s : State) (tag opc : Nat) (form : Desc → Form) (x : Desc) : Prop :=
  s.inService = true ∧ s.desc tag = some x ∧ x.opcode = opc ∧ x.started = false ∧ s.mayStart x = true ∧
    (form x).fault x = none

/-- The rows of operations that fire: for the operation at index `k` of tile `t`, each row's command, the opcode of R51 it
fires, and the operation's effect. -/
def firedRows (t k : Nat) (u : List Upset) : List (Instr × Nat × EffectFn) := [
    (.mma t k u, 0x10, effMma), (.mtrn t k u, 0x11, effMtrn), (.vadd t k u, 0x20, effVadd),
    (.vsub t k u, 0x21, effVsub), (.vmul t k u, 0x22, effVmul), (.vfma t k u, 0x23, effVfma),
    (.vmax t k u, 0x24, effVmax), (.vmin t k u, 0x25, effVmin), (.vcmp t k u, 0x26, effVcmp),
    (.vsel t k u, 0x27, effVsel), (.vcvt t k u, 0x28, effVcvt), (.vscale t k u, 0x29, effVscale),
    (.vrsum t k u, 0x2A, effVrsum), (.vrmax t k u, 0x2B, effVrmax), (.vrssq t k u, 0x2C, effVrssq),
    (.vabsmax t k u, 0x2D, effVabsmax), (.vupd t k u, 0x2E, effVupd), (.xcomb t k u, 0x2F, effXcomb),
    (.fexp t k u, 0x40, effFexp), (.flog t k u, 0x41, effFlog), (.frcp t k u, 0x42, effFrcp),
    (.frsq t k u, 0x43, effFrsq), (.fsincos t k u, 0x44, effFsincos), (.topk t k u, 0x45, effTopk),
    (.sload t k u, 0x50, effSload), (.sstore t k u, 0x51, effSstore), (.sgather t k u, 0x52, effSgather),
    (.sscatter t k u, 0x53, effSscatter), (.smcast t k u, 0x54, effSmcast), (.xdisp t k u, 0x55, effXdisp),
    (.csend t k u, 0x56, effCsend), (.crecv t k u, 0x57, effCrecv), (.wload t k u, 0x58, effWload),
    (.chsend t k u, 0x60, effChsend), (.chrecv t k u, 0x61, effChrecv), (.chpoll t k u, 0x62, effChpoll),
    (.scalc t k u, 0x63, effScalc), (.psend t k u, 0x64, effPsend), (.summit t k u, 0x65, effSummit)]

/-- The operation at index `k` of tile `t`, whose opcode is `opc`, fires and takes the tokens `ins`: the module is in
service, the tile runs, the operation is ready and the lowest of its engine (R25, R26), and after the wrong bits `u` that come
about no word of its Tarn holds one. -/
def State.firesWith (s : State) (t k : Nat) (u : List Upset) (opc : Nat) (ins : List (Nat × Nat × List Token)) : Prop :=
  s.inService = true ∧ t < 320 ∧ k < 8192 ∧ (s.updTile t (·.upset u)).runs t = true ∧
    opCode (((s.tile t).upset u).op k) = opc ∧ ((s.tile t).upset u).fires k = true ∧
    ((s.tile t).upset u).takeAll (((s.tile t).upset u).op k) = some ins ∧
    ∀ a, (Tab.get .zero ((s.tile t).upset u).tarn a).wrong = 0

/-- What that operation sees. -/
def State.firingCtx (s : State) (t k : Nat) (u : List Upset) (ins : List (Nat × Nat × List Token)) : Ctx :=
  let x := (s.tile t).upset u
  let toks := consumedTokens (x.op k) ins
  let regs := pennantRegs toks x.sregs
  ((s.updTile t (·.upset u)).context t k { (x.consume ins) with sregs := regs } toks regs).1

/-- The writes of 4 bytes to RWL fields (R480): for the ring, slot or page at index `n` and the value `v`, each write's command, its
offset, what the fields hold and what it would put into them (R7, R9). -/
def State.rwlWrites (s : State) (n v : Nat) : List (Instr × Nat × Nat × Nat) :=
  let h := n % 64
  let q := n % 256
  let slot := Tab.get RetireSlot.reset s.mem.slots (n % 8)
  [(.registerWrite ⟨0x10000 + 16 * q, 4, v⟩, 0x10000 + 16 * q, (s.sq q).base % 2 ^ 32, page4k v),
   (.registerWrite ⟨0x10004 + 16 * q, 4, v⟩, 0x10004 + 16 * q, (s.sq q).base / 2 ^ 32, v),
   (.ringCtrlWrite ⟨0x10008 + 16 * q, 4, v⟩, 0x10008 + 16 * q, (s.sq q).ctrl 0, ctrlFields 0 v),
   (.registerWrite ⟨0x11000 + 16 * q, 4, v⟩, 0x11000 + 16 * q, (s.cq q).base % 2 ^ 32, page4k v),
   (.registerWrite ⟨0x11004 + 16 * q, 4, v⟩, 0x11004 + 16 * q, (s.cq q).base / 2 ^ 32, v),
   (.ringCtrlWrite ⟨0x11008 + 16 * q, 4, v⟩, 0x11008 + 16 * q, (s.cq q).ctrl 1, ctrlFields 1 v),
   (.registerWrite ⟨0x12000 + 16 * h, 4, v⟩, 0x12000 + 16 * h, (s.hv h).base % 2 ^ 32, page4k v),
   (.registerWrite ⟨0x12004 + 16 * h, 4, v⟩, 0x12004 + 16 * h, (s.hv h).base / 2 ^ 32, v),
   (.ringCtrlWrite ⟨0x12008 + 16 * h, 4, v⟩, 0x12008 + 16 * h, (s.hv h).ctrl 2, ctrlFields 2 v),
   (.dbBaseWrite ⟨0x13000, 4, v⟩, 0x13000, s.host.dbBase % 2 ^ 32, page4k v),
   (.dbBaseWrite ⟨0x13004, 4, v⟩, 0x13004, s.host.dbBase / 2 ^ 32, v),
   (.evtRingWrite ⟨0x1300C, 4, v⟩, 0x1300C, s.host.evtRing + 2 ^ 8 * b2n s.host.evtEnable, v % 2 ^ 9),
   (.streamTableBaseWrite ⟨0x13010, 4, v⟩, 0x13010, s.regs.streamTable % 2 ^ 32, v / 2 ^ 16 * 2 ^ 16),
   (.streamTableBaseWrite ⟨0x13014, 4, v⟩, 0x13014, s.regs.streamTable / 2 ^ 32, v % 2 ^ 12),
   (.registerWrite ⟨0x40004, 4, v⟩, 0x40004, b2n s.regs.cxlIl, v % 2),
   (.retireSlotWrite ⟨0x40040 + 4 * (n % 8), 4, v⟩, 0x40040 + 4 * (n % 8), slot.baseGib + 2 ^ 13 * b2n slot.enable, v % 2 ^ 14),
   (.fzDimsWrite ⟨0x50000, 4, v⟩, 0x50000, s.fabric.dims, v % 2 ^ 17),
   (.fzSelfWrite ⟨0x50004, 4, v⟩, 0x50004, s.fabric.self, v % 2 ^ 15),
   (.registerWrite ⟨0x5000C, 4, v⟩, 0x5000C, s.fabric.timeMaster, v % 2 ^ 15)]

/-- The stream table lies in this module's HBM, and the tracker's records and cache name entries of it (R178, R179). -/
def State.tableStands (s : State) : Prop :=
  s.regs.streamTable + 2 ^ 28 ≤ hbmBytes ∧ s.fabric.id < 2 ^ 14 ∧ (∀ e ∈ s.tracker.streams, e.1 < streamCount) ∧
    ∀ j ∈ s.tracker.cache, j < streamCount

/-- The monitor has sent `lines` and then its prompt since `s` (R510). -/
def State.answers (s t : State) (rom : Bool) (lines : List Line) : Prop :=
  t.monitor.out = s.monitor.out ++ lines ++ [.prompt rom]

/-- The value of a finite exact value as a rational number; 0 for NaN and the infinities. -/
def Val.rat : Val → ℚ
  | .fin s m e => (if s then -1 else 1) * (m : ℚ) * (2 : ℚ) ^ e
  | _ => 0

/-- The nine float layouts of R63. -/
def floatLayouts : List FloatLayout := [fp32L, fp16L, bf16L, e4m3L, e5m2L, e3m2L, e2m3L, e2m1L, xm40L]

end Machine

end Sys2Proof
end

