-- ==== Sys2Proof/WellFormed.lean ====
section
/-! DEFINITION. Which commands lie in the spec's numbering: their operands name units that exist, and stay in the ranges that their
rows' rules state (R11 to R15, R22, R371, R476, R499). A command outside it stops with `Fault.noSuchUnit`. -/

namespace Sys2Proof

open Machine

/-- The operands of a command name units that exist. -/
def Instr.wellFormed : Instr → Bool
  | .mma t k _ => t < 320 && k < 8192
  | .mtrn t k _ => t < 320 && k < 8192
  | .vadd t k _ => t < 320 && k < 8192
  | .vsub t k _ => t < 320 && k < 8192
  | .vmul t k _ => t < 320 && k < 8192
  | .vfma t k _ => t < 320 && k < 8192
  | .vmax t k _ => t < 320 && k < 8192
  | .vmin t k _ => t < 320 && k < 8192
  | .vcmp t k _ => t < 320 && k < 8192
  | .vsel t k _ => t < 320 && k < 8192
  | .vcvt t k _ => t < 320 && k < 8192
  | .vscale t k _ => t < 320 && k < 8192
  | .vrsum t k _ => t < 320 && k < 8192
  | .vrmax t k _ => t < 320 && k < 8192
  | .vrssq t k _ => t < 320 && k < 8192
  | .vabsmax t k _ => t < 320 && k < 8192
  | .vupd t k _ => t < 320 && k < 8192
  | .xcomb t k _ => t < 320 && k < 8192
  | .fexp t k _ => t < 320 && k < 8192
  | .flog t k _ => t < 320 && k < 8192
  | .frcp t k _ => t < 320 && k < 8192
  | .frsq t k _ => t < 320 && k < 8192
  | .fsincos t k _ => t < 320 && k < 8192
  | .topk t k _ => t < 320 && k < 8192
  | .sload t k _ => t < 320 && k < 8192
  | .sstore t k _ => t < 320 && k < 8192
  | .sgather t k _ => t < 320 && k < 8192
  | .sscatter t k _ => t < 320 && k < 8192
  | .smcast t k _ => t < 320 && k < 8192
  | .xdisp t k _ => t < 320 && k < 8192
  | .csend t k _ => t < 320 && k < 8192
  | .crecv t k _ => t < 320 && k < 8192
  | .wload t k _ => t < 320 && k < 8192
  | .chsend t k _ => t < 320 && k < 8192
  | .chrecv t k _ => t < 320 && k < 8192
  | .chpoll t k _ => t < 320 && k < 8192
  | .scalc t k _ => t < 320 && k < 8192
  | .psend t k _ => t < 320 && k < 8192
  | .summit t k _ => t < 320 && k < 8192
  | .operationComplete t _ _ => t < 320
  | .memoryOperationComplete t _ _ => t < 320
  | .localReplay t _ _ => t < 320
  | .loadStepNotice t k => t < 320 && k < 8192
  | .tokenArrival t q => t < 320 && q < 256
  | .creditReturn t q => t < 320 && q < 256
  | .channelWordArrival t c _ => t < 320 && c < 64
  | .expertRowArrival t q bad _ _ _ => t < 320 && q < 256 && bad.all linkOk
  | .expertCountRecord t q bad _ _ _ => t < 320 && q < 256 && bad.all linkOk
  | .mplaneResponse t _ _ bad _ => t < 320 && bad.all linkOk
  | .mplaneRequest t _ _ bad _ _ _ _ => t < 320 && bad.all linkOk
  | .multicastBranchRelease t _ _ r _ _ _ => t < 320 && r < 36
  | .summitArrive t _ bad => t < 320 && bad.all linkOk
  | .summitRelease t _ bad => t < 320 && bad.all linkOk
  | .abandonFlit t => t < 320
  | .abandonDrainDone g => g < 8
  | .tarnClearDone t => t < 320
  | .tarnPatrolRead t _ => t < 320
  | .tarnPatrolWriteBack t => t < 320
  | .sideRead t space addr _ => t < 320 && (match space with
    | .tarn => addr < tarnWords
    | .channels => addr < 66
    | .tarnRegs => addr < 8
    | .observation => addr < 528
    | .opStore => addr < 16384)
  | .sideAccessTimeout t unit_ => t < 320 && unit_ < 97
  | .tarnStagingWrite addr bytes => addr % 8 = 0 && bytes.length % 8 = 0
  | .tarnStagingRead _ n => n ≤ 256
  | .stagedTileTimeout t => t < 320
  | .graphLoad _ _ _ => true
  | .graphUnload _ => true
  | .graphUnloadComplete g => g < 8
  | .classPolicy _ => true
  | .statusRead _ => true
  | .burgeePass t => t < 320
  | .burgeeSwitchComplete t => t < 320
  | .scheduleViolation g _ => g < 8
  | .cyclicWait g _ => g < 8
  | .screeRefill t q => t < 320 && q < 256
  | .queueDepthSample g => g < 8
  | .streamOpen _ _ => true
  | .streamExtend _ _ => true
  | .streamCancel _ => true
  | .streamQuery _ => true
  | .streamFinalRecord idx => idx < streamCount
  | .deadlineExpiry idx => idx < streamCount
  | .periodSelection g => g < 8
  | .periodBatchIssue g => g < 8
  | .sliceBoundary g => g < 8
  | .batchDelivery g kind _ bad => g < 8 && kind < 2 && bad.all linkOk
  | .powerForecast g => g < 8
  | .harvest g kind _ => g < 8 && kind < 2
  | .kvPageMigration g => g < 8
  | .kvPageMoveDone g _ _ _ => g < 8
  | .memCopy _ _ => true
  | .hostCopy _ _ _ => true
  | .hbmPatrolRead sg slice _ => sg < 16 && slice < 4
  | .retireFrameCopied slice _ => slice < 64
  | .cxlAccessTimeout t _ _ => t < 320
  | .cxlRangeLost r port => r < 8 && port < 2
  | .cxlDeviceInsert port _ _ _ => port < 2
  | .cxlRemove _ => true
  | .cxlRemoveProceed r => r < 8
  | .cxlEventRecord r => r < 8
  | .bar2Read off n _ => off + n ≤ 2 ^ 32
  | .bar2Write off bytes _ => off + bytes.length ≤ 2 ^ 32
  | .fzSignalDetect p => p < 6
  | .fzEqualiseDone p => p < 6
  | .fzEqualiseTimeout p => p < 6
  | .fzAlignDone p _ => p < 6
  | .fzAlignTimeout p => p < 6
  | .fzIdentifyExchange p _ => p < 6
  | .fzHeldRetry p _ => p < 6
  | .fzDownRetry p => p < 6
  | .fzCodewordReceive p _ _ => p < 6
  | .fzLockLoss p => p < 6
  | .fzRetrainDone p _ => p < 6
  | .fzRetrainTimeout p => p < 6
  | .fzBeaconSend p _ => p < 6
  | .fzTimeHoldover => true
  | .fzPacketForward p _ => p < 7
  | .readReq _ => true
  | .write _ => true
  | .readResp => true
  | .writeAck => true
  | .openConn => true
  | .openAck => true
  | .openBusy => true
  | .closeConn => true
  | .reclaim => true
  | .staleConn => true
  | .fzResendTimeout slot _ _ => slot < connSlots
  | .fzOpenRetry slot => slot < connSlots
  | .fzReceiverIdle slot => slot < connSlots
  | .fzSenderIdle slot => slot < connSlots
  | .fabricTable _ => true
  | .fabricEpoch _ => true
  | .fzEpochSwitch => true
  | .fzEpochRelease => true
  | .windowOpen _ => true
  | .windowClose _ => true
  | .windowCloseDone idx => idx < 65536
  | .windowImport _ => true
  | .windowUnimport _ => true
  | .doorbellPoll _ => true
  | .descriptorFetch entries => entries < 256
  | .skip _ => true
  | .nop _ => true
  | .heartbeatWrite => true
  | .functionLevelReset => true
  | .hotReset => true
  | .d3hotToD0 => true
  | .hostLinkDown => true
  | .perstNAssert => true
  | .pcieConfigRequest _ _ => true
  | .msixUnmask v _ _ => v < 2048
  | .registerWrite w => w.off < 2 ^ 25 && !barCovers w fun a v => a == 0x60020 && (bit v 12 || bit v 13)
  | .setupLockSet w => barCovers w fun a v => a == 0x20 && bit v 0
  | .ringCtrlWrite w => barCovers w fun a _ => 0x10000 ≤ a && a < 0x12400 && a % 16 == 8
  | .dbBaseWrite w => barCovers w fun a _ => a == 0x13000 || a == 0x13004
  | .evtRingWrite w => barCovers w fun a _ => a == 0x1300C
  | .streamTableBaseWrite w => barCovers w fun a _ => a == 0x13010 || a == 0x13014
  | .bar2BaseWrite w => barCovers w fun a _ => a == 0x40008 || a == 0x4000C
  | .retireSlotWrite w => barCovers w fun a _ => 0x40040 ≤ a && a < 0x40060
  | .fzDimsWrite w => barCovers w fun a _ => a == 0x50000
  | .fzSelfWrite w => barCovers w fun a _ => a == 0x50004
  | .fzPortCtrlWrite w => barCovers w fun a _ => 0x50100 ≤ a && a < 0x50280 && (a - 0x50100) % 64 == 0
  | .wake w => barCovers w fun a _ => a == 0x13008
  | .cairnLowRead => true
  | .cairnHighRead => true
  | .recoveryCtrlGo w => barCovers w fun a v => a == 0x60000 && bit v 0
  | .shutdownCtrlGo w => barCovers w fun a v => a == 0x20020 && bit v 0
  | .retrainFilzorPort w => barCovers w (retrainOf 1)
  | .retrainHbmSliceGroup w => barCovers w (retrainOf 2)
  | .retrainCxlPort w => barCovers w (retrainOf 3)
  | .retrainComplete outcome => outcome < 3
  | .rescueCtrlWrite w _ => barCovers w fun a v => a == 0x60020 && bit v 12
  | .rescueCtrlCommit w _ => barCovers w fun a v => a == 0x60020 && bit v 13
  | .smbusRegisterWrite set_ off _ _ => off < 256 && (match set_ with
    | .hotSwap => off != 6
    | .management => off != 0x1C && off != 0x20)
  | .powerOff _ _ => true
  | .powerCycle _ => true
  | .mgCoordWrite _ _ => true
  | .mgShutdownReq _ => true
  | .smbusAlertResponse => true
  | .inputSwitchClose _ => true
  | .moduleRemoval => true
  | .pwrDisHigh => true
  | .pwrDisLow => true
  | .attnBlink => true
  | .brownoutWarn _ => true
  | .brownoutClear _ => true
  | .brownoutReset _ => true
  | .overvoltageWarn _ => true
  | .inputOvervoltageTrip _ => true
  | .ibcFail n => n < 8
  | .phOvercurrent dom phase => dom < 688 && phase < Machine.phasesOf dom
  | .phOvertemp dom phase => dom < 688 && phase < Machine.phasesOf dom
  | .phOvertempClear dom phase => dom < 688 && phase < Machine.phasesOf dom
  | .phRegulation dom phase => dom < 688 && phase < Machine.phasesOf dom
  | .phDead dom phase => dom < 688 && phase < Machine.phasesOf dom
  | .powerDomainTurnOn dom => dom < 688
  | .powerStage hood _ => hood < 29
  | .powerDomainTurnOff dom => dom < 688
  | .powerStageStalled hood => hood < 29
  | .powerSample _ => true
  | .droopStretch island => island < 368
  | .undervoltage dom phase => dom < 688 && phase < Machine.phasesOf dom
  | .phaseShed dom => dom < 688
  | .thermalStep _ island _ => island < 368
  | .thermalHalt _ island => island < 368
  | .thermalResume _ island => island < 368
  | .thermalTrip _ island => island < 368
  | .clockRefLost => true
  | .clockRefRestored => true
  | .clockLost => true
  | .voltageLoop dom _ => dom < 688
  | .filzorEqualisationUpdate p _ cxl => p < 6 && cxl.all (· < 2)
  | .hbmTrainingUpdate sg _ _ => sg < 16
  | .trainingSave => true
  | .digestCompare t _ shadow => t < 320 && shadow < 320
  | .faultScoreLeak _ => true
  | .stressSessionStart massif => massif < 20
  | .stressSessionEnd t _ => t < 320
  | .stressMismatch t _ _ => t < 320
  | .stressNominalRetestDone t _ => t < 320
  | .startPhaseComplete _ => true
  | .startPhaseBudgetExpiry _ => true
  | .knownAnswerRunDone t _ => t < 320
  | .shutdownSliceDone r => r.coverage ≤ 1000 && r.durationMs < 2 ^ 32
  | .shutdownBudgetExpiry r _ => r.coverage ≤ 1000 && r.durationMs < 2 ^ 32
  | .onDemandSliceDone r _ => r.coverage ≤ 1000 && r.durationMs < 2 ^ 32
  | .recoveryStageComplete _ => true
  | .recoveryStageTimeout => true
  | .dumpGroupDone unreach => unreach.all fun e => e.1 < 320 && e.2 < 97
  | .dumpBudgetExpiry => true
  | .fwUpdate _ _ _ _ => true
  | .fwChunk unit_ _ _ _ => unit_ < unitTotal
  | .fwRepairRound => true
  | .fwUnitActivate unit_ => unit_ < unitTotal
  | .lifecycle _ _ _ => true
  | .attest _ => true
  | .uartBreak => true
  | .help => true
  | .info => true
  | .state => true
  | .baud _ => true
  | .log _ => true
  | .defects => true
  | .result _ _ => true
  | .challenge => true
  | .unlock _ _ _ => true
  | .unlockLockoutExpiry => true
  | .lock => true
  | .sessionTimeout => true
  | .test _ _ => true
  | .defectClear _ => true
  | .resultErase => true
  | .fuse _ _ _ => true
  | .rescue _ => true
  | .block _ _ data _ => data.length = blockBytes
  | .commit _ => true
  | .rescueOwnershipTimeout => true
  | .hostLinkReturn lanes rate => hostLinkOk lanes rate
  | .hostReadCompletion ring _ => ring < 256
  | .wheelTurn t => t < 320
  | .overvoltageRearm => true
  | .standbyPowerLoss => true
  | .unknownCommand _ => true

end Sys2Proof
end

