-- ==== Sys2Proof/Certificates/Slice0/Obligations.lean ====
section
/-! DEFINITION. The statements for the provers. A statement whose docstring names log entries rests on the model's choice there. -/

open Sys2Proof Sys2Proof.Machine

/-- A step takes the command at the front of the queue and runs it with the queue's rest; an empty queue lets one Cairn
cycle pass -/
def Obligations.StepRunsFrontCommand : Prop :=
  (∀ (c : Instr) (rest : List Instr) (s : State), s.pending = c :: rest → step s = exec c { s with pending := rest }) ∧
  (∀ s : State, s.pending = [] → s.fabric.lock ≠ .holdover ∨ s.fabric.slewRate = none →
    step s = .next { s with cairn := if s.cairnOn then (s.cairn + 4) % 2 ^ 64 else s.cairn }) ∧
  ∀ (s : State) (n : Nat) (up : Bool), s.pending = [] → s.fabric.lock = .holdover → s.fabric.slewRate = some (n, up) →
    step s = .next (if s.cairnOn = false then s
      else if n ≤ cairnSince s.fabric.lastSlew s.cairn then
        { s with cairn := (s.cairn + if up then 8 else 0) % 2 ^ 64
                 fabric := { s.fabric with lastSlew := (s.cairn + if up then 8 else 0) % 2 ^ 64 } }
      else { s with cairn := (s.cairn + 4) % 2 ^ 64 })

/-- A command whose operands name units that exist answers a next state in every state; any other command stops with
noSuchUnit -/
def Obligations.WellFormedCommandsNeverStop : Prop :=
  ∀ (c : Instr) (s : State),
    (c.wellFormed = true → ∃ t, exec c s = .next t) ∧ (c.wellFormed = false → exec c s = .fault .noSuchUnit)

/-- No command adds to the queue, reorders it or drops a waiting command -/
def Obligations.StepConsumesOneCommand : Prop :=
  ∀ s t : State, step s = .next t → t.pending = s.pending.tail

/-- Every step keeps HBM, the CXL tier and the host's bytes in the canonical form -/
def Obligations.MemoryStaysCanonical : Prop :=
  ∀ s t : State, s.memWf = true → step s = .next t → t.memWf = true

/-- Reset: the values the spec gives; the fuses' level is the model's choice (log entries 1 and 14). -/
def Obligations.ResetState : Prop :=
  State.reset.pending = [] ∧ State.reset.hotSwap.switchOn = false ∧ State.reset.cairn = 0 ∧ State.reset.tiles = [] ∧
  State.reset.graphs = [] ∧ State.reset.tracker.streams = [] ∧ State.reset.host.sq = [] ∧ State.reset.host.cq = [] ∧
  State.reset.host.hv = [] ∧ State.reset.host.dbBase = 0 ∧ State.reset.regs.locked = false ∧ State.reset.fabric.dims = 0x1041 ∧
  State.reset.fabric.id = 0 ∧ State.reset.placed = false ∧ State.reset.regs.streamTable = 0x5FB0000000 ∧
  State.reset.regs.policy = [0x100002, 0x100001, 0x100001, 0x100000] ∧ State.reset.power.setMhz = 1850 ∧
  State.reset.power.limitW = 1950 ∧ State.reset.power.capW = 1950 ∧ State.reset.mgmt.alert = 0 ∧ State.reset.mgmt.alertEn = 0x1F ∧
  State.reset.monitor.baud = 115200 ∧ State.reset.monitor.unlocked = false ∧ State.reset.dump.enable = true ∧
  State.reset.memWf = true ∧ State.reset.mem.hbm.bytes = [] ∧ State.reset.mem.cxl.bytes = [] ∧ State.reset.host.mem = []

/-- No step takes back a fuse: level, service count, rollback count, revocations and the fuse map only grow -/
def Obligations.FusesAreOneTime : Prop :=
  ∀ s t : State, step s = .next t →
    s.fuses.level ≤ t.fuses.level ∧ s.fuses.service ≤ t.fuses.service ∧ s.fuses.rollback ≤ t.fuses.rollback ∧
    (∀ i, bit s.fuses.fwRevoked i = true → bit t.fuses.fwRevoked i = true) ∧
    (∀ i, bit s.fuses.lcRevoked i = true → bit t.fuses.lcRevoked i = true) ∧
    (s.fuses.blown = true → t.fuses.blown = true) ∧ (∀ p ∈ s.fuses.bad, p ∈ t.fuses.bad) ∧
    ∀ b ∈ s.fuses.used, b ∈ t.fuses.used

/-- Every command that takes the power-off path opens the closed input switch, latches its cause and leaves only what
outlives the loss of power -/
def Obligations.PowerOffPathOpensSwitch : Prop :=
  ∀ (s : State) (c : Instr) (cause : Nat), s.hotSwap.switchOn = true →
    ((c = .moduleRemoval ∧ cause = 7) ∨ (c = .pwrDisHigh ∧ cause = 8) ∨ (c = .powerOff true true ∧ cause = 9) ∨
      (c = .powerCycle true ∧ s.hotSwap.powerOff = false ∧ cause = 9) ∨
      (∃ mv, mv < 40000 ∧ c = .brownoutReset mv ∧ cause = 1) ∨ (∃ mv, 60000 < mv ∧ c = .inputOvervoltageTrip mv ∧ cause = 2) ∨
      (∃ n, n < 8 ∧ n ∉ s.power.ibcFailed ∧ 5 ≤ s.power.ibcFailed.length ∧ s.fw.running = true ∧ c = .ibcFail n ∧ cause = 3) ∨
      (∃ celsius island, 115 < celsius ∧ 356 ≤ island ∧ island < 368 ∧ s.fw.running = true ∧
        c = .thermalTrip celsius island ∧ cause = 5) ∨
      (s.fw.running = true ∧ c = .clockLost ∧ cause = 6)) →
    ∃ t, exec c s = .next t ∧
      t.hotSwap.switchOn = false ∧ t.hotSwap.cause = cause ∧ t.hotSwap.unread = true ∧ t.hotSwap.attn = true ∧
      t.tiles = [] ∧ t.graphs = [] ∧ t.tracker = .reset ∧ t.planes = .reset ∧ t.fabric = .reset ∧ t.regs = .reset ∧
      t.mem = .reset ∧ t.power = .reset ∧ t.dump = .reset ∧ t.shutdown = .reset ∧ t.fw = .reset ∧ t.mgmt = .reset ∧
      t.cairn = 0 ∧ t.seq = .idle ∧ t.host.sq = [] ∧ t.host.cq = [] ∧ t.host.hv = [] ∧ t.host.descs = [] ∧
      t.fuses = s.fuses ∧ t.ledger.defects = s.ledger.defects ∧ t.ledger.results = s.ledger.results ∧
      t.ledger.image = s.ledger.image ∧ t.pending = s.pending

/-- INPUT_SWITCH_CLOSE in range and with its enables starts a cold start in phase 1; otherwise it changes nothing -/
def Obligations.InputSwitchStartsColdStart : Prop :=
  ∀ (s : State) (mv : Nat),
    (s.hotSwap.switchOn = false → s.hotSwap.pwrDis = false → s.hotSwap.powerOff = false → 44000 ≤ mv → mv ≤ 57000 →
      ∃ t, exec (.inputSwitchClose mv) s = .next t ∧ t.hotSwap.switchOn = true ∧ t.hotSwap.vin = mv ∧ t.seq = .start 1 ∧
        t.devState = .starting ∧ t.cairn = 0 ∧ t.mem = .reset ∧ t.tiles = [] ∧ t.graphs = [] ∧ t.host.bar0 = false ∧
        t.host.retry = true ∧ t.fw.running = false ∧
        t.ledger = { s.ledger with startCount := s.ledger.startCount + 1, lastSave := 0 } ∧
        t.fuses = { s.fuses with decommission := s.fuses.blown } ∧ t.pending = s.pending) ∧
    (s.hotSwap.switchOn = true ∨ s.hotSwap.pwrDis = true ∨ s.hotSwap.powerOff = true ∨ mv < 44000 ∨ 57000 < mv →
      exec (.inputSwitchClose mv) s = .next s)

/-- PWR_DIS_LOW, STANDBY_POWER_LOSS, ATTN_BLINK, POWER_OFF of 0, a wrong PEC and the alert response -/
def Obligations.HotSwapControllerRows : Prop :=
  (∀ s : State, exec .pwrDisLow s = .next { s with hotSwap := { s.hotSwap with pwrDis := false } }) ∧
  (∀ s : State, ∃ t, exec .standbyPowerLoss s = .next t ∧ t.hotSwap = .reset ∧ t.tiles = [] ∧ t.graphs = [] ∧ t.mem = .reset ∧
    t.seq = .idle ∧ t.fuses = s.fuses ∧ t.ledger = s.ledger ∧ t.pending = s.pending ∧ t.host.mem = s.host.mem) ∧
  (∀ s : State, s.hotSwap.switchOn = true → s.shutdown.done = false → s.devState = .failed →
    ∃ t, exec .attnBlink s = .next t ∧ t.hotSwap = { s.hotSwap with attn := !s.hotSwap.attn, lastBlink := t.cairn } ∧
      t.cairn = cairnMax s.cairn (roundUp (s.hotSwap.lastBlink + 500000000) 4) ∧
      t = { s with cairn := t.cairn, hotSwap := t.hotSwap }) ∧
  (∀ s : State, exec (.powerOff false true) s = .next { s with hotSwap := { s.hotSwap with powerOff := false } }) ∧
  (∀ (s : State) (v : Bool) (w : Nat), exec (.powerOff v false) s = .next s ∧ exec (.powerCycle false) s = .next s ∧
    exec (.mgCoordWrite w false) s = .next s ∧ exec (.mgShutdownReq false) s = .next s) ∧
  (∀ s : State, s.smbAlert = true ↔ ∃ i, bit s.mgmt.alert i = true ∧ bit s.mgmt.alertEn i = true) ∧
  ∀ s : State, s.hotSwap.switchOn = true → s.fw.running = true →
    exec .smbusAlertResponse s = .next { s with mgmt := { s.mgmt with
      answer := if s.smbAlert then some (0x50 + Config.sledAddress % 8) else none } }

/-- What a block write to the sideband registers changes, and all that it changes -/
def Obligations.ManagementRegisterWrites : Prop :=
  ∀ s : State, s.hotSwap.switchOn = true → s.fw.running = true →
    (∀ b : List Byte, b.length = 4 → exec (.smbusRegisterWrite .management 0x18 b true) s =
      .next { s with power := { s.power with capW := leNat b % 2 ^ 12 } }) ∧
    (∀ b : List Byte, b.length = 2 →
      exec (.smbusRegisterWrite .management 0x24 b true) s =
        .next { s with mgmt := { s.mgmt with alert := s.mgmt.alert &&& (0x1F - leNat b % 2 ^ 5) } } ∧
      exec (.smbusRegisterWrite .management 0x26 b true) s =
        .next { s with mgmt := { s.mgmt with alertEn := leNat b % 2 ^ 5 } } ∧
      exec (.smbusRegisterWrite .management 0x28 b true) s = .next { s with mgmt := { s.mgmt with resultIdx := leNat b } }) ∧
    (∀ b : Byte, bit b.toNat 7 = true → exec (.smbusRegisterWrite .hotSwap 1 [b] true) s =
      .next { s with hotSwap := { s.hotSwap with unread := false } }) ∧
    (∀ v : Nat, bit v 14 = false →
      exec (.mgCoordWrite v true) s = .next { s with mgmt := { s.mgmt with coord := v % 2 ^ 15 } }) ∧
    (∀ v : Nat, bit v 14 = true →
      (idIn s.fabric.dims (v % 2 ^ 14) = false ∨
        s.fabric.everUp = true ∧ s.fabric.source ≠ 0 ∧ s.fabric.id ≠ v % 2 ^ 14) →
      exec (.mgCoordWrite v true) s =
        .next { s with mgmt := { s.mgmt with coord := v % 2 ^ 15, alert := s.mgmt.alert ||| 2 ^ 4 } }) ∧
    ∀ v : Nat, bit v 14 = true → idIn s.fabric.dims (v % 2 ^ 14) = true → s.fabric.everUp = false →
      ∃ t, exec (.mgCoordWrite v true) s = .next t ∧ t.fabric.id = v % 2 ^ 14 ∧ t.fabric.source = 1 ∧
        t.mgmt.coord = v % 2 ^ 15 ∧ t.mgmt.alert = s.mgmt.alert ∧ t.tiles = s.tiles ∧ t.graphs = s.graphs ∧ t.mem = s.mem ∧
        t.power = s.power ∧ t.regs = s.regs ∧ t.hotSwap = s.hotSwap

/-- A shutdown request from the sideband or from SHUTDOWN_CTRL begins an orderly shutdown: it waits for bound graphs, or
its slices begin -/
def Obligations.ShutdownRequestBegins : Prop :=
  ∀ s : State, s.hotSwap.switchOn = true → s.fw.running = true →
    (s.seq = .idle → s.shutdown.busy = false → s.graphIds ≠ [] → s.shutdown.forceUnload = false →
      ∃ t, exec (.mgShutdownReq true) s = .next t ∧ t.shutdown.busy = true ∧ t.shutdown.done = false ∧
        t.shutdown.scheduling = false ∧ t.graphs = s.graphs ∧ t.tiles = s.tiles ∧ t.mem = s.mem ∧ t.tracker = s.tracker) ∧
    (s.seq = .idle → s.shutdown.busy = false → s.graphIds = [] → 1 ≤ s.shutdown.budgetS → s.fuses.lcState ≠ 0 →
      s.fuses.lcState ≠ 5 →
      ∃ t, exec (.mgShutdownReq true) s = .next t ∧ t.shutdown.busy = true ∧ t.shutdown.scheduling = true ∧
        t.shutdown.usedMs = 0 ∧ t.graphs = s.graphs ∧ t.tiles = s.tiles ∧ t.mem = s.mem ∧
        t.ledger.training = (s.saveTraining).ledger.training) ∧
    (s.shutdown.busy = true → exec (.mgShutdownReq true) s = .next s)

/-- What brownout and overvoltage warnings set, clear, record and end, and how the loss of converters lowers the power
limit -/
def Obligations.InputPowerRows : Prop :=
  (∀ (s : State) (mv : Nat), s.hotSwap.switchOn = true → mv < 42500 → s.power.brownout = false →
    ∃ t, exec (.brownoutWarn mv) s = .next t ∧ t.power.brownout = true ∧ t.hotSwap.vin = mv ∧
      (s.cairn, ⟨0x1701, mv, 0, 0⟩) ∈ t.ledger.events ∧
      (∀ i < 320, ∀ e cases retest, (t.tile i).use ≠ .stress e cases retest) ∧
      t.mem = { s.mem with stagingDone := t.mem.stagingDone } ∧ t.graphs = s.graphs ∧ t.tracker = s.tracker ∧
      t.fabric = s.fabric ∧ t.regs = s.regs ∧ t.fuses = s.fuses) ∧
  (∀ (s : State) (mv : Nat), s.power.brownout = true → 43000 ≤ mv →
    ∃ t, exec (.brownoutClear mv) s = .next t ∧ t.power = { s.power with brownout := false } ∧
      t.ledger.events = s.ledger.events ++ [(s.cairn, ⟨0x1702, mv, 0, 0⟩)] ∧
      t = { s with power := t.power, hotSwap := t.hotSwap, ledger := t.ledger, host := t.host }) ∧
  (∀ (s : State) (mv : Nat), s.hotSwap.switchOn = true → 57000 < mv → s.power.overvoltage = false →
    ∃ t, exec (.overvoltageWarn mv) s = .next t ∧ t.power = { s.power with overvoltage := true } ∧
      t.ledger.events = s.ledger.events ++ [(s.cairn, ⟨0x1703, mv, 0, 0⟩)] ∧ t.hotSwap.switchOn = true ∧
      t = { s with power := t.power, hotSwap := t.hotSwap, ledger := t.ledger, host := t.host }) ∧
  (∀ s : State, exec .overvoltageRearm s = .next { s with power := { s.power with overvoltage := false } }) ∧
  ∀ (s : State) (n : Nat), s.hotSwap.switchOn = true → s.fw.running = true → n < 8 → n ∉ s.power.ibcFailed →
    s.power.ibcFailed.length < 5 →
    ∃ t, exec (.ibcFail n) s = .next t ∧ t.power = { s.power with ibcFailed := s.power.ibcFailed ++ [n] } ∧
      t.ledger.events = s.ledger.events ++ [(s.cairn, ⟨0x1704, 0, n, t.power.ibcFailed.length⟩)] ∧
      t.mgmt.alert = s.mgmt.alert ||| 2 ^ 2 ∧
      (2 ≤ t.power.ibcFailed.length → 7 * t.power.limit ≤ 70000 * (1950 * (8 - t.power.ibcFailed.length))) ∧
      (t.power.ibcFailed.length = 1 → t.power.limit = s.power.limit) ∧
      t = { s with power := t.power, ledger := t.ledger, mgmt := t.mgmt, host := t.host }

/-- What a phase report adds to a tile phase's score, and what stops, disconnects and sheds a phase -/
def Obligations.RegulatorPhaseRows : Prop :=
  (∀ (s : State) (dom p : Nat), s.hotSwap.switchOn = true → s.fw.running = true → dom < 688 → p < phasesOf dom →
    (s.phase (dom * 8 + p)).dead = false →
    (dom < 320 → ∀ c ∈ [Instr.phOvercurrent dom p, .phRegulation dom p, .undervoltage dom p],
      ∃ t, exec c s = .next t ∧ (t.phase (dom * 8 + p)).score = min ((s.phase (dom * 8 + p)).score + 256) 65535 ∧
        t.mem = { s.mem with stagingDone := t.mem.stagingDone } ∧ t.regs = s.regs ∧ t.fuses = s.fuses) ∧
    (320 ≤ dom →
      exec (.phOvercurrent dom p) s = .next (s.ledgerEvent 0x1705 1 dom p) ∧
      exec (.phRegulation dom p) s = .next (s.ledgerEvent 0x1705 3 dom p) ∧
      exec (.undervoltage dom p) s = .next (s.ledgerEvent 0x1F09 0 dom 0))) ∧
  (∀ (s : State) (dom p : Nat), s.hotSwap.switchOn = true → s.fw.running = true → dom < 320 → p < 8 →
    ((s.phase (dom * 8 + p)).stopped = false → (s.phase (dom * 8 + p)).dead = false →
      ∃ t, exec (.phOvertemp dom p) s = .next t ∧ (t.phase (dom * 8 + p)).stopped = true ∧
        t.mem = { s.mem with stagingDone := t.mem.stagingDone }) ∧
    ((s.phase (dom * 8 + p)).stopped = true →
      ∃ t, exec (.phOvertempClear dom p) s = .next t ∧ t.phase (dom * 8 + p) = { s.phase (dom * 8 + p) with stopped := false } ∧
        (∀ n, n ≠ dom * 8 + p → t.phase n = s.phase n) ∧ (∀ i, i ≠ dom → t.tile i = s.tile i) ∧
        (t.failedPhases dom < 2 → (t.tile dom).capped = (s.tile dom).ceilingCap) ∧ t = { s with power := t.power, tiles := t.tiles }) ∧
    ((s.phase (dom * 8 + p)).dead = false →
      ∃ t, exec (.phDead dom p) s = .next t ∧ (t.phase (dom * 8 + p)).dead = true ∧ (t.phase (dom * 8 + p)).failed = true ∧
        1024 ≤ (t.phase (dom * 8 + p)).score ∧ t.mem = { s.mem with stagingDone := t.mem.stagingDone })) ∧
  ∀ (s : State) (dom : Nat), s.hotSwap.switchOn = true → s.fw.running = true → dom < 320 →
    ((s.tile dom).quietEngines = false → exec (.phaseShed dom) s = .next s) ∧
    ((s.tile dom).quietEngines = true → ∃ t, exec (.phaseShed dom) s = .next t ∧ t = { s with power := { s.power with phases := t.power.phases } } ∧
      ∀ n, t.phase n =
        if n / 8 = dom ∧ (s.phase n).bad = false ∧
          2 ≤ ((List.range (n % 8)).filter fun p => !(s.phase (dom * 8 + p)).bad).length
        then { s.phase n with shed := true } else s.phase n)

/-- How a domain's staging is queued, advances by one stage of sixteen, ends with the domain switched, and lowers the set
point when it stalls -/
def Obligations.DomainStagingRows : Prop :=
  ∀ s : State, s.hotSwap.switchOn = true → s.fw.running = true → s.seq = .idle →
    (∀ dom < 688, s.mayTurnOn dom = true → s.hood (hoodOf dom) = [] →
      ∃ t, exec (.powerDomainTurnOn dom) s = .next t ∧
        t.hood (hoodOf dom) = [⟨dom, true, 0, roundUp (s.cairn + 2000) 4, 0, false, false⟩] ∧
        (∀ h, h ≠ hoodOf dom → t.hood h = s.hood h) ∧ t = { s with power := t.power }) ∧
    (∀ dom < 688, s.mayTurnOff dom = true → s.hood (hoodOf dom) = [] →
      (320 ≤ dom ∧ dom < 640 → (s.tile (dom - 320)).inUse = false) →
      ∃ t, exec (.powerDomainTurnOff dom) s = .next t ∧
        t.hood (hoodOf dom) = [⟨dom, false, 0, roundUp (s.cairn + 2000) 4, 0, false, false⟩] ∧ t = { s with power := t.power }) ∧
    (∀ i < 320, s.mayTurnOff (320 + i) = true → s.hood (hoodOf (320 + i)) = [] → (s.tile i).inUse = true →
      ∃ t, exec (.powerDomainTurnOff (320 + i)) s = .next t ∧ t.tile i = { s.tile i with tarnPower := .retain } ∧
        (∀ j, j ≠ i → t.tile j = s.tile j) ∧ t = { s with cairn := t.cairn, tiles := t.tiles }) ∧
    (∀ h < 29, ∀ (g : Staging) (q : List Staging) (low : Bool), s.hood h = g :: q → g.stage < 16 →
      (g.on && low && decide (1 ≤ g.stage)) = false →
      ∃ t, exec (.powerStage h low) s = .next t ∧
        t.hood h = { g with stage := g.stage + 1, at_ := g.at_ + 250 } :: q ∧ t.tiles = s.tiles ∧
        t = { s with cairn := t.cairn, power := t.power }) ∧
    (∀ h < 29, ∀ (g : Staging) (q : List Staging), s.hood h = g :: q → g.on = true → 1 ≤ g.stage → g.stage < 16 →
      ∃ t, exec (.powerStage h true) s = .next t ∧
        t.hood h = { g with at_ := t.cairn, waited := g.waited + cairnSince (cairnMax s.cairn g.at_) t.cairn } :: q ∧ t = { s with cairn := t.cairn, power := t.power }) ∧
    (∀ h < 29, ∀ (g : Staging), s.hood h = [g] → h = hoodOf g.dom → g.stage = 16 → g.stalled = false → g.lowered = false →
      ((if g.on then g.dom ∈ s.power.lost else s.mayTurnOff g.dom = false) →
        ∃ t, exec (.powerStage h false) s = .next t ∧ t.hood h = [] ∧ t = { s with cairn := t.cairn, power := t.power }) ∧
      ((if g.on then g.dom ∉ s.power.lost ∧ s.mem.copies = [] else s.mayTurnOff g.dom = true) →
      ∃ t, exec (.powerStage h false) s = .next t ∧ t.power.setMhz = s.power.setMhz ∧
        (g.dom < 320 → (t.tile g.dom).on = g.on) ∧
        (g.dom < 320 → g.on = true → t.hood h = [] ∧
          ((s.tile g.dom).staging = [] → t.tile g.dom = { s.tile g.dom with on := true })) ∧
        (g.dom < 320 → g.on = false → (s.tile g.dom).inUse = true → (s.tile g.dom).tarnPower ≠ .off → t.hood h = [] ∧
          (t.tile g.dom).tarnPower = .retain) ∧
        (g.dom < 320 → g.on = false → (s.tile g.dom).inUse = false → (s.tile g.dom).fenced = false →
          (s.tile g.dom).tarnPower ≠ .off →
          t.hood h = [⟨320 + g.dom, false, 0, roundUp (t.cairn + 2000) 4, 0, false, false⟩]) ∧
        (320 ≤ g.dom → g.dom < 640 → t.hood h = [] ∧
          (t.tile (g.dom - 320)).tarnPower = if g.on then .active else .off) ∧
        (640 ≤ g.dom → g.dom < 660 → t.hood h = [] ∧ Tab.get false t.planes.routerOn (g.dom - 640) = g.on) ∧
        (660 ≤ g.dom → g.dom < 677 → t.hood h = [] ∧ Tab.get false t.power.domOff g.dom = !g.on))) ∧
    ∀ h < 29, ∀ (g : Staging) (q : List Staging), s.hood h = g :: q → g.on = true → g.stalled = false → 1 ≤ g.stage →
      g.stage < 16 →
      ∃ t, exec (.powerStageStalled h) s = .next t ∧ t.power.setMhz = max 900 (s.power.setMhz - 10) ∧
        t.power.stallSteps = s.power.stallSteps + 1 ∧ (∃ g', t.hood h = g' :: q ∧ g'.stalled = true ∧ g'.dom = g.dom)

/-- A power sample takes the readings, and moves the clock set point down above a limit and up by at most one step below
it -/
def Obligations.PowerSampleSetPoint : Prop :=
  ∀ (s : State) (r : PowerReading), s.hotSwap.switchOn = true → s.fw.running = true → 900 ≤ s.power.setMhz →
    (∀ h, ∀ g ∈ s.hood h, g.lowered = false) →
    ∃ t, exec (.powerSample r) s = .next t ∧
      t.cairn = cairnMax s.cairn (roundUp (s.power.lastSample + 100000) 4) ∧ t.power.lastSample = t.cairn ∧
      t.power.inputMv = r.mv % 2 ^ 16 ∧ t.power.inputW = r.w10 % 2 ^ 12 ∧ t.hotSwap.iin = r.iNow % 2 ^ 16 ∧
      900 ≤ t.power.setMhz ∧ t.power.setMhz ≤ max s.power.setMhz s.power.top ∧ t.power.setMhz ≤ s.power.setMhz + 10 ∧
      (s.power.setMhz < t.power.setMhz → 1000000 ≤ cairnSince s.power.lastRaise t.cairn ∧ t.power.lastRaise = t.cairn) ∧
      (t.power.limit < r.w10 * 70000 → t.power.setMhz ≤ s.power.setMhz ∧ t.power.limPower = true) ∧
      (4450 < r.i1 → t.power.setMhz ≤ s.power.setMhz ∧ t.power.limCurrent = true) ∧
      (4450 < r.i1 → s.power.overCurrent = false → t.power.setMhz ≤ max 900 (s.power.setMhz - 50)) ∧
      t.mem = { s.mem with stagingDone := t.mem.stagingDone } ∧ t.graphs = s.graphs ∧ t.regs = s.regs ∧ t.fabric = s.fabric

/-- What a hot sensor, the halt of the tiles and their return do -/
def Obligations.ThermalRows : Prop :=
  ∀ s : State, s.hotSwap.switchOn = true → s.fw.running = true →
    (∀ (celsius island : Nat) (hot : Bool), island < 368 → (hot = true ∨ islandLimit island < celsius) →
      (s.stressed island = true → exec (.thermalStep celsius island hot) s = .next s) ∧
      (s.stressed island = false → ∃ t, exec (.thermalStep celsius island hot) s = .next t ∧ t.power.setMhz = max 900 (s.power.setMhz - 10) ∧
        t.power.limThermal = true ∧ t.power.lastThermal = t.cairn ∧
        t = { s with cairn := t.cairn, power := t.power, mgmt := t.mgmt, ledger := t.ledger, host := t.host })) ∧
    (∀ celsius island : Nat, island < 356 → 115 < celsius → s.power.halted = false →
      ∃ t, exec (.thermalHalt celsius island) s = .next t ∧ t.power.halted = true ∧
        (∀ i < 320, (t.tile i).on = true → t.hasStaging i false = true) ∧
        (∀ i < 320, t.hasStaging i true = false ∧ t.hasStaging (320 + i) true = false) ∧
        (∀ i < 320, (t.tile i).on = false → (t.tile i).inUse = true → (t.tile i).tarnPower ≠ .active) ∧
        (∀ g y, g < 8 → s.graph? g = some y → ∃ z a, t.graph? g = some z ∧ z.abandon = some a ∧ 6 ∈ a.causes)) ∧
    ∀ celsius island : Nat, island < 368 → celsius < 95 → s.power.halted = true →
      ∃ t, exec (.thermalResume celsius island) s = .next t ∧ t.power.halted = false ∧
        (∀ i < 320, ∀ g v, (s.tile i).use = .bound g v → (s.tile i).fenced = false →
          (t.tile i).clearing = true ∧ (t.tile i).tarn = [] ∧
          ((s.tile i).on = false → i ∉ s.power.lost → t.hasStaging i true = true) ∧
          ((s.tile i).tarnPower ≠ .active → 320 + i ∉ s.power.lost → t.hasStaging (320 + i) true = true)) ∧
        (∀ i < 320, (s.tile i).use = .free → t.tile i = s.tile i) ∧ t.graphs = s.graphs ∧ t.mem = s.mem

/-- The clock reference, droop stretches, the voltage loop, equalisation, HBM training and the saving of values -/
def Obligations.ClockAndLoopRows : Prop :=
  ∀ s : State, s.hotSwap.switchOn = true → s.fw.running = true →
    (s.power.refHoldover = false → ∃ t, exec .clockRefLost s = .next t ∧ t.power = { s.power with refHoldover := true } ∧
      t.ledger.events = s.ledger.events ++ [(s.cairn, ⟨0x170E, s.cairn, 0, 0⟩)] ∧
      t = { s with power := t.power, ledger := t.ledger, host := t.host }) ∧
    (s.power.refHoldover = true → ∃ t, exec .clockRefRestored s = .next t ∧ t.power = { s.power with refHoldover := false } ∧
      t.ledger.events = s.ledger.events ++ [(s.cairn, ⟨0x170F, s.cairn, 0, 0⟩)] ∧
      t = { s with power := t.power, ledger := t.ledger, host := t.host }) ∧
    (∀ island < 368, s.islandOn island = true →
      (16 ≤ (s.stretchOf island).length → exec (.droopStretch island) s = .next (s.raise 0x170D 0 island 0)) ∧
      ((s.stretchOf island).length < 16 → (s.inStep 368 [island] []).2 ≠ [] →
        ∃ t, exec (.droopStretch island) s = .next t ∧ t.power = s.power) ∧
      ((s.stretchOf island).length < 16 → (s.inStep 368 [island] []).2 = [] → ∃ t, exec (.droopStretch island) s = .next t ∧
        Tab.get [] t.power.stretch island = s.stretchOf island ++ [s.cairn] ∧
        (∀ j ∈ s.saddleMates island, (s.apartOf island j).length ≤ 16 → (t.apartOf island j).length ≤ 16) ∧
        t = { s with power := { s.power with stretch := t.power.stretch, apart := t.power.apart } })) ∧
    (∀ (dom : Nat) (steps : Int), (dom < 320 ∨ 640 ≤ dom ∧ dom < 660) →
      overCeiling (s.power.setMhz * 1000) (s.trimOf dom + steps) = false →
      ∃ t, exec (.voltageLoop dom steps) s = .next t ∧ t = { s with power := t.power, tiles := t.tiles } ∧
        t.power = { s.power with
          trims := Tab.put 16 dom (max (-16) (min 32 (s.trimOf dom + steps))) s.power.trims } ∧
        (∀ i, i ≠ dom → t.tile i = s.tile i) ∧ (dom < 320 → (t.tile dom).ceilingCap = false)) ∧
    (∀ p taps : Nat, p < 6 → (s.port p).state = .up → ∃ t, exec (.filzorEqualisationUpdate p taps) s = .next t ∧
      t.port p = { s.port p with taps := taps } ∧ (∀ q, q ≠ p → t.port q = s.port q) ∧ t = { s with fabric := t.fabric }) ∧
    (∀ sg vals : Nat, sg < 16 → s.inService = true →
      exec (.hbmTrainingUpdate sg vals) s =
        .next { s with power := { s.power with hbmTrain := Tab.put 0 sg vals s.power.hbmTrain } }) ∧
    (s.cairnOn = true → ∃ t, exec .trainingSave s = .next t ∧ t.ledger.hours = s.ledger.hours + 24 ∧
      t.ledger.lastSave = t.cairn ∧ (∀ d v, (d, v) ∈ s.power.trims → ∃ e ∈ t.ledger.training,
        e.kind = 6 ∧ e.part = d ∧ e.value = (v + 16).toNat ∧ e.hours = t.ledger.hours ∧ e.crc = e.sum) ∧
      t = { s with cairn := t.cairn, ledger := t.ledger })

/-- Each phase of a cold start leads to the next, and the last one into service, or to FAILED -/
def Obligations.ColdStartPhases : Prop :=
  ∀ (s : State) (r : StartReport) (c : Instr), (c = .startPhaseComplete r ∨ c = .startPhaseBudgetExpiry r) →
    (s.seq = .start 1 → r.image = true → s.ledgerVerifies = true →
      ∃ t, exec c s = .next t ∧ t.seq = .start 2 ∧ t.cairn = 0 ∧ t.fw.running = true ∧ t.fw.loaded = s.manifest ∧
        t.hotSwap.ramping = false ∧ t.host = s.host ∧ t.mem = s.mem ∧ t.fuses = s.fuses) ∧
    (s.seq = .start 1 → (r.image = false ∨ s.ledgerVerifies = false) →
      ∃ t, exec c s = .next t ∧ t.seq = .rescue ∧ t.host.bar0 = true ∧ t.fw = { s.fw with cairnKept := false } ∧ t.ledger = s.ledger ∧ t.mem = s.mem) ∧
    (s.seq = .start 2 → ∃ t, exec c s = .next t ∧ t.seq = .start 3 ∧
      (∀ m < 20, Tab.get false t.planes.routerOn m = decide (640 + m ∉ s.power.lost)) ∧
      t.host = s.host ∧ t.mem = s.mem ∧ t.fuses = s.fuses) ∧
    (s.seq = .start 3 → ∃ t, exec c s = .next t ∧ t.seq = .start 4 ∧
      (∀ key a, s.regs.streamTable ≤ a → a < s.regs.streamTable + 2 ^ 28 → t.mem.hbm.get key 0 a = 0) ∧
      ((∀ n < 64, ∀ i, (t.slice n).state ≠ .retired i) → (∀ n < 64, ∀ i k, (t.slice n).state ≠ .retiring i k) →
        t.mem.cxl = s.mem.cxl) ∧ t.fuses = s.fuses) ∧
    (s.seq = .start 4 → ∃ t, exec c s = .next t ∧ t.seq = .start 5 ∧ t.host.bar0 = true ∧ t.host.retry = false ∧
      t.mem.hbm = s.mem.hbm ∧ t.tiles = s.tiles ∧ t.fuses = s.fuses) ∧
    (s.seq = .start 5 → s.selfTest.fault = none → r.tracker = true → r.bridge = true →
      ∃ t, exec c s = .next t ∧ t.seq = .idle ∧ t.devState = (if t.usableTiles < 256 then .degraded else .ready) ∧
        t.host.wake = true ∧ t.mem.hbm = s.mem.hbm ∧ t.mem.cxl = s.mem.cxl ∧ t.graphs = s.graphs ∧ s.fuses.rollback ≤ t.fuses.rollback) ∧
    (s.seq = .start 5 → s.selfTest.fault ≠ none →
      ∃ t, exec c s = .next t ∧ t.seq = .idle ∧ t.devState = .failed ∧ t.mem.hbm = s.mem.hbm ∧ t.mem.cxl = s.mem.cxl ∧
        t.graphs = s.graphs ∧ t.fuses = s.fuses)

/-- A tile's known-answer run: one repeat after a failure, FENCED at the second, SUSPECT at a pass that follows a failure -/
def Obligations.KnownAnswerRuns : Prop :=
  ∀ (s : State) (i : Nat), i < 320 → s.tilesTested = true →
    (i ∉ s.selfTest.katFailed →
      exec (.knownAnswerRunDone i false) s =
        .next { s with selfTest := { s.selfTest with katFailed := s.selfTest.katFailed ++ [i] } } ∧
      exec (.knownAnswerRunDone i true) s = .next s) ∧
    (s.selfTest.katFailed.count i = 1 →
      (∃ t, exec (.knownAnswerRunDone i false) s = .next t ∧ (t.tile i).fenced = true ∧ (t.tile i).score = 4096 ∧
        (t.tile i).part = 3 ∧ (s.ledger.defects.length < 4096 → t.markedBad 1 i = true) ∧
        t.mem = { s.mem with stagingDone := t.mem.stagingDone }) ∧
      ((s.tile i).part ≠ 3 → ∃ t, exec (.knownAnswerRunDone i true) s = .next t ∧ (t.tile i).score = 1024 ∧
        (t.tile i).part = 2 ∧ i ∉ t.selfTest.katFailed ∧ (∀ j, j ≠ i → t.tile j = s.tile j) ∧ t.mem = s.mem))

/-- A dump group adds eight tile records, the budget ends the dump truncated, and a side access given up makes its unit
unreachable -/
def Obligations.CrashDumpRows : Prop :=
  ∀ s : State, s.dump.running = true →
    (s.dump.unreach = [] → s.dump.tiles + 8 < 320 → dumpHead + (s.dump.tiles + 8) * s.dump.recordBytes ≤ s.dump.size →
      (∀ i < 8, cairnSince s.dump.cairnStart s.cairn + s.dumpTime (s.dump.tiles + i) ≤ 300000000) →
      ∃ t, exec (.dumpGroupDone []) s = .next t ∧
        t.dump = { s.dump with tiles := s.dump.tiles + 8, cairnEnd := t.cairn } ∧
        (s.cairn < 2 ^ 62 → ∀ i < 8, s.cairn + s.dumpTime (s.dump.tiles + i) ≤ t.cairn) ∧
        (∀ j, s.dump.tiles ≤ j → j < s.dump.tiles + 8 → (s.tile j).fenced = true → (s.tile j).tarnPower = .retain →
          t.hasStaging (320 + j) false = true) ∧
        t = { s with dump := t.dump, host := t.host, cairn := t.cairn, power := t.power }) ∧
    (∃ t, exec .dumpBudgetExpiry s = .next t ∧
      t.dump = { s.dump with done := true, running := false, truncated := true } ∧
      t.cairn = cairnMax s.cairn (roundUp (s.dump.cairnStart + 300000000) 4) ∧
      (∀ j < 320, (s.tile j).fenced = true → (s.tile j).tarnPower = .retain → t.hasStaging (320 + j) false = true) ∧
      t = { s with dump := t.dump, host := t.host, cairn := t.cairn, draws := t.draws, power := t.power }) ∧
    ∀ i u : Nat, i < 320 → u < 97 → (i, u) ∉ s.dump.unreach →
      exec (.sideAccessTimeout i u) s = .next { s with dump := { s.dump with unreach := s.dump.unreach ++ [(i, u)] } }

/-- A recovery reset starts on GO and on every reset of the host function, and a dump is taken only after a GO with the
dump enabled and sized -/
def Obligations.HostResetsStartRecovery : Prop :=
  ∀ s : State, s.hotSwap.switchOn = true → s.seq = .idle → s.selfTest.fault = none →
    (∀ c : Instr,
      ((c = .functionLevelReset ∨ c = .hotReset ∨ c = .d3hotToD0 ∨ c = .perstNAssert) ∧ s.host.linkUp = true) ∨
        (c = .hostLinkReturn ∧ s.host.linkUp = false ∧ s.host.downInStart = false) →
      ∃ t, exec c s = .next t ∧ t.seq = .recovery 1 0 false false ∧ t.devState = .recovering ∧ t.host.sq = [] ∧ t.host.cq = [] ∧
        t.host.hv = [] ∧ t.host.descs = [] ∧ t.host.fetches = [] ∧ t.host.dbBase = 0 ∧ t.host.evtEnable = false ∧
        t.host.linkUp = true ∧ t.regs.locked = false ∧ t.host.bar0 = false ∧ t.host.retry = true ∧ t.host.dmaStopped = true ∧
        t.mem = { s.mem with copies := [], images := [] } ∧ t.tracker = s.tracker ∧ t.graphs = s.graphs ∧ t.ledger = s.ledger ∧
        t.fuses = s.fuses ∧ t.pending = s.pending) ∧
    (s.host.linkUp = true → exec .hostLinkDown s = .next { s with host := { s.host with
      linkUp := false, dmaStopped := true, pcie := { s.host.pcie with surpriseDown := true } } }) ∧
    (∀ v : Nat, s.bar0Answers = true → s.devState ≠ .failed → v < 2 ^ 32 → bit v 0 = true →
      ∃ t, exec (.recoveryCtrlGo ⟨0x60000, 4, v⟩) s = .next t ∧ t.seq = .recovery 1 0 false true ∧ t.devState = .recovering ∧
        t.dump = { s.dump with enable := bit v 1, startUnit := bits v 8 7, sampleUnits := bits v 16 7
                               done := false, truncated := false, skipped := false, tiles := 0 } ∧
        t.regs = s.regs ∧ t.host.dbBase = s.host.dbBase ∧ t.host.bar0 = s.host.bar0 ∧ t.host.dmaStopped = true ∧
        t.mem = { s.mem with copies := [], images := [] } ∧ t.tracker = s.tracker ∧ t.graphs = s.graphs ∧ t.ledger = s.ledger ∧ t.fuses = s.fuses ∧ t.pending = s.pending) ∧
    ∀ (z : State) (r : StartReport) (n : Nat) (go : Bool), z.seq = .recovery 1 n false go →
      ∃ t, exec (.recoveryStageComplete r) z = .next t ∧ t.seq = .recovery 2 n true go ∧
        ((go = true ∧ z.dump.enable = true ∧ z.dump.size ≠ 0) → t.dump.running = true ∧ t.dump.skipped = false) ∧
        (¬(go = true ∧ z.dump.enable = true ∧ z.dump.size ≠ 0) → t.dump = { z.dump with skipped := true })

/-- Each stage of a recovery leads to the next; a timeout restarts it, and the fourth restart leaves the module FAILED -/
def Obligations.RecoveryStages : Prop :=
  ∀ (s : State) (r : StartReport) (n : Nat) (d go : Bool),
    (s.seq = .recovery 1 n d go → (go && s.dump.enable && s.dump.size != 0) = false →
      ∃ t, exec (.recoveryStageComplete r) s = .next t ∧ t.seq = .recovery 2 n true go ∧ (d = false → t.dump.skipped = true) ∧
        t = { s with seq := t.seq, dump := t.dump }) ∧
    (s.seq = .recovery 2 n d go → s.dump.running = false →
      exec (.recoveryStageComplete r) s = .next { s with seq := .recovery 3 n d go }) ∧
    (s.seq = .recovery 3 n d go →
      exec (.recoveryStageComplete r) s = .next { s with seq := .recovery 4 n d go, fw := { s.fw with running := false } }) ∧
    (s.seq = .recovery 4 n d go → r.image = true → s.ledgerVerifies = true →
      ∃ t, exec (.recoveryStageComplete r) s = .next t ∧ t.seq = .recovery 5 n true go ∧ t.tiles = [] ∧ t.planes = .reset ∧
        t.fw.running = true ∧ t.mem.hbm = s.mem.hbm ∧ t.mem.cxl = s.mem.cxl ∧ t.graphs = s.graphs ∧ t.fuses = s.fuses ∧
        t.cairn = s.cairn) ∧
    (s.seq = .recovery 5 n d go → ∃ t, exec (.recoveryStageComplete r) s = .next t ∧ t.seq = .recovery 6 n d go ∧ t.mem = s.mem) ∧
    (s.seq = .recovery 6 n d go → ∃ t, exec (.recoveryStageComplete r) s = .next t ∧ t.seq = .recovery 7 n d go ∧
      t.mem.hbm = s.mem.hbm) ∧
    (s.seq = .recovery 7 n d go → ∃ t, exec (.recoveryStageComplete r) s = .next t ∧ t.seq = .recovery 8 n d go ∧
      t.host.bar0 = true ∧ t.host.retry = false ∧ t.mem = s.mem) ∧
    (s.seq = .recovery 8 n d go → ∃ t, exec (.recoveryStageComplete r) s = .next t ∧ t.seq = .recovery 9 n true go ∧
      t.graphs = s.graphs) ∧
    (s.seq = .recovery 9 n d go → s.selfTest.fault = none →
      ∃ t, exec (.recoveryStageComplete r) s = .next t ∧ t.seq = .idle ∧ t.recoveries = (s.recoveries + 1) % 2 ^ 32 ∧
        t.host.dmaStopped = false ∧ (t.devState = .ready ∨ t.devState = .degraded)) ∧
    (∀ st, st ≠ 2 → s.seq = .recovery st n d go → n < 3 →
      ∃ t, exec .recoveryStageTimeout s = .next t ∧ t.seq = .recovery (if 3 ≤ st then 3 else 1) (n + 1) (d || s.dump.running) go ∧
        t.dump.running = false ∧ t.mem = s.mem ∧ t.graphs = s.graphs) ∧
    ∀ st, st ≠ 2 → s.seq = .recovery st n d go → 3 ≤ n →
      ∃ t, exec .recoveryStageTimeout s = .next t ∧ t.seq = .idle ∧ t.devState = .failed ∧ t.host.bar0 = true ∧ t.mem = s.mem

/-- What a poll, a fetch, its completion, SKIP, a heartbeat, an unmasking and a configuration request do -/
def Obligations.RingRows : Prop :=
  ∀ s : State,
    (s.ringsRun = true → ∀ (e : AerError) (bs : List Byte), ∃ t, exec (.doorbellPoll (.failed e bs)) s = .next t ∧
      t.cairn = cairnMax s.cairn (roundUp s.pollDue 4) ∧ e ∈ t.host.pcie.aer ∧
      t.host.lastPoll = t.cairn ∧ t.host.wake = false ∧ t.host.sq = s.host.sq ∧ t = { s with cairn := t.cairn, host := t.host }) ∧
    (∀ (page : List Byte) (n : Nat), s.ringsRun = true → page.length = 0x900 → n < 256 → (s.sq n).enable = true →
      (s.sq n).halted = false → count32 (s.sq n).fetched (s.sq n).count ≤ count32 (field page (4 * n) 4) (s.sq n).count →
      count32 (field page (4 * n) 4) (s.sq n).count ≤ (s.sq n).size →
      ∃ t, exec (.doorbellPoll (.data page)) s = .next t ∧ t.sq n = { s.sq n with other := field page (4 * n) 4 } ∧
        t.mem = s.mem ∧ t.tiles = s.tiles ∧ t.graphs = s.graphs) ∧
    (∀ entries n : Nat, entries < 256 → s.ringsRun = true → s.shutdown.busy = false → s.shutdown.done = false →
      ((List.range 256).map fun i => (s.host.lastRing + 1 + i) % 256).find? (s.canFetch entries) = some n →
      ∃ t, exec (.descriptorFetch entries) s = .next t ∧ t.host.fetches = s.host.fetches ++ [⟨n, (s.sq n).fetched, entries⟩] ∧
        (t.cq (s.sq n).cq).reserved = (s.cq (s.sq n).cq).reserved + 1 ∧
        (t.sq n).fetched = ((s.sq n).fetched + (s.sq n).takesUp entries) % 2 ^ 32 ∧ t.host.lastRing = n ∧ t = { s with host := t.host }) ∧
    (∀ (ring : Nat) (f : Fetch), ring < 256 → s.host.fetches.find? (·.ring == ring) = some f →
      ∀ (e : AerError) (bs : List Byte), ∃ t, exec (.hostReadCompletion ring (.failed e bs)) s = .next t ∧
        e ∈ t.host.pcie.aer ∧ (t.sq f.ring).halted = true ∧ (t.sq f.ring).fetched = f.at_ ∧
        t.host.fetches = s.host.fetches.erase f ∧ t.host.descs = s.host.descs ∧
        (t.cq (s.sq f.ring).cq).count = ((s.cq (s.sq f.ring).cq).count + 1) % 2 ^ 32 ∧ t = { s with host := t.host }) ∧
    (∀ (ring : Nat) (f : Fetch) (b : List Byte), ring < 256 → s.host.fetches.find? (·.ring == ring) = some f → f.entries = 1 →
      b.length = 64 → field b 1 1 = 1 → field b 0 1 ≠ 1 → field b 0 1 ∈ opcodesOf332 →
      ∃ t, exec (.hostReadCompletion ring (.data b)) s = .next t ∧
        t.host.descs = s.host.descs ++ [⟨s.host.nextTag, f.ring, b, f.at_, (f.at_ + 1) % 2 ^ 32, false⟩] ∧
        t.host.nextTag = s.host.nextTag + 1 ∧ (t.sq f.ring).count = (f.at_ + 1) % 2 ^ 32 ∧ t.host.mem = s.host.mem ∧
        t = { s with host := t.host }) ∧
    (∀ (d : Nat) (x : Desc), s.desc d = some x → x.opcode = 1 →
      ∃ t, exec (.skip d) s = .next t ∧ (t.sq x.ring).count = x.next ∧ t.desc d = none ∧ t.host.cq = s.host.cq ∧
        t.host.mem = s.host.mem ∧ t = { s with host := t.host }) ∧
    (s.beats = true → ∃ t, exec .heartbeatWrite s = .next t ∧ t.host.hbCount = (s.host.hbCount + 1) % 2 ^ 64 ∧
      t.cairn = cairnMax s.cairn (roundUp (s.host.lastBeat + 10000000) 4) ∧ t.host.lastBeat = t.cairn ∧
      t = { s with cairn := t.cairn, host := t.host }) ∧
    (∀ (v : Nat) (mask : Bool) (e : Option (Nat × Nat)), v < 2048 →
      ∃ t, exec (.msixUnmask v mask e) s = .next t ∧ Tab.get false t.host.unmasked v = !mask ∧
        (∀ a d, e = some (a, d) → Tab.get (0, 0) t.host.msix v = (a % 2 ^ 64, d % 2 ^ 32)) ∧
        (s.dma = false → t.host.messages = s.host.messages ∧ t.host.pendingVec = s.host.pendingVec) ∧
        (s.dma = true → v ∉ s.host.pendingVec ∨ mask = true →
          (∀ w ∈ s.host.pendingVec, Tab.get false s.host.unmasked w = false) →
          t.host.messages = s.host.messages ∧ t.host.pendingVec = s.host.pendingVec) ∧
        (s.dma = true → mask = false → v ∈ s.host.pendingVec → s.host.pendingVec.Nodup →
          (∀ w ∈ s.host.pendingVec, Tab.get false s.host.unmasked w = false) →
          t.host.messages = s.host.messages ++ [v] ∧ t.host.pendingVec = s.host.pendingVec.filter (· ≠ v)) ∧
        t = { s with host := t.host }) ∧
    (∀ (f : ConfigField) (v : Option Nat), s.hotSwap.switchOn = true → s.host.linkUp = true → s.seq ≠ .start 1 →
      (s.host.retry = true → exec (.pcieConfigRequest f v) s = .next { s with rd := 1 }) ∧
      (s.host.retry = false → v = none → exec (.pcieConfigRequest f v) s =
        .next { s with rd := 0, host := { s.host with pcie := { s.host.pcie with answer := s.configRead f } } }) ∧
      (∀ n, s.host.retry = false → v = some n →
        (∃ t, exec (.pcieConfigRequest f v) s = .next t ∧ t.rd = 0 ∧
          (f = .maxPayload → n = 128 ∨ n = 256 ∨ n = 512 → t.configRead f = n) ∧
          (f = .classCode → t.configRead f = 0x120000) ∧ (f = .deviceId → t.configRead f = 0x0A48) ∧
          t = { s with rd := 0, host := { s.host with pcie := t.host.pcie } })))

/-- A NOP that starts writes one completion record with status OK at its ring's tail and leaves the module's store -/
def Obligations.NopWritesOneRecord : Prop :=
  ∀ (s : State) (d : Nat) (x : Desc),
    s.starts d 0x02 (fun _ => { entries := 1, arg := 0, named := [], align := true }) x → s.dma = true →
    ∃ t, exec (.nop d) s = .next t ∧
      (let q := (s.sq x.ring).cq
       let c := s.cq q
       let at_ := c.base + 32 * (c.count % c.size)
       (t.cq q).count = (c.count + 1) % 2 ^ 32 ∧
         Tab.getAll 0 t.host.mem at_ 32 =
           recBytes ⟨0, stOk, 0, 2, x.ring, x.cookie, (s.sq x.ring).count, 0⟩ (1 - c.count / c.size % 2) c.lost (bits s.cairn 10 32) ∧
         ∀ a, a < at_ ∨ at_ + 32 ≤ a → Tab.get 0 t.host.mem a = Tab.get 0 s.host.mem a) ∧
      t.desc d = none ∧ t = { s with host := t.host }

/-- An update that verifies becomes the ledger's image and is distributed; chunks are stored, missing ones sent again, and
a ready unit switches -/
def Obligations.FirmwareUpdateRows : Prop :=
  (∀ (s : State) (d : Nat) (x : Desc) (img : List Byte), s.starts d 0x70 fwForm x → s.fuses.lcState ≠ 0 → s.fuses.lcState ≠ 5 →
    s.fw.update = none → s.fetchesFirmware x.tag = false → s.dma = true → bit x.arg 0 = true → img.length = x.get 24 8 → s.fuses.imageFaultOf img = none →
    ∃ t, exec (.fwUpdate d (.data img) true) s = .next t ∧ t.ledger = { s.ledger with image := img } ∧
      t.fw.update = some (d, img, bit x.arg 1, 0) ∧ t.desc d = some { x with started := true } ∧ t.tiles = s.tiles ∧
      t.graphs = s.graphs ∧ t.mem = s.mem ∧ t.fuses = s.fuses) ∧
  (∀ (s : State) (u seq tag n : Nat) (img : List Byte) (act : Bool), u < unitTotal → s.fw.update = some (tag, img, act, n) →
    s.fw.activating = false → seq < sectionChunks img (unitKind u) → seq ∉ (s.unit u).chunks →
    (s.unit u).staged = none → s.unitCurrent img u = false →
    (s.unit u).chunks.length + 1 < sectionChunks img (unitKind u) →
    ∃ t, exec (.fwChunk u seq (field (imageDigest img) 0 4)) s = .next t ∧
      t.unit u = { s.unit u with chunks := (s.unit u).chunks ++ [seq], altered := Tab.erase seq (s.unit u).altered } ∧ (∀ v, v ≠ u → t.unit v = s.unit v) ∧
      t = { s with fw := t.fw }) ∧
  (∀ (s : State) (tag n : Nat) (img : List Byte) (act : Bool), s.fw.update = some (tag, img, act, n) → s.fw.activating = false →
    (s.missingUnits img ≠ [] → n < 4 →
      exec .fwRepairRound s = .next { s with fw := { s.fw with update := some (tag, img, act, n + 1) } }) ∧
    (s.missingUnits img = [] → act = false → ∃ t, exec .fwRepairRound s = .next t ∧ t.fw.update = none ∧ t.desc tag = none ∧
      (s.cairn, ⟨0x1801, mBuild img, 0, 0⟩) ∈ t.ledger.events ∧ t.mem = s.mem)) ∧
  ∀ (s : State) (u : Nat) (dg : List Byte), u < unitTotal → s.fw.activating = true → (s.unit u).staged = some dg →
    s.atActivation u = true →
    ∃ t, exec (.fwUnitActivate u) s = .next t ∧ (t.unit u).running = dg ∧ (t.unit u).staged = none ∧ t.mem = s.mem ∧
      t.graphs = s.graphs

/-- A slice's end is recorded with its outcome, the schedule moves on, and the shutdown ends when its budget has passed -/
def Obligations.TestSliceRows : Prop :=
  let latest (xs : List TestResult) : List TestResult := xs.drop (xs.length - 16384)
  ∀ (s : State) (r : SliceReport), r.coverage ≤ 1000 → r.durationMs < 2 ^ 32 →
    (s.shutdown.scheduling = true → s.seq = .idle → ∀ (c : Instr) (cut last : Bool),
      (c = .shutdownSliceDone r ∧ cut = s.sliceOver r ∧ last = false) ∨
        (c = .shutdownBudgetExpiry r last ∧ cut = true) →
      ∃ t skipped, exec c s = .next t ∧ (∀ x ∈ skipped, x.outcome = 3) ∧
        (let k := (sliceAt s.ledger.schedule).1
         let u := (sliceAt s.ledger.schedule).2
         t.ledger.results = latest (s.ledger.results ++
           s.sliceResult k u (if cut then 2 else if s.partsFailed r k u = [] then 0 else 1) 1 r :: skipped)) ∧
        t.shutdown.usedMs = s.shutdown.usedMs + r.durationMs ∧ (cut = true → t.ledger.missed.isSome = true) ∧
        (last = true ∨ s.shutdown.budgetMs ≤ s.shutdown.usedMs + r.durationMs →
          t.shutdown.done = true ∧ t.shutdown.busy = false ∧ t.shutdown.scheduling = false ∧ skipped = [] ∧
          t.ledger.schedule = (s.ledger.schedule + 1) % 70) ∧
        (last = false → s.shutdown.usedMs + r.durationMs < s.shutdown.budgetMs →
          t.shutdown.scheduling = true ∧ t.shutdown.busy = s.shutdown.busy ∧ t.shutdown.done = s.shutdown.done)) ∧
    ∀ (k u : Nat) (early : Bool), s.monitor.testing = some (k, u) → s.program = some false →
      ∃ t, exec (.onDemandSliceDone r early) s = .next t ∧ t.monitor.testing = none ∧
        ∃ x, t.ledger.results = latest (s.ledger.results ++ [x]) ∧ x.slice = k ∧ x.unit_ = u ∧ x.source = 2 ∧
          x.coverage = r.coverage ∧ x.durationMs = r.durationMs ∧ (early = true → x.outcome = 2) ∧
          (early = false → s.partsFailed r k u = [] → x.outcome = 0) ∧
          (early = false → s.partsFailed r k u ≠ [] → x.outcome = 1)

/-- Each training row takes a port from its state to the next, to DOWN, or back, and touches no other port -/
def Obligations.PortTrainingSteps : Prop :=
  ∀ (s : State) (p : Nat), p < 6 →
    (∀ (c : Instr) (old new : PortState), (s.port p).state = old →
      ((c = .fzSignalDetect p ∧ old = .detect ∧ new = .equalise) ∨ (c = .fzEqualiseDone p ∧ old = .equalise ∧ new = .align) ∨
        (c = .fzEqualiseTimeout p ∧ old = .equalise ∧ new = .down) ∨
        (∃ failed, failed % 256 = 0 ∧ c = .fzAlignDone p failed ∧ old = .align ∧ new = .identify) ∨
        (∃ failed, failed % 256 ≠ 0 ∧ failed % 16 = 0 ∧ c = .fzAlignDone p failed ∧ old = .align ∧ new = .identify) ∨
        (∃ failed, failed % 16 ≠ 0 ∧ c = .fzAlignDone p failed ∧ old = .align ∧ new = .down) ∨
        (c = .fzAlignTimeout p ∧ old = .align ∧ new = .equalise) ∨
        (c = .fzDownRetry p ∧ (s.port p).enable = true ∧ old = .down ∧ new = .detect) ∨
        (c = .fzRetrainTimeout p ∧ old = .retrain ∧ new = .down) ∨ (c = .fzRetrainDone p true ∧ old = .retrain ∧ new = .up) ∨
        (c = .fzRetrainDone p false ∧ 2 ≤ (s.port p).retrains ∧ old = .retrain ∧ new = .down)) →
      ∃ t, exec c s = .next t ∧ (t.port p).state = new ∧ (∀ q, q ≠ p → t.port q = s.port q) ∧
        (new = .down → (t.port p).input = [] ∧ (t.port p).output = [] ∧ (t.port p).replay = []) ∧
        t = { s with fabric := { s.fabric with ports := t.fabric.ports }, ledger := t.ledger, host := t.host }) ∧
    (∀ failed, (s.port p).state = .align → failed % 16 = 0 → ∃ t, exec (.fzAlignDone p failed) s = .next t ∧
      (t.port p).half = decide (failed % 256 ≠ 0)) ∧
    ((s.port p).state = .retrain → (s.port p).retrains < 2 →
      ∃ t, exec (.fzRetrainDone p false) s = .next t ∧ t.port p = { s.port p with retrains := (s.port p).retrains + 1 } ∧
        (∀ q, q ≠ p → t.port q = s.port q)) ∧
    ((s.port p).state = .up → (s.port p).part ≠ 3 → (s.port p).score + 64 < 49152 →
      ∃ t, exec (.fzLockLoss p) s = .next t ∧ (t.port p).state = .retrain ∧ (t.port p).score = (s.port p).score + 64 ∧
        (∀ q, q ≠ p → t.port q = s.port q) ∧ t.mem = s.mem ∧ t.tiles = s.tiles ∧ t.graphs = s.graphs)

/-- A far side whose identity passes every check brings its port UP, and one that fails a check holds it -/
def Obligations.PortIdentityChecks : Prop :=
  ∀ (s : State) (p m : Nat) (far : FarId) (c : Instr), p < 6 →
    ((c = .fzIdentifyExchange p far ∧ (s.port p).state = .identify) ∨ (c = .fzHeldRetry p far ∧ (s.port p).state = .held)) →
    (s.placed = true → far.id = some m → far.port = pairPort p → far.dims = s.fabric.dims →
      m = neighbour s.fabric.dims s.fabric.id p → (s.port p).half = false →
      ∃ t, exec c s = .next t ∧ (t.port p).state = .up ∧ (t.port p).peer = m % 2 ^ 14 ∧ (t.port p).peerValid = true ∧
        (t.port p).txCsn = 0 ∧ (t.port p).rxCsn = 0 ∧ (t.port p).replay = [] ∧ (t.port p).input = [] ∧
        (t.port p).sent = List.replicate 6 0 ∧ (∀ q, q ≠ p → t.port q = s.port q) ∧ t.mem = s.mem ∧ t.graphs = s.graphs) ∧
    (s.placed = true → far.id = some m →
      (far.port ≠ pairPort p ∨ far.dims ≠ s.fabric.dims ∨ m ≠ neighbour s.fabric.dims s.fabric.id p) →
      ∃ t, exec c s = .next t ∧ (t.port p).state = .held ∧ (t.port p).peer = m % 2 ^ 14 ∧ t.mem = s.mem) ∧
    (s.placed = false ∨ far.id = none → exec c s = .next s)

/-- A good codeword in order is taken and acknowledged, one out of order asks for a repeat, and beacons and the holdover
keep time -/
def Obligations.CodewordsAndBeacons : Prop :=
  ∀ s : State,
    (∀ (p frac : Nat) (cw : Codeword), p < 6 → (s.port p).state = .up → (s.port p).output = [] → (s.port p).sending = [] →
      cw.wrong = 0 → linkOf cw = none → isSequenced cw = true →
      (cw.csn = (s.port p).rxCsn →
        ∃ t, exec (.fzCodewordReceive p cw frac) s = .next t ∧ (t.port p).rxCsn = ((s.port p).rxCsn + 1) % 1024 ∧
          (t.port p).nak = false ∧ (t.port p).rxGood = some cw.csn ∧
          ((∀ k n, Slot.fabric k n ∈ cw.slots → n = 0 ∧ k.flits = 1) → (t.port p).input = (s.port p).input ++
            cw.slots.filterMap fun f => match f with | .fabric k _ => some k | .link _ => none) ∧
          t.port p = { s.port p with rxCsn := (t.port p).rxCsn, nak := false, rxGood := some cw.csn, input := (t.port p).input
                                     arriving := (t.port p).arriving, wire := [t.linkWord p false 0] } ∧
          (∀ q, q ≠ p → t.port q = s.port q) ∧ t = { s with fabric := { s.fabric with ports := t.fabric.ports } }) ∧
      (cw.csn ≠ (s.port p).rxCsn → (s.port p).discards.length < 1000 →
        ∃ t, exec (.fzCodewordReceive p cw frac) s = .next t ∧
          t.port p = { s.port p with nak := true, discards := (t.port p).discards, wire := [t.linkWord p false 0] } ∧
          s.cairn ∈ (t.port p).discards ∧
          (∀ q, q ≠ p → t.port q = s.port q) ∧ t = { s with fabric := { s.fabric with ports := t.fabric.ports } })) ∧
    (∀ (p n at_ f frac : Nat) (bs : List (Nat × Nat × Nat)), p < 6 → (s.port p).state = .up →
      (s.port p).beacons = (n, at_, f) :: bs →
      ∃ t l cw, exec (.fzBeaconSend p frac) s = .next t ∧ t.cairn = cairnMax s.cairn (roundUp (at_ + 1000) 4) ∧
        (t.port p).beaconSeq = ((s.port p).beaconSeq + 1) % 65536 ∧
        (t.port p).beacons.head? = some ((t.port p).beaconSeq, t.cairn, frac % 4096) ∧ (t.port p).wire = [cw] ∧
        linkOf cw = some l ∧ l.beacon = true ∧ l.txCairn = t.cairn ∧ l.txFrac = frac % 4096 ∧ l.beaconSeq = (t.port p).beaconSeq ∧
        (∀ q, q ≠ p → t.port q = s.port q) ∧ t = { s with cairn := t.cairn, fabric := { s.fabric with ports := t.fabric.ports } }) ∧
    ∀ p : Nat, s.fabric.lock = .locked → s.parentPort = some p →
      ∃ t, exec .fzTimeHoldover s = .next t ∧ t.fabric = { s.fabric with lock := .holdover } ∧
        t.cairn = cairnMax s.cairn (roundUp (s.fabric.lastBeacon + 100000) 4) ∧
        t = { s with cairn := t.cairn, fabric := t.fabric, ledger := t.ledger, host := t.host }

/-- A packet at a router input leaves on the output its table names with one hop more, is ejected at its destination, or
is dropped and counted -/
def Obligations.PacketForwarding : Prop :=
  ∀ (s : State) (p depth : Nat) (k : Packet) (ks : List Packet), p < 6 → (s.port p).input = k :: ks → s.fzLocked = true →
    (∀ i, ((i = 1 ∧ 64 ≤ s.ageOf k) ∨ (i = 4 ∧ s.ageOf k < 64 ∧ s.fabric.table k.epoch = none) ∨
        (∃ r, s.ageOf k < 64 ∧ s.fabric.table k.epoch = some r ∧
          (i = 3 ∧ r.hop k.dst = .unreachable ∨ i = 2 ∧ 63 ≤ k.hops ∧ ∃ q, r.hop k.dst = .port q))) →
      ∃ t, exec (.fzPacketForward p depth) s = .next t ∧ (t.port p).input = ks ∧
        Tab.get .reset t.fabric.counters i = (Tab.get Counter.reset s.fabric.counters i).add 1 ∧ t.fabric.eject = s.fabric.eject ∧
        (∀ q, (t.port q).output = (s.port q).output) ∧ t = { s with fabric := t.fabric, ledger := t.ledger, host := t.host }) ∧
    (∀ r, s.ageOf k < 64 → s.fabric.table k.epoch = some r → r.hop k.dst = .eject → k.crc = (withCrc k).crc → agrees k = true →
      ∃ t, exec (.fzPacketForward p depth) s = .next t ∧ (t.port p).input = ks ∧ t.fabric.eject = s.fabric.eject ++ [k] ∧
        (∀ q, (t.port q).output = (s.port q).output) ∧ t = { s with fabric := t.fabric }) ∧
    ∀ r q, s.ageOf k < 64 → s.fabric.table k.epoch = some r → r.hop k.dst = .port q → k.hops < 63 → q < 6 → q ≠ p →
      (s.port q).state = .up → (s.port q).output = [] → (s.port q).sending = [] → (s.port q).turn = p →
      ∃ t k', exec (.fzPacketForward p depth) s = .next t ∧ (t.port p).input = ks ∧ k' = s.hopped p q k ∧ k'.hops = k.hops + 1 ∧
        ((t.port q).output = [k'] ∧ (t.port q).replay = (s.port q).replay ∨
          (∃ w rest, (t.port q).output = [] ∧ some (k', 0) ∈ w ∧
            (t.port q).replay = (s.port q).replay ++ ((s.port q).txCsn, w) :: rest)) ∧
        (t.port q).turn = (p + 1) % 7 ∧ t.fabric.eject = s.fabric.eject ∧ t.mem = s.mem

/-- What the receiving side does with OPEN, CLOSE, a request of a connection it holds, and one of a connection it does not -/
def Obligations.ReceivedConnectionPackets : Prop :=
  ∀ (s s1 : State) (k : Packet),
    (∀ kind, s.takeEject kind = some (k, s1) →
      k.kind = kind ∧ k ∈ s.fabric.eject ∧ s1 = { s with fabric := { s.fabric with eject := s.fabric.eject.erase k } }) ∧
    (∀ n, s.takeEject 0x21 = some (k, s1) → (s1.fabric.recv.find? fun e => e.2.owns k) = none →
      (List.range connSlots).find? (fun n => !(s1.recv n).inUse) = some n → s.fzLocked = true →
      ∃ t a, exec .openConn s = .next t ∧ t.recv n = ⟨k.src, k.srcConn, k.connGen, 0, [], s.cairn, true⟩ ∧
        (∀ m, m ≠ n → t.recv m = s.recv m) ∧ t.fabric.inject = s.fabric.inject ++ [a] ∧ a.kind = 0x22 ∧ a.dst = k.src ∧
        a.dstConn = n ∧ a.srcConn = k.srcConn ∧ a.connGen = k.connGen ∧ t = { s with fabric := t.fabric }) ∧
    (s.takeEject 0x24 = some (k, s1) → (s1.recv k.dstConn).owns k = true →
      ∃ t, exec .closeConn s = .next t ∧ t.recv k.dstConn = .reset ∧ (∀ m, m ≠ k.dstConn → t.recv m = s.recv m) ∧
        t = { s with fabric := t.fabric }) ∧
    (∀ c kind, (c = Instr.closeConn ∧ kind = 0x24 ∨ (∃ dead, c = .readReq dead) ∧ kind = 0x01 ∨
        (∃ dead, c = .write dead) ∧ kind = 0x02) →
      s.takeEject kind = some (k, s1) → (s1.recv k.dstConn).owns k = false → s.fzLocked = true →
      ∃ t a, exec c s = .next t ∧ t.fabric.inject = s.fabric.inject ++ [a] ∧ a.kind = 0x26 ∧ a.dst = k.src ∧ a.connGen = k.connGen ∧
        t.fabric.recv = s.fabric.recv ∧ t = { s with fabric := t.fabric }) ∧
    (∀ st dead, s.memUp = true → s.takeEject 0x02 = some (k, s1) → (s1.recv k.dstConn).owns k = true → k.low = (s1.recv k.dstConn).low →
      seqBelow k.seq k.low = false → (s1.recv k.dstConn).record.find? (fun e => e.1 == k.seq) = some (k.seq, st) →
      (∀ e ∈ (s1.recv k.dstConn).record, seqBelow e.1 k.low = false) → s.fzLocked = true →
      ∃ t a, exec (.write dead) s = .next t ∧ t.fabric.inject = s.fabric.inject ++ [a] ∧ a.kind = 0x12 ∧ a.status = st ∧
        a.seq = k.seq ∧ t = { s with fabric := t.fabric }) ∧
    (∀ dead, s.takeEject 0x01 = some (k, s1) → (s1.recv k.dstConn).owns k = true → k.low = (s1.recv k.dstConn).low →
      seqBelow k.seq k.low = false → s.fzLocked = true → s.memUp = false →
      ∃ t a, exec (.readReq dead) s = .next t ∧ t.fabric.inject = s.fabric.inject ++ [a] ∧ a.kind = 0x11 ∧ a.status = stUnreachable ∧
        a.seq = k.seq ∧ a.payload = [] ∧ t.mem = s.mem)

/-- A remote write inside an open window of its generation is applied and acknowledged OK, and one outside is refused and
changes no memory -/
def Obligations.ServedRemoteRequests : Prop :=
  ∀ (s s1 : State) (k : Packet), s.fzLocked = true → s.memUp = true →
    (s1.recv k.dstConn).owns k = true → k.low = (s1.recv k.dstConn).low → seqBelow k.seq k.low = false →
    (∀ e ∈ (s1.recv k.dstConn).record, seqBelow e.1 k.low = false) →
    (s.takeEject 0x02 = some (k, s1) → (∀ off dead, s.locate k.addr = .hbm off → (∀ e ∈ (s1.recv k.dstConn).record, e.1 ≠ k.seq) →
        s.windowCheck k ≠ stOk →
        ∃ t a, exec (.write dead) s = .next t ∧ t.fabric.inject = s.fabric.inject ++ [a] ∧ a.kind = 0x12 ∧ a.status = s.windowCheck k ∧
          a.seq = k.seq ∧ (t.recv k.dstConn).record = (s1.recv k.dstConn).record ++ [(k.seq, s.windowCheck k)] ∧
          t = { s with fabric := t.fabric }) ∧
      (∀ off, s.locate k.addr = .hbm off → (∀ e ∈ (s1.recv k.dstConn).record, e.1 ≠ k.seq) → s.windowCheck k = stOk →
        ∃ t a w, exec (.write false) s = .next t ∧ a ∈ t.fabric.inject ∧ a.kind = 0x12 ∧ a.seq = k.seq ∧
          w = (s1.updRecv k.dstConn fun c => c.advance k.low s1.cairn).write k.addr k.payload k.poison ∧ a.status = w.2 ∧
          t.mem = w.1.mem ∧ t.tiles = w.1.tiles) ∧
      (s.onCxl k.addr = true → (∀ e ∈ (s1.recv k.dstConn).record, e.1 ≠ k.seq) → s.windowCheck k = stOk →
        ∃ t a, exec (.write true) s = .next t ∧ a ∈ t.fabric.inject ∧ a.kind = 0x12 ∧ a.seq = k.seq ∧ a.status = stUnreachable ∧
          t = { s with fabric := t.fabric })) ∧
    (s.takeEject 0x01 = some (k, s1) →
      ∃ t a r, exec (.readReq false) s = .next t ∧ a ∈ t.fabric.inject ∧ a.kind = 0x11 ∧ a.seq = k.seq ∧ a.dst = k.src ∧
        r = ((s1.updRecv k.dstConn fun c => c.advance k.low s1.cairn).readNoting k.addr k.length) ∧ a.status = r.1.status ∧
        (r.1.status = stOk → a.payload = r.1.bytes) ∧ t.mem = r.2.mem)

/-- What the sending side does with answers, busy openings, reclaims, stale connections and silence -/
def Obligations.SendingConnectionRows : Prop :=
  ∀ (s s1 : State) (k : Packet),
    (s.takeEject 0x22 = some (k, s1) → (s1.send k.srcConn).owns k = true → (s1.send k.srcConn).opened = false →
      (s1.send k.srcConn).waiting = [] →
      ∃ t, exec .openAck s = .next t ∧ t.send k.srcConn = { s.send k.srcConn with
        opened := true, busy := false, openSlot := some k.dstConn, lastUse := s.cairn } ∧
        (∀ m, m ≠ k.srcConn → t.send m = s.send m) ∧ t = { s with fabric := t.fabric }) ∧
    (s.takeEject 0x23 = some (k, s1) → (s1.send k.srcConn).owns k = true → (s1.send k.srcConn).opened = false →
      ∃ t, exec .openBusy s = .next t ∧ t.send k.srcConn = { s.send k.srcConn with busy := true } ∧
        (∀ m, m ≠ k.srcConn → t.send m = s.send m) ∧ t = { s with fabric := t.fabric }) ∧
    (s.takeEject 0x25 = some (k, s1) → (s1.send k.srcConn).owns k = true → (s1.send k.srcConn).open_ = [] →
      ∃ t, exec .reclaim s = .next t ∧ t.send k.srcConn = { SendConn.reset with gen := (s.send k.srcConn).gen } ∧
        (∀ m, m ≠ k.srcConn → t.send m = s.send m) ∧ t = { s with fabric := t.fabric }) ∧
    (s.takeEject 0x26 = some (k, s1) → (s1.send k.srcConn).owns k = true →
      ∃ t, exec .staleConn s = .next t ∧ (t.send k.srcConn).gen = connGenNext (s.send k.srcConn).gen ∧
        (t.send k.srcConn).opened = false ∧ (t.send k.srcConn).waiting.length = (s.send k.srcConn).open_.length ∧
        (t.send k.srcConn).nextSeq = (s.send k.srcConn).open_.length ∧ t.mem = s.mem) ∧
    (∀ c kind, (c = Instr.readResp ∧ kind = 0x11 ∨ c = .writeAck ∧ kind = 0x12) → s.takeEject kind = some (k, s1) →
      s.mem.copies = [] → ((s1.send k.srcConn).owns k = false → exec c s = .next s1) ∧
      (∀ o, (s1.send k.srcConn).owns k = true → (s1.send k.srcConn).waiting.find? (fun o => o.packet.seq == k.seq) = some o →
        ∃ z, exec c s = .next z ∧ (∀ e ∈ (z.send k.srcConn).waiting, e.packet.seq ≠ k.seq) ∧
          ∀ t id i f p, o.who = .piece t id i → o.answered = false → (s.tile t).flight id = some f → f.pieces[i]? = some p →
            p.state = .remote → opCode ((s.tile t).op f.index) ≠ 0x58 → (p.kind = .read ∨ p.kind = .write) →
            ((z.tile t).flight id).bind (fun g => g.pieces[i]?.map (·.state)) = some .landed ∧
            (p.kind = .read → k.status = stOk → ∀ j w, (bytesToWords k.payload)[j]? = some w →
              Tab.get .zero (z.tile t).tarn (p.tarn + j) = ⟨w, 0, k.poison⟩))) ∧
    (∀ slot < connSlots, (s.send slot).inUse = true →
      ((s.send slot).opened = true → (s.send slot).open_ = [] →
        ∃ t, exec (.fzSenderIdle slot) s = .next t ∧ t.send slot = { SendConn.reset with gen := (s.send slot).gen } ∧
          (∀ m, m ≠ slot → t.send m = s.send m) ∧ t = { s with cairn := t.cairn, fabric := t.fabric }) ∧
      ((s.send slot).busy = true → cairnSince (s.send slot).openFrom s.cairn + 50000 < openNs →
        ∃ t, exec (.fzOpenRetry slot) s = .next t ∧ (t.send slot).busy = false ∧
          (t.send slot).openSends = (s.send slot).openSends + 1 ∧ (t.send slot).openAt = t.cairn ∧
          (s.fzLocked = true → ∃ a, t.fabric.inject = s.fabric.inject ++ [a] ∧ a.kind = 0x21 ∧ a.srcConn = slot) ∧
          t = { s with cairn := t.cairn, fabric := t.fabric }) ∧
      (∀ seq, (s.send slot).opened = false →
        cairnSince (s.send slot).openFrom (s.send slot).openAt + resendNs < openNs →
        ∃ t, exec (.fzResendTimeout slot seq false) s = .next t ∧ (t.send slot).openSends = (s.send slot).openSends + 1 ∧
          (t.send slot).openAt = cairnMax s.cairn (roundUp ((s.send slot).openAt + resendNs) 4) ∧ t.mem = s.mem)) ∧
    (∀ slot < connSlots, ∀ (seq : Nat) (c : Closing), s.fabric.closing.find? (·.slot == slot) = some c → c.sends < 4 →
      ∃ t, exec (.fzResendTimeout slot seq true) s = .next t ∧ t.cairn = cairnMax s.cairn (roundUp (c.sentAt + resendNs) 4) ∧
        t.fabric.closing = s.fabric.closing.erase c ++ [{ c with sentAt := t.cairn, sends := c.sends + 1 }] ∧
        (s.fzLocked = true → ∃ a, t.fabric.inject = s.fabric.inject ++ [a] ∧ a.kind = c.packet.kind ∧ a.dst = c.packet.dst) ∧
        t.mem = s.mem ∧ t.fabric.send = s.fabric.send) ∧
    ∀ slot < connSlots, (s.recv slot).inUse = true →
      ∃ t, exec (.fzReceiverIdle slot) s = .next t ∧ t.recv slot = .reset ∧ (∀ m, m ≠ slot → t.recv m = s.recv m) ∧
        t = { s with cairn := t.cairn, fabric := t.fabric }

/-- Opening, closing, importing and releasing remote windows -/
def Obligations.WindowAndImportRows : Prop :=
  (∀ (s s1 : State) (d i : Nat) (x : Desc), s.starts d 0x40 windowOpenForm x →
    (s.fabric.windows.any fun e => e.2.isOpen && e.2.space == x.arg % 2 && runsOverlap (x.get 16 8) (x.get 24 8) e.2.base e.2.size)
      = false → s.windowIndex = some (i, s1) → s.windowFits (x.arg % 2) (x.get 16 8) (x.get 24 8) = true →
    ∃ u : State, exec (.windowOpen d) s = .next (u.complete x stOk 0 (i + windowGen (s.window i).gen * 65536)) ∧
      u.window i = ⟨windowGen (s.window i).gen, true, none, x.arg % 2, x.get 16 8, x.get 24 8, x.get 32 2, x.get 34 2⟩ ∧
      (∀ j, j ≠ i → u.window j = s.window j) ∧ u = { s with fabric := u.fabric }) ∧
  (∀ (s : State) (d : Nat) (x : Desc),
    s.starts d 0x41 (fun _ => { entries := 1, arg := 0, named := [(36, 4)], align := true }) x →
    (s.window (x.get 36 4 % 65536)).isOpen = true → (s.window (x.get 36 4 % 65536)).gen = x.get 36 4 / 65536 →
    ∃ t, exec (.windowClose d) s = .next t ∧ t.window (x.get 36 4 % 65536) = { s.window (x.get 36 4 % 65536) with
        gen := windowGen (s.window (x.get 36 4 % 65536)).gen, isOpen := false, closing := some d } ∧
      t.desc d = some { x with started := true } ∧ t.host.mem = s.host.mem ∧ t = { s with fabric := t.fabric, host := t.host }) ∧
  (∀ (s : State) (i tag : Nat), i < 65536 → (s.window i).closing = some tag →
    ∃ u : State, exec (.windowCloseDone i) s = .next (u.completeTag tag stOk 0 0) ∧ u.window i = { s.window i with closing := none } ∧
      u.fabric.windowFreed = s.fabric.windowFreed ++ [i] ∧ (∀ j, j ≠ i → u.window j = s.window j) ∧ u = { s with fabric := u.fabric }) ∧
  (∀ (s : State) (d i : Nat) (x : Desc), s.starts d 0x42 windowImportForm x →
    (s.fabric.imports.any fun e => e.2.inUse && e.2.module == x.get 40 2 && e.2.space == x.get 42 1 &&
      runsOverlap (x.get 16 8) (x.get 24 8) e.2.base e.2.size) = false →
    ((List.range 4096).find? fun i => !(Tab.get Import.reset s.fabric.imports i).inUse) = some i →
    ∃ u : State, exec (.windowImport d) s = .next (u.complete x stOk 0 i) ∧
      Tab.get Import.reset u.fabric.imports i = ⟨true, x.get 36 4, x.get 40 2, x.get 42 1, x.get 16 8, x.get 24 8⟩ ∧
      (∀ j, j ≠ i → Tab.get Import.reset u.fabric.imports j = Tab.get Import.reset s.fabric.imports j) ∧
      u = { s with fabric := { s.fabric with imports := u.fabric.imports } }) ∧
  ∀ (s : State) (d : Nat) (x : Desc),
    s.starts d 0x43 (fun _ => { entries := 1, arg := 0, named := [(44, 2)], align := true }) x →
    (Tab.get Import.reset s.fabric.imports (x.get 44 2)).inUse = true →
    ∃ u : State, exec (.windowUnimport d) s = .next (u.complete x stOk 0 0) ∧ Tab.get Import.reset u.fabric.imports (x.get 44 2) = .reset ∧
      (∀ j, j ≠ x.get 44 2 → Tab.get Import.reset u.fabric.imports j = Tab.get Import.reset s.fabric.imports j) ∧
      u = { s with fabric := { s.fabric with imports := u.fabric.imports } }

/-- A table of the next epoch is held, its switch is scheduled or made at once, and the old table is released after it has
drained -/
def Obligations.RoutingEpochRows : Prop :=
  (∀ (s : State) (d : Nat) (x : Desc), s.starts d 0x50 (fun _ => { entries := 1, arg := 3, named := [(16, 24)], align := true }) x →
    tableOk s.fabric.dims s.fabric.id ⟨x.arg % 4, x.get 16 8, x.get 24 8, x.get 32 8⟩ = true →
    (s.fabric.active = ⟨x.arg % 4, x.get 16 8, x.get 24 8, x.get 32 8⟩ →
      exec (.fabricTable d) s = .next (s.complete x stOk 0 0)) ∧
    (s.fabric.draining = false → x.arg % 4 = (s.fabric.active.epoch + 1) % 4 →
      exec (.fabricTable d) s = .next (State.complete x stOk 0 0
        { s with fabric := { s.fabric with other := some ⟨x.arg % 4, x.get 16 8, x.get 24 8, x.get 32 8⟩ } }))) ∧
  (∀ (s : State) (d : Nat) (x : Desc) (r : Routing),
    s.starts d 0x51 (fun _ => { entries := 1, arg := 3, named := [(16, 8)], align := true }) x →
    s.fabric.other = some r → r.epoch = x.arg % 4 → s.fabric.active.epoch ≠ x.arg % 4 → s.fabric.draining = false →
    cairnBefore (x.get 16 8) s.cairn = false →
    exec (.fabricEpoch d) s =
      .next (State.complete x stOk 0 0 { s with fabric := { s.fabric with switch_ := some (x.arg % 4, x.get 16 8) } })) ∧
  (∀ (s : State) (e T : Nat) (r : Routing), s.fabric.switch_ = some (e, T) → s.fabric.other = some r → r.epoch = e →
    s.fabric.draining = false →
    ∃ t, exec .fzEpochSwitch s = .next t ∧ t.cairn = cairnMax s.cairn (roundUp T 4) ∧ t.fabric = { s.fabric with
      active := r, loaded := true, other := some s.fabric.active, draining := true, switchedAt := T, switch_ := none } ∧
      t = { s with cairn := t.cairn, fabric := t.fabric }) ∧
  ∀ (s : State) (r : Routing), s.fabric.other = some r → s.fabric.draining = true → s.fabric.lock ≠ .holdover →
    s.drainCount r.epoch = 0 →
    ∃ t, exec .fzEpochRelease s = .next t ∧ t.fabric = { s.fabric with other := none, draining := false } ∧
      t.cairn = cairnMax s.cairn (roundUp (s.fabric.switchedAt + 1200004) 4) ∧
      t = { s with cairn := t.cairn, fabric := t.fabric, ledger := t.ledger, host := t.host }

/-- Every row of an operation fires it: tokens taken, engine busy, and one firing in flight that holds what it needs -/
def Obligations.OperationsFire : Prop :=
  ∀ (s : State) (t k : Nat) (u : List Upset) (c : Instr) (opc : Nat) (eff : EffectFn) (ins : List (Nat × Nat × List Token)) (x : Tile),
    (c, opc, eff) ∈ firedRows t k u → s.firesWith t k u opc ins → x = (s.tile t).upset u →
    ∃ z f, exec c s = .next z ∧ f ∈ (z.tile t).run.flights ∧ f.id = x.run.nextId ∧ f.index = k ∧ f.fire = x.cycle ∧
      f.count = Tab.get 0 x.run.firings k ∧ f.inputs = consumedTokens (x.op k) ins ∧
      f.outs.map (·.1) = (outputsOf (x.op k)).map (·.2) ∧
      (∀ o ∈ f.outs, o.2.tag = outTag f.inputs f.count ∧ o.2.poison = f.poison) ∧
      ((∃ i ∈ f.inputs, i.2.poison = true) → f.poison = true) ∧
      (opc ≤ 0x45 → (f.issue, f.depth) = timing (x.op k)) ∧
      (z.tile t).engine ((engineOf opc).getD 3) = ⟨x.cycle + f.issue, true, x.cycle + f.issue⟩ ∧
      Tab.get 0 (z.tile t).run.firings k = f.count + 1 ∧ (z.tile t).cfg = x.cfg ∧ (z.tile t).tarn = x.tarn ∧
      (z.tile t).cycle = x.cycle ∧ (z.tile t).run.emitted = x.run.emitted ∧
      (opc ∉ [0x56, 0x57, 0x61] → ∀ v, v ≠ t → z.tile v = s.tile v) ∧ (opc ≠ 0x55 → opc ≠ 0x65 → z.planes = s.planes) ∧
      z = { s with tiles := z.tiles, planes := z.planes, ledger := z.ledger, host := z.host, draws := s.draws + 1 }

/-- What a firing of the steering unit computes: sent words, received words, channel states, scalar results, Pennants and
Summits -/
def Obligations.SteeringResults : Prop :=
  ∀ (s : State) (t k : Nat) (u : List Upset) (ins : List (Nat × Nat × List Token)) (x : Tile) (c : Ctx),
    x = (s.tile t).upset u → c = s.firingCtx t k u ins →
    (s.firesWith t k u 0x60 ins → ∃ z f, exec (.chsend t k u) s = .next z ∧ f ∈ (z.tile t).run.flights ∧ f.index = k ∧
      f.sent = [c.s (bits (x.op k) 70 5)] ∧ f.issue = 8 ∧ f.depth = 6 ∧
      ((z.tile t).channel (bits (x.op k) 64 6)).credits = (x.channel (bits (x.op k) 64 6)).credits - 1) ∧
    (s.firesWith t k u 0x61 ins → ∀ w ws, (x.channel (bits (x.op k) 64 6)).recv = w :: ws →
      ∃ z f, exec (.chrecv t k u) s = .next z ∧ f ∈ (z.tile t).run.flights ∧ f.index = k ∧ f.regs = [(bits (x.op k) 80 5, w)] ∧
        ((z.tile t).channel (bits (x.op k) 64 6)).recv = ws ∧ f.issue = 8 ∧ f.depth = 6) ∧
    (s.firesWith t k u 0x62 ins → ∃ z f, exec (.chpoll t k u) s = .next z ∧ f ∈ (z.tile t).run.flights ∧ f.index = k ∧
      f.regs = [(bits (x.op k) 80 5, x.chReady), (bits (x.op k) 75 5, x.chSpace)] ∧ f.issue = 8 ∧ f.depth = 6) ∧
    (s.firesWith t k u 0x63 ins → bits (x.op k) 85 4 < 11 → ∃ z f, exec (.scalc t k u) s = .next z ∧ f ∈ (z.tile t).run.flights ∧
      f.index = k ∧ f.issue = 8 ∧ f.depth = 6 ∧ f.regs = [(bits (x.op k) 80 5, scalar (bits (x.op k) 85 4) (c.s (bits (x.op k) 70 5))
        (if bit (x.op k) 89 then BitVec.ofInt 64 (signed 32 (bits (x.op k) 96 32)) else c.s (bits (x.op k) 75 5)))]) ∧
    (s.firesWith t k u 0x64 ins → ∃ z f, exec (.psend t k u) s = .next z ∧ f ∈ (z.tile t).run.flights ∧ f.index = k ∧
      (∀ o ∈ f.outs, o.2.body = .pennant ((c.s (bits (x.op k) 70 5)).toNat % 2 ^ 40)) ∧ f.issue = 8 ∧ f.depth = 6) ∧
    (s.firesWith t k u 0x65 ins → ∃ z f b, exec (.summit t k u) s = .next z ∧ f ∈ (z.tile t).run.flights ∧ f.index = k ∧
      b = c.summitBunting (s.updTile t (·.upset u)) ∧ f.sent = [BitVec.ofNat 64 (Tab.get 0 x.run.summits b % 2 ^ 16)] ∧
      f.acks = 1 ∧ f.issue = 8 ∧ Tab.get 0 (z.tile t).run.summits b = Tab.get 0 x.run.summits b + 1)

/-- SLOAD and SSTORE ask for their bytes in requests of up to 256 bytes that cover the range once -/
def Obligations.StreamRequests : Prop :=
  ∀ (s : State) (t k : Nat) (u : List Upset) (ins : List (Nat × Nat × List Token)) (x : Tile) (c : Ctx) (a : Nat),
    x = (s.tile t).upset u → c = s.firingCtx t k u ins → a = c.addr (s.updTile t (·.upset u)) → s.isFar a = false →
    s.addrOk a (streamBytes (x.op k)) = true → a + streamBytes (x.op k) ≤ 2 ^ 60 →
    (s.firesWith t k u 0x50 ins → bit (x.op k) 101 = false → c.entry % 8 = 0 → c.entry + streamBytes (x.op k) / 8 ≤ x.window →
      ∃ z f, exec (.sload t k u) s = .next z ∧ f ∈ (z.tile t).run.flights ∧ f.index = k ∧ f.openEnded = true ∧
        sumNat (f.pieces.map (·.bytes)) = streamBytes (x.op k) ∧
        ∀ i p, f.pieces[i]? = some p → p.kind = .read ∧ p.state = .waiting ∧ 0 < p.bytes ∧ p.bytes ≤ 256 ∧
          p.addr = a + 256 * i ∧ p.tarn = c.entry + 32 * i) ∧
    (s.firesWith t k u 0x51 ins → ∀ b n tag more, consumedTokens (x.op k) ins = (0, ⟨.data b n, tag, false⟩) :: more →
      x.rangeOk b (streamBytes (x.op k) / 8) = true → b % 8 = 0 →
      ∃ z f, exec (.sstore t k u) s = .next z ∧ f ∈ (z.tile t).run.flights ∧ f.index = k ∧ f.openEnded = true ∧
        f.pieces.flatMap (·.data) =
          wordBytes ((List.range (streamBytes (x.op k) / 8)).map fun i => (Tab.get .zero c.x.tarn (b + i)).data) ∧
        ∀ i p, f.pieces[i]? = some p → p.kind = .write ∧ p.state = .waiting ∧ 0 < p.bytes ∧ p.bytes ≤ 256 ∧
          p.data.length = p.bytes ∧ p.addr = a + 256 * i)

/-- Sums and products are exact before the one rounding, and comparisons are those of the values -/
def Obligations.ExactSumsAndProducts : Prop :=
  ∀ (p q : Bool) (m n : Nat) (e f : Int) (v : Val),
    (addVal (.fin p m e) (.fin q n f)).rat = Val.rat (.fin p m e) + Val.rat (.fin q n f) ∧
    (mulVal (.fin p m e) (.fin q n f)).rat = Val.rat (.fin p m e) * Val.rat (.fin q n f) ∧
    (ltVal (.fin p m e) (.fin q n f) = true ↔ Val.rat (.fin p m e) < Val.rat (.fin q n f)) ∧
    (maxVal (.fin p m e) (.fin q n f)).rat = max (Val.rat (.fin p m e)) (Val.rat (.fin q n f)) ∧
    (minVal (.fin p m e) (.fin q n f)).rat = min (Val.rat (.fin p m e)) (Val.rat (.fin q n f)) ∧
    addVal (.inf p) (.inf !p) = .nan ∧ mulVal (.inf p) (.fin q 0 e) = .nan ∧ (m ≠ 0 → mulVal (.inf p) (.fin q m e) = .inf (p != q)) ∧
    addVal (.inf p) (.fin q m e) = .inf p ∧ addVal .nan v = .nan ∧ addVal v .nan = .nan ∧ mulVal .nan v = .nan ∧
    mulVal v .nan = .nan ∧ maxVal .nan v = .nan ∧ maxVal v .nan = .nan ∧ minVal .nan v = .nan ∧ minVal v .nan = .nan

/-- A conversion to nearest gives an encoding whose value no other finite encoding of the format comes closer to, and
exact values are kept -/
def Obligations.RoundingToNearest : Prop :=
  ∀ l ∈ floatLayouts, ∀ (sat mx : Bool),
    (∀ (p q : Bool) (m n : Nat) (e f : Int), decodeFloat l (encodeFloat l .nearest sat mx (.fin p m e)).raw = .fin q n f →
      q = p ∧ ∀ (raw : Nat) (r : Bool) (o : Nat) (g : Int), decodeFloat l raw = .fin r o g →
        |Val.rat (.fin q n f) - Val.rat (.fin p m e)| ≤ |Val.rat (.fin r o g) - Val.rat (.fin p m e)|) ∧
    ∀ (raw : Nat) (r : Bool) (o : Nat) (g : Int), raw < 2 ^ (l.ebits + l.p + 1) → decodeFloat l raw = .fin r o g →
      encodeFloat l .nearest sat mx (.fin r o g) = ⟨raw, 0, 0⟩

/-- A completion that passes commits the words, the registers and the tokens of its firing, and a local replay fires it
again -/
def Obligations.FiringsComplete : Prop :=
  ∀ (s : State) (t id : Nat) (f : Firing) (x : Tile), s.inService = true → t < 320 → x = s.tile t → x.flight id = some f →
    (∀ c : Instr, f.poison = false → (f.writes.map (·.1)).Nodup →
      x.lit = true →
      ((c = .operationComplete t id .pass ∧ f.openEnded = false ∧ f.failed = false ∧ f.fire + f.issue + f.depth < x.cycle + 8) ∨
        (c = .memoryOperationComplete t id ∧ f.openEnded = true ∧ f.landed = true ∧ f.fire + f.issue < x.cycle + 8) ∨
        (c = .summitRelease t id none ∧ f.fire + f.issue < x.cycle + 8 ∧ ∃ b ms v k, s.summitOf t f = some (b, ms, v) ∧
          (s.out (0x1000 + t)).releaseFor b f.summitSeq = some (k, false))) →
      ∃ z, exec c s = .next z ∧ (∀ w ∈ f.writes, Tab.get .zero (z.tile t).tarn w.1 = ⟨w.2, 0, false⟩) ∧
        (∀ a, a ∉ f.writes.map (·.1) → Tab.get .zero (z.tile t).tarn a = Tab.get .zero x.tarn a) ∧
        (∀ r v, f.regs = [(r, v)] → (z.tile t).sregs = Tab.put 0 r v x.sregs) ∧ (f.regs = [] → (z.tile t).sregs = x.sregs) ∧
        (z.tile t).run.emitted = x.run.emitted ++ f.outs ∧ (z.tile t).run.flights = x.run.flights.filter (·.id != id) ∧
        (z.tile t).cnt.numSat = x.cnt.numSat.add f.sat ∧ (z.tile t).cfg = x.cfg ∧ (z.tile t).run.queues = x.run.queues ∧
        (∀ v, v ≠ t → z.tile v = s.tile v) ∧
        z = { s with tiles := z.tiles, planes := z.planes, graphs := z.graphs, ledger := z.ledger, host := z.host }) ∧
    ∀ u : List Upset, f.failed = true → f.intact = true → f.fire + f.issue + f.depth < x.cycle → s.runs t = true →
      (x.engine ((engineOf (opCode (x.op f.index))).getD 0)).freeAt ≤ x.cycle →
      (x.engine ((engineOf (opCode (x.op f.index))).getD 0)).fired = false →
      (∀ a, (Tab.get .zero (x.upset u).tarn a).wrong = 0) →
      ∃ z g, exec (.localReplay t id u) s = .next z ∧ (z.tile t).flight id = some g ∧ g.again = f.again + 1 ∧ g.failed = false ∧
        g.index = f.index ∧ g.fire = x.cycle ∧ g.inputs = f.inputs ∧ g.count = f.count ∧
        (z.tile t).cnt.integReplay = x.cnt.integReplay.add 1 ∧ (∀ v, v ≠ t → z.tile v = s.tile v) ∧ z.mem = s.mem

/-- What arrives at a tile stands in its queue, channel or dispatch area from then on, and leaves the network -/
def Obligations.TileArrivals : Prop :=
  ∀ (s : State) (t : Nat) (x : Tile), s.inService = true → t < 320 → x = s.tile t →
    (∀ (q : Nat) (k : Token) (before after : List (Nat × Token)), q < 256 → x.run.emitted = before ++ (q, k) :: after →
      (∀ e ∈ before, e.1 ≠ q) → queueTakes (x.qcfg q) k = true →
      (s.owner t = none ∨ ∃ g v y, s.owner t = some (g, v) ∧ s.graph? g = some y ∧ y.spills = []) →
      ∃ z, exec (.tokenArrival t q) s = .next z ∧ (z.tile t).run.emitted = before ++ after ∧
        (z.tile t).queue q = { x.queue q with fresh := (x.queue q).fresh ++ [k] } ∧
        (∀ r, r ≠ q → (z.tile t).queue r = x.queue r) ∧ (z.tile t).tarn = x.tarn ∧ (∀ v, v ≠ t → z.tile v = s.tile v) ∧
        z = { s with tiles := z.tiles }) ∧
    (∀ q : Nat, q < 256 → 0 < (x.credit q).returning →
      ∃ z, exec (.creditReturn t q) s = .next z ∧ (z.tile t).credit q = { x.credit q with
          returning := (x.credit q).returning - 1, fresh := (x.credit q).fresh + 1 } ∧
        (∀ r, r ≠ q → (z.tile t).credit r = x.credit r) ∧ (∀ v, v ≠ t → z.tile v = s.tile v) ∧ z = { s with tiles := z.tiles }) ∧
    (∀ (c : Nat) (w : ChanWord) (before after : List ChanWord), c < 64 → s.withShadows t = [t] → s.planes.words = before ++ w :: after →
      w.tile = t → w.chan = c → w.gen = x.cfg.generation → w.parity = false → w.marker = false →
      (∀ e ∈ before, ¬(e.tile = t ∧ e.chan = c)) → w ∈ s.saddle w.src (w.srcChan / 16) → s.routeLit w.src t = true →
      (s.tile w.src).on = true → x.on = true →
      ∃ z, exec (.channelWordArrival t c false) s = .next z ∧ z.planes = { s.planes with words := before ++ after } ∧
        ((z.tile t).channel c).recv = (x.channel c).recv ++ [w.word] ∧ ((z.tile t).channel c).fresh = (x.channel c).fresh + 1 ∧
        (∀ d, d ≠ c → (z.tile t).channel d = x.channel d) ∧ z = { s with tiles := z.tiles, planes := z.planes }) ∧
    (∀ (q w : Nat) (busy back : List Nat) (y : Graph) (xm : XMap) (e : Expert) (m : RowMsg) (before after : List RowMsg), q < 256 →
      s.expertQueue t q = some (y, xm, e) → s.withShadows t = [t] → (x.dispatch q).counts = [] → (x.dispatch q).takes m.tag = true →
      x.fenced = false → x.lit = true → (s.out (0x1000 + t)).bulkMay = true → s.rowMayGo m = true →
      s.riseUp m.src t m.way busy = some w → s.riseMay m.src w m.way = true → m.way.router = none →
      ((s.rise m.src w (packetFlits m.data.length) m.way).ackUp t m.src back).isSome = true →
      s.planes.rows = before ++ m :: after → (∀ r ∈ before, r.tile ≠ t) → m.tile = t → m.xmap = (x.qcfg q).xmap →
      m.expert = (x.qcfg q).expert → m.gen = x.cfg.generation → (x.dispatch q).rows < e.capacity →
      (x.qcfg q).bufBase + (x.dispatch q).rows * (x.qcfg q).bufWords + (bytesToWords m.data).length ≤ x.window →
      ((x.qcfg q).bufBase + (x.dispatch q).rows * (x.qcfg q).bufWords) % 8 = 0 →
      ∃ z, exec (.expertRowArrival t q none busy [] back) s = .next z ∧ (z.tile t).dispatch q = { x.dispatch q with
          tag := m.tag, rows := (x.dispatch q).rows + 1, slots := (x.dispatch q).slots ++ [(m.slot, m.rank)] } ∧
        (∀ i w, (bytesToWords m.data)[i]? = some w →
          Tab.get .zero (z.tile t).tarn ((x.qcfg q).bufBase + (x.dispatch q).rows * (x.qcfg q).bufWords + i) = ⟨w, 0, m.poison⟩) ∧
        (∀ f, (s.tile m.src).flight m.firing = some f →
          ((z.tile m.src).flight m.firing).map (·.rowAcks) = some (f.rowAcks.erase (m.slot, m.rank))) ∧
        z.planes = { s.planes with
          rows := (before ++ after).map (fun n => if m.sameAs n then { n with way := n.way.after m.src w t } else n)
          outs := z.planes.outs, upNext := z.planes.upNext } ∧
        (∀ v, v ≠ t → v ≠ m.src → z.tile v = s.tile v) ∧ z = { s with tiles := z.tiles, planes := z.planes }) ∧
    (∀ (q w : Nat) (busy back : List Nat) (y : Graph) (xm : XMap) (e : Expert) (m : CountMsg) (d : Dispatch) (before after : List CountMsg), q < 256 →
      s.expertQueue t q = some (y, xm, e) → s.withShadows t = [t] → m.burgee = none → (x.dispatch q).takes m.tag = true →
      (s.out (0x1000 + t)).bulkMay = true → (x.qcfg q).pennant = false → x.fenced = false →
      s.riseUp m.src t m.way busy = some w → s.riseMay m.src w m.way = true → m.way.router = none →
      ((s.rise m.src w 1 m.way).ackUp t m.src back).isSome = true →
      s.planes.counts = before ++ m :: after → (∀ r ∈ before, r.tile ≠ t) → m.tile = t → m.xmap = (x.qcfg q).xmap →
      m.expert = (x.qcfg q).expert → m.gen = x.cfg.generation → d = { x.dispatch q with
        tag := m.tag, counts := (x.dispatch q).counts ++ [(m.vtile, m.count)], poison := (x.dispatch q).poison || m.poison } →
      ∃ z ks, exec (.expertCountRecord t q none busy [] back) s = .next z ∧ ks = groupTokens (x.qcfg q) e.capacity d.rows d.tag d.poison ∧
        z.planes = { s.planes with
          counts := (before ++ after).map (fun n => if m.sameAs n then { n with way := n.way.after m.src w t } else n)
          outs := z.planes.outs, upNext := z.planes.upNext } ∧
        (∀ k f, m.firing = some k → (s.tile m.src).flight k = some f →
          ((z.tile m.src).flight k).map (·.countAcks) = some (f.countAcks.erase m.expert)) ∧
        (if d.closed (y.dispatchers (x.qcfg q).xmap) then (z.tile t).dispatch q = { Dispatch.reset with burgees := d.burgees } ∧
            ((z.tile t).queue q).fresh = (x.queue q).fresh ++ ks ∧ ((z.tile t).credit q).held = (x.credit q).held - ks.length
          else (z.tile t).dispatch q = d ∧ (z.tile t).queue q = x.queue q) ∧
        (z.tile t).tarn = x.tarn ∧ (∀ v, v ≠ t → v ≠ m.src → z.tile v = s.tile v) ∧
        z = { s with tiles := z.tiles, planes := z.planes }) ∧
    ∀ (id b v l : Nat) (ms : List Nat) (f : Firing) (old : Option Summit), x.flight id = some f → s.summitOf t f = some (b, ms, v) →
      s.findArrive t id = some l → old = s.planes.summits.find? (fun c => c.bunting == b && c.seq == f.summitSeq) →
      ∃ z, exec (.summitArrive t id none) s = .next z ∧
        (∀ k, 0x2000 ≤ l → s.arriveLink t b = some k → .arrive t id ∈ (z.out k).waiting ∧ z.planes.summits = s.planes.summits) ∧
        (l < 0x2000 → (∀ n ∈ s.planes.summits, n.bunting ≠ b → n ∈ z.planes.summits) ∧
        ((∃ w ∈ ms, w ≠ v ∧ ∀ c, old = some c → w ∉ c.arrived) → ∃ m ∈ z.planes.summits, m.bunting = b ∧ m.seq = f.summitSeq ∧
          v ∈ m.arrived ∧ ∀ c, old = some c → ∀ w ∈ c.arrived, w ∈ m.arrived) ∧
        ((∀ w ∈ ms, w = v ∨ ∃ c, old = some c ∧ w ∈ c.arrived) →
          (∀ m ∈ z.planes.summits, ¬(m.bunting = b ∧ m.seq = f.summitSeq)) ∧
          ∀ u ∈ s.summitTiles t ms, ∃ p, .release b f.summitSeq p ∈ (z.out (0x1000 + u)).waiting)) ∧
        z = { s with planes := { s.planes with summits := z.planes.summits, outs := z.planes.outs, upNext := z.planes.upNext } }

/-- A wheel turn makes what arrived count, a load-step notice starts its lead, and an abandon flit brings a tile back to
its bound state -/
def Obligations.TileTurnsAndStops : Prop :=
  ∀ (s : State) (t : Nat) (x : Tile), s.inService = true → t < 320 → x = s.tile t →
    (∃ z, exec (.wheelTurn t) s = .next z ∧ (z.tile t).cycle = x.cycle + 8 ∧ (∀ e, ((z.tile t).engine e).fired = false) ∧
      (∀ q, (z.tile t).queue q = { x.queue q with toks := (x.queue q).toks ++ (x.queue q).fresh, fresh := [] }) ∧
      (∀ q, (z.tile t).credit q = { x.credit q with held := (x.credit q).held + (x.credit q).fresh, fresh := 0 }) ∧
      (∀ c, (z.tile t).channel c = { x.channel c with
        fresh := 0, credits := (x.channel c).credits + (x.channel c).freshCredits, freshCredits := 0 }) ∧
      (z.tile t).tarn = x.tarn ∧ (z.tile t).sregs = x.sregs ∧ (z.tile t).run.changes = [] ∧
      ((x.run.flights.map (·.id)).Nodup →
        (z.tile t).run.flights.map (fun f => (f.id, f.index, f.fire)) = x.run.flights.map (fun f => (f.id, f.index, f.fire))) ∧
      (x.run.changes = [] → (z.tile t).run.flights = x.run.flights ∧ (∀ v, v ≠ t → z.tile v = s.tile v) ∧
        z = { s with tiles := z.tiles, ledger := z.ledger, host := z.host }) ∧
      (∀ v, v ≠ t → (z.tile v).tarn = (s.tile v).tarn ∧ (z.tile v).run.queues = (s.tile v).run.queues) ∧
      z = { s with tiles := z.tiles, planes := { s.planes with rows := z.planes.rows }, ledger := z.ledger, host := z.host
                   draws := z.draws }) ∧
    (∀ k, k < 8192 → s.runs t = true → engineOf (opCode (x.op k)) = some 0 → (x.engine 0).idleSince + 1024 ≤ x.cycle →
      x.run.lead = none → (x.updEngine 0 fun e => { e with idleSince := x.cycle }).fires k = true →
      ∃ z, exec (.loadStepNotice t k) s = .next z ∧ z.tile t = { x with run := { x.run with lead := some (k, x.cycle + 128) } } ∧
        (∀ p, p < 8 → z.phase (t * 8 + p) = { s.phase (t * 8 + p) with shed := false }) ∧ (∀ v, v ≠ t → z.tile v = s.tile v) ∧
        z = { s with tiles := z.tiles, power := { s.power with phases := z.power.phases } }) ∧
    ∀ (g v : Nat) (y : Graph) (a : Abandon), s.owner t = some (g, v) → s.graph? g = some y → y.abandon = some a → t ∈ a.toStop →
      x.failedWrites = [] →
      ∃ z, exec (.abandonFlit t) s = .next z ∧ (z.tile t).run.stopped = true ∧ (z.tile t).run.queues = [] ∧
        (z.tile t).run.flights = [] ∧ (z.tile t).run.emitted = [] ∧ (z.tile t).tarn = x.tarn ∧
        z.graph? g = some { y with
          abandon := some { a with toStop := a.toStop.filter (· != t), until_ := max a.until_ (s.writesUntil t) }
          spills := y.spills.filter (·.tile != t) } ∧
        (∀ w, w ≠ t → z.tile w = s.tile w) ∧ z.mem = s.mem

/-- Clearing, patrol, side reads and staging of a Tarn -/
def Obligations.TarnRows : Prop :=
  ∀ (s : State) (t : Nat) (u : List Upset) (x y : Tile), t < 320 → x = s.tile t → y = x.upset u →
    (s.inService = true → x.clearing = true → x.tarnPower = .active → (∀ j ∈ s.mem.copies, j.asked = true) →
      ∃ z, exec (.tarnClearDone t) s = .next z ∧
      (x.staging = [] → ∀ a, Tab.get .zero (z.tile t).tarn a = .zero) ∧
      (∀ off bs p, x.staging = [(off, bs, p)] → x.lit = true → (z.tile t).staging = [] ∧
        z.mem.stagingDone = s.mem.stagingDone ++ [(2 ^ 59 + s.fabric.id * 2 ^ 44 + t * 2 ^ 23 + off, stOk)] ∧
        ∀ i w, (bytesToWords bs)[i]? = some w → Tab.get .zero (z.tile t).tarn (off / 8 + i) = ⟨w, 0, p⟩) ∧
      (z.tile t).clearing = false ∧ (z.tile t).cycle = x.cycle + 24576 ∧ (∀ v, v ≠ t → z.tile v = s.tile v) ∧
      z = { s with tiles := z.tiles, mem := { s.mem with stagingDone := z.mem.stagingDone } }) ∧
    (s.inService = true → y.tarnPower = .active → y.steeringAccess = false → (y.patrolTurn = 0 ∨ y.patrolTurn + 64 ≤ y.cycle / 8 + 1) →
      (∀ a, (Tab.get .zero y.tarn a).wrong = 0) → y.patrolBack = [] →
      ∃ z, exec (.tarnPatrolRead t u) s = .next z ∧ (z.tile t).patrolRow = (y.patrolRow + 1) % 3072 ∧
        (z.tile t).patrolTurn = y.cycle / 8 + 1 ∧ (z.tile t).tarn = y.tarn ∧ (z.tile t).patrolBack = y.patrolBack ∧
        (∀ v, v ≠ t → z.tile v = s.tile v) ∧
        z = { s with tiles := z.tiles, ledger := z.ledger, host := z.host, draws := s.draws + 1 }) ∧
    (s.inService = true → x.tarnPower = .active → x.steeringAccess = false → (x.patrolBack.map (·.1)).Nodup →
      x.patrolTurn < x.cycle / 8 + 1 →
      ∃ z, exec (.tarnPatrolWriteBack t) s = .next z ∧
        (∀ p ∈ x.patrolBack, Tab.get .zero (z.tile t).tarn p.1 = ⟨p.2, 0, false⟩) ∧
        (∀ a, a ∉ x.patrolBack.map (·.1) → Tab.get .zero (z.tile t).tarn a = Tab.get .zero x.tarn a) ∧
        (z.tile t).patrolBack = [] ∧ (∀ v, v ≠ t → z.tile v = s.tile v) ∧ z = { s with tiles := z.tiles }) ∧
    (∀ a w, a < tarnWords → Tab.get .zero y.tarn a = w → x.tarnPower ≠ .off →
      (readKind (decide (y.window ≤ a)) w = .good ∨ readKind (decide (y.window ≤ a)) w = .corrected → exec (.sideRead t .tarn a u) s =
        .next { s.updTile t (·.upset u) with rd := w.data.toNat, rdBytes := [0], draws := s.draws + 1 }) ∧
      (readKind (decide (y.window ≤ a)) w = .stored ∨ readKind (decide (y.window ≤ a)) w = .uncorrectable →
        exec (.sideRead t .tarn a u) s =
          .next { s.updTile t (·.upset u) with rd := w.data.toNat, rdBytes := [1], draws := s.draws + 1 })) ∧
    (∀ a, a < 16384 → exec (.sideRead t .opStore a u) s =
      .next { s.updTile t (·.upset u) with rd := bits (x.op (a / 2)) (64 * (a % 2)) 64, rdBytes := [0] }) ∧
    (∀ k, k < 12 → exec (.sideRead t .observation k u) s =
      .next { s.updTile t (·.upset u) with rd := (Tab.get .reset x.cnt.stalls k).word % 2 ^ 64, rdBytes := [0] }) ∧
    (∀ addr off bytes, s.inService = true → s.locate addr = .tarn t off → addr % 8 = 0 → bytes.length % 8 = 0 → bytes ≠ [] →
      (∀ i, i < bytes.length → s.locate (addr + i) = .tarn t (off + i)) → (x.use = .free ∨ ∃ l, x.use = .staged l) → x.fenced = false → x.lit = true →
      x.clearing = false → x.staging = [] →
      ∃ z, exec (.tarnStagingWrite addr bytes) s = .next z ∧ z.rd = stOk ∧ (z.tile t).use = .staged s.cairn ∧
        (∀ i, i < bytes.length / 8 → Tab.get .zero (z.tile t).tarn (off / 8 + i) = ⟨BitVec.ofNat 64 (field bytes (8 * i) 8), 0, false⟩) ∧
        (∀ a, a < off / 8 ∨ off / 8 + bytes.length / 8 ≤ a → Tab.get .zero (z.tile t).tarn a = Tab.get .zero x.tarn a) ∧
        (∀ v, v ≠ t → z.tile v = s.tile v) ∧ z = { s with tiles := z.tiles, rd := stOk }) ∧
    (∀ addr n off, s.inService = true → s.locate addr = .tarn t off → n ≤ 256 →
      ∃ z, exec (.tarnStagingRead addr n) s = .next z ∧ z.rdBytes = (s.read addr n).bytes ∧
        z.rd = (s.read addr n).status + 256 * b2n (s.read addr n).poison ∧ (z.tile t).tarn = x.tarn ∧
        (∀ l, x.use = .staged l → (z.tile t).use = .staged s.cairn) ∧ (∀ v, v ≠ t → z.tile v = s.tile v) ∧
        z = { s with tiles := z.tiles, rd := z.rd, rdBytes := z.rdBytes, draws := s.draws + 1 }) ∧
    ∀ l, s.inService = true → x.use = .staged l →
      ∃ z, exec (.stagedTileTimeout t) s = .next z ∧ (z.tile t).use = .free ∧ (z.tile t).staging = [] ∧ (z.tile t).clearing = false ∧
        (z.tile t).tarn = x.tarn ∧ (x.on = true → z.hasStaging t false = true) ∧
        (x.on = false → x.fenced = false → x.tarnPower ≠ .off → z.hasStaging (t + 320) false = true) ∧
        z.mem.stagingDone = s.mem.stagingDone ++
          x.staging.map (fun w => (2 ^ 59 + s.fabric.id * 2 ^ 44 + t * 2 ^ 23 + w.1, stNotPermitted)) ∧
        (∀ v, v ≠ t → z.tile v = s.tile v) ∧
        z = { s with tiles := z.tiles, power := z.power, mem := { s.mem with stagingDone := z.mem.stagingDone }
                     cairn := cairnMax s.cairn (roundUp (l + 1000000000) 4) }

/-- A request of a memory-plane operation is served once, its data land in the Tarn, and copies reach the members of their
Bunting -/
def Obligations.MemoryPlaneRows : Prop :=
  ∀ (s : State) (t id i : Nat) (f : Firing) (p : Piece) (x : Tile), s.inService = true → t < 320 → x = s.tile t →
    x.flight id = some f → f.pieces[i]? = some p →
    (∀ u busy, s.isShadow t = false → s.upFor t p busy = some u → s.mayAsk t u p = true → p.state = .waiting →
      (∀ off held, p.kind = .read → s.isFar p.addr = false → s.locate p.addr = .hbm off → (∀ l, s.wrongAt l = 0) →
        ∃ z, exec (.mplaneRequest t id i none [] busy held) s = .next z ∧ ((z.tile t).flight id).map (fun g => g.pieces[i]?) =
          some (some { p with
            state := .served (s.read p.addr p.bytes).bytes ((s.read p.addr p.bytes).poison || p.poison) (s.read p.addr p.bytes).status }) ∧
          Tab.get 0 z.planes.upNext (t / 16) = (u + 1) % 16 ∧ (∀ v, v ≠ t → z.tile v = s.tile v) ∧
          z.mem.hbm = s.mem.hbm ∧ z.mem.cxl = s.mem.cxl) ∧
      (∀ off held, p.kind = .write → s.isFar p.addr = false → s.locate p.addr = .hbm off →
        (off + p.data.length ≤ moduleArea →
          ∃ z, exec (.mplaneRequest t id i none [] busy held) s = .next z ∧ z.mem = (s.write p.addr p.data p.poison).1.mem ∧
            ((z.tile t).flight id).map (fun g => g.pieces[i]?) =
              some (some { p with state := .served [] false (s.write p.addr p.data p.poison).2 }) ∧
            (∀ v, v ≠ t → z.tile v = s.tile v) ∧ z = { s with tiles := z.tiles, planes := z.planes, mem := z.mem }) ∧
        (moduleArea < off + p.data.length → s.doneWordOk t p.addr p.data.length = false →
          ∃ z, exec (.mplaneRequest t id i none [] busy held) s = .next z ∧ ((z.tile t).flight id).map (fun g => g.pieces[i]?) =
            some (some { p with state := .served [] false stNotPermitted }) ∧ z = { s with tiles := z.tiles, planes := z.planes })) ∧
      ∀ b y ms, p.kind = .cast b → s.graphFor t = some y → ms = y.members b →
        ((∀ m ∈ ms, (s.tile m).fenced = false ∧ (s.tile m).lit = true ∧ (s.owner m).isSome = true ∧ s.withShadows m = [m] ∧
            (bytesToWords p.data).length ≤ (s.tile m).window) →
          ∃ z, exec (.mplaneRequest t id i none [] busy []) s = .next z ∧ ((z.tile t).flight id).map (fun g => g.pieces[i]?) =
              some (some { p with state := .served [] false stOk, copies := ms.map fun m => (m, false, .acked false) }) ∧
            (∀ m ∈ ms, ∀ j w, (bytesToWords p.data)[j]? = some w →
              Tab.get .zero (z.tile m).tarn ((s.tile m).castWord p.addr (bytesToWords p.data).length + j) = ⟨w, 0, p.poison⟩) ∧
            (∀ v, v ≠ t → v ∉ ms → z.tile v = s.tile v) ∧ z = { s with tiles := z.tiles, planes := z.planes }) ∧
        ∀ m r g, ms = [m] → (castPath t (u / 2) m).head? = some (r, g) → s.copiesAt r < 64 →
          ∃ z, exec (.mplaneRequest t id i none [] busy [(r, g)]) s = .next z ∧ ((z.tile t).flight id).map (fun g => g.pieces[i]?) =
              some (some { p with state := .remote, copies := [(m, false, .held r)] }) ∧
            (∀ v, v ≠ t → z.tile v = s.tile v) ∧ z = { s with tiles := z.tiles, planes := z.planes }) ∧
    (∀ busy data poison, p.state = .served data poison stOk → p.kind = .read → opCode (x.op f.index) ≠ 0x58 →
      s.isShadow t = false → s.withShadows t = [t] → (s.spineBack t p busy).isSome = true → s.mayLand t = true →
      ∃ z, exec (.mplaneResponse t id i none busy) s = .next z ∧
        ((z.tile t).flight id).map (fun g => g.pieces[i]?) = some (some { p with state := .landed, data := data }) ∧
        (∀ j w, (bytesToWords data)[j]? = some w → Tab.get .zero (z.tile t).tarn (p.tarn + j) = ⟨w, 0, poison⟩) ∧
        (∀ a, a < p.tarn ∨ p.tarn + (bytesToWords data).length ≤ a → Tab.get .zero (z.tile t).tarn a = Tab.get .zero x.tarn a) ∧
        (∀ v, v ≠ t → z.tile v = s.tile v) ∧ z = { s with tiles := z.tiles, planes := z.planes }) ∧
    (∀ data poison, s.isShadow t = true → x.lit = true → x.copyFor f i = some (f.index, f.count, i, .served data poison stOk) →
      p.kind = .read → opCode (x.op f.index) ≠ 0x58 →
      ∃ z, exec (.mplaneResponse t id i none []) s = .next z ∧
        (∀ j w, (bytesToWords data)[j]? = some w → Tab.get .zero (z.tile t).tarn (p.tarn + j) = ⟨w, 0, poison⟩) ∧
        (∀ v, v ≠ t → z.tile v = s.tile v) ∧ z = { s with tiles := z.tiles }) ∧
    (∀ b m r bad, p.kind = .cast b → p.copies = [(m, bad, .held r)] → r < 36 → s.blockedLinks = [] → s.isShadow t = false →
      (s.tile m).fenced = false → (s.tile m).lit = true → (s.owner m).isSome = true → s.withShadows m = [m] →
      (bytesToWords p.data).length ≤ (s.tile m).window →
      ∃ z, exec (.multicastBranchRelease t id i r (branchOf r m) []) s = .next z ∧ ((z.tile t).flight id).map (fun g => g.pieces[i]?) =
          some (some { p with state := .served [] bad stOk, copies := [(m, bad, .acked bad)] }) ∧
        (∀ j w, (bytesToWords p.data)[j]? = some w → Tab.get .zero (z.tile m).tarn
          ((s.tile m).castWord p.addr (bytesToWords p.data).length + j) = ⟨w, 0, p.poison || bad⟩) ∧
        (∀ v, v ≠ t → v ≠ m → z.tile v = s.tile v) ∧ z = { s with tiles := z.tiles, planes := z.planes }) ∧
    ((p.kind = .read ∨ p.kind = .write ∨ p.kind = .addrList ∨ p.kind = .crcList) → p.state = .waiting → s.isShadow t = false →
      s.onCxl p.addr = true →
      ∃ z, exec (.cxlAccessTimeout t id i) s = .next z ∧
        ((z.tile t).flight id).map (fun g => g.pieces[i]?) = some (some { p with state := .served [] false stUnreachable }) ∧
        (∀ v, v ≠ t → z.tile v = s.tile v) ∧ z = { s with tiles := z.tiles })

/-- Copies deliver every byte, page moves change an entry and free a page, patrol moves on and marks, and a retiring slice
copies frame by frame -/
def Obligations.MemoryTierRows : Prop :=
  (∀ (s : State) (d a b n : Nat) (dead : Option Nat) (x : Desc), s.starts d 0x30 (copyForm 0) x → n = x.get 32 8 →
    (∀ i, i < n → s.locate (x.get 16 8 + i) = .hbm (a + i) ∧ s.home (a + i) = .here ∧ s.wrongAt ((a + i) / 64) = 0) →
    (∀ i, i < n → s.locate (x.get 24 8 + i) = .hbm (b + i) ∧ s.home (b + i) = .here) → s.poisoned 0 a n = false →
    a + n ≤ moduleArea → b + n ≤ moduleArea → (a + n ≤ b ∨ b + n ≤ a) →
    ∃ u : State, exec (.memCopy d dead) s = .next (u.complete x stOk 0 0) ∧ u.readBytes 0 b n = s.readBytes 0 a n ∧
      (∀ c k, c + k ≤ b ∨ b + n ≤ c → u.readBytes 0 c k = s.readBytes 0 c k) ∧
      u = { s with mem := { s.mem with hbm := u.mem.hbm, wrong := u.mem.wrong } }) ∧
  (∀ (s : State) (d b n : Nat) (bs : List Byte) (dead : Option Nat) (x : Desc), s.starts d 0x31 (copyForm 1) x → n = x.get 32 8 →
    s.dma = true → x.arg = 0 → bs.length = n → (∀ i, i < n → s.locate (x.get 24 8 + i) = .hbm (b + i) ∧ s.home (b + i) = .here) →
    b + n ≤ moduleArea →
    ∃ u : State, exec (.hostCopy d (.data bs) dead) s = .next (u.complete x stOk 0 0) ∧ u.readBytes 0 b n = bs ∧
      (∀ c k, c + k ≤ b ∨ b + n ≤ c → u.readBytes 0 c k = s.readBytes 0 c k) ∧
      u = { s with mem := { s.mem with hbm := u.mem.hbm, wrong := u.mem.wrong } }) ∧
  (∀ (s : State) (g p : Nat) (y : Graph) (v : Serving) (e : Nat × Stream) (rest : List (Nat × Stream)), s.inService = true → g < 8 →
    s.graph? g = some y → y.serving = some v → inPrec (s.movable g y) = e :: rest →
    s.entriesIn e.1 (s.pageLeaving v) ≠ [] → s.roomFor y v e.2.cls 1 (fun _ => false) = some p →
    ∃ z, exec (.kvPageMigration g) s = .next z ∧ z.tracker = s.tracker ∧ z.mem = s.mem ∧ z = { s with graphs := z.graphs } ∧
      ∀ en pl pg pool n, s.entriesIn e.1 (s.pageLeaving v) = [(en, pl, pg)] → v.pools[p]? = some pool → y.sched.freePage p pool = some n →
        (z.graph? g).map (·.sched.moves) = some (y.sched.moves ++ [(e.1, en, pl, pg, p, n)])) ∧
  (∀ (s : State) (g idx en p pg p' pg' : Nat) (y : Graph) (v : Serving), s.inService = true → g < 8 → s.graph? g = some y →
    y.serving = some v → (y.sched.moves.find? fun m => m.1 == idx && m.2.1 == en) = some (idx, en, p, pg, p', pg') →
    (∀ j ∈ s.mem.copies, j.owner ≠ .page g idx en) →
    (∀ a b n, n = v.kvPageBytes / 64 * 64 → a + n ≤ moduleArea → b + n ≤ moduleArea →
      (∀ i, i < n → s.locate (pageAddr v p pg + i) = .hbm (a + i) ∧ s.home (a + i) = .here ∧ s.wrongAt ((a + i) / 64) = 0) →
      (∀ i, i < n → s.locate (pageAddr v p' pg' + i) = .hbm (b + i) ∧ s.home (b + i) = .here) →
      ∃ z, exec (.kvPageMoveDone g idx en true) s = .next z ∧ z.pagesOf idx = (s.pagesOf idx).set en (p', pg') ∧
        (z.graph? g).map (fun w => (w.sched.moves, Tab.get [] w.sched.freed p)) =
          some (y.sched.moves.erase (idx, en, p, pg, p', pg'), Tab.get [] y.sched.freed p ++ [pg])) ∧
    ∃ z, exec (.kvPageMoveDone g idx en false) s = .next z ∧ z.pagesOf idx = s.pagesOf idx ∧
      (z.graph? g).map (fun w => (w.sched.moves, Tab.get [] w.sched.freed p')) =
        some (y.sched.moves.erase (idx, en, p, pg, p', pg'), Tab.get [] y.sched.freed p' ++ [pg'])) ∧
  (∀ (s : State) (sg sl off : Nat), s.inService = true → s.memUp = true → sg < 16 → sl < 4 → s.regs.hbmScrub ≠ 0 →
    (s.slice (4 * sg + sl)).state = .good → (s.slice (4 * sg + sl)).patrol < sliceLines →
    off = hbmOffset (4 * sg + sl) (64 * (s.slice (4 * sg + sl)).patrol) → s.wrongAt (off / 64) = 0 →
    exec (.hbmPatrolRead sg sl 0) s =
      .next (s.updSlice (4 * sg + sl) fun x => { x with patrol := (x.patrol + 1) % sliceLines }) ∧
    (s.poisoned 0 off 64 = false →
      (∃ z, exec (.hbmPatrolRead sg sl 1) s = .next z ∧ (z.slice (4 * sg + sl)).ce = (s.slice (4 * sg + sl)).ce.add 1 ∧
        (z.slice (4 * sg + sl)).patrol = ((s.slice (4 * sg + sl)).patrol + 1) % sliceLines ∧ z.mem.hbm = s.mem.hbm ∧
        z.wrongAt (off / 64) = 0 ∧ z.tiles = s.tiles ∧ z.graphs = s.graphs) ∧
      ∃ z, exec (.hbmPatrolRead sg sl 2) s = .next z ∧ (z.slice (4 * sg + sl)).uncorr = (s.slice (4 * sg + sl)).uncorr.add 1 ∧
        z.poisoned 0 off 64 = true ∧ z.mem.hbm.bytes = s.mem.hbm.bytes ∧ z.tiles = s.tiles ∧ z.graphs = s.graphs)) ∧
  ∀ (s : State) (n i f c : Nat), s.inService = true → n < 64 → (s.slice n).state = .retiring i f →
    c = s.slotBase i + 4096 * f → s.cxlServed c = true →
    hbmOffset n (4096 * f) + 4096 ≤ moduleArea → s.poisoned 0 (hbmOffset n (4096 * f)) 4096 = false → (∀ l, s.wrongAt l = 0) →
    ∃ z, exec (.retireFrameCopied n) s = .next z ∧ z.readBytes 1 c 4096 = s.readBytes 0 (hbmOffset n (4096 * f)) 4096 ∧
      (z.slice n).state = (if f + 1 < sliceFrames then .retiring i (f + 1) else .retired i) ∧ z.mem.hbm = s.mem.hbm ∧
      (∀ m, m ≠ n → z.slice m = s.slice m) ∧ z = { s with mem := z.mem, ledger := z.ledger, host := z.host }

/-- Devices come, go and are removed range by range, and the BAR2 window reads and writes the bytes behind it -/
def Obligations.CxlAndWindowRows : Prop :=
  (∀ (s : State) (r port : Nat), r < 8 → port < 2 → (s.range r).valid = true → bit (s.range r).members port = true →
    (s.range r).inService = true → (s.range r).removing = [] → s.holders r = [] → s.slicesOn r = [] →
    ∃ z, exec (.cxlRangeLost r port) s = .next z ∧
      z.range r = { s.range r with inService := false, members := (s.range r).members - 2 ^ port } ∧
      (∀ q, q ≠ r → z.range q = s.range q) ∧ z = { s with mem := { s.mem with ranges := z.mem.ranges } }) ∧
  (∀ (s : State) (r : Nat) (ws : List (Nat × Bool)), r < 8 → (s.range r).removing = ws → ws ≠ [] → s.holders r = [] →
    s.slicesOn r = [] →
    ∃ u : State, exec (.cxlRemoveProceed r) s = .next (u.removalDone ws) ∧
      u.range r = { s.range r with inService := false, members := 0, removing := [] } ∧
      (∀ q, q ≠ r → u.range q = s.range q) ∧ (s.cairn, ⟨0x1305, (s.range r).baseGib * 2 ^ 30, r, (s.range r).sizeGib⟩) ∈ u.ledger.events ∧
      u = { s with mem := { s.mem with ranges := u.mem.ranges }, ledger := u.ledger, host := u.host }) ∧
  (∀ (s : State) (d r : Nat) (x : Desc), s.starts d 0x60 (fun _ => { entries := 1, arg := 0x107, named := [], align := true }) x →
    r = x.arg % 8 → (s.range r).valid = true → (s.range r).inService = true →
    (s.holders r ≠ [] → bit x.arg 8 = false → ∃ z, exec (.cxlRemove d) s = .next z ∧
      z.range r = { s.range r with removing := (s.range r).removing ++ [(d, false)] } ∧ z.desc d = some { x with started := true } ∧
      z = { s with mem := { s.mem with ranges := z.mem.ranges }, host := z.host }) ∧
    (s.holders r = [] → s.slicesOn r = [] → ∃ u : State,
      exec (.cxlRemove d) s = .next (u.removalDone ((s.range r).removing ++ [(d, bit x.arg 8)])) ∧
      u.range r = { s.range r with inService := false, members := 0, removing := [] } ∧
      (∀ q, q ≠ r → u.range q = s.range q))) ∧
  (∀ (s : State) (r : Nat), r < 8 → (s.range r).valid = true →
    ∃ z, exec (.cxlEventRecord r) s = .next z ∧ (z.range r).score = min ((s.range r).score + 16) 65535 ∧
      (∀ q, q ≠ r → z.range q = s.range q) ∧ z.mem.cxl = s.mem.cxl ∧ z.mem.hbm = s.mem.hbm ∧ z.tiles = s.tiles) ∧
  (∀ (s : State) (port kind serial gib : Nat), port < 2 → s.power.lost.contains (677 + port) = false →
    (kind ≠ 3 → ∃ z, exec (.cxlDeviceInsert port kind serial gib) s = .next z ∧
      z.ledger.events = s.ledger.events ++ [(s.cairn, ⟨0x1303, serial, port, kind⟩)] ∧
      z = { s with ledger := z.ledger, host := z.host }) ∧
    (Tab.get false s.power.domOff (677 + port) = true → ∃ z, exec (.cxlDeviceInsert port 3 serial gib) s = .next z ∧
      (port, serial, gib) ∈ z.mem.waitDevices ∧ z.hasStaging (677 + port) true = true ∧ z.mem.ranges = s.mem.ranges) ∧
    ∀ r u, Tab.get false s.power.domOff (677 + port) = false → s.formerRange port serial = none → s.placeDevice port serial gib = some (r, u) →
      ∃ z, exec (.cxlDeviceInsert port 3 serial gib) s = .next z ∧ (z.range r).valid = true ∧ (z.range r).inService = true ∧
        (z.range r).serial = serial ∧ ((z.range r).baseGib + gib ≤ 8192 → (z.range r).sizeGib = gib) ∧ (z.range r).port = port ∧ (z.range r).members = 2 ^ port ∧
        (∀ q, (s.range q).members ≠ 0 → (s.range q).valid = true → z.range q = s.range q) ∧ z.mem.hbm = s.mem.hbm) ∧
  ∀ (s : State) (off : Nat) (bytes : List Byte),
    (∀ n, off + n ≤ 2 ^ 32 → (s.memUp = false ∨ s.host.linkUp = false) →
      exec (.bar2Read off n) s = .next { s with rd := 0, rdBytes := List.replicate n 0xFF }) ∧
    (∀ n, off + n ≤ 2 ^ 32 → s.memUp = true → s.host.linkUp = true → s.fabric.id < 2 ^ 14 → s.regs.bar2 + off + n ≤ moduleArea →
      (∀ i, i < n → s.home (s.regs.bar2 + off + i) = .here ∧ s.wrongAt ((s.regs.bar2 + off + i) / 64) = 0) → s.poisoned 0 (s.regs.bar2 + off) n = false →
      exec (.bar2Read off n) s = .next { s with rd := 0, rdBytes := s.readBytes 0 (s.regs.bar2 + off) n }) ∧
    (off + bytes.length ≤ 2 ^ 32 → s.memUp = true → s.host.linkUp = true → s.fabric.id < 2 ^ 14 →
      (s.regs.bar2 + off + bytes.length ≤ moduleArea → (∀ i, i < bytes.length → s.home (s.regs.bar2 + off + i) = .here) →
        ∃ z, exec (.bar2Write off bytes) s = .next z ∧ z.readBytes 0 (s.regs.bar2 + off) bytes.length = bytes ∧
          (∀ c k, c + k ≤ s.regs.bar2 + off ∨ s.regs.bar2 + off + bytes.length ≤ c → z.readBytes 0 c k = s.readBytes 0 c k) ∧
          z = { s with mem := { s.mem with hbm := z.mem.hbm, wrong := z.mem.wrong } }) ∧
      (bytes ≠ [] → moduleArea ≤ s.regs.bar2 + off → s.regs.bar2 + off + bytes.length ≤ hbmBytes →
        ∃ z, exec (.bar2Write off bytes) s = .next z ∧
          z.ledger.events = s.ledger.events ++ [(s.cairn, ⟨0x1302, s.regs.bar2 + off, 0, 0⟩)] ∧
          z = { s with ledger := z.ledger, host := z.host }))

/-- A Burgee switches its tile, a drained abandonment lets its graph run again, and digests are compared -/
def Obligations.ChangeAndVerifyRows : Prop :=
  (∀ (s : State) (t g v : Nat) (y : Graph) (c : Change) (x : Tile), s.inService = true → t < 320 → x = s.tile t →
    x.use = .bound g v → s.graph? g = some y → y.change = some c → c.placed = true → x.cfg.generation = y.generation →
    s.runs t = true → s.passReady y v t = true → s.feeds y v x.cfg.generation = [] → s.withShadows t = [t] → c.place.getD v 320 < 320 →
    s.swaps t = false →
    (y.servingCame c = false ∨ ∃ u ∈ c.place, u < 320 ∧ u ≠ t ∧ (s.tile u).cfg.generation ≠ y.nextGen) →
    ∃ z, exec (.burgeePass t) s = .next z ∧ (z.tile t).cfg = c.image.tileCfg c.place y.nextGen v ∧
      (z.tile t).staged = some x.cfg ∧ (z.tile t).run.burgeePassed = true ∧
      (x.cfg.same (c.image.tileCfg c.place y.nextGen v) = false → (z.tile t).run.switchUntil =
        some (x.cycle + 512 + 256 * Machine.dist x.cfg.layerUnits (c.image.tileCfg c.place y.nextGen v).layerUnits)) ∧
      (x.cfg.same (c.image.tileCfg c.place y.nextGen v) = false → ∀ r ∈ x.cfg.routes, r.2.enable = true →
        ∃ m ∈ z.planes.words, m.marker = true ∧ m.src = t ∧ m.srcChan = r.1 ∧ m.tile = r.2.dest ∧ m.chan = r.2.chan) ∧
      (z.tile t).tarn = x.tarn ∧ (∀ w, w ≠ t → z.tile w = { s.tile w with
        run := { (s.tile w).run with channels := (z.tile w).run.channels, posted := (z.tile w).run.posted } }) ∧
      (z.graph? g = some y ∨ z.graph? g = some { y with mode := if c.image.mode = 0 then .native else .compat }) ∧
      (∀ h, h ≠ g → z.graph? h = s.graph? h) ∧ z.mem = s.mem) ∧
  (∀ (s : State) (t g v e : Nat) (y : Graph) (x : Tile), s.inService = true → t < 320 → x = s.tile t →
    x.run.switchUntil = some e → s.owner t = some (g, v) → s.graphFor t = some y →
    ∃ z, exec (.burgeeSwitchComplete t) s = .next z ∧ (z.tile t).run.switchUntil = none ∧
      (z.tile t).run.credits = x.cfg.credits ∧ (z.tile t).cycle = max x.cycle (roundUp e 8) ∧ (z.tile t).cfg = x.cfg ∧
      (∀ n a, x.run.clearFrom = some n → min n x.cfg.layerUnits * 8192 ≤ a → a < max n x.cfg.layerUnits * 8192 →
        Tab.get .zero (z.tile t).tarn a = .zero) ∧
      (∀ w, w ≠ t → z.tile w = { s.tile w with run := { (s.tile w).run with channels := (z.tile w).run.channels } }) ∧
      z = { s with tiles := z.tiles }) ∧
  (∀ (s : State) (g : Nat) (y : Graph) (a : Abandon), s.inService = true → g < 8 → s.graphIds = [g] → s.graph? g = some y →
    y.abandon = some a → a.toStop = [] → a.drained = false → s.power.halted = false → a.replace = [] → y.unplaced = [] →
    y.suspended = false → y.change = none → y.verify = .reset → y.sched.batches = [] →
    ∃ z, exec (.abandonDrainDone g) s = .next z ∧ z.graph? g = some { y with abandon := none } ∧
      (∀ t, t ∈ s.graphTiles g → (z.tile t).run.stopped = false) ∧ (∀ t, t ∉ s.graphTiles g → z.tile t = s.tile t) ∧
      z = { s with graphs := z.graphs, tiles := z.tiles
                   cairn := if a.until_ = 0 then s.cairn else cairnMax s.cairn (roundUp a.until_ 4) }) ∧
  ∀ (s : State) (t id sh g v : Nat) (y : Graph) (p q : Seen), s.inService = true → t < 320 → sh < 320 → s.owner t = some (g, v) →
    s.graph? g = some y → y.abandon = none → (v, sh) ∈ y.verify.shadows → y.verify.resolving = none →
    (y.verify.seen.find? fun e => e.tile == t && e.id == id) = some p →
    (y.verify.seen.find? fun e => e.tile == sh && e.vtile == v && e.op == p.op && e.firing == p.firing) = some q →
    (p.digest = q.digest → exec (.digestCompare t id sh) s = .next (s.setGraph g (some { y with
      verify := { y.verify with seen := y.verify.seen.filter fun e => e != p && e != q } }))) ∧
    (p.digest ≠ q.digest → ∃ z, exec (.digestCompare t id sh) s = .next z ∧
      (s.cairn, ⟨0x1602, p.digest, tg p.vtile g, q.tile⟩) ∈ z.ledger.events ∧
      (z.graph? g).map (fun w => (w.verify.resolving, w.verify.passes, w.abandon.map (·.causes))) =
        some (some (p.vtile, p.op, p.firing), 1, some [4]) ∧
      z = { s with graphs := z.graphs, ledger := z.ledger, host := z.host })

/-- Scores leak by one, and a stress session starts, ends, fails and is retested as stated -/
def Obligations.ScoresAndStress : Prop :=
  (∀ (s : State) (k : PartKind), (∀ id, id < partCount k → (s.score k id).2 = 3 ∨ (s.score k id).1 ≤ (partThresholds k).2.2) →
    ∃ z, exec (.faultScoreLeak k) s = .next z ∧ (∀ id, id < partCount k → (z.score k id).1 = (s.score k id).1 - 1) ∧
      z.cairn = cairnMax s.cairn (roundUp (s.nextLeak k) 4) ∧ Tab.get 0 z.leaks (partCode k) = z.cairn + 1 ∧ z.mem.hbm = s.mem.hbm ∧ z.mem.cxl = s.mem.cxl ∧
      z.graphs = s.graphs) ∧
  (∀ (s : State) (m t : Nat), s.inService = true → m < 20 → s.power.brownout = false → s.power.halted = false →
    s.power.inputW * 700000 ≤ 9 * s.power.limit → (∀ i, i < 16 → ∀ a b c, (s.tile (m * 16 + i)).use ≠ .stress a b c) →
    ((((List.range 16).map fun i => m * 16 + i).filter fun u => decide (u > s.lastStressed m)) ++
      ((List.range 16).map fun i => m * 16 + i).filter fun u => decide (u ≤ s.lastStressed m)).find? s.stressable = some t →
    ∃ z, exec (.stressSessionStart m) s = .next z ∧ (z.tile t).use = .stress (s.cairn + 20000000000) 0 false ∧
      (z.tile t).tarn = [] ∧ ((s.tile t).on = false → s.power.lost.contains t = false → z.hasStaging t true = true) ∧
      (∀ u, u ≠ t → z.tile u = s.tile u) ∧ z = { s with tiles := z.tiles, power := z.power }) ∧
  (∀ (s : State) (t e cs : Nat) (b : Bool), s.inService = true → t < 320 → (s.tile t).use = .stress e cs b →
    (∀ g y, s.graph? g = some y → y.suspended = false) →
    (b = false → ∀ n, ∃ z, exec (.stressSessionEnd t n) s = .next z ∧ z.ledger.sessions = s.ledger.sessions ++ [(t, 20000, n, 0)] ∧
      (z.tile t).use = .free ∧ ((s.tile t).on = true → z.hasStaging t false = true) ∧ (∀ u, u ≠ t → z.tile u = s.tile u) ∧
      z = { s with tiles := z.tiles, ledger := z.ledger, power := z.power, mem := { s.mem with stagingDone := z.mem.stagingDone }
                   cairn := cairnMax s.cairn (roundUp e 4) }) ∧
    (b = true → ∃ z, exec (.stressNominalRetestDone t true) s = .next z ∧
      z.ledger.sessions = s.ledger.sessions ++ [(t, s.sessionMs e, cs, 1)] ∧ (z.tile t).use = .free ∧
      (s.cairn, ⟨0x1609, cs, t, 1⟩) ∈ z.ledger.events ∧ (∀ u, u ≠ t → z.tile u = s.tile u)) ∧
    (b = true → (s.tile t).part ≠ 3 → (s.tile t).fenced = false → ∃ z, exec (.stressNominalRetestDone t false) s = .next z ∧
      (z.tile t).fenced = true ∧ (z.tile t).part = 3 ∧ (∀ u, u ≠ t → z.tile u = s.tile u)) ∧
    (∀ cases, b = false → (s.tile t).part ≠ 3 → (s.tile t).score + 1024 < 4096 →
      ∃ z, exec (.stressMismatch t cases) s = .next z ∧ (z.tile t).use = .stress e cases true ∧
        (z.tile t).score = (s.tile t).score + 1024 ∧ (∀ u, u ≠ t → z.tile u = s.tile u) ∧ z.mem = s.mem)) ∧
  ∀ (s : State) (t e cs cases : Nat) (nominal : Bool), s.inService = true → t < 320 → (s.tile t).use = .stress e cs false →
    (s.tile t).part ≠ 3 → (s.tile t).fenced = false → 4096 ≤ (s.tile t).score + 1024 →
    ∃ z, exec (.stressMismatch t cases nominal) s = .next z ∧ (z.tile t).fenced = true ∧ (z.tile t).part = 3 ∧
      z.ledger.sessions = s.ledger.sessions ++ [(t, s.sessionMs e, cases, if nominal then 1 else 3)] ∧
      ∀ u, u ≠ t → z.tile u = s.tile u

/-- Graphs are loaded, unloaded, given policies, read, abandoned on a circle, spilled, refilled and sampled -/
def Obligations.GraphRows : Prop :=
  (∀ (s : State) (d g : Nat) (x : Desc) (img : List Byte) (place bs : List Nat), s.starts d 0x10 loadForm x →
    s.fuses.lcState ∉ [0, 2, 5] → s.dma = true → x.serves = false → x.imageHost = true → img.length = x.imageSize →
    imageFault img (s.loadRules x img) [] = none → (imageOf img x.imageAddr true).reconfig = false → hReconfig img = false →
    (imageOf img x.imageAddr true).buntings.length ≤ s.freeBuntings.length → (List.range 8).find? (fun g => (s.graph? g).isNone) = some g →
    s.planBinding g (imageOf img x.imageAddr true) (fun _ => none) = .ok (place, bs) → place.Nodup → s.monitor.testing = none →
    ∃ u : State, exec (.graphLoad d (.data img)) s = .next (u.complete x stOk 0 g) ∧
      u.graph? g = some (newGraph (imageOf img x.imageAddr true) x none (s.newSched none) place bs) ∧
      (∀ h, h ≠ g → u.graph? h = s.graph? h) ∧ u.mem = { s.mem with stagingDone := u.mem.stagingDone } ∧
      (∀ v t, place[v]? = some t → t < 320 → (u.tile t).use = .bound g v ∧ (u.tile t).clearing = true ∧
        ((s.tile t).on = false → s.power.halted = false → s.power.lost.contains t = false → u.hasStaging t true = true)) ∧
      ∀ t, t ∉ place → u.tile t = s.tile t) ∧
  (∀ (s : State) (d : Nat) (x : Desc) (y : Graph),
    (s.starts d 0x11 (fun _ => ⟨1, 7, [], true⟩) x → s.servedGraph (x.arg % 8) = some y → exec (.graphUnload d) s =
      .next ((s.setGraph (x.arg % 8) (some { y with unloading := some d })).holdDesc d)) ∧
    (s.starts d 0x12 policyForm x → s.servedGraph (x.arg % 8) = some y → x.get 40 2 = 0 →
      (∃ v, y.serving = some v ∧ (policyOf x).ok v.pools.length = true) → exec (.classPolicy d) s =
        .next ((s.updSched (x.arg % 8) fun c => { c with newPolicy := some (policyOf x) }).complete x stOk 0 0)) ∧
    (s.starts d 0x13 statusForm x → x.arg = 1 → exec (.statusRead d) s =
      .next ((s.hostWrite (x.get 24 8) (s.tile (x.get 18 2)).tarnBlock).complete x stOk 0 64)) ∧
    (s.starts d 0x13 statusForm x → x.arg = 0 → s.servedGraph (x.get 16 1) = some y → x.get 18 2 < y.place.length →
      exec (.statusRead d) s = .next ((s.hostWrite (x.get 24 8) (s.obsBlock (y.place.getD (x.get 18 2) 320))).complete x stOk 0 0x1080))) ∧
  (∀ (s : State) (g tag : Nat) (y : Graph), s.inService = true → g < 8 → s.graphIds = [g] → s.graph? g = some y →
    y.unloading = some tag → y.sched.batches = [] → s.streamsOf g = [] → y.change = none → y.verify.shadows = [] →
    s.shutdown.busy = false →
    ∃ z, exec (.graphUnloadComplete g) s = .next z ∧ z.graph? g = none ∧ z.desc tag = none ∧
      (∀ t, t ∈ y.place → t < 320 → (z.tile t).use = .free) ∧ (∀ t, t ∉ y.place → z.tile t = s.tile t) ∧
      z.mem = { s.mem with stagingDone := z.mem.stagingDone }) ∧
  (∀ (s : State) (g : Nat) (y : Graph) (circle : List (Nat × Nat)), s.inService = true → g < 8 → s.graph? g = some y →
    y.suspended = false → y.stopped = false → y.abandon = none →
    (y.mode = .native → s.circleStands y 65536 circle = true → ∃ z, exec (.scheduleViolation g circle) s = .next z ∧
      (z.graph? g).map (fun w => (w.mode, w.abandon.map (·.causes))) = some (.degraded, some [3]) ∧ z.tiles = s.tiles ∧ z.mem = s.mem) ∧
    ∀ t q, y.mode ≠ .native → s.circleStands y 4096 circle = true → lowestQueue circle = some (t, q) →
      s.withShadows t = [t] → y.spills = [] → 1 < (((s.tile t).queue q).toks ++ ((s.tile t).queue q).fresh).length → (∀ a, (Tab.get .zero (s.tile t).tarn a).wrong = 0) →
      ({ y with spills := [⟨t, q, (((s.tile t).queue q).toks ++ ((s.tile t).queue q).fresh).drop 1 |>.map fun k =>
        screeToken k ((s.tile t).tokenWords s.draws k)⟩] } : Graph).screeFits = true →
      ∃ z, exec (.cyclicWait g circle) s = .next z ∧ (s.cairn, ⟨0x1105, g, t * 256 + q, circle.length⟩) ∈ z.ledger.events ∧
        ((z.tile t).queue q).toks ++ ((z.tile t).queue q).fresh =
          (((s.tile t).queue q).toks ++ ((s.tile t).queue q).fresh).take 1 ∧
        (z.graph? g).map (fun w => w.spills.map fun p => (p.tile, p.queue, p.toks.map (·.1))) =
          some [(t, q, (((s.tile t).queue q).toks ++ ((s.tile t).queue q).fresh).drop 1)] ∧
        (∀ u, u ≠ t → z.tile u = { s.tile u with run := { (s.tile u).run with waiting := (z.tile u).run.waiting } }) ∧ z.mem = s.mem) ∧
  (∀ (s : State) (t q g v : Nat) (y : Graph) (p : Spill), s.inService = true → t < 320 → q < 256 → s.owner t = some (g, v) →
    s.graph? g = some y → y.spills = [p] → p.tile = t → p.queue = q → ((s.tile t).queue q).toks = [] →
    ((s.tile t).queue q).fresh = [] → s.isShadow t = false → s.runs t = true → 0 < p.toks.length → p.toks.length ≤ ((s.tile t).credit q).held →
    s.withShadows t = [t] → (∀ k ∈ p.toks, (s.tile t).entryTaken q k.1 = false) →
    ∃ z, exec (.screeRefill t q) s = .next z ∧ ((z.tile t).queue q).fresh = p.toks.map (·.1) ∧
      (z.graph? g).map (·.spills) = some [] ∧ ((z.tile t).credit q).held = ((s.tile t).credit q).held - p.toks.length ∧
      (∀ u, u ≠ t → z.tile u = s.tile u) ∧ z = { s with tiles := z.tiles, graphs := z.graphs }) ∧
  ∀ (s : State) (g n : Nat) (y : Graph), s.inService = true → g < 8 → s.graph? g = some y → y.change = none → y.image.obsMode = 2 →
    y.place.Nodup → y.image.sampleInterval ≠ 0 → (∃ t ∈ y.place, t < 320) →
    n = (s.cairn / y.image.sampleInterval + 1) * y.image.sampleInterval →
    ∃ z, exec (.queueDepthSample g) s = .next z ∧ z.cairn = cairnMax s.cairn (roundUp n 4) ∧
      (∀ t, t ∈ y.place → t < 320 → (z.tile t).sampleSeq = ((s.tile t).sampleSeq + 1) % 2 ^ 32) ∧
      (z.graph? g).map (·.sampleSeq) = some (y.sampleSeq + y.place.countP (· < 320))

/-- Streams are opened, extended, cancelled, read and ended, and their records are written through -/
def Obligations.StreamRows : Prop :=
  (∀ (s s1 : State) (d i n u0 : Nat) (x : Desc) (y : Graph) (v : Serving) (b : List Byte),
    s.starts d 0x20 (fun d => reservedForm (openForm s d) (openReserved d)) x → s.servedGraph (x.get 16 1) = some y →
    y.serving = some v → n = x.get 20 4 → 0 < n → n < x.get 32 4 → x.get 32 4 ≤ v.maxPages * v.kvPageTokens →
    s.dma = true → s.takeIndex = some (i, s1) → b.length = 4 * n → i < streamCount → s.stream i = .free → s.tableStands →
    (∀ k, k < 128 → s.home (s.regs.streamTable + 128 * i + k) = .here) →
    findRun (v.promptBytes / 64) (ceilDiv (4 * n) 64) y.sched.runs (y.sched.runs.length + 1) 0 = some u0 →
    ∃ (u : State) (h : Nat), exec (.streamOpen d (.data b)) s = .next (u.complete x stOk 0 h) ∧
      h = i + nextGen (Tab.get 0 s.tracker.lastGen i) * 2 ^ 21 ∧ (u.stream i).handle = h ∧ (u.stream i).state = .pending ∧
      (u.stream i).cls = x.get 17 1 ∧ (u.stream i).graph = x.get 16 1 ∧ (u.stream i).position = 0 ∧ (u.stream i).promptEnd = n ∧
      (u.stream i).limit = x.get 32 4 ∧ (u.stream i).userTag = x.get 40 8 ∧ (u.stream i).promptAddr = v.promptBase + 64 * u0 ∧
      (u.stream i).deadline = y.sched.startDeadline (x.get 17 1) s.cairn ∧ (∀ j, j ≠ i → u.stream j = s.stream j) ∧
      u.readBytes 0 (s.regs.streamTable + 128 * i) 112 = (u.stream i).critical ∧
      (u.graph? (x.get 16 1)).map (·.sched.runs) = some (y.sched.runs ++ [(u0, ceilDiv (4 * n) 64, i)])) ∧
  (∀ (s : State) (d i n u0 : Nat) (x : Desc) (y : Graph) (v : Serving) (b : List Byte), s.starts d 0x21 (extendForm s) x →
    s.byHandle (x.get 16 4) = some i → s.servedGraph (s.stream i).graph = some y → y.serving = some v → n = x.get 20 4 →
    s.mayExtend y i = true → (s.stream i).position + 1 + n < (s.stream i).limit → s.dma = true → b.length = 4 * n →
    findRun (v.promptBytes / 64) (ceilDiv (4 + 4 * n) 64) (y.sched.runs.filter fun r => r.2.2 != i)
      ((y.sched.runs.filter fun r => r.2.2 != i).length + 1) 0 = some u0 →
    ∃ u : State, exec (.streamExtend d (.data b)) s = .next (u.complete x stOk 0 0) ∧ (u.stream i).state = .pending ∧
      (u.stream i).promptEnd = (s.stream i).position + 1 + n ∧ (u.stream i).position = (s.stream i).position ∧
      (u.stream i).promptAddr = v.promptBase + 64 * u0 ∧ (u.stream i).deadline = y.sched.startDeadline (s.stream i).cls s.cairn ∧
      ∀ j, j ≠ i → u.stream j = s.stream j) ∧
  (∀ (s : State) (d i : Nat) (x : Desc) (y : Graph), s.starts d 0x22 cancelForm x → s.byHandle (x.get 16 4) = some i →
    s.servedGraph (s.stream i).graph = some y → (s.stream i).state ≠ .ending → s.tableStands →
    ∃ u : State, exec (.streamCancel d) s = .next (u.complete x stOk 0 0) ∧ (u.stream i).cancelReq = true ∧
      (y.inBatch i = true → (u.stream i).state = (s.stream i).state) ∧
      (y.inBatch i = false → (s.stream i).kvLost = false → (u.stream i).state = .ending ∧ (u.stream i).endDetail = endCancel) ∧
      (∀ j, j ≠ i → u.stream j = s.stream j) ∧ u.tiles = s.tiles) ∧
  (∀ (s : State) (d i : Nat) (x : Desc) (y : Graph), s.starts d 0x23 queryForm x → s.byHandle (x.get 16 4) = some i →
    s.servedGraph (s.stream i).graph = some y → s.dma = true →
    ∃ u : State, exec (.streamQuery d) s = .next (u.complete x stOk 0 (s.stream i).state.code) ∧
      (s.tracker.cache.contains i = true → Tab.getAll 0 u.host.mem (x.get 24 8) 128 = (s.stream i).bytes) ∧ (∀ j, u.stream j = s.stream j) ∧ u.graphs = s.graphs) ∧
  (∀ (s : State) (i : Nat), s.inService = true → i < streamCount → (s.stream i).state = .ending →
    (s.cq (s.stream i).cq).hasFree = true → s.dma = true → s.inFlightStream i = false → s.tableStands →
    (∀ l, s.wrongAt l = 0) → s.mem.hbm.poison = [] →
    ∃ z, exec (.streamFinalRecord i) s = .next z ∧ z.stream i = .free ∧ z.tracker.freed = s.tracker.freed ++ [i] ∧
      (z.cq (s.stream i).cq).count = ((s.cq (s.stream i).cq).count + 1) % 2 ^ 32 ∧ z.pagesOf i = [] ∧ z.tiles = s.tiles) ∧
  ∀ (s : State) (i : Nat) (x : Stream) (y : Graph), s.inService = true → i < streamCount → x = s.stream i →
    s.graph? x.graph = some y → x.deadline ≠ noDeadline → (x.state = .pending ∨ x.state = .decode ∨ x.state = .held) →
    (cairnSince s.cairn x.deadline < 2 ^ 63 - 4 ∨ cairnSince x.deadline s.cairn < 2 ^ 63) → s.tableStands →
    ∃ z, exec (.deadlineExpiry i) s = .next z ∧ z.cairn = cairnMax s.cairn (roundUp (x.deadline + 1) 4) ∧
      (z.stream i).lateSeen = true ∧ (z.stream i).lateMark = true ∧ (z.stream i).lateCount = min (x.lateCount + 1) 0xFFFF ∧
      (z.stream i).state = x.state ∧ (z.cairn, ⟨0x1202, x.deadline, x.handle, x.cls⟩) ∈ z.ledger.events ∧
      (∀ j, j ≠ i → z.stream j = s.stream j) ∧ z.tiles = s.tiles ∧ z.graphs = s.graphs

/-- A period is selected within its limits, issued at its start, cut into slices, delivered and harvested -/
def Obligations.PeriodRows : Prop :=
  ∀ (s : State) (g : Nat) (y : Graph), s.inService = true → g < 8 → s.graph? g = some y →
    (∀ v, y.active = true → y.sched.plan = none → y.servingFor y.sched.nextK = some v →
      ∃ z p, exec (.periodSelection g) s = .next z ∧ (z.graph? g).bind (·.sched.plan) = some p ∧ p.decode.length ≤ v.batchRows ∧
        p.slices.length = y.sched.lengthNs y.sched.nextK / ms ∧ (∀ sl ∈ p.slices, tokensOf sl ≤ v.admitTokens) ∧
        z.cairn = cairnMax s.cairn (roundUp
          (if y.sched.started then cairnMax (y.sched.nextB - ms) y.sched.startAt else y.sched.nextB - ms) 4)) ∧
    (∀ v w p, y.active = true → y.sched.plan = some p → y.servingFor y.sched.nextK = some v → y.serving = some w →
      y.sched.batches = [] → (y.sched.started = false ∨ y.sched.endAt.isSome = true) → y.change = none →
      ∃ z c b, exec (.periodBatchIssue g) s = .next z ∧ (z.graph? g).map (·.sched) = some c ∧ c.period = y.sched.nextK ∧
        c.nextK = y.sched.nextK + 1 ∧ c.started = true ∧ c.nextB = y.sched.nextB + y.sched.lengthNs y.sched.nextK ∧
        c.startAt = y.sched.endAt.elim y.sched.nextB (cairnMax y.sched.nextB) ∧ c.plan = none ∧ c.batches = [b] ∧ b.kind = 0 ∧
        b.seq = y.sched.nextK ∧ b.toDeliver = w.periodEntries ∧ b.rows.length ≤ p.decode.length ∧
        z.cairn = cairnMax s.cairn (roundUp c.startAt 4)) ∧
    (∀ v, y.active = true → y.sched.started = true → y.serving = some v →
      ∃ z c, exec (.sliceBoundary g) s = .next z ∧ (z.graph? g).map (·.sched) = some c ∧ c.slice = y.sched.slice + 1 ∧
        z.cairn = cairnMax s.cairn (roundUp (y.sched.startAt + y.sched.slice * ms) 4) ∧
        (c.batches = y.sched.batches ∨ ∃ b, c.batches = y.sched.batches ++ [b] ∧ b.kind = 1 ∧ b.seq = y.sched.admissionSeq ∧
          sumNat (b.rows.map (·.count)) ≤ v.admitTokens ∧ c.admissionSeq = y.sched.admissionSeq + 1)) ∧
    (∀ v b e t, y.serving = some v → y.suspended = false → y.stopped = false → y.abandon = none → y.change = none → b.kind < 2 →
      (y.sched.batches.find? fun c => c.kind == b.kind && c.seq == b.seq) = some b → b.done = false → b.toDeliver = [e] →
      t = y.place.getD e.1 320 → s.entryReady t e.2 b.generation = true → s.withShadows t = [t] →
      ∃ z a n, exec (.batchDelivery g b.kind b.seq) s = .next z ∧ a = ((s.tile t).qcfg (e.2 + 1)).entry ((s.tile t).queue (e.2 + 1)).sent ∧
        n = (bytesToWords (batchBytes g (s.hbmAddr s.regs.streamTable) b)).length ∧
        (z.tile t).run.emitted = (s.tile t).run.emitted ++
          [(e.2, ⟨.pennant b.pennant, b.seq % 2 ^ 16, false⟩), (e.2 + 1, ⟨.data a n, b.seq % 2 ^ 16, false⟩)] ∧
        (∀ i w, (bytesToWords (batchBytes g (s.hbmAddr s.regs.streamTable) b))[i]? = some w →
          Tab.get .zero (z.tile t).tarn (a + i) = ⟨w, 0, false⟩) ∧ (∀ u, u ≠ t → z.tile u = s.tile u) ∧
        z = { s with tiles := z.tiles, graphs := z.graphs }) ∧
    (∀ v, y.serving = some v → exec (.powerForecast g) s = .next { s with power := { s.power with
      forecast := s.power.forecast.filter (·.1 != g) ++ [(g, y.sched.nextUnits v)] } }) ∧
    ∀ b : Batch, b.kind < 2 → (y.sched.batches.find? fun c => c.kind == b.kind && c.seq == b.seq) = some b → b.done = true →
      y.suspended = false → y.stopped = false → y.abandon = none → (∀ h w, s.graph? h = some w → w.suspended = false) →
      (b.rows = [] → ∃ z, exec (.harvest g b.kind b.seq) s = .next z ∧ (z.graph? g).map (·.sched.batches) =
        some (y.sched.batches.filter fun c => !(c.seq == b.seq && c.kind == b.kind))) ∧
      ∀ (r : Row) (x : Stream) (tok : Nat), b.rows = [r] → r.kind = 0 → x = s.stream r.idx → s.rowLives r = true →
        s.overdue r.idx = false → s.verified y b = true → y.unchecked b = [] → s.draw.resultOf b 0 r = (tok, true) → s.dma = true →
        (∀ j ∈ s.tracker.journals, j.ring ≠ x.hring) →
        x.endsWith tok (r.position + r.count) = none → x.kvLost = false →
        ∃ z, exec (.harvest g b.kind b.seq) s = .next z ∧ (z.stream r.idx).position = r.position + r.count ∧
          (z.stream r.idx).lastToken = tok ∧ (z.stream r.idx).hvSeq = (s.hv x.hring).count ∧
          (z.hv x.hring).count = ((s.hv x.hring).count + 1) % 2 ^ 32 ∧
          Tab.getAll 0 z.host.mem ((s.hv x.hring).base + 8 * ((s.hv x.hring).count % (s.hv x.hring).size)) 8 =
            toLe 8 (tokenRecord x tok (1 - (s.hv x.hring).count / (s.hv x.hring).size % 2) false false).toNat ∧
          (z.graph? g).map (·.sched.batches) = some (y.sched.batches.filter fun c => !(c.seq == b.seq && c.kind == b.kind)) ∧
          ∀ j, j ≠ r.idx → z.stream j = s.stream j

/-- A 64-bit address register takes its value with its high word, from the low word written last -/
def Obligations.AddressRegistersTakeHighWord : Prop :=
  ∀ (s : State) (v : Nat), s.bar0Answers = true → s.seq ≠ .rescue → s.regs.locked = false → v < 2 ^ 32 →
    exec (.dbBaseWrite ⟨0x13000, 4, v⟩) s = .next { s with host := { s.host with dbLow := v / 2 ^ 12 * 2 ^ 12 } } ∧
    exec (.dbBaseWrite ⟨0x13004, 4, v⟩) s = .next { s with host := { s.host with dbBase := v * 2 ^ 32 + s.host.dbLow } } ∧
    (∀ hi < 2 ^ 32, exec (.dbBaseWrite ⟨0x13000, 8, hi * 2 ^ 32 + v⟩) s = .next { s with
      host := { s.host with dbLow := v / 2 ^ 12 * 2 ^ 12, dbBase := hi * 2 ^ 32 + v / 2 ^ 12 * 2 ^ 12 } }) ∧
    exec (.bar2BaseWrite ⟨0x40008, 4, v⟩) s = .next { s with regs := { s.regs with bar2Low := v } } ∧
    exec (.bar2BaseWrite ⟨0x4000C, 4, v⟩) s = .next { s with
      regs := { s.regs with bar2 := (v % 2 ^ 12 * 2 ^ 32 + s.regs.bar2Low) / 2 ^ 30 * 2 ^ 30 } } ∧
    exec (.registerWrite ⟨0x60008, 4, v⟩) s = .next { s with dump := { s.dump with baseLow := v / 2 ^ 12 * 2 ^ 12 } } ∧
    exec (.registerWrite ⟨0x6000C, 4, v⟩) s = .next { s with dump := { s.dump with base := v * 2 ^ 32 + s.dump.baseLow } } ∧
    (∀ n < 256,
      exec (.registerWrite ⟨0x10000 + 16 * n, 4, v⟩) s = .next (s.updSq n fun r => { r with baseLow := v / 2 ^ 12 * 2 ^ 12 }) ∧
      exec (.registerWrite ⟨0x11000 + 16 * n, 4, v⟩) s = .next (s.updCq n fun r => { r with baseLow := v / 2 ^ 12 * 2 ^ 12 }) ∧
      ((s.sq n).enable = false → exec (.registerWrite ⟨0x10004 + 16 * n, 4, v⟩) s =
        .next (s.updSq n fun r => { r with base := v * 2 ^ 32 + r.baseLow })) ∧
      ((s.cq n).enable = false → exec (.registerWrite ⟨0x11004 + 16 * n, 4, v⟩) s =
        .next (s.updCq n fun r => { r with base := v * 2 ^ 32 + r.baseLow }))) ∧
    (∀ n < 64,
      exec (.registerWrite ⟨0x12000 + 16 * n, 4, v⟩) s = .next (s.updHv n fun r => { r with baseLow := v / 2 ^ 12 * 2 ^ 12 }) ∧
      ((s.hv n).enable = false → exec (.registerWrite ⟨0x12004 + 16 * n, 4, v⟩) s =
        .next (s.updHv n fun r => { r with base := v * 2 ^ 32 + r.baseLow }))) ∧
    exec (.streamTableBaseWrite ⟨0x13010, 4, v⟩) s =
      .next { s with regs := { s.regs with streamTableLow := v / 2 ^ 16 * 2 ^ 16 } } ∧
    ∀ a, a = v % 2 ^ 12 * 2 ^ 32 + s.regs.streamTableLow → (∀ g y, s.graph? g = some y → y.serving = none) →
      (∀ e ∈ s.tracker.streams, e.2.state = .free) → a + 2 ^ 28 ≤ moduleArea →
      ∃ t, exec (.streamTableBaseWrite ⟨0x13014, 4, v⟩) s = .next t ∧ t.regs = { s.regs with streamTable := a } ∧
        (∀ b n, a ≤ b → b + n ≤ a + 2 ^ 28 → t.readBytes 0 b n = List.replicate n 0) ∧
        (∀ b n, b + n ≤ a ∨ a + 2 ^ 28 ≤ b → t.readBytes 0 b n = s.readBytes 0 b n) ∧ t.tracker = { s.tracker with cache := [] } ∧
        t = { s with regs := t.regs, mem := { s.mem with hbm := t.mem.hbm, cxl := t.mem.cxl, wrong := t.mem.wrong }, tracker := t.tracker }

/-- The set-up lock: how it is set, what it keeps, what a write against it reports, and that no register write takes it
back -/
def Obligations.SetupLockHolds : Prop :=
  (∀ s : State, s.bar0Answers = true → s.seq ≠ .rescue →
    (s.regs.locked = false → ∃ t, exec (.setupLockSet ⟨0x20, 4, 1⟩) s = .next t ∧ t.regs.locked = true ∧
      (s.selfOut = true → t.regs.cfgReject = true ∧ t.regs.cfgErrOffset = 0x50004 ∧ t.regs.cfgErrCause = 1) ∧
      (s.selfOut = false → t.regs.cfgReject = s.regs.cfgReject) ∧ t.tiles = s.tiles ∧ t.graphs = s.graphs ∧ t.mem.hbm = s.mem.hbm) ∧
    (s.regs.locked = true → exec (.setupLockSet ⟨0x20, 4, 1⟩) s = .next s) ∧
    (∀ n v, s.regs.locked = true → v < 2 ^ 32 → ∀ e ∈ s.rwlWrites n v,
      (e.2.2.1 ≠ e.2.2.2 → ∃ t, exec e.1 s = .next t ∧
        t.regs = { s.regs with lockViolation := true, lockViolOffset := e.2.1 } ∧ t.host.dbBase = s.host.dbBase ∧
        t.host.evtRing = s.host.evtRing ∧ t.host.evtEnable = s.host.evtEnable ∧
        (∀ k m, (t.ring k m).base = (s.ring k m).base ∧ (t.ring k m).ctrl k = (s.ring k m).ctrl k) ∧
        (s.regs.lockViolation = false → t.ledger.events = s.ledger.events ++ [(s.cairn, ⟨0x1004, e.2.1, 0, 0⟩)]) ∧
        (s.regs.lockViolation = true → t.ledger = s.ledger) ∧
        t = { s with regs := t.regs, host := t.host, ledger := { s.ledger with events := t.ledger.events } }) ∧
      (e.2.2.1 = e.2.2.2 → ∃ t, exec e.1 s = .next t ∧
        (∀ k m, t.ring k m = { s.ring k m with irq := (t.ring k m).irq }) ∧
        t = { s with host := { s.host with sq := t.host.sq, cq := t.host.cq, hv := t.host.hv } })) ∧
    ∀ n v, s.regs.locked = true → v < 2 ^ 32 → n < 256 → ∃ t, exec (.ringCtrlWrite ⟨0x11008 + 16 * n, 4, v⟩) s = .next t ∧
      (t.cq n).irq = bit v 27) ∧
  ∀ (s t : State) (w : BarWrite), s.regs.locked = true →
    ∀ c ∈ [Instr.registerWrite w, .setupLockSet w, .ringCtrlWrite w, .dbBaseWrite w, .evtRingWrite w, .streamTableBaseWrite w,
      .bar2BaseWrite w, .retireSlotWrite w, .fzDimsWrite w, .fzSelfWrite w, .fzPortCtrlWrite w, .wake w, .shutdownCtrlGo w,
      .recoveryCtrlGo w, .retrainFilzorPort w, .retrainHbmSliceGroup w, .retrainCxlPort w], exec c s = .next t → t.regs.locked = true

/-- What the writes to ring, event-ring, wake, slot, shutdown, retraining and rescue registers and the reads of CAIRN_NOW
do -/
def Obligations.SetupWrites : Prop :=
  (∀ s : State, s.bar0Answers = true → s.seq ≠ .rescue → s.regs.locked = false →
    (∀ n size q, n < 256 → q < 256 → (s.sq n).enable = false → (s.sq n).base ≠ 0 → (s.cq q).enable = true → size < 32 →
      (6 ≤ size → size ≤ 16 → ∃ t, exec (.ringCtrlWrite ⟨0x10008 + 16 * n, 4, 1 + 2 * size + 2 ^ 8 * q⟩) s = .next t ∧
        t.sq n = { s.sq n with
          enable := true, log2 := size, cq := q, count := 0, other := 0, fetched := 0, reported := [], reserved := 0, lost := 0
          halted := false, dirty := false, saved := 0 } ∧
        (∀ m, m ≠ n → t.sq m = s.sq m) ∧ t = { s with host := { s.host with sq := t.host.sq } }) ∧
      (size < 6 ∨ 16 < size → exec (.ringCtrlWrite ⟨0x10008 + 16 * n, 4, 1 + 2 * size + 2 ^ 8 * q⟩) s = .next { s with
        regs := { s.regs with cfgReject := true, cfgErrOffset := 0x10008 + 16 * n, cfgErrCause := 1 } })) ∧
    (∀ q < 256,
      ((s.cq q).enable = true → ∃ t, exec (.evtRingWrite ⟨0x1300C, 4, q + 2 ^ 8⟩) s = .next t ∧ t.host.evtRing = q ∧
        t.host.evtEnable = true ∧ t = { s with host := t.host, ledger := t.ledger }) ∧
      ((s.cq q).enable = false → exec (.evtRingWrite ⟨0x1300C, 4, q + 2 ^ 8⟩) s = .next { s with
        regs := { s.regs with cfgReject := true, cfgErrOffset := 0x1300C, cfgErrCause := 2 } })) ∧
    ∀ i base r, i < 8 → base < 2 ^ 13 → r = Tab.get RetireSlot.reset s.mem.slots i → r.inUse = false → s.slotMapped base = true →
      s.slotTaken i base = false → s.mem.unplaced = [] → ∃ t, exec (.retireSlotWrite ⟨0x40040 + 4 * i, 4, base + 2 ^ 13⟩) s = .next t ∧
        Tab.get RetireSlot.reset t.mem.slots i = { r with baseGib := base, enable := true } ∧
        (∀ j, j ≠ i → Tab.get RetireSlot.reset t.mem.slots j = Tab.get RetireSlot.reset s.mem.slots j) ∧
        t = { s with mem := { s.mem with slots := t.mem.slots } }) ∧
  (∀ s : State, s.bar0Answers = true → s.seq ≠ .rescue →
    (∀ v, exec (.wake ⟨0x13008, 4, v⟩) s = .next { s with host := { s.host with wake := true, lastFetch := some s.cairn } }) ∧
    exec .cairnLowRead s =
      .next { s with rd := s.cairn % 2 ^ 32, regs := { s.regs with cairnLatch := some (s.cairn / 2 ^ 32) } } ∧
    exec .cairnHighRead s = .next { s with
      rd := s.regs.cairnLatch.getD (s.cairn / 2 ^ 32), regs := { s.regs with cairnLatch := none } } ∧
    (∀ budget < 2 ^ 12, s.seq = .idle → s.shutdown.busy = false → s.graphIds ≠ [] →
      ∃ t, exec (.shutdownCtrlGo ⟨0x20020, 4, 1 + 4 * budget⟩) s = .next t ∧ t.shutdown.busy = true ∧ t.shutdown.done = false ∧
        t.shutdown.forceUnload = false ∧ t.shutdown.budgetS = budget ∧ t.graphs = s.graphs ∧ t.tiles = s.tiles ∧ t.mem = s.mem) ∧
    ∀ c kind u w, w = (⟨0x60018, 4, 2 ^ 31 + 16 * u + kind⟩ : BarWrite) → u < 256 →
      (c = .retrainFilzorPort w ∧ kind = 1 ∨ c = .retrainHbmSliceGroup w ∧ kind = 2 ∨ c = .retrainCxlPort w ∧ kind = 3) →
      (s.retrainable kind u = false →
        exec c s = .next { s with regs := { s.regs with retrainKind := kind, retrainUnit := u } }) ∧
      (s.retrainable kind u = true → (kind = 1 → (s.port u).part ≠ 3 ∧ (s.port u).score + 64 < 49152) →
        ∃ t, exec c s = .next t ∧ t.fw.retraining = some (kind, u) ∧ (kind = 1 → (t.port u).state = .retrain) ∧
          t.regs = { s.regs with retrainKind := kind, retrainUnit := u } ∧ t.mem = s.mem ∧ t.tiles = s.tiles ∧ t.graphs = s.graphs ∧
          (kind ≠ 1 → t = { s with regs := t.regs, fw := t.fw }))) ∧
  (∀ (s : State) (kind u outcome : Nat), s.inService = true → s.fw.retraining = some (kind, u) → kind ≠ 1 → outcome < 3 →
    (kind ≠ 2 ∨ outcome ≠ 2 → exec (.retrainComplete outcome) s =
      .next (State.raise 0x1805 0 (kind * 256 + u) outcome { s with fw := { s.fw with retraining := none } })) ∧
    (kind = 2 → outcome = 2 → ∃ t, exec (.retrainComplete outcome) s = .next t ∧ t.fw.retraining = none ∧
      (∀ i < 4, (t.slice (u * 4 + i)).state = .lost) ∧ (s.cairn, ⟨0x1805, 0, kind * 256 + u, 2⟩) ∈ t.ledger.events ∧
      t.mem.hbm = s.mem.hbm)) ∧
  ∀ s : State, s.bar0Answers = true → s.seq = .rescue →
    (∀ block < 4096, s.fw.rescueOwner ≠ 2 →
      (∃ t, exec (.rescueCtrlWrite ⟨0x60020, 4, block + 2 ^ 12⟩ true) s = .next t ∧
        Tab.get [] t.fw.rescueBlocks block = s.fw.rescueBuf ∧
        (∀ i, i ≠ block → Tab.get [] t.fw.rescueBlocks i = Tab.get [] s.fw.rescueBlocks i) ∧ t.fw.rescueOwner = 1 ∧
        t.fw.rescueBlock = block ∧ t = { s with fw := t.fw }) ∧
      exec (.rescueCtrlWrite ⟨0x60020, 4, block + 2 ^ 12⟩ false) s = .next { s with
        fw := { s.fw with rescueBlock := block, rescueCount := 0, rescueResult := 3 } }) ∧
    (∀ count < 4096, s.fw.rescueOwner ≠ 2 →
      (s.rescueImage (count + 1) = none → ∀ ok, exec (.rescueCtrlCommit ⟨0x60020, 4, 2 ^ 13 + 2 ^ 16 * count⟩ ok) s =
        .next { s with fw := { s.fw with rescueBlock := 0, rescueCount := count, rescueResult := 2, rescueOwner := 0 } }) ∧
      ∀ img, s.rescueImage (count + 1) = some img → s.fuses.imageFaultOf img = none →
        ∃ t, exec (.rescueCtrlCommit ⟨0x60020, 4, 2 ^ 13 + 2 ^ 16 * count⟩ true) s = .next t ∧ t.seq = .start 1 ∧
          t.ledger.image = img ∧ t.ledger.startCount = s.ledger.startCount + 1 ∧ t.mem = .reset ∧ t.pending = s.pending) ∧
    ∀ v ok, v < 2 ^ 32 → s.fw.rescueOwner = 2 →
      (bit v 12 = true → exec (.rescueCtrlWrite ⟨0x60020, 4, v⟩ ok) s = .next s) ∧
      (bit v 13 = true → exec (.rescueCtrlCommit ⟨0x60020, 4, v⟩ ok) s = .next s)

/-- FZ_DIMS out of range is refused, and FZ_SELF is in use exactly while it lies within FZ_DIMS; a port follows ENABLE -/
def Obligations.FabricRegisters : Prop :=
  ∀ s : State, s.bar0Answers = true → s.seq ≠ .rescue →
    (∀ v, s.regs.locked = false → v < 2 ^ 32 →
      (dimsOk (v % 2 ^ 17) = false → exec (.fzDimsWrite ⟨0x50000, 4, v⟩) s = .next { s with
        regs := { s.regs with cfgReject := true, cfgErrOffset := 0x50000, cfgErrCause := 1 } }) ∧
      (dimsOk (v % 2 ^ 17) = true → ∃ t, exec (.fzDimsWrite ⟨0x50000, 4, v⟩) s = .next t ∧ t.fabric.dims = v % 2 ^ 17 ∧
        (s.fabric.sideband = none → t.placed = (bit s.fabric.self 14 && idIn (v % 2 ^ 17) (s.fabric.self % 2 ^ 14)) ∧
          (t.placed = true → t.fabric.id = s.fabric.self % 2 ^ 14) ∧ (t.placed = false → t.fabric.id = 0)) ∧
        (∀ p < 6, portDim (v % 2 ^ 17) p = 1 → (t.port p).state = .disabled) ∧
        t = { s with fabric := t.fabric, ledger := t.ledger, host := t.host, power := t.power }) ∧
      ∃ t, exec (.fzSelfWrite ⟨0x50004, 4, v⟩) s = .next t ∧ t.fabric.self = v % 2 ^ 15 ∧ t.fabric.dims = s.fabric.dims ∧
        (s.fabric.sideband = none → t.placed = (bit v 14 && idIn s.fabric.dims (v % 2 ^ 14)) ∧
          (t.placed = true → t.fabric.id = v % 2 ^ 14) ∧ (t.placed = false → t.fabric.id = 0)) ∧
        (∀ m, s.fabric.sideband = some m → t.fabric.id = m ∧ (bit v 14 = true → v % 2 ^ 14 ≠ m →
          (s.cairn, ⟨0x1502, 0, m, v % 2 ^ 14⟩) ∈ t.ledger.events)) ∧
        t = { s with fabric := t.fabric, ledger := t.ledger, host := t.host }) ∧
    (s.regs.locked = false → s.selfOut = true → ∃ t, exec (.setupLockSet ⟨0x20, 4, 1⟩) s = .next t ∧ t.regs.locked = true ∧
      t.regs.cfgReject = true ∧ t.regs.cfgErrCause = 1 ∧ (s.fabric.sideband = none → t.placed = false ∧ t.fabric.id = 0)) ∧
    ∀ p v, p < 6 → v < 2 ^ 32 → ∃ t, exec (.fzPortCtrlWrite ⟨0x50100 + 64 * p, 4, v⟩) s = .next t ∧ (t.port p).enable = bit v 0 ∧
      (bit v 0 = false → (t.port p).state = .disabled ∧ (t.port p).input = [] ∧ (t.port p).output = [] ∧ (t.port p).replay = []) ∧
      (bit v 0 = true → ∀ trains, trains = decide ((s.port p).state = .disabled ∧ (s.port p).part ≠ 3 ∧ 1 < portDim s.fabric.dims p ∧
          679 + p ∉ s.power.lost) →
        (t.port p).state = (if trains = true ∧ Tab.get false s.power.domOff (679 + p) = false then .detect else (s.port p).state) ∧
        (trains = true → Tab.get false s.power.domOff (679 + p) = true → t.hasStaging (679 + p) true = true) ∧
        (trains = false → t.power = s.power)) ∧
      (∀ q, q ≠ p → t.port q = s.port q) ∧
      t = { s with fabric := { s.fabric with ports := t.fabric.ports }, ledger := t.ledger, host := t.host, power := t.power }

/-- How a session of the monitor begins, what is asked and refused on the way, and everything that ends it -/
def Obligations.MonitorSessions : Prop :=
  (∀ (s : State) (rom : Bool), s.program = some rom → s.monitor.testing = none →
    (s.fuses.keyed = true → s.lockedOut = false → ∃ t, exec .challenge s = .next t ∧ t.monitor.nonce = some s.monitor.nonces ∧
      t.monitor.nonces = s.monitor.nonces + 1 ∧ t.monitor.lockout = none ∧ t.monitor.unlocked = s.monitor.unlocked ∧
      s.answers t rom [.value "nonce" (byteVals (sliceB (Config.nonce s.monitor.nonces) 0 32)),
        .value "device_id" (byteVals s.fuses.deviceId), .ok] ∧ t = { s with monitor := t.monitor }) ∧
    (s.fuses.keyed = true → s.lockedOut = true → ∃ t, exec .challenge s = .next t ∧ s.answers t rom [.err 6] ∧
      t.monitor.nonce = s.monitor.nonce ∧ t = { s with monitor := t.monitor }) ∧
    (∀ slot pub sig, pub.length = 32 → sig.length = 64 → s.fuses.keyed = true → slot < 4 →
      (s.unlocks slot pub sig = true → ∃ t, exec (.unlock slot pub sig) s = .next t ∧ t.monitor.unlocked = true ∧
        t.monitor.nonce = none ∧ t.monitor.failures = 0 ∧ s.answers t rom [.ok] ∧ t = { s with monitor := t.monitor }) ∧
      (s.unlocks slot pub sig = false → ∃ t, exec (.unlock slot pub sig) s = .next t ∧ t.monitor.unlocked = s.monitor.unlocked ∧
        t.monitor.nonce = none ∧ s.answers t rom [.err 7] ∧
        (2 ≤ s.monitor.failures → t.monitor.lockout = some (s.cairn + 60000000000) ∧ t.monitor.failures = 0) ∧
        (s.monitor.failures < 2 → t.monitor.lockout = s.monitor.lockout ∧ t.monitor.failures = s.monitor.failures + 1) ∧
        t = { s with monitor := t.monitor })) ∧
    (∃ t, exec .lock s = .next t ∧ t.monitor = { s.monitor with
        unlocked := false, lastLine := s.cairn, out := s.monitor.out ++ [.ok, .prompt rom] } ∧ t = { s with monitor := t.monitor })) ∧
  (∀ s : State, s.hotSwap.switchOn = true →
    (∃ t, exec .uartBreak s = .next t ∧ t.monitor.unlocked = false ∧ t.monitor.baud = 115200 ∧
      (∀ rom, s.program = some rom → s.answers t rom []) ∧ t.monitor.nonce = s.monitor.nonce ∧ t = { s with monitor := t.monitor }) ∧
    (s.monitor.unlocked = true → s.cairnOn = true → ∃ t, exec .sessionTimeout s = .next t ∧
      t.monitor = { s.monitor with unlocked := false } ∧ t.cairn = cairnMax s.cairn (roundUp (s.monitor.lastLine + 900000000000) 4) ∧
      t = { s with monitor := t.monitor, cairn := t.cairn }) ∧
    (∀ x, s.monitor.lockout = some x → s.cairnOn = true → ∃ t, exec .unlockLockoutExpiry s = .next t ∧
      t.monitor = { s.monitor with lockout := none } ∧ t.cairn = cairnMax s.cairn (roundUp x 4) ∧
      t = { s with monitor := t.monitor, cairn := t.cairn }) ∧
    (∀ c, (c = .functionLevelReset ∨ c = .hotReset ∨ c = .d3hotToD0 ∨ c = .perstNAssert) → s.host.linkUp = true →
      ∃ t, exec c s = .next t ∧ t.monitor.unlocked = false) ∧
    (∀ v, s.bar0Answers = true → s.seq = .idle → s.devState ≠ .failed → v < 2 ^ 32 → bit v 0 = true →
      ∃ t, exec (.recoveryCtrlGo ⟨0x60000, 4, v⟩) s = .next t ∧ t.monitor.unlocked = false) ∧
    ∃ t, exec .moduleRemoval s = .next t ∧ t.monitor.unlocked = false) ∧
  (∀ (s : State) (mv : Nat), s.hotSwap.switchOn = false → s.hotSwap.pwrDis = false → s.hotSwap.powerOff = false → 44000 ≤ mv →
    mv ≤ 57000 → ∃ t, exec (.inputSwitchClose mv) s = .next t ∧ t.monitor.unlocked = false) ∧
  ∀ (s : State) (d : Nat) (x : Desc) (b : List Byte), s.starts d 0x71 (fun d => ⟨1, 0, [(16, 16)], d.get 24 8 == 128⟩) x →
    b.length = 128 → s.dma = true → s.tokenFault b = none → tKind b = 1 →
    ∃ t, exec (.lifecycle d (.data b) true) s = .next t ∧ t.monitor.unlocked = false

/-- What each command of the monitor answers and changes -/
def Obligations.MonitorCommands : Prop :=
  (∀ (s : State) (rom : Bool), s.program = some rom →
    (s.monitor.testing = none →
      (∃ t, exec .help s = .next t ∧ s.answers t rom ((s.permitted rom).map (fun c => .value ("cmd " ++ c) []) ++ [.ok]) ∧
        t = { s with monitor := { s.monitor with lastLine := s.cairn, out := t.monitor.out } }) ∧
      (∃ t, exec .info s = .next t ∧ s.answers t rom [.value "serial" [Config.serial],
          .value "device_id" (byteVals s.fuses.deviceId), .value "build_id" [mBuild s.manifest],
          .value "secver" [s.securityVersion], .value "stepping" [Config.stepping], .value "lc_state" [s.fuses.lcState], .ok] ∧
        t = { s with monitor := { s.monitor with lastLine := s.cairn, out := t.monitor.out } }) ∧
      (∀ rate, ∃ t, exec (.baud rate) s = .next t ∧
        (rate ∈ [115200, 230400, 460800, 921600, 1000000, 2000000, 3000000] → t.monitor.baud = rate ∧ s.answers t rom [.ok]) ∧
        (rate ∉ [115200, 230400, 460800, 921600, 1000000, 2000000, 3000000] →
          t.monitor.baud = s.monitor.baud ∧ s.answers t rom [.err 5]) ∧ t = { s with monitor := t.monitor })) ∧
    (∀ n, 0 < n → n ≤ 256 → ∃ t, exec (.log n) s = .next t ∧
      s.answers t rom ((s.ledger.events.drop (s.ledger.events.length - n)).map eventLine ++ [.ok]) ∧
      t = { s with monitor := { s.monitor with lastLine := s.cairn, out := t.monitor.out } }) ∧
    ∀ why, ∃ t, exec (.unknownCommand why) s = .next t ∧ s.answers t rom [.err (if why = .unknown then 2 else 1)] ∧
      t = { s with monitor := { s.monitor with lastLine := s.cairn, out := t.monitor.out } }) ∧
  (∀ s : State, s.program = some false →
    (∃ t, exec .state s = .next t ∧ s.answers t false [.value "dev_state" [s.devState.code], .value "usable_tiles" [s.usableTiles],
        .value "set_mhz" [s.power.setMhz], .value "input_w" [s.power.inputW], .value "compute_c" [s.power.computeTemp],
        .value "time_locked" [b2n (s.fabric.lock == .locked)], .value "recoveries" [s.recoveries], .ok] ∧
      t = { s with monitor := { s.monitor with lastLine := s.cairn, out := t.monitor.out } }) ∧
    (s.monitor.testing = none →
      (∃ t, exec .defects s = .next t ∧ s.answers t false ((s.ledger.defects.zipIdx.map fun d => defectLine d.2 d.1) ++ [.ok]) ∧
        t = { s with monitor := { s.monitor with lastLine := s.cairn, out := t.monitor.out } }) ∧
      (∀ idx n, idx < s.ledger.results.length → 0 < n → ∃ t, exec (.result idx n) s = .next t ∧
        s.answers t false (((s.ledger.results.reverse.drop idx).take n).map (·.line) ++ [.ok]) ∧
        t = { s with monitor := { s.monitor with lastLine := s.cairn, out := t.monitor.out } }) ∧
      (∀ kind u, (s.fuses.lcState = 1 ∨ s.fuses.lcState = 4) → 1 ≤ kind → kind ≤ 5 → u < sliceUnits kind →
        (s.monitor.unlocked = false → ∃ t, exec (.test kind u) s = .next t ∧ s.answers t false [.err 3] ∧
          t = { s with monitor := { s.monitor with lastLine := s.cairn, out := t.monitor.out } }) ∧
        (s.monitor.unlocked = true → s.shutdown.busy = false → s.inService = true →
          (s.sliceFree kind u = true → ∃ t, exec (.test kind u) s = .next t ∧ t.monitor.testing = some (kind, u) ∧
            t.monitor.out = s.monitor.out ∧ (kind ≤ 3 → ∀ i < 16, (t.tile (u * 16 + i)).use = .onDemand) ∧
            (∀ v, v / 16 ≠ u → t.tile v = s.tile v) ∧ t.mem = { s.mem with stagingDone := t.mem.stagingDone }) ∧
          (s.sliceFree kind u = false → s.ledger.results.length < 16384 → ∃ t x, exec (.test kind u) s = .next t ∧
            t.ledger = { s.ledger with results := s.ledger.results ++ [x] } ∧ x.outcome = 3 ∧ x.slice = kind ∧ x.unit_ = u ∧
            x.source = 2 ∧ s.answers t false [x.line, .ok] ∧ t = { s with monitor := t.monitor, ledger := t.ledger }))) ∧
      (∀ kind u, s.fuses.lcState ≠ 1 → s.fuses.lcState ≠ 4 → ∃ t, exec (.test kind u) s = .next t ∧ s.answers t false [.err 4] ∧
        t = { s with monitor := { s.monitor with lastLine := s.cairn, out := t.monitor.out } }) ∧
      (∀ idx e, (s.fuses.lcState = 1 ∨ s.fuses.lcState = 4) → s.monitor.unlocked = true → s.ledger.defects[idx]? = some e →
        (s.clearable e = true → ∃ t, exec (.defectClear idx) s = .next t ∧ s.answers t false [defectLine idx e, .ok] ∧
          t.ledger = { s.ledger with defects := s.ledger.defects.eraseIdx idx } ∧ t.fuses = s.fuses ∧ t.mem = s.mem ∧
          t.graphs = s.graphs) ∧
        (s.clearable e = false → ∃ t, exec (.defectClear idx) s = .next t ∧ s.answers t false [.err 5] ∧
          t = { s with monitor := { s.monitor with lastLine := s.cairn, out := t.monitor.out } })) ∧
      (s.fuses.lcState = 1 → s.monitor.unlocked = true →
        (∃ t, exec .resultErase s = .next t ∧ s.answers t false [.value "erased" [s.ledger.results.length], .ok] ∧
          t = { s with monitor := t.monitor, ledger := { s.ledger with results := [] } }) ∧
        ∀ kind id, id < fuseUnits kind → ∃ t, exec (.fuse kind id true) s = .next t ∧
          s.answers t false [.value "fuse" [kind, id], .ok] ∧ (kind, id) ∈ t.fuses.bad ∧ (∀ p ∈ s.fuses.bad, p ∈ t.fuses.bad) ∧
          t = { s with
            monitor := t.monitor, fuses := { s.fuses with bad := t.fuses.bad }, devState := t.devState, mgmt := t.mgmt
            hotSwap := t.hotSwap, ledger := t.ledger, host := t.host }))) ∧
  ∀ s : State, s.program = some true → s.monitor.testing = none →
    (∀ blocks, 0 < blocks → blocks ≤ 4096 → s.fw.rescueOwner ≠ 1 → ∃ t, exec (.rescue blocks) s = .next t ∧
      s.answers t true [.ok] ∧ t = { s with monitor := t.monitor, fw := { s.fw with rescueOpen := some blocks } }) ∧
    (∀ n idx crc data, s.fw.rescueOpen = some n → s.fw.rescueOwner ≠ 1 → idx < n → data.length = 4096 →
      (crc32c data = crc → ∃ t, exec (.block idx crc data true) s = .next t ∧ s.answers t true [.ok] ∧ t.fw.rescueOwner = 2 ∧
        Tab.get [] t.fw.rescueBlocks idx = data ∧
        (∀ i, i ≠ idx → Tab.get [] t.fw.rescueBlocks i = Tab.get [] s.fw.rescueBlocks i) ∧
        t = { s with monitor := t.monitor, fw := t.fw }) ∧
      (crc32c data ≠ crc → ∃ t, exec (.block idx crc data true) s = .next t ∧ s.answers t true [.err 8] ∧
        t = { s with monitor := t.monitor })) ∧
    (∀ n img, s.fw.rescueOpen = some n → s.rescueImage n = some img →
      (s.fuses.imageFaultOf img = none → ∃ t, exec (.commit true) s = .next t ∧ t.seq = .start 1 ∧ t.ledger.image = img ∧
        t.monitor.out = s.monitor.out ++ [.value "result" [1], .ok] ∧ t.pending = s.pending) ∧
      (s.fuses.imageFaultOf img ≠ none → ∃ t, exec (.commit true) s = .next t ∧
        s.answers t true [.value "result" [2], .err 7] ∧ t.fw = { s.fw with rescueResult := 2, rescueOwner := 0 } ∧
        t = { s with monitor := t.monitor, fw := t.fw })) ∧
    exec .rescueOwnershipTimeout s = .next { s with fw := { s.fw with rescueOwner := 0 } }

/-- A LIFECYCLE token is checked, refused with the first failure, or takes effect, and ATTEST writes the signed report -/
def Obligations.IdentityRows : Prop :=
  (∀ (s : State) (d : Nat) (x : Desc) (b : List Byte), s.starts d 0x71 (fun d => ⟨1, 0, [(16, 16)], d.get 24 8 == 128⟩) x →
    b.length = 128 → s.dma = true →
    (s.fuses.tokenGenuine b = false → s.tokenFault b = some 0x0701) ∧
    (∀ e ok, s.tokenFault b = some e → exec (.lifecycle d (.data b) ok) s = .next (s.complete x 0x32 e 0)) ∧
    (s.tokenFault b = none →
      (tKind b = 1 → ∃ u : State, exec (.lifecycle d (.data b) true) s = .next (u.complete x stOk 0 u.fuses.newState) ∧
        (tTo b ≠ 5 → s.fuses.lcState < 3 → u.fuses = { s.fuses with level := s.fuses.level + 1, used := s.fuses.used ++ [b] }) ∧
        (tTo b ≠ 5 → 3 ≤ s.fuses.lcState → u.fuses = { s.fuses with service := s.fuses.service + 1, used := s.fuses.used ++ [b] }) ∧
        (tTo b = 5 → u.fuses = { s.fuses with blown := true, used := s.fuses.used ++ [b] } ∧ u.ledger.image = s.ledger.image ∧
          u.ledger.defects = s.ledger.defects ∧ u.ledger.results = s.ledger.results ∧ u.ledger.events = []) ∧
        (tTo b ≠ 5 → u.ledger = s.ledger) ∧
        u = { s with fuses := u.fuses, ledger := u.ledger, monitor := { s.monitor with unlocked := false } }) ∧
      (tKind b = 2 → ∃ u : State, exec (.lifecycle d (.data b) true) s = .next (u.complete x stOk 0 u.fuses.newState) ∧
        (∀ i < 4, bit (tRevoke b) i = true → bit u.fuses.fwRevoked i = true) ∧
        (∀ i < 4, bit (tRevoke b) (4 + i) = true → bit u.fuses.lcRevoked i = true) ∧
        u = { s with fuses := { s.fuses with fwRevoked := u.fuses.fwRevoked, lcRevoked := u.fuses.lcRevoked, used := s.fuses.used ++ [b] } }) ∧
      ∃ u : State, exec (.lifecycle d (.data b) false) s = .next (u.complete x 0x23 0x0706 0)) ∧
    (b ∈ s.fuses.used → s.fuses.tokenGenuine b = true → sliceB b 8 16 = s.fuses.deviceId → s.tokenFault b = some 0x0703) ∧
    ∀ ok e y, exec (.lifecycle d (.failed e y) ok) s = .next ((s.noteAer e).complete x 0x23 0x0401 0)) ∧
  ∀ (s : State) (d : Nat) (x : Desc) (n r : List Byte),
    s.starts d 0x72 (fun d => ⟨1, 0, [(16, 44)], d.get 48 8 % 64 == 0 && 1536 ≤ d.get 56 4⟩) x → n = sliceB x.bytes 16 32 →
    r = s.report n →
    (s.fuses.keyed = true → exec (.attest d) s = .next ((s.hostWrite (x.get 48 8) r).complete x stOk 0 r.length) ∧
      (n.length = 32 → sliceB r 8 32 = n) ∧ r = s.reportBody n ++ edSign deviceSeed (sha512 (s.reportBody n))) ∧
    (s.fuses.keyed = false → exec (.attest d) s = .next (s.complete x 0x32 0x0108 0))

/-- MXINT8 elements and their clamp, XL4 elements, and XM40's high word as the truncated FP32 value -/
def Obligations.NarrowElements : Prop :=
  (∀ raw sc : Nat, raw < 256 → sc < 255 →
    (scaled (decodeElem .mxint raw) sc).rat = (signed 8 raw : ℚ) * (2 : ℚ) ^ (-6 : Int) * (2 : ℚ) ^ ((sc : Int) - 127)) ∧
  (∀ (md : Mode) (v : Val) (largest : Nat × Int) (sc : Nat), encodeMxint md v < 256 ∧ encodeMxint md v ≠ 0x80 ∧
    encodeBlocked .mxint md largest sc v < 256 ∧ encodeBlocked .mxint md largest sc v ≠ 0x80) ∧
  (∀ (md : Mode) (p : Bool) (m : Nat) (e : Int), (127 : ℚ) / 64 ≤ (m : ℚ) * (2 : ℚ) ^ e →
    signed 8 (encodeMxint md (.fin p m e)) = if p then -127 else 127) ∧
  (∀ c : Nat, c < 2 ^ 40 → decodeFloat xm40L c ≠ .nan →
    (∀ p, decodeFloat xm40L c = .inf p → decodeFloat fp32L (c / 256) = .inf p) ∧
    ∀ p m e, decodeFloat xm40L c = .fin p m e → ∃ n f, decodeFloat fp32L (c / 256) = .fin p n f ∧
      |Val.rat (.fin p n f)| ≤ |Val.rat (.fin p m e)| ∧
      ∀ raw r o g, decodeFloat fp32L raw = .fin r o g → |Val.rat (.fin r o g)| ≤ |Val.rat (.fin p m e)| →
        |Val.rat (.fin r o g)| ≤ |Val.rat (.fin p n f)|) ∧
  (∀ rs : List Nat, rs.length = 64 → (packRow xm40 rs).take 256 = rs.flatMap fun r => toLe 4 (r / 256)) ∧
  (∀ (md : Mode) (sat : Bool), encodeFloat xm40L md sat false .nan = ⟨0x7FC0000000, 0, 0⟩ ∧ 0x7FC0000000 / 256 = 0x7FC00000) ∧
  (∀ (k : Nat) (p : Bool), k < 7 → (decodeElem .xl4 (k + 8 * b2n p)).rat =
    (if p then -1 else 1) * (if k % 2 = 1 then (0xB504F3 : ℚ) / 2 ^ 23 else 1) / 2 ^ ((k + 1) / 2)) ∧
  ∀ p : Bool, decodeElem .xl4 (7 + 8 * b2n p) = .zero
end

