-- ==== Sys2Proof/Laws/Tab.lean ====
section
/-! SUPPORT. Sparse tables: reads after writes, and the canonical form. -/

namespace Sys2Proof.Machine

variable {α : Type} {d v : α} {m : Tab α} {k j : Nat}

theorem Tab.get_ins (h : ∀ e ∈ m, e.1 ≠ k) : Tab.get d (Tab.ins k v m) j = if j = k then v else Tab.get d m j := by
  induction m with
  | nil => simp [Tab.ins, Tab.get, eq_comm]
  | cons e m ih =>
    have hk : e.1 ≠ k := h e (List.mem_cons_self ..)
    have ih := ih fun x hx => h x (List.mem_cons_of_mem _ hx)
    unfold Tab.ins
    split
    · by_cases hj : j = k
      · simp [Tab.get, hj]
      · simp [Tab.get, hj, Ne.symm hj]
    · simp only [Tab.get, ih]
      by_cases hj : j = k
      · subst hj; simp [hk]
      · simp [hj]

theorem Tab.mem_erase {e : Nat × α} : e ∈ Tab.erase k m ↔ e ∈ m ∧ e.1 ≠ k := by
  induction m with
  | nil => simp [Tab.erase]
  | cons x m ih =>
    unfold Tab.erase
    split
    · rename_i hx
      rw [ih, List.mem_cons]
      constructor
      · rintro ⟨h, hk⟩; exact ⟨.inr h, hk⟩
      · rintro ⟨rfl | h, hk⟩
        · exact absurd hx hk
        · exact ⟨h, hk⟩
    · rename_i hx
      rw [List.mem_cons, ih, List.mem_cons]
      constructor
      · rintro (rfl | ⟨h, hk⟩)
        · exact ⟨.inl rfl, hx⟩
        · exact ⟨.inr h, hk⟩
      · rintro ⟨rfl | h, hk⟩
        · exact .inl rfl
        · exact .inr ⟨h, hk⟩

theorem Tab.get_erase : Tab.get d (Tab.erase k m) j = if j = k then d else Tab.get d m j := by
  induction m with
  | nil => simp [Tab.erase, Tab.get]
  | cons e m ih =>
    unfold Tab.erase
    split
    · rename_i h
      rw [ih]
      by_cases hj : j = k
      · simp [hj]
      · simp [hj, Tab.get, h, Ne.symm hj]
    · rename_i h
      simp only [Tab.get, ih]
      by_cases hj : j = k
      · subst hj; simp [h]
      · simp [hj]

/-- A read after a write: the value written at its key, and every other key as before. -/
theorem Tab.get_put [DecidableEq α] : Tab.get d (Tab.put d k v m) j = if j = k then v else Tab.get d m j := by
  unfold Tab.put
  split
  · rename_i h; rw [Tab.get_erase, h]
  · rw [Tab.get_ins fun e he => (Tab.mem_erase.1 he).2, Tab.get_erase]
    by_cases hj : j = k <;> simp [hj]

@[simp] theorem Tab.get_put_same [DecidableEq α] : Tab.get d (Tab.put d k v m) k = v := by simp [Tab.get_put]

theorem Tab.get_put_other [DecidableEq α] (h : j ≠ k) : Tab.get d (Tab.put d k v m) j = Tab.get d m j := by
  simp [Tab.get_put, h]

theorem Tab.get_upd [DecidableEq α] {f : α → α} :
    Tab.get d (Tab.upd d k f m) j = if j = k then f (Tab.get d m k) else Tab.get d m j := Tab.get_put

@[simp] theorem Tab.get_upd_same [DecidableEq α] {f : α → α} : Tab.get d (Tab.upd d k f m) k = f (Tab.get d m k) := by
  simp [Tab.get_upd]

@[simp] theorem Tab.get_nil : Tab.get d ([] : Tab α) k = d := rfl

/-! ### The canonical form -/

theorem Tab.pairwise_erase (h : m.Pairwise fun a b => a.1 < b.1) : (Tab.erase k m).Pairwise fun a b => a.1 < b.1 := by
  induction m with
  | nil => exact List.Pairwise.nil
  | cons e m ih =>
    have hm := List.pairwise_cons.1 h
    unfold Tab.erase
    split
    · exact ih hm.2
    · exact List.pairwise_cons.2 ⟨fun x hx => hm.1 x (Tab.mem_erase.1 hx).1, ih hm.2⟩

theorem Tab.mem_ins {e : Nat × α} : e ∈ Tab.ins k v m ↔ e = (k, v) ∨ e ∈ m := by
  induction m with
  | nil => simp [Tab.ins]
  | cons x m ih =>
    unfold Tab.ins
    split
    · simp
    · simp only [List.mem_cons, ih]; tauto

theorem Tab.pairwise_ins (h : m.Pairwise fun a b => a.1 < b.1) (hk : ∀ e ∈ m, e.1 ≠ k) :
    (Tab.ins k v m).Pairwise fun a b => a.1 < b.1 := by
  induction m with
  | nil => simp [Tab.ins]
  | cons e m ih =>
    have hm := List.pairwise_cons.1 h
    unfold Tab.ins
    split
    · rename_i hlt
      refine List.pairwise_cons.2 ⟨fun x hx => ?_, h⟩
      rcases List.mem_cons.1 hx with rfl | hx
      · exact hlt
      · exact hlt.trans (hm.1 x hx)
    · rename_i hlt
      refine List.pairwise_cons.2 ⟨fun x hx => ?_, ih hm.2 fun x hx => hk x (List.mem_cons_of_mem _ hx)⟩
      rcases Tab.mem_ins.1 hx with rfl | hx
      · have := hk e (List.mem_cons_self ..)
        simp only at hlt ⊢
        omega
      · exact hm.1 x hx

/-- The canonical form says: keys strictly rising, and no entry equal to what an unlisted key reads as. -/
theorem Tab.wf_iff [DecidableEq α] :
    Tab.wf d m = true ↔ m.Pairwise (fun a b => a.1 < b.1) ∧ ∀ e ∈ m, e.2 ≠ d := by
  have key : ∀ (m : Tab α) (lo : Option Nat), Tab.wfFrom d lo m = true ↔
      (∀ l, lo = some l → ∀ e ∈ m, l < e.1) ∧ m.Pairwise (fun a b => a.1 < b.1) ∧ ∀ e ∈ m, e.2 ≠ d := by
    intro m
    induction m with
    | nil => intro lo; simp [Tab.wfFrom]
    | cons e m ih =>
      intro lo
      simp only [Tab.wfFrom, Bool.and_eq_true, ih, decide_eq_true_eq, Option.some.injEq, List.pairwise_cons, List.mem_cons]
      constructor
      · rintro ⟨⟨h1, h2⟩, h3, h4, h5⟩
        refine ⟨?_, ⟨fun a ha => h3 _ rfl a ha, h4⟩, ?_⟩
        · rintro l rfl x (rfl | hx)
          · exact of_decide_eq_true h1
          · exact (of_decide_eq_true h1).trans (h3 _ rfl x hx)
        · rintro x (rfl | hx)
          · exact h2
          · exact h5 x hx
      · rintro ⟨h1, ⟨h2, h3⟩, h4⟩
        refine ⟨⟨?_, h4 e (.inl rfl)⟩, ?_, h3, fun x hx => h4 x (.inr hx)⟩
        · cases lo with
          | none => rfl
          | some l => exact decide_eq_true (h1 l rfl e (.inl rfl))
        · rintro l rfl x hx
          exact h2 x hx
  simpa [Tab.wf] using key m none

theorem Tab.wf_nil [DecidableEq α] : Tab.wf d ([] : Tab α) = true := rfl

/-- A write keeps the canonical form. -/
theorem Tab.wf_put [DecidableEq α] (h : Tab.wf d m = true) : Tab.wf d (Tab.put d k v m) = true := by
  rw [Tab.wf_iff] at h ⊢
  unfold Tab.put
  have h1 := Tab.pairwise_erase (k := k) h.1
  split
  · exact ⟨h1, fun e he => h.2 e (Tab.mem_erase.1 he).1⟩
  · rename_i hv
    refine ⟨Tab.pairwise_ins h1 fun e he => (Tab.mem_erase.1 he).2, fun e he => ?_⟩
    rcases Tab.mem_ins.1 he with rfl | he
    · exact hv
    · exact h.2 e (Tab.mem_erase.1 he).1

theorem Tab.wf_upd [DecidableEq α] {f : α → α} (h : Tab.wf d m = true) : Tab.wf d (Tab.upd d k f m) = true := Tab.wf_put h

theorem Tab.wf_putAll [DecidableEq α] {vs : List α} (h : Tab.wf d m = true) : Tab.wf d (Tab.putAll d k vs m) = true := by
  induction vs generalizing k m with
  | nil => exact h
  | cons v vs ih => exact ih (Tab.wf_put h)

theorem Tab.wf_filter [DecidableEq α] {p : Nat × α → Bool} (h : Tab.wf d m = true) : Tab.wf d (m.filter p) = true := by
  rw [Tab.wf_iff] at h ⊢
  exact ⟨h.1.filter p, fun e he => h.2 e (List.mem_of_mem_filter he)⟩

theorem Tab.wf_clear [DecidableEq α] {lo n : Nat} (h : Tab.wf d m = true) : Tab.wf d (Tab.clear lo n m) = true :=
  Tab.wf_filter h

/-- A run of writes leaves every key outside it as before. -/
theorem Tab.get_putAll_other [DecidableEq α] {vs : List α} (h : j < k ∨ k + vs.length ≤ j) :
    Tab.get d (Tab.putAll d k vs m) j = Tab.get d m j := by
  induction vs generalizing k m with
  | nil => rfl
  | cons v vs ih =>
    simp only [List.length_cons] at h
    rw [Tab.putAll, ih (by omega), Tab.get_put_other (by omega)]

/-- A run of writes puts its values at its keys. -/
theorem Tab.get_putAll [DecidableEq α] {vs : List α} {i : Nat} (h : i < vs.length) :
    Tab.get d (Tab.putAll d k vs m) (k + i) = vs[i] := by
  induction vs generalizing k m i with
  | nil => simp at h
  | cons v vs ih =>
    cases i with
    | zero => rw [Tab.putAll, Tab.get_putAll_other (by omega)]; simp
    | succ i =>
      have := ih (k := k + 1) (m := Tab.put d k v m) (i := i) (by simpa using h)
      simpa [Tab.putAll, Nat.add_assoc, Nat.add_comm 1] using this

end Sys2Proof.Machine
end

