-- ==== Sys2Proof/Laws/State.lean ====
section
/-! SUPPORT. What each update of the state leaves as it was, field by field, and what it makes of the part that it updates. -/

namespace Sys2Proof.Machine

variable (s : State)

/-! ### `setTile` -/

@[simp] theorem State.setTile_pending (t : Nat) (x : Tile) : (s.setTile t x).pending = s.pending := rfl
@[simp] theorem State.setTile_cairn (t : Nat) (x : Tile) : (s.setTile t x).cairn = s.cairn := rfl
@[simp] theorem State.setTile_devState (t : Nat) (x : Tile) : (s.setTile t x).devState = s.devState := rfl
@[simp] theorem State.setTile_seq (t : Nat) (x : Tile) : (s.setTile t x).seq = s.seq := rfl
@[simp] theorem State.setTile_selfTest (t : Nat) (x : Tile) : (s.setTile t x).selfTest = s.selfTest := rfl
@[simp] theorem State.setTile_recoveries (t : Nat) (x : Tile) : (s.setTile t x).recoveries = s.recoveries := rfl
@[simp] theorem State.setTile_graphs (t : Nat) (x : Tile) : (s.setTile t x).graphs = s.graphs := rfl
@[simp] theorem State.setTile_tracker (t : Nat) (x : Tile) : (s.setTile t x).tracker = s.tracker := rfl
@[simp] theorem State.setTile_planes (t : Nat) (x : Tile) : (s.setTile t x).planes = s.planes := rfl
@[simp] theorem State.setTile_fabric (t : Nat) (x : Tile) : (s.setTile t x).fabric = s.fabric := rfl
@[simp] theorem State.setTile_host (t : Nat) (x : Tile) : (s.setTile t x).host = s.host := rfl
@[simp] theorem State.setTile_regs (t : Nat) (x : Tile) : (s.setTile t x).regs = s.regs := rfl
@[simp] theorem State.setTile_mem (t : Nat) (x : Tile) : (s.setTile t x).mem = s.mem := rfl
@[simp] theorem State.setTile_power (t : Nat) (x : Tile) : (s.setTile t x).power = s.power := rfl
@[simp] theorem State.setTile_ledger (t : Nat) (x : Tile) : (s.setTile t x).ledger = s.ledger := rfl
@[simp] theorem State.setTile_fuses (t : Nat) (x : Tile) : (s.setTile t x).fuses = s.fuses := rfl
@[simp] theorem State.setTile_dump (t : Nat) (x : Tile) : (s.setTile t x).dump = s.dump := rfl
@[simp] theorem State.setTile_shutdown (t : Nat) (x : Tile) : (s.setTile t x).shutdown = s.shutdown := rfl
@[simp] theorem State.setTile_fw (t : Nat) (x : Tile) : (s.setTile t x).fw = s.fw := rfl
@[simp] theorem State.setTile_hotSwap (t : Nat) (x : Tile) : (s.setTile t x).hotSwap = s.hotSwap := rfl
@[simp] theorem State.setTile_mgmt (t : Nat) (x : Tile) : (s.setTile t x).mgmt = s.mgmt := rfl
@[simp] theorem State.setTile_monitor (t : Nat) (x : Tile) : (s.setTile t x).monitor = s.monitor := rfl
@[simp] theorem State.setTile_leaks (t : Nat) (x : Tile) : (s.setTile t x).leaks = s.leaks := rfl
@[simp] theorem State.setTile_rd (t : Nat) (x : Tile) : (s.setTile t x).rd = s.rd := rfl
@[simp] theorem State.setTile_rdBytes (t : Nat) (x : Tile) : (s.setTile t x).rdBytes = s.rdBytes := rfl
@[simp] theorem State.setTile_draws (t : Nat) (x : Tile) : (s.setTile t x).draws = s.draws := rfl

/-! ### `updTile` -/

@[simp] theorem State.updTile_pending (t : Nat) (f : Tile → Tile) : (s.updTile t f).pending = s.pending := rfl
@[simp] theorem State.updTile_cairn (t : Nat) (f : Tile → Tile) : (s.updTile t f).cairn = s.cairn := rfl
@[simp] theorem State.updTile_devState (t : Nat) (f : Tile → Tile) : (s.updTile t f).devState = s.devState := rfl
@[simp] theorem State.updTile_seq (t : Nat) (f : Tile → Tile) : (s.updTile t f).seq = s.seq := rfl
@[simp] theorem State.updTile_selfTest (t : Nat) (f : Tile → Tile) : (s.updTile t f).selfTest = s.selfTest := rfl
@[simp] theorem State.updTile_recoveries (t : Nat) (f : Tile → Tile) : (s.updTile t f).recoveries = s.recoveries := rfl
@[simp] theorem State.updTile_graphs (t : Nat) (f : Tile → Tile) : (s.updTile t f).graphs = s.graphs := rfl
@[simp] theorem State.updTile_tracker (t : Nat) (f : Tile → Tile) : (s.updTile t f).tracker = s.tracker := rfl
@[simp] theorem State.updTile_planes (t : Nat) (f : Tile → Tile) : (s.updTile t f).planes = s.planes := rfl
@[simp] theorem State.updTile_fabric (t : Nat) (f : Tile → Tile) : (s.updTile t f).fabric = s.fabric := rfl
@[simp] theorem State.updTile_host (t : Nat) (f : Tile → Tile) : (s.updTile t f).host = s.host := rfl
@[simp] theorem State.updTile_regs (t : Nat) (f : Tile → Tile) : (s.updTile t f).regs = s.regs := rfl
@[simp] theorem State.updTile_mem (t : Nat) (f : Tile → Tile) : (s.updTile t f).mem = s.mem := rfl
@[simp] theorem State.updTile_power (t : Nat) (f : Tile → Tile) : (s.updTile t f).power = s.power := rfl
@[simp] theorem State.updTile_ledger (t : Nat) (f : Tile → Tile) : (s.updTile t f).ledger = s.ledger := rfl
@[simp] theorem State.updTile_fuses (t : Nat) (f : Tile → Tile) : (s.updTile t f).fuses = s.fuses := rfl
@[simp] theorem State.updTile_dump (t : Nat) (f : Tile → Tile) : (s.updTile t f).dump = s.dump := rfl
@[simp] theorem State.updTile_shutdown (t : Nat) (f : Tile → Tile) : (s.updTile t f).shutdown = s.shutdown := rfl
@[simp] theorem State.updTile_fw (t : Nat) (f : Tile → Tile) : (s.updTile t f).fw = s.fw := rfl
@[simp] theorem State.updTile_hotSwap (t : Nat) (f : Tile → Tile) : (s.updTile t f).hotSwap = s.hotSwap := rfl
@[simp] theorem State.updTile_mgmt (t : Nat) (f : Tile → Tile) : (s.updTile t f).mgmt = s.mgmt := rfl
@[simp] theorem State.updTile_monitor (t : Nat) (f : Tile → Tile) : (s.updTile t f).monitor = s.monitor := rfl
@[simp] theorem State.updTile_leaks (t : Nat) (f : Tile → Tile) : (s.updTile t f).leaks = s.leaks := rfl
@[simp] theorem State.updTile_rd (t : Nat) (f : Tile → Tile) : (s.updTile t f).rd = s.rd := rfl
@[simp] theorem State.updTile_rdBytes (t : Nat) (f : Tile → Tile) : (s.updTile t f).rdBytes = s.rdBytes := rfl
@[simp] theorem State.updTile_draws (t : Nat) (f : Tile → Tile) : (s.updTile t f).draws = s.draws := rfl

/-! ### `setGraph` -/

@[simp] theorem State.setGraph_pending (g : Nat) (x : Option Graph) : (s.setGraph g x).pending = s.pending := rfl
@[simp] theorem State.setGraph_cairn (g : Nat) (x : Option Graph) : (s.setGraph g x).cairn = s.cairn := rfl
@[simp] theorem State.setGraph_devState (g : Nat) (x : Option Graph) : (s.setGraph g x).devState = s.devState := rfl
@[simp] theorem State.setGraph_seq (g : Nat) (x : Option Graph) : (s.setGraph g x).seq = s.seq := rfl
@[simp] theorem State.setGraph_selfTest (g : Nat) (x : Option Graph) : (s.setGraph g x).selfTest = s.selfTest := rfl
@[simp] theorem State.setGraph_recoveries (g : Nat) (x : Option Graph) : (s.setGraph g x).recoveries = s.recoveries := rfl
@[simp] theorem State.setGraph_tiles (g : Nat) (x : Option Graph) : (s.setGraph g x).tiles = s.tiles := rfl
@[simp] theorem State.setGraph_tracker (g : Nat) (x : Option Graph) : (s.setGraph g x).tracker = s.tracker := rfl
@[simp] theorem State.setGraph_planes (g : Nat) (x : Option Graph) : (s.setGraph g x).planes = s.planes := rfl
@[simp] theorem State.setGraph_fabric (g : Nat) (x : Option Graph) : (s.setGraph g x).fabric = s.fabric := rfl
@[simp] theorem State.setGraph_host (g : Nat) (x : Option Graph) : (s.setGraph g x).host = s.host := rfl
@[simp] theorem State.setGraph_regs (g : Nat) (x : Option Graph) : (s.setGraph g x).regs = s.regs := rfl
@[simp] theorem State.setGraph_mem (g : Nat) (x : Option Graph) : (s.setGraph g x).mem = s.mem := rfl
@[simp] theorem State.setGraph_power (g : Nat) (x : Option Graph) : (s.setGraph g x).power = s.power := rfl
@[simp] theorem State.setGraph_ledger (g : Nat) (x : Option Graph) : (s.setGraph g x).ledger = s.ledger := rfl
@[simp] theorem State.setGraph_fuses (g : Nat) (x : Option Graph) : (s.setGraph g x).fuses = s.fuses := rfl
@[simp] theorem State.setGraph_dump (g : Nat) (x : Option Graph) : (s.setGraph g x).dump = s.dump := rfl
@[simp] theorem State.setGraph_shutdown (g : Nat) (x : Option Graph) : (s.setGraph g x).shutdown = s.shutdown := rfl
@[simp] theorem State.setGraph_fw (g : Nat) (x : Option Graph) : (s.setGraph g x).fw = s.fw := rfl
@[simp] theorem State.setGraph_hotSwap (g : Nat) (x : Option Graph) : (s.setGraph g x).hotSwap = s.hotSwap := rfl
@[simp] theorem State.setGraph_mgmt (g : Nat) (x : Option Graph) : (s.setGraph g x).mgmt = s.mgmt := rfl
@[simp] theorem State.setGraph_monitor (g : Nat) (x : Option Graph) : (s.setGraph g x).monitor = s.monitor := rfl
@[simp] theorem State.setGraph_leaks (g : Nat) (x : Option Graph) : (s.setGraph g x).leaks = s.leaks := rfl
@[simp] theorem State.setGraph_rd (g : Nat) (x : Option Graph) : (s.setGraph g x).rd = s.rd := rfl
@[simp] theorem State.setGraph_rdBytes (g : Nat) (x : Option Graph) : (s.setGraph g x).rdBytes = s.rdBytes := rfl
@[simp] theorem State.setGraph_draws (g : Nat) (x : Option Graph) : (s.setGraph g x).draws = s.draws := rfl

/-! ### `updGraph` -/

@[simp] theorem State.updGraph_pending (g : Nat) (f : Graph → Graph) : (s.updGraph g f).pending = s.pending := by
  unfold State.updGraph; split <;> rfl
@[simp] theorem State.updGraph_cairn (g : Nat) (f : Graph → Graph) : (s.updGraph g f).cairn = s.cairn := by
  unfold State.updGraph; split <;> rfl
@[simp] theorem State.updGraph_devState (g : Nat) (f : Graph → Graph) : (s.updGraph g f).devState = s.devState := by
  unfold State.updGraph; split <;> rfl
@[simp] theorem State.updGraph_seq (g : Nat) (f : Graph → Graph) : (s.updGraph g f).seq = s.seq := by
  unfold State.updGraph; split <;> rfl
@[simp] theorem State.updGraph_selfTest (g : Nat) (f : Graph → Graph) : (s.updGraph g f).selfTest = s.selfTest := by
  unfold State.updGraph; split <;> rfl
@[simp] theorem State.updGraph_recoveries (g : Nat) (f : Graph → Graph) : (s.updGraph g f).recoveries = s.recoveries := by
  unfold State.updGraph; split <;> rfl
@[simp] theorem State.updGraph_tiles (g : Nat) (f : Graph → Graph) : (s.updGraph g f).tiles = s.tiles := by
  unfold State.updGraph; split <;> rfl
@[simp] theorem State.updGraph_tracker (g : Nat) (f : Graph → Graph) : (s.updGraph g f).tracker = s.tracker := by
  unfold State.updGraph; split <;> rfl
@[simp] theorem State.updGraph_planes (g : Nat) (f : Graph → Graph) : (s.updGraph g f).planes = s.planes := by
  unfold State.updGraph; split <;> rfl
@[simp] theorem State.updGraph_fabric (g : Nat) (f : Graph → Graph) : (s.updGraph g f).fabric = s.fabric := by
  unfold State.updGraph; split <;> rfl
@[simp] theorem State.updGraph_host (g : Nat) (f : Graph → Graph) : (s.updGraph g f).host = s.host := by
  unfold State.updGraph; split <;> rfl
@[simp] theorem State.updGraph_regs (g : Nat) (f : Graph → Graph) : (s.updGraph g f).regs = s.regs := by
  unfold State.updGraph; split <;> rfl
@[simp] theorem State.updGraph_mem (g : Nat) (f : Graph → Graph) : (s.updGraph g f).mem = s.mem := by
  unfold State.updGraph; split <;> rfl
@[simp] theorem State.updGraph_power (g : Nat) (f : Graph → Graph) : (s.updGraph g f).power = s.power := by
  unfold State.updGraph; split <;> rfl
@[simp] theorem State.updGraph_ledger (g : Nat) (f : Graph → Graph) : (s.updGraph g f).ledger = s.ledger := by
  unfold State.updGraph; split <;> rfl
@[simp] theorem State.updGraph_fuses (g : Nat) (f : Graph → Graph) : (s.updGraph g f).fuses = s.fuses := by
  unfold State.updGraph; split <;> rfl
@[simp] theorem State.updGraph_dump (g : Nat) (f : Graph → Graph) : (s.updGraph g f).dump = s.dump := by
  unfold State.updGraph; split <;> rfl
@[simp] theorem State.updGraph_shutdown (g : Nat) (f : Graph → Graph) : (s.updGraph g f).shutdown = s.shutdown := by
  unfold State.updGraph; split <;> rfl
@[simp] theorem State.updGraph_fw (g : Nat) (f : Graph → Graph) : (s.updGraph g f).fw = s.fw := by
  unfold State.updGraph; split <;> rfl
@[simp] theorem State.updGraph_hotSwap (g : Nat) (f : Graph → Graph) : (s.updGraph g f).hotSwap = s.hotSwap := by
  unfold State.updGraph; split <;> rfl
@[simp] theorem State.updGraph_mgmt (g : Nat) (f : Graph → Graph) : (s.updGraph g f).mgmt = s.mgmt := by
  unfold State.updGraph; split <;> rfl
@[simp] theorem State.updGraph_monitor (g : Nat) (f : Graph → Graph) : (s.updGraph g f).monitor = s.monitor := by
  unfold State.updGraph; split <;> rfl
@[simp] theorem State.updGraph_leaks (g : Nat) (f : Graph → Graph) : (s.updGraph g f).leaks = s.leaks := by
  unfold State.updGraph; split <;> rfl
@[simp] theorem State.updGraph_rd (g : Nat) (f : Graph → Graph) : (s.updGraph g f).rd = s.rd := by
  unfold State.updGraph; split <;> rfl
@[simp] theorem State.updGraph_rdBytes (g : Nat) (f : Graph → Graph) : (s.updGraph g f).rdBytes = s.rdBytes := by
  unfold State.updGraph; split <;> rfl
@[simp] theorem State.updGraph_draws (g : Nat) (f : Graph → Graph) : (s.updGraph g f).draws = s.draws := by
  unfold State.updGraph; split <;> rfl

/-! ### `setStream` -/

@[simp] theorem State.setStream_pending (i : Nat) (x : Stream) : (s.setStream i x).pending = s.pending := rfl
@[simp] theorem State.setStream_cairn (i : Nat) (x : Stream) : (s.setStream i x).cairn = s.cairn := rfl
@[simp] theorem State.setStream_devState (i : Nat) (x : Stream) : (s.setStream i x).devState = s.devState := rfl
@[simp] theorem State.setStream_seq (i : Nat) (x : Stream) : (s.setStream i x).seq = s.seq := rfl
@[simp] theorem State.setStream_selfTest (i : Nat) (x : Stream) : (s.setStream i x).selfTest = s.selfTest := rfl
@[simp] theorem State.setStream_recoveries (i : Nat) (x : Stream) : (s.setStream i x).recoveries = s.recoveries := rfl
@[simp] theorem State.setStream_tiles (i : Nat) (x : Stream) : (s.setStream i x).tiles = s.tiles := rfl
@[simp] theorem State.setStream_graphs (i : Nat) (x : Stream) : (s.setStream i x).graphs = s.graphs := rfl
@[simp] theorem State.setStream_planes (i : Nat) (x : Stream) : (s.setStream i x).planes = s.planes := rfl
@[simp] theorem State.setStream_fabric (i : Nat) (x : Stream) : (s.setStream i x).fabric = s.fabric := rfl
@[simp] theorem State.setStream_host (i : Nat) (x : Stream) : (s.setStream i x).host = s.host := rfl
@[simp] theorem State.setStream_regs (i : Nat) (x : Stream) : (s.setStream i x).regs = s.regs := rfl
@[simp] theorem State.setStream_mem (i : Nat) (x : Stream) : (s.setStream i x).mem = s.mem := rfl
@[simp] theorem State.setStream_power (i : Nat) (x : Stream) : (s.setStream i x).power = s.power := rfl
@[simp] theorem State.setStream_ledger (i : Nat) (x : Stream) : (s.setStream i x).ledger = s.ledger := rfl
@[simp] theorem State.setStream_fuses (i : Nat) (x : Stream) : (s.setStream i x).fuses = s.fuses := rfl
@[simp] theorem State.setStream_dump (i : Nat) (x : Stream) : (s.setStream i x).dump = s.dump := rfl
@[simp] theorem State.setStream_shutdown (i : Nat) (x : Stream) : (s.setStream i x).shutdown = s.shutdown := rfl
@[simp] theorem State.setStream_fw (i : Nat) (x : Stream) : (s.setStream i x).fw = s.fw := rfl
@[simp] theorem State.setStream_hotSwap (i : Nat) (x : Stream) : (s.setStream i x).hotSwap = s.hotSwap := rfl
@[simp] theorem State.setStream_mgmt (i : Nat) (x : Stream) : (s.setStream i x).mgmt = s.mgmt := rfl
@[simp] theorem State.setStream_monitor (i : Nat) (x : Stream) : (s.setStream i x).monitor = s.monitor := rfl
@[simp] theorem State.setStream_leaks (i : Nat) (x : Stream) : (s.setStream i x).leaks = s.leaks := rfl
@[simp] theorem State.setStream_rd (i : Nat) (x : Stream) : (s.setStream i x).rd = s.rd := rfl
@[simp] theorem State.setStream_rdBytes (i : Nat) (x : Stream) : (s.setStream i x).rdBytes = s.rdBytes := rfl
@[simp] theorem State.setStream_draws (i : Nat) (x : Stream) : (s.setStream i x).draws = s.draws := rfl

/-! ### `updStream` -/

@[simp] theorem State.updStream_pending (i : Nat) (f : Stream → Stream) : (s.updStream i f).pending = s.pending := rfl
@[simp] theorem State.updStream_cairn (i : Nat) (f : Stream → Stream) : (s.updStream i f).cairn = s.cairn := rfl
@[simp] theorem State.updStream_devState (i : Nat) (f : Stream → Stream) : (s.updStream i f).devState = s.devState := rfl
@[simp] theorem State.updStream_seq (i : Nat) (f : Stream → Stream) : (s.updStream i f).seq = s.seq := rfl
@[simp] theorem State.updStream_selfTest (i : Nat) (f : Stream → Stream) : (s.updStream i f).selfTest = s.selfTest := rfl
@[simp] theorem State.updStream_recoveries (i : Nat) (f : Stream → Stream) : (s.updStream i f).recoveries = s.recoveries := rfl
@[simp] theorem State.updStream_tiles (i : Nat) (f : Stream → Stream) : (s.updStream i f).tiles = s.tiles := rfl
@[simp] theorem State.updStream_graphs (i : Nat) (f : Stream → Stream) : (s.updStream i f).graphs = s.graphs := rfl
@[simp] theorem State.updStream_planes (i : Nat) (f : Stream → Stream) : (s.updStream i f).planes = s.planes := rfl
@[simp] theorem State.updStream_fabric (i : Nat) (f : Stream → Stream) : (s.updStream i f).fabric = s.fabric := rfl
@[simp] theorem State.updStream_host (i : Nat) (f : Stream → Stream) : (s.updStream i f).host = s.host := rfl
@[simp] theorem State.updStream_regs (i : Nat) (f : Stream → Stream) : (s.updStream i f).regs = s.regs := rfl
@[simp] theorem State.updStream_mem (i : Nat) (f : Stream → Stream) : (s.updStream i f).mem = s.mem := rfl
@[simp] theorem State.updStream_power (i : Nat) (f : Stream → Stream) : (s.updStream i f).power = s.power := rfl
@[simp] theorem State.updStream_ledger (i : Nat) (f : Stream → Stream) : (s.updStream i f).ledger = s.ledger := rfl
@[simp] theorem State.updStream_fuses (i : Nat) (f : Stream → Stream) : (s.updStream i f).fuses = s.fuses := rfl
@[simp] theorem State.updStream_dump (i : Nat) (f : Stream → Stream) : (s.updStream i f).dump = s.dump := rfl
@[simp] theorem State.updStream_shutdown (i : Nat) (f : Stream → Stream) : (s.updStream i f).shutdown = s.shutdown := rfl
@[simp] theorem State.updStream_fw (i : Nat) (f : Stream → Stream) : (s.updStream i f).fw = s.fw := rfl
@[simp] theorem State.updStream_hotSwap (i : Nat) (f : Stream → Stream) : (s.updStream i f).hotSwap = s.hotSwap := rfl
@[simp] theorem State.updStream_mgmt (i : Nat) (f : Stream → Stream) : (s.updStream i f).mgmt = s.mgmt := rfl
@[simp] theorem State.updStream_monitor (i : Nat) (f : Stream → Stream) : (s.updStream i f).monitor = s.monitor := rfl
@[simp] theorem State.updStream_leaks (i : Nat) (f : Stream → Stream) : (s.updStream i f).leaks = s.leaks := rfl
@[simp] theorem State.updStream_rd (i : Nat) (f : Stream → Stream) : (s.updStream i f).rd = s.rd := rfl
@[simp] theorem State.updStream_rdBytes (i : Nat) (f : Stream → Stream) : (s.updStream i f).rdBytes = s.rdBytes := rfl
@[simp] theorem State.updStream_draws (i : Nat) (f : Stream → Stream) : (s.updStream i f).draws = s.draws := rfl

/-! ### `updSq` -/

@[simp] theorem State.updSq_pending (n : Nat) (f : Ring → Ring) : (s.updSq n f).pending = s.pending := rfl
@[simp] theorem State.updSq_cairn (n : Nat) (f : Ring → Ring) : (s.updSq n f).cairn = s.cairn := rfl
@[simp] theorem State.updSq_devState (n : Nat) (f : Ring → Ring) : (s.updSq n f).devState = s.devState := rfl
@[simp] theorem State.updSq_seq (n : Nat) (f : Ring → Ring) : (s.updSq n f).seq = s.seq := rfl
@[simp] theorem State.updSq_selfTest (n : Nat) (f : Ring → Ring) : (s.updSq n f).selfTest = s.selfTest := rfl
@[simp] theorem State.updSq_recoveries (n : Nat) (f : Ring → Ring) : (s.updSq n f).recoveries = s.recoveries := rfl
@[simp] theorem State.updSq_tiles (n : Nat) (f : Ring → Ring) : (s.updSq n f).tiles = s.tiles := rfl
@[simp] theorem State.updSq_graphs (n : Nat) (f : Ring → Ring) : (s.updSq n f).graphs = s.graphs := rfl
@[simp] theorem State.updSq_tracker (n : Nat) (f : Ring → Ring) : (s.updSq n f).tracker = s.tracker := rfl
@[simp] theorem State.updSq_planes (n : Nat) (f : Ring → Ring) : (s.updSq n f).planes = s.planes := rfl
@[simp] theorem State.updSq_fabric (n : Nat) (f : Ring → Ring) : (s.updSq n f).fabric = s.fabric := rfl
@[simp] theorem State.updSq_regs (n : Nat) (f : Ring → Ring) : (s.updSq n f).regs = s.regs := rfl
@[simp] theorem State.updSq_mem (n : Nat) (f : Ring → Ring) : (s.updSq n f).mem = s.mem := rfl
@[simp] theorem State.updSq_power (n : Nat) (f : Ring → Ring) : (s.updSq n f).power = s.power := rfl
@[simp] theorem State.updSq_ledger (n : Nat) (f : Ring → Ring) : (s.updSq n f).ledger = s.ledger := rfl
@[simp] theorem State.updSq_fuses (n : Nat) (f : Ring → Ring) : (s.updSq n f).fuses = s.fuses := rfl
@[simp] theorem State.updSq_dump (n : Nat) (f : Ring → Ring) : (s.updSq n f).dump = s.dump := rfl
@[simp] theorem State.updSq_shutdown (n : Nat) (f : Ring → Ring) : (s.updSq n f).shutdown = s.shutdown := rfl
@[simp] theorem State.updSq_fw (n : Nat) (f : Ring → Ring) : (s.updSq n f).fw = s.fw := rfl
@[simp] theorem State.updSq_hotSwap (n : Nat) (f : Ring → Ring) : (s.updSq n f).hotSwap = s.hotSwap := rfl
@[simp] theorem State.updSq_mgmt (n : Nat) (f : Ring → Ring) : (s.updSq n f).mgmt = s.mgmt := rfl
@[simp] theorem State.updSq_monitor (n : Nat) (f : Ring → Ring) : (s.updSq n f).monitor = s.monitor := rfl
@[simp] theorem State.updSq_leaks (n : Nat) (f : Ring → Ring) : (s.updSq n f).leaks = s.leaks := rfl
@[simp] theorem State.updSq_rd (n : Nat) (f : Ring → Ring) : (s.updSq n f).rd = s.rd := rfl
@[simp] theorem State.updSq_rdBytes (n : Nat) (f : Ring → Ring) : (s.updSq n f).rdBytes = s.rdBytes := rfl
@[simp] theorem State.updSq_draws (n : Nat) (f : Ring → Ring) : (s.updSq n f).draws = s.draws := rfl

/-! ### `updCq` -/

@[simp] theorem State.updCq_pending (n : Nat) (f : Ring → Ring) : (s.updCq n f).pending = s.pending := rfl
@[simp] theorem State.updCq_cairn (n : Nat) (f : Ring → Ring) : (s.updCq n f).cairn = s.cairn := rfl
@[simp] theorem State.updCq_devState (n : Nat) (f : Ring → Ring) : (s.updCq n f).devState = s.devState := rfl
@[simp] theorem State.updCq_seq (n : Nat) (f : Ring → Ring) : (s.updCq n f).seq = s.seq := rfl
@[simp] theorem State.updCq_selfTest (n : Nat) (f : Ring → Ring) : (s.updCq n f).selfTest = s.selfTest := rfl
@[simp] theorem State.updCq_recoveries (n : Nat) (f : Ring → Ring) : (s.updCq n f).recoveries = s.recoveries := rfl
@[simp] theorem State.updCq_tiles (n : Nat) (f : Ring → Ring) : (s.updCq n f).tiles = s.tiles := rfl
@[simp] theorem State.updCq_graphs (n : Nat) (f : Ring → Ring) : (s.updCq n f).graphs = s.graphs := rfl
@[simp] theorem State.updCq_tracker (n : Nat) (f : Ring → Ring) : (s.updCq n f).tracker = s.tracker := rfl
@[simp] theorem State.updCq_planes (n : Nat) (f : Ring → Ring) : (s.updCq n f).planes = s.planes := rfl
@[simp] theorem State.updCq_fabric (n : Nat) (f : Ring → Ring) : (s.updCq n f).fabric = s.fabric := rfl
@[simp] theorem State.updCq_regs (n : Nat) (f : Ring → Ring) : (s.updCq n f).regs = s.regs := rfl
@[simp] theorem State.updCq_mem (n : Nat) (f : Ring → Ring) : (s.updCq n f).mem = s.mem := rfl
@[simp] theorem State.updCq_power (n : Nat) (f : Ring → Ring) : (s.updCq n f).power = s.power := rfl
@[simp] theorem State.updCq_ledger (n : Nat) (f : Ring → Ring) : (s.updCq n f).ledger = s.ledger := rfl
@[simp] theorem State.updCq_fuses (n : Nat) (f : Ring → Ring) : (s.updCq n f).fuses = s.fuses := rfl
@[simp] theorem State.updCq_dump (n : Nat) (f : Ring → Ring) : (s.updCq n f).dump = s.dump := rfl
@[simp] theorem State.updCq_shutdown (n : Nat) (f : Ring → Ring) : (s.updCq n f).shutdown = s.shutdown := rfl
@[simp] theorem State.updCq_fw (n : Nat) (f : Ring → Ring) : (s.updCq n f).fw = s.fw := rfl
@[simp] theorem State.updCq_hotSwap (n : Nat) (f : Ring → Ring) : (s.updCq n f).hotSwap = s.hotSwap := rfl
@[simp] theorem State.updCq_mgmt (n : Nat) (f : Ring → Ring) : (s.updCq n f).mgmt = s.mgmt := rfl
@[simp] theorem State.updCq_monitor (n : Nat) (f : Ring → Ring) : (s.updCq n f).monitor = s.monitor := rfl
@[simp] theorem State.updCq_leaks (n : Nat) (f : Ring → Ring) : (s.updCq n f).leaks = s.leaks := rfl
@[simp] theorem State.updCq_rd (n : Nat) (f : Ring → Ring) : (s.updCq n f).rd = s.rd := rfl
@[simp] theorem State.updCq_rdBytes (n : Nat) (f : Ring → Ring) : (s.updCq n f).rdBytes = s.rdBytes := rfl
@[simp] theorem State.updCq_draws (n : Nat) (f : Ring → Ring) : (s.updCq n f).draws = s.draws := rfl

/-! ### `updHv` -/

@[simp] theorem State.updHv_pending (n : Nat) (f : Ring → Ring) : (s.updHv n f).pending = s.pending := rfl
@[simp] theorem State.updHv_cairn (n : Nat) (f : Ring → Ring) : (s.updHv n f).cairn = s.cairn := rfl
@[simp] theorem State.updHv_devState (n : Nat) (f : Ring → Ring) : (s.updHv n f).devState = s.devState := rfl
@[simp] theorem State.updHv_seq (n : Nat) (f : Ring → Ring) : (s.updHv n f).seq = s.seq := rfl
@[simp] theorem State.updHv_selfTest (n : Nat) (f : Ring → Ring) : (s.updHv n f).selfTest = s.selfTest := rfl
@[simp] theorem State.updHv_recoveries (n : Nat) (f : Ring → Ring) : (s.updHv n f).recoveries = s.recoveries := rfl
@[simp] theorem State.updHv_tiles (n : Nat) (f : Ring → Ring) : (s.updHv n f).tiles = s.tiles := rfl
@[simp] theorem State.updHv_graphs (n : Nat) (f : Ring → Ring) : (s.updHv n f).graphs = s.graphs := rfl
@[simp] theorem State.updHv_tracker (n : Nat) (f : Ring → Ring) : (s.updHv n f).tracker = s.tracker := rfl
@[simp] theorem State.updHv_planes (n : Nat) (f : Ring → Ring) : (s.updHv n f).planes = s.planes := rfl
@[simp] theorem State.updHv_fabric (n : Nat) (f : Ring → Ring) : (s.updHv n f).fabric = s.fabric := rfl
@[simp] theorem State.updHv_regs (n : Nat) (f : Ring → Ring) : (s.updHv n f).regs = s.regs := rfl
@[simp] theorem State.updHv_mem (n : Nat) (f : Ring → Ring) : (s.updHv n f).mem = s.mem := rfl
@[simp] theorem State.updHv_power (n : Nat) (f : Ring → Ring) : (s.updHv n f).power = s.power := rfl
@[simp] theorem State.updHv_ledger (n : Nat) (f : Ring → Ring) : (s.updHv n f).ledger = s.ledger := rfl
@[simp] theorem State.updHv_fuses (n : Nat) (f : Ring → Ring) : (s.updHv n f).fuses = s.fuses := rfl
@[simp] theorem State.updHv_dump (n : Nat) (f : Ring → Ring) : (s.updHv n f).dump = s.dump := rfl
@[simp] theorem State.updHv_shutdown (n : Nat) (f : Ring → Ring) : (s.updHv n f).shutdown = s.shutdown := rfl
@[simp] theorem State.updHv_fw (n : Nat) (f : Ring → Ring) : (s.updHv n f).fw = s.fw := rfl
@[simp] theorem State.updHv_hotSwap (n : Nat) (f : Ring → Ring) : (s.updHv n f).hotSwap = s.hotSwap := rfl
@[simp] theorem State.updHv_mgmt (n : Nat) (f : Ring → Ring) : (s.updHv n f).mgmt = s.mgmt := rfl
@[simp] theorem State.updHv_monitor (n : Nat) (f : Ring → Ring) : (s.updHv n f).monitor = s.monitor := rfl
@[simp] theorem State.updHv_leaks (n : Nat) (f : Ring → Ring) : (s.updHv n f).leaks = s.leaks := rfl
@[simp] theorem State.updHv_rd (n : Nat) (f : Ring → Ring) : (s.updHv n f).rd = s.rd := rfl
@[simp] theorem State.updHv_rdBytes (n : Nat) (f : Ring → Ring) : (s.updHv n f).rdBytes = s.rdBytes := rfl
@[simp] theorem State.updHv_draws (n : Nat) (f : Ring → Ring) : (s.updHv n f).draws = s.draws := rfl

/-! ### `updSlice` -/

@[simp] theorem State.updSlice_pending (n : Nat) (f : Slice → Slice) : (s.updSlice n f).pending = s.pending := rfl
@[simp] theorem State.updSlice_cairn (n : Nat) (f : Slice → Slice) : (s.updSlice n f).cairn = s.cairn := rfl
@[simp] theorem State.updSlice_devState (n : Nat) (f : Slice → Slice) : (s.updSlice n f).devState = s.devState := rfl
@[simp] theorem State.updSlice_seq (n : Nat) (f : Slice → Slice) : (s.updSlice n f).seq = s.seq := rfl
@[simp] theorem State.updSlice_selfTest (n : Nat) (f : Slice → Slice) : (s.updSlice n f).selfTest = s.selfTest := rfl
@[simp] theorem State.updSlice_recoveries (n : Nat) (f : Slice → Slice) : (s.updSlice n f).recoveries = s.recoveries := rfl
@[simp] theorem State.updSlice_tiles (n : Nat) (f : Slice → Slice) : (s.updSlice n f).tiles = s.tiles := rfl
@[simp] theorem State.updSlice_graphs (n : Nat) (f : Slice → Slice) : (s.updSlice n f).graphs = s.graphs := rfl
@[simp] theorem State.updSlice_tracker (n : Nat) (f : Slice → Slice) : (s.updSlice n f).tracker = s.tracker := rfl
@[simp] theorem State.updSlice_planes (n : Nat) (f : Slice → Slice) : (s.updSlice n f).planes = s.planes := rfl
@[simp] theorem State.updSlice_fabric (n : Nat) (f : Slice → Slice) : (s.updSlice n f).fabric = s.fabric := rfl
@[simp] theorem State.updSlice_host (n : Nat) (f : Slice → Slice) : (s.updSlice n f).host = s.host := rfl
@[simp] theorem State.updSlice_regs (n : Nat) (f : Slice → Slice) : (s.updSlice n f).regs = s.regs := rfl
@[simp] theorem State.updSlice_power (n : Nat) (f : Slice → Slice) : (s.updSlice n f).power = s.power := rfl
@[simp] theorem State.updSlice_ledger (n : Nat) (f : Slice → Slice) : (s.updSlice n f).ledger = s.ledger := rfl
@[simp] theorem State.updSlice_fuses (n : Nat) (f : Slice → Slice) : (s.updSlice n f).fuses = s.fuses := rfl
@[simp] theorem State.updSlice_dump (n : Nat) (f : Slice → Slice) : (s.updSlice n f).dump = s.dump := rfl
@[simp] theorem State.updSlice_shutdown (n : Nat) (f : Slice → Slice) : (s.updSlice n f).shutdown = s.shutdown := rfl
@[simp] theorem State.updSlice_fw (n : Nat) (f : Slice → Slice) : (s.updSlice n f).fw = s.fw := rfl
@[simp] theorem State.updSlice_hotSwap (n : Nat) (f : Slice → Slice) : (s.updSlice n f).hotSwap = s.hotSwap := rfl
@[simp] theorem State.updSlice_mgmt (n : Nat) (f : Slice → Slice) : (s.updSlice n f).mgmt = s.mgmt := rfl
@[simp] theorem State.updSlice_monitor (n : Nat) (f : Slice → Slice) : (s.updSlice n f).monitor = s.monitor := rfl
@[simp] theorem State.updSlice_leaks (n : Nat) (f : Slice → Slice) : (s.updSlice n f).leaks = s.leaks := rfl
@[simp] theorem State.updSlice_rd (n : Nat) (f : Slice → Slice) : (s.updSlice n f).rd = s.rd := rfl
@[simp] theorem State.updSlice_rdBytes (n : Nat) (f : Slice → Slice) : (s.updSlice n f).rdBytes = s.rdBytes := rfl
@[simp] theorem State.updSlice_draws (n : Nat) (f : Slice → Slice) : (s.updSlice n f).draws = s.draws := rfl

/-! ### `updRange` -/

@[simp] theorem State.updRange_pending (n : Nat) (f : CxlRange → CxlRange) : (s.updRange n f).pending = s.pending := rfl
@[simp] theorem State.updRange_cairn (n : Nat) (f : CxlRange → CxlRange) : (s.updRange n f).cairn = s.cairn := rfl
@[simp] theorem State.updRange_devState (n : Nat) (f : CxlRange → CxlRange) : (s.updRange n f).devState = s.devState := rfl
@[simp] theorem State.updRange_seq (n : Nat) (f : CxlRange → CxlRange) : (s.updRange n f).seq = s.seq := rfl
@[simp] theorem State.updRange_selfTest (n : Nat) (f : CxlRange → CxlRange) : (s.updRange n f).selfTest = s.selfTest := rfl
@[simp] theorem State.updRange_recoveries (n : Nat) (f : CxlRange → CxlRange) : (s.updRange n f).recoveries = s.recoveries := rfl
@[simp] theorem State.updRange_tiles (n : Nat) (f : CxlRange → CxlRange) : (s.updRange n f).tiles = s.tiles := rfl
@[simp] theorem State.updRange_graphs (n : Nat) (f : CxlRange → CxlRange) : (s.updRange n f).graphs = s.graphs := rfl
@[simp] theorem State.updRange_tracker (n : Nat) (f : CxlRange → CxlRange) : (s.updRange n f).tracker = s.tracker := rfl
@[simp] theorem State.updRange_planes (n : Nat) (f : CxlRange → CxlRange) : (s.updRange n f).planes = s.planes := rfl
@[simp] theorem State.updRange_fabric (n : Nat) (f : CxlRange → CxlRange) : (s.updRange n f).fabric = s.fabric := rfl
@[simp] theorem State.updRange_host (n : Nat) (f : CxlRange → CxlRange) : (s.updRange n f).host = s.host := rfl
@[simp] theorem State.updRange_regs (n : Nat) (f : CxlRange → CxlRange) : (s.updRange n f).regs = s.regs := rfl
@[simp] theorem State.updRange_power (n : Nat) (f : CxlRange → CxlRange) : (s.updRange n f).power = s.power := rfl
@[simp] theorem State.updRange_ledger (n : Nat) (f : CxlRange → CxlRange) : (s.updRange n f).ledger = s.ledger := rfl
@[simp] theorem State.updRange_fuses (n : Nat) (f : CxlRange → CxlRange) : (s.updRange n f).fuses = s.fuses := rfl
@[simp] theorem State.updRange_dump (n : Nat) (f : CxlRange → CxlRange) : (s.updRange n f).dump = s.dump := rfl
@[simp] theorem State.updRange_shutdown (n : Nat) (f : CxlRange → CxlRange) : (s.updRange n f).shutdown = s.shutdown := rfl
@[simp] theorem State.updRange_fw (n : Nat) (f : CxlRange → CxlRange) : (s.updRange n f).fw = s.fw := rfl
@[simp] theorem State.updRange_hotSwap (n : Nat) (f : CxlRange → CxlRange) : (s.updRange n f).hotSwap = s.hotSwap := rfl
@[simp] theorem State.updRange_mgmt (n : Nat) (f : CxlRange → CxlRange) : (s.updRange n f).mgmt = s.mgmt := rfl
@[simp] theorem State.updRange_monitor (n : Nat) (f : CxlRange → CxlRange) : (s.updRange n f).monitor = s.monitor := rfl
@[simp] theorem State.updRange_leaks (n : Nat) (f : CxlRange → CxlRange) : (s.updRange n f).leaks = s.leaks := rfl
@[simp] theorem State.updRange_rd (n : Nat) (f : CxlRange → CxlRange) : (s.updRange n f).rd = s.rd := rfl
@[simp] theorem State.updRange_rdBytes (n : Nat) (f : CxlRange → CxlRange) : (s.updRange n f).rdBytes = s.rdBytes := rfl
@[simp] theorem State.updRange_draws (n : Nat) (f : CxlRange → CxlRange) : (s.updRange n f).draws = s.draws := rfl

/-! ### `updPort` -/

@[simp] theorem State.updPort_pending (p : Nat) (f : FzPort → FzPort) : (s.updPort p f).pending = s.pending := rfl
@[simp] theorem State.updPort_cairn (p : Nat) (f : FzPort → FzPort) : (s.updPort p f).cairn = s.cairn := rfl
@[simp] theorem State.updPort_devState (p : Nat) (f : FzPort → FzPort) : (s.updPort p f).devState = s.devState := rfl
@[simp] theorem State.updPort_seq (p : Nat) (f : FzPort → FzPort) : (s.updPort p f).seq = s.seq := rfl
@[simp] theorem State.updPort_selfTest (p : Nat) (f : FzPort → FzPort) : (s.updPort p f).selfTest = s.selfTest := rfl
@[simp] theorem State.updPort_recoveries (p : Nat) (f : FzPort → FzPort) : (s.updPort p f).recoveries = s.recoveries := rfl
@[simp] theorem State.updPort_tiles (p : Nat) (f : FzPort → FzPort) : (s.updPort p f).tiles = s.tiles := rfl
@[simp] theorem State.updPort_graphs (p : Nat) (f : FzPort → FzPort) : (s.updPort p f).graphs = s.graphs := rfl
@[simp] theorem State.updPort_tracker (p : Nat) (f : FzPort → FzPort) : (s.updPort p f).tracker = s.tracker := rfl
@[simp] theorem State.updPort_planes (p : Nat) (f : FzPort → FzPort) : (s.updPort p f).planes = s.planes := rfl
@[simp] theorem State.updPort_host (p : Nat) (f : FzPort → FzPort) : (s.updPort p f).host = s.host := rfl
@[simp] theorem State.updPort_regs (p : Nat) (f : FzPort → FzPort) : (s.updPort p f).regs = s.regs := rfl
@[simp] theorem State.updPort_mem (p : Nat) (f : FzPort → FzPort) : (s.updPort p f).mem = s.mem := rfl
@[simp] theorem State.updPort_power (p : Nat) (f : FzPort → FzPort) : (s.updPort p f).power = s.power := rfl
@[simp] theorem State.updPort_ledger (p : Nat) (f : FzPort → FzPort) : (s.updPort p f).ledger = s.ledger := rfl
@[simp] theorem State.updPort_fuses (p : Nat) (f : FzPort → FzPort) : (s.updPort p f).fuses = s.fuses := rfl
@[simp] theorem State.updPort_dump (p : Nat) (f : FzPort → FzPort) : (s.updPort p f).dump = s.dump := rfl
@[simp] theorem State.updPort_shutdown (p : Nat) (f : FzPort → FzPort) : (s.updPort p f).shutdown = s.shutdown := rfl
@[simp] theorem State.updPort_fw (p : Nat) (f : FzPort → FzPort) : (s.updPort p f).fw = s.fw := rfl
@[simp] theorem State.updPort_hotSwap (p : Nat) (f : FzPort → FzPort) : (s.updPort p f).hotSwap = s.hotSwap := rfl
@[simp] theorem State.updPort_mgmt (p : Nat) (f : FzPort → FzPort) : (s.updPort p f).mgmt = s.mgmt := rfl
@[simp] theorem State.updPort_monitor (p : Nat) (f : FzPort → FzPort) : (s.updPort p f).monitor = s.monitor := rfl
@[simp] theorem State.updPort_leaks (p : Nat) (f : FzPort → FzPort) : (s.updPort p f).leaks = s.leaks := rfl
@[simp] theorem State.updPort_rd (p : Nat) (f : FzPort → FzPort) : (s.updPort p f).rd = s.rd := rfl
@[simp] theorem State.updPort_rdBytes (p : Nat) (f : FzPort → FzPort) : (s.updPort p f).rdBytes = s.rdBytes := rfl
@[simp] theorem State.updPort_draws (p : Nat) (f : FzPort → FzPort) : (s.updPort p f).draws = s.draws := rfl

/-! ### `updPhase` -/

@[simp] theorem State.updPhase_pending (n : Nat) (f : Phase → Phase) : (s.updPhase n f).pending = s.pending := rfl
@[simp] theorem State.updPhase_cairn (n : Nat) (f : Phase → Phase) : (s.updPhase n f).cairn = s.cairn := rfl
@[simp] theorem State.updPhase_devState (n : Nat) (f : Phase → Phase) : (s.updPhase n f).devState = s.devState := rfl
@[simp] theorem State.updPhase_seq (n : Nat) (f : Phase → Phase) : (s.updPhase n f).seq = s.seq := rfl
@[simp] theorem State.updPhase_selfTest (n : Nat) (f : Phase → Phase) : (s.updPhase n f).selfTest = s.selfTest := rfl
@[simp] theorem State.updPhase_recoveries (n : Nat) (f : Phase → Phase) : (s.updPhase n f).recoveries = s.recoveries := rfl
@[simp] theorem State.updPhase_tiles (n : Nat) (f : Phase → Phase) : (s.updPhase n f).tiles = s.tiles := rfl
@[simp] theorem State.updPhase_graphs (n : Nat) (f : Phase → Phase) : (s.updPhase n f).graphs = s.graphs := rfl
@[simp] theorem State.updPhase_tracker (n : Nat) (f : Phase → Phase) : (s.updPhase n f).tracker = s.tracker := rfl
@[simp] theorem State.updPhase_planes (n : Nat) (f : Phase → Phase) : (s.updPhase n f).planes = s.planes := rfl
@[simp] theorem State.updPhase_fabric (n : Nat) (f : Phase → Phase) : (s.updPhase n f).fabric = s.fabric := rfl
@[simp] theorem State.updPhase_host (n : Nat) (f : Phase → Phase) : (s.updPhase n f).host = s.host := rfl
@[simp] theorem State.updPhase_regs (n : Nat) (f : Phase → Phase) : (s.updPhase n f).regs = s.regs := rfl
@[simp] theorem State.updPhase_mem (n : Nat) (f : Phase → Phase) : (s.updPhase n f).mem = s.mem := rfl
@[simp] theorem State.updPhase_ledger (n : Nat) (f : Phase → Phase) : (s.updPhase n f).ledger = s.ledger := rfl
@[simp] theorem State.updPhase_fuses (n : Nat) (f : Phase → Phase) : (s.updPhase n f).fuses = s.fuses := rfl
@[simp] theorem State.updPhase_dump (n : Nat) (f : Phase → Phase) : (s.updPhase n f).dump = s.dump := rfl
@[simp] theorem State.updPhase_shutdown (n : Nat) (f : Phase → Phase) : (s.updPhase n f).shutdown = s.shutdown := rfl
@[simp] theorem State.updPhase_fw (n : Nat) (f : Phase → Phase) : (s.updPhase n f).fw = s.fw := rfl
@[simp] theorem State.updPhase_hotSwap (n : Nat) (f : Phase → Phase) : (s.updPhase n f).hotSwap = s.hotSwap := rfl
@[simp] theorem State.updPhase_mgmt (n : Nat) (f : Phase → Phase) : (s.updPhase n f).mgmt = s.mgmt := rfl
@[simp] theorem State.updPhase_monitor (n : Nat) (f : Phase → Phase) : (s.updPhase n f).monitor = s.monitor := rfl
@[simp] theorem State.updPhase_leaks (n : Nat) (f : Phase → Phase) : (s.updPhase n f).leaks = s.leaks := rfl
@[simp] theorem State.updPhase_rd (n : Nat) (f : Phase → Phase) : (s.updPhase n f).rd = s.rd := rfl
@[simp] theorem State.updPhase_rdBytes (n : Nat) (f : Phase → Phase) : (s.updPhase n f).rdBytes = s.rdBytes := rfl
@[simp] theorem State.updPhase_draws (n : Nat) (f : Phase → Phase) : (s.updPhase n f).draws = s.draws := rfl

/-! ### `draw` -/

@[simp] theorem State.draw_pending : (s.draw).pending = s.pending := rfl
@[simp] theorem State.draw_cairn : (s.draw).cairn = s.cairn := rfl
@[simp] theorem State.draw_devState : (s.draw).devState = s.devState := rfl
@[simp] theorem State.draw_seq : (s.draw).seq = s.seq := rfl
@[simp] theorem State.draw_selfTest : (s.draw).selfTest = s.selfTest := rfl
@[simp] theorem State.draw_recoveries : (s.draw).recoveries = s.recoveries := rfl
@[simp] theorem State.draw_tiles : (s.draw).tiles = s.tiles := rfl
@[simp] theorem State.draw_graphs : (s.draw).graphs = s.graphs := rfl
@[simp] theorem State.draw_tracker : (s.draw).tracker = s.tracker := rfl
@[simp] theorem State.draw_planes : (s.draw).planes = s.planes := rfl
@[simp] theorem State.draw_fabric : (s.draw).fabric = s.fabric := rfl
@[simp] theorem State.draw_host : (s.draw).host = s.host := rfl
@[simp] theorem State.draw_regs : (s.draw).regs = s.regs := rfl
@[simp] theorem State.draw_mem : (s.draw).mem = s.mem := rfl
@[simp] theorem State.draw_power : (s.draw).power = s.power := rfl
@[simp] theorem State.draw_ledger : (s.draw).ledger = s.ledger := rfl
@[simp] theorem State.draw_fuses : (s.draw).fuses = s.fuses := rfl
@[simp] theorem State.draw_dump : (s.draw).dump = s.dump := rfl
@[simp] theorem State.draw_shutdown : (s.draw).shutdown = s.shutdown := rfl
@[simp] theorem State.draw_fw : (s.draw).fw = s.fw := rfl
@[simp] theorem State.draw_hotSwap : (s.draw).hotSwap = s.hotSwap := rfl
@[simp] theorem State.draw_mgmt : (s.draw).mgmt = s.mgmt := rfl
@[simp] theorem State.draw_monitor : (s.draw).monitor = s.monitor := rfl
@[simp] theorem State.draw_leaks : (s.draw).leaks = s.leaks := rfl
@[simp] theorem State.draw_rd : (s.draw).rd = s.rd := rfl
@[simp] theorem State.draw_rdBytes : (s.draw).rdBytes = s.rdBytes := rfl

/-! ### `advanceTo` -/

@[simp] theorem State.advanceTo_pending (t : Nat) : (s.advanceTo t).pending = s.pending := rfl
@[simp] theorem State.advanceTo_devState (t : Nat) : (s.advanceTo t).devState = s.devState := rfl
@[simp] theorem State.advanceTo_seq (t : Nat) : (s.advanceTo t).seq = s.seq := rfl
@[simp] theorem State.advanceTo_selfTest (t : Nat) : (s.advanceTo t).selfTest = s.selfTest := rfl
@[simp] theorem State.advanceTo_recoveries (t : Nat) : (s.advanceTo t).recoveries = s.recoveries := rfl
@[simp] theorem State.advanceTo_tiles (t : Nat) : (s.advanceTo t).tiles = s.tiles := rfl
@[simp] theorem State.advanceTo_graphs (t : Nat) : (s.advanceTo t).graphs = s.graphs := rfl
@[simp] theorem State.advanceTo_tracker (t : Nat) : (s.advanceTo t).tracker = s.tracker := rfl
@[simp] theorem State.advanceTo_planes (t : Nat) : (s.advanceTo t).planes = s.planes := rfl
@[simp] theorem State.advanceTo_fabric (t : Nat) : (s.advanceTo t).fabric = s.fabric := rfl
@[simp] theorem State.advanceTo_host (t : Nat) : (s.advanceTo t).host = s.host := rfl
@[simp] theorem State.advanceTo_regs (t : Nat) : (s.advanceTo t).regs = s.regs := rfl
@[simp] theorem State.advanceTo_mem (t : Nat) : (s.advanceTo t).mem = s.mem := rfl
@[simp] theorem State.advanceTo_power (t : Nat) : (s.advanceTo t).power = s.power := rfl
@[simp] theorem State.advanceTo_ledger (t : Nat) : (s.advanceTo t).ledger = s.ledger := rfl
@[simp] theorem State.advanceTo_fuses (t : Nat) : (s.advanceTo t).fuses = s.fuses := rfl
@[simp] theorem State.advanceTo_dump (t : Nat) : (s.advanceTo t).dump = s.dump := rfl
@[simp] theorem State.advanceTo_shutdown (t : Nat) : (s.advanceTo t).shutdown = s.shutdown := rfl
@[simp] theorem State.advanceTo_fw (t : Nat) : (s.advanceTo t).fw = s.fw := rfl
@[simp] theorem State.advanceTo_hotSwap (t : Nat) : (s.advanceTo t).hotSwap = s.hotSwap := rfl
@[simp] theorem State.advanceTo_mgmt (t : Nat) : (s.advanceTo t).mgmt = s.mgmt := rfl
@[simp] theorem State.advanceTo_monitor (t : Nat) : (s.advanceTo t).monitor = s.monitor := rfl
@[simp] theorem State.advanceTo_leaks (t : Nat) : (s.advanceTo t).leaks = s.leaks := rfl
@[simp] theorem State.advanceTo_rd (t : Nat) : (s.advanceTo t).rd = s.rd := rfl
@[simp] theorem State.advanceTo_rdBytes (t : Nat) : (s.advanceTo t).rdBytes = s.rdBytes := rfl
@[simp] theorem State.advanceTo_draws (t : Nat) : (s.advanceTo t).draws = s.draws := rfl

/-! ### `alert` -/

@[simp] theorem State.alert_pending (b : Nat) : (s.alert b).pending = s.pending := rfl
@[simp] theorem State.alert_cairn (b : Nat) : (s.alert b).cairn = s.cairn := rfl
@[simp] theorem State.alert_devState (b : Nat) : (s.alert b).devState = s.devState := rfl
@[simp] theorem State.alert_seq (b : Nat) : (s.alert b).seq = s.seq := rfl
@[simp] theorem State.alert_selfTest (b : Nat) : (s.alert b).selfTest = s.selfTest := rfl
@[simp] theorem State.alert_recoveries (b : Nat) : (s.alert b).recoveries = s.recoveries := rfl
@[simp] theorem State.alert_tiles (b : Nat) : (s.alert b).tiles = s.tiles := rfl
@[simp] theorem State.alert_graphs (b : Nat) : (s.alert b).graphs = s.graphs := rfl
@[simp] theorem State.alert_tracker (b : Nat) : (s.alert b).tracker = s.tracker := rfl
@[simp] theorem State.alert_planes (b : Nat) : (s.alert b).planes = s.planes := rfl
@[simp] theorem State.alert_fabric (b : Nat) : (s.alert b).fabric = s.fabric := rfl
@[simp] theorem State.alert_host (b : Nat) : (s.alert b).host = s.host := rfl
@[simp] theorem State.alert_regs (b : Nat) : (s.alert b).regs = s.regs := rfl
@[simp] theorem State.alert_mem (b : Nat) : (s.alert b).mem = s.mem := rfl
@[simp] theorem State.alert_power (b : Nat) : (s.alert b).power = s.power := rfl
@[simp] theorem State.alert_ledger (b : Nat) : (s.alert b).ledger = s.ledger := rfl
@[simp] theorem State.alert_fuses (b : Nat) : (s.alert b).fuses = s.fuses := rfl
@[simp] theorem State.alert_dump (b : Nat) : (s.alert b).dump = s.dump := rfl
@[simp] theorem State.alert_shutdown (b : Nat) : (s.alert b).shutdown = s.shutdown := rfl
@[simp] theorem State.alert_fw (b : Nat) : (s.alert b).fw = s.fw := rfl
@[simp] theorem State.alert_hotSwap (b : Nat) : (s.alert b).hotSwap = s.hotSwap := rfl
@[simp] theorem State.alert_monitor (b : Nat) : (s.alert b).monitor = s.monitor := rfl
@[simp] theorem State.alert_leaks (b : Nat) : (s.alert b).leaks = s.leaks := rfl
@[simp] theorem State.alert_rd (b : Nat) : (s.alert b).rd = s.rd := rfl
@[simp] theorem State.alert_rdBytes (b : Nat) : (s.alert b).rdBytes = s.rdBytes := rfl
@[simp] theorem State.alert_draws (b : Nat) : (s.alert b).draws = s.draws := rfl

/-! ### `driveAttn` -/

@[simp] theorem State.driveAttn_pending : (s.driveAttn).pending = s.pending := rfl
@[simp] theorem State.driveAttn_cairn : (s.driveAttn).cairn = s.cairn := rfl
@[simp] theorem State.driveAttn_devState : (s.driveAttn).devState = s.devState := rfl
@[simp] theorem State.driveAttn_seq : (s.driveAttn).seq = s.seq := rfl
@[simp] theorem State.driveAttn_selfTest : (s.driveAttn).selfTest = s.selfTest := rfl
@[simp] theorem State.driveAttn_recoveries : (s.driveAttn).recoveries = s.recoveries := rfl
@[simp] theorem State.driveAttn_tiles : (s.driveAttn).tiles = s.tiles := rfl
@[simp] theorem State.driveAttn_graphs : (s.driveAttn).graphs = s.graphs := rfl
@[simp] theorem State.driveAttn_tracker : (s.driveAttn).tracker = s.tracker := rfl
@[simp] theorem State.driveAttn_planes : (s.driveAttn).planes = s.planes := rfl
@[simp] theorem State.driveAttn_fabric : (s.driveAttn).fabric = s.fabric := rfl
@[simp] theorem State.driveAttn_host : (s.driveAttn).host = s.host := rfl
@[simp] theorem State.driveAttn_regs : (s.driveAttn).regs = s.regs := rfl
@[simp] theorem State.driveAttn_mem : (s.driveAttn).mem = s.mem := rfl
@[simp] theorem State.driveAttn_power : (s.driveAttn).power = s.power := rfl
@[simp] theorem State.driveAttn_ledger : (s.driveAttn).ledger = s.ledger := rfl
@[simp] theorem State.driveAttn_fuses : (s.driveAttn).fuses = s.fuses := rfl
@[simp] theorem State.driveAttn_dump : (s.driveAttn).dump = s.dump := rfl
@[simp] theorem State.driveAttn_shutdown : (s.driveAttn).shutdown = s.shutdown := rfl
@[simp] theorem State.driveAttn_fw : (s.driveAttn).fw = s.fw := rfl
@[simp] theorem State.driveAttn_mgmt : (s.driveAttn).mgmt = s.mgmt := rfl
@[simp] theorem State.driveAttn_monitor : (s.driveAttn).monitor = s.monitor := rfl
@[simp] theorem State.driveAttn_leaks : (s.driveAttn).leaks = s.leaks := rfl
@[simp] theorem State.driveAttn_rd : (s.driveAttn).rd = s.rd := rfl
@[simp] theorem State.driveAttn_rdBytes : (s.driveAttn).rdBytes = s.rdBytes := rfl
@[simp] theorem State.driveAttn_draws : (s.driveAttn).draws = s.draws := rfl

/-! ### `ledgerEvent` -/

@[simp] theorem State.ledgerEvent_pending (c x y z : Nat) : (s.ledgerEvent c x y z).pending = s.pending := rfl
@[simp] theorem State.ledgerEvent_cairn (c x y z : Nat) : (s.ledgerEvent c x y z).cairn = s.cairn := rfl
@[simp] theorem State.ledgerEvent_devState (c x y z : Nat) : (s.ledgerEvent c x y z).devState = s.devState := rfl
@[simp] theorem State.ledgerEvent_seq (c x y z : Nat) : (s.ledgerEvent c x y z).seq = s.seq := rfl
@[simp] theorem State.ledgerEvent_selfTest (c x y z : Nat) : (s.ledgerEvent c x y z).selfTest = s.selfTest := rfl
@[simp] theorem State.ledgerEvent_recoveries (c x y z : Nat) : (s.ledgerEvent c x y z).recoveries = s.recoveries := rfl
@[simp] theorem State.ledgerEvent_tiles (c x y z : Nat) : (s.ledgerEvent c x y z).tiles = s.tiles := rfl
@[simp] theorem State.ledgerEvent_graphs (c x y z : Nat) : (s.ledgerEvent c x y z).graphs = s.graphs := rfl
@[simp] theorem State.ledgerEvent_tracker (c x y z : Nat) : (s.ledgerEvent c x y z).tracker = s.tracker := rfl
@[simp] theorem State.ledgerEvent_planes (c x y z : Nat) : (s.ledgerEvent c x y z).planes = s.planes := rfl
@[simp] theorem State.ledgerEvent_fabric (c x y z : Nat) : (s.ledgerEvent c x y z).fabric = s.fabric := rfl
@[simp] theorem State.ledgerEvent_host (c x y z : Nat) : (s.ledgerEvent c x y z).host = s.host := rfl
@[simp] theorem State.ledgerEvent_regs (c x y z : Nat) : (s.ledgerEvent c x y z).regs = s.regs := rfl
@[simp] theorem State.ledgerEvent_mem (c x y z : Nat) : (s.ledgerEvent c x y z).mem = s.mem := rfl
@[simp] theorem State.ledgerEvent_power (c x y z : Nat) : (s.ledgerEvent c x y z).power = s.power := rfl
@[simp] theorem State.ledgerEvent_fuses (c x y z : Nat) : (s.ledgerEvent c x y z).fuses = s.fuses := rfl
@[simp] theorem State.ledgerEvent_dump (c x y z : Nat) : (s.ledgerEvent c x y z).dump = s.dump := rfl
@[simp] theorem State.ledgerEvent_shutdown (c x y z : Nat) : (s.ledgerEvent c x y z).shutdown = s.shutdown := rfl
@[simp] theorem State.ledgerEvent_fw (c x y z : Nat) : (s.ledgerEvent c x y z).fw = s.fw := rfl
@[simp] theorem State.ledgerEvent_hotSwap (c x y z : Nat) : (s.ledgerEvent c x y z).hotSwap = s.hotSwap := rfl
@[simp] theorem State.ledgerEvent_mgmt (c x y z : Nat) : (s.ledgerEvent c x y z).mgmt = s.mgmt := rfl
@[simp] theorem State.ledgerEvent_monitor (c x y z : Nat) : (s.ledgerEvent c x y z).monitor = s.monitor := rfl
@[simp] theorem State.ledgerEvent_leaks (c x y z : Nat) : (s.ledgerEvent c x y z).leaks = s.leaks := rfl
@[simp] theorem State.ledgerEvent_rd (c x y z : Nat) : (s.ledgerEvent c x y z).rd = s.rd := rfl
@[simp] theorem State.ledgerEvent_rdBytes (c x y z : Nat) : (s.ledgerEvent c x y z).rdBytes = s.rdBytes := rfl
@[simp] theorem State.ledgerEvent_draws (c x y z : Nat) : (s.ledgerEvent c x y z).draws = s.draws := rfl

/-! ### `setSpace` -/

@[simp] theorem State.setSpace_pending (sp : Nat) (m : Memory) : (s.setSpace sp m).pending = s.pending := by
  unfold State.setSpace; split <;> rfl
@[simp] theorem State.setSpace_cairn (sp : Nat) (m : Memory) : (s.setSpace sp m).cairn = s.cairn := by
  unfold State.setSpace; split <;> rfl
@[simp] theorem State.setSpace_devState (sp : Nat) (m : Memory) : (s.setSpace sp m).devState = s.devState := by
  unfold State.setSpace; split <;> rfl
@[simp] theorem State.setSpace_seq (sp : Nat) (m : Memory) : (s.setSpace sp m).seq = s.seq := by
  unfold State.setSpace; split <;> rfl
@[simp] theorem State.setSpace_selfTest (sp : Nat) (m : Memory) : (s.setSpace sp m).selfTest = s.selfTest := by
  unfold State.setSpace; split <;> rfl
@[simp] theorem State.setSpace_recoveries (sp : Nat) (m : Memory) : (s.setSpace sp m).recoveries = s.recoveries := by
  unfold State.setSpace; split <;> rfl
@[simp] theorem State.setSpace_tiles (sp : Nat) (m : Memory) : (s.setSpace sp m).tiles = s.tiles := by
  unfold State.setSpace; split <;> rfl
@[simp] theorem State.setSpace_graphs (sp : Nat) (m : Memory) : (s.setSpace sp m).graphs = s.graphs := by
  unfold State.setSpace; split <;> rfl
@[simp] theorem State.setSpace_tracker (sp : Nat) (m : Memory) : (s.setSpace sp m).tracker = s.tracker := by
  unfold State.setSpace; split <;> rfl
@[simp] theorem State.setSpace_planes (sp : Nat) (m : Memory) : (s.setSpace sp m).planes = s.planes := by
  unfold State.setSpace; split <;> rfl
@[simp] theorem State.setSpace_fabric (sp : Nat) (m : Memory) : (s.setSpace sp m).fabric = s.fabric := by
  unfold State.setSpace; split <;> rfl
@[simp] theorem State.setSpace_host (sp : Nat) (m : Memory) : (s.setSpace sp m).host = s.host := by
  unfold State.setSpace; split <;> rfl
@[simp] theorem State.setSpace_regs (sp : Nat) (m : Memory) : (s.setSpace sp m).regs = s.regs := by
  unfold State.setSpace; split <;> rfl
@[simp] theorem State.setSpace_power (sp : Nat) (m : Memory) : (s.setSpace sp m).power = s.power := by
  unfold State.setSpace; split <;> rfl
@[simp] theorem State.setSpace_ledger (sp : Nat) (m : Memory) : (s.setSpace sp m).ledger = s.ledger := by
  unfold State.setSpace; split <;> rfl
@[simp] theorem State.setSpace_fuses (sp : Nat) (m : Memory) : (s.setSpace sp m).fuses = s.fuses := by
  unfold State.setSpace; split <;> rfl
@[simp] theorem State.setSpace_dump (sp : Nat) (m : Memory) : (s.setSpace sp m).dump = s.dump := by
  unfold State.setSpace; split <;> rfl
@[simp] theorem State.setSpace_shutdown (sp : Nat) (m : Memory) : (s.setSpace sp m).shutdown = s.shutdown := by
  unfold State.setSpace; split <;> rfl
@[simp] theorem State.setSpace_fw (sp : Nat) (m : Memory) : (s.setSpace sp m).fw = s.fw := by
  unfold State.setSpace; split <;> rfl
@[simp] theorem State.setSpace_hotSwap (sp : Nat) (m : Memory) : (s.setSpace sp m).hotSwap = s.hotSwap := by
  unfold State.setSpace; split <;> rfl
@[simp] theorem State.setSpace_mgmt (sp : Nat) (m : Memory) : (s.setSpace sp m).mgmt = s.mgmt := by
  unfold State.setSpace; split <;> rfl
@[simp] theorem State.setSpace_monitor (sp : Nat) (m : Memory) : (s.setSpace sp m).monitor = s.monitor := by
  unfold State.setSpace; split <;> rfl
@[simp] theorem State.setSpace_leaks (sp : Nat) (m : Memory) : (s.setSpace sp m).leaks = s.leaks := by
  unfold State.setSpace; split <;> rfl
@[simp] theorem State.setSpace_rd (sp : Nat) (m : Memory) : (s.setSpace sp m).rd = s.rd := by
  unfold State.setSpace; split <;> rfl
@[simp] theorem State.setSpace_rdBytes (sp : Nat) (m : Memory) : (s.setSpace sp m).rdBytes = s.rdBytes := by
  unfold State.setSpace; split <;> rfl
@[simp] theorem State.setSpace_draws (sp : Nat) (m : Memory) : (s.setSpace sp m).draws = s.draws := by
  unfold State.setSpace; split <;> rfl

/-! ### `writeBytes` -/

@[simp] theorem State.writeBytes_pending (sp a : Nat) (bs : List Byte) : (s.writeBytes sp a bs).pending = s.pending := by simp [State.writeBytes]
@[simp] theorem State.writeBytes_cairn (sp a : Nat) (bs : List Byte) : (s.writeBytes sp a bs).cairn = s.cairn := by simp [State.writeBytes]
@[simp] theorem State.writeBytes_devState (sp a : Nat) (bs : List Byte) : (s.writeBytes sp a bs).devState = s.devState := by simp [State.writeBytes]
@[simp] theorem State.writeBytes_seq (sp a : Nat) (bs : List Byte) : (s.writeBytes sp a bs).seq = s.seq := by simp [State.writeBytes]
@[simp] theorem State.writeBytes_selfTest (sp a : Nat) (bs : List Byte) : (s.writeBytes sp a bs).selfTest = s.selfTest := by simp [State.writeBytes]
@[simp] theorem State.writeBytes_recoveries (sp a : Nat) (bs : List Byte) : (s.writeBytes sp a bs).recoveries = s.recoveries := by simp [State.writeBytes]
@[simp] theorem State.writeBytes_tiles (sp a : Nat) (bs : List Byte) : (s.writeBytes sp a bs).tiles = s.tiles := by simp [State.writeBytes]
@[simp] theorem State.writeBytes_graphs (sp a : Nat) (bs : List Byte) : (s.writeBytes sp a bs).graphs = s.graphs := by simp [State.writeBytes]
@[simp] theorem State.writeBytes_tracker (sp a : Nat) (bs : List Byte) : (s.writeBytes sp a bs).tracker = s.tracker := by simp [State.writeBytes]
@[simp] theorem State.writeBytes_planes (sp a : Nat) (bs : List Byte) : (s.writeBytes sp a bs).planes = s.planes := by simp [State.writeBytes]
@[simp] theorem State.writeBytes_fabric (sp a : Nat) (bs : List Byte) : (s.writeBytes sp a bs).fabric = s.fabric := by simp [State.writeBytes]
@[simp] theorem State.writeBytes_host (sp a : Nat) (bs : List Byte) : (s.writeBytes sp a bs).host = s.host := by simp [State.writeBytes]
@[simp] theorem State.writeBytes_regs (sp a : Nat) (bs : List Byte) : (s.writeBytes sp a bs).regs = s.regs := by simp [State.writeBytes]
@[simp] theorem State.writeBytes_power (sp a : Nat) (bs : List Byte) : (s.writeBytes sp a bs).power = s.power := by simp [State.writeBytes]
@[simp] theorem State.writeBytes_ledger (sp a : Nat) (bs : List Byte) : (s.writeBytes sp a bs).ledger = s.ledger := by simp [State.writeBytes]
@[simp] theorem State.writeBytes_fuses (sp a : Nat) (bs : List Byte) : (s.writeBytes sp a bs).fuses = s.fuses := by simp [State.writeBytes]
@[simp] theorem State.writeBytes_dump (sp a : Nat) (bs : List Byte) : (s.writeBytes sp a bs).dump = s.dump := by simp [State.writeBytes]
@[simp] theorem State.writeBytes_shutdown (sp a : Nat) (bs : List Byte) : (s.writeBytes sp a bs).shutdown = s.shutdown := by simp [State.writeBytes]
@[simp] theorem State.writeBytes_fw (sp a : Nat) (bs : List Byte) : (s.writeBytes sp a bs).fw = s.fw := by simp [State.writeBytes]
@[simp] theorem State.writeBytes_hotSwap (sp a : Nat) (bs : List Byte) : (s.writeBytes sp a bs).hotSwap = s.hotSwap := by simp [State.writeBytes]
@[simp] theorem State.writeBytes_mgmt (sp a : Nat) (bs : List Byte) : (s.writeBytes sp a bs).mgmt = s.mgmt := by simp [State.writeBytes]
@[simp] theorem State.writeBytes_monitor (sp a : Nat) (bs : List Byte) : (s.writeBytes sp a bs).monitor = s.monitor := by simp [State.writeBytes]
@[simp] theorem State.writeBytes_leaks (sp a : Nat) (bs : List Byte) : (s.writeBytes sp a bs).leaks = s.leaks := by simp [State.writeBytes]
@[simp] theorem State.writeBytes_rd (sp a : Nat) (bs : List Byte) : (s.writeBytes sp a bs).rd = s.rd := by simp [State.writeBytes]
@[simp] theorem State.writeBytes_rdBytes (sp a : Nat) (bs : List Byte) : (s.writeBytes sp a bs).rdBytes = s.rdBytes := by simp [State.writeBytes]
@[simp] theorem State.writeBytes_draws (sp a : Nat) (bs : List Byte) : (s.writeBytes sp a bs).draws = s.draws := by simp [State.writeBytes]

/-! ### `setPoison` -/

@[simp] theorem State.setPoison_pending (sp l : Nat) (on : Bool) : (s.setPoison sp l on).pending = s.pending := by simp [State.setPoison]
@[simp] theorem State.setPoison_cairn (sp l : Nat) (on : Bool) : (s.setPoison sp l on).cairn = s.cairn := by simp [State.setPoison]
@[simp] theorem State.setPoison_devState (sp l : Nat) (on : Bool) : (s.setPoison sp l on).devState = s.devState := by simp [State.setPoison]
@[simp] theorem State.setPoison_seq (sp l : Nat) (on : Bool) : (s.setPoison sp l on).seq = s.seq := by simp [State.setPoison]
@[simp] theorem State.setPoison_selfTest (sp l : Nat) (on : Bool) : (s.setPoison sp l on).selfTest = s.selfTest := by simp [State.setPoison]
@[simp] theorem State.setPoison_recoveries (sp l : Nat) (on : Bool) : (s.setPoison sp l on).recoveries = s.recoveries := by simp [State.setPoison]
@[simp] theorem State.setPoison_tiles (sp l : Nat) (on : Bool) : (s.setPoison sp l on).tiles = s.tiles := by simp [State.setPoison]
@[simp] theorem State.setPoison_graphs (sp l : Nat) (on : Bool) : (s.setPoison sp l on).graphs = s.graphs := by simp [State.setPoison]
@[simp] theorem State.setPoison_tracker (sp l : Nat) (on : Bool) : (s.setPoison sp l on).tracker = s.tracker := by simp [State.setPoison]
@[simp] theorem State.setPoison_planes (sp l : Nat) (on : Bool) : (s.setPoison sp l on).planes = s.planes := by simp [State.setPoison]
@[simp] theorem State.setPoison_fabric (sp l : Nat) (on : Bool) : (s.setPoison sp l on).fabric = s.fabric := by simp [State.setPoison]
@[simp] theorem State.setPoison_host (sp l : Nat) (on : Bool) : (s.setPoison sp l on).host = s.host := by simp [State.setPoison]
@[simp] theorem State.setPoison_regs (sp l : Nat) (on : Bool) : (s.setPoison sp l on).regs = s.regs := by simp [State.setPoison]
@[simp] theorem State.setPoison_power (sp l : Nat) (on : Bool) : (s.setPoison sp l on).power = s.power := by simp [State.setPoison]
@[simp] theorem State.setPoison_ledger (sp l : Nat) (on : Bool) : (s.setPoison sp l on).ledger = s.ledger := by simp [State.setPoison]
@[simp] theorem State.setPoison_fuses (sp l : Nat) (on : Bool) : (s.setPoison sp l on).fuses = s.fuses := by simp [State.setPoison]
@[simp] theorem State.setPoison_dump (sp l : Nat) (on : Bool) : (s.setPoison sp l on).dump = s.dump := by simp [State.setPoison]
@[simp] theorem State.setPoison_shutdown (sp l : Nat) (on : Bool) : (s.setPoison sp l on).shutdown = s.shutdown := by simp [State.setPoison]
@[simp] theorem State.setPoison_fw (sp l : Nat) (on : Bool) : (s.setPoison sp l on).fw = s.fw := by simp [State.setPoison]
@[simp] theorem State.setPoison_hotSwap (sp l : Nat) (on : Bool) : (s.setPoison sp l on).hotSwap = s.hotSwap := by simp [State.setPoison]
@[simp] theorem State.setPoison_mgmt (sp l : Nat) (on : Bool) : (s.setPoison sp l on).mgmt = s.mgmt := by simp [State.setPoison]
@[simp] theorem State.setPoison_monitor (sp l : Nat) (on : Bool) : (s.setPoison sp l on).monitor = s.monitor := by simp [State.setPoison]
@[simp] theorem State.setPoison_leaks (sp l : Nat) (on : Bool) : (s.setPoison sp l on).leaks = s.leaks := by simp [State.setPoison]
@[simp] theorem State.setPoison_rd (sp l : Nat) (on : Bool) : (s.setPoison sp l on).rd = s.rd := by simp [State.setPoison]
@[simp] theorem State.setPoison_rdBytes (sp l : Nat) (on : Bool) : (s.setPoison sp l on).rdBytes = s.rdBytes := by simp [State.setPoison]
@[simp] theorem State.setPoison_draws (sp l : Nat) (on : Bool) : (s.setPoison sp l on).draws = s.draws := by simp [State.setPoison]

/-! ### `hostWrite` -/

@[simp] theorem State.hostWrite_pending (a : Nat) (bs : List Byte) : (s.hostWrite a bs).pending = s.pending := by
  unfold State.hostWrite; split <;> rfl
@[simp] theorem State.hostWrite_cairn (a : Nat) (bs : List Byte) : (s.hostWrite a bs).cairn = s.cairn := by
  unfold State.hostWrite; split <;> rfl
@[simp] theorem State.hostWrite_devState (a : Nat) (bs : List Byte) : (s.hostWrite a bs).devState = s.devState := by
  unfold State.hostWrite; split <;> rfl
@[simp] theorem State.hostWrite_seq (a : Nat) (bs : List Byte) : (s.hostWrite a bs).seq = s.seq := by
  unfold State.hostWrite; split <;> rfl
@[simp] theorem State.hostWrite_selfTest (a : Nat) (bs : List Byte) : (s.hostWrite a bs).selfTest = s.selfTest := by
  unfold State.hostWrite; split <;> rfl
@[simp] theorem State.hostWrite_recoveries (a : Nat) (bs : List Byte) : (s.hostWrite a bs).recoveries = s.recoveries := by
  unfold State.hostWrite; split <;> rfl
@[simp] theorem State.hostWrite_tiles (a : Nat) (bs : List Byte) : (s.hostWrite a bs).tiles = s.tiles := by
  unfold State.hostWrite; split <;> rfl
@[simp] theorem State.hostWrite_graphs (a : Nat) (bs : List Byte) : (s.hostWrite a bs).graphs = s.graphs := by
  unfold State.hostWrite; split <;> rfl
@[simp] theorem State.hostWrite_tracker (a : Nat) (bs : List Byte) : (s.hostWrite a bs).tracker = s.tracker := by
  unfold State.hostWrite; split <;> rfl
@[simp] theorem State.hostWrite_planes (a : Nat) (bs : List Byte) : (s.hostWrite a bs).planes = s.planes := by
  unfold State.hostWrite; split <;> rfl
@[simp] theorem State.hostWrite_fabric (a : Nat) (bs : List Byte) : (s.hostWrite a bs).fabric = s.fabric := by
  unfold State.hostWrite; split <;> rfl
@[simp] theorem State.hostWrite_regs (a : Nat) (bs : List Byte) : (s.hostWrite a bs).regs = s.regs := by
  unfold State.hostWrite; split <;> rfl
@[simp] theorem State.hostWrite_mem (a : Nat) (bs : List Byte) : (s.hostWrite a bs).mem = s.mem := by
  unfold State.hostWrite; split <;> rfl
@[simp] theorem State.hostWrite_power (a : Nat) (bs : List Byte) : (s.hostWrite a bs).power = s.power := by
  unfold State.hostWrite; split <;> rfl
@[simp] theorem State.hostWrite_ledger (a : Nat) (bs : List Byte) : (s.hostWrite a bs).ledger = s.ledger := by
  unfold State.hostWrite; split <;> rfl
@[simp] theorem State.hostWrite_fuses (a : Nat) (bs : List Byte) : (s.hostWrite a bs).fuses = s.fuses := by
  unfold State.hostWrite; split <;> rfl
@[simp] theorem State.hostWrite_dump (a : Nat) (bs : List Byte) : (s.hostWrite a bs).dump = s.dump := by
  unfold State.hostWrite; split <;> rfl
@[simp] theorem State.hostWrite_shutdown (a : Nat) (bs : List Byte) : (s.hostWrite a bs).shutdown = s.shutdown := by
  unfold State.hostWrite; split <;> rfl
@[simp] theorem State.hostWrite_fw (a : Nat) (bs : List Byte) : (s.hostWrite a bs).fw = s.fw := by
  unfold State.hostWrite; split <;> rfl
@[simp] theorem State.hostWrite_hotSwap (a : Nat) (bs : List Byte) : (s.hostWrite a bs).hotSwap = s.hotSwap := by
  unfold State.hostWrite; split <;> rfl
@[simp] theorem State.hostWrite_mgmt (a : Nat) (bs : List Byte) : (s.hostWrite a bs).mgmt = s.mgmt := by
  unfold State.hostWrite; split <;> rfl
@[simp] theorem State.hostWrite_monitor (a : Nat) (bs : List Byte) : (s.hostWrite a bs).monitor = s.monitor := by
  unfold State.hostWrite; split <;> rfl
@[simp] theorem State.hostWrite_leaks (a : Nat) (bs : List Byte) : (s.hostWrite a bs).leaks = s.leaks := by
  unfold State.hostWrite; split <;> rfl
@[simp] theorem State.hostWrite_rd (a : Nat) (bs : List Byte) : (s.hostWrite a bs).rd = s.rd := by
  unfold State.hostWrite; split <;> rfl
@[simp] theorem State.hostWrite_rdBytes (a : Nat) (bs : List Byte) : (s.hostWrite a bs).rdBytes = s.rdBytes := by
  unfold State.hostWrite; split <;> rfl
@[simp] theorem State.hostWrite_draws (a : Nat) (bs : List Byte) : (s.hostWrite a bs).draws = s.draws := by
  unfold State.hostWrite; split <;> rfl

/-! ### `signal` -/

@[simp] theorem State.signal_pending (v : Nat) : (s.signal v).pending = s.pending := by
  unfold State.signal; split
  · rfl
  · split
    · rfl
    · split <;> rfl
@[simp] theorem State.signal_cairn (v : Nat) : (s.signal v).cairn = s.cairn := by
  unfold State.signal; split
  · rfl
  · split
    · rfl
    · split <;> rfl
@[simp] theorem State.signal_devState (v : Nat) : (s.signal v).devState = s.devState := by
  unfold State.signal; split
  · rfl
  · split
    · rfl
    · split <;> rfl
@[simp] theorem State.signal_seq (v : Nat) : (s.signal v).seq = s.seq := by
  unfold State.signal; split
  · rfl
  · split
    · rfl
    · split <;> rfl
@[simp] theorem State.signal_selfTest (v : Nat) : (s.signal v).selfTest = s.selfTest := by
  unfold State.signal; split
  · rfl
  · split
    · rfl
    · split <;> rfl
@[simp] theorem State.signal_recoveries (v : Nat) : (s.signal v).recoveries = s.recoveries := by
  unfold State.signal; split
  · rfl
  · split
    · rfl
    · split <;> rfl
@[simp] theorem State.signal_tiles (v : Nat) : (s.signal v).tiles = s.tiles := by
  unfold State.signal; split
  · rfl
  · split
    · rfl
    · split <;> rfl
@[simp] theorem State.signal_graphs (v : Nat) : (s.signal v).graphs = s.graphs := by
  unfold State.signal; split
  · rfl
  · split
    · rfl
    · split <;> rfl
@[simp] theorem State.signal_tracker (v : Nat) : (s.signal v).tracker = s.tracker := by
  unfold State.signal; split
  · rfl
  · split
    · rfl
    · split <;> rfl
@[simp] theorem State.signal_planes (v : Nat) : (s.signal v).planes = s.planes := by
  unfold State.signal; split
  · rfl
  · split
    · rfl
    · split <;> rfl
@[simp] theorem State.signal_fabric (v : Nat) : (s.signal v).fabric = s.fabric := by
  unfold State.signal; split
  · rfl
  · split
    · rfl
    · split <;> rfl
@[simp] theorem State.signal_regs (v : Nat) : (s.signal v).regs = s.regs := by
  unfold State.signal; split
  · rfl
  · split
    · rfl
    · split <;> rfl
@[simp] theorem State.signal_mem (v : Nat) : (s.signal v).mem = s.mem := by
  unfold State.signal; split
  · rfl
  · split
    · rfl
    · split <;> rfl
@[simp] theorem State.signal_power (v : Nat) : (s.signal v).power = s.power := by
  unfold State.signal; split
  · rfl
  · split
    · rfl
    · split <;> rfl
@[simp] theorem State.signal_ledger (v : Nat) : (s.signal v).ledger = s.ledger := by
  unfold State.signal; split
  · rfl
  · split
    · rfl
    · split <;> rfl
@[simp] theorem State.signal_fuses (v : Nat) : (s.signal v).fuses = s.fuses := by
  unfold State.signal; split
  · rfl
  · split
    · rfl
    · split <;> rfl
@[simp] theorem State.signal_dump (v : Nat) : (s.signal v).dump = s.dump := by
  unfold State.signal; split
  · rfl
  · split
    · rfl
    · split <;> rfl
@[simp] theorem State.signal_shutdown (v : Nat) : (s.signal v).shutdown = s.shutdown := by
  unfold State.signal; split
  · rfl
  · split
    · rfl
    · split <;> rfl
@[simp] theorem State.signal_fw (v : Nat) : (s.signal v).fw = s.fw := by
  unfold State.signal; split
  · rfl
  · split
    · rfl
    · split <;> rfl
@[simp] theorem State.signal_hotSwap (v : Nat) : (s.signal v).hotSwap = s.hotSwap := by
  unfold State.signal; split
  · rfl
  · split
    · rfl
    · split <;> rfl
@[simp] theorem State.signal_mgmt (v : Nat) : (s.signal v).mgmt = s.mgmt := by
  unfold State.signal; split
  · rfl
  · split
    · rfl
    · split <;> rfl
@[simp] theorem State.signal_monitor (v : Nat) : (s.signal v).monitor = s.monitor := by
  unfold State.signal; split
  · rfl
  · split
    · rfl
    · split <;> rfl
@[simp] theorem State.signal_leaks (v : Nat) : (s.signal v).leaks = s.leaks := by
  unfold State.signal; split
  · rfl
  · split
    · rfl
    · split <;> rfl
@[simp] theorem State.signal_rd (v : Nat) : (s.signal v).rd = s.rd := by
  unfold State.signal; split
  · rfl
  · split
    · rfl
    · split <;> rfl
@[simp] theorem State.signal_rdBytes (v : Nat) : (s.signal v).rdBytes = s.rdBytes := by
  unfold State.signal; split
  · rfl
  · split
    · rfl
    · split <;> rfl
@[simp] theorem State.signal_draws (v : Nat) : (s.signal v).draws = s.draws := by
  unfold State.signal; split
  · rfl
  · split
    · rfl
    · split <;> rfl

/-! ### `writeRec` -/

@[simp] theorem State.writeRec_pending (q : Nat) (r : Rec) : (s.writeRec q r).pending = s.pending := by simp [State.writeRec]
@[simp] theorem State.writeRec_cairn (q : Nat) (r : Rec) : (s.writeRec q r).cairn = s.cairn := by simp [State.writeRec]
@[simp] theorem State.writeRec_devState (q : Nat) (r : Rec) : (s.writeRec q r).devState = s.devState := by simp [State.writeRec]
@[simp] theorem State.writeRec_seq (q : Nat) (r : Rec) : (s.writeRec q r).seq = s.seq := by simp [State.writeRec]
@[simp] theorem State.writeRec_selfTest (q : Nat) (r : Rec) : (s.writeRec q r).selfTest = s.selfTest := by simp [State.writeRec]
@[simp] theorem State.writeRec_recoveries (q : Nat) (r : Rec) : (s.writeRec q r).recoveries = s.recoveries := by simp [State.writeRec]
@[simp] theorem State.writeRec_tiles (q : Nat) (r : Rec) : (s.writeRec q r).tiles = s.tiles := by simp [State.writeRec]
@[simp] theorem State.writeRec_graphs (q : Nat) (r : Rec) : (s.writeRec q r).graphs = s.graphs := by simp [State.writeRec]
@[simp] theorem State.writeRec_tracker (q : Nat) (r : Rec) : (s.writeRec q r).tracker = s.tracker := by simp [State.writeRec]
@[simp] theorem State.writeRec_planes (q : Nat) (r : Rec) : (s.writeRec q r).planes = s.planes := by simp [State.writeRec]
@[simp] theorem State.writeRec_fabric (q : Nat) (r : Rec) : (s.writeRec q r).fabric = s.fabric := by simp [State.writeRec]
@[simp] theorem State.writeRec_regs (q : Nat) (r : Rec) : (s.writeRec q r).regs = s.regs := by simp [State.writeRec]
@[simp] theorem State.writeRec_mem (q : Nat) (r : Rec) : (s.writeRec q r).mem = s.mem := by simp [State.writeRec]
@[simp] theorem State.writeRec_power (q : Nat) (r : Rec) : (s.writeRec q r).power = s.power := by simp [State.writeRec]
@[simp] theorem State.writeRec_ledger (q : Nat) (r : Rec) : (s.writeRec q r).ledger = s.ledger := by simp [State.writeRec]
@[simp] theorem State.writeRec_fuses (q : Nat) (r : Rec) : (s.writeRec q r).fuses = s.fuses := by simp [State.writeRec]
@[simp] theorem State.writeRec_dump (q : Nat) (r : Rec) : (s.writeRec q r).dump = s.dump := by simp [State.writeRec]
@[simp] theorem State.writeRec_shutdown (q : Nat) (r : Rec) : (s.writeRec q r).shutdown = s.shutdown := by simp [State.writeRec]
@[simp] theorem State.writeRec_fw (q : Nat) (r : Rec) : (s.writeRec q r).fw = s.fw := by simp [State.writeRec]
@[simp] theorem State.writeRec_hotSwap (q : Nat) (r : Rec) : (s.writeRec q r).hotSwap = s.hotSwap := by simp [State.writeRec]
@[simp] theorem State.writeRec_mgmt (q : Nat) (r : Rec) : (s.writeRec q r).mgmt = s.mgmt := by simp [State.writeRec]
@[simp] theorem State.writeRec_monitor (q : Nat) (r : Rec) : (s.writeRec q r).monitor = s.monitor := by simp [State.writeRec]
@[simp] theorem State.writeRec_leaks (q : Nat) (r : Rec) : (s.writeRec q r).leaks = s.leaks := by simp [State.writeRec]
@[simp] theorem State.writeRec_rd (q : Nat) (r : Rec) : (s.writeRec q r).rd = s.rd := by simp [State.writeRec]
@[simp] theorem State.writeRec_rdBytes (q : Nat) (r : Rec) : (s.writeRec q r).rdBytes = s.rdBytes := by simp [State.writeRec]
@[simp] theorem State.writeRec_draws (q : Nat) (r : Rec) : (s.writeRec q r).draws = s.draws := by simp [State.writeRec]

/-! ### `notice` -/

@[simp] theorem State.notice_pending (q : Nat) (r : Rec) : (s.notice q r).pending = s.pending := by
  unfold State.notice; split <;> simp
@[simp] theorem State.notice_cairn (q : Nat) (r : Rec) : (s.notice q r).cairn = s.cairn := by
  unfold State.notice; split <;> simp
@[simp] theorem State.notice_devState (q : Nat) (r : Rec) : (s.notice q r).devState = s.devState := by
  unfold State.notice; split <;> simp
@[simp] theorem State.notice_seq (q : Nat) (r : Rec) : (s.notice q r).seq = s.seq := by
  unfold State.notice; split <;> simp
@[simp] theorem State.notice_selfTest (q : Nat) (r : Rec) : (s.notice q r).selfTest = s.selfTest := by
  unfold State.notice; split <;> simp
@[simp] theorem State.notice_recoveries (q : Nat) (r : Rec) : (s.notice q r).recoveries = s.recoveries := by
  unfold State.notice; split <;> simp
@[simp] theorem State.notice_tiles (q : Nat) (r : Rec) : (s.notice q r).tiles = s.tiles := by
  unfold State.notice; split <;> simp
@[simp] theorem State.notice_graphs (q : Nat) (r : Rec) : (s.notice q r).graphs = s.graphs := by
  unfold State.notice; split <;> simp
@[simp] theorem State.notice_tracker (q : Nat) (r : Rec) : (s.notice q r).tracker = s.tracker := by
  unfold State.notice; split <;> simp
@[simp] theorem State.notice_planes (q : Nat) (r : Rec) : (s.notice q r).planes = s.planes := by
  unfold State.notice; split <;> simp
@[simp] theorem State.notice_fabric (q : Nat) (r : Rec) : (s.notice q r).fabric = s.fabric := by
  unfold State.notice; split <;> simp
@[simp] theorem State.notice_regs (q : Nat) (r : Rec) : (s.notice q r).regs = s.regs := by
  unfold State.notice; split <;> simp
@[simp] theorem State.notice_mem (q : Nat) (r : Rec) : (s.notice q r).mem = s.mem := by
  unfold State.notice; split <;> simp
@[simp] theorem State.notice_power (q : Nat) (r : Rec) : (s.notice q r).power = s.power := by
  unfold State.notice; split <;> simp
@[simp] theorem State.notice_ledger (q : Nat) (r : Rec) : (s.notice q r).ledger = s.ledger := by
  unfold State.notice; split <;> simp
@[simp] theorem State.notice_fuses (q : Nat) (r : Rec) : (s.notice q r).fuses = s.fuses := by
  unfold State.notice; split <;> simp
@[simp] theorem State.notice_dump (q : Nat) (r : Rec) : (s.notice q r).dump = s.dump := by
  unfold State.notice; split <;> simp
@[simp] theorem State.notice_shutdown (q : Nat) (r : Rec) : (s.notice q r).shutdown = s.shutdown := by
  unfold State.notice; split <;> simp
@[simp] theorem State.notice_fw (q : Nat) (r : Rec) : (s.notice q r).fw = s.fw := by
  unfold State.notice; split <;> simp
@[simp] theorem State.notice_hotSwap (q : Nat) (r : Rec) : (s.notice q r).hotSwap = s.hotSwap := by
  unfold State.notice; split <;> simp
@[simp] theorem State.notice_mgmt (q : Nat) (r : Rec) : (s.notice q r).mgmt = s.mgmt := by
  unfold State.notice; split <;> simp
@[simp] theorem State.notice_monitor (q : Nat) (r : Rec) : (s.notice q r).monitor = s.monitor := by
  unfold State.notice; split <;> simp
@[simp] theorem State.notice_leaks (q : Nat) (r : Rec) : (s.notice q r).leaks = s.leaks := by
  unfold State.notice; split <;> simp
@[simp] theorem State.notice_rd (q : Nat) (r : Rec) : (s.notice q r).rd = s.rd := by
  unfold State.notice; split <;> simp
@[simp] theorem State.notice_rdBytes (q : Nat) (r : Rec) : (s.notice q r).rdBytes = s.rdBytes := by
  unfold State.notice; split <;> simp
@[simp] theorem State.notice_draws (q : Nat) (r : Rec) : (s.notice q r).draws = s.draws := by
  unfold State.notice; split <;> simp

/-! ### `raise` -/

@[simp] theorem State.raise_pending (c x y z : Nat) : (s.raise c x y z).pending = s.pending := by
  unfold State.raise; dsimp only; split <;> simp
@[simp] theorem State.raise_cairn (c x y z : Nat) : (s.raise c x y z).cairn = s.cairn := by
  unfold State.raise; dsimp only; split <;> simp
@[simp] theorem State.raise_devState (c x y z : Nat) : (s.raise c x y z).devState = s.devState := by
  unfold State.raise; dsimp only; split <;> simp
@[simp] theorem State.raise_seq (c x y z : Nat) : (s.raise c x y z).seq = s.seq := by
  unfold State.raise; dsimp only; split <;> simp
@[simp] theorem State.raise_selfTest (c x y z : Nat) : (s.raise c x y z).selfTest = s.selfTest := by
  unfold State.raise; dsimp only; split <;> simp
@[simp] theorem State.raise_recoveries (c x y z : Nat) : (s.raise c x y z).recoveries = s.recoveries := by
  unfold State.raise; dsimp only; split <;> simp
@[simp] theorem State.raise_tiles (c x y z : Nat) : (s.raise c x y z).tiles = s.tiles := by
  unfold State.raise; dsimp only; split <;> simp
@[simp] theorem State.raise_graphs (c x y z : Nat) : (s.raise c x y z).graphs = s.graphs := by
  unfold State.raise; dsimp only; split <;> simp
@[simp] theorem State.raise_tracker (c x y z : Nat) : (s.raise c x y z).tracker = s.tracker := by
  unfold State.raise; dsimp only; split <;> simp
@[simp] theorem State.raise_planes (c x y z : Nat) : (s.raise c x y z).planes = s.planes := by
  unfold State.raise; dsimp only; split <;> simp
@[simp] theorem State.raise_fabric (c x y z : Nat) : (s.raise c x y z).fabric = s.fabric := by
  unfold State.raise; dsimp only; split <;> simp
@[simp] theorem State.raise_regs (c x y z : Nat) : (s.raise c x y z).regs = s.regs := by
  unfold State.raise; dsimp only; split <;> simp
@[simp] theorem State.raise_mem (c x y z : Nat) : (s.raise c x y z).mem = s.mem := by
  unfold State.raise; dsimp only; split <;> simp
@[simp] theorem State.raise_power (c x y z : Nat) : (s.raise c x y z).power = s.power := by
  unfold State.raise; dsimp only; split <;> simp
@[simp] theorem State.raise_fuses (c x y z : Nat) : (s.raise c x y z).fuses = s.fuses := by
  unfold State.raise; dsimp only; split <;> simp
@[simp] theorem State.raise_dump (c x y z : Nat) : (s.raise c x y z).dump = s.dump := by
  unfold State.raise; dsimp only; split <;> simp
@[simp] theorem State.raise_shutdown (c x y z : Nat) : (s.raise c x y z).shutdown = s.shutdown := by
  unfold State.raise; dsimp only; split <;> simp
@[simp] theorem State.raise_fw (c x y z : Nat) : (s.raise c x y z).fw = s.fw := by
  unfold State.raise; dsimp only; split <;> simp
@[simp] theorem State.raise_hotSwap (c x y z : Nat) : (s.raise c x y z).hotSwap = s.hotSwap := by
  unfold State.raise; dsimp only; split <;> simp
@[simp] theorem State.raise_mgmt (c x y z : Nat) : (s.raise c x y z).mgmt = s.mgmt := by
  unfold State.raise; dsimp only; split <;> simp
@[simp] theorem State.raise_monitor (c x y z : Nat) : (s.raise c x y z).monitor = s.monitor := by
  unfold State.raise; dsimp only; split <;> simp
@[simp] theorem State.raise_leaks (c x y z : Nat) : (s.raise c x y z).leaks = s.leaks := by
  unfold State.raise; dsimp only; split <;> simp
@[simp] theorem State.raise_rd (c x y z : Nat) : (s.raise c x y z).rd = s.rd := by
  unfold State.raise; dsimp only; split <;> simp
@[simp] theorem State.raise_rdBytes (c x y z : Nat) : (s.raise c x y z).rdBytes = s.rdBytes := by
  unfold State.raise; dsimp only; split <;> simp
@[simp] theorem State.raise_draws (c x y z : Nat) : (s.raise c x y z).draws = s.draws := by
  unfold State.raise; dsimp only; split <;> simp

/-! ### `noteAer` -/

@[simp] theorem State.noteAer_pending (e : AerError) : (s.noteAer e).pending = s.pending := rfl
@[simp] theorem State.noteAer_cairn (e : AerError) : (s.noteAer e).cairn = s.cairn := rfl
@[simp] theorem State.noteAer_devState (e : AerError) : (s.noteAer e).devState = s.devState := rfl
@[simp] theorem State.noteAer_seq (e : AerError) : (s.noteAer e).seq = s.seq := rfl
@[simp] theorem State.noteAer_selfTest (e : AerError) : (s.noteAer e).selfTest = s.selfTest := rfl
@[simp] theorem State.noteAer_recoveries (e : AerError) : (s.noteAer e).recoveries = s.recoveries := rfl
@[simp] theorem State.noteAer_tiles (e : AerError) : (s.noteAer e).tiles = s.tiles := rfl
@[simp] theorem State.noteAer_graphs (e : AerError) : (s.noteAer e).graphs = s.graphs := rfl
@[simp] theorem State.noteAer_tracker (e : AerError) : (s.noteAer e).tracker = s.tracker := rfl
@[simp] theorem State.noteAer_planes (e : AerError) : (s.noteAer e).planes = s.planes := rfl
@[simp] theorem State.noteAer_fabric (e : AerError) : (s.noteAer e).fabric = s.fabric := rfl
@[simp] theorem State.noteAer_regs (e : AerError) : (s.noteAer e).regs = s.regs := rfl
@[simp] theorem State.noteAer_mem (e : AerError) : (s.noteAer e).mem = s.mem := rfl
@[simp] theorem State.noteAer_power (e : AerError) : (s.noteAer e).power = s.power := rfl
@[simp] theorem State.noteAer_ledger (e : AerError) : (s.noteAer e).ledger = s.ledger := rfl
@[simp] theorem State.noteAer_fuses (e : AerError) : (s.noteAer e).fuses = s.fuses := rfl
@[simp] theorem State.noteAer_dump (e : AerError) : (s.noteAer e).dump = s.dump := rfl
@[simp] theorem State.noteAer_shutdown (e : AerError) : (s.noteAer e).shutdown = s.shutdown := rfl
@[simp] theorem State.noteAer_fw (e : AerError) : (s.noteAer e).fw = s.fw := rfl
@[simp] theorem State.noteAer_hotSwap (e : AerError) : (s.noteAer e).hotSwap = s.hotSwap := rfl
@[simp] theorem State.noteAer_mgmt (e : AerError) : (s.noteAer e).mgmt = s.mgmt := rfl
@[simp] theorem State.noteAer_monitor (e : AerError) : (s.noteAer e).monitor = s.monitor := rfl
@[simp] theorem State.noteAer_leaks (e : AerError) : (s.noteAer e).leaks = s.leaks := rfl
@[simp] theorem State.noteAer_rd (e : AerError) : (s.noteAer e).rd = s.rd := rfl
@[simp] theorem State.noteAer_rdBytes (e : AerError) : (s.noteAer e).rdBytes = s.rdBytes := rfl
@[simp] theorem State.noteAer_draws (e : AerError) : (s.noteAer e).draws = s.draws := rfl

/-! ### `hostTrained` -/

@[simp] theorem State.hostTrained_pending (n r : Nat) : (s.hostTrained n r).pending = s.pending := rfl
@[simp] theorem State.hostTrained_cairn (n r : Nat) : (s.hostTrained n r).cairn = s.cairn := rfl
@[simp] theorem State.hostTrained_devState (n r : Nat) : (s.hostTrained n r).devState = s.devState := rfl
@[simp] theorem State.hostTrained_seq (n r : Nat) : (s.hostTrained n r).seq = s.seq := rfl
@[simp] theorem State.hostTrained_selfTest (n r : Nat) : (s.hostTrained n r).selfTest = s.selfTest := rfl
@[simp] theorem State.hostTrained_recoveries (n r : Nat) : (s.hostTrained n r).recoveries = s.recoveries := rfl
@[simp] theorem State.hostTrained_tiles (n r : Nat) : (s.hostTrained n r).tiles = s.tiles := rfl
@[simp] theorem State.hostTrained_graphs (n r : Nat) : (s.hostTrained n r).graphs = s.graphs := rfl
@[simp] theorem State.hostTrained_tracker (n r : Nat) : (s.hostTrained n r).tracker = s.tracker := rfl
@[simp] theorem State.hostTrained_planes (n r : Nat) : (s.hostTrained n r).planes = s.planes := rfl
@[simp] theorem State.hostTrained_fabric (n r : Nat) : (s.hostTrained n r).fabric = s.fabric := rfl
@[simp] theorem State.hostTrained_regs (n r : Nat) : (s.hostTrained n r).regs = s.regs := rfl
@[simp] theorem State.hostTrained_mem (n r : Nat) : (s.hostTrained n r).mem = s.mem := rfl
@[simp] theorem State.hostTrained_power (n r : Nat) : (s.hostTrained n r).power = s.power := rfl
@[simp] theorem State.hostTrained_ledger (n r : Nat) : (s.hostTrained n r).ledger = s.ledger := rfl
@[simp] theorem State.hostTrained_fuses (n r : Nat) : (s.hostTrained n r).fuses = s.fuses := rfl
@[simp] theorem State.hostTrained_dump (n r : Nat) : (s.hostTrained n r).dump = s.dump := rfl
@[simp] theorem State.hostTrained_shutdown (n r : Nat) : (s.hostTrained n r).shutdown = s.shutdown := rfl
@[simp] theorem State.hostTrained_fw (n r : Nat) : (s.hostTrained n r).fw = s.fw := rfl
@[simp] theorem State.hostTrained_hotSwap (n r : Nat) : (s.hostTrained n r).hotSwap = s.hotSwap := rfl
@[simp] theorem State.hostTrained_mgmt (n r : Nat) : (s.hostTrained n r).mgmt = s.mgmt := rfl
@[simp] theorem State.hostTrained_monitor (n r : Nat) : (s.hostTrained n r).monitor = s.monitor := rfl
@[simp] theorem State.hostTrained_leaks (n r : Nat) : (s.hostTrained n r).leaks = s.leaks := rfl
@[simp] theorem State.hostTrained_rd (n r : Nat) : (s.hostTrained n r).rd = s.rd := rfl
@[simp] theorem State.hostTrained_rdBytes (n r : Nat) : (s.hostTrained n r).rdBytes = s.rdBytes := rfl
@[simp] theorem State.hostTrained_draws (n r : Nat) : (s.hostTrained n r).draws = s.draws := rfl

/-! ### `sendPending` -/

@[simp] theorem State.sendPending_pending : (s.sendPending).pending = s.pending := by
  unfold State.sendPending; split <;> rfl
@[simp] theorem State.sendPending_cairn : (s.sendPending).cairn = s.cairn := by
  unfold State.sendPending; split <;> rfl
@[simp] theorem State.sendPending_devState : (s.sendPending).devState = s.devState := by
  unfold State.sendPending; split <;> rfl
@[simp] theorem State.sendPending_seq : (s.sendPending).seq = s.seq := by
  unfold State.sendPending; split <;> rfl
@[simp] theorem State.sendPending_selfTest : (s.sendPending).selfTest = s.selfTest := by
  unfold State.sendPending; split <;> rfl
@[simp] theorem State.sendPending_recoveries : (s.sendPending).recoveries = s.recoveries := by
  unfold State.sendPending; split <;> rfl
@[simp] theorem State.sendPending_tiles : (s.sendPending).tiles = s.tiles := by
  unfold State.sendPending; split <;> rfl
@[simp] theorem State.sendPending_graphs : (s.sendPending).graphs = s.graphs := by
  unfold State.sendPending; split <;> rfl
@[simp] theorem State.sendPending_tracker : (s.sendPending).tracker = s.tracker := by
  unfold State.sendPending; split <;> rfl
@[simp] theorem State.sendPending_planes : (s.sendPending).planes = s.planes := by
  unfold State.sendPending; split <;> rfl
@[simp] theorem State.sendPending_fabric : (s.sendPending).fabric = s.fabric := by
  unfold State.sendPending; split <;> rfl
@[simp] theorem State.sendPending_regs : (s.sendPending).regs = s.regs := by
  unfold State.sendPending; split <;> rfl
@[simp] theorem State.sendPending_mem : (s.sendPending).mem = s.mem := by
  unfold State.sendPending; split <;> rfl
@[simp] theorem State.sendPending_power : (s.sendPending).power = s.power := by
  unfold State.sendPending; split <;> rfl
@[simp] theorem State.sendPending_ledger : (s.sendPending).ledger = s.ledger := by
  unfold State.sendPending; split <;> rfl
@[simp] theorem State.sendPending_fuses : (s.sendPending).fuses = s.fuses := by
  unfold State.sendPending; split <;> rfl
@[simp] theorem State.sendPending_dump : (s.sendPending).dump = s.dump := by
  unfold State.sendPending; split <;> rfl
@[simp] theorem State.sendPending_shutdown : (s.sendPending).shutdown = s.shutdown := by
  unfold State.sendPending; split <;> rfl
@[simp] theorem State.sendPending_fw : (s.sendPending).fw = s.fw := by
  unfold State.sendPending; split <;> rfl
@[simp] theorem State.sendPending_hotSwap : (s.sendPending).hotSwap = s.hotSwap := by
  unfold State.sendPending; split <;> rfl
@[simp] theorem State.sendPending_mgmt : (s.sendPending).mgmt = s.mgmt := by
  unfold State.sendPending; split <;> rfl
@[simp] theorem State.sendPending_monitor : (s.sendPending).monitor = s.monitor := by
  unfold State.sendPending; split <;> rfl
@[simp] theorem State.sendPending_leaks : (s.sendPending).leaks = s.leaks := by
  unfold State.sendPending; split <;> rfl
@[simp] theorem State.sendPending_rd : (s.sendPending).rd = s.rd := by
  unfold State.sendPending; split <;> rfl
@[simp] theorem State.sendPending_rdBytes : (s.sendPending).rdBytes = s.rdBytes := by
  unfold State.sendPending; split <;> rfl
@[simp] theorem State.sendPending_draws : (s.sendPending).draws = s.draws := by
  unfold State.sendPending; split <;> rfl

/-! ### `tick` -/

@[simp] theorem State.tick_pending : (s.tick).pending = s.pending := by
  unfold State.tick; split
  · dsimp only; split <;> rfl
  · rfl
@[simp] theorem State.tick_devState : (s.tick).devState = s.devState := by
  unfold State.tick; split
  · dsimp only; split <;> rfl
  · rfl
@[simp] theorem State.tick_seq : (s.tick).seq = s.seq := by
  unfold State.tick; split
  · dsimp only; split <;> rfl
  · rfl
@[simp] theorem State.tick_selfTest : (s.tick).selfTest = s.selfTest := by
  unfold State.tick; split
  · dsimp only; split <;> rfl
  · rfl
@[simp] theorem State.tick_recoveries : (s.tick).recoveries = s.recoveries := by
  unfold State.tick; split
  · dsimp only; split <;> rfl
  · rfl
@[simp] theorem State.tick_tiles : (s.tick).tiles = s.tiles := by
  unfold State.tick; split
  · dsimp only; split <;> rfl
  · rfl
@[simp] theorem State.tick_graphs : (s.tick).graphs = s.graphs := by
  unfold State.tick; split
  · dsimp only; split <;> rfl
  · rfl
@[simp] theorem State.tick_tracker : (s.tick).tracker = s.tracker := by
  unfold State.tick; split
  · dsimp only; split <;> rfl
  · rfl
@[simp] theorem State.tick_planes : (s.tick).planes = s.planes := by
  unfold State.tick; split
  · dsimp only; split <;> rfl
  · rfl
@[simp] theorem State.tick_host : (s.tick).host = s.host := by
  unfold State.tick; split
  · dsimp only; split <;> rfl
  · rfl
@[simp] theorem State.tick_regs : (s.tick).regs = s.regs := by
  unfold State.tick; split
  · dsimp only; split <;> rfl
  · rfl
@[simp] theorem State.tick_mem : (s.tick).mem = s.mem := by
  unfold State.tick; split
  · dsimp only; split <;> rfl
  · rfl
@[simp] theorem State.tick_power : (s.tick).power = s.power := by
  unfold State.tick; split
  · dsimp only; split <;> rfl
  · rfl
@[simp] theorem State.tick_ledger : (s.tick).ledger = s.ledger := by
  unfold State.tick; split
  · dsimp only; split <;> rfl
  · rfl
@[simp] theorem State.tick_fuses : (s.tick).fuses = s.fuses := by
  unfold State.tick; split
  · dsimp only; split <;> rfl
  · rfl
@[simp] theorem State.tick_dump : (s.tick).dump = s.dump := by
  unfold State.tick; split
  · dsimp only; split <;> rfl
  · rfl
@[simp] theorem State.tick_shutdown : (s.tick).shutdown = s.shutdown := by
  unfold State.tick; split
  · dsimp only; split <;> rfl
  · rfl
@[simp] theorem State.tick_fw : (s.tick).fw = s.fw := by
  unfold State.tick; split
  · dsimp only; split <;> rfl
  · rfl
@[simp] theorem State.tick_hotSwap : (s.tick).hotSwap = s.hotSwap := by
  unfold State.tick; split
  · dsimp only; split <;> rfl
  · rfl
@[simp] theorem State.tick_mgmt : (s.tick).mgmt = s.mgmt := by
  unfold State.tick; split
  · dsimp only; split <;> rfl
  · rfl
@[simp] theorem State.tick_monitor : (s.tick).monitor = s.monitor := by
  unfold State.tick; split
  · dsimp only; split <;> rfl
  · rfl
@[simp] theorem State.tick_leaks : (s.tick).leaks = s.leaks := by
  unfold State.tick; split
  · dsimp only; split <;> rfl
  · rfl
@[simp] theorem State.tick_rd : (s.tick).rd = s.rd := by
  unfold State.tick; split
  · dsimp only; split <;> rfl
  · rfl
@[simp] theorem State.tick_rdBytes : (s.tick).rdBytes = s.rdBytes := by
  unfold State.tick; split
  · dsimp only; split <;> rfl
  · rfl
@[simp] theorem State.tick_draws : (s.tick).draws = s.draws := by
  unfold State.tick; split
  · dsimp only; split <;> rfl
  · rfl

/-! ### `setDev` -/

@[simp] theorem State.setDev_pending (d : DevState) : (s.setDev d).pending = s.pending := by
  unfold State.setDev; split
  · rfl
  · simp [State.driveAttn, State.alert]
@[simp] theorem State.setDev_cairn (d : DevState) : (s.setDev d).cairn = s.cairn := by
  unfold State.setDev; split
  · rfl
  · simp [State.driveAttn, State.alert]
@[simp] theorem State.setDev_seq (d : DevState) : (s.setDev d).seq = s.seq := by
  unfold State.setDev; split
  · rfl
  · simp [State.driveAttn, State.alert]
@[simp] theorem State.setDev_selfTest (d : DevState) : (s.setDev d).selfTest = s.selfTest := by
  unfold State.setDev; split
  · rfl
  · simp [State.driveAttn, State.alert]
@[simp] theorem State.setDev_recoveries (d : DevState) : (s.setDev d).recoveries = s.recoveries := by
  unfold State.setDev; split
  · rfl
  · simp [State.driveAttn, State.alert]
@[simp] theorem State.setDev_tiles (d : DevState) : (s.setDev d).tiles = s.tiles := by
  unfold State.setDev; split
  · rfl
  · simp [State.driveAttn, State.alert]
@[simp] theorem State.setDev_graphs (d : DevState) : (s.setDev d).graphs = s.graphs := by
  unfold State.setDev; split
  · rfl
  · simp [State.driveAttn, State.alert]
@[simp] theorem State.setDev_tracker (d : DevState) : (s.setDev d).tracker = s.tracker := by
  unfold State.setDev; split
  · rfl
  · simp [State.driveAttn, State.alert]
@[simp] theorem State.setDev_planes (d : DevState) : (s.setDev d).planes = s.planes := by
  unfold State.setDev; split
  · rfl
  · simp [State.driveAttn, State.alert]
@[simp] theorem State.setDev_fabric (d : DevState) : (s.setDev d).fabric = s.fabric := by
  unfold State.setDev; split
  · rfl
  · simp [State.driveAttn, State.alert]
@[simp] theorem State.setDev_host (d : DevState) : (s.setDev d).host = s.host := by
  unfold State.setDev; split
  · rfl
  · simp [State.driveAttn, State.alert]
@[simp] theorem State.setDev_regs (d : DevState) : (s.setDev d).regs = s.regs := by
  unfold State.setDev; split
  · rfl
  · simp [State.driveAttn, State.alert]
@[simp] theorem State.setDev_mem (d : DevState) : (s.setDev d).mem = s.mem := by
  unfold State.setDev; split
  · rfl
  · simp [State.driveAttn, State.alert]
@[simp] theorem State.setDev_power (d : DevState) : (s.setDev d).power = s.power := by
  unfold State.setDev; split
  · rfl
  · simp [State.driveAttn, State.alert]
@[simp] theorem State.setDev_ledger (d : DevState) : (s.setDev d).ledger = s.ledger := by
  unfold State.setDev; split
  · rfl
  · simp [State.driveAttn, State.alert]
@[simp] theorem State.setDev_fuses (d : DevState) : (s.setDev d).fuses = s.fuses := by
  unfold State.setDev; split
  · rfl
  · simp [State.driveAttn, State.alert]
@[simp] theorem State.setDev_dump (d : DevState) : (s.setDev d).dump = s.dump := by
  unfold State.setDev; split
  · rfl
  · simp [State.driveAttn, State.alert]
@[simp] theorem State.setDev_shutdown (d : DevState) : (s.setDev d).shutdown = s.shutdown := by
  unfold State.setDev; split
  · rfl
  · simp [State.driveAttn, State.alert]
@[simp] theorem State.setDev_fw (d : DevState) : (s.setDev d).fw = s.fw := by
  unfold State.setDev; split
  · rfl
  · simp [State.driveAttn, State.alert]
@[simp] theorem State.setDev_monitor (d : DevState) : (s.setDev d).monitor = s.monitor := by
  unfold State.setDev; split
  · rfl
  · simp [State.driveAttn, State.alert]
@[simp] theorem State.setDev_leaks (d : DevState) : (s.setDev d).leaks = s.leaks := by
  unfold State.setDev; split
  · rfl
  · simp [State.driveAttn, State.alert]
@[simp] theorem State.setDev_rd (d : DevState) : (s.setDev d).rd = s.rd := by
  unfold State.setDev; split
  · rfl
  · simp [State.driveAttn, State.alert]
@[simp] theorem State.setDev_rdBytes (d : DevState) : (s.setDev d).rdBytes = s.rdBytes := by
  unfold State.setDev; split
  · rfl
  · simp [State.driveAttn, State.alert]
@[simp] theorem State.setDev_draws (d : DevState) : (s.setDev d).draws = s.draws := by
  unfold State.setDev; split
  · rfl
  · simp [State.driveAttn, State.alert]

/-! ### Units after an update -/

@[simp] theorem State.draw_draws : s.draw.draws = s.draws + 1 := rfl
@[simp] theorem State.alert_alert (b : Nat) : (s.alert b).mgmt.alert = s.mgmt.alert ||| 2 ^ b := rfl
@[simp] theorem State.advanceTo_cairn (t : Nat) : (s.advanceTo t).cairn = cairnMax s.cairn (roundUp t 4) := rfl
@[simp] theorem State.ledgerEvent_events (c x y z : Nat) :
    (s.ledgerEvent c x y z).ledger.events = s.ledger.events ++ [(s.cairn, ⟨c, x, y, z⟩)] := rfl

theorem State.setTile_tile (t j : Nat) (x : Tile) : (s.setTile t x).tile j = if j = t then x else s.tile j := Tab.get_put
theorem State.updTile_tile (t j : Nat) (f : Tile → Tile) : (s.updTile t f).tile j = if j = t then f (s.tile t) else s.tile j := Tab.get_put
theorem State.setGraph_graph (g j : Nat) (x : Option Graph) : (s.setGraph g x).graph? j = if j = g then x else s.graph? j := Tab.get_put
theorem State.setStream_stream (i j : Nat) (x : Stream) : (s.setStream i x).stream j = if j = i then x else s.stream j := Tab.get_put
theorem State.updStream_stream (i j : Nat) (f : Stream → Stream) : (s.updStream i f).stream j = if j = i then f (s.stream i) else s.stream j := Tab.get_put
theorem State.updSq_sq (n j : Nat) (f : Ring → Ring) : (s.updSq n f).sq j = if j = n then f (s.sq n) else s.sq j := Tab.get_put
theorem State.updCq_cq (n j : Nat) (f : Ring → Ring) : (s.updCq n f).cq j = if j = n then f (s.cq n) else s.cq j := Tab.get_put
theorem State.updHv_hv (n j : Nat) (f : Ring → Ring) : (s.updHv n f).hv j = if j = n then f (s.hv n) else s.hv j := Tab.get_put
theorem State.updSlice_slice (n j : Nat) (f : Slice → Slice) : (s.updSlice n f).slice j = if j = n then f (s.slice n) else s.slice j := Tab.get_put
theorem State.updRange_range (n j : Nat) (f : CxlRange → CxlRange) : (s.updRange n f).range j = if j = n then f (s.range n) else s.range j := Tab.get_put
theorem State.updPort_port (p j : Nat) (f : FzPort → FzPort) : (s.updPort p f).port j = if j = p then f (s.port p) else s.port j := Tab.get_put
theorem State.updPhase_phase (n j : Nat) (f : Phase → Phase) : (s.updPhase n f).phase j = if j = n then f (s.phase n) else s.phase j := Tab.get_put

end Sys2Proof.Machine
end

