-- ==== Sys2Proof/Laws/Fabric.lean ====
section
/-! SUPPORT. What the shared operations of the fabric's connections can do: the packet a row takes, the slots it changes, and the
packets it puts out. -/

namespace Sys2Proof.Machine

variable {s t : State} {k p : Packet} {kind m n : Nat}

/-! ### Slots -/

theorem State.updSend_send (f : SendConn → SendConn) : (s.updSend n f).send m = if m = n then f (s.send n) else s.send m := Tab.get_upd
theorem State.updRecv_recv (f : RecvConn → RecvConn) : (s.updRecv n f).recv m = if m = n then f (s.recv n) else s.recv m := Tab.get_upd
theorem State.updWindow_window (f : Window → Window) :
    (s.updWindow n f).window m = if m = n then f (s.window n) else s.window m := Tab.get_upd

@[simp] theorem State.updSend_recv (f : SendConn → SendConn) : (s.updSend n f).recv m = s.recv m := rfl
@[simp] theorem State.updRecv_send (f : RecvConn → RecvConn) : (s.updRecv n f).send m = s.send m := rfl
@[simp] theorem State.updSend_tile (f : SendConn → SendConn) : (s.updSend n f).tile m = s.tile m := rfl
@[simp] theorem State.updRecv_tile (f : RecvConn → RecvConn) : (s.updRecv n f).tile m = s.tile m := rfl

/-! ### The packet that a row takes -/

/-- What `pickFirst` takes passes the test, and the rest is the list without its first one that does. -/
theorem pickFirst_some {α : Type} {f : α → Bool} {xs r : List α} {x : α} (h : pickFirst f xs = some (x, r)) :
    f x = true ∧ x ∈ xs ∧ r.length + 1 = xs.length := by
  induction xs generalizing r with
  | nil => simp [pickFirst] at h
  | cons y ys ih =>
    unfold pickFirst at h
    split at h
    · rename_i hy
      simp only [Option.some.injEq, Prod.mk.injEq] at h
      obtain ⟨rfl, rfl⟩ := h
      exact ⟨hy, List.mem_cons_self .., rfl⟩
    · obtain ⟨⟨z, w⟩, hz, he⟩ := Option.map_eq_some_iff.1 h
      simp only [Prod.mk.injEq] at he
      obtain ⟨rfl, rfl⟩ := he
      obtain ⟨h1, h2, h3⟩ := ih hz
      exact ⟨h1, List.mem_cons_of_mem _ h2, by simp [h3]⟩

/-- A row takes an ejected packet of its kind, and changes nothing else by taking it. -/
theorem State.takeEject_some {s1 : State} (h : s.takeEject kind = some (k, s1)) :
    k.kind = kind ∧ k ∈ s.fabric.eject ∧ s1.fabric.eject.length + 1 = s.fabric.eject.length ∧
      s1 = { s with fabric := { s.fabric with eject := s1.fabric.eject } } := by
  obtain ⟨⟨x, r⟩, hx, he⟩ := Option.map_eq_some_iff.1 h
  simp only [Prod.mk.injEq] at he
  obtain ⟨rfl, rfl⟩ := he
  obtain ⟨h1, h2, h3⟩ := pickFirst_some hx
  exact ⟨by simpa using h1, h2, h3, rfl⟩

/-- A packet row answers the action on the packet it takes, or the state it found. -/
theorem State.onPacket_next {act : Packet → State → State} :
    s.onPacket kind act = .next t ↔
      (s.takeEject kind = none ∧ s = t) ∨ ∃ r, s.takeEject kind = some r ∧ act r.1 r.2 = t := by
  unfold State.onPacket
  split <;> simp_all

/-! ### Packets put out -/

/-- A module with time stamps the packet and puts it behind the others; one without sends nothing (R275, R306). -/
theorem State.inject_locked (h : s.fzLocked = true) : ∃ q : Packet, s.inject p =
      { s with fabric := { s.fabric with inject := s.fabric.inject ++ [q] } } ∧
    q.kind = p.kind ∧ q.dst = p.dst ∧ q.src = s.fabric.id ∧ q.hops = 0 ∧ q.seq = p.seq ∧ q.status = p.status ∧
      q.payload = p.payload := by
  unfold State.inject
  rw [if_pos h]
  exact ⟨_, rfl, rfl, rfl, rfl, rfl, rfl, rfl, rfl⟩

theorem State.inject_unlocked (h : s.fzLocked = false) : s.inject p = s := by simp [State.inject, h]

@[simp] theorem State.inject_send : (s.inject p).send n = s.send n := by unfold State.inject; split <;> rfl
@[simp] theorem State.inject_recv : (s.inject p).recv n = s.recv n := by unfold State.inject; split <;> rfl
@[simp] theorem State.inject_tiles : (s.inject p).tiles = s.tiles := by unfold State.inject; split <;> rfl
@[simp] theorem State.inject_mem : (s.inject p).mem = s.mem := by unfold State.inject; split <;> rfl

/-- A sending slot given up is free and keeps its generation (R293). -/
theorem State.closeSend_send : (s.closeSend n).send m = if m = n then { SendConn.reset with gen := (s.send n).gen } else s.send m := by
  unfold State.closeSend
  dsimp only
  rw [State.updSend_send]
  split
  · split
    · rw [State.inject_send]; rfl
    · rfl
  · split
    · rw [State.inject_send]; rfl
    · rfl

end Sys2Proof.Machine
end

