-- ==== Sys2Proof/Laws/Memory.lean ====
section
/-! SUPPORT. Memory: a read after a write, and every operation over memory keeps the canonical form. -/

namespace Sys2Proof.Machine

variable {m : Memory} {a b lo n key sp : Nat} {v : Byte} {bs : List Byte}

theorem findByte_eq_get? (t : Tab Byte) : findByte t a = (t.find? fun e => e.1 == a).map (·.2) := by
  induction t with
  | nil => rfl
  | cons e t ih =>
    by_cases h : e.1 = a <;> simp [findByte, h, ih]

theorem findByte_erase (t : Tab Byte) : findByte (Tab.erase a t) b = if b = a then none else findByte t b := by
  induction t with
  | nil => simp [Tab.erase, findByte]
  | cons e t ih =>
    unfold Tab.erase
    split
    · rename_i h
      rw [ih]
      by_cases hb : b = a
      · simp [hb]
      · simp [hb, findByte, h, Ne.symm hb]
    · rename_i h
      simp only [findByte, ih]
      by_cases hb : b = a
      · subst hb; simp [h]
      · simp [hb]

theorem findByte_ins (t : Tab Byte) (h : ∀ e ∈ t, e.1 ≠ a) :
    findByte (Tab.ins a v t) b = if b = a then some v else findByte t b := by
  induction t with
  | nil => simp [Tab.ins, findByte, eq_comm]
  | cons e t ih =>
    have hk : e.1 ≠ a := h e (List.mem_cons_self ..)
    have ih := ih fun x hx => h x (List.mem_cons_of_mem _ hx)
    unfold Tab.ins
    split
    · by_cases hb : b = a
      · simp [findByte, hb]
      · simp [findByte, hb, Ne.symm hb]
    · simp only [findByte, ih]
      by_cases hb : b = a
      · subst hb; simp [hk]
      · simp [hb]

@[simp] theorem Memory.put_zeroed : (m.put a v).zeroed = m.zeroed := by unfold Memory.put; split <;> rfl
@[simp] theorem Memory.put_poison : (m.put a v).poison = m.poison := by unfold Memory.put; split <;> rfl
@[simp] theorem Memory.put_wiped : (m.put a v).wiped = m.wiped := by unfold Memory.put; split <;> rfl
@[simp] theorem Memory.put_blank : (m.put a v).blank b = m.blank b := by
  unfold Memory.blank; rw [Memory.put_zeroed, Memory.put_wiped]

theorem Memory.findByte_put : findByte (m.put a v).bytes b =
    if b = a then (if m.blank a = some v then none else some v) else findByte m.bytes b := by
  by_cases h : m.blank a = some v
  · simp [Memory.put, h, findByte_erase]
  · have := findByte_ins (v := v) (b := b) (Tab.erase a m.bytes) fun e he => (Tab.mem_erase.1 he).2
    simp only [Memory.put, h, if_false, this, findByte_erase]
    by_cases hb : b = a <;> simp [hb]

/-- A read after a write of one byte. -/
theorem Memory.get_put : (m.put a v).get key sp b = if b = a then v else m.get key sp b := by
  unfold Memory.get
  rw [Memory.put_blank, Memory.findByte_put]
  by_cases hb : b = a
  · by_cases h : m.blank a = some v <;> simp [hb, h]
  · simp [hb]

/-- A run of writes leaves every byte outside it as before. -/
theorem Memory.get_putAll_other (h : b < a ∨ a + bs.length ≤ b) : (Memory.putAll a bs m).get key sp b = m.get key sp b := by
  induction bs generalizing a m with
  | nil => rfl
  | cons v bs ih =>
    simp only [List.length_cons] at h
    rw [Memory.putAll, ih (by omega), Memory.get_put, if_neg (by omega)]

/-- A run of writes puts its bytes at its addresses. -/
theorem Memory.get_putAll {i : Nat} (h : i < bs.length) : (Memory.putAll a bs m).get key sp (a + i) = bs[i] := by
  induction bs generalizing a m i with
  | nil => simp at h
  | cons v bs ih =>
    cases i with
    | zero => rw [Memory.putAll, Memory.get_putAll_other (by omega), Memory.get_put]; simp
    | succ i =>
      have := ih (a := a + 1) (m := m.put a v) (i := i) (by simpa using h)
      simpa [Memory.putAll, Nat.add_assoc, Nat.add_comm 1] using this

/-- A run read after it was written. -/
theorem Memory.getAll_putAll : Memory.getAll (Memory.putAll a bs m) key sp a bs.length = bs := by
  have gen : ∀ (n c : Nat) (p : Memory), Memory.getAll p key sp c n = (List.range n).map fun i => p.get key sp (c + i) := by
    intro n
    induction n with
    | zero => intro c p; rfl
    | succ n ih =>
      intro c p
      rw [Memory.getAll, ih, List.range_succ_eq_map]
      simp [Nat.add_assoc, Nat.add_comm 1, Function.comp_def]
  rw [gen]
  refine List.ext_getElem (by simp) fun i h1 h2 => ?_
  simp only [List.getElem_map, List.getElem_range]
  exact Memory.get_putAll h2

/-! ### The canonical form -/

theorem Memory.wf_iff :
    m.wf = true ↔ m.bytes.Pairwise (fun x y => x.1 < y.1) ∧ ∀ e ∈ m.bytes, m.blank e.1 ≠ some e.2 := by
  simp [Memory.wf, List.pairwise_map]

theorem Memory.wf_reset : Memory.reset.wf = true := rfl

theorem Memory.wf_put (h : m.wf = true) : (m.put a v).wf = true := by
  rw [Memory.wf_iff] at h ⊢
  simp only [Memory.put_blank]
  have h1 := Tab.pairwise_erase (k := a) h.1
  unfold Memory.put
  split
  · exact ⟨h1, fun e he => h.2 e (Tab.mem_erase.1 he).1⟩
  · rename_i hv
    refine ⟨Tab.pairwise_ins h1 fun e he => (Tab.mem_erase.1 he).2, fun e he => ?_⟩
    rcases Tab.mem_ins.1 he with rfl | he
    · exact hv
    · exact h.2 e (Tab.mem_erase.1 he).1

theorem Memory.wf_putAll (h : m.wf = true) : (Memory.putAll a bs m).wf = true := by
  induction bs generalizing a m with
  | nil => exact h
  | cons v bs ih => exact ih (Memory.wf_put h)

theorem Memory.wf_zero (h : m.wf = true) : (m.zero lo n).wf = true := by
  rw [Memory.wf_iff] at h ⊢
  refine ⟨(h.1.filter _).filter _, fun e he => ?_⟩
  have := (List.mem_filter.1 he).2
  exact of_decide_eq_true this

theorem Memory.wf_clear (h : m.wf = true) {p : List Nat} :
    (Memory.mk (Tab.clear lo n m.bytes) m.zeroed p m.wiped).wf = true := by
  rw [Memory.wf_iff] at h ⊢
  exact ⟨h.1.filter _, fun e he => h.2 e (List.mem_of_mem_filter he)⟩

theorem Memory.wf_forget (h : m.wf = true) : (m.forget lo n).wf = true := Memory.wf_clear h

/-- What a byte of another stack reads as unlisted is untouched by the loss of a stack. -/
theorem Memory.blank_wipe {u : Nat} (ha : hbmStack a ≠ u) : (m.wipe u).blank a = m.blank a := by
  have h : (m.wiped ++ m.zeroed.map fun r => (r.1, r.2, u)).any (fun w => w.1 ≤ a && a < w.1 + w.2.1 && hbmStack a == w.2.2) =
      m.wiped.any fun w => w.1 ≤ a && a < w.1 + w.2.1 && hbmStack a == w.2.2 := by
    rw [List.any_append, List.any_map]
    simp [Function.comp_def, ha]
  simp only [Memory.blank, Memory.wipe, h]

theorem Memory.wf_wipe {u : Nat} (h : m.wf = true) : (m.wipe u).wf = true := by
  rw [Memory.wf_iff] at h ⊢
  refine ⟨h.1.filter _, fun e he => ?_⟩
  have hm := List.mem_filter.1 he
  rw [Memory.blank_wipe (by simpa using hm.2)]
  exact h.2 e hm.1

theorem Memory.wf_poison (h : m.wf = true) {p : List Nat} : (Memory.mk m.bytes m.zeroed p m.wiped).wf = true := h

/-! ### Spaces of the state -/

variable {s : State}

theorem State.memWf_iff : s.memWf = true ↔ s.mem.hbm.wf = true ∧ s.mem.cxl.wf = true ∧ Tab.wf 0 s.host.mem = true := by
  simp [State.memWf, and_assoc]

theorem State.memWf_setSpace {p : Memory} (h : s.memWf = true) (hp : p.wf = true) : (s.setSpace sp p).memWf = true := by
  rw [State.memWf_iff] at h ⊢
  unfold State.setSpace
  split
  · exact ⟨hp, h.2⟩
  · exact ⟨h.1, hp, h.2.2⟩

theorem State.wf_space (h : s.memWf = true) : (s.space sp).wf = true := by
  rw [State.memWf_iff] at h
  unfold State.space
  split
  · exact h.1
  · exact h.2.1

theorem State.memWf_writeBytes (h : s.memWf = true) : (s.writeBytes sp a bs).memWf = true :=
  State.memWf_setSpace h (Memory.wf_putAll (State.wf_space h))

theorem State.memWf_setPoison {on : Bool} (h : s.memWf = true) : (s.setPoison sp a on).memWf = true :=
  State.memWf_setSpace h (Memory.wf_poison (State.wf_space h))

/-- A run initialised to zero, with the frames of it that stand in slots. -/
theorem State.memWf_zeroRun (h : s.memWf = true) : (s.zeroRun a n).memWf = true := by
  rw [State.memWf_iff] at h ⊢
  refine ⟨Memory.wf_zero h.1, ?_, h.2.2⟩
  have key : ∀ (f : Memory → Nat → Memory), (∀ m k, m.wf = true → (f m k).wf = true) → ∀ (ks : List Nat) (m : Memory),
      m.wf = true → (ks.foldl f m).wf = true := by
    intro f hf ks
    induction ks with
    | nil => exact fun _ h => h
    | cons k ks ih => exact fun m h => ih _ (hf m k h)
  refine key _ (fun m k hm => ?_) _ _ h.2.1
  dsimp only
  split
  · exact Memory.wf_zero hm
  · exact Memory.wf_zero hm
  · exact hm

theorem State.memWf_hostWrite (h : s.memWf = true) : (s.hostWrite a bs).memWf = true := by
  unfold State.hostWrite
  split
  · rw [State.memWf_iff] at h ⊢
    exact ⟨h.1, h.2.1, Tab.wf_putAll h.2.2⟩
  · exact h

theorem State.memWf_reset : State.reset.memWf = true := rfl

end Sys2Proof.Machine
end

