-- ==== Sys2Proof/Laws/Ops.lean ====
section
/-! SUPPORT. What the shared operations of the commands can answer, once for each: bounds and service, time, graphs, memory,
firing an operation, and a BAR0 write with a row of its own. -/

namespace Sys2Proof.Machine

variable {s t u : State} {ok : Bool}

/-! ### Bounds and service -/

theorem onUnit_next : onUnit ok s = .next t ↔ ok = true ∧ s = t := by
  cases ok <;> simp [onUnit]

theorem onUnit_fault {r : Fault} : onUnit ok s = .fault r ↔ ok = false ∧ r = .noSuchUnit := by
  cases ok <;> simp [onUnit, eq_comm]

theorem onUnit_refused {r : Refusal} : onUnit ok s ≠ .refused r := by
  cases ok <;> simp [onUnit]

/-- Outside service such a command changes nothing. -/
theorem State.onLive_next : s.onLive ok t = .next u ↔ ok = true ∧ (if s.inService then t else s) = u := by
  simp [State.onLive, onUnit_next]

theorem State.onLive_fault {r : Fault} : s.onLive ok t = .fault r ↔ ok = false ∧ r = .noSuchUnit := by
  simp [State.onLive, onUnit_fault]

theorem State.onLive_refused {r : Refusal} : s.onLive ok t ≠ .refused r := by
  simp [State.onLive, onUnit_refused]

/-! ### Time -/

/-- The Cairn from one value to another, modulo 2^64 (R394). -/
theorem cairnSince_eq (a b : Nat) : cairnSince a b = (b % 2 ^ 64 + (2 ^ 64 - a % 2 ^ 64)) % 2 ^ 64 := by
  simp only [cairnSince, BitVec.toNat_sub, BitVec.toNat_ofNat]
  rw [Nat.add_comm]

/-- Of two Cairn values less than half the circle apart, with no wrap between them, the later is the greater (R394). -/
theorem cairnMax_eq_max {a b : Nat} (ha : a < 2 ^ 64) (hb : b < 2 ^ 64) (h : a < b + 2 ^ 63) (h' : b < a + 2 ^ 63) :
    cairnMax a b = max a b := by
  have e := cairnSince_eq a b
  rw [Nat.mod_eq_of_lt ha, Nat.mod_eq_of_lt hb] at e
  unfold cairnMax cairnBefore
  by_cases hab : a < b
  · rw [show b + (2 ^ 64 - a) = (b - a) + 2 ^ 64 by omega, Nat.add_mod_right, Nat.mod_eq_of_lt (by omega)] at e
    rw [if_pos (by simp only [e, Bool.and_eq_true, bne_iff_ne, decide_eq_true_eq]; omega), Nat.mod_eq_of_lt hb]
    omega
  · by_cases hq : a = b
    · subst hq
      rw [show a + (2 ^ 64 - a) = 2 ^ 64 by omega] at e
      rw [if_neg (by simp [e])]
      omega
    · rw [Nat.mod_eq_of_lt (show b + (2 ^ 64 - a) < 2 ^ 64 by omega)] at e
      rw [if_neg (by simp only [e, Bool.and_eq_true, bne_iff_ne, decide_eq_true_eq]; omega)]
      omega

/-- Time never runs back, and an instant let come is reached (R394, R419). -/
theorem State.advanceTo_eq_max {n : Nat} (hc : s.cairn < 2 ^ 63) (hn : roundUp n 4 < 2 ^ 63) :
    (s.advanceTo n).cairn = max s.cairn (roundUp n 4) := cairnMax_eq_max (by omega) (by omega) (by omega) (by omega)

/-! ### Graphs -/

theorem State.updGraph_graph (g h : Nat) (f : Graph → Graph) :
    (s.updGraph g f).graph? h = if h = g then (s.graph? g).map f else s.graph? h := by
  unfold State.updGraph
  split
  · rename_i hn
    split
    · rename_i e; subst e; rw [hn]; rfl
    · rfl
  · rename_i x hx
    rw [State.setGraph_graph, hx]; rfl

theorem State.updSched_graph (g h : Nat) (f : Sched → Sched) :
    (s.updSched g f).graph? h = if h = g then (s.graph? g).map fun x => { x with sched := f x.sched } else s.graph? h :=
  State.updGraph_graph g h _

/-! ### Sorting -/

/-- Sorting drops and invents nothing. -/
theorem sortBy_perm {α : Type} (xs : List α) (le : α → α → Bool) : (sortBy xs le).Perm xs := List.perm_insertionSort _ _

theorem sortBy_length {α : Type} (xs : List α) (le : α → α → Bool) : (sortBy xs le).length = xs.length :=
  (sortBy_perm xs le).length_eq

/-! ### Memory -/

/-- What is written is read back. -/
theorem State.readBytes_writeBytes (sp a : Nat) (bs : List Byte) : (s.writeBytes sp a bs).readBytes sp a bs.length = bs := by
  unfold State.readBytes State.writeBytes State.setSpace State.space
  split <;> exact Memory.getAll_putAll

/-! ### Firing an operation -/

/-- An operation names a tile and an index of the spec's numbering; outside service it changes nothing. -/
theorem State.fire_next {opc n k : Nat} {us : List (Nat × Nat)} {eff : EffectFn} {after : AfterFn}
    (h : s.fire opc n k us eff after = .next t) :
    n < 320 ∧ k < 8192 ∧ (s.inService = false → t = s) := by
  unfold State.fire at h
  rw [State.onLive_next] at h
  obtain ⟨hb, h⟩ := h
  simp only [Bool.and_eq_true, decide_eq_true_eq] at hb
  refine ⟨hb.1, hb.2, fun hs => ?_⟩
  rw [hs] at h
  exact h.symm

/-- On a tile that runs nothing, an operation leaves only the wrong bits that have come about. -/
theorem State.fire_idle {opc n k : Nat} {us : List (Nat × Nat)} {eff : EffectFn} {after : AfterFn} (hn : n < 320)
    (hk : k < 8192) (hs : s.inService = true) (hr : (s.updTile n (·.upset us)).runs n = false) :
    s.fire opc n k us eff after = .next (s.updTile n (·.upset us)) := by
  unfold State.fire
  rw [State.onLive_next]
  exact ⟨by simp [hn, hk], by simp [hs, hr]⟩

/-! ### BAR0 -/

theorem State.ownWrite_next {p : Nat → Nat → Bool} {w : BarWrite} :
    s.ownWrite p w = .next t ↔ barCovers w p = true ∧ s.bar0 true w = t := by
  simp [State.ownWrite, onUnit_next]

/-- While BAR0 does not answer, a write changes nothing (R309, R345). -/
theorem State.bar0_silent {w : BarWrite} (h : s.bar0Answers = false) : s.bar0 ok w = s := by
  simp [State.bar0, h]

end Sys2Proof.Machine
end

