-- ==== Sys2Proof/Laws/Planes.lean ====
section
/-! SUPPORT. What the shared operations of the two planes, of the pieces of a firing and of stretched clocks can do, and that
counters saturate. -/

namespace Sys2Proof.Machine

variable {s : State} {t id i g n a b u : Nat}

/-! ### Counters -/

/-- A counter never passes its largest value (R32). -/
theorem Counter.add_count_le (c : Counter) : (c.add n).count ≤ 2 ^ 48 - 1 := by
  unfold Counter.add; split <;> simp only <;> omega

/-- Its sticky bit is set exactly when it was, or when the largest value is reached (R32). -/
theorem Counter.add_ovf (c : Counter) : (c.add n).ovf = true ↔ c.ovf = true ∨ 2 ^ 48 - 1 ≤ c.count + n := by
  unfold Counter.add; split <;> simp_all

/-- Below it, the counter counts. -/
theorem Counter.add_count (c : Counter) (h : c.count + n < 2 ^ 48 - 1) : c.add n = ⟨c.count + n, c.ovf⟩ := by
  unfold Counter.add; rw [if_neg (by omega)]

/-! ### The choice of a link -/

theorem roundFrom_lt {k n x : Nat} (h : x ∈ roundFrom k n) : x < n := by
  obtain ⟨i, hi, rfl⟩ := List.mem_map.1 h
  exact Nat.mod_lt _ (Nat.lt_of_le_of_lt (Nat.zero_le i) (List.mem_range.1 hi))

/-- A chosen up-link is one of the leaf's sixteen, has a credit, and lies on a path without a FENCED link (R252, R374). -/
theorem State.pickUp_some {busy : List Nat} {d : Dest} (h : s.pickUp g busy d = some u) :
    u < 16 ∧ u ∉ busy ∧ s.linkOpen (upLink g u) = true ∧ ∀ l ∈ d.links (g / 10) (u / 2), s.linkOpen l = true := by
  have hp := List.find?_some h
  simp only [Bool.and_eq_true, Bool.not_eq_true', List.all_eq_true, List.contains_eq_mem, decide_eq_false_iff_not] at hp
  exact ⟨roundFrom_lt (List.mem_of_find?_eq_some h), hp.1.1, hp.1.2, hp.2⟩

/-- The same of the spine that takes a response (R250, R252, R374). -/
theorem State.pickBack_some {busy : List Nat} (h : s.pickBack n t busy = some u) :
    u < 8 ∧ u ∉ busy ∧ s.linkOpen (leafLink n u) = true ∧ ∀ l ∈ (Dest.tile t).links (n / 32) u, s.linkOpen l = true := by
  have hp := List.find?_some h
  simp only [Bool.and_eq_true, Bool.not_eq_true', List.all_eq_true, List.contains_eq_mem, decide_eq_false_iff_not] at hp
  exact ⟨roundFrom_lt (List.mem_of_find?_eq_some h), hp.1.1, hp.1.2, hp.2⟩

/-! ### Outputs -/

theorem State.updOut_out (l m : Nat) (f : LinkOut → LinkOut) :
    (s.updOut l f).out m = if m = l then f (s.out l) else s.out m := Tab.get_upd

@[simp] theorem State.updOut_tile (l : Nat) (f : LinkOut → LinkOut) : (s.updOut l f).tile t = s.tile t := rfl
@[simp] theorem State.turnUp_tile (l k : Nat) : (s.turnUp l k).tile t = s.tile t := rfl
@[simp] theorem State.turnUp_out (l k m : Nat) : (s.turnUp l k).out m = s.out m := rfl

/-- The place in a frame stays within its sixteen cycles (R255). -/
theorem LinkOut.tick_cycle {o : LinkOut} {c : Bool} (h : o.cycle < 16) : (o.tick c).cycle < 16 := by
  unfold LinkOut.tick; split <;> simp only <;> omega

/-- A cycle without a control flit adds none to the frame. -/
theorem LinkOut.tick_control {o : LinkOut} : (o.tick false).control ≤ o.control := by
  unfold LinkOut.tick; split <;> simp [b2n]

theorem LinkOut.bulk_control {n k : Nat} {o : LinkOut} (h : o.control ≤ k) : (LinkOut.bulk n o).control ≤ k := by
  induction n generalizing o with
  | zero => exact h
  | succ n ih =>
    unfold LinkOut.bulk
    split
    · refine ih (Nat.le_trans LinkOut.tick_control ?_)
      split
      · exact Nat.le_trans LinkOut.tick_control h
      · exact h
    · exact h

/-- A frame carries at most five control flits (R255). -/
theorem LinkOut.pass_control {o : LinkOut} {f : CtrlFlit} : (o.pass f).control ≤ 5 := by
  refine LinkOut.bulk_control ?_
  unfold LinkOut.tick LinkOut.controlMay
  by_cases hc : o.control < 5 <;> by_cases h15 : o.cycle = 15 <;> simp [hc, h15, b2n]

@[simp] theorem LinkOut.tick_waiting (o : LinkOut) (c : Bool) : (o.tick c).waiting = o.waiting := by
  unfold LinkOut.tick; split <;> rfl

/-- Requests and responses move no control flit. -/
theorem LinkOut.bulk_waiting (n : Nat) (o : LinkOut) : (LinkOut.bulk n o).waiting = o.waiting := by
  induction n generalizing o with
  | zero => rfl
  | succ n ih =>
    unfold LinkOut.bulk
    split
    · rw [ih, LinkOut.tick_waiting]; split <;> simp
    · rfl

/-- A control flit that has gone waits no more, and the others do. -/
theorem LinkOut.pass_waiting (o : LinkOut) (f : CtrlFlit) : (o.pass f).waiting = o.waiting.erase f := by
  unfold LinkOut.pass; rw [LinkOut.bulk_waiting, LinkOut.tick_waiting]

/-! ### Saddles -/

/-- A Saddle holds at most sixteen units, all of the sender's words of that lane, in their order (R262). -/
theorem State.saddle_length (t lane : Nat) : (s.saddle t lane).length ≤ 16 := List.length_take_le ..

theorem State.saddle_sublist (t lane : Nat) : (s.saddle t lane).Sublist s.planes.words :=
  (List.take_sublist ..).trans (List.filter_sublist ..)

/-- The sender's credits and the units that stand in the Saddle are sixteen where both islands are lit, and a dark Saddle gives
none (R262, R265). -/
theorem State.saddleCredits_add (t lane : Nat) (h : (s.tile t).on = true) (hr : Tab.get false s.planes.routerOn (t / 16) = true) :
    s.saddleCredits t lane + (s.saddle t lane).length = 16 := by
  have := s.saddle_length t lane
  unfold State.saddleCredits
  rw [h, hr, Bool.and_self, if_pos rfl]
  omega

theorem State.saddleCredits_dark (t lane : Nat) (h : (s.tile t).on = false) : s.saddleCredits t lane = 0 := by
  simp [State.saddleCredits, h]

/-! ### Pieces -/

/-- A firing changed is the one found by its number, where one of that number is in flight. -/
theorem Tile.setFlight_flight (x : Tile) (f : Firing) (h : (x.flight f.id).isSome = true) : (x.setFlight f).flight f.id = some f := by
  have key : ∀ fs : List Firing, (fs.find? (·.id == f.id)).isSome = true →
      (fs.map fun g => if g.id = f.id then f else g).find? (·.id == f.id) = some f := by
    intro fs
    induction fs with
    | nil => simp
    | cons y ys ih =>
      intro h
      by_cases hy : y.id = f.id
      · simp [hy]
      · rw [List.find?_cons_of_neg (by simpa using hy)] at h
        rw [List.map_cons, if_neg hy, List.find?_cons_of_neg (by simpa using hy)]
        exact ih h
  exact key _ h

/-- A piece put into a firing of the spec's numbering is the one read back. -/
theorem State.piece?_putPiece {p q : Piece} (h : s.piece? t id i = some q) : (s.putPiece t id i p).piece? t id i = some p := by
  unfold State.piece? at h ⊢
  obtain ⟨f, hf, hi⟩ := Option.bind_eq_some_iff.1 h
  have hid : f.id = id := by simpa using List.find?_some hf
  obtain ⟨hl, -⟩ := List.getElem?_eq_some_iff.1 hi
  have hs : ((s.tile t).flight (f.setPiece i p).id).isSome = true := by
    show ((s.tile t).flight f.id).isSome = true
    rw [hid, hf]; rfl
  unfold State.putPiece
  rw [State.updTile_tile, if_pos rfl, hf]
  have := Tile.setFlight_flight (s.tile t) (f.setPiece i p) hs
  rw [show (f.setPiece i p).id = id from hid] at this
  show (((s.tile t).setFlight (f.setPiece i p)).flight id).bind (·.pieces[i]?) = some p
  rw [this]
  exact List.getElem?_set_self hl

/-! ### Stretched clocks -/

/-- What counts of a stretch are quarters of it that have been listed. -/
theorem State.quarters_sublist (mhz : Nat) (xs : List Nat) : (s.quarters mhz xs).Sublist xs := List.filter_sublist ..

end Sys2Proof.Machine
end

