-- ==== Sys2Proof/Tests/Slice0.lean ====
section
/-! SUPPORT. The model's own tests: a smoke test of the well-formedness checks, one witness for each statement that has
hypotheses (a concrete state and operands that meet them, with what comes of it), and small tests of single steps. Expected
values are the spec's, by the rule each test names, or computed by hand from it. -/

namespace Sys2Proof.Tests

set_option maxRecDepth 100000
set_option Elab.async false

open Machine

/-! ### Helpers -/

/-- The next state of a command, where it answers one, meets `p`. -/
def after (c : Instr) (s : State) (p : State → Bool) : Bool :=
  match exec c s with
  | .next t => p t
  | _ => false

/-- A command stops with `noSuchUnit`. -/
def stops (c : Instr) (s : State) : Bool :=
  match exec c s with
  | .fault .noSuchUnit => true
  | _ => false

/-- An empty report of a start phase or a recovery stage. -/
def fine : StartReport := 
  { image := true, defectList := true, failed := [], untested := [], devices := [], tracker := true, bridge := true, area := true
    coverage := 1000, durationMs := 700 }

/-- The switch closed and the input at 50 V. -/
def powered : HotSwap := { HotSwap.reset with switchOn := true, present := true, inRange := true, vin := 50000 }

/-- A module in service, one second after its start. -/
def live : State :=
  { State.reset with
    cairn := 1000000000, devState := .ready, hotSwap := powered, fw := { Firmware.reset with running := true }
    host := { Host_.reset with bar0 := true, retry := false } }

/-- A bound graph of no virtual tiles that does not serve. -/
def graph0 : Graph :=
  { image := .empty, mode := .native, place := [], buntings := [], generation := 0, serving := none, sched := .reset,
    change := none, scree := 0, screeBytes := 0, spills := [], sampleAddr := 0, sampleRecords := 0, sampleSeq := 0,
    suspended := false, stopped := false, unloading := none, abandon := none, verify := .reset }

/-- A tile that is ON, its Tarn ACTIVE, bound to graph 0. -/
def tileOn (v : Nat) : Tile := { Tile.reset with use := .bound 0 v, on := true, tarnPower := .active }

/-! ### Well-formedness: an ill-formed command for each check, refused by name -/

theorem smoke_tile_numbers :
    [Instr.mma 320 0 [], .vadd 0 8192 [], .topk 320 8192 [], .sload 320 0 [], .summit 0 8192 [], .operationComplete 320 0 .pass,
      .memoryOperationComplete 320 0, .localReplay 320 0 [], .loadStepNotice 320 0, .loadStepNotice 0 8192, .tokenArrival 320 0,
      .tokenArrival 0 256, .creditReturn 0 256, .channelWordArrival 0 64 false, .expertRowArrival 320 0 none,
      .expertCountRecord 0 256 none, .multicastBranchRelease 320 0 0 0 0 [], .multicastBranchRelease 0 0 0 36 0 [],
      .summitArrive 320 0 none, .summitRelease 320 0 none, .summitArrive 0 0 (some 0x2000), .abandonFlit 320,
      .tarnClearDone 320, .tarnPatrolRead 320 [], .tarnPatrolWriteBack 320, .stagedTileTimeout 320, .burgeePass 320,
      .burgeeSwitchComplete 320, .screeRefill 320 0, .screeRefill 0 256, .wheelTurn 320].all
      (fun c => c.wellFormed == false && stops c live) = true := by decide +kernel

theorem smoke_side_port :
    [Instr.sideRead 320 .tarn 0 [], .sideRead 0 .tarn 786432 [], .sideRead 0 .channels 66 [], .sideRead 0 .tarnRegs 8 [],
      .sideRead 0 .opStore 16384 [], .sideAccessTimeout 320 0, .sideAccessTimeout 0 97, .tarnStagingWrite 4 [],
      .tarnStagingWrite 0 [1], .tarnStagingRead 0 257].all
      (fun c => c.wellFormed == false && stops c live) = true := by decide +kernel

/-- A module in service with submission ring 0, completion ring 0 and a doorbell page. -/
def ringed : State :=
  { live with host := { live.host with
      dbBase := 0x1000, lastPoll := 1000000000, pollNext := 2000
      sq := [(0, { Ring.reset with enable := true, log2 := 6, base := 0x20000, other := 1 })]
      cq := [(0, { Ring.reset with enable := true, log2 := 6, base := 0x30000 })] } }

/-- A descriptor of one entry: opcode, `arg`, and its body from byte 16. -/
def descOf (opc arg : Nat) (body : List Byte) : Desc :=
  ⟨0, 0, [BitVec.ofNat 8 opc, 1, 0, 0] ++ toLe 4 arg ++ List.replicate 8 0 ++ body ++ List.replicate (48 - body.length) 0, 0, 1, false⟩

/-- A module in service that holds it. -/
def withDesc (s : State) (d : Desc) : State :=
  { s with host := { ringed.host with descs := [d], nextTag := 1 } }

/-- A module in service with graph 0 bound. -/
def bound0 : State := { live with graphs := [(0, some graph0)] }

/-! ### A tile with one operation -/

/-- An operation word: `IN0` to `IN3` are queues 0 to 3, `OUT0` and `OUT1` queues 8 and 9 (R134). -/
def opw (opc inEn outEn hi : Nat) (ext : Bool := false) : OpWord :=
  BitVec.ofNat 128 (opc + 2 ^ 16 + 2 ^ 24 * 2 + 2 ^ 32 * 3 + 2 ^ 40 * 8 + 2 ^ 48 * 9 + 2 ^ 56 * inEn + 2 ^ 60 * outEn + 2 ^ 63 * b2n ext +
    2 ^ 64 * hi)

/-- The upper half of a vector word of one row (R139). -/
def vec (fin fout len : Nat) (func : Nat := 0) (ret : Nat := 0) : Nat :=
  fin + 2 ^ 8 * fout + 2 ^ 35 * len + 2 ^ 51 * func + 2 ^ 55 * ret

/-- Two FP32 values to the word. -/
def f32s : List Nat → List Nat
  | a :: b :: r => (a + 2 ^ 32 * b) :: f32s r
  | [a] => [a]
  | [] => []

/-- Tile 0 of graph 0 with one operation at index 0; input queue i holds one token with tag 5, which names `data[i]` from word
1024 × i on; `OUT0`'s ring begins at word 8192. -/
def opTile (w xw : OpWord) (data : List (List Nat)) : Tile :=
  { tileOn 0 with
    cfg := { TileCfg.reset with
      ops := [(0, w), (1, xw)], opWords := if bit w.toNat 63 then 2 else 1
      queues := [(8, { QueueCfg.reset with depth := 4, bufBase := 8192, bufWords := 512 })]
      routes := [(7, ⟨1, 2, 0, true⟩)] }
    run := { TileRun.reset with
      queues := data.zipIdx.map fun d => (d.2, ⟨[⟨.data (1024 * d.2) d.1.length, 5, false⟩], [], 0⟩)
      credits := [(8, ⟨1, 0, 0⟩), (9, ⟨1, 0, 0⟩)] }
    tarn := data.zipIdx.flatMap fun d => (d.1.zipIdx.filter (·.1 != 0)).map fun v =>
      (1024 * d.2 + v.2, ⟨BitVec.ofNat 64 v.1, 0, false⟩) }

def opState (w xw : OpWord) (data : List (List Nat)) : State := { bound0 with tiles := [(0, opTile w xw data)] }

/-- What the one firing of tile 0 would write, and its interval and depth. -/
def fired (c : Instr) (s : State) (p : Firing → Bool) : Bool :=
  after c s fun t => match (t.tile 0).run.flights with
    | [f] => p f
    | _ => false

/-- It writes these words from word 8192 on, and zero to the next boundary of `pad` words (R44, R518). -/
def writes (c : Instr) (s : State) (ws : List Nat) (pad : Nat := 8) : Bool :=
  fired c s fun f => decide (f.writes.map (·.1) = (List.range f.writes.length).map (8192 + ·)) &&
    f.writes.length == (ws.length + pad - 1) / pad * pad &&
    f.writes.map (·.2.toNat) == ws ++ List.replicate (f.writes.length - ws.length) 0 && !f.poison

/-- 1, −2, 3.5, 0.25 and 2, 0.5, −1.5, 4 in FP32. -/
def va : List Nat := f32s [0x3F800000, 0xC0000000, 0x40600000, 0x3E800000]
def vb : List Nat := f32s [0x40000000, 0x3F000000, 0xBFC00000, 0x40800000]
/-- Four ones. -/
def vc : List Nat := f32s [0x3F800000, 0x3F800000, 0x3F800000, 0x3F800000]

def vecState (opc inEn : Nat) (hi : Nat) (data : List (List Nat)) : State := opState (opw opc inEn 1 hi) 0 data

/-- An image of two virtual tiles, with one of everything that an operation names. -/
def image1 : Image :=
  { Image.empty with
    circuits := [⟨0, 1, 1⟩], buntings := [[0, 1]], consts := [⟨0, 8192, 4096⟩], xmaps := [⟨1, 4, 64, [⟨0, 1, 4, 0⟩]⟩] }

def graph1 : Graph := { graph0 with image := image1, place := [0, 1], buntings := [3] }

/-- The two tiles of graph 1, tile 0 in the given state. -/
def pairOf (x : Tile) : State := { live with graphs := [(0, some graph1)], tiles := [(0, x), (1, tileOn 1)] }

/-- The tile of `opTile`, with a word on channel 0, a credit for it, a route and a posted receive. -/
def fireTile (w xw : OpWord) (data : List (List Nat)) : Tile :=
  let x := opTile w xw data
  { x with
    cfg := { x.cfg with routes := [(0, ⟨1, 2, 0, true⟩)] }
    run := { x.run with channels := [(0, ⟨[77], 0, 16, 0, false, false⟩)], posted := [(0, 8, 5)] }
    sregs := [(2, 20), (3, 22)] }

def fireState (w xw : OpWord) (data : List (List Nat)) : State :=
  { live with graphs := [(0, some graph1)], tiles := [(0, fireTile w xw data), (1, tileOn 1)] }

/-- First and extension words of a stream operation without a constant reference at offset 4096 (R141). -/
def stream (opc inEn outEn bytes : Nat) (data : List (List Nat)) (cref : Nat := 0xFFFF) : State :=
  fireState (opw opc inEn outEn (cref + 2 ^ 22 * (bytes / 64 - 1)) true) (BitVec.ofNat 128 (1 + 2 ^ 8 * 4096)) data

/-- Word of the steering unit: channel 0, sources 2 and 3, destination 4 (R143). -/
def steer (opc inEn outEn func : Nat) : State :=
  fireState (opw opc inEn outEn (2 * 2 ^ 6 + 3 * 2 ^ 11 + 4 * 2 ^ 16 + func * 2 ^ 21)) 0 [[1], [2]]

/-- A state in which the one operation of each opcode is ready. -/
def rowState (opc : Nat) : State :=
  if opc = 0x10 then fireState (opw 0x10 3 1 (1 + 2 ^ 8)) 0 [List.replicate 32 0x3F8000003F800000, List.replicate 32 0x3F8000003F800000 ++ List.replicate 480 0]
  else if opc = 0x11 then fireState (opw 0x11 1 1 (1 + 2 ^ 8 + 2 ^ 51)) 0 [List.replicate 32 7]
  else if opc = 0x23 ∨ opc = 0x27 then fireState (opw opc 7 1 (vec 1 1 4)) 0 [va, vb, vc]
  else if opc < 0x27 ∨ opc = 0x29 ∨ opc = 0x2F then fireState (opw opc 3 1 (vec 1 1 4)) 0 [va, vb]
  else if opc = 0x2E then fireState (opw opc 3 1 (vec 16 16 1)) 0 [List.replicate 40 0, [0]]
  else if opc < 0x50 then fireState (opw opc 1 1 (vec 1 1 4)) 0 [va]
  else if opc = 0x55 then stream opc 3 0 64 [List.replicate 8 9, [0x000000003F800000]] 0xFFFF
  else if opc = 0x56 ∨ opc = 0x57 then stream opc 1 (opc - 0x56) 64 [List.replicate 8 9] 0
  else if opc = 0x51 ∨ opc = 0x53 ∨ opc = 0x54 then stream opc 1 0 64 [List.replicate 8 9]
  else if opc < 0x60 then stream opc 0 1 2048 []
  else steer opc (if opc = 0x64 then 1 else 0) (if opc = 0x64 then 1 else 0) 0

def flight0 : Firing :=
  { id := 0, index := 0, count := 0, first := 0, fire := 0, issue := 8, depth := 14, openEnded := false, inputs := [], reads := [], regsAt := []
    outs := [(8, ⟨.data 8192 1, 0, false⟩)], writes := [(8192, 5)], regs := [(4, 9)], poison := false, noReplay := false, sat := 3
    nan := 0, again := 0, failed := false, intact := true, sent := [], pieces := [], status := 0, failAt := 0, reloaded := []
    rowAcks := [], rowRequests := 0, acks := 0, countAcks := [], readAs := [] }

/-- Tile 0 in cycle 800 with the operation `opc` of `rowState` and one firing of it in flight. -/
def flying (opc : Nat) (f : Firing) : State :=
  let s := rowState opc
  let x := s.tile 0
  s.setTile 0 { x with cycle := 800, run := { x.run with flights := [f], nextId := 1 } }

/-! ### Graphs that serve -/

/-- Serving parameters of two pools of 64-byte pages, pool 0 on CXL range 0 and pool 1 in the module's HBM. -/
def serving0 : Serving :=
  { periodMs := 20, batchRows := 4, admitTokens := 16, chunkTokens := 4, prefillCost := 1, kvPageTokens := 64, maxPages := 4
    unitNs0 := 1000, kvPageBytes := 64, listBase := 0x100000, promptBase := 0x200000, promptBytes := 4096
    pools := [⟨2 ^ 58, 8⟩, ⟨0x400000, 8⟩], periodEntries := [], admissionEntries := [], stepId := false }

def range0 : CxlRange := { CxlRange.reset with valid := true, inService := true, sizeGib := 8, members := 1, serial := 77 }

def stream0 : Stream :=
  { handle := 0x200001, state := .decode, cls := 0, graph := 0, hring := 0, position := 3, limit := 10, promptEnd := 2, lastToken := 5
    hvSeq := 0, kvPages := 1, deadline := noDeadline, kvList := 0, waitSince := 0, cq := 0, notifyEach := false, lateSeen := false
    trimmedSeen := false, cancelReq := false, firstPeriod := false, remoteRetry := false, endDetail := 0, endStatus := 0, heldFrom := 0
    promptAddr := 0, userTag := 9, temperature := 0, topP := 0, seed := 0, topK := 0, stopId := 0, submitCairn := 0, tokensOut := 1
    lateCount := 0, trimCount := 0, preemptCount := 0, lateMark := false, verifyFails := 0, wroteAt := 0, kvLost := false, failPeriod := none
    retryFrom := 0 }

def graph2 : Graph := { graph0 with serving := some serving0 }

/-- Graph 2 serves stream 1, whose one page is page 0 of pool 0; CXL range 0 is present and zero. -/
def serves (x : CxlRange) (y : Graph) : State :=
  { ringed with
    graphs := [(0, some y)], tracker := { ringed.tracker with streams := [(1, stream0)], pages := [(1, [(0, 0)])] }
    mem := { ringed.mem with ranges := [(0, x)], cxl := ⟨[], [(0, 2 ^ 33)], [], []⟩, hbm := ⟨[], [(0, moduleArea)], [], []⟩ } }

/-! ### A module of a fabric -/

/-- Module 0 of a 2 × 1 × 1 torus, its time locked, port 0 in the given state. -/
def torus (p : FzPort) : State :=
  { live with fabric := { live.fabric with
      dims := 0x1042, id := 0, source := 2, self := 0x4000, active := defaultTable 0x1042 0, lock := .locked, lastBeacon := 1000000000
      timeMaster := 0x4001, ports := [(0, p)] } }

def portIn (st : PortState) : FzPort := { FzPort.reset with state := st }

/-! ### Ed25519 -/

/-- RFC 8032, 7.1, test 1. -/
theorem test_ed25519_vector : edVerify (toBe 32 0xd75a980182b10ab7d54bfed3c964073a0ee172f3daa62325af021a68f707511a) []
    (toBe 64 0xe5564300c360ac729086e2cc806e828a84877f1eb8e5d974d873e065224901555fb8821590a33bacc61e39701cf9b46bd25bf5f0595bbe24655141438e7a100b) = true := by
  decide +kernel

theorem powMod_eq (m : Nat) (hm : 1 < m) : ∀ n b e, e < 2 ^ n → powMod m n b e = b ^ e % m := by
  intro n
  induction n with
  | zero =>
    intro b e h
    have : e = 0 := by omega
    subst this
    simp [powMod, Nat.mod_eq_of_lt hm]
  | succ n ih =>
    intro b e h
    have h2 : e / 2 < 2 ^ n := by
      rw [Nat.div_lt_iff_lt_mul (by norm_num)]; rw [pow_succ] at h; exact h
    have hr : powMod m n (b * b % m) (e / 2) = (b ^ 2) ^ (e / 2) % m := by
      rw [ih _ _ h2, ← Nat.pow_mod, ← pow_two]
    unfold powMod
    rw [hr]
    have he : e = 2 * (e / 2) + e % 2 := by omega
    by_cases h1 : e % 2 = 1
    · rw [if_pos h1]
      conv_rhs => rw [he, h1, pow_succ, pow_mul]
      rw [Nat.mod_mul_mod]
    · rw [if_neg h1]
      have h0 : e % 2 = 0 := by omega
      conv_rhs => rw [he, h0, Nat.add_zero, pow_mul]

theorem fermat_two : 2 ^ (edP - 1) % edP = 1 := by
  rw [← powMod_eq edP (by decide +kernel) 255 2 (edP - 1) (by decide +kernel)]
  decide +kernel

/-- A multiple of the neutral element, as the additions leave it. -/
def neutral (p : EdPoint) : Prop := ∃ m, p = (0, 2 ^ m % edP, 2 ^ m % edP, 0)

theorem neutral_arith (P m n : Nat) :
    2 ^ m % P * (2 ^ n % P) % P = 2 ^ (m + n) % P ∧ (2 ^ m % P + P) * (2 ^ n % P + P) % P = 2 ^ (m + n) % P ∧
      2 ^ m % P * 2 * (2 ^ n % P) % P = 2 ^ (m + n + 1) % P ∧
      (2 ^ (m + n) % P + 2 ^ (m + n) % P) % P = 2 ^ (m + n + 1) % P ∧
      2 ^ (m + n + 1) % P * (2 ^ (m + n + 1) % P) % P = 2 ^ (2 * (m + n + 1)) % P ∧
      2 ^ (m + n) % P + P - 2 ^ (m + n) % P = P := by
  refine ⟨?_, ?_, ?_, ?_, ?_, ?_⟩
  · rw [← Nat.mul_mod, ← pow_add]
  · rw [Nat.mul_mod, Nat.add_mod_right, Nat.add_mod_right, Nat.mod_mod, Nat.mod_mod, ← Nat.mul_mod, ← pow_add]
  · exact (((Nat.mod_modEq (2 ^ m) P).mul_right 2).mul (Nat.mod_modEq (2 ^ n) P)).trans (by unfold Nat.ModEq; congr 1; ring)
  · rw [← Nat.add_mod]; congr 1; ring
  · rw [← Nat.mul_mod]; congr 1; ring
  · exact Nat.add_sub_cancel_left ..

theorem neutral_add (p q : EdPoint) (hp : neutral p) (hq : neutral q) : neutral (edAdd p q) := by
  obtain ⟨m, rfl⟩ := hp
  obtain ⟨n, rfl⟩ := hq
  obtain ⟨hb, ha, hd, hh, hs, hl⟩ := neutral_arith edP m n
  refine ⟨2 * (m + n + 1), ?_⟩
  unfold edAdd
  simp only [Nat.sub_zero, Nat.add_zero, Nat.zero_mul, Nat.mul_zero, Nat.zero_mod, ha, hb, hd, hl, Nat.mod_self, hh,
    Nat.add_mod_right, Nat.mod_mod, hs]

theorem neutral_mul : ∀ n k p, neutral p → neutral (edMul n k p) := by
  intro n
  induction n with
  | zero => intro k p _; exact ⟨0, by unfold edMul; decide +kernel⟩
  | succ n ih =>
    intro k p hp
    unfold edMul
    have h := ih (k / 2) _ (neutral_add p p hp hp)
    by_cases hk : k % 2 = 1
    · simp only [hk, if_true]; exact neutral_add _ _ h hp
    · simp only [hk, if_false]; exact h

theorem neutral_encode (p : EdPoint) (hp : neutral p) : edEncode p = toLe 32 1 := by
  obtain ⟨m, rfl⟩ := hp
  have hP : 1 < edP := by decide +kernel
  have hz : 2 ^ m % edP * edInv (2 ^ m % edP) % edP = 1 := by
    unfold edInv
    rw [powMod_eq edP hP 255 _ (edP - 2) (by decide +kernel), ← Nat.pow_mod, ← Nat.mul_mod]
    have : 2 ^ m * (2 ^ m) ^ (edP - 2) = (2 ^ (edP - 1)) ^ m := by
      rw [← pow_succ', ← pow_mul, ← pow_mul, Nat.mul_comm]
      have : edP - 2 + 1 = edP - 1 := by decide +kernel
      rw [this]
    rw [this, Nat.pow_mod, fermat_two, one_pow, Nat.mod_eq_of_lt hP]
  unfold edEncode
  simp only [hz, Nat.zero_mul, Nat.zero_mod, Nat.add_zero]

/-- A key and a signature that RFC 8032 takes for every message: both are the neutral element. They stand in for a key and its
signature where a message holds a free value of the part, so that no literal could sign it. -/
def anyPub : List Byte := toLe 32 1
def anySig : List Byte := toLe 64 1

theorem anySig_verifies (msg : List Byte) : edVerify anyPub msg anySig = true := by
  have hd : edDecode anyPub = some (0, 1, 1, 0) := by decide +kernel
  have ht : anySig.take 32 = anyPub := by decide +kernel
  have hs : leNat (anySig.drop 32) = 0 := by decide +kernel
  have h0 : edEncode (edMul 253 0 edBase) = toLe 32 1 := by decide +kernel
  have hn : neutral (0, 1, 1, 0) := ⟨0, by decide +kernel⟩
  unfold edVerify
  rw [if_pos (by decide +kernel), ht, hd]
  simp only [hs, h0, neutral_encode _ (neutral_add _ _ hn (neutral_mul 253 _ _ hn))]
  decide +kernel

theorem smoke_graphs_streams_memory :
    [Instr.abandonDrainDone 8, .graphUnloadComplete 8, .scheduleViolation 8 [], .cyclicWait 8 [], .queueDepthSample 8,
      .streamFinalRecord 2097152, .deadlineExpiry 2097152, .periodSelection 8, .periodBatchIssue 8, .sliceBoundary 8,
      .batchDelivery 8 0 0, .batchDelivery 0 2 0, .powerForecast 8, .harvest 8 0 0, .harvest 0 2 0, .kvPageMigration 8,
      .kvPageMoveDone 8 0 0 true, .hbmPatrolRead 16 0 0, .hbmPatrolRead 0 4 0, .retireFrameCopied 64, .cxlAccessTimeout 320 0 0,
      .cxlRangeLost 8 0, .cxlRangeLost 0 2, .cxlDeviceInsert 2 0 0 1, .cxlRemoveProceed 8, .cxlEventRecord 8,
      .bar2Read 4294967296 1, .bar2Write 4294967295 [1, 2], .mplaneResponse 320 0 0 none [], .mplaneResponse 0 0 0 (some 456) [],
      .mplaneRequest 320 0 0 none [] [] []].all
      (fun c => c.wellFormed == false && stops c live) = true := by decide +kernel

theorem smoke_fabric_and_rings :
    [Instr.fzSignalDetect 6, .fzEqualiseDone 6, .fzEqualiseTimeout 6, .fzAlignDone 6 0, .fzAlignTimeout 6,
      .fzIdentifyExchange 6 ⟨none, 0, 0, 0, 0⟩, .fzHeldRetry 6 ⟨none, 0, 0, 0, 0⟩, .fzDownRetry 6,
      .fzCodewordReceive 6 ⟨0, 0, []⟩ 0, .fzLockLoss 6, .fzRetrainDone 6 true, .fzRetrainTimeout 6, .fzBeaconSend 6 0,
      .fzPacketForward 7 0, .fzResendTimeout 8192 0 false, .fzOpenRetry 8192, .fzReceiverIdle 8192, .fzSenderIdle 8192,
      .windowCloseDone 65536, .descriptorFetch 256, .hostReadCompletion 256 (.failed .timeout []), .hostLinkReturn 17 640, .msixUnmask 2048].all
      (fun c => c.wellFormed == false && stops c live) = true := by decide +kernel

theorem smoke_register_writes :
    [Instr.registerWrite ⟨2 ^ 25, 4, 0⟩, .registerWrite ⟨0x60020, 4, 2 ^ 12⟩, .setupLockSet ⟨0x20, 4, 0⟩, .setupLockSet ⟨0x24, 4, 1⟩,
      .ringCtrlWrite ⟨0x10000, 4, 1⟩, .ringCtrlWrite ⟨0x12408, 4, 1⟩, .dbBaseWrite ⟨0x13008, 4, 0⟩, .evtRingWrite ⟨0x13008, 4, 0⟩,
      .streamTableBaseWrite ⟨0x1300C, 4, 0⟩, .bar2BaseWrite ⟨0x40004, 4, 0⟩, .retireSlotWrite ⟨0x40060, 4, 0⟩,
      .fzDimsWrite ⟨0x50004, 4, 0⟩, .fzSelfWrite ⟨0x50000, 4, 0⟩, .fzPortCtrlWrite ⟨0x50104, 4, 0⟩, .fzPortCtrlWrite ⟨0x50280, 4, 0⟩,
      .wake ⟨0x1300C, 4, 0⟩, .recoveryCtrlGo ⟨0x60000, 4, 2⟩, .shutdownCtrlGo ⟨0x20020, 4, 2⟩, .retrainFilzorPort ⟨0x60018, 4, 0⟩,
      .retrainHbmSliceGroup ⟨0, 4, 0⟩, .retrainCxlPort ⟨0, 4, 0⟩, .retrainComplete 3, .rescueCtrlWrite ⟨0x60020, 4, 0⟩ true,
      .rescueCtrlCommit ⟨0x60020, 4, 2 ^ 12⟩ true].all
      (fun c => c.wellFormed == false && stops c live) = true := by decide +kernel

theorem smoke_power_test_and_monitor :
    [Instr.smbusRegisterWrite .hotSwap 256 [] true, .smbusRegisterWrite .hotSwap 6 [] true,
      .smbusRegisterWrite .management 0x1C [] true, .smbusRegisterWrite .management 0x20 [] true, .ibcFail 8, .phOvercurrent 688 0,
      .phOvercurrent 0 8, .phOvertemp 688 0, .phOvertempClear 688 0, .phRegulation 688 0, .phDead 0 8, .powerDomainTurnOn 688,
      .powerStage 29 false, .powerDomainTurnOff 688, .powerStageStalled 29, .droopStretch 368, .undervoltage 688 0, .phaseShed 688,
      .thermalStep 90 368 true, .thermalHalt 120 368, .thermalResume 20 368, .thermalTrip 120 368, .voltageLoop 688 1,
      .filzorEqualisationUpdate 6 0, .hbmTrainingUpdate 16 0, .digestCompare 320 0 0, .digestCompare 0 0 320,
      .stressSessionStart 20, .stressSessionEnd 320, .stressMismatch 320 0, .stressNominalRetestDone 320 true,
      .knownAnswerRunDone 320 true, .shutdownSliceDone ⟨1001, [], 0⟩, .shutdownSliceDone ⟨0, [], 2 ^ 32⟩,
      .shutdownBudgetExpiry ⟨1001, [], 0⟩ true, .onDemandSliceDone ⟨1001, [], 0⟩ false, .dumpGroupDone [(320, 0)],
      .dumpGroupDone [(0, 97)], .fwChunk 368 0 0, .fwUnitActivate 368, .block 0 0 [] true].all
      (fun c => c.wellFormed == false && stops c live) = true := by decide +kernel

/-! ### Power and the input -/

theorem witness_StepRunsFrontCommand :
    ({ live with pending := [.pwrDisLow, .help] } : State).pending = .pwrDisLow :: [.help] ∧ live.pending = [] ∧
      (match step live with | .next t => t.cairn | _ => 0) = 1000000004 ∧ (torus .reset).fabric.lock = .locked ∧
      [((1000, true), 8), ((1000, false), 0), ((2000, true), 4)].all (fun c =>
        match step { live with fabric := { live.fabric with lock := .holdover, slewRate := some c.1, lastSlew := 999999000 } } with
        | .next t => t.cairn == 1000000000 + c.2 && t.fabric.lastSlew == (if c.2 = 4 then 999999000 else t.cairn)
        | _ => false) = true := by decide +kernel

theorem witness_WellFormedCommandsNeverStop :
    (Instr.mma 319 8191 []).wellFormed = true ∧ (Instr.mma 320 0 []).wellFormed = false := by decide

theorem witness_StepConsumesOneCommand :
    (match step { live with pending := [.pwrDisLow, .help] } with | .next t => t.pending | _ => []) = [.help] := by decide +kernel

theorem witness_MemoryStaysCanonical :
    live.memWf = true ∧ after (.bar2Write 64 [1, 0, 2]) live (fun t => t.memWf && t.mem.hbm.bytes.length == 3) = true := by
  decide +kernel

theorem witness_FusesAreOneTime :
    after .pwrDisLow { live with fuses := { Fuses.reset with bad := [(1, 319)], fwRevoked := 8, blown := true } }
      (fun t => t.fuses.bad == [(1, 319)] && bit t.fuses.fwRevoked 3 && t.fuses.blown) = true := by decide +kernel

theorem witness_PowerOffPathOpensSwitch :
    live.hotSwap.switchOn = true ∧ live.fw.running = true ∧ live.hotSwap.powerOff = false ∧
      [(Instr.moduleRemoval, 7), (.pwrDisHigh, 8), (.powerOff true true, 9), (.powerCycle true, 9), (.brownoutReset 39999, 1),
        (.inputOvervoltageTrip 60001, 2), (.thermalTrip 116 356, 5), (.thermalTrip 200 367, 5), (.clockLost, 6)].all
        (fun c => after c.1 live fun t => !t.hotSwap.switchOn && t.hotSwap.cause == c.2 && t.hotSwap.unread) = true ∧
      after (.ibcFail 7) { live with power := { live.power with ibcFailed := [0, 1, 2, 3, 4] } }
        (fun t => !t.hotSwap.switchOn && t.hotSwap.cause == 3) = true := by decide +kernel

theorem witness_InputSwitchStartsColdStart :
    State.reset.hotSwap.switchOn = false ∧ State.reset.hotSwap.pwrDis = false ∧ State.reset.hotSwap.powerOff = false ∧
      [44000, 57000].all (fun mv => after (.inputSwitchClose mv) State.reset fun t =>
        t.hotSwap.switchOn && t.seq == .start 1 && t.ledger.startCount == 1 && t.hotSwap.vin == mv) = true ∧
      [43999, 57001].all (fun mv => after (.inputSwitchClose mv) State.reset fun t => decide (t = State.reset)) = true ∧
      after (.inputSwitchClose 50000) live (fun t => decide (t = live)) = true := by decide +kernel

theorem witness_HotSwapControllerRows :
    after .attnBlink { live with devState := .failed } (fun t => !t.hotSwap.attn && t.cairn == 1000000000) = true ∧
      live.shutdown.done = false ∧
      after .smbusAlertResponse { live with mgmt := { live.mgmt with alert := 16, alertEn := 16 } } (fun t => t.mgmt.answer.isSome)
        = true ∧
      after .smbusAlertResponse { live with mgmt := { live.mgmt with alert := 16, alertEn := 15 } } (fun t => t.mgmt.answer.isNone)
        = true := by decide +kernel

theorem witness_ManagementRegisterWrites :
    after (.smbusRegisterWrite .management 0x18 [0xFF, 0xFF, 0xFF, 0xFF] true) live (fun t => t.power.capW == 0xFFF) = true ∧
      after (.smbusRegisterWrite .management 0x18 [0, 0, 0, 0] true) live (fun t => t.power.capW == 0) = true ∧
      after (.smbusRegisterWrite .management 0x24 [0x1F, 0] true) { live with mgmt := { live.mgmt with alert := 0x1F } }
        (fun t => t.mgmt.alert == 0) = true ∧
      after (.smbusRegisterWrite .hotSwap 1 [0x80] true) { live with hotSwap := { powered with unread := true } }
        (fun t => !t.hotSwap.unread) = true ∧
      bit 0x3FFF 14 = false ∧ bit 0x4000 14 = true ∧ idIn live.fabric.dims 0 = true ∧ idIn live.fabric.dims 1 = false ∧
      live.fabric.everUp = false ∧
      after (.mgCoordWrite 0x4001 true) live (fun t => t.mgmt.alert == 16 && t.fabric.source == 0) = true ∧
      after (.mgCoordWrite 0x4000 true) live (fun t => t.mgmt.alert == 0 && t.fabric.source == 1 && t.fabric.id == 0) = true := by
  decide +kernel

theorem witness_ShutdownRequestBegins :
    bound0.graphIds = [0] ∧ live.graphIds = [] ∧ live.seq = .idle ∧ live.shutdown.busy = false ∧
      live.shutdown.forceUnload = false ∧ live.shutdown.budgetS = 60 ∧ live.fuses.lcState = 3 ∧
      after (.mgShutdownReq true) bound0 (fun t => t.shutdown.busy && !t.shutdown.scheduling) = true ∧
      after (.mgShutdownReq true) live (fun t => t.shutdown.busy && t.shutdown.scheduling && t.shutdown.usedMs == 0) = true ∧
      after (.mgShutdownReq true) { live with shutdown := { live.shutdown with budgetS := 1 } } (fun t => t.shutdown.scheduling) = true ∧
      after (.mgShutdownReq true) { live with shutdown := { live.shutdown with busy := true } } (fun t => !t.shutdown.scheduling) = true := by
  decide +kernel

theorem witness_InputPowerRows :
    after (.brownoutWarn 42499) { live with tiles := [(3, { Tile.reset with use := .stress 9 0 false })] }
      (fun t => t.power.brownout && (t.tile 3).use == .free) = true ∧
      after (.brownoutClear 43000) { live with power := { live.power with brownout := true } }
        (fun t => !t.power.brownout && t.ledger.events == [(1000000000, ⟨0x1702, 43000, 0, 0⟩)]) = true ∧
      after (.overvoltageWarn 57001) live (fun t => t.power.overvoltage && t.hotSwap.switchOn) = true ∧
      after (.ibcFail 7) live (fun t => t.power.ibcFailed == [7] && t.mgmt.alert == 4) = true ∧
      after (.ibcFail 0) { live with power := { live.power with ibcFailed := [4, 3, 2, 1], inputMv := 50000 } }
        (fun t => t.power.ibcFailed.length == 5 && t.power.limit * 7 == 70000 * (1950 * 3)) = true := by decide +kernel

theorem witness_RegulatorPhaseRows :
    phasesOf 0 = 8 ∧ 0 < phasesOf 687 ∧ (live.phase 7).dead = false ∧ (live.phase (319 * 8 + 7)).stopped = false ∧
      (319 * 8 + 7 = 2559) ∧
      after (.phOvercurrent 319 7) live (fun t => (t.phase 2559).score == 256) = true ∧
      after (.phRegulation 0 0) live (fun t => (t.phase 0).score == 256) = true ∧
      after (.undervoltage 320 0) live (fun t => t.ledger.events == [(1000000000, ⟨0x1F09, 0, 320, 0⟩)]) = true ∧
      after (.phOvertemp 319 7) live (fun t => (t.phase 2559).stopped) = true ∧
      after (.phOvertempClear 0 0) { live with power := { live.power with phases := [(0, { Phase.reset with stopped := true })] } }
        (fun t => !(t.phase 0).stopped) = true ∧
      after (.phOvertempClear 0 0)
        { live with
          tiles := [(0, { tileOn 0 with capped := true, ceilingCap := true })]
          power := { live.power with phases := [(0, { Phase.reset with stopped := true })] } }
        (fun t => (t.tile 0).capped && t.failedPhases 0 == 0) = true ∧
      after (.phDead 0 0) live (fun t => (t.phase 0).dead && (t.phase 0).failed && decide (1024 ≤ (t.phase 0).score)) = true ∧
      (live.tile 319).quietEngines = true ∧ (flying 0x20 flight0 |>.tile 0).quietEngines = false ∧
      after (.phaseShed 319) live (fun t => (List.range 8).all fun p => (t.phase (2552 + p)).shed == decide (2 ≤ p)) = true := by
  decide +kernel

/-- A module in service whose neighbourhood 0 stages a turn-on of tile 0's compute domain. -/
def staging (stage : Nat) (on : Bool) (dom : Nat) : State :=
  { live with power := { live.power with stagings := [(0, [⟨dom, on, stage, 1000000000, 0, false, false⟩])] } }

theorem witness_DomainStagingRows :
    ({ live with tiles := [(0, { tileOn 0 with on := false })] } : State).mayTurnOn 0 = true ∧ live.hood (hoodOf 0) = [] ∧
      ({ live with tiles := [(0, { Tile.reset with on := true })] } : State).mayTurnOff 0 = true ∧
      ({ live with tiles := [(0, { Tile.reset with tarnPower := .active })] } : State).mayTurnOff 320 = true ∧
      after (.powerDomainTurnOn 0) { live with tiles := [(0, { tileOn 0 with on := false })] }
        (fun t => t.hood 0 == [⟨0, true, 0, 1000002000, 0, false, false⟩]) = true ∧
      after (.powerDomainTurnOff 0) { live with tiles := [(0, { Tile.reset with on := true })] }
        (fun t => t.hood 0 == [⟨0, false, 0, 1000002000, 0, false, false⟩]) = true ∧
      ({ live with tiles := [(0, { tileOn 0 with on := false })] } : State).mayTurnOff 320 = true ∧ (tileOn 0).inUse = true ∧
      after (.powerDomainTurnOff 320) { live with tiles := [(0, { tileOn 0 with on := false })] }
        (fun t => (t.tile 0).tarnPower == .retain && t.cairn == 1000004000) = true ∧
      after (.powerStage 0 false) (staging 0 true 0) (fun t => t.hood 0 == [⟨0, true, 1, 1000000250, 0, false, false⟩]) = true ∧
      after (.powerStage 0 false) (staging 15 true 0) (fun t => t.hood 0 == [⟨0, true, 16, 1000000250, 0, false, false⟩]) = true ∧
      after (.powerStage 0 true) (staging 15 true 0) (fun t => (t.hood 0).map (·.waited) == [4]) = true ∧
      after (.powerStage 0 false) (staging 16 true 0) (fun t => t.hood 0 == [] && (t.tile 0).on) = true ∧
      after (.powerStage 0 false) (staging 16 true 320) (fun t => (t.tile 0).tarnPower == .active) = true ∧
      after (.powerStage 0 false) { staging 16 false 639 with tiles := [(319, { Tile.reset with tarnPower := .active })] }
        (fun t => (t.tile 319).tarnPower == .off) = true ∧
      after (.powerStage 0 false) { staging 16 false 0 with tiles := [(0, tileOn 0)] } (fun t => (t.tile 0).on && t.hood 0 == []) = true ∧
      after (.powerStage 0 false) (let s := staging 16 true 0; { s with power := { s.power with lost := [0] } })
        (fun t => !(t.tile 0).on && t.hood 0 == []) = true ∧
      after (.powerStage 0 false) { staging 16 false 0 with tiles := [(0, { Tile.reset with on := true, tarnPower := .active })] }
        (fun t => !(t.tile 0).on && t.hood 0 == [⟨320, false, 0, roundUp (t.cairn + 2000) 4, 0, false, false⟩]) = true ∧
      after (.powerStage 0 false) (staging 16 true 659) (fun t => Tab.get false t.planes.routerOn 19) = true ∧
      after (.powerStage 0 false) (staging 16 false 684) (fun t => Tab.get false t.power.domOff 684) = true ∧
      after (.powerStageStalled 0) (staging 1 true 0)
        (fun t => t.power.setMhz == 1840 && (t.hood 0).map (·.stalled) == [true] && t.power.stallSteps == 1) = true := by decide +kernel

theorem witness_PowerSampleSetPoint :
    900 ≤ live.power.setMhz ∧ live.power.overCurrent = false ∧ live.power.stagings = [] ∧
      after (.powerSample ⟨50000, 1951, 1951, 100, 100, 60, 50, 50⟩) live
        (fun t => t.power.limPower && t.power.setMhz < 1850 && t.power.inputMv == 50000) = true ∧
      after (.powerSample ⟨50000, 1000, 1000, 4451, 100, 60, 50, 50⟩) live
        (fun t => t.power.limCurrent && t.power.setMhz ≤ 1800) = true ∧
      after (.powerSample ⟨50000, 1000, 1000, 4450, 100, 60, 50, 50⟩) live
        (fun t => !t.power.limCurrent && t.power.setMhz == 1860) = true := by decide +kernel

theorem witness_ThermalRows :
    after (.thermalStep 255 0 false) live (fun t => t.power.setMhz == 1840 && t.power.limThermal) = true ∧
      islandLimit 0 < 255 ∧ islandLimit 367 < 255 ∧
      after (.thermalStep 0 367 true) live (fun t => t.power.setMhz == 1840) = true ∧
      after (.thermalHalt 116 355) { bound0 with tiles := [(0, tileOn 0)] }
        (fun t => t.power.halted && t.hasStaging 0 false && !t.hasStaging 0 true &&
          ((t.graph? 0).bind (·.abandon)).any fun a => a.causes.contains 6) = true ∧
      ({ live with tiles := [(5, { Tile.reset with use := .stress 9 0 false, on := true })] } : State).stressed 5 = true ∧
      live.stressed 5 = false ∧
      after (.thermalResume 94 367)
        { bound0 with
          tiles := [(0, { tileOn 0 with on := false }), (1, { Tile.reset with fenced := true })]
          power := { live.power with halted := true } }
        (fun t => !t.power.halted && t.hasStaging 0 true && (t.tile 0).clearing && !t.hasStaging 1 true) = true := by decide +kernel

theorem witness_ClockAndLoopRows :
    after .clockRefLost live (fun t => t.power.refHoldover) = true ∧
      after .clockRefRestored { live with power := { live.power with refHoldover := true } } (fun t => !t.power.refHoldover) = true ∧
      live.islandOn 367 = true ∧
      after (.droopStretch 367) { live with power := { live.power with stretch := [(367, List.replicate 15 1000000000)] } }
        (fun t => (t.stretchOf 367).length == 16 && t.ledger.events == []) = true ∧
      after (.droopStretch 367) { live with power := { live.power with stretch := [(367, List.replicate 16 1000000000)] } }
        (fun t => t.ledger.events.map (·.2.code) == [0x170D]) = true ∧
      after (.droopStretch 0)
        { live with
          tiles := [(0, tileOn 0)], planes := { live.planes with routerOn := [(0, true)] }
          power := { live.power with apart := [(320, List.replicate 16 1000000000)] } }
        (fun t => (t.stretchOf 0).length == 1 && (t.stretchOf 320).length == 1 && (t.apartOf 0 320).length == 16) = true ∧
      after (.droopStretch 0)
        { live with
          tiles := [(0, tileOn 0)], planes := { live.planes with routerOn := [(0, true)] }
          power := { live.power with
            apart := [(320, List.replicate 16 1000000000)], stretch := [(320, List.replicate 16 1000000000)] } }
        (fun t => (t.stretchOf 0).length == 0 && (t.stretchOf 320).length == 16) = true ∧
      overCeiling 1850000 (16 - 1) = false ∧
      after (.voltageLoop 319 (-1)) live (fun t => Tab.get 16 t.power.trims 319 == 15) = true ∧
      after (.voltageLoop 659 (-100)) live (fun t => Tab.get 16 t.power.trims 659 == -16) = true ∧
      after (.filzorEqualisationUpdate 5 9) { live with fabric := { live.fabric with ports := [(5, { FzPort.reset with state := .up })] } }
        (fun t => (t.port 5).taps == 9) = true ∧
      live.inService = true ∧ after (.hbmTrainingUpdate 15 3) live (fun t => t.power.hbmTrain == [(15, 3)]) = true ∧
      live.cairnOn = true ∧
      after .trainingSave { live with power := { live.power with trims := [(2, -3)] } }
        (fun t => t.ledger.hours == 24 && t.ledger.training.any fun e => e.kind == 6 && e.part == 2 && e.value == 13 && e.hours == 24 && e.crc == e.sum) = true := by decide +kernel

/-- A firmware image under the key and signatures of `anySig_verifies`: section 0 of 512 bytes, the others empty (R465); its
digests are computed outside the model. -/
def fwImage : List Byte := toLe 1280
    0x1000000000000000000000000000000000000000000000000000000000000000000000000000000000000000000000000000000000000000000000000000000013EDA27F97A3238A5817A4147BD31B9632FEC7E87D21883FFB0F2855D3CD1D047CEE96CD321A9F483DC15570B05E420D607806DD6502854F1BDB8EF7E35E183CF00000000000000000000000000000007000000000000000000000000000000000000000000000000000000000000000000000000000000000000000000000000000000000000000000000000000000013EDA27F97A3238A5817A4147BD31B9632FEC7E87D21883FFB0F2855D3CD1D047CEE96CD321A9F483DC15570B05E420D607806DD6502854F1BDB8EF7E35E183CF00000000000000000000000000000006000000000000000000000000000000000000000000000000000000000000000000000000000000000000000000000000000000000000000000000000000000013EDA27F97A3238A5817A4147BD31B9632FEC7E87D21883FFB0F2855D3CD1D047CEE96CD321A9F483DC15570B05E420D607806DD6502854F1BDB8EF7E35E183CF00000000000000000000000000000005000000000000000000000000000000000000000000000000000000000000000000000000000000000000000000000000000000000000000000000000000000013EDA27F97A3238A5817A4147BD31B9632FEC7E87D21883FFB0F2855D3CD1D047CEE96CD321A9F483DC15570B05E420D607806DD6502854F1BDB8EF7E35E183CF00000000000000000000000000000004000000000000000000000000000000000000000000000000000000000000000000000000000000000000000000000000000000000000000000000000000000013EDA27F97A3238A5817A4147BD31B9632FEC7E87D21883FFB0F2855D3CD1D047CEE96CD321A9F483DC15570B05E420D607806DD6502854F1BDB8EF7E35E183CF00000000000000000000000000000003000000000000000000000000000000000000000000000000000000000000000000000000000000000000000000000000000000000000000000000000000000013EDA27F97A3238A5817A4147BD31B9632FEC7E87D21883FFB0F2855D3CD1D047CEE96CD321A9F483DC15570B05E420D607806DD6502854F1BDB8EF7E35E183CF00000000000000000000000000000002000000000000000000000000000000000000000000000000000000000000000000000000000000000000000000000000000000000000000000000000000000013EDA27F97A3238A5817A4147BD31B9632FEC7E87D21883FFB0F2855D3CD1D047CEE96CD321A9F483DC15570B05E420D607806DD6502854F1BDB8EF7E35E183CF00000000000000000000000000000001000000000000000000000000000000000000000000000000000000000000000000000000000000000000000000000000000000000000000000000000000000018E54486B4002E6FBAC8B4307023483F049C805A8AA2D3E99444AA2A51D6E7600C53CA33E15F1AADDF81D730732515AADF17FF7DCEADCF4753F517125E0A37DF2000000000000020000001000000000000000000000000000000000000000000000000000000000000000000000000001000000000000123400000000000012000000000200000003000800014E464D58
  ++ List.replicate 2816 0 ++ List.replicate 512 0xA5

/-- Fuses that hold that key's digest in slot 2. -/
def fwFuses : Fuses := { Fuses.reset with keys := [(2, toLe 64 0xA5B2DEC6FCDEF1067EF1F495F38A527A57403A4A196936D40B5DA8F007367699DB6DF68A7AFBA153B214F90D75C5A0D7AF5DE444CE566EEE8CDD82CC5E260CCE)] }

/-! ### Start, recovery, rings, firmware, test slices -/

theorem witness_ColdStartPhases :
    [after (.startPhaseComplete fine) { live with seq := .start 1 } (fun t => t.seq == .start 2 && t.cairn == 0 && t.fw.running),
      after (.startPhaseBudgetExpiry fine) { live with seq := .start 1 } (fun t => t.seq == .start 2),
      after (.startPhaseComplete { fine with image := false }) { live with seq := .start 1 } (fun t => t.seq == .rescue && t.host.bar0),
      after (.startPhaseComplete fine) { live with seq := .start 1, ledger := { live.ledger with image := [0] } } (fun t => t.seq == .rescue),
      after (.startPhaseComplete fine) { live with seq := .start 2 } (fun t => t.seq == .start 3 && Tab.get false t.planes.routerOn 19),
      after (.startPhaseComplete fine) { live with seq := .start 3 } (fun t => t.seq == .start 4 && t.mem.hbm.get 0 0 0x5FB0000000 == 0),
      after (.startPhaseComplete fine) { live with seq := .start 4 } (fun t => t.seq == .start 5 && t.host.bar0 && !t.host.retry),
      after (.startPhaseComplete fine) { live with seq := .start 5 } (fun t => t.seq == .idle && t.devState == .ready && t.host.wake),
      after (.startPhaseComplete fine) { live with seq := .start 5, selfTest := { SelfTest.reset with fault := some (3, 0) } } (fun t => t.devState == .failed)].all id
      = true := by decide +kernel

theorem witness_KnownAnswerRuns :
    ({ live with seq := .start 5 } : State).tilesTested = true ∧
      after (.knownAnswerRunDone 319 false) { live with seq := .start 5 } (fun t => t.selfTest.katFailed == [319]) = true ∧
      after (.knownAnswerRunDone 319 false) { live with seq := .recovery 8 0 true false, selfTest := { SelfTest.reset with katFailed := [319] } }
        (fun t => (t.tile 319).fenced && (t.tile 319).part == 3 && t.markedBad 1 319) = true ∧
      after (.knownAnswerRunDone 0 true) { live with seq := .start 5, selfTest := { SelfTest.reset with katFailed := [0] } }
        (fun t => (t.tile 0).part == 2 && (t.tile 0).score == 1024 && t.selfTest.katFailed == []) = true := by decide +kernel

/-- A module in stage 2 of a recovery whose dump, of register blocks only, runs. -/
def dumping : State :=
  { live with
    seq := .recovery 2 0 true true
    dump := { Dump.reset with running := true, size := 65536 + 8 * 8256, sampleUnits := 0, base := 4096, cairnStart := 1000000000 } }

theorem witness_CrashDumpRows :
    dumping.dump.unreach = [] ∧ dumping.dump.tiles + 8 < 320 ∧
      dumpHead + (dumping.dump.tiles + 8) * dumping.dump.recordBytes ≤ dumping.dump.size ∧
      (∀ i < 8, dumping.cairn + dumping.dumpTime (dumping.dump.tiles + i) ≤ dumping.dump.cairnStart + 300000000) ∧
      after (.dumpGroupDone []) dumping (fun t => t.dump.tiles == 8) = true ∧
      after .dumpBudgetExpiry { dumping with dump := { dumping.dump with size := 128 } } (fun t => t.dump.done && t.dump.truncated) = true ∧
      after (.sideAccessTimeout 319 96) dumping (fun t => t.dump.unreach == [(319, 96)]) = true := by decide +kernel

theorem witness_HostResetsStartRecovery :
    [.functionLevelReset, .hotReset, .d3hotToD0, .perstNAssert].all (fun c => after c live fun t =>
        t.seq == .recovery 1 0 false false && t.devState == .recovering && !t.host.bar0 && t.host.retry) = true ∧
      after .hostLinkReturn { live with host := { live.host with linkUp := false } } (fun t => t.seq == .recovery 1 0 false false) = true ∧
      after .hostLinkDown live (fun t => !t.host.linkUp && t.host.dmaStopped) = true ∧
      live.bar0Answers = true ∧
      after (.recoveryCtrlGo ⟨0x60000, 4, 3⟩) live (fun t => t.seq == .recovery 1 0 false true && t.dump.enable) = true ∧
      after (.recoveryStageComplete fine)
        { live with seq := .recovery 1 0 false true, dump := { Dump.reset with size := 1 } } (fun t => t.dump.running) = true ∧
      after (.recoveryStageComplete fine) { live with seq := .recovery 1 0 false true } (fun t => t.dump.skipped) = true := by
  decide +kernel

theorem witness_RecoveryStages :
    [after (.recoveryStageComplete fine) { live with seq := .recovery 1 2 false false } (fun t => t.seq == .recovery 2 2 true false),
      after (.recoveryStageComplete fine) { live with seq := .recovery 2 2 true false } (fun t => t.seq == .recovery 3 2 true false),
      after (.recoveryStageComplete fine) { live with seq := .recovery 3 2 true false } (fun t => !t.fw.running),
      after (.recoveryStageComplete fine) { live with seq := .recovery 4 2 true false } (fun t => t.fw.running && t.seq == .recovery 5 2 true false),
      after (.recoveryStageComplete fine) { live with seq := .recovery 5 2 true false } (fun t => t.seq == .recovery 6 2 true false),
      after (.recoveryStageComplete fine) { live with seq := .recovery 6 2 true false } (fun t => t.seq == .recovery 7 2 true false),
      after (.recoveryStageComplete fine) { live with seq := .recovery 7 2 true false } (fun t => t.seq == .recovery 8 2 true false),
      after (.recoveryStageComplete fine) { live with seq := .recovery 8 2 true false } (fun t => t.seq == .recovery 9 2 true false),
      after (.recoveryStageComplete fine) { live with seq := .recovery 9 2 true false, recoveries := 2 ^ 32 - 1 }
        (fun t => t.seq == .idle && t.recoveries == 0 && t.devState == .ready),
      after .recoveryStageTimeout { live with seq := .recovery 3 2 true false } (fun t => t.seq == .recovery 3 3 true false),
      after .recoveryStageTimeout { live with seq := .recovery 1 0 false false } (fun t => t.seq == .recovery 1 1 false false),
      after .recoveryStageTimeout { live with seq := .recovery 9 3 true false } (fun t => t.seq == .idle && t.devState == .failed)].all id
      = true := by decide +kernel

/-- A NOP's entry, and one of SKIP. -/
def nopBytes : List Byte := [2, 1, 0, 0, 0, 0, 0, 0, 9] ++ List.replicate 55 0
def skipBytes : List Byte := [1, 1] ++ List.replicate 62 0

/-- The same with one descriptor held. -/
def holding (bs : List Byte) : State :=
  { ringed with host := { ringed.host with descs := [⟨0, 0, bs, 0, 1, false⟩], nextTag := 1 } }

theorem witness_RingRows :
    ringed.ringsRun = true ∧ after (.doorbellPoll (.failed .timeout [])) ringed
        (fun t => t.host.lastPoll == 1000002000 && t.host.pcie.aer.contains .timeout) = true ∧
      after (.doorbellPoll (.data (toLe 0x900 64))) ringed (fun t => (t.sq 0).other == 64) = true ∧
      (ringed.sq 0).size = 64 ∧ (ringed.sq 0).halted = false ∧
      ((List.range 256).map fun i => (ringed.host.lastRing + 1 + i) % 256).find? (ringed.canFetch 1) = some 0 ∧
      after (.descriptorFetch 1) ringed (fun t => t.host.fetches == [⟨0, 0, 1⟩] && (t.sq 0).fetched == 1 && (t.cq 0).reserved == 1) = true ∧
      after (.hostReadCompletion 0 (.failed .abort [])) { ringed with host := { ringed.host with fetches := [⟨0, 0, 1⟩] } }
        (fun t => (t.sq 0).halted && (t.cq 0).count == 1 && t.host.pcie.aer.contains .abort) = true ∧
      after (.hostReadCompletion 0 (.data nopBytes)) { ringed with host := { ringed.host with fetches := [⟨0, 0, 1⟩] } }
        (fun t => t.host.descs == [⟨0, 0, nopBytes, 0, 1, false⟩] && (t.sq 0).count == 1) = true ∧
      after (.skip 0) (holding skipBytes) (fun t => t.host.descs == [] && (t.sq 0).count == 1) = true ∧
      ringed.beats = true ∧ after .heartbeatWrite ringed (fun t => t.host.hbCount == 1) = true ∧
      after (.msixUnmask 2047) { ringed with host := { ringed.host with pendingVec := [2047] } }
        (fun t => t.host.messages == [2047] && t.host.pendingVec == []) = true ∧
      ringed.dma = true ∧ ringed.host.unmasked = [] ∧
      after (.msixUnmask 2047 true (some (0xFEE00000, 65))) { ringed with host := { ringed.host with pendingVec := [2047] } }
        (fun t => t.host.messages == [] && t.host.pendingVec == [2047] && Tab.get (0, 0) t.host.msix 2047 == (0xFEE00000, 65)) = true ∧
      after (.msixUnmask 0) { ringed with host := { ringed.host with pendingVec := [0], linkUp := false } }
        (fun t => t.host.messages == [] && t.host.pendingVec == [0]) = true ∧
      after (.pcieConfigRequest .classCode none) { live with seq := .start 2, host := { live.host with retry := true } }
        (fun t => t.rd == 1) = true ∧
      after (.pcieConfigRequest .classCode none) ringed (fun t => t.rd == 0 && t.host.pcie.answer == 0x120000) = true ∧
      after (.pcieConfigRequest .maxPayload (some 512)) ringed (fun t => t.configRead .maxPayload == 512) = true ∧
      after (.pcieConfigRequest .deviceId (some 1)) ringed (fun t => t.configRead .deviceId == 0x0A48) = true := by
  decide +kernel

theorem witness_NopWritesOneRecord :
    (holding nopBytes).starts 0 0x02 (fun _ => { entries := 1, arg := 0, named := [], align := true }) ⟨0, 0, nopBytes, 0, 1, false⟩ ∧
      (holding nopBytes).dma = true ∧
      after (.nop 0) (holding nopBytes) (fun t => (t.cq 0).count == 1 && Tab.getAll 0 t.host.mem 0x30000 32 != List.replicate 32 0 &&
        t.host.descs == []) = true := by
  refine ⟨⟨?_, ?_, ?_, ?_, ?_, ?_⟩, ?_, ?_⟩ <;> decide +kernel

/-- A `FW_UPDATE` of the image's 4,608 bytes in host memory. -/
def fwDesc : Desc :=
  ⟨0, 0, [0x70, 1, 0, 0, 3, 0, 0, 0] ++ List.replicate 8 0 ++ toLe 8 0x100000 ++ toLe 8 4608 ++ List.replicate 32 0, 0, 1, false⟩

def fwHolding : State := { ringed with fuses := fwFuses, host := { ringed.host with descs := [fwDesc], nextTag := 1 } }

theorem fwImage_sections : (List.range 8).all (sectionOk fwImage) = true := by
  have hp : mPub fwImage = anyPub := by decide +kernel
  have hs : (List.range 8).all (fun k => mSectSig fwImage k == anySig) = true := by decide +kernel
  have h0 : sha512 (mSection fwImage 0) = mDigest fwImage 0 := by decide +kernel
  have h1 : sha512 [] = mDigest fwImage 1 := by decide +kernel
  have he : (List.range 8).all (fun k => k == 0 || (mSection fwImage k == [] && mDigest fwImage k == mDigest fwImage 1)) = true := by
    decide +kernel
  rw [List.all_eq_true] at *
  intro k h
  have hk : sha512 (mSection fwImage k) = mDigest fwImage k := by
    have h2 := he k h
    simp only [Bool.or_eq_true, Bool.and_eq_true, beq_iff_eq] at h2
    obtain rfl | ⟨ha, hb⟩ := h2
    · exact h0
    · rw [ha, hb, h1]
  unfold sectionOk bytesOk
  rw [hp, beq_iff_eq.1 (hs k h), anySig_verifies, hk]
  simp

theorem fwImage_verifies : fwFuses.imageFaultOf fwImage = none := by
  have hp : mPub fwImage = anyPub := by decide +kernel
  have hs : mSignature fwImage = anySig := by decide +kernel
  have hl : layoutOk fwImage = true := by decide +kernel
  have hk : fwFuses.fwKeyOk fwImage = true := by decide +kernel
  have hr : ¬mSecurity fwImage < fwFuses.rollback := by decide +kernel
  unfold Fuses.imageFaultOf
  rw [hl, hk, hp, hs, anySig_verifies, fwImage_sections]
  simp only [Bool.and_true, if_true, if_neg hr]

theorem witness_FirmwareUpdateRows :
    fwHolding.starts 0 0x70 fwForm fwDesc ∧ fwHolding.fuses.lcState = 3 ∧ fwHolding.fw.update = none ∧ bit fwDesc.arg 0 = true ∧
      fwImage.length = fwDesc.get 24 8 := by
  refine ⟨⟨?_, ?_, ?_, ?_, ?_, ?_⟩, ?_, ?_, ?_, ?_⟩ <;> decide +kernel

/-- Distribution of the image, without activation. -/
def distributing : State := { fwHolding with fw := { fwHolding.fw with update := some (0, fwImage, false, 3) } }

/-- Every unit already runs the image's section, so that none is missing. -/
def distributed : State := { distributing with fw := { distributing.fw with loaded := fwImage } }

theorem distributed_missing : distributed.missingUnits fwImage = [] := by
  unfold State.missingUnits
  rw [List.filter_eq_nil_iff]
  intro u _
  have h : distributed.unitCurrent fwImage u = true := by
    show (mDigest fwImage (unitKind u) == mDigest fwImage (unitKind u)) = true
    exact beq_self_eq_true _
  simp [h]

theorem witness_FirmwareUpdateRows_distribution :
    sectionChunks fwImage (unitKind 319) = 2 ∧ (distributing.unit 319).chunks = [] ∧ distributing.unitCurrent fwImage 319 = false ∧
      (0 : Nat) < unitTotal ∧ (distributing.missingUnits fwImage).isEmpty = false ∧ distributed.missingUnits fwImage = [] := by
  refine ⟨?_, ?_, ?_, ?_, ?_, distributed_missing⟩ <;> decide +kernel

theorem witness_FirmwareUpdateRows_activation :
    ({ live with fw := { live.fw with activating := true, units := [(0, { FwUnit.reset with staged := some [7] })] } } : State).atActivation 0 = true ∧
      after (.fwUnitActivate 0) { live with fw := { live.fw with activating := true, units := [(0, { FwUnit.reset with staged := some [7] })] } }
        (fun t => (t.unit 0).running == [7] && (t.unit 0).staged.isNone && !t.fw.activating) = true := by decide +kernel

theorem witness_TestSliceRows :
    after (.shutdownSliceDone ⟨1000, [], 60000⟩) { live with shutdown := { live.shutdown with busy := true, scheduling := true } }
        (fun t => t.shutdown.done && t.ledger.schedule == 1 && t.ledger.results.length == 1) = true ∧
      ({ live with shutdown := { live.shutdown with busy := true, scheduling := true } } : State).shutdown.budgetMs = 60000 ∧
      after (.shutdownBudgetExpiry ⟨0, [], 0⟩ true) { live with shutdown := { live.shutdown with busy := true, scheduling := true } }
        (fun t => t.shutdown.done && t.ledger.schedule == 1 && t.ledger.missed == some 0 && t.ledger.results.map (·.outcome) == [2]) = true ∧
      after (.shutdownBudgetExpiry ⟨0, [], 0⟩ false) { live with shutdown := { live.shutdown with busy := true, scheduling := true } }
        (fun t => t.shutdown.scheduling && !t.shutdown.done && t.ledger.schedule == 1) = true ∧
      after (.shutdownSliceDone ⟨1000, [], 8000⟩) { live with shutdown := { live.shutdown with busy := true, scheduling := true } }
        (fun t => t.shutdown.scheduling && t.ledger.results.map (·.outcome) == [0]) = true ∧
      after (.onDemandSliceDone ⟨1000, [], 2 ^ 32 - 1⟩ false) { live with monitor := { live.monitor with testing := some (1, 19) } }
        (fun t => t.monitor.testing.isNone && t.ledger.results.map (·.source) == [2]) = true ∧
      ({ live with monitor := { live.monitor with testing := some (1, 19) } } : State).program = some false := by decide +kernel


/-- The rescue image serves with the image's two blocks in place. -/
def rescued : State :=
  { live with
    seq := .rescue, fuses := fwFuses
    fw := { live.fw with
      rescueOpen := some 2
      rescueBlocks := [(0, fwImage.take 4096), (1, fwImage.drop 4096 ++ List.replicate 3584 0)] } }

/-- Premises of the commits of `SetupWrites` and `MonitorCommands`. -/
theorem witness_rescue_commit :
    rescued.rescueImage 2 = some fwImage ∧ rescued.fuses.imageFaultOf fwImage = none ∧ rescued.program = some true ∧
      rescued.fuses.imageFaultOf [] ≠ none := by
  refine ⟨?_, fwImage_verifies, ?_, ?_⟩ <;> decide +kernel

/-! ### The Filzor fabric -/

theorem witness_PortTrainingSteps :
    [(Instr.fzSignalDetect 0, PortState.detect, PortState.equalise), (.fzEqualiseDone 0, .equalise, .align),
      (.fzEqualiseTimeout 0, .equalise, .down), (.fzAlignDone 0 256, .align, .identify), (.fzAlignDone 0 16, .align, .identify),
      (.fzAlignDone 0 1, .align, .down), (.fzAlignTimeout 0, .align, .equalise), (.fzDownRetry 0, .down, .detect),
      (.fzRetrainTimeout 0, .retrain, .down), (.fzRetrainDone 0 true, .retrain, .up), (.fzLockLoss 0, .up, .retrain)].all
      (fun c => after c.1 (torus (portIn c.2.1)) fun t => (t.port 0).state == c.2.2) = true ∧
    after (.fzRetrainDone 0 false) (torus { portIn .retrain with retrains := 2 }) (fun t => (t.port 0).state == .down) = true ∧
    after (.fzRetrainDone 0 false) (torus { portIn .retrain with retrains := 1 }) (fun t => (t.port 0).retrains == 2) = true ∧
    after (.fzAlignDone 0 16) (torus (portIn .align)) (fun t => (t.port 0).half) = true ∧
    after (.fzSignalDetect 5) { torus (portIn .up) with fabric := { (torus (portIn .up)).fabric with ports := [(5, portIn .detect)] } }
      (fun t => (t.port 5).state == .equalise) = true ∧
    after (.fzLockLoss 0) (torus { portIn .up with score := 49087 }) (fun t => (t.port 0).score == 49151) = true := by decide +kernel

theorem witness_PortIdentityChecks :
    (torus (portIn .identify)).placed = true ∧ neighbour 0x1042 0 0 = 1 ∧ pairPort 0 = 1 ∧
      after (.fzIdentifyExchange 0 ⟨some 1, 1, 0x1042, 0x4001, 0⟩) (torus (portIn .identify))
        (fun t => (t.port 0).state == .up && (t.port 0).peer == 1) = true ∧
      after (.fzHeldRetry 0 ⟨some 1, 1, 0x1042, 0x4001, 0⟩) (torus (portIn .held)) (fun t => (t.port 0).state == .up) = true ∧
      after (.fzIdentifyExchange 0 ⟨some 1, 0, 0x1042, 0x4001, 0⟩) (torus (portIn .identify)) (fun t => (t.port 0).state == .held) = true ∧
      after (.fzIdentifyExchange 0 ⟨some 1, 1, 0x1041, 0x4001, 0⟩) (torus (portIn .identify)) (fun t => (t.port 0).state == .held) = true ∧
      after (.fzIdentifyExchange 0 ⟨some 0, 1, 0x1042, 0x4001, 0⟩) (torus (portIn .identify)) (fun t => (t.port 0).state == .held) = true ∧
      after (.fzIdentifyExchange 0 ⟨none, 1, 0x1042, 0x4001, 0⟩) (torus (portIn .identify)) (fun t => (t.port 0).state == .identify) = true := by
  decide +kernel

/-- A read request of module 1 for 64 bytes of HBM, on slot 3 of both sides, and a write of 64 bytes. -/
def readPkt : Packet := withCrc { mkPacket 0x01 0 [] with src := 1, dstConn := 3, srcConn := 3, connGen := 1, addr := 4096, length := 64, stamp := 61035 }
def writePkt : Packet :=
  withCrc { mkPacket 0x02 0 (List.replicate 64 0xAA) with src := 1, dstConn := 3, srcConn := 3, connGen := 1, addr := 4096, window := 0x10000, stamp := 61035 }

theorem witness_CodewordsAndBeacons :
    after (.fzCodewordReceive 0 ⟨0, 1023, [.fabric readPkt 0]⟩ 0) (torus { portIn .up with rxCsn := 1023 })
        (fun t => (t.port 0).rxCsn == 0 && (t.port 0).input == [readPkt] && (t.port 0).rxGood == some 1023) = true ∧
      after (.fzCodewordReceive 0 ⟨0, 1, [.fabric readPkt 0]⟩ 0) (torus (portIn .up)) (fun t => (t.port 0).nak && (t.port 0).input == []) = true ∧
      after (.fzBeaconSend 0 4095) (torus { portIn .up with beacons := [(7, 1000000000, 5)], beaconSeq := 65535 })
        (fun t => (t.port 0).beaconSeq == 0 && t.cairn == 1000001000 && (t.port 0).beacons.head? == some (0, 1000001000, 4095) &&
          ((t.port 0).wire.map linkOf).any fun l => l.any fun l => l.beacon && l.txFrac == 4095) = true ∧
      (torus (portIn .up)).parentPort = some 0 ∧
      after .fzTimeHoldover (torus (portIn .up)) (fun t => t.fabric.lock == .holdover && t.cairn == 1000100000) = true := by decide +kernel

theorem witness_PacketForwarding :
    let s := torus { portIn .up with input := [readPkt] }
    s.fzLocked = true ∧ s.ageOf readPkt < 64 ∧ s.fabric.table 0 = some (defaultTable 0x1042 0) ∧ s.fabric.table 3 = none ∧
      (defaultTable 0x1042 0).hop 0 = .eject ∧ (defaultTable 0x1042 0).hop 1 = .port 0 ∧ readPkt.crc = (withCrc readPkt).crc ∧
      agrees readPkt = true ∧ (⟨0, 0xC, 0, 0⟩ : Routing).hop 1 = .unreachable ∧ 64 ≤ s.ageOf { readPkt with stamp := 60971 } ∧
      after (.fzPacketForward 0 0) s (fun t => t.fabric.eject == [readPkt]) = true ∧
      after (.fzPacketForward 0 0) (torus { portIn .up with input := [{ readPkt with epoch := 3 }] })
        (fun t => (t.port 0).input == [] && t.fabric.counters.map (·.1) == [4]) = true ∧
      after (.fzPacketForward 1 0)
        { s with fabric := { s.fabric with ports := [(0, { portIn .up with turn := 1 }), (1, { portIn .up with input := [{ readPkt with dst := 1, hops := 62 }] })] } }
        (fun t => (t.port 1).input == [] && (t.port 0).turn == 2 && decide ((t.port 0).output.length + (t.port 0).replay.length = 1)) = true ∧
      after (.fzPacketForward 1 0)
        { s with fabric := { s.fabric with ports := [(0, portIn .up), (1, { portIn .up with input := [{ readPkt with dst := 1, hops := 63 }] })] } }
        (fun t => t.fabric.counters.map (·.1) == [2]) = true := by decide +kernel

/-- The connection of those packets, and a state that has ejected `k`. -/
def conn3 : RecvConn := ⟨1, 3, 1, 0, [(9, 0x32)], 1000000000, true⟩
def ejected (k : Packet) : State :=
  let s := torus (portIn .up)
  { s with fabric := { s.fabric with eject := [k], recv := [(3, conn3)] } }

theorem witness_ReceivedConnectionPackets :
    ((ejected { readPkt with kind := 0x21, srcConn := 4 }).takeEject 0x21).isSome = true ∧
      (List.range connSlots).find? (fun n => !((ejected readPkt).recv n).inUse) = some 0 ∧
      after .openConn (ejected { readPkt with kind := 0x21, srcConn := 4 })
        (fun t => (t.recv 0).inUse && t.fabric.inject.map (·.kind) == [0x22]) = true ∧
      conn3.owns readPkt = true ∧ conn3.owns { readPkt with connGen := 2 } = false ∧
      after .closeConn (ejected { readPkt with kind := 0x24 }) (fun t => !(t.recv 3).inUse) = true ∧
      [(Instr.closeConn, 0x24), (.readReq false, 1), (.write true, 2)].all (fun c => after c.1 (ejected { readPkt with kind := c.2, connGen := 2 })
        fun t => t.fabric.inject.map (·.kind) == [0x26]) = true ∧
      after (.write false) (ejected { writePkt with seq := 9 }) (fun t => t.fabric.inject.map (fun a => (a.kind, a.status)) == [(0x12, 0x32)]) = true ∧
      seqBelow 9 0 = false ∧ seqBelow 0 0 = false ∧
      ({ ejected readPkt with seq := .recovery 4 0 true false } : State).memUp = false ∧
      after (.readReq false) { ejected readPkt with seq := .recovery 4 0 true false }
        (fun t => t.fabric.inject.map (fun a => (a.kind, a.status)) == [(0x11, stUnreachable)]) = true := by decide +kernel

/-- The same with window 0 open on the 4 KiB at 4096. -/
def windowed (k : Packet) : State :=
  { ejected k with fabric := { (ejected k).fabric with windows := [(0, ⟨1, true, none, 0, 4096, 4096, 0, 0⟩)] } }

/-- A write to the CXL tier, through a window onto it. -/
def cxlWritten : State :=
  let s := windowed { writePkt with addr := 2 ^ 58 }
  { s with
    fabric := { s.fabric with windows := [(0, ⟨1, true, none, 1, 0, 2 ^ 33, 0, 0⟩)] }
    mem := { s.mem with ranges := [(0, range0)] } }

theorem witness_ServedRemoteRequests :
    (windowed writePkt).memUp = true ∧ (windowed writePkt).windowCheck writePkt = stOk ∧
      (windowed writePkt).locate 4096 = .hbm 4096 ∧
      (windowed writePkt).windowCheck { writePkt with window := 0x20000 } = stWindowClosed ∧
      after (.write false) (windowed writePkt) (fun t => t.mem.hbm.bytes.length == 64 && t.fabric.inject.map (·.status) == [stOk]) = true ∧
      after (.write false) (windowed { writePkt with addr := 8128 }) (fun t => t.fabric.inject.map (·.status) == [stOk]) = true ∧
      after (.write false) (windowed { writePkt with addr := 8192 }) (fun t => t.mem.hbm.bytes == [] && t.fabric.inject.map (·.status) == [stWindowClosed]) = true ∧
      cxlWritten.onCxl (2 ^ 58) = true ∧ cxlWritten.windowCheck { writePkt with addr := 2 ^ 58 } = stOk ∧
      after (.write true) cxlWritten (fun t => t.fabric.inject.map (·.status) == [stUnreachable] && t.mem.cxl == .reset) = true ∧
      after (.readReq false) (windowed readPkt) (fun t => t.fabric.inject.map (fun a => (a.kind, a.status)) == [(0x11, stOk)]) = true := by decide +kernel

/-- A sending slot towards module 1, and a state with it that has ejected `k`. -/
def slot3 : SendConn := { SendConn.reset with peer := 1, gen := 1, inUse := true, openFrom := 1000000000, openAt := 1000000000 }
def sending (c : SendConn) (k : Packet) : State :=
  let s := torus (portIn .up)
  { s with fabric := { s.fabric with eject := [k], send := [(3, c)] } }
def outOne : Outstanding := ⟨readPkt, .copy 0, 1000000000, 1, false⟩

theorem witness_SendingConnectionRows :
    slot3.owns readPkt = true ∧
      after .openAck (sending slot3 { readPkt with kind := 0x22 }) (fun t => (t.send 3).opened && (t.send 3).openSlot == some 3) = true ∧
      after .openBusy (sending slot3 { readPkt with kind := 0x23 }) (fun t => (t.send 3).busy) = true ∧
      after .reclaim (sending { slot3 with opened := true } { readPkt with kind := 0x25 }) (fun t => !(t.send 3).inUse && (t.send 3).gen == 1) = true ∧
      after .staleConn (sending { slot3 with opened := true, waiting := [outOne] } { readPkt with kind := 0x26 })
        (fun t => (t.send 3).gen == 2 && (t.send 3).nextSeq == 1) = true ∧
      [(Instr.readResp, 0x11), (.writeAck, 0x12)].all (fun c =>
        after c.1 (sending { slot3 with opened := true, waiting := [outOne] } { readPkt with kind := c.2 }) (fun t => (t.send 3).waiting == []) &&
        after c.1 (sending { slot3 with gen := 2 } { readPkt with kind := c.2 }) (fun t => t.fabric.eject == [])) = true ∧
      after (.fzSenderIdle 3) (sending { slot3 with opened := true } readPkt) (fun t => !(t.send 3).inUse) = true ∧
      after (.fzOpenRetry 3) (sending { slot3 with busy := true } readPkt) (fun t => !(t.send 3).busy && (t.send 3).openSends == 1) = true ∧
      after (.fzResendTimeout 3 0 false) (sending { slot3 with openSends := 3 } readPkt) (fun t => (t.send 3).openSends == 4) = true ∧
      cairnSince 1000000000 1000000000 + resendNs < openNs ∧
      after (.fzResendTimeout 3 0 true)
        { sending slot3 readPkt with fabric := { (sending slot3 readPkt).fabric with closing := [⟨3, readPkt, 1000000000, 3⟩] } }
        (fun t => t.fabric.closing.map (·.sends) == [4] && t.fabric.inject.length == 1) = true ∧
      (3 : Nat) < connSlots ∧ after (.fzReceiverIdle 3) (ejected readPkt) (fun t => !(t.recv 3).inUse) = true := by decide +kernel

/-- A read of tile 0 that the slot carries: `READ_RESP` lands its words. -/
def readAsked : State :=
  { sending { slot3 with opened := true, waiting := [⟨readPkt, .piece 0 0 0, 1000000000, 1, false⟩] }
      (withCrc { mkPacket 0x11 0 (toLe 8 77) with src := 1, dstConn := 3, srcConn := 3, connGen := 1 }) with
    tiles := [(0, { tileOn 0 with run := { TileRun.reset with
      flights := [{ flight0 with pieces := [⟨.read, 2 ^ 44, 16, 8, [], false, .remote, []⟩] }] } })] }

theorem witness_SendingConnectionRows_landing :
    after .readResp readAsked (fun t => (t.tile 0).run.flights.map (·.pieces.map (·.state)) == [[.landed]] &&
      Tab.get .zero (t.tile 0).tarn 16 == ⟨77, 0, false⟩ && (t.send 3).waiting == []) = true := by decide +kernel

def winOpen : Desc := descOf 0x40 0 (toLe 8 4096 ++ toLe 8 4096 ++ toLe 4 0)
def winClose : Desc := descOf 0x41 0 (List.replicate 20 0 ++ toLe 4 0x10000)
def winImport : Desc := descOf 0x42 0 (toLe 8 4096 ++ toLe 8 4096 ++ List.replicate 4 0 ++ toLe 4 0x10000 ++ toLe 2 1 ++ [0])
def winUnimport : Desc := descOf 0x43 0 (List.replicate 28 0 ++ toLe 2 4095)

theorem witness_WindowAndImportRows :
    ((withDesc live winOpen).starts 0 0x40 windowOpenForm winOpen ∧ (withDesc live winOpen).windowFits 0 4096 4096 = true ∧
      after (.windowOpen 0) (withDesc live winOpen) (fun t => (t.window 0).isOpen && (t.window 0).gen == 1 && t.host.descs == []) = true) ∧
    ((withDesc (windowed readPkt) winClose).starts 0 0x41 (fun _ => { entries := 1, arg := 0, named := [(36, 4)], align := true }) winClose ∧
      ((withDesc (windowed readPkt) winClose).window (winClose.get 36 4 % 65536)).gen = winClose.get 36 4 / 65536 ∧
      after (.windowClose 0) (withDesc (windowed readPkt) winClose) (fun t => !(t.window 0).isOpen && (t.window 0).gen == 2) = true) ∧
    (after (.windowCloseDone 65535) { live with fabric := { live.fabric with windows := [(65535, { Window.reset with closing := some 0 })] } }
      (fun t => t.fabric.windowFreed == [65535] && (t.window 65535).closing.isNone) = true) ∧
    ((withDesc live winImport).starts 0 0x42 windowImportForm winImport ∧
      after (.windowImport 0) (withDesc live winImport) (fun t => (Tab.get Import.reset t.fabric.imports 0).inUse) = true) ∧
    (withDesc { live with fabric := { live.fabric with imports := [(4095, ⟨true, 1, 1, 0, 0, 4096⟩)] } } winUnimport).starts 0 0x43
      (fun _ => { entries := 1, arg := 0, named := [(44, 2)], align := true }) winUnimport ∧
    after (.windowUnimport 0) (withDesc { live with fabric := { live.fabric with imports := [(4095, ⟨true, 1, 1, 0, 0, 4096⟩)] } } winUnimport)
      (fun t => t.fabric.imports == []) = true := by
  refine ⟨⟨⟨?_, ?_, ?_, ?_, ?_, ?_⟩, ?_, ?_⟩, ⟨⟨?_, ?_, ?_, ?_, ?_, ?_⟩, ?_, ?_⟩, ?_, ⟨⟨?_, ?_, ?_, ?_, ?_, ?_⟩, ?_⟩, ⟨?_, ?_, ?_, ?_, ?_, ?_⟩,
    ?_⟩ <;> decide +kernel

def tableDesc (e : Nat) : Desc := descOf 0x50 e (toLe 8 (defaultTable 0x1042 0).x ++ toLe 16 0)
def epochDesc : Desc := descOf 0x51 1 (toLe 8 1000000000)
def table1 : Routing := { defaultTable 0x1042 0 with epoch := 1 }
def torusUp : State := torus (portIn .up)

theorem witness_RoutingEpochRows :
    ((withDesc torusUp (tableDesc 1)).starts 0 0x50 (fun _ => { entries := 1, arg := 3, named := [(16, 24)], align := true }) (tableDesc 1) ∧
      tableOk 0x1042 0 table1 = true ∧ torusUp.fabric.draining = false ∧ torusUp.fabric.active = defaultTable 0x1042 0 ∧
      after (.fabricTable 0) (withDesc torusUp (tableDesc 1)) (fun t => t.fabric.other == some table1) = true ∧
      after (.fabricTable 0) (withDesc torusUp (tableDesc 0)) (fun t => t.fabric.other.isNone && t.host.descs == []) = true) ∧
    ((withDesc { torusUp with fabric := { torusUp.fabric with other := some table1 } } epochDesc).starts 0 0x51
        (fun _ => { entries := 1, arg := 3, named := [(16, 8)], align := true }) epochDesc ∧
      after (.fabricEpoch 0) (withDesc { torusUp with fabric := { torusUp.fabric with other := some table1 } } epochDesc)
        (fun t => t.fabric.switch_ == some (1, 1000000000)) = true) ∧
    after .fzEpochSwitch { torusUp with fabric := { torusUp.fabric with other := some table1, switch_ := some (1, 1000000001) } }
      (fun t => t.fabric.active == table1 && t.fabric.draining && t.cairn == 1000000004) = true ∧
    ({ torusUp with fabric := { torusUp.fabric with other := some table1, draining := true } } : State).drainCount 1 = 0 ∧
    after .fzEpochRelease { torusUp with fabric := { torusUp.fabric with other := some table1, draining := true, switchedAt := 1000000000 } }
      (fun t => t.fabric.other.isNone && !t.fabric.draining && t.cairn == 1001200004) = true := by
  refine ⟨⟨⟨?_, ?_, ?_, ?_, ?_, ?_⟩, ?_, ?_, ?_, ?_, ?_⟩, ⟨⟨?_, ?_, ?_, ?_, ?_, ?_⟩, ?_⟩, ?_, ?_, ?_⟩ <;> decide +kernel

/-! ### Operations of a tile -/

/-- Sums, differences, products, maxima and minima of FP32 (R51, R86), by hand. -/
theorem test_vector_arithmetic :
    writes (.vadd 0 0 []) (vecState 0x20 3 (vec 1 1 4) [va, vb]) (f32s [0x40400000, 0xBFC00000, 0x40000000, 0x40880000]) = true ∧
    writes (.vsub 0 0 []) (vecState 0x21 3 (vec 1 1 4) [va, vb]) (f32s [0xBF800000, 0xC0200000, 0x40A00000, 0xC0700000]) = true ∧
    writes (.vmul 0 0 []) (vecState 0x22 3 (vec 1 1 4) [va, vb]) (f32s [0x40000000, 0xBF800000, 0xC0A80000, 0x3F800000]) = true ∧
    writes (.vfma 0 0 []) (vecState 0x23 7 (vec 1 1 4) [va, vb, vc]) (f32s [0x40400000, 0, 0xC0880000, 0x40000000]) = true ∧
    writes (.vmax 0 0 []) (vecState 0x24 3 (vec 1 1 4) [va, vb]) (f32s [0x40000000, 0x3F000000, 0x40600000, 0x40800000]) = true ∧
    writes (.vmin 0 0 []) (vecState 0x25 3 (vec 1 1 4) [va, vb]) (f32s [0x3F800000, 0xC0000000, 0xBFC00000, 0x3E800000]) = true := by
  decide +kernel

/-- Masks, selection, conversion, scaling and row reductions (R44, R86, R87, R518), by hand. -/
theorem test_vector_rows :
    writes (.vcmp 0 0 []) (vecState 0x26 3 (vec 1 0 4 2) [va, vb]) [0b1011] 1 = true ∧
    writes (.vsel 0 0 []) (vecState 0x27 7 (vec 1 1 4) [va, vb, [0b1001]]) (f32s [0x3F800000, 0x3F000000, 0xBFC00000, 0x3E800000]) = true ∧
    writes (.vcvt 0 0 []) (vecState 0x28 1 (vec 1 3 4) [va]) [0x3E80_4060_C000_3F80] = true ∧
    writes (.vscale 0 0 []) (vecState 0x29 3 (vec 1 1 4) [va, [0x7E_7F_80_81]]) (f32s [0x40800000, 0xC0800000, 0x40600000, 0x3E000000]) = true ∧
    writes (.vrsum 0 0 []) (vecState 0x2A 1 (vec 1 1 4) [va]) [0x40300000] = true ∧
    writes (.vrmax 0 0 []) (vecState 0x2B 1 (vec 1 1 4) [va]) [0x40600000] = true ∧
    writes (.vrssq 0 0 []) (vecState 0x2C 1 (vec 1 1 4) [va]) [0x418A8000] = true ∧
    writes (.vabsmax 0 0 []) (vecState 0x2D 1 (vec 1 12 4) [va]) [0x80] 1 = true := by decide +kernel

/-- XM40 update, expert combine, and the special functions at exact arguments (R42, R43, R94, R97). -/
theorem test_special_functions :
    writes (.vupd 0 0 []) (vecState 0x2E 3 (vec 16 16 1) [0x3F800000 :: List.replicate 39 0, [0x40000000]])
      (0x40400000 :: List.replicate 39 0) = true ∧
    writes (.xcomb 0 0 []) (vecState 0x2F 3 (vec 1 1 2) [f32s [0x3F800000, 0x40000000], [0x3F000000]]) (f32s [0x3F000000, 0x3F800000]) = true ∧
    writes (.fexp 0 0 []) (vecState 0x40 1 (vec 1 1 2) [f32s [0, 0xFF800000]]) (f32s [0x3F800000, 0]) = true ∧
    writes (.flog 0 0 []) (vecState 0x41 1 (vec 1 1 2) [f32s [0x3F800000, 0]]) (f32s [0, 0xFF800000]) = true ∧
    writes (.frcp 0 0 []) (vecState 0x42 1 (vec 1 1 2) [f32s [0x40000000, 0x80000000]]) (f32s [0x3F000000, 0xFF800000]) = true ∧
    writes (.frsq 0 0 []) (vecState 0x43 1 (vec 1 1 2) [f32s [0x40800000, 0xBF800000]]) (f32s [0x3F000000, 0x7FC00000]) = true ∧
    writes (.fsincos 0 0 []) (vecState 0x44 1 (vec 1 1 1) [[0]]) (f32s [0, 0x3F800000]) = true ∧
    writes (.topk 0 0 []) (vecState 0x45 1 (vec 1 1 4 1) [va]) (f32s [0x40600000, 0x3F800000] ++ [0x0002]) = true := by decide +kernel

/-! ### Every operation fires -/

theorem wrong_free (t : Tab TarnWord) (h : t.all (fun e => e.2.wrong == 0) = true) : ∀ a, (Tab.get .zero t a).wrong = 0 := by
  intro a
  induction t with
  | nil => rfl
  | cons e r ih =>
    simp only [List.all_cons, Bool.and_eq_true, beq_iff_eq] at h
    have hr := ih h.2
    cases e
    simp only [Tab.get]
    split
    · exact h.1
    · exact hr

/-- What `State.firesWith` asks, in a form that can be evaluated; the tokens are those that `takeAll` gives. -/
def firesB (s : State) (opc : Nat) : Bool :=
  s.inService && (s.updTile 0 (·.upset [])).runs 0 && opCode ((s.tile 0).op 0) == opc && (s.tile 0).fires 0 && ((s.tile 0).takeAll ((s.tile 0).op 0)).isSome &&
    (s.tile 0).tarn.all (fun e => e.2.wrong == 0)

theorem firesWith_of_firesB (s : State) (opc : Nat) (h : firesB s opc = true) :
    ∃ ins, s.firesWith 0 0 [] opc ins := by
  simp only [firesB, Bool.and_eq_true, beq_iff_eq] at h
  obtain ⟨⟨⟨⟨⟨h1, h2⟩, h3⟩, h4⟩, h5⟩, h6⟩ := h
  obtain ⟨ins, hi⟩ := Option.isSome_iff_exists.1 h5
  refine ⟨ins, h1, by omega, by omega, h2, h3, h4, hi, wrong_free _ h6⟩

/-- The premises hold in a state of `rowState` for every row, and the firing stands in flight after it. (The 4,096 elements of
an `MTRN` are too many for the kernel; its premises are shown.) -/
theorem witness_OperationsFire :
    (firedRows 0 0 []).all (fun r => firesB (rowState r.2.1) r.2.1) = true ∧
      ((firedRows 0 0 []).eraseIdx 1).all (fun r => fired r.1 (rowState r.2.1) fun f => f.index == 0) = true := by decide +kernel

/-- The matrix product of ones (R33, R79): 64 in the one column that is not zero. -/
theorem test_mma : fired (.mma 0 0 []) (rowState 0x10) (fun f => f.writes.map (·.2.toNat) == 0x42800000 :: List.replicate 7 0 && f.issue == 8) = true := by
  decide +kernel

/-- Scalar results, sent and received words, and a Pennant (R52 to R54, R143). -/
theorem witness_SteeringResults :
    fired (.chsend 0 0 []) (rowState 0x60) (fun f => f.sent == [20] && f.depth == 6) = true ∧
      fired (.chrecv 0 0 []) (rowState 0x61) (fun f => f.regs == [(4, 77)]) = true ∧
      fired (.chpoll 0 0 []) (rowState 0x62) (fun f => f.regs == [(4, 1), (3, 1)]) = true ∧
      ((List.range 11).all fun k => firesB (steer 0x63 0 0 k) 0x63) = true ∧
      ((List.range 11).map fun k => fired (.scalc 0 0 []) (steer 0x63 0 0 k) fun f => f.regs ==
        [(4, ([42, 0xFFFFFFFFFFFFFFFE, 20, 22, 2, 83886080, 0, 0, 1, 0, 22] : List Word).getD k 0)]) = List.replicate 11 true ∧
      fired (.psend 0 0 []) (rowState 0x64) (fun f => f.outs.map (·.2.body) == [.pennant 20]) = true ∧
      fired (.summit 0 0 []) (rowState 0x65) (fun f => f.sent == [0] && f.acks == 1) = true := by decide +kernel

/-- A load of 2 KiB in eight requests, and a store of 64 bytes in one. -/
theorem witness_StreamRequests :
    (rowState 0x50).isFar 4096 = false ∧ (rowState 0x50).addrOk 4096 2048 = true ∧ bit ((rowState 0x50).tile 0 |>.op 0) 101 = false ∧
      ((rowState 0x50).tile 0).window = 720896 ∧
      fired (.sload 0 0 []) (rowState 0x50) (fun f => f.pieces.map (fun p => (p.addr, p.bytes, p.tarn)) ==
        (List.range 8).map fun i => (4096 + 256 * i, 256, 8192 + 32 * i)) = true ∧
      (rowState 0x51).addrOk 4096 64 = true ∧ ((rowState 0x51).tile 0).rangeOk 0 8 = true ∧
      (((rowState 0x51).tile 0).takeAll ((rowState 0x51).tile 0 |>.op 0)).map (consumedTokens ((rowState 0x51).tile 0 |>.op 0)) =
        some [(0, ⟨.data 0 8, 5, false⟩)] ∧
      fired (.sstore 0 0 []) (rowState 0x51) (fun f => f.pieces.map (fun p => (p.addr, p.bytes, p.data.length)) == [(4096, 64, 64)]) = true := by
  decide +kernel

/-! ### Firings complete -/

def summitDone : State :=
  let s := flying 0x65 { flight0 with openEnded := true, regs := [], writes := [], outs := [], sent := [7], acks := 1 }
  { s with planes := { s.planes with outs := [(0x1000, ⟨[.release 3 7 false], 0, 0, 0⟩)] } }

theorem witness_FiringsComplete :
    after (.operationComplete 0 0 .pass) (flying 0x20 flight0) (fun t => Tab.get .zero (t.tile 0).tarn 8192 == ⟨5, 0, false⟩ &&
        Tab.get 0 (t.tile 0).sregs 4 == 9 && (t.tile 0).run.emitted == flight0.outs && (t.tile 0).run.flights == []) = true ∧
      after (.operationComplete 0 0 .pass) (flying 0x20 { flight0 with fire := 785 }) (fun t => (t.tile 0).run.flights == []) = true ∧
      after (.memoryOperationComplete 0 0) (flying 0x50 { flight0 with openEnded := true }) (fun t => (t.tile 0).run.flights == []) = true ∧
      summitDone.summitOf 0 { flight0 with sent := [7] } = some (3, [0, 1], 0) ∧
      (summitDone.out 0x1000).releaseFor 3 7 = some (.release 3 7 false, false) ∧
      after (.summitRelease 0 0 none) summitDone (fun t => (t.tile 0).run.flights == [] && (t.out 0x1000).waiting == []) = true ∧
      (flying 0x20 flight0).runs 0 = true ∧
      after (.localReplay 0 0 []) (flying 0x20 { flight0 with failed := true, again := 1 })
        (fun t => (t.tile 0).run.flights.map (fun f => (f.again, f.failed, f.fire)) == [(2, false, 800)]) = true := by decide +kernel

/-! ### Arrivals, turns and stops of a tile -/

/-- Tile 0 with a dispatch queue 4 under expert 0 of map 0, two emitted tokens and a credit and a word on their ways. -/
def arriving : State :=
  let x : Tile := { tileOn 0 with
    cfg := { TileCfg.reset with queues := [(4, { QueueCfg.reset with source := 2, depth := 4, bufBase := 1024, bufWords := 8, groupRows := 2 })] }
    run := { TileRun.reset with
      emitted := [(9, ⟨.data 8 1, 1, false⟩), (3, ⟨.data 16 2, 2, false⟩)], credits := [(9, ⟨0, 0, 2⟩)] } }
  let s := pairOf x
  { s with planes := { s.planes with
    routerOn := [(0, true)]
    words := [⟨1, 2, 0, 0, 5, false, 0, 0, false⟩, ⟨0, 63, 1, 3, 6, false, 0, 0, false⟩]
    rows := [⟨0, 0, 0, 1, 0, 7, 0, 5, List.replicate 64 1, false, 0, .start⟩], counts := [⟨0, 0, 0, 1, 1, 1, 5, none, false, 0, none, .start⟩] } }

/-- The arrive flit of tile 0's firing waits at up-link 0, and tile 1 has come to the same Summit or not. -/
def meeting (arrived : List Summit) (out : Nat := 0) : State :=
  let s := flying 0x65 { flight0 with sent := [7] }
  { s with planes := { s.planes with summits := arrived, outs := [(out, ⟨[.arrive 0 0], 0, 0, 0⟩)] } }

theorem witness_TileArrivals :
    arriving.owner 0 = some (0, 0) ∧ (arriving.expertQueue 0 4).map (·.2.2) = some ⟨0, 1, 4, 0⟩ ∧ arriving.withShadows 0 = [0] ∧
      (arriving.tile 0).lit = true ∧ (arriving.out 0x1000).bulkMay = true ∧ arriving.planes.rows.all arriving.rowMayGo = true ∧
      arriving.riseUp 1 0 .start [0] = some 1 ∧ arriving.riseMay 1 1 .start = true ∧
      ((arriving.rise 1 1 (packetFlits 64) .start).ackUp 0 1 []).isSome = true ∧ ((arriving.rise 1 1 1 .start).ackUp 0 1 []).isSome = true ∧
      arriving.saddle 1 0 = [⟨0, 63, 1, 3, 6, false, 0, 0, false⟩] ∧ arriving.routeLit 1 0 = true ∧ queueTakes ((arriving.tile 0).qcfg 3) ⟨.data 16 2, 2, false⟩ = true ∧
      after (.tokenArrival 0 3) arriving (fun t => ((t.tile 0).queue 3).fresh.length == 1 && (t.tile 0).run.emitted.map (·.1) == [9]) = true ∧
      after (.creditReturn 0 9) arriving (fun t => (t.tile 0).credit 9 == ⟨0, 1, 1⟩) = true ∧
      after (.channelWordArrival 0 63 false) arriving (fun t => ((t.tile 0).channel 63).recv == [6] && t.planes.words.length == 1) = true ∧
      after (.expertRowArrival 0 4 none [0]) arriving (fun t => ((t.tile 0).dispatch 4).slots == [(7, 0)] &&
        (Tab.get .zero (t.tile 0).tarn 1031).data == 0x0101010101010101) = true ∧
      after (.expertCountRecord 0 4 none [0]) arriving (fun t => ((t.tile 0).dispatch 4).counts == [(1, 1)]) = true ∧
      (meeting []).summitOf 0 { flight0 with sent := [7] } = some (3, [0, 1], 0) ∧ (meeting []).findArrive 0 0 = some 0 ∧
      after (.summitArrive 0 0 none) (meeting []) (fun t => t.planes.summits.map (fun m => (m.bunting, m.seq, m.arrived)) == [(3, 7, [0])]) = true ∧
      after (.summitArrive 0 0 none) (meeting [⟨0, 3, 7, [1], false⟩])
        (fun t => t.planes.summits == [] && (t.out 0x1000).waiting == [.release 3 7 false] &&
          (t.out 0x1001).waiting == [.release 3 7 false]) = true ∧
      (meeting [] 0x2000).findArrive 0 0 = some 0x2000 ∧ (meeting [] 0x2000).arriveLink 0 3 = some 6 ∧
      after (.summitArrive 0 0 none) (meeting [] 0x2000) (fun t => t.planes.summits == [] && (t.out 6).waiting == [.arrive 0 0]) = true := by
  decide +kernel

/-- A matrix operation ready in cycle 2048, its engine idle from the start. -/
def leading : State :=
  let x := (rowState 0x10).tile 0
  pairOf { x with cycle := 2048 }

def stopping : State :=
  { pairOf { tileOn 0 with run := { TileRun.reset with flights := [flight0] } } with
    graphs := [(0, some { graph1 with abandon := some ⟨[4], [0, 1], [], [], [], 0, false⟩ })] }

theorem witness_TileTurnsAndStops :
    after (.wheelTurn 0) (pairOf { tileOn 0 with run := { TileRun.reset with queues := [(3, ⟨[], [⟨.data 16 2, 2, false⟩], 0⟩)] } })
        (fun t => (t.tile 0).cycle == 8 && ((t.tile 0).queue 3).toks.length == 1) = true ∧
      leading.runs 0 = true ∧ ((leading.tile 0).updEngine 0 fun e => { e with idleSince := 2048 }).fires 0 = true ∧
      after (.loadStepNotice 0 0) leading (fun t => (t.tile 0).run.lead == some (0, 2176)) = true ∧
      after (.abandonFlit 0) stopping (fun t => (t.tile 0).run.stopped && (t.tile 0).run.flights == [] &&
        (t.graph? 0).map (fun y => y.abandon.map (·.toStop)) == some (some [1])) = true := by decide +kernel

/-! ### The Tarn and the memory plane -/

theorem witness_TarnRows :
    after (.tarnClearDone 319) { live with tiles := [(319, { tileOn 0 with clearing := true, tarn := [(5, ⟨1, 0, false⟩)] })] }
        (fun t => (t.tile 319).tarn == [] && (t.tile 319).cycle == 24576) = true ∧
      after (.tarnPatrolRead 0 [(5, 0)]) (pairOf { tileOn 0 with patrolRow := 3071, patrolTurn := 1, cycle := 512 })
        (fun t => (t.tile 0).patrolRow == 0 && (t.tile 0).patrolTurn == 65) = true ∧
      after (.tarnPatrolWriteBack 0) (pairOf { tileOn 0 with patrolBack := [(6, 9)], cycle := 8, patrolTurn := 1 })
        (fun t => Tab.get .zero (t.tile 0).tarn 6 == ⟨9, 0, false⟩ && (t.tile 0).patrolBack == []) = true ∧
      after (.sideRead 0 .tarn 786431 [(786431, 2)]) (pairOf { tileOn 0 with tarn := [(786431, ⟨7, 0, false⟩)] })
        (fun t => t.rd == 7 && t.rdBytes == [0]) = true ∧
      after (.sideRead 0 .tarn 720895 [(720895, 2)]) (pairOf (tileOn 0)) (fun t => t.rdBytes == [1]) = true ∧
      after (.sideRead 0 .opStore 1 []) (rowState 0x20) (fun t => t.rd == vec 1 1 4) = true ∧
      after (.sideRead 0 .observation 11 []) (pairOf (tileOn 0)) (fun t => t.rd == 0 && t.rdBytes == [0]) = true ∧
      live.locate (2 * 2 ^ 58 + 8) = .tarn 0 8 ∧
      after (.tarnStagingWrite (2 * 2 ^ 58 + 8) [1, 0, 0, 0, 0, 0, 0, 2]) { live with tiles := [(0, { tileOn 0 with use := .free })] }
        (fun t => (Tab.get .zero (t.tile 0).tarn 1).data == 0x0200000000000001 && t.rd == 0) = true ∧
      after (.tarnStagingRead (2 * 2 ^ 58) 8) (pairOf { tileOn 0 with tarn := [(0, ⟨3, 0, false⟩)] }) (fun t => t.rdBytes == [3, 0, 0, 0, 0, 0, 0, 0]) = true ∧
      after (.stagedTileTimeout 0) { live with tiles := [(0, { tileOn 0 with use := .staged 1000000000 })] }
        (fun t => (t.tile 0).use == .free && t.cairn == 2000000000) = true := by decide +kernel

def piece0 : Piece := ⟨.read, 4096, 8192, 64, [], false, .waiting, []⟩

/-- A firing of `SLOAD` with one request. -/
def asking (p : Piece) : State :=
  let s := flying 0x50 { flight0 with openEnded := true, writes := [], pieces := [p] }
  { s with mem := { s.mem with hbm := { s.mem.hbm with bytes := (List.range 64).map fun i => (4096 + i, 0x5A) } } }

def pieceOf (t : State) : Option Piece := ((t.tile 0).flight 0).bind fun f => f.pieces[0]?

theorem witness_MemoryPlaneRows :
    (asking piece0).isFar 4096 = false ∧ (asking piece0).locate 4096 = .hbm 4096 ∧ (asking piece0).home 4096 = .here ∧
      ((asking piece0).read 4096 64).poison = false ∧ (asking piece0).upFor 0 piece0 [0] = some 1 ∧
      (asking piece0).mayAsk 0 1 piece0 = true ∧
      after (.mplaneRequest 0 0 0 none [] [0] []) (asking piece0)
        (fun t => (pieceOf t).map (·.state) == some (.served (List.replicate 64 0x5A) false 0) && Tab.get 0 t.planes.upNext 0 == 2) = true ∧
      after (.mplaneRequest 0 0 0 none [] [] []) (asking { piece0 with kind := .write, data := List.replicate 64 7 })
        (fun t => t.readBytes 0 4096 64 == List.replicate 64 7) = true ∧
      after (.mplaneRequest 0 0 0 none [] [] []) (asking { piece0 with kind := .write, addr := moduleArea, data := List.replicate 64 7 })
        (fun t => (pieceOf t).map (·.state) == some (.served [] false stNotPermitted)) = true ∧
      (asking piece0).doneWordOk 0 moduleArea 64 = false ∧
      after (.mplaneResponse 0 0 0 none []) (asking { piece0 with state := .served (List.replicate 64 3) false 0 })
        (fun t => (pieceOf t).map (·.state) == some .landed && (Tab.get .zero (t.tile 0).tarn 8199).data == 0x0303030303030303) = true ∧
      (asking piece0).mayLand 0 = true ∧ ((asking piece0).spineBack 0 piece0 []).isSome = true := by decide +kernel

/-- A multicast packet to the one member of Bunting 0, tile 1. -/
def casting (p : Piece) : State :=
  { asking { p with kind := .cast 0, data := List.replicate 64 3 } with
    graphs := [(0, some { graph1 with image := { image1 with buntings := [[1]] } })] }

/-- It reaches the member, or is held at the spine's branch without a credit, and released from there. -/
theorem witness_MemoryPlaneRows_cast :
    ((casting piece0).graphFor 0).map (·.members 0) = some [1] ∧ (casting piece0).withShadows 1 = [1] ∧
      castPath 0 0 1 = [(20, 0), (0, 1)] ∧ (casting piece0).copiesAt 20 = 0 ∧ (casting piece0).isShadow 0 = false ∧
      after (.mplaneRequest 0 0 0 none [] [] []) (casting piece0) (fun t => (pieceOf t).map (·.copies) == some [(1, false, .acked false)]) = true ∧
      after (.mplaneRequest 0 0 0 none [] [] [(20, 0)]) (casting piece0)
        (fun t => (pieceOf t).map (fun p => (p.state, p.copies)) == some (.remote, [(1, false, .held 20)])) = true ∧
      (casting { piece0 with state := .remote, copies := [(1, true, .held 20)] }).blockedLinks = [] ∧
      after (.multicastBranchRelease 0 0 0 20 (branchOf 20 1) []) (casting { piece0 with state := .remote, copies := [(1, true, .held 20)] })
        (fun t => (pieceOf t).map (fun p => (p.state, p.copies)) == some (.served [] true 0, [(1, true, .acked true)])) = true := by
  decide +kernel

/-- A shadow's request lands by the copy of its primary's response. -/
theorem witness_MemoryPlaneRows_shadow :
    let s := (asking piece0).updTile 0 fun x =>
      { x with use := .shadow 1, run := { x.run with copied := [(0, 0, 0, .served (List.replicate 64 3) false 0)] } }
    s.isShadow 0 = true ∧ (s.tile 0).lit = true ∧
      after (.mplaneResponse 0 0 0 none []) s (fun t => (Tab.get .zero (t.tile 0).tarn 8199).data == 0x0303030303030303) = true := by
  decide +kernel

/-- A request to the CXL tier that the device does not answer. -/
theorem witness_MemoryPlaneRows_cxl :
    let s : State := { asking { piece0 with addr := 2 ^ 58 } with mem := { live.mem with ranges := [(0, { CxlRange.reset with valid := true, inService := true, sizeGib := 8 })] } }
    s.locate (2 ^ 58) = .cxl 0 ∧
      after (.cxlAccessTimeout 0 0 0) s (fun t => (pieceOf t).map (·.state) == some (.served [] false stUnreachable)) = true := by decide +kernel

/-- Encodings of FP32 that decode to the value converted (R72, R73). -/
theorem witness_RoundingToNearest :
    floatLayouts.all (fun l => (decodeFloat l (2 ^ (l.p - 1)) matches .fin ..) &&
      encodeFloat l .nearest true false (decodeFloat l (2 ^ (l.p - 1))) == ⟨2 ^ (l.p - 1), 0, 0⟩) = true ∧
      decodeFloat fp32L (encodeFloat fp32L .nearest false false (.fin false 3 (-150))).raw = .fin false 2 (-149) := by decide +kernel

/-! ### The memory tier -/

def copyDesc : Desc := descOf 0x30 0 (toLe 8 4096 ++ toLe 8 8192 ++ toLe 8 64)
def hostCopyDesc : Desc := descOf 0x31 0 (toLe 8 0x7000 ++ toLe 8 8192 ++ toLe 8 64)

/-- HBM that reads as zero but for 64 bytes. -/
def copying (x : Desc) : State :=
  withDesc { ringed with mem := { ringed.mem with hbm := ⟨(List.range 64).map fun i => (4096 + i, 0x5A), [(0, moduleArea)], [], []⟩ } } x

theorem witness_MemoryTierRows_copies :
    (copying copyDesc).starts 0 0x30 (copyForm 0) copyDesc ∧ (copying hostCopyDesc).starts 0 0x31 (copyForm 1) hostCopyDesc ∧
      (copying copyDesc).poisoned 0 4096 64 = false ∧
      ((List.range 64).all fun i => (copying copyDesc).locate (4096 + i) == .hbm (4096 + i) && (copying copyDesc).home (8192 + i) == .here) = true ∧
      after (.memCopy 0 none) (copying copyDesc) (fun t => t.readBytes 0 8192 64 == List.replicate 64 0x5A && t.host.descs == []) = true ∧
      after (.hostCopy 0 (.data (List.replicate 64 3)) none) (copying hostCopyDesc) (fun t => t.readBytes 0 8192 64 == List.replicate 64 3) = true := by
  refine ⟨⟨?_, ?_, ?_, ?_, ?_, ?_⟩, ⟨?_, ?_, ?_, ?_, ?_, ?_⟩, ?_, ?_, ?_, ?_⟩ <;> decide +kernel

/-- A page moves from the range that is leaving to pool 1, its move is done or fails, and the entry follows. -/
def moving : State := serves { range0 with removing := [(0, false)] } graph2
def moved : State := serves range0 { graph2 with sched := { graph2.sched with moves := [(1, 0, 0, 0, 1, 0)] } }

/-- Both pools in the module's HBM. -/
def serving1 : Serving := { serving0 with pools := [⟨0x300000, 8⟩, ⟨0x400000, 8⟩] }
def pagesNear : State :=
  serves range0 { graph2 with serving := some serving1, sched := { graph2.sched with moves := [(1, 0, 0, 0, 1, 0)] } }

theorem witness_MemoryTierRows_pages :
    (moving.graph? 0).map (inPrec <| moving.movable 0 ·) = some [(1, stream0)] ∧ moving.pageLeaving serving0 0 0 = true ∧ moving.pageLeaving serving0 1 0 = false ∧
      moving.entriesIn 1 (moving.pageLeaving serving0) = [(0, 0, 0)] ∧ moving.roomFor graph2 serving0 0 1 (fun _ => false) = some 1 ∧
      after (.kvPageMigration 0) moving (fun t => (t.graph? 0).map (·.sched.moves) == some [(1, 0, 0, 0, 1, 0)]) = true := by decide +kernel

theorem witness_MemoryTierRows_moves :
    serving1.kvPageBytes / 64 * 64 = 64 ∧
      ((List.range 64).all fun i => pagesNear.locate (pageAddr serving1 0 0 + i) == .hbm (0x300000 + i) &&
        pagesNear.home (0x300000 + i) == .here && pagesNear.wrongAt ((0x300000 + i) / 64) == 0 &&
        pagesNear.locate (pageAddr serving1 1 0 + i) == .hbm (0x400000 + i)) = true ∧
      after (.kvPageMoveDone 0 1 0 true) pagesNear (fun t => t.pagesOf 1 == [(1, 0)] &&
        (t.graph? 0).map (fun y => (y.sched.moves.length, Tab.get [] y.sched.freed 0)) == some (0, [0])) = true ∧
      after (.kvPageMoveDone 0 1 0 true) moved (fun t => t.pagesOf 1 == [(1, 0)]) = true ∧
      after (.kvPageMoveDone 0 1 0 false) moved (fun t => t.pagesOf 1 == [(0, 0)] &&
        (t.graph? 0).map (fun y => Tab.get [] y.sched.freed 1) == some [0]) = true := by decide +kernel

/-- Slice 63, whose first line is read; and slice 5 at frame 0 of its move to the slot at 1 GiB of the CXL tier. -/
def retiring : State :=
  { serves { range0 with sizeGib := 16 } graph2 with mem := { (serves range0 graph2).mem with
      ranges := [(0, { range0 with sizeGib := 16 })], slices := [(5, { Slice.reset with state := .retiring 2 0 })]
      slots := [(2, ⟨1, true, 5, true⟩)] } }

theorem witness_MemoryTierRows_slices :
    live.regs.hbmScrub ≠ 0 ∧ (live.slice 63).state = .good ∧ live.poisoned 0 (hbmOffset 63 0) 64 = false ∧
      after (.hbmPatrolRead 15 3 0) live (fun t => (t.slice 63).patrol == 1) = true ∧
      after (.hbmPatrolRead 15 3 1) live (fun t => (t.slice 63).ce == Counter.reset.add 1) = true ∧
      after (.hbmPatrolRead 15 3 2) live (fun t => t.poisoned 0 (hbmOffset 63 0) 64) = true ∧
      after (.hbmPatrolRead 15 3 0) { live with mem := { live.mem with slices := [(63, { Slice.reset with patrol := sliceLines - 1 })] } }
        (fun t => (t.slice 63).patrol == 0) = true ∧
      (retiring.slice 5).state = .retiring 2 0 ∧ (Tab.get RetireSlot.reset retiring.mem.slots 2).baseGib * 2 ^ 30 = 2 ^ 30 ∧
      retiring.cxlServed (2 ^ 30) = true ∧ retiring.poisoned 0 (hbmOffset 5 0) 4096 = false ∧ retiring.mem.wrong = [] ∧
      live.wrongAt (hbmOffset 63 0 / 64) = 0 := by decide +kernel

/-! ### CXL devices and the BAR2 window -/

def removeDesc : Desc := descOf 0x60 0 []
def idleRange (x : CxlRange) : State := { serves x graph2 with tracker := ringed.tracker }

theorem witness_CxlAndWindowRows :
    (withDesc (idleRange range0) removeDesc).starts 0 0x60 (fun _ => { entries := 1, arg := 0x107, named := [], align := true }) removeDesc ∧
      (idleRange range0).holders 0 = [] ∧ (idleRange range0).slicesOn 0 = [] ∧ (serves range0 graph2).holders 0 = [(0, 1)] ∧
      bit range0.members 0 = true ∧
      after (.cxlRangeLost 0 0) (idleRange range0) (fun t => !(t.range 0).inService && (t.range 0).members == 0) = true ∧
      after (.cxlRemoveProceed 0) (withDesc (idleRange { range0 with removing := [(0, false)] }) removeDesc)
        (fun t => (t.range 0).removing.isEmpty && t.host.descs == []) = true ∧
      after (.cxlRemove 0) (withDesc (serves range0 graph2) removeDesc) (fun t => (t.range 0).removing == [(0, false)]) = true ∧
      after (.cxlRemove 0) (withDesc (idleRange range0) removeDesc) (fun t => (t.range 0).members == 0 && t.host.descs == []) = true ∧
      after (.cxlEventRecord 0) (serves { range0 with score := 65530, part := 3 } graph2) (fun t => (t.range 0).score == 65535) = true ∧
      after (.cxlDeviceInsert 1 3 5 8) { live with power := { live.power with domOff := [(678, true)] } }
        (fun t => t.mem.waitDevices == [(1, 5, 8)] && t.hasStaging 678 true && t.mem.ranges == []) = true ∧
      after (.cxlDeviceInsert 1 0 5 8) live (fun t => t.ledger.events.length == 1) = true ∧
      (idleRange range0).formerRange 1 78 = none ∧ ((idleRange range0).placeDevice 1 78 16).map (·.1) = some 1 ∧
      after (.cxlDeviceInsert 1 3 78 16) (idleRange range0) (fun t => (t.range 1).inService && (t.range 1).serial == 78 && (t.range 1).members == 2 &&
        t.range 0 == range0) = true := by
  refine ⟨⟨?_, ?_, ?_, ?_, ?_, ?_⟩, ?_, ?_, ?_, ?_, ?_, ?_, ?_, ?_, ?_, ?_, ?_, ?_, ?_, ?_⟩ <;> decide +kernel

/-- The window at 4096, over bytes that read as zero, and the last bytes of the HBM. -/
def windowAt (b : Nat) : State :=
  let s := { live with host := { live.host with linkUp := true } }
  { s with regs := { s.regs with bar2 := b }, mem := { s.mem with hbm := ⟨[], [(0, hbmBytes)], [], []⟩ } }

theorem witness_CxlAndWindowRows_bar2 :
    (windowAt 4096).memUp = true ∧ (windowAt 4096).host.linkUp = true ∧ (windowAt 4096).home (4096 + 15) = .here ∧
      (windowAt 4096).poisoned 0 4096 16 = false ∧ moduleArea ≤ hbmBytes - 2 ∧
      after (.bar2Read 0 2) State.reset (fun t => t.rdBytes == [0xFF, 0xFF]) = true ∧ State.reset.memUp = false ∧
      after (.bar2Read 0 2) (windowAt 4096) (fun t => t.rdBytes == [0, 0]) = true ∧
      after (.bar2Write 8 [1, 2]) (windowAt 4096) (fun t => t.readBytes 0 4104 2 == [1, 2]) = true ∧
      after (.bar2Write 0 [1, 2]) (windowAt (hbmBytes - 2)) (fun t => t.ledger.events.map (·.2.code) == [0x1302]) = true := by
  decide +kernel

/-! ### Changes and verification -/

/-- Graph 1 while a change passes: its new image moves virtual tile 1 to tile 2. -/
def changing : State :=
  let y := { graph1 with change := some ⟨{ image1 with layerUnits := 80 }, [0, 2], some serving0, 0, 0, true, [3], 0, 0, 0, 0, false⟩ }
  { live with graphs := [(0, some y)], tiles := [(0, tileOn 0), (1, tileOn 1)] }

theorem witness_ChangeAndVerifyRows_change :
    (changing.tile 0).use = .bound 0 0 ∧ changing.runs 0 = true ∧ (changing.graph? 0).map (changing.passReady · 0 0) = some true ∧
      (changing.graph? 0).map (fun y => (y.change.map (·.placed), y.generation, changing.feeds y 0 0, y.change.map y.servingCame)) =
        some (some true, 0, [], some false) ∧
      changing.withShadows 0 = [0] ∧ changing.swaps 0 = false ∧
      after (.burgeePass 0) changing (fun t => (t.tile 0).run.burgeePassed && (t.tile 0).staged == some (tileOn 0).cfg) = true := by
  decide +kernel

def draining : State :=
  { pairOf { tileOn 0 with run := { TileRun.reset with stopped := true } } with
    graphs := [(0, some { graph1 with abandon := some ⟨[4], [], [], [], [], 0, false⟩ })] }

def stressing (b : Bool) : State := { live with tiles := [(319, { Tile.reset with use := .stress 1000000001 3 b, on := true, score := 3000 })] }

def seen0 : Seen := ⟨4, 0, 0, 7, 0, 1, 0⟩

/-- Tile 5 shadows virtual tile 0, whose firing 7 both tiles have seen. -/
def verifying (d : Nat) : State :=
  let y := { graph1 with verify := { Verify.reset with shadows := [(0, 5)], seen := [seen0, ⟨4, 0, 0, 7, 5, d, 0⟩], passes := 1 } }
  { live with graphs := [(0, some y)], tiles := [(0, tileOn 0), (1, tileOn 1), (5, { tileOn 0 with use := .shadow 0 })] }

theorem witness_ChangeAndVerifyRows_rest :
    after (.burgeeSwitchComplete 0) (pairOf { tileOn 0 with run := { TileRun.reset with switchUntil := some 1021 } })
        (fun t => (t.tile 0).cycle == 1024 && (t.tile 0).run.switchUntil.isNone) = true ∧
      after (.burgeeSwitchComplete 0)
        (pairOf { tileOn 0 with tarn := [(5, ⟨1, 0, false⟩), (712704, ⟨2, 0, false⟩)], run := { TileRun.reset with switchUntil := some 1021, clearFrom := some 87 } })
        (fun t => (t.tile 0).tarn == [(5, ⟨1, 0, false⟩)]) = true ∧
      draining.graphIds = [0] ∧ (draining.graph? 0).map (fun y => (y.unplaced, y.inFlight.length)) = some ([], 0) ∧
      after (.abandonDrainDone 0) draining (fun t => !(t.tile 0).run.stopped && (t.graph? 0).map (·.abandon) == some none) = true ∧
      (verifying 1).owner 0 = some (0, 0) ∧ (0, 5) ∈ [(0, 5)] ∧
      after (.digestCompare 0 4 5) (verifying 1) (fun t => (t.graph? 0).map (·.verify.seen) == some []) = true ∧
      after (.digestCompare 0 4 5) (verifying 2) (fun t =>
        (t.graph? 0).map (fun w => (w.verify.resolving, w.verify.passes, w.abandon.map (·.causes))) == some (some (0, 0, 7), 1, some [4])) = true := by
  decide +kernel

/-! ### Scores and stress -/

theorem witness_ScoresAndStress :
    ((List.range (partCount .tile)).all fun i => (live.score .tile i).1 == 0) = true ∧
      after (.faultScoreLeak .tile) { live with tiles := [(319, { Tile.reset with score := 1 })] } (fun t => (t.tile 319).score == 0) = true ∧
      live.power.inputW * 700000 ≤ 9 * live.power.limit ∧
      live.lastStressed 19 = 319 ∧ (((List.range 16).map fun i => 19 * 16 + i).filter fun u => decide (u ≤ live.lastStressed 19)).find? live.stressable = some 304 ∧
      after (.stressSessionStart 19) live (fun t => (t.tile 304).use == .stress 21000000000 0 false && t.hasStaging 304 true) = true ∧
      after (.stressSessionEnd 319 3) (stressing false) (fun t => t.ledger.sessions == [(319, 20000, 3, 0)] && (t.tile 319).use == .free &&
        t.cairn == 1000000004) = true ∧
      after (.stressNominalRetestDone 319 true) (stressing true) (fun t => (t.tile 319).use == .free && t.ledger.sessions.map (·.2.2.2) == [1]) = true ∧
      after (.stressNominalRetestDone 319 false) (stressing true) (fun t => (t.tile 319).fenced && (t.tile 319).part == 3) = true ∧
      after (.stressMismatch 319 9) (stressing false) (fun t => (t.tile 319).use == .stress 1000000001 9 true && (t.tile 319).score == 1024 + 3000) = true ∧
      after (.stressMismatch 319 9 false) { stressing false with tiles := [(319, { Tile.reset with use := .stress 1000000001 3 false, score := 3072 })] }
        (fun t => (t.tile 319).fenced && t.ledger.sessions.map (fun e => (e.1, e.2.2)) == [(319, 9, 3)]) = true := by
  decide +kernel

/-! ### Graphs -/

/-- A compatibility image of one virtual tile with one `CHPOLL`: header, section table, tiles, operations and sizing (R125,
R126, R128, R131, R143). -/
def imageBytes : List Byte :=
  toLe 4 0x4D494758 ++ toLe 2 1 ++ toLe 2 0 ++ [1, 0, 88, 0] ++ toLe 2 1 ++ toLe 2 0 ++ toLe 8 0x77 ++ toLe 8 0 ++ toLe 8 4544 ++
    toLe 8 0x100000 ++ toLe 8 192 ++ toLe 4 0 ++ toLe 2 3 ++ toLe 2 0 ++ List.replicate 124 0 ++ toLe 4 0xca998605 ++
    (toLe 4 1 ++ toLe 4 0x8926e14f ++ toLe 8 320 ++ toLe 8 16 ++ toLe 8 0) ++
    (toLe 4 3 ++ toLe 4 0xd7500465 ++ toLe 8 384 ++ toLe 8 16 ++ toLe 8 0) ++
    (toLe 4 2 ++ toLe 4 0x98f94189 ++ toLe 8 448 ++ toLe 8 4096 ++ toLe 8 0) ++ List.replicate 32 0 ++
    (toLe 2 0 ++ [0, 0, 0, 0] ++ toLe 2 1 ++ toLe 4 0 ++ toLe 4 0) ++ List.replicate 48 0 ++
    toLe 16 0x62 ++ List.replicate 48 0 ++ List.replicate 4096 0

def loadDesc : Desc := descOf 0x10 1 (toLe 8 0x8000 ++ toLe 8 4544 ++ toLe 8 0x100000)

/-- A run of zero bytes. -/
def zeros (n : Nat) : List Byte := List.replicate n 0

theorem leNat_zeros (n : Nat) : leNat (zeros n) = 0 := by
  induction n with
  | zero => rfl
  | succ n ih =>
    show (0 : Byte).toNat + 256 * leNat (zeros n) = 0
    rw [ih]; rfl

theorem field_zeros (n o k : Nat) : field (zeros n) o k = 0 := by
  unfold field
  have h : ((zeros n).drop o).take k = zeros (min k (n - o)) := by unfold zeros; rw [List.drop_replicate, List.take_replicate]
  rw [h, leNat_zeros]

theorem zeros_length (n : Nat) : (zeros n).length = n := List.length_replicate

theorem image_sizing : sectBytes imageBytes 2 = zeros 4096 := by decide +kernel

theorem queueAt_zeros (n o : Nat) : queueAt (zeros n) o = .reset := by
  simp [queueAt, field_zeros, bit, QueueCfg.reset]

theorem image_entries (v : Nat) : entriesOf imageBytes v = (List.range 256).map fun q => (q, .reset) := by
  simp [entriesOf, image_sizing, queueAt_zeros]

theorem image_queues (v : Nat) : queuesOf imageBytes v = [] := by
  unfold queuesOf; rw [image_entries]; decide +kernel

theorem firstBad_append (a b : List Rule) (ha : firstBad a = none) (hb : firstBad b = none) : firstBad (a ++ b) = none := by
  induction a with
  | nil => exact hb
  | cons r rs ih =>
    simp only [firstBad, List.cons_append] at *
    split at ha <;> simp_all

theorem image_passes : imageFault imageBytes ((withDesc ringed loadDesc).loadRules loadDesc imageBytes) [] = none := by
  have hh : firstBad (headerRules imageBytes ++ (withDesc ringed loadDesc).loadRules loadDesc imageBytes) = none := by decide +kernel
  have hs : firstBad (sectionRules imageBytes) = none := by decide +kernel
  have hl : firstBad (sealRules imageBytes) = none := by decide +kernel
  have hz : firstBad (sizingRules imageBytes) = none := by
    have hv : vtilesOf imageBytes = [⟨0, 0, 0, 0, 1, 0⟩] := by decide +kernel
    have hn : hVtiles imageBytes = 1 := by decide +kernel
    have he : ((List.range 256).map fun q => (q, QueueCfg.reset)).all (fun q => queueOk (xmapsOf imageBytes) q.2) = true := by
      decide +kernel
    unfold sizingRules
    simp [image_sizing, image_queues, image_entries, field_zeros, hv, hn, firstBad, zeros_length, sumNat, -List.all_map] at he ⊢
    exact he
  have ho : firstBad (operationRules imageBytes) = none := by decide +kernel
  have hr : firstBad (vtileRules imageBytes) = none := by decide +kernel
  have hc : firstBad (circuitRules imageBytes) = none := by decide +kernel
  have hm : firstBad (channelRules imageBytes) = none := by decide +kernel
  have hb : firstBad (buntingRules imageBytes) = none := by decide +kernel
  have hk : firstBad (constRules imageBytes) = none := by decide +kernel
  have hx : firstBad (xmapRules imageBytes) = none := by decide +kernel
  unfold imageFault recordRules
  rw [hh, hs, hl]
  simp only [List.append_nil]
  exact firstBad_append _ _ (firstBad_append _ _ (firstBad_append _ _ (firstBad_append _ _ (firstBad_append _ _
    (firstBad_append _ _ (firstBad_append _ _ hr hz) ho) hc) hm) hb) hk) hx

theorem witness_GraphRows_load :
    (withDesc ringed loadDesc).starts 0 0x10 loadForm loadDesc ∧ ringed.fuses.lcState = 3 ∧ loadDesc.serves = false ∧
      loadDesc.imageHost = true ∧ imageBytes.length = loadDesc.imageSize ∧ hReconfig imageBytes = false ∧
      (imageOf imageBytes loadDesc.imageAddr true).reconfig = false ∧
      (imageOf imageBytes loadDesc.imageAddr true).buntings.length ≤ ringed.freeBuntings.length ∧
      ((List.range 8).find? fun g => (ringed.graph? g).isNone) = some 0 ∧
      (match (withDesc ringed loadDesc).planBinding 0 (imageOf imageBytes loadDesc.imageAddr true) (fun _ => none) with
        | .ok (place, bs) => place.length == 1 && bs == [] && place.all (· < 320)
        | .error _ => false) = true ∧ ringed.monitor.testing = none := by
  refine ⟨⟨?_, ?_, ?_, ?_, ?_, ?_⟩, ?_, ?_, ?_, ?_, ?_, ?_, ?_, ?_, ?_, ?_⟩ <;> decide +kernel

def unloadDesc : Desc := descOf 0x11 0 []
def policyDesc : Desc := descOf 0x12 0 (List.flatten [toLe 2 2, [1, 0xE4], toLe 2 2, [1, 0xE4], toLe 2 2, [1, 0xE4], toLe 2 2, [1, 0xE4]])
def statusDesc (arg : Nat) : Desc := descOf 0x13 arg ([0, 0, 0, 0, 0, 0, 0, 0] ++ toLe 8 0x40000)

theorem witness_GraphRows_commands :
    (withDesc (serves range0 graph1) unloadDesc).starts 0 0x11 (fun _ => ⟨1, 7, [], true⟩) unloadDesc ∧
      (withDesc (serves range0 graph2) policyDesc).starts 0 0x12 policyForm policyDesc ∧
      (withDesc (serves range0 graph1) (statusDesc 1)).starts 0 0x13 statusForm (statusDesc 1) ∧
      (withDesc (serves range0 graph1) (statusDesc 0)).starts 0 0x13 statusForm (statusDesc 0) ∧
      ((serves range0 graph1).servedGraph 0).isSome = true ∧ (statusDesc 0).get 18 2 < graph1.place.length ∧
      policyDesc.get 40 2 = 0 ∧ (policyOf policyDesc).ok serving0.pools.length = true ∧
      after (.graphUnload 0) (withDesc (serves range0 graph1) unloadDesc) (fun t => (t.graph? 0).map (·.unloading) == some (some 0)) = true := by
  refine ⟨⟨?_, ?_, ?_, ?_, ?_, ?_⟩, ⟨?_, ?_, ?_, ?_, ?_, ?_⟩, ⟨?_, ?_, ?_, ?_, ?_, ?_⟩, ⟨?_, ?_, ?_, ?_, ?_, ?_⟩, ?_, ?_, ?_, ?_, ?_⟩ <;>
    decide +kernel

/-- Tile 0 of graph 1 with two tokens on queue 3 and no credit for it. -/
def waiting (m : GraphMode) (sp : List Spill) (held : Nat) (since : Nat := 0) : State :=
  let x : Tile := { tileOn 0 with
    cfg := { TileCfg.reset with queues := [(3, { QueueCfg.reset with depth := 2 })] }
    run := { TileRun.reset with
      queues := if sp.isEmpty then [(3, ⟨[⟨.data 0 1, 0, false⟩, ⟨.data 8 1, 1, false⟩], [], 2⟩)] else []
      credits := [(3, ⟨held, 0, 0⟩)], waiting := [⟨3, [(0, since)]⟩] }
    cycle := 65536 }
  { ringed with graphs := [(0, some { graph1 with mode := m, screeBytes := 65536, spills := sp })], tiles := [(0, x), (1, tileOn 1)] }

def spill0 : Spill := ⟨0, 3, [(⟨.data 8 1, 1, false⟩, ([5], false))]⟩

/-- Graph 1 under depth sampling every 10 µs. -/
def sampling : State :=
  { ringed with
    graphs := [(0, some { graph1 with
      image := { image1 with obsMode := 2, sampleInterval := 10000 }, sampleAddr := 0x100000, sampleRecords := 64 })]
    tiles := [(0, tileOn 0), (1, tileOn 1)] }

def unloading : State :=
  { withDesc ringed unloadDesc with graphs := [(0, some { graph1 with unloading := some 0 })], tiles := [(0, tileOn 0), (1, tileOn 1)] }

theorem witness_GraphRows_rest :
    unloading.graphIds = [0] ∧ unloading.streamsOf 0 = [] ∧ unloading.shutdown.busy = false ∧
      after (.graphUnloadComplete 0) unloading (fun t => (t.graph? 0).isNone && (t.tile 0).use == .free && t.host.descs == []) = true ∧
      (waiting .native [] 0).circleStands { graph1 with mode := .native } 65536 [(0, 3)] = true ∧
      (waiting .native [] 0 1).circleStands { graph1 with mode := .native } 65536 [(0, 3)] = false ∧
      (waiting .compat [] 0 61440).circleStands { graph1 with mode := .compat } 4096 [(0, 3)] = true ∧ lowestQueue [(0, 3)] = some (0, 3) ∧
      (waiting .compat [spill0] 1).tiles.all (fun e => !e.2.entryTaken 3 ⟨.data 8 1, 1, false⟩) = true ∧
      after (.scheduleViolation 0 [(0, 3)]) (waiting .native [] 0)
        (fun t => (t.graph? 0).map (fun w => (w.mode, w.abandon.map (·.causes))) == some (.degraded, some [3])) = true ∧
      (waiting .compat [] 0).withShadows 0 = [0] ∧
      ({ graph1 with screeBytes := 65536, spills := [spill0] } : Graph).screeFits = true ∧
      after (.cyclicWait 0 [(0, 3)]) (waiting .compat [] 0) (fun t => ((t.tile 0).queue 3).toks.length == 1 &&
        (t.graph? 0).map (fun w => w.spills.length) == some 1) = true ∧
      (waiting .compat [spill0] 1).runs 0 = true ∧
      after (.screeRefill 0 3) (waiting .compat [spill0] 1) (fun t => ((t.tile 0).queue 3).fresh == [⟨.data 8 1, 1, false⟩] &&
        (t.graph? 0).map (·.spills) == some [] && ((t.tile 0).credit 3).held == 0) = true ∧
      (sampling.graph? 0).map (·.image.sampleInterval) = some 10000 ∧ (sampling.cairn / 10000 + 1) * 10000 = 1000010000 ∧
      after (.queueDepthSample 0) sampling (fun t => (t.tile 0).sampleSeq == 1 && t.cairn == 1000010000 &&
        (t.graph? 0).map (·.sampleSeq) == some 2) = true := by decide +kernel

/-! ### Streams -/

/-- Graph 2 serves stream 1, with harvest ring 0 and completion ring 0 open. -/
def streaming (x : Stream) : State :=
  let s := serves range0 graph2
  { s with
    tracker := { s.tracker with streams := [(1, x)], fresh := 2 }
    host := { s.host with hv := [(0, { Ring.reset with enable := true, log2 := 6, base := 0x50000 })] } }

/-- Two prompt tokens in class 1, of at most 256. -/
def openDesc : Desc :=
  descOf 0x20 0 ([0, 1, 0, 0] ++ toLe 4 2 ++ toLe 8 0x9000 ++ toLe 4 256 ++ toLe 4 0xFFFFFF ++ toLe 8 5)

def holds (s : State) (d : Desc) : State := { s with host := { s.host with descs := [d], nextTag := 1 } }

def handleDesc (opc : Nat) (rest : List Byte) : Desc := descOf opc 0 (toLe 4 0x200001 ++ rest)
def extendDesc : Desc := handleDesc 0x21 (toLe 4 3 ++ toLe 8 0x9000)
def queryDesc : Desc := handleDesc 0x23 (toLe 4 0 ++ toLe 8 0x60000)

theorem witness_StreamRows_starts :
    (holds (streaming stream0) openDesc).starts 0 0x20 (fun d => reservedForm (openForm (holds (streaming stream0) openDesc) d) (openReserved d)) openDesc ∧
      (holds (streaming stream0) extendDesc).starts 0 0x21 (extendForm (holds (streaming stream0) extendDesc)) extendDesc ∧
      (holds (streaming stream0) (handleDesc 0x22 [])).starts 0 0x22 cancelForm (handleDesc 0x22 []) ∧
      (holds (streaming stream0) queryDesc).starts 0 0x23 queryForm queryDesc := by
  refine ⟨⟨?_, ?_, ?_, ?_, ?_, ?_⟩, ⟨?_, ?_, ?_, ?_, ?_, ?_⟩, ⟨?_, ?_, ?_, ?_, ?_, ?_⟩, ⟨?_, ?_, ?_, ?_, ?_, ?_⟩⟩ <;> decide +kernel

theorem witness_StreamRows :
    ((streaming stream0).servedGraph 0).isSome = true ∧ openDesc.get 32 4 = serving0.maxPages * serving0.kvPageTokens ∧
      (streaming stream0).takeIndex.map (·.1) = some 2 ∧ findRun (serving0.promptBytes / 64) (ceilDiv 8 64) [] 1 0 = some 0 ∧
      (streaming stream0).byHandle 0x200001 = some 1 ∧ (streaming stream0).mayExtend graph2 1 = true ∧
      stream0.position + 1 + 3 < stream0.limit ∧ (streaming stream0).dma = true ∧
      after (.streamOpen 0 (.data (toLe 4 6 ++ toLe 4 7))) (holds (streaming stream0) openDesc)
        (fun t => (t.stream 2).state == .pending && (t.stream 2).handle == 2 + 2 ^ 21 && (t.stream 2).promptEnd == 2 &&
          (t.stream 2).deadline == 1050000000) = true ∧
      after (.streamExtend 0 (.data (toLe 4 6 ++ toLe 4 7 ++ toLe 4 8))) (holds (streaming stream0) extendDesc)
        (fun t => (t.stream 1).state == .pending && (t.stream 1).promptEnd == 7) = true ∧
      after (.streamCancel 0) (holds (streaming stream0) (handleDesc 0x22 []))
        (fun t => (t.stream 1).state == .ending && (t.stream 1).endDetail == endCancel) = true ∧
      after (.streamQuery 0) (holds (streaming stream0) queryDesc) (fun t => Tab.getAll 0 t.host.mem 0x60000 128 == stream0.bytes) = true ∧
      ((streaming { stream0 with state := .ending }).cq 0).hasFree = true ∧ (streaming stream0).inFlightStream 1 = false ∧
      after (.streamFinalRecord 1) (streaming { stream0 with state := .ending }) (fun t => t.stream 1 == .free && (t.cq 0).count == 1) = true ∧
      after (.deadlineExpiry 1) (streaming { stream0 with deadline := 1000000001, lateCount := 0xFFFF })
        (fun t => (t.stream 1).lateSeen && (t.stream 1).lateCount == 0xFFFF && t.cairn == 1000000004) = true := by decide +kernel

/-- The stream table stands, and the record of stream 2 in its own HBM. -/
theorem witness_StreamRows_table :
    (streaming stream0).tableStands ∧ ((List.range 128).all fun k =>
      (streaming stream0).home ((streaming stream0).regs.streamTable + 128 * 2 + k) == .here) = true ∧
      cairnSince (streaming stream0).cairn 1000000001 < 2 ^ 63 - 4 ∧ (streaming stream0).mem.wrong = [] ∧ (streaming stream0).mem.hbm.poison = [] ∧ (streaming stream0).tracker.journals = [] := by
  refine ⟨⟨?_, ?_, ?_, ?_⟩, ?_, ?_, ?_, ?_, ?_⟩ <;> decide +kernel

/-! ### Periods -/

def row0 : Row :=
  { idx := 1, handle := 0x200001, position := 3, count := 1, kind := 0, cls := 0, first := false, token := 5, kvList := 0, kvPages := 1
    promptAddr := 0, temperature := 0, topP := 0, seed := 0, topK := 0 }

def batch0 (rows : List Row) (d : Bool) (to_ : List (Nat × Nat)) : Batch :=
  { seq := 65536, kind := 0, rows := rows, pass := 0, abandons := 0, units := 0, issueCairn := 0, generation := 0, stepId := none
    resultAddr := 0x500000, doneAddr := 0x600000, toDeliver := to_, done := d, policy := [], integrity := [], toVerify := [], awaits := [] }

/-- Graph 2 on tiles 0 and 1 with this scheduler state; the result of `batch0` is token 7. -/
def periodic (c : Sched) : State :=
  let s := streaming stream0
  { s with
    graphs := [(0, some { graph2 with place := [0, 1], sched := c })], tiles := [(0, fireTile 0 0 []), (1, tileOn 1)]
    mem := { s.mem with hbm := ⟨[(0x500000, 7), (0x500004, 1), (0x500006, 0x20)], [(0, moduleArea)], [], []⟩ } }

def sched0 : Sched := { Sched.reset with nextB := 2000000000, nextK := 1 }

theorem witness_PeriodRows :
    ((periodic sched0).graph? 0).map (fun y => (y.active, y.servingFor 1)) = some (true, some serving0) ∧
      after (.periodSelection 0) (periodic sched0)
        (fun t => (((t.graph? 0).bind (·.sched.plan)).map fun p => (p.decode, p.slices.length)) == some ([1], 20)) = true ∧
      after (.periodBatchIssue 0) (periodic { sched0 with plan := some ⟨[1], List.replicate 20 []⟩ })
        (fun t => (t.graph? 0).map (fun y => (y.sched.period, y.sched.nextB, y.sched.batches.map (·.rows.length))) ==
          some (1, 2020000000, [1]) && t.cairn == 2000000000) = true ∧
      after (.sliceBoundary 0) (periodic { sched0 with started := true, startAt := 2000000000, slices := List.replicate 20 [] })
        (fun t => (t.graph? 0).map (·.sched.slice) == some 1 && t.cairn == 2000000000) = true ∧
      (periodic sched0).entryReady 0 8 0 = true ∧ (periodic sched0).withShadows 0 = [0] ∧
      after (.batchDelivery 0 0 65536) (periodic { sched0 with batches := [batch0 [row0] false [(0, 8)]] })
        (fun t => (t.tile 0).run.emitted.map (fun e => (e.1, e.2.body, e.2.tag)) == [(8, .pennant 1, 0), (9, .data 0 16, 0)]) = true ∧
      after (.powerForecast 0) (periodic sched0) (fun t => t.power.forecast.map (·.1) == [0]) = true ∧
      after (.harvest 0 0 65536) (periodic { sched0 with batches := [batch0 [] true []] })
        (fun t => (t.graph? 0).map (·.sched.batches.length) == some 0) = true := by decide +kernel

theorem witness_PeriodRows_harvest :
    (let s := periodic { sched0 with batches := [batch0 [row0] true []] }
    s.rowLives row0 = true ∧ s.overdue 1 = false ∧ s.draw.resultOf (batch0 [row0] true []) 0 row0 = (7, true) ∧
      (stream0.endsWith 7 4) = none ∧ (s.graph? 0).map (fun y => (s.verified y (batch0 [row0] true []), y.unchecked (batch0 [row0] true []))) = some (true, []) ∧
      after (.harvest 0 0 65536) s (fun t => (t.stream 1).position == 4 && (t.stream 1).lastToken == 7 && (t.hv 0).count == 1 &&
        Tab.getAll 0 t.host.mem 0x50000 8 == [1, 0, 0x20, 0, 7, 0, 0, 1]) = true) := by decide +kernel

/-! ### Set-up registers -/

/-- A module in service, set-up open, the stream table at its reset base. -/
def setup : State := { live with regs := { live.regs with bar2Low := 0x40000000, streamTableLow := 0x10000 }, dump := { live.dump with baseLow := 0x1000 } }
def locked : State := { live with regs := { live.regs with locked := true } }

theorem witness_AddressRegistersTakeHighWord :
    setup.bar0Answers = true ∧ setup.seq ≠ .rescue ∧ setup.regs.locked = false ∧ setup.graphIds = [] ∧ setup.tracker.streams = [] ∧
      (0 * 2 ^ 32 + 0x10000) + 2 ^ 28 ≤ moduleArea ∧
      after (.dbBaseWrite ⟨0x13000, 8, 2 ^ 64 - 1⟩) setup (fun t => t.host.dbBase == 0xFFFFFFFFFFFFF000) = true ∧
      after (.bar2BaseWrite ⟨0x4000C, 4, 2 ^ 32 - 1⟩) setup (fun t => t.regs.bar2 == 0xFFF40000000) = true ∧
      after (.registerWrite ⟨0x6000C, 4, 1⟩) setup (fun t => t.dump.base == 0x100001000) = true ∧
      after (.registerWrite ⟨0x10FF4, 4, 2⟩) setup (fun t => (t.sq 255).base == 0x200000000) = true ∧
      after (.registerWrite ⟨0x11FF4, 4, 2⟩) setup (fun t => (t.cq 255).base == 0x200000000) = true ∧
      after (.registerWrite ⟨0x123F4, 4, 2⟩) setup (fun t => (t.hv 63).base == 0x200000000) = true ∧
      after (.streamTableBaseWrite ⟨0x13014, 4, 0⟩) setup (fun t => t.regs.streamTable == 0x10000) = true := by decide +kernel

/-- `FZ_SELF` names a module outside `FZ_DIMS`. -/
def outside : State := { torus (portIn .up) with fabric := { (torus (portIn .up)).fabric with self := 0x4009 } }

theorem witness_SetupLockHolds :
    outside.selfOut = true ∧ (torus (portIn .up)).selfOut = false ∧ locked.bar0Answers = true ∧
      after (.setupLockSet ⟨0x20, 4, 1⟩) outside (fun t => t.regs.locked && t.regs.cfgReject && t.regs.cfgErrOffset == 0x50004) = true ∧
      after (.setupLockSet ⟨0x20, 4, 1⟩) (torus (portIn .up)) (fun t => t.regs.locked && !t.regs.cfgReject) = true ∧
      ((locked.rwlWrites 255 (2 ^ 32 - 1)).all fun e => e.2.2.1 != e.2.2.2 &&
        after e.1 locked (fun t => t.regs.lockViolation && t.regs.lockViolOffset == e.2.1 && t.ledger.events.length == 1)) = true ∧
      ((locked.rwlWrites 0 0).any fun e => e.2.2.1 == e.2.2.2) = true ∧
      after (.ringCtrlWrite ⟨0x11008, 4, 2 ^ 27⟩) locked (fun t => (t.cq 0).irq) = true := by decide +kernel

/-- Submission ring 255 with a base, completion ring 0 enabled or not. -/
def rings (b : Nat) (on : Bool) : State :=
  { live with host := { live.host with sq := [(255, { Ring.reset with base := b })], cq := [(0, { Ring.reset with enable := on })] } }

def slotted : State := { live with mem := { live.mem with ranges := [(0, { range0 with sizeGib := 16 })] } }

/-- The rescue image serves, with two bytes in its buffer. -/
def rescuing : State := { live with seq := .rescue, fw := { live.fw with rescueBuf := [1, 2] } }

theorem witness_SetupWrites :
    (after (.ringCtrlWrite ⟨0x10FF8, 4, 1 + 2 * 6⟩) (rings 0x1000 true) (fun t => (t.sq 255).enable && (t.sq 255).log2 == 6) = true ∧
      after (.ringCtrlWrite ⟨0x10FF8, 4, 1 + 2 * 16⟩) (rings 0x1000 true) (fun t => (t.sq 255).log2 == 16) = true ∧
      after (.ringCtrlWrite ⟨0x10FF8, 4, 1 + 2 * 5⟩) (rings 0x1000 true) (fun t => !(t.sq 255).enable && t.regs.cfgReject) = true ∧
      after (.ringCtrlWrite ⟨0x10FF8, 4, 1 + 2 * 17⟩) (rings 0x1000 true) (fun t => !(t.sq 255).enable && t.regs.cfgReject) = true ∧
      after (.evtRingWrite ⟨0x1300C, 4, 2 ^ 8⟩) (rings 0 true) (fun t => t.host.evtEnable) = true ∧
      after (.evtRingWrite ⟨0x1300C, 4, 2 ^ 8⟩) (rings 0 false) (fun t => t.regs.cfgErrCause == 2) = true) ∧
    (slotted.slotMapped 1 = true ∧ slotted.mem.unplaced = [] ∧ slotted.slotTaken 7 1 = false ∧
      after (.retireSlotWrite ⟨0x4005C, 4, 1 + 2 ^ 13⟩) slotted (fun t => Tab.get RetireSlot.reset t.mem.slots 7 == ⟨1, true, 0, false⟩) = true) ∧
    (after (.wake ⟨0x13008, 4, 0⟩) live (fun t => t.host.wake) = true ∧
      after .cairnLowRead { live with cairn := 2 ^ 32 + 4 } (fun t => t.rd == 4 && t.regs.cairnLatch == some 1) = true ∧
      after .cairnHighRead { live with regs := { live.regs with cairnLatch := some 9 } } (fun t => t.rd == 9 && t.regs.cairnLatch.isNone) = true ∧
      after (.shutdownCtrlGo ⟨0x20020, 4, 1 + 4 * 4095⟩) { bound0 with seq := .idle } (fun t => t.shutdown.busy && t.shutdown.budgetS == 4095) = true ∧
      live.retrainable 1 0 = false ∧ (torus (portIn .up)).retrainable 1 0 = true ∧
      after (.retrainFilzorPort ⟨0x60018, 4, 2 ^ 31 + 1⟩) (torus (portIn .up)) (fun t => t.fw.retraining == some (1, 0) && (t.port 0).state == .retrain) = true ∧
      after (.retrainHbmSliceGroup ⟨0x60018, 4, 2 ^ 31 + 16 * 15 + 2⟩) live (fun t => t.fw.retraining == some (2, 15)) = true ∧
      live.retrainable 2 16 = false ∧
      after (.retrainComplete 2) { live with fw := { live.fw with retraining := some (2, 15) } } (fun t => (t.slice 63).state == .lost) = true ∧
      after (.retrainComplete 1) { live with fw := { live.fw with retraining := some (3, 1) } }
        (fun t => t.ledger.events.map (·.2.code) == [0x1805]) = true) ∧
    (rescuing.bar0Answers = true ∧
      after (.rescueCtrlWrite ⟨0x60020, 4, 4095 + 2 ^ 12⟩ true) rescuing (fun t => Tab.get [] t.fw.rescueBlocks 4095 == [1, 2] && t.fw.rescueOwner == 1) = true ∧
      after (.rescueCtrlWrite ⟨0x60020, 4, 2 ^ 12⟩ false) rescuing (fun t => t.fw.rescueResult == 3) = true ∧
      rescuing.rescueImage 1 = none ∧
      after (.rescueCtrlCommit ⟨0x60020, 4, 2 ^ 13⟩ true) rescuing (fun t => t.fw.rescueResult == 2) = true ∧
      after (.rescueCtrlCommit ⟨0x60020, 4, 2 ^ 13⟩ true) { rescuing with fw := { rescuing.fw with rescueOwner := 2 } } (fun t => t.fw.rescueResult == 0) = true) := by
  decide +kernel

theorem witness_FabricRegisters :
    dimsOk 0 = false ∧ dimsOk (0x1042 % 2 ^ 17) = true ∧
      after (.fzDimsWrite ⟨0x50000, 4, 0⟩) live (fun t => t.regs.cfgReject) = true ∧
      after (.fzDimsWrite ⟨0x50000, 4, 0x1042⟩) live (fun t => t.fabric.dims == 0x1042 && !t.placed) = true ∧
      after (.fzSelfWrite ⟨0x50004, 4, 0x4001⟩) (torus (portIn .up)) (fun t => t.placed && t.fabric.id == 1) = true ∧
      after (.fzSelfWrite ⟨0x50004, 4, 0x4002⟩) (torus (portIn .up)) (fun t => !t.placed && t.fabric.id == 0) = true ∧
      after (.fzSelfWrite ⟨0x50004, 4, 0x4001⟩) { torus (portIn .up) with fabric := { (torus (portIn .up)).fabric with sideband := some 0 } }
        (fun t => t.fabric.id == 0 && t.ledger.events.map (·.2.code) == [0x1502]) = true ∧
      after (.fzPortCtrlWrite ⟨0x50100, 4, 0⟩) (torus (portIn .up)) (fun t => (t.port 0).state == .disabled) = true ∧
      after (.fzPortCtrlWrite ⟨0x50100, 4, 1⟩) (torus (portIn .disabled)) (fun t => (t.port 0).state == .detect) = true ∧
      after (.fzPortCtrlWrite ⟨0x50100, 4, 1⟩)
        { torus (portIn .disabled) with power := { live.power with domOff := [(679, true)] } }
        (fun t => (t.port 0).state == .disabled && t.hasStaging 679 true) = true ∧
      after (.fzPortCtrlWrite ⟨0x50240, 4, 1⟩) (torus (portIn .up)) (fun t => (t.port 5).state == .disabled) = true := by decide +kernel

/-! ### The monitor -/

theorem shaRound_length (v : List Nat) (k w : Nat) (h : v.length = 8) : (shaRound v k w).length = 8 := by
  simp [shaRound, h]

theorem shaRounds_length (ks w v : List Nat) (h : v.length = 8) : (shaRounds ks w v).length = 8 := by
  induction ks generalizing w v with
  | nil => exact h
  | cons k ks ih => exact ih _ _ (shaRound_length _ _ _ h)

theorem shaBlocks_length (n : Nat) (bs : List Byte) (h : List Nat) (hl : h.length = 8) : (shaBlocks n bs h).length = 8 := by
  induction n generalizing bs h with
  | zero => exact hl
  | succ n ih =>
    refine ih _ _ ?_
    unfold shaBlock
    rw [List.length_zipWith, shaRounds_length _ _ _ hl, hl, Nat.min_self]

theorem toBe_length (n x : Nat) : (toBe n x).length = n := by
  have h : ∀ n x, (toLe n x).length = n := by
    intro n
    induction n with
    | zero => intro x; rfl
    | succ n ih => intro x; simp [toLe, ih]
  simp [toBe, h]

theorem sha512_length (bs : List Byte) : (sha512 bs).length = 64 := by
  unfold sha512
  simp only [List.length_flatMap, toBe_length, List.map_const', List.sum_replicate, smul_eq_mul]
  rw [shaBlocks_length _ _ _ rfl]

/-- Fuses of state FIELD whose lifecycle slot 0 holds `anyPub`. -/
def lcFuses : Fuses := { Fuses.reset with keys := [(4, sha512 anyPub)] }

theorem deviceId_length : lcFuses.deviceId.length = 16 := by
  have h : lcFuses.keyed = true := by decide +kernel
  unfold Fuses.deviceId
  rw [if_pos h, List.length_take, sha512_length]
  rfl

/-- A module in service whose monitor has given out nonce 0. -/
def asked : State := { live with fuses := lcFuses, monitor := { live.monitor with nonce := some 0, nonces := 1, failures := 2 } }

theorem asked_unlocks : asked.unlocks 0 anyPub anySig = true := by
  show (sha512 anyPub == sha512 anyPub && true && signedOk anyPub (asked.unlockBytes 0 0) anySig) = true
  rw [signedOk, anySig_verifies]
  simp

theorem witness_MonitorSessions :
    asked.program = some false ∧ asked.monitor.testing = none ∧ asked.fuses.keyed = true ∧ asked.lockedOut = false ∧
      ({ asked with monitor := { asked.monitor with lockout := some 2000000000 } } : State).lockedOut = true ∧
      anyPub.length = 32 ∧ anySig.length = 64 ∧ asked.unlocks 0 anyPub anySig = true ∧ ({ asked with monitor := { asked.monitor with nonce := none } } : State).unlocks 3 anyPub anySig = false ∧
      asked.cairnOn = true ∧ asked.host.linkUp = true ∧ asked.bar0Answers = true ∧
      after .challenge asked (fun t => t.monitor.nonce == some 1) = true ∧
      after (.unlock 3 anyPub anySig) { asked with monitor := { asked.monitor with nonce := none } }
        (fun t => t.monitor.lockout == some 61000000000 && t.monitor.failures == 0) = true ∧
      after .sessionTimeout { asked with monitor := { asked.monitor with unlocked := true, lastLine := 1000000000 } }
        (fun t => !t.monitor.unlocked && t.cairn == 901000000000) = true ∧
      after .unlockLockoutExpiry { asked with monitor := { asked.monitor with lockout := some 2000000001 } }
        (fun t => t.monitor.lockout.isNone && t.cairn == 2000000004) = true ∧
      after .uartBreak { asked with monitor := { asked.monitor with baud := 9600, unlocked := true } } (fun t => t.monitor.baud == 115200) = true ∧
      after (.recoveryCtrlGo ⟨0x60000, 4, 1⟩) { asked with monitor := { asked.monitor with unlocked := true } } (fun t => !t.monitor.unlocked) = true ∧
      after (.inputSwitchClose 44000) State.reset (fun t => !t.monitor.unlocked) = true ∧
      after (.inputSwitchClose 57000) State.reset (fun t => !t.monitor.unlocked) = true := by
  refine ⟨?_, ?_, ?_, ?_, ?_, ?_, ?_, asked_unlocks, ?_, ?_, ?_, ?_, ?_, ?_, ?_, ?_, ?_, ?_, ?_, ?_⟩ <;> decide +kernel

/-- What a command adds to the monitor's output. -/
def tells (c : Instr) (s : State) (ls : List Line) : Bool := after c s fun t => t.monitor.out == s.monitor.out ++ ls

def defect0 : Defect := ⟨1, 1, 5, 3, 1, 0⟩

/-- The monitor unlocked in state MANUFACTURE or SERVICE, with a defect of tile 5 and a full test of its massif on record. -/
def opened (level service : Nat) : State :=
  { live with
    fuses := { Fuses.reset with level := level, service := service }, monitor := { live.monitor with unlocked := true }
    ledger := { live.ledger with
      defects := [defect0], results := [⟨1, 0, 0, 1000, 0, 0, 0, 2, 0, 0, 2, 0⟩], events := [(8, ⟨0x1502, 1, 2, 3⟩)] } }

/-- The rescue image serves, and a transfer of one block has begun. -/
def rescueOpen0 : State := { live with seq := .rescue, fw := { live.fw with rescueOpen := some 1 } }

theorem witness_MonitorCommands :
    ((opened 1 0).program = some false ∧ (opened 1 0).fuses.lcState = 1 ∧ (opened 3 1).fuses.lcState = 4 ∧
      tells (.baud 3000000) live [.ok, .prompt false] = true ∧ tells (.baud 9600) live [.err 5, .prompt false] = true ∧
      tells (.log 1) (opened 1 0) [.value "event" [8, 0x1502, 1, 2, 3], .ok, .prompt false] = true ∧
      tells (.log 256) (opened 1 0) [.value "event" [8, 0x1502, 1, 2, 3], .ok, .prompt false] = true ∧
      tells (.unknownCommand .unknown) live [.err 2, .prompt false] = true ∧
      tells .defects (opened 1 0) [.value "defect" [0, 1, 5, 1, 3, 1, 0], .ok, .prompt false] = true ∧
      after (.result 0 1) (opened 1 0) (fun t => t.monitor.out.length == 3) = true ∧
      after .help live (fun t => t.monitor.out.length == 12) = true ∧ after .info live (fun t => t.monitor.out.length == 8) = true ∧
      after .state live (fun t => t.monitor.out.length == 9) = true) ∧
    (tells (.test 1 0) { opened 1 0 with monitor := live.monitor } [.err 3, .prompt false] = true ∧
      (opened 1 0).sliceFree 1 19 = true ∧ ({ opened 1 0 with tiles := [(319, tileOn 0)] } : State).sliceFree 1 19 = false ∧
      after (.test 1 19) (opened 1 0) (fun t => t.monitor.testing == some (1, 19) && (t.tile 319).use == .onDemand) = true ∧
      after (.test 5 1) (opened 3 1) (fun t => t.monitor.testing == some (5, 1)) = true ∧
      after (.test 1 19) { opened 1 0 with tiles := [(319, tileOn 0)] } (fun t => t.ledger.results.map (·.outcome) == [0, 3]) = true ∧
      tells (.test 1 0) (opened 3 0) [.err 4, .prompt false] = true ∧
      (opened 1 0).clearable defect0 = true ∧ (opened 1 0).clearable { defect0 with source := 0 } = false ∧
      after (.defectClear 0) (opened 3 1) (fun t => t.ledger.defects == []) = true ∧
      tells .resultErase (opened 1 0) [.value "erased" [1], .ok, .prompt false] = true ∧
      after (.fuse 6 2559 true) (opened 1 0) (fun t => t.fuses.bad == [(6, 2559)]) = true) ∧
    (rescueOpen0.program = some true ∧ tells (.rescue 4096) rescueOpen0 [.ok, .prompt true] = true ∧
      after (.block 0 0x98f94189 (List.replicate 4096 0) true) rescueOpen0 (fun t => t.fw.rescueOwner == 2) = true ∧
      tells (.block 0 0 (List.replicate 4096 0) true) rescueOpen0 [.err 8, .prompt true] = true ∧
      after .rescueOwnershipTimeout { rescueOpen0 with fw := { rescueOpen0.fw with rescueOwner := 2 } } (fun t => t.fw.rescueOwner == 0) = true) := by
  decide +kernel

/-! ### Tokens and reports -/

/-- First 8 and last 104 bytes of a token in state FIELD (R470): kind, target state and revocation mask. -/
def tokenHead (kind to_ : Nat) : List Byte := toLe 4 0x4E4B544C ++ [BitVec.ofNat 8 kind, 3, BitVec.ofNat 8 to_, 0]
def tokenTail (rev : Nat) : List Byte := toLe 4 0 ++ [BitVec.ofNat 8 rev, 0, 0, 0] ++ anyPub ++ anySig
def token (kind to_ rev : Nat) : List Byte := tokenHead kind to_ ++ (lcFuses.deviceId ++ tokenTail rev)

theorem token_length (kind to_ rev : Nat) : (token kind to_ rev).length = 128 := by
  simp only [token, List.length_append, deviceId_length]
  rfl

theorem token_head (kind to_ rev o n : Nat) (h : o + n ≤ 8) : field (token kind to_ rev) o n = field (tokenHead kind to_) o n := by
  have hl : (tokenHead kind to_).length = 8 := rfl
  unfold field token
  rw [List.drop_append_of_le_length (by omega), List.take_append_of_le_length (by simp; omega)]

theorem token_drop (kind to_ rev o : Nat) : (token kind to_ rev).drop (24 + o) = (tokenTail rev).drop o := by
  have hl : (tokenHead kind to_).length = 8 := rfl
  unfold token
  rw [← List.append_assoc, show 24 + o = (tokenHead kind to_ ++ lcFuses.deviceId).length + o by
    rw [List.length_append, deviceId_length, hl], List.drop_append]
  simp

theorem token_tail (kind to_ rev o n : Nat) : field (token kind to_ rev) (24 + o) n = field (tokenTail rev) o n := by
  unfold field; rw [token_drop]

theorem token_slice (kind to_ rev o n : Nat) : sliceB (token kind to_ rev) (24 + o) n = sliceB (tokenTail rev) o n := by
  unfold sliceB; rw [token_drop]

theorem token_device (kind to_ rev : Nat) : sliceB (token kind to_ rev) 8 16 = lcFuses.deviceId := by
  have hl : (tokenHead kind to_).length = 8 := rfl
  unfold sliceB token
  simp [hl, deviceId_length]

/-- A module in state FIELD with the descriptor of a token. -/
def tokenDesc : Desc := descOf 0x71 0 (toLe 8 0x8000 ++ toLe 8 128)
def tokenState : State := { withDesc live tokenDesc with fuses := lcFuses }

theorem tokenState_fuses : tokenState.fuses = lcFuses := by unfold tokenState; rfl

theorem lcFuses_slot : lcFuses.keySlot (4 + 0) = sha512 anyPub := by
  have h : lcFuses.keys.find? (·.1 == 4 + 0) = some (4, sha512 anyPub) := by unfold lcFuses; simp
  unfold Fuses.keySlot
  rw [h]

theorem token_pub (kind to_ rev : Nat) : sliceB (token kind to_ rev) 32 32 = anyPub := (token_slice kind to_ rev 8 32).trans (by rfl)
theorem token_sig (kind to_ rev : Nat) : sliceB (token kind to_ rev) 64 64 = anySig := (token_slice kind to_ rev 40 64).trans (by rfl)
theorem token_zero (kind to_ rev : Nat) : field (token kind to_ rev) 29 3 = 0 := (token_tail kind to_ rev 5 3).trans (by rfl)
theorem token_service (kind to_ rev : Nat) : tService (token kind to_ rev) = 0 := (token_tail kind to_ rev 0 4).trans (by rfl)
theorem token_revoke (kind to_ rev : Nat) : tRevoke (token kind to_ rev) = field (tokenTail rev) 4 1 := token_tail kind to_ rev 4 1
theorem token_magic (kind to_ rev : Nat) : field (token kind to_ rev) 0 4 = 0x4E4B544C := by
  rw [token_head kind to_ rev 0 4 (by omega)]
  have h : ((tokenHead kind to_).drop 0).take 4 = toLe 4 0x4E4B544C := rfl
  unfold field
  rw [h]
  decide +kernel
theorem token_kind (kind to_ rev : Nat) : tKind (token kind to_ rev) = field (tokenHead kind to_) 4 1 :=
  token_head kind to_ rev 4 1 (by omega)
theorem token_from (kind to_ rev : Nat) : tFrom (token kind to_ rev) = 3 := (token_head kind to_ rev 5 1 (by omega)).trans (by rfl)
theorem token_to (kind to_ rev : Nat) : tTo (token kind to_ rev) = field (tokenHead kind to_) 6 1 :=
  token_head kind to_ rev 6 1 (by omega)
theorem token_slot (kind to_ rev : Nat) : tSlot (token kind to_ rev) = 0 := (token_head kind to_ rev 7 1 (by omega)).trans (by rfl)

theorem token_genuine (kind to_ rev : Nat) (h : (kind, to_, rev) ∈ [(1, 4, 0), (1, 5, 0), (2, 3, 0x22)]) :
    lcFuses.tokenGenuine (token kind to_ rev) = true := by
  have hb : bit lcFuses.lcRevoked 0 = false := by unfold lcFuses; decide +kernel
  unfold Fuses.tokenGenuine
  rw [token_pub, token_sig, token_zero, token_revoke, token_magic, token_kind, token_slot, lcFuses_slot, signedOk, anySig_verifies, hb]
  simp only [beq_self_eq_true, Bool.and_true, Bool.true_and, Bool.not_false]
  revert h; simp only [List.mem_cons, List.not_mem_nil, or_false, Prod.mk.injEq]
  rintro (⟨rfl, rfl, rfl⟩ | ⟨rfl, rfl, rfl⟩ | ⟨rfl, rfl, rfl⟩) <;> decide +kernel

theorem token_passes (kind to_ rev : Nat) (h : (kind, to_, rev) ∈ [(1, 4, 0), (1, 5, 0), (2, 3, 0x22)]) :
    tokenState.tokenFault (token kind to_ rev) = none := by
  have hs : lcFuses.service = 0 := by unfold lcFuses; decide +kernel
  have hg : tokenState.graphIds.isEmpty = true := by decide +kernel
  have hi : tokenState.imageSlot = 0 := by decide +kernel
  have hu : tokenState.fw.update.isNone = true := by decide +kernel
  unfold State.tokenFault
  simp only [tokenState_fuses, token_genuine kind to_ rev h, token_device, token_from, token_service, token_kind, token_to, token_revoke,
    hs, hg, hi, hu, beq_self_eq_true]
  revert h; simp only [List.mem_cons, List.not_mem_nil, or_false, Prod.mk.injEq]
  rintro (⟨rfl, rfl, rfl⟩ | ⟨rfl, rfl, rfl⟩ | ⟨rfl, rfl, rfl⟩) <;> decide +kernel

def attestDesc : Desc := descOf 0x72 0 (List.replicate 32 7 ++ toLe 8 0x9000 ++ toLe 4 1536)

theorem witness_IdentityRows :
    tokenState.starts 0 0x71 (fun d => ⟨1, 0, [(16, 16)], d.get 24 8 == 128⟩) tokenDesc ∧
      (∀ kind to_ rev, (kind, to_, rev) ∈ [(1, 4, 0), (1, 5, 0), (2, 3, 0x22)] →
        (token kind to_ rev).length = 128 ∧ tokenState.tokenFault (token kind to_ rev) = none) ∧
      tokenState.fuses.tokenGenuine (List.replicate 128 0) = false ∧ tokenState.fuses.lcState = 3 ∧
      (withDesc live attestDesc).starts 0 0x72 (fun d => ⟨1, 0, [(16, 44)], d.get 48 8 % 64 == 0 && 1536 ≤ d.get 56 4⟩) attestDesc ∧
      live.fuses.keyed = true ∧ ({ Fuses.reset with level := 0 } : Fuses).keyed = false := by
  refine ⟨⟨?_, ?_, ?_, ?_, ?_, ?_⟩, fun k t r h => ⟨token_length k t r, token_passes k t r h⟩, ?_, ?_, ⟨?_, ?_, ?_, ?_, ?_, ?_⟩, ?_, ?_⟩ <;>
    decide +kernel

/-- A token of this device that has been used. -/
theorem witness_IdentityRows_used :
    tokenState.dma = true ∧ token 2 3 0x22 ∈ ({ lcFuses with used := [token 2 3 0x22] } : Fuses).used ∧
      ({ lcFuses with used := [token 2 3 0x22] } : Fuses).tokenGenuine (token 2 3 0x22) = true ∧
      sliceB (token 2 3 0x22) 8 16 = ({ lcFuses with used := [token 2 3 0x22] } : Fuses).deviceId :=
  ⟨by decide +kernel, List.mem_singleton.2 rfl, token_genuine 2 3 0x22 (by simp), token_device 2 3 0x22⟩

/-! ### Narrow elements -/

/-- Values where the clauses of `NarrowElements` meet: the least MXINT8 number clamps, 127/64 is the largest, XM40 1.5 with a
tail (R64, R66, R68). -/
theorem witness_NarrowElements :
    encodeMxint .nearest (.fin true 2 0) = 0x81 ∧ encodeMxint .nearest (.fin false 127 (-6)) = 0x7F ∧
      encodeMxint .nearest (.fin false 5 3) = 0x7F ∧ decodeFloat xm40L 0x3FC0000001 = .fin false 0xC0000001 (-31) ∧
      decodeFloat fp32L (0x3FC0000001 / 256) = .fin false 0xC00000 (-23) ∧ (decodeFloat xm40L 0x7F80000000) = .inf false ∧
      decodeElem .xl4 7 = .zero ∧ decodeElem .xl4 15 = .zero := by decide +kernel

end Sys2Proof.Tests
end

section
/-! PROOF. What BAR0 writes do under the set-up lock: the laws of the shared operations that they run through, the path of a
4-byte write to its register, and the obligation about the lock. -/

namespace Sys2Proof.Machine

variable {s u : State} {p : Part} {w : BarWrite} {k n off v : Nat}

/-! ### Reports -/

/-- What an update does to the entry it names holds of every entry, where it also holds of an entry left alone. -/
theorem Tab.get_upd_rel {α : Type} [DecidableEq α] {d : α} {R : α → α → Prop} (hr : ∀ x, R x x) {f : α → α}
    (hf : ∀ x, R x (f x)) (t : Tab α) (i j : Nat) : R (Tab.get d t j) (Tab.get d (Tab.upd d i f t) j) := by
  rw [Tab.get_upd]
  split
  · next h => rw [h]; exact hf _
  · exact hr _

/-- Two rings that differ in nothing but what a record changes (R330). -/
def Ring.Reported (r x : Ring) : Prop := x = { r with count := x.count, lost := x.lost, dirty := x.dirty }

theorem Ring.Reported.refl (r : Ring) : r.Reported r := rfl
theorem Ring.Reported.base {r x : Ring} (h : r.Reported x) : x.base = r.base := by rw [h]
theorem Ring.Reported.irq {r x : Ring} (h : r.Reported x) : x.irq = r.irq := by rw [h]
theorem Ring.Reported.ctrl {r x : Ring} (h : r.Reported x) : x.ctrl k = r.ctrl k := by rw [h]; rfl

theorem State.hostWrite_frame (a : Nat) (bs : List Byte) : ∃ hm hp,
    s.hostWrite a bs = { s with host := { s.host with mem := hm, poison := hp } } := by
  unfold State.hostWrite
  split
  · exact ⟨_, _, rfl⟩
  · exact ⟨s.host.mem, s.host.poison, rfl⟩

/-- A notice reaches host memory and the counts of its completion ring (R330). -/
theorem State.notice_frame (q : Nat) (r : Rec) : ∃ hm hp cq, (∀ j, (s.cq j).Reported (Tab.get .reset cq j)) ∧
    s.notice q r = { s with host := { s.host with mem := hm, poison := hp, cq := cq } } := by
  unfold State.notice
  split
  · unfold State.writeRec
    dsimp only
    obtain ⟨hm, hp, h⟩ := State.hostWrite_frame (s := s) ((s.cq q).base + 32 * ((s.cq q).count % (s.cq q).size))
      (recBytes r (1 - (s.cq q).count / (s.cq q).size % 2) (s.cq q).lost (bits s.cairn 10 32))
    rw [h]
    exact ⟨hm, hp, _, fun j => Tab.get_upd_rel Ring.Reported.refl
      (f := fun c => { c with count := (c.count + 1) % 2 ^ 32, lost := 0, dirty := true }) (fun _ => rfl) s.host.cq q j, rfl⟩
  · exact ⟨s.host.mem, s.host.poison, _, fun j => Tab.get_upd_rel Ring.Reported.refl
      (f := fun c => { c with lost := min (c.lost + 1) 0xFFFF }) (fun _ => rfl) s.host.cq q j, rfl⟩

/-- An event is one record of the ledger, and at most a notice beside it (R329). -/
theorem State.raise_frame (c x y z : Nat) : ∃ hm hp cq, (∀ j, (s.cq j).Reported (Tab.get .reset cq j)) ∧
    s.raise c x y z = { s with
      host := { s.host with mem := hm, poison := hp, cq := cq }
      ledger := { s.ledger with events := s.ledger.events ++ [(s.cairn, ⟨c, x, y, z⟩)] } } := by
  unfold State.raise
  dsimp only
  split
  · obtain ⟨hm, hp, cq, hc, h⟩ := State.notice_frame (s := s.ledgerEvent c x y z) (s.ledgerEvent c x y z).host.evtRing
      ⟨2, 0, c, 0, 0, x % 2 ^ 64, y % 2 ^ 32, z % 2 ^ 32⟩
    exact ⟨hm, hp, cq, hc, h⟩
  · exact ⟨s.host.mem, s.host.poison, s.host.cq, fun _ => rfl, rfl⟩

/-! ### Writes that the lock ignores -/

/-- What the lock does to a write of RWL fields (R9). -/
theorem State.rwl_locked (h : s.regs.locked = true) (old new : Nat) (act : State → State) :
    s.rwl p old new act = if old = new then s else s.lockedWrite p.origin := by
  simp [State.rwl, h]

/-- The fields of rings that the lock keeps are as they were: every field but `IRQ_EN` (R9, R483). -/
def State.SameButIrq (s u : State) : Prop :=
  (∀ k m, u.ring k m = { s.ring k m with irq := (u.ring k m).irq }) ∧
    u = { s with host := { s.host with sq := u.host.sq, cq := u.host.cq, hv := u.host.hv } }

theorem State.SameButIrq.refl (s : State) : s.SameButIrq s := ⟨fun _ _ => rfl, rfl⟩

theorem State.setIrq_sameButIrq : s.SameButIrq (s.setIrq k n v) := by
  have key (t : Tab Ring) (m : Nat) := Tab.get_upd_rel (d := Ring.reset) (R := fun r x : Ring => x = { r with irq := x.irq })
    (fun _ => rfl) (f := fun r => { r with irq := if k = 0 then r.irq else bit v 27 }) (fun _ => rfl) t n m
  match k with
  | 0 => exact ⟨fun j m => match j with | 0 => key s.host.sq m | 1 | _ + 2 => rfl, rfl⟩
  | 1 => exact ⟨fun j m => match j with | 1 => key s.host.cq m | 0 | _ + 2 => rfl, rfl⟩
  | _ + 2 => exact ⟨fun j m => match j with | _ + 2 => key s.host.hv m | 0 | 1 => rfl, rfl⟩

/-- A write that the lock ignores sets `LOCK_VIOLATION` with its offset, and raises its event where the bit was clear (R9,
R479). -/
theorem State.lockedWrite_frame (a : Nat) : ∃ hm hp cq, (∀ j, (s.cq j).Reported (Tab.get .reset cq j)) ∧
    s.lockedWrite a = { s with
      regs := { s.regs with lockViolation := true, lockViolOffset := a }
      host := { s.host with mem := hm, poison := hp, cq := cq }
      ledger := { s.ledger with events :=
        s.ledger.events ++ if s.regs.lockViolation then [] else [(s.cairn, ⟨0x1004, a, 0, 0⟩)] } } := by
  unfold State.lockedWrite
  cases hv : s.regs.lockViolation with
  | true => exact ⟨s.host.mem, s.host.poison, s.host.cq, fun _ => rfl, by simp⟩
  | false =>
    exact State.raise_frame (s := { s with regs := { s.regs with lockViolation := true, lockViolOffset := a } }) 0x1004 a 0 0

/-- What the obligation says of a write of RWL fields on a locked module, the write being given as `rwlWrites` does: its command,
its offset, what the fields hold and what it would put into them. -/
def State.KeepsRwl (s : State) (e : Instr × Nat × Nat × Nat) : Prop :=
  (e.2.2.1 ≠ e.2.2.2 → ∃ t, exec e.1 s = .next t ∧
    t.regs = { s.regs with lockViolation := true, lockViolOffset := e.2.1 } ∧ t.host.dbBase = s.host.dbBase ∧
    t.host.evtRing = s.host.evtRing ∧ t.host.evtEnable = s.host.evtEnable ∧
    (∀ k m, (t.ring k m).base = (s.ring k m).base ∧ (t.ring k m).ctrl k = (s.ring k m).ctrl k) ∧
    (s.regs.lockViolation = false → t.ledger.events = s.ledger.events ++ [(s.cairn, ⟨0x1004, e.2.1, 0, 0⟩)]) ∧
    (s.regs.lockViolation = true → t.ledger = s.ledger) ∧
    t = { s with regs := t.regs, host := t.host, ledger := { s.ledger with events := t.ledger.events } }) ∧
  (e.2.2.1 = e.2.2.2 → ∃ t, exec e.1 s = .next t ∧
    (∀ k m, t.ring k m = { s.ring k m with irq := (t.ring k m).irq }) ∧
    t = { s with host := { s.host with sq := t.host.sq, cq := t.host.cq, hv := t.host.hv } })

/-- Rings after a write that the lock ignores, from a state where `IRQ_EN` may have changed. -/
theorem State.SameButIrq.lockedWrite_ring (h : s.SameButIrq u) (a k m : Nat) :
    (((u.lockedWrite a).ring k m).base = (s.ring k m).base ∧ ((u.lockedWrite a).ring k m).ctrl k = (s.ring k m).ctrl k) := by
  obtain ⟨hm, hp, cq, hc, e⟩ := State.lockedWrite_frame (s := u) a
  have hr : (u.ring k m).Reported ((u.lockedWrite a).ring k m) := by
    rw [e]
    match k with
    | 0 | _ + 2 => rfl
    | 1 => exact hc m
  rw [hr.base, hr.ctrl, h.1 k m]
  exact ⟨rfl, rfl⟩

/-- A command that comes to a write of RWL fields, once no more than `IRQ_EN` has changed, does under the lock what R9 says. -/
theorem State.SameButIrq.keepsRwl (hi : s.SameButIrq u) (hl : s.regs.locked = true) {c : Instr} {old new : Nat}
    {act : State → State} (h : exec c s = .next (u.rwl ⟨off, off, v⟩ old new act)) : s.KeepsRwl (c, off, old, new) := by
  have hrings := hi.lockedWrite_ring off
  obtain ⟨hirq, hu⟩ := hi
  have hul : u.regs.locked = true := by rw [hu]; exact hl
  rw [State.rwl_locked hul] at h
  constructor
  · intro hne
    rw [if_neg hne] at h
    refine ⟨_, h, ?_⟩
    obtain ⟨hm, hp, cq, -, e⟩ := State.lockedWrite_frame (s := u) off
    dsimp only at hrings ⊢
    generalize u.lockedWrite off = t at e hrings ⊢
    subst e
    generalize u.host.sq = a at hu
    generalize u.host.cq = b at hu
    generalize u.host.hv = c at hu
    subst hu
    refine ⟨rfl, rfl, rfl, rfl, hrings, fun hv => ?_, fun hv => ?_, rfl⟩
    · simp [hv]
    · simp [hv]
  · intro heq
    rw [if_pos heq] at h
    exact ⟨u, h, hirq, hu⟩

/-! ### The path of a write of 4 bytes -/

theorem barParts_word (ho : off % 4 = 0) (hv : v < 2 ^ 32) : barParts ⟨off, 4, v⟩ = [⟨off, off, v⟩] := by
  unfold barParts
  rw [if_pos (by simp [ho]), Nat.mod_eq_of_lt hv]

section Word

variable (hb : s.bar0Answers = true) (hs : s.seq ≠ .rescue)

include hb in
theorem State.bar0_word (ok : Bool) (ho : off % 4 = 0) (hv : v < 2 ^ 32) :
    s.bar0 ok ⟨off, 4, v⟩ = s.writePart ok ⟨off, off, v⟩ := by
  rw [State.bar0, if_pos hb, barParts_word ho hv]; rfl

include hb in
theorem State.ownWrite_word {q : Nat → Nat → Bool} (ho : off % 4 = 0) (hv : v < 2 ^ 32) (hq : q off v = true) :
    s.ownWrite q ⟨off, 4, v⟩ = .next (s.writePart true ⟨off, off, v⟩) := by
  rw [State.ownWrite_next, State.bar0_word hb true ho hv, barCovers, barParts_word ho hv]
  exact ⟨by simp [hq], rfl⟩

include hb in
theorem State.registerWrite_word (ho : off % 4 = 0) (hv : v < 2 ^ 32) (h1 : off < 2 ^ 25) (h2 : off ≠ 0x60020) :
    exec (.registerWrite ⟨off, 4, v⟩) s = .next (s.writePart true ⟨off, off, v⟩) := by
  show execRegisterWrite ⟨off, 4, v⟩ s = _
  rw [execRegisterWrite, onUnit_next, State.bar0_word hb true ho hv, barCovers, barParts_word ho hv]
  exact ⟨by simp only [Bool.and_eq_true, decide_eq_true_eq]; exact ⟨h1, by simp [h2]⟩, rfl⟩

include hs in
theorem State.writePart_low (ok : Bool) (ha : p.at_ < 0x20000) : s.writePart ok p = s.lowPart p := by
  simp [State.writePart, hs, ha]

include hs in
theorem State.writePart_mid (ok : Bool) (h1 : 0x20000 ≤ p.at_) (h2 : p.at_ < 0x50000) : s.writePart ok p = s.midPart p := by
  simp [State.writePart, hs, Nat.not_lt.2 h1, h2]

include hs in
theorem State.writePart_high (ok : Bool) (ha : 0x50000 ≤ p.at_) : s.writePart ok p = s.highPart p := by
  simp [State.writePart, hs, Nat.not_lt.2 ha, show ¬ p.at_ < 0x20000 by omega]

/-- Rings of a kind: submission, completion and harvest rings (R482). -/
def ringCount (k : Nat) : Nat := if k = 2 then 64 else 256

theorem lt_of_lt_ringCount (hn : n < ringCount k) : n < 256 :=
  Nat.lt_of_lt_of_le hn (by unfold ringCount; split <;> decide)

include hs in
/-- A word of ring `n` of the kind `k` (R482). -/
theorem State.writePart_ring (ok : Bool) {j : Nat} (hk : k < 3) (hn : n < ringCount k) (hj : j < 16)
    (ha : p.at_ = 0x10000 + 0x1000 * k + 16 * n + j) : s.writePart ok p = s.ringPart k n p := by
  unfold ringCount at hn
  rw [State.writePart_low hs ok (by split at hn <;> omega)]
  unfold State.lowPart
  match k, hn with
  | 0, hn =>
    have hn : n < 256 := hn
    rw [if_neg (by omega), if_pos (by simp; omega), show (p.at_ - 0x10000) / 16 = n by omega]
  | 1, hn =>
    have hn : n < 256 := hn
    rw [if_neg (by omega), if_neg (by simp; omega), if_pos (by simp; omega), show (p.at_ - 0x11000) / 16 = n by omega]
  | 2, hn =>
    have hn : n < 64 := hn
    rw [if_neg (by omega), if_neg (by simp; omega), if_neg (by simp; omega), if_pos (by simp; omega),
      show (p.at_ - 0x12000) / 16 = n by omega]

/-! ### Each RWL field under the lock -/

variable (hl : s.regs.locked = true) (hv : v < 2 ^ 32)
include hb hs hl hv

omit hb hs hv in
/-- A write of 4 bytes whose part is ignored by the lock. -/
theorem State.keepsRwl_of_part {c : Instr} {old new : Nat} (hc : exec c s = .next (s.writePart true ⟨off, off, v⟩))
    (h : s.writePart true ⟨off, off, v⟩ = if old = new then s else s.lockedWrite off) : s.KeepsRwl (c, off, old, new) :=
  (State.SameButIrq.refl s).keepsRwl hl (off := off) (v := v) (act := id)
    (by rw [State.rwl_locked hl]; exact hc.trans (congrArg _ h))

theorem State.ringLow_keepsRwl (hk : k < 3) (hn : n < ringCount k) (ha : off = 0x10000 + 0x1000 * k + 16 * n) :
    s.KeepsRwl (.registerWrite ⟨off, 4, v⟩, off, (s.ring k n).base % 2 ^ 32, page4k v) := by
  have hn' := lt_of_lt_ringCount hn
  refine State.keepsRwl_of_part hl (State.registerWrite_word hb (by omega) hv (by omega) (by omega)) ?_
  rw [State.writePart_ring hs true hk hn (j := 0) (by omega) ha]
  simp only [State.ringPart, show off % 16 = 0 by omega]
  rw [State.ringBase, if_neg (by simp), State.rwl_locked hl]

theorem State.ringHigh_keepsRwl (hk : k < 3) (hn : n < ringCount k) (ha : off = 0x10000 + 0x1000 * k + 16 * n + 4) :
    s.KeepsRwl (.registerWrite ⟨off, 4, v⟩, off, (s.ring k n).base / 2 ^ 32, v) := by
  have hn' := lt_of_lt_ringCount hn
  refine State.keepsRwl_of_part hl (State.registerWrite_word hb (by omega) hv (by omega) (by omega)) ?_
  rw [State.writePart_ring hs true hk hn (by omega) ha]
  simp only [State.ringPart, show off % 16 = 4 by omega]
  rw [State.ringBase, if_pos rfl, State.rwl_locked hl]

/-- `CTRL` under the lock: `IRQ_EN` takes its value, and the other fields are RWL (R9, R483). -/
theorem State.ringCtrl_exec (hk : k < 3) (hn : n < ringCount k) (ha : off = 0x10000 + 0x1000 * k + 16 * n + 8) :
    exec (.ringCtrlWrite ⟨off, 4, v⟩) s =
      .next ((s.setIrq k n v).rwl ⟨off, off, v⟩ ((s.ring k n).ctrl k) (ctrlFields k v) id) := by
  have hn' : n < ringCount k := hn
  unfold ringCount at hn'
  show s.ownWrite _ _ = _
  rw [State.ownWrite_word hb (by omega) hv (by simp; split at hn' <;> omega), State.writePart_ring hs true hk hn (by omega) ha]
  simp only [State.ringPart, show off % 16 = 8 by omega]
  rw [State.ringCtrl, if_pos hl]

theorem State.ringCtrl_keepsRwl (hk : k < 3) (hn : n < ringCount k) (ha : off = 0x10000 + 0x1000 * k + 16 * n + 8) :
    s.KeepsRwl (.ringCtrlWrite ⟨off, 4, v⟩, off, (s.ring k n).ctrl k, ctrlFields k v) :=
  State.setIrq_sameButIrq.keepsRwl hl (State.ringCtrl_exec hb hs hl hv hk hn ha)

theorem State.dbBaseLow_keepsRwl : s.KeepsRwl (.dbBaseWrite ⟨0x13000, 4, v⟩, 0x13000, s.host.dbBase % 2 ^ 32, page4k v) := by
  refine State.keepsRwl_of_part hl (State.ownWrite_word hb rfl hv rfl) ?_
  rw [State.writePart_low hs true (by simp)]
  show s.writeDbBase false _ = _
  rw [State.writeDbBase, if_neg (by simp), State.rwl_locked hl]

theorem State.dbBaseHigh_keepsRwl : s.KeepsRwl (.dbBaseWrite ⟨0x13004, 4, v⟩, 0x13004, s.host.dbBase / 2 ^ 32, v) := by
  refine State.keepsRwl_of_part hl (State.ownWrite_word hb rfl hv rfl) ?_
  rw [State.writePart_low hs true (by simp)]
  show s.writeDbBase true _ = _
  rw [State.writeDbBase, if_pos rfl, State.rwl_locked hl]

theorem State.evtRing_keepsRwl : s.KeepsRwl
    (.evtRingWrite ⟨0x1300C, 4, v⟩, 0x1300C, s.host.evtRing + 2 ^ 8 * b2n s.host.evtEnable, v % 2 ^ 9) := by
  refine State.keepsRwl_of_part hl (State.ownWrite_word hb rfl hv rfl) ?_
  rw [State.writePart_low hs true (by simp)]
  show s.writeEvtRing _ = _
  rw [State.writeEvtRing, State.rwl_locked hl]

theorem State.streamTableLow_keepsRwl : s.KeepsRwl
    (.streamTableBaseWrite ⟨0x13010, 4, v⟩, 0x13010, s.regs.streamTable % 2 ^ 32, v / 2 ^ 16 * 2 ^ 16) := by
  refine State.keepsRwl_of_part hl (State.ownWrite_word hb rfl hv rfl) ?_
  rw [State.writePart_low hs true (by simp)]
  show s.writeStreamTable false _ = _
  rw [State.writeStreamTable, if_neg (by simp), State.rwl_locked hl]
  show (if _ = v % 2 ^ 32 / 2 ^ 16 * 2 ^ 16 then _ else _) = _
  rw [Nat.mod_eq_of_lt hv]

theorem State.streamTableHigh_keepsRwl : s.KeepsRwl
    (.streamTableBaseWrite ⟨0x13014, 4, v⟩, 0x13014, s.regs.streamTable / 2 ^ 32, v % 2 ^ 12) := by
  refine State.keepsRwl_of_part hl (State.ownWrite_word hb rfl hv rfl) ?_
  rw [State.writePart_low hs true (by simp)]
  show s.writeStreamTable true _ = _
  rw [State.writeStreamTable, if_pos rfl, State.rwl_locked hl]

theorem State.cxlIl_keepsRwl : s.KeepsRwl (.registerWrite ⟨0x40004, 4, v⟩, 0x40004, b2n s.regs.cxlIl, v % 2) := by
  refine State.keepsRwl_of_part hl (State.registerWrite_word hb rfl hv (by decide) (by decide)) ?_
  rw [State.writePart_mid hs true (by simp) (by simp)]
  exact State.rwl_locked (p := ⟨0x40004, 0x40004, v⟩) hl _ _ fun s => { s with regs := { s.regs with cxlIl := bit v 0 } }

theorem State.slot_keepsRwl {i : Nat} (hi : i < 8) {r : RetireSlot} (hr : r = Tab.get RetireSlot.reset s.mem.slots i) : s.KeepsRwl
    (.retireSlotWrite ⟨0x40040 + 4 * i, 4, v⟩, 0x40040 + 4 * i, r.baseGib + 2 ^ 13 * b2n r.enable, v % 2 ^ 14) := by
  have hp (p : Part) (ha : p.at_ = 0x40040 + 4 * i) : s.midPart p = s.writeSlot i p := by
    unfold State.midPart
    rw [if_neg (by omega), if_neg (by omega), if_neg (by simp; omega), if_neg (by omega), if_neg (by omega), if_neg (by omega),
      if_neg (by omega), if_pos (by simp; omega), show (p.at_ - 0x40040) / 4 = i by omega]
  refine State.keepsRwl_of_part hl (State.ownWrite_word hb (by omega) hv (by simp; omega)) ?_
  rw [State.writePart_mid hs true (by simp; omega) (by simp; omega), hp _ rfl, State.writeSlot, State.rwl_locked hl, hr]

theorem State.dims_keepsRwl : s.KeepsRwl (.fzDimsWrite ⟨0x50000, 4, v⟩, 0x50000, s.fabric.dims, v % 2 ^ 17) := by
  refine State.keepsRwl_of_part hl (State.ownWrite_word hb rfl hv rfl) ?_
  rw [State.writePart_high hs true (by simp)]
  show s.writeDims _ = _
  rw [State.writeDims, State.rwl_locked hl]

theorem State.self_keepsRwl : s.KeepsRwl (.fzSelfWrite ⟨0x50004, 4, v⟩, 0x50004, s.fabric.self, v % 2 ^ 15) := by
  refine State.keepsRwl_of_part hl (State.ownWrite_word hb rfl hv rfl) ?_
  rw [State.writePart_high hs true (by simp)]
  show s.writeSelf _ = _
  rw [State.writeSelf, State.rwl_locked hl]

theorem State.master_keepsRwl : s.KeepsRwl (.registerWrite ⟨0x5000C, 4, v⟩, 0x5000C, s.fabric.timeMaster, v % 2 ^ 15) := by
  refine State.keepsRwl_of_part hl (State.registerWrite_word hb rfl hv (by decide) (by decide)) ?_
  rw [State.writePart_high hs true (by simp)]
  show s.writeMaster _ = _
  rw [State.writeMaster, State.rwl_locked hl]

/-- Every RWL field (R9, R480). -/
theorem State.rwlWrites_keepsRwl : ∀ e ∈ s.rwlWrites n v, s.KeepsRwl e := by
  have hq : n % 256 < 256 := Nat.mod_lt _ (by decide)
  have hh : n % 64 < 64 := Nat.mod_lt _ (by decide)
  have h8 : n % 8 < 8 := Nat.mod_lt _ (by decide)
  unfold State.rwlWrites
  simp only [List.forall_mem_cons, List.not_mem_nil, false_imp_iff, implies_true, and_true]
  exact ⟨State.ringLow_keepsRwl hb hs hl hv (k := 0) (by decide) hq (by omega),
    State.ringHigh_keepsRwl hb hs hl hv (k := 0) (by decide) hq (by omega),
    State.ringCtrl_keepsRwl hb hs hl hv (k := 0) (by decide) hq (by omega),
    State.ringLow_keepsRwl hb hs hl hv (k := 1) (by decide) hq (by omega),
    State.ringHigh_keepsRwl hb hs hl hv (k := 1) (by decide) hq (by omega),
    State.ringCtrl_keepsRwl hb hs hl hv (k := 1) (by decide) hq (by omega),
    State.ringLow_keepsRwl hb hs hl hv (k := 2) (by decide) hh (by omega),
    State.ringHigh_keepsRwl hb hs hl hv (k := 2) (by decide) hh (by omega),
    State.ringCtrl_keepsRwl hb hs hl hv (k := 2) (by decide) hh (by omega),
    State.dbBaseLow_keepsRwl hb hs hl hv, State.dbBaseHigh_keepsRwl hb hs hl hv, State.evtRing_keepsRwl hb hs hl hv,
    State.streamTableLow_keepsRwl hb hs hl hv, State.streamTableHigh_keepsRwl hb hs hl hv, State.cxlIl_keepsRwl hb hs hl hv,
    State.slot_keepsRwl hb hs hl hv h8 rfl, State.dims_keepsRwl hb hs hl hv, State.self_keepsRwl hb hs hl hv,
    State.master_keepsRwl hb hs hl hv⟩

/-- `IRQ_EN` of a completion ring takes its value under the lock (R483). -/
theorem State.ringCtrl_irq (hn : n < 256) : ∃ t, exec (.ringCtrlWrite ⟨0x11008 + 16 * n, 4, v⟩) s = .next t ∧
    (t.cq n).irq = bit v 27 := by
  refine ⟨_, State.ringCtrl_exec hb hs hl hv (k := 1) (by decide) hn (by omega), ?_⟩
  have hi : ((s.setIrq 1 n v).cq n).irq = bit v 27 := by
    show ((s.updCq n _).cq n).irq = _
    rw [State.updCq_cq, if_pos rfl]; rfl
  rw [State.rwl_locked (s := s.setIrq 1 n v) hl]
  split
  · exact hi
  · obtain ⟨hm, hp, cq, hc, e⟩ := State.lockedWrite_frame (s := s.setIrq 1 n v) (0x11008 + 16 * n)
    rw [e]
    exact (hc n).irq.trans hi

end Word

/-! ### The lock is set -/

theorem State.setLock_of_locked (h : s.regs.locked = true) : s.setLock = s := by simp [State.setLock, h]

/-- `SET` alone clears no sticky bit (R481). -/
theorem State.writeLock_set : s.writeLock 1 = s.setLock := by
  show State.setLock { s with regs := { s.regs with
    lockViolation := s.regs.lockViolation && !false, cfgReject := s.regs.cfgReject && !false } } = _
  simp

/-- The CXL ranges have changed, and nothing else. -/
def State.OnlyRanges (s t : State) : Prop := ∃ rs, t = { s with mem := { s.mem with ranges := rs } }

theorem State.OnlyRanges.updRange {t : State} (h : s.OnlyRanges t) (n : Nat) (f : CxlRange → CxlRange) :
    s.OnlyRanges (t.updRange n f) := by
  obtain ⟨rs, rfl⟩ := h
  exact ⟨_, rfl⟩

/-- Interleaving the CXL tier changes its ranges and `IL_ACTIVE` (R227). -/
theorem State.interleave_frame : ∃ on rs, s.interleave = { s with
    regs := { s.regs with ilActive := on }, mem := { s.mem with ranges := rs } } := by
  unfold State.interleave
  dsimp only
  split
  · exact ⟨s.regs.ilActive, s.mem.ranges, rfl⟩
  · refine Exists.intro true ?_
    have hempty : s.OnlyRanges ((List.range 8).foldl (fun s r => s.updRange r fun _ => .reset) s) :=
      List.foldlRecOn _ _ ⟨s.mem.ranges, rfl⟩ fun t ht r _ => ht.updRange r _
    generalize (List.range 8).foldl (fun s r => State.updRange s r fun _ => .reset) s = e at hempty ⊢
    generalize pairRanges _ _ _ = xs
    have hpairs : s.OnlyRanges (xs.foldl (fun (a : State × Nat × Nat) e =>
        (a.1.updRange a.2.1 fun _ => CxlRange.pair a.2.2 e.1 e.2.1 e.2.2, a.2.1 + 1, a.2.2 + 2 * e.1)) (e, 0, 0)).1 :=
      List.foldlRecOn (motive := fun a => s.OnlyRanges a.1) _ _ hempty
        fun (a : State × Nat × Nat) ha _ _ => State.OnlyRanges.updRange ha a.2.1 _
    obtain ⟨rs, hrs⟩ := hpairs
    exact ⟨rs, by rw [hrs]⟩

/-- Coordinates taken into use or lost change the fabric alone (R267). -/
theorem State.refreshId_frame : ∃ f, s.refreshId = { s with fabric := f } := by
  unfold State.refreshId
  split
  · exact ⟨_, rfl⟩
  · split
    · exact ⟨_, rfl⟩
    · exact ⟨_, rfl⟩

/-- What the check of coordinates changes (R267, R489, R502). -/
theorem State.checkIds_frame : ∃ f g, s.checkIds = { s with
    regs := if s.selfOut then { s.regs with cfgReject := true, cfgErrOffset := 0x50004, cfgErrCause := 1 } else s.regs
    fabric := f, mgmt := g } := by
  unfold State.checkIds
  generalize hx : (if s.selfOut = true then s.refuseWrite 0x50004 1 else s) = x
  have hx : x = { s with regs :=
      if s.selfOut then { s.regs with cfgReject := true, cfgErrOffset := 0x50004, cfgErrCause := 1 } else s.regs } := by
    rw [← hx]; split <;> rfl
  obtain ⟨f, hf⟩ := State.refreshId_frame (s := x)
  dsimp only
  split
  · exact ⟨f, s.mgmt, by rw [hf, hx]⟩
  · split
    · exact ⟨f, s.mgmt, by rw [hf, hx]⟩
    · exact ⟨_, _, by rw [hx]; rfl⟩

@[simp] theorem State.lockSelf_regs : s.lockSelf.regs = s.regs := by unfold State.lockSelf; split <;> simp
@[simp] theorem State.lockSelf_tiles : s.lockSelf.tiles = s.tiles := by unfold State.lockSelf; split <;> simp
@[simp] theorem State.lockSelf_graphs : s.lockSelf.graphs = s.graphs := by unfold State.lockSelf; split <;> simp
@[simp] theorem State.lockSelf_mem : s.lockSelf.mem = s.mem := by unfold State.lockSelf; split <;> simp

/-- Setting the lock sets it, reports coordinates that lie out of range, and changes no memory of HBM, tile or graph (R479,
R489). -/
theorem State.setLock_open (h : s.regs.locked = false) : ∃ on, s.setLock.regs =
      (if s.selfOut then
        { s.regs with locked := true, ilActive := on, cfgReject := true, cfgErrOffset := 0x50004, cfgErrCause := 1 }
      else { s.regs with locked := true, ilActive := on }) ∧
    s.setLock.tiles = s.tiles ∧ s.setLock.graphs = s.graphs ∧ s.setLock.mem.hbm = s.mem.hbm := by
  obtain ⟨on, rs, hi⟩ := State.interleave_frame (s := { s with regs := { s.regs with locked := true } })
  obtain ⟨f, g, hc⟩ := State.checkIds_frame (s := State.interleave { s with regs := { s.regs with locked := true } })
  rw [State.setLock, if_neg (by simp [h]), State.lockSelf_regs, State.lockSelf_tiles, State.lockSelf_graphs,
    State.lockSelf_mem, hc, hi]
  exact ⟨on, rfl, rfl, rfl, rfl⟩

theorem State.setupLockSet_exec (hb : s.bar0Answers = true) (hs : s.seq ≠ .rescue) :
    exec (.setupLockSet ⟨0x20, 4, 1⟩) s = .next s.setLock := by
  show execSetupLockSet ⟨0x20, 4, 1⟩ s = _
  rw [execSetupLockSet, State.ownWrite_word hb rfl (by decide) rfl, State.writePart_low hs true (by decide)]
  exact congrArg _ State.writeLock_set

/-! ### No register write unlocks -/

/-- A fold whose every step leaves the set-up registers as they are. -/
theorem foldl_regs {α : Type} {f : State → α → State} (h : ∀ s x, (f s x).regs = s.regs) (xs : List α) (s : State) :
    (xs.foldl f s).regs = s.regs :=
  List.foldlRecOn (motive := fun t => t.regs = s.regs) _ _ rfl fun t ht x _ => (h t x).trans ht

@[simp] theorem State.askDomain_regs (d : Nat) (on : Bool) : (s.askDomain d on).regs = s.regs := by
  have hn (h : Nat) : (s.noticeHood h).regs = s.regs := by
    unfold State.noticeHood
    split
    · exact foldl_regs (fun _ _ => by rfl) _ _
    · rfl
  unfold State.askDomain
  split
  · rfl
  · exact hn _

@[simp] theorem State.portTo_regs (n : Nat) (st : PortState) : (s.portTo n st).regs = s.regs := by
  unfold State.portTo; split <;> simp

@[simp] theorem State.disablePort_regs (n : Nat) : (s.disablePort n).regs = s.regs := by simp [State.disablePort]

@[simp] theorem State.enablePort_regs (n : Nat) : (s.enablePort n).regs = s.regs := by
  unfold State.enablePort
  split
  · rfl
  · split <;> simp

@[simp] theorem State.writePortCtrl_regs (n v : Nat) : (s.writePortCtrl n v).regs = s.regs := by
  unfold State.writePortCtrl
  dsimp only
  split <;> simp

@[simp] theorem State.addDefect_regs (k a i c : Nat) : (s.addDefect k a i c).regs = s.regs := by
  unfold State.addDefect; split <;> rfl

/-- Blame of a Filzor port reaches that port and its report alone (R373, R374). -/
@[simp] theorem State.blame_filzor_regs (n weight cause : Nat) : (s.blame .filzor n weight cause).regs = s.regs := by
  have hs (old n' : Nat) : (s.settleScore .filzor n old n' cause).regs = s.regs := by
    unfold State.settleScore
    dsimp only
    split
    · rfl
    · split <;> simp [State.setScore]
  unfold State.blame State.settle
  dsimp only
  split
  · simp [State.fencePart, hs]
  · exact hs _ _

@[simp] theorem State.countPort_regs (n i k : Nat) : (s.countPort n i k).regs = s.regs := by
  unfold State.countPort State.noteSaturated
  dsimp only
  split <;> simp

@[simp] theorem State.portRetrain_regs (n : Nat) : (s.portRetrain n).regs = s.regs := by
  unfold State.portRetrain
  split <;> simp

@[simp] theorem State.startRetrain_regs (k n : Nat) : (s.startRetrain k n).regs = s.regs := by
  unfold State.startRetrain
  dsimp only
  split
  · rfl
  · split <;> simp

@[simp] theorem State.nextPlace_regs : s.nextPlace.regs = s.regs := rfl
@[simp] theorem State.addResult_regs (x : TestResult) : (s.addResult x).regs = s.regs := by
  obtain ⟨l, h⟩ : ∃ l, s.addResult x = { s with ledger := l } := ⟨_, rfl⟩
  rw [h]

@[simp] theorem State.skipBad_regs (n : Nat) : (State.skipBad n s).regs = s.regs := by
  induction n generalizing s with
  | zero => rfl
  | succ n ih =>
    unfold State.skipBad
    dsimp only
    split
    · rw [ih, State.nextPlace_regs, State.addResult_regs]
    · rfl

@[simp] theorem State.beginSchedule_regs : s.beginSchedule.regs = s.regs := by
  unfold State.beginSchedule
  dsimp only
  split
  · rfl
  · rw [State.skipBad_regs]; rfl

@[simp] theorem State.unloadAll_regs : s.unloadAll.regs = s.regs := by
  unfold State.unloadAll
  exact foldl_regs (fun _ _ => by simp) _ _

@[simp] theorem State.startShutdown_regs : s.startShutdown.regs = s.regs := by
  unfold State.startShutdown
  dsimp only
  split
  · rfl
  · split
    · simp
    · split <;> simp

@[simp] theorem State.tarnsOff_regs (ts : List Nat) : (State.tarnsOff ts s).regs = s.regs := by
  unfold State.tarnsOff
  exact foldl_regs (fun _ _ => by split <;> simp) _ _

@[simp] theorem State.freeze_regs : s.freeze.regs = s.regs := by
  have hf : s.dropFetches.regs = s.regs := foldl_regs (fun _ _ => by rfl) _ s
  have hs : s.dropFetches.dropSkips.regs = s.dropFetches.regs := foldl_regs (fun _ _ => by rfl) _ s.dropFetches
  exact hs.trans hf

@[simp] theorem State.writeStatus_regs : s.writeStatus.regs = s.regs := by
  unfold State.writeStatus State.hostRaw
  dsimp only
  split
  · rfl
  · split <;> rfl

@[simp] theorem State.recoveryFailed_regs : s.recoveryFailed.regs = s.regs := by simp [State.recoveryFailed]

@[simp] theorem State.restartRecovery_regs : s.restartRecovery.regs = s.regs := by
  unfold State.restartRecovery
  split
  · split
    · simp
    · dsimp only
      split <;> simp
  · rfl

@[simp] theorem State.trigger_regs (go : Bool) : (s.trigger go).regs = s.regs := by
  unfold State.trigger
  split <;> simp [State.startRecovery]

/-! ### Writes of a part under the lock -/

section Locked

variable (hl : s.regs.locked = true)
include hl

omit hl in
theorem ite_keepsLock {c : Prop} [Decidable c] {a b : State} (ha : a.regs.locked = true) (hb : b.regs.locked = true) :
    (if c then a else b).regs.locked = true := by
  split
  · exact ha
  · exact hb

theorem State.rwl_keepsLock (old new : Nat) (act : State → State) : (s.rwl p old new act).regs.locked = true := by
  rw [State.rwl_locked hl]
  split
  · exact hl
  · obtain ⟨hm, hp, cq, -, e⟩ := State.lockedWrite_frame (s := s) p.origin
    rw [e]; exact hl

theorem State.writeLock_keepsLock (v : Nat) : (s.writeLock v).regs.locked = true := by
  unfold State.writeLock
  dsimp only
  exact ite_keepsLock (by rw [State.setLock_of_locked (by exact hl)]; exact hl) hl

theorem State.ringPart_keepsLock (k n : Nat) : (s.ringPart k n p).regs.locked = true := by
  have hset : (s.setIrq k n p.v).regs = s.regs := by rw [State.setIrq_sameButIrq.2]
  unfold State.ringPart
  split
  · rw [State.ringBase, if_neg (by simp)]; exact State.rwl_keepsLock hl _ _ _
  · rw [State.ringBase, if_pos rfl]; exact State.rwl_keepsLock hl _ _ _
  · rw [State.ringCtrl, if_pos hl]; exact State.rwl_keepsLock (hset ▸ hl) _ _ _
  · exact hl

theorem State.writeDbBase_keepsLock (high : Bool) : (s.writeDbBase high p).regs.locked = true := by
  unfold State.writeDbBase
  exact ite_keepsLock (State.rwl_keepsLock hl _ _ _) (State.rwl_keepsLock hl _ _ _)

theorem State.writeStreamTable_keepsLock (high : Bool) : (s.writeStreamTable high p).regs.locked = true := by
  unfold State.writeStreamTable
  dsimp only
  exact ite_keepsLock (State.rwl_keepsLock hl _ _ _) (State.rwl_keepsLock hl _ _ _)

theorem State.lowPart_keepsLock : (s.lowPart p).regs.locked = true := by
  unfold State.lowPart
  dsimp only
  refine ite_keepsLock (State.writeLock_keepsLock hl _) ?_
  refine ite_keepsLock (State.ringPart_keepsLock hl _ _) ?_
  refine ite_keepsLock (State.ringPart_keepsLock hl _ _) ?_
  refine ite_keepsLock (State.ringPart_keepsLock hl _ _) ?_
  refine ite_keepsLock (State.writeDbBase_keepsLock hl _) ?_
  refine ite_keepsLock (State.writeDbBase_keepsLock hl _) ?_
  refine ite_keepsLock hl ?_
  refine ite_keepsLock (State.rwl_keepsLock hl _ _ _) ?_
  refine ite_keepsLock (State.writeStreamTable_keepsLock hl _) ?_
  refine ite_keepsLock (State.writeStreamTable_keepsLock hl _) ?_
  exact hl

theorem State.writeShutdown_keepsLock (v : Nat) : (s.writeShutdown v).regs.locked = true := by
  unfold State.writeShutdown
  dsimp only
  exact ite_keepsLock (by rw [State.startShutdown_regs]; exact hl) hl

theorem State.writeBar2_keepsLock (high : Bool) (v : Nat) : (s.writeBar2 high v).regs.locked = true := by
  obtain ⟨b, l, h⟩ : ∃ b l, s.writeBar2 high v = { s with regs := { s.regs with bar2 := b, bar2Low := l } } := by
    unfold State.writeBar2
    split
    · exact ⟨_, s.regs.bar2Low, rfl⟩
    · exact ⟨s.regs.bar2, _, rfl⟩
  rw [h]; exact hl

theorem State.midPart_keepsLock : (s.midPart p).regs.locked = true := by
  unfold State.midPart
  dsimp only
  refine ite_keepsLock hl ?_
  refine ite_keepsLock (State.writeShutdown_keepsLock hl _) ?_
  refine ite_keepsLock hl ?_
  refine ite_keepsLock hl ?_
  refine ite_keepsLock (State.rwl_keepsLock hl _ _ _) ?_
  refine ite_keepsLock (State.writeBar2_keepsLock hl _ _) ?_
  refine ite_keepsLock (State.writeBar2_keepsLock hl _ _) ?_
  refine ite_keepsLock (State.rwl_keepsLock hl _ _ _) ?_
  refine ite_keepsLock hl ?_
  exact hl

theorem State.portPart_keepsLock (n at_ v : Nat) : (s.portPart n at_ v).regs.locked = true := by
  unfold State.portPart
  exact ite_keepsLock (by rw [State.writePortCtrl_regs]; exact hl) (ite_keepsLock hl hl)

theorem State.writeRecovery_keepsLock (v : Nat) : (s.writeRecovery v).regs.locked = true := by
  unfold State.writeRecovery
  dsimp only
  exact ite_keepsLock hl (ite_keepsLock (by rw [State.trigger_regs]; exact hl) hl)

theorem State.writeDumpBase_keepsLock (high : Bool) (v : Nat) : (s.writeDumpBase high v).regs.locked = true := by
  unfold State.writeDumpBase
  exact ite_keepsLock hl hl

theorem State.writeRetrain_keepsLock (v : Nat) : (s.writeRetrain v).regs.locked = true := by
  unfold State.writeRetrain
  dsimp only
  exact ite_keepsLock (by rw [State.startRetrain_regs]; exact hl) hl

theorem State.highPart_keepsLock : (s.highPart p).regs.locked = true := by
  unfold State.highPart
  dsimp only
  refine ite_keepsLock (State.rwl_keepsLock hl _ _ _) ?_
  refine ite_keepsLock (State.rwl_keepsLock hl _ _ _) ?_
  refine ite_keepsLock (State.rwl_keepsLock hl _ _ _) ?_
  refine ite_keepsLock hl ?_
  refine ite_keepsLock (State.portPart_keepsLock hl _ _ _) ?_
  refine ite_keepsLock hl ?_
  refine ite_keepsLock (State.writeRecovery_keepsLock hl _) ?_
  refine ite_keepsLock (State.writeDumpBase_keepsLock hl _ _) ?_
  refine ite_keepsLock (State.writeDumpBase_keepsLock hl _ _) ?_
  refine ite_keepsLock hl ?_
  refine ite_keepsLock (State.writeRetrain_keepsLock hl _) ?_
  exact hl

/-- A part leaves the lock set, unless it programs a block of a rescue or commits one (R457). -/
theorem State.writePart_keepsLock (ok : Bool) (hp : p.at_ = 0x60020 → bit p.v 12 = false ∧ bit p.v 13 = false) :
    (s.writePart ok p).regs.locked = true := by
  have hrom : (s.romPart ok p).regs.locked = true := by
    unfold State.romPart
    split_ifs with ha
    · obtain ⟨h12, h13⟩ := hp ha
      unfold State.writeRescue
      simp only [h12, h13]
      exact ite_keepsLock hl hl
    · obtain ⟨f, h⟩ : ∃ f, s.rescueData (p.at_ - 0x61000) p.v = { s with fw := f } := ⟨_, rfl⟩
      rw [h]; exact hl
    · exact hl
  unfold State.writePart
  split_ifs
  · exact hrom
  · exact State.lowPart_keepsLock hl
  · exact State.midPart_keepsLock hl
  · exact State.highPart_keepsLock hl

theorem State.bar0_keepsLock (ok : Bool)
    (hw : ∀ x ∈ barParts w, x.at_ = 0x60020 → bit x.v 12 = false ∧ bit x.v 13 = false) :
    (s.bar0 ok w).regs.locked = true := by
  unfold State.bar0
  split
  · exact List.foldlRecOn (motive := fun t : State => t.regs.locked = true) _ _ hl
      fun t ht x hx => State.writePart_keepsLock ht ok (hw x hx)
  · exact hl

end Locked

/-- A write has no part, one, or the two words of an aligned pair (R476). -/
theorem barParts_cases (w : BarWrite) : barParts w = [] ∨ (∃ x, barParts w = [x]) ∨
    ∃ x y, barParts w = [x, y] ∧ x.at_ % 8 = 0 ∧ y.at_ = x.at_ + 4 := by
  unfold barParts
  split
  · exact .inr (.inl ⟨_, rfl⟩)
  · split
    · next h8 => exact .inr (.inr ⟨_, _, rfl, by simpa using (Bool.and_eq_true_iff.1 h8).2, rfl⟩)
    · exact .inl rfl

/-- A write that covers a register outside the word pair of `RESCUE_CTRL` has no part there. -/
theorem not_rescueCtrl_of_covers {q : Nat → Nat → Bool} (h0 : ∀ v, q 0x60020 v = false) (h4 : ∀ v, q 0x60024 v = false)
    (hq : barCovers w q = true) : ∀ x ∈ barParts w, x.at_ ≠ 0x60020 := by
  obtain ⟨z, hz, hqz⟩ := List.any_eq_true.1 hq
  have hz0 : z.at_ ≠ 0x60020 := fun h => by rw [h, h0] at hqz; cases hqz
  have hz4 : z.at_ ≠ 0x60024 := fun h => by rw [h, h4] at hqz; cases hqz
  obtain h | ⟨x, h⟩ | ⟨x, y, h, hx, hy⟩ := barParts_cases w
  · simp [h]
  · rw [h, List.mem_singleton] at hz
    simpa [h, ← hz] using hz0
  · simp only [h, List.mem_cons, List.not_mem_nil, or_false, forall_eq_or_imp, forall_eq] at hz ⊢
    obtain rfl | rfl := hz <;> omega

/-- No row whose register is not `RESCUE_CTRL` takes the lock back. -/
theorem State.ownWrite_keepsLock (hl : s.regs.locked = true) {q : Nat → Nat → Bool} (h0 : ∀ v, q 0x60020 v = false)
    (h4 : ∀ v, q 0x60024 v = false) (h : s.ownWrite q w = .next u) : u.regs.locked = true := by
  obtain ⟨hc, rfl⟩ := State.ownWrite_next.1 h
  exact State.bar0_keepsLock hl true fun x hx hx0 => absurd hx0 (not_rescueCtrl_of_covers h0 h4 hc x hx)

theorem State.registerWrite_keepsLock (hl : s.regs.locked = true) (h : exec (.registerWrite w) s = .next u) :
    u.regs.locked = true := by
  obtain ⟨hc, rfl⟩ := onUnit_next.1 (show execRegisterWrite w s = .next u from h)
  refine State.bar0_keepsLock hl true fun x hx hx0 => ?_
  have hn : ∀ y ∈ barParts w, y.at_ = 0x60020 → bit y.v 12 = false ∧ bit y.v 13 = false := by
    simpa [barCovers] using (Bool.and_eq_true_iff.1 hc).2
  exact hn x hx hx0

/-- Settles O54: under the lock every RWL write comes to `rwl`, which reports and changes nothing but `IRQ_EN`; `SET` is the
lock, the check of coordinates and the interleaving of the CXL tier; and no arm of the register map but the rescue's own takes
the lock back. -/
theorem setupLockHolds : Obligations.SetupLockHolds := by
  unfold Obligations.SetupLockHolds
  refine ⟨fun s hb hs => ⟨fun ho => ?_, fun hl => ?_, fun n v hl hv => State.rwlWrites_keepsRwl hb hs hl hv,
    fun n v hl hv hn => State.ringCtrl_irq hb hs hl hv hn⟩, fun s t w hl c hc h => ?_⟩
  · obtain ⟨on, hr, ht, hg, hm⟩ := State.setLock_open ho
    refine ⟨_, State.setupLockSet_exec hb hs, ?_, fun h => ?_, fun h => ?_, ht, hg, hm⟩
    · rw [hr]; split <;> rfl
    · rw [hr, if_pos h]; exact ⟨rfl, rfl, rfl⟩
    · rw [hr, h]; rfl
  · rw [State.setupLockSet_exec hb hs, State.setLock_of_locked hl]
  · simp only [List.mem_cons, List.not_mem_nil, or_false] at hc
    obtain rfl | hc := hc
    · exact State.registerWrite_keepsLock hl h
    · obtain ⟨q, h0, h4, hq⟩ : ∃ q : Nat → Nat → Bool, (∀ v, q 0x60020 v = false) ∧ (∀ v, q 0x60024 v = false) ∧
          exec c s = s.ownWrite q w := by
        rcases hc with rfl | rfl | rfl | rfl | rfl | rfl | rfl | rfl | rfl | rfl | rfl | rfl | rfl | rfl | rfl | rfl <;>
          exact ⟨_, fun _ => rfl, fun _ => rfl, rfl⟩
      exact State.ownWrite_keepsLock hl h0 h4 (hq ▸ h)

end Sys2Proof.Machine
end

section
/-! PROOF. The values of the narrow elements: the integers of MXINT8 and their clamp, the magnitudes of XL4, and float
encodings of one exponent width as integers in ascending order, of which XM40 and FP32 are two widths of fraction. -/

namespace Sys2Proof.Machine

/-! ### MXINT8 -/

/-- Every integer but the least of 8 bits is read back from its two's complement (R67). -/
theorem signed_unsigned_eight {i : Int} (h0 : -128 ≤ i) (h1 : i < 128) : signed 8 (unsigned 8 i) = i := by
  unfold signed unsigned
  dsimp only
  split <;> omega

theorem unsigned_eight_lt (i : Int) : unsigned 8 i < 256 := by
  unfold unsigned
  omega

/-- What a conversion writes is an integer of at most 127 (R67). -/
theorem encodeMxint_eq_unsigned (md : Mode) (v : Val) :
    ∃ i : Int, -127 ≤ i ∧ i ≤ 127 ∧ encodeMxint md v = unsigned 8 i := by
  match v with
  | .nan => exact ⟨0, by decide, by decide, rfl⟩
  | .inf s => exact ⟨if s then -127 else 127, by split <;> decide, by split <;> decide, rfl⟩
  | .fin s m e =>
    refine ⟨_, ?_, ?_, rfl⟩
    · split <;> omega
    · split <;> omega

/-- R67: "The module never writes 0x80", which reads as −128. -/
theorem encodeMxint_range (md : Mode) (v : Val) : encodeMxint md v < 256 ∧ encodeMxint md v ≠ 0x80 := by
  obtain ⟨i, h0, h1, h⟩ := encodeMxint_eq_unsigned md v
  rw [h]
  refine ⟨unsigned_eight_lt i, fun h80 => ?_⟩
  have hi := signed_unsigned_eight (show -128 ≤ i by omega) (by omega)
  rw [h80, show signed 8 0x80 = -128 by decide] at hi
  omega

/-- A block writes zeros under the scale 0xFF, and conversions otherwise (R66). -/
theorem encodeBlocked_mxint (md : Mode) (largest : Nat × Int) (sc : Nat) (v : Val) :
    encodeBlocked .mxint md largest sc v = 0 ∨ ∃ y, encodeBlocked .mxint md largest sc v = encodeMxint md y := by
  unfold encodeBlocked
  dsimp only
  split
  · exact .inl rfl
  · exact .inr ⟨_, rfl⟩

theorem encodeBlocked_mxint_range (md : Mode) (largest : Nat × Int) (sc : Nat) (v : Val) :
    encodeBlocked .mxint md largest sc v < 256 ∧ encodeBlocked .mxint md largest sc v ≠ 0x80 := by
  obtain h | ⟨y, h⟩ := encodeBlocked_mxint md largest sc v
  · rw [h]; decide
  · rw [h]; exact encodeMxint_range md y

/-- No mode rounds a magnitude below the integer under it. -/
theorem div_le_roundRatio (md : Mode) (num den : Nat) : num / den ≤ roundRatio md num den := by
  unfold roundRatio
  cases md with
  | nearest => dsimp only; split <;> omega
  | zero => exact Nat.le_refl _
  | stochastic r => dsimp only; split <;> omega

/-- An integer at or below a magnitude stays at or below its rounding. -/
theorem le_roundShift (md : Mode) {n m : Nat} {k : Int} (h : (n : ℚ) ≤ m * 2 ^ k) : n ≤ roundShift md m k := by
  unfold roundShift
  split
  · next hk =>
    obtain ⟨j, rfl⟩ := Int.eq_ofNat_of_zero_le hk
    rw [Int.toNat_natCast, Nat.shiftLeft_eq]
    exact_mod_cast h
  · next hk =>
    obtain ⟨j, hj⟩ := Int.eq_ofNat_of_zero_le (show 0 ≤ -k by omega)
    obtain rfl : k = -(j : Int) := by omega
    refine Nat.le_trans ?_ (div_le_roundRatio md m _)
    rw [neg_neg, Int.toNat_natCast, Nat.le_div_iff_mul_le (by positivity)]
    rw [zpow_neg, zpow_natCast, ← div_eq_mul_inv, le_div_iff₀ (by positivity)] at h
    exact_mod_cast h

/-- R67: a magnitude of 127/64 or more is written as ±127. -/
theorem signed_encodeMxint_of_le (md : Mode) (p : Bool) {m : Nat} {e : Int} (h : (127 : ℚ) / 64 ≤ m * 2 ^ e) :
    signed 8 (encodeMxint md (.fin p m e)) = if p then -127 else 127 := by
  have hr : 127 ≤ roundShift md m (e + 6) := le_roundShift md (by
    rw [zpow_add₀ (by norm_num)]
    norm_num
    linarith)
  have hc : min (roundShift md m (e + 6) : Int) 127 = 127 := by omega
  unfold encodeMxint
  dsimp only
  rw [hc]
  split <;> decide

/-- A block scale is a factor of a finite value (R66). -/
theorem rat_scaled_fin (s : Bool) (m : Nat) (e : Int) {sc : Nat} (h : sc < 255) :
    (scaled (.fin s m e) sc).rat = Val.rat (.fin s m e) * 2 ^ ((sc : Int) - 127) := by
  rw [scaled, if_neg (by omega)]
  simp only [Val.rat]
  rw [add_sub_assoc, zpow_add₀ (by norm_num)]
  ring

/-- An integer split into sign and magnitude. -/
theorem rat_fin_natAbs (i : Int) (e : Int) : Val.rat (.fin (i < 0) i.natAbs e) = i * 2 ^ e := by
  simp only [Val.rat, Nat.cast_natAbs, decide_eq_true_eq]
  split
  · next h => simp [abs_of_neg h]
  · next h => simp [abs_of_nonneg (not_lt.1 h)]

/-! ### XL4 -/

/-- R70: the magnitudes, before the block scale. -/
theorem xl4Mag_rat {k : Nat} (h : k < 7) :
    (xl4Mag k : ℚ) * 2 ^ (-26 : Int) = (if k % 2 = 1 then (0xB504F3 : ℚ) / 2 ^ 23 else 1) / 2 ^ ((k + 1) / 2) := by
  have hpow : (2 : ℚ) ^ (3 - (k + 1) / 2) = 2 ^ 3 / 2 ^ ((k + 1) / 2) := by
    rw [eq_div_iff (by positivity), ← pow_add, show 3 - (k + 1) / 2 + (k + 1) / 2 = 3 by omega]
  rw [xl4Mag, if_neg (by omega)]
  push_cast
  rw [hpow]
  split
  · rw [xl4T1]; ring
  · ring

/-- An XL4 encoding is its sign above its code (R69, R70). -/
theorem decodeElem_xl4 {k : Nat} (p : Bool) (h : k < 8) :
    decodeElem .xl4 (k + 8 * b2n p) = if k = 7 then .zero else .fin p (xl4Mag k) (-26) := by
  have hk : (k + 8 * b2n p) % 8 = k := by omega
  have hp : bit (k + 8 * b2n p) 3 = p := by
    rw [bit, Nat.shiftRight_eq_div_pow, show (k + 8 * b2n p) / 2 ^ 3 = b2n p by omega]
    cases p <;> rfl
  rw [decodeElem, hk, hp]

/-! ### Magnitudes of float encodings -/

/-- The magnitude of a float encoding without its sign, in units of the least subnormal magnitude (R63), for `p` fraction
bits: the exponent field stands in bits `p` and above. -/
def codeMag (p a : Nat) : Nat := if a / 2 ^ p = 0 then a % 2 ^ p else (2 ^ p + a % 2 ^ p) * 2 ^ (a / 2 ^ p - 1)

theorem codeMag_of_lt {p a : Nat} (h : a < 2 ^ p) : codeMag p a = a := by
  rw [codeMag, if_pos (Nat.div_eq_of_lt h), Nat.mod_eq_of_lt h]

theorem codeMag_normal {p r : Nat} (q : Nat) (h : r < 2 ^ p) : codeMag p (2 ^ p * (q + 1) + r) = (2 ^ p + r) * 2 ^ q := by
  have hd : (2 ^ p * (q + 1) + r) / 2 ^ p = q + 1 := by
    rw [Nat.mul_add_div (by positivity), Nat.div_eq_of_lt h, Nat.add_zero]
  rw [codeMag, hd, if_neg (by omega), Nat.mul_add_mod, Nat.mod_eq_of_lt h, Nat.add_sub_cancel]

/-- Magnitudes rise with their encodings: within an exponent, and where a carry leads to the next one. -/
theorem codeMag_strictMono (p : Nat) : StrictMono (codeMag p) := by
  refine strictMono_nat_of_lt_succ fun a => ?_
  have hp : 0 < 2 ^ p := by positivity
  obtain hlt | hge := Nat.lt_or_ge a (2 ^ p)
  · rw [codeMag_of_lt hlt]
    obtain hs | hs := Nat.lt_or_eq_of_le (show a + 1 ≤ 2 ^ p from hlt)
    · rw [codeMag_of_lt hs]; omega
    · have h := codeMag_normal 0 hp
      rw [show a + 1 = 2 ^ p * (0 + 1) + 0 by omega, h]; omega
  · obtain ⟨q, hq⟩ := Nat.exists_eq_add_of_le' (Nat.div_pos hge hp)
    have hr := Nat.mod_lt a hp
    have ha := Nat.div_add_mod a (2 ^ p)
    rw [hq] at ha
    generalize a % 2 ^ p = r at hr ha
    subst ha
    rw [codeMag_normal q hr]
    obtain hs | hs := Nat.lt_or_eq_of_le (show r + 1 ≤ 2 ^ p from hr)
    · rw [Nat.add_assoc, codeMag_normal q hs]
      gcongr
      omega
    · rw [Nat.add_assoc, hs, show 2 ^ p * (q + 1) + 2 ^ p = 2 ^ p * (q + 1 + 1) + 0 by ring, codeMag_normal (q + 1) hp, pow_succ,
        show (2 ^ p + 0) * (2 ^ q * 2) = (2 ^ p + 2 ^ p) * 2 ^ q by ring]
      gcongr

/-- More fraction bits of zeros leave the magnitude as it is, in smaller units. -/
theorem codeMag_mul_two_pow (p d a : Nat) : codeMag (p + d) (a * 2 ^ d) = codeMag p a * 2 ^ d := by
  have hd : 0 < 2 ^ d := by positivity
  unfold codeMag
  rw [pow_add, Nat.mul_div_mul_right _ _ hd, Nat.mul_mod_mul_right]
  split
  · rfl
  · ring

/-- Dropping the `d` low fraction bits of an encoding gives the greatest magnitude of the narrower format up to its own. -/
theorem codeMag_le_iff (p d a c : Nat) : codeMag p a * 2 ^ d ≤ codeMag (p + d) c ↔ a ≤ c / 2 ^ d := by
  rw [← codeMag_mul_two_pow, (codeMag_strictMono _).le_iff_le, Nat.le_div_iff_mul_le (by positivity)]

theorem abs_rat_fin (s : Bool) (m : Nat) (e : Int) : |Val.rat (.fin s m e)| = m * 2 ^ e := by
  have h : (0 : ℚ) ≤ m * 2 ^ e := by positivity
  cases s
  · simp [Val.rat]
  · simp [Val.rat]

/-! ### Decoded floats -/

section Decoded

variable {l : FloatLayout} {raw m : Nat} {s : Bool} {e : Int} (hi : l.ieee = true)
include hi

/-- Decoding under a layout with infinities (R64), over the exponent field and the fraction. -/
theorem decodeFloat_of_ieee (raw : Nat) : decodeFloat l raw =
    if bits raw l.p l.ebits = 2 ^ l.ebits - 1 then if raw % 2 ^ l.p = 0 then .inf (bit raw (l.ebits + l.p)) else .nan
    else if bits raw l.p l.ebits = 0 then .fin (bit raw (l.ebits + l.p)) (raw % 2 ^ l.p) (1 - (l.bias : Int) - l.p)
    else .fin (bit raw (l.ebits + l.p)) (2 ^ l.p + raw % 2 ^ l.p) ((bits raw l.p l.ebits : Int) - l.bias - l.p) := by
  unfold decodeFloat
  dsimp only
  by_cases h : bits raw l.p l.ebits = 2 ^ l.ebits - 1
  · simp [hi, h]
  · simp [hi, h]

/-- An infinity is a zero fraction under the all-ones exponent. -/
theorem decodeFloat_eq_inf_iff : decodeFloat l raw = .inf s ↔
    bits raw l.p l.ebits = 2 ^ l.ebits - 1 ∧ raw % 2 ^ l.p = 0 ∧ bit raw (l.ebits + l.p) = s := by
  rw [decodeFloat_of_ieee hi]
  split_ifs with htop hfr h0
  · simp [htop, hfr]
  · simp [htop, hfr]
  · simp [htop]
  · simp [htop]

/-- The finite values are those under the other exponents, with the sign of their encoding. -/
theorem exists_decodeFloat_eq_fin_iff : (∃ m e, decodeFloat l raw = .fin s m e) ↔
    bits raw l.p l.ebits ≠ 2 ^ l.ebits - 1 ∧ bit raw (l.ebits + l.p) = s := by
  rw [decodeFloat_of_ieee hi]
  split_ifs with htop hfr h0
  · simp [htop]
  · simp [htop]
  · simp [htop]
  · simp [htop]

/-- The magnitude of a finite value is that of its encoding below the sign. -/
theorem abs_rat_of_decodeFloat (h : decodeFloat l raw = .fin s m e) :
    |Val.rat (.fin s m e)| = codeMag l.p (raw % 2 ^ (l.ebits + l.p)) * 2 ^ (1 - (l.bias : Int) - l.p) := by
  have hq : raw % 2 ^ (l.ebits + l.p) / 2 ^ l.p = bits raw l.p l.ebits := by
    rw [Nat.add_comm, pow_add, Nat.mod_mul_right_div_self, bits, Nat.shiftRight_eq_div_pow]
  have hr : raw % 2 ^ (l.ebits + l.p) % 2 ^ l.p = raw % 2 ^ l.p :=
    Nat.mod_mod_of_dvd _ (pow_dvd_pow 2 (Nat.le_add_left _ _))
  rw [decodeFloat_of_ieee hi] at h
  rw [abs_rat_fin, codeMag, hq, hr]
  split_ifs at h with htop hfr h0
  · obtain ⟨-, rfl, rfl⟩ := Val.fin.inj h
    rw [if_pos h0]
  · obtain ⟨-, rfl, rfl⟩ := Val.fin.inj h
    obtain ⟨k, hk⟩ := Nat.exists_eq_succ_of_ne_zero h0
    rw [if_neg h0, hk, show ((k.succ : Nat) : Int) - l.bias - l.p = k + (1 - (l.bias : Int) - l.p) by push_cast; ring,
      zpow_add₀ (by norm_num)]
    push_cast
    rw [zpow_natCast]
    ring

end Decoded

/-! ### Layouts that differ in their fraction alone -/

/-- The layout with `d` more fraction bits. -/
def FloatLayout.widened (l : FloatLayout) (d : Nat) : FloatLayout := { l with p := l.p + d }

/-- XM40 has eight more fraction bits than FP32, with the same exponent. -/
theorem xm40L_eq_widened : xm40L = fp32L.widened 8 := rfl

/-- Bits are read `d` places higher before the `d` low ones are dropped. -/
theorem bits_div_two_pow (c p d n : Nat) : bits (c / 2 ^ d) p n = bits c (p + d) n := by
  simp only [bits, Nat.shiftRight_eq_div_pow, Nat.div_div_eq_div_mul, ← pow_add, Nat.add_comm d p]

theorem bit_div_two_pow (c p d : Nat) : bit (c / 2 ^ d) p = bit c (p + d) := by
  simp only [bit, Nat.shiftRight_eq_div_pow, Nat.div_div_eq_div_mul, ← pow_add, Nat.add_comm d p]

section Widened

variable {l : FloatLayout} {d c m : Nat} {s : Bool} {e : Int} (hi : l.ieee = true)
include hi

/-- The infinities keep their high bits. -/
theorem decodeFloat_div_of_widened_inf (h : decodeFloat (l.widened d) c = .inf s) : decodeFloat l (c / 2 ^ d) = .inf s := by
  obtain ⟨hef, hfr, hs⟩ := (decodeFloat_eq_inf_iff (l := l.widened d) hi).1 h
  simp only [FloatLayout.widened] at hef hfr hs
  refine (decodeFloat_eq_inf_iff hi).2 ⟨?_, ?_, ?_⟩
  · rw [bits_div_two_pow, hef]
  · rw [Nat.add_comm, pow_add] at hfr
    rw [← Nat.mod_mul_right_div_self, hfr, Nat.zero_div]
  · rw [bit_div_two_pow, Nat.add_assoc, hs]

/-- The high bits of a finite value's encoding encode a finite value of its sign. -/
theorem exists_decodeFloat_div_of_widened_fin (h : decodeFloat (l.widened d) c = .fin s m e) :
    ∃ n f, decodeFloat l (c / 2 ^ d) = .fin s n f := by
  obtain ⟨hef, hs⟩ := (exists_decodeFloat_eq_fin_iff (l := l.widened d) hi).1 ⟨m, e, h⟩
  simp only [FloatLayout.widened] at hef hs
  refine (exists_decodeFloat_eq_fin_iff hi).2 ⟨?_, ?_⟩
  · rwa [bits_div_two_pow]
  · rw [bit_div_two_pow, Nat.add_assoc, hs]

/-- A value of the narrow layout lies at or below one of the wide layout exactly where its encoding lies at or below the other's
high bits. -/
theorem abs_rat_le_widened_iff {raw n : Nat} {r : Bool} {f : Int} (hn : decodeFloat l raw = .fin r n f)
    (hw : decodeFloat (l.widened d) c = .fin s m e) :
    |Val.rat (.fin r n f)| ≤ |Val.rat (.fin s m e)| ↔
      raw % 2 ^ (l.ebits + l.p) ≤ c / 2 ^ d % 2 ^ (l.ebits + l.p) := by
  have hc : c / 2 ^ d % 2 ^ (l.ebits + l.p) = c % 2 ^ (l.ebits + (l.p + d)) / 2 ^ d := by
    rw [← Nat.add_assoc, Nat.add_comm _ d, pow_add 2 d, Nat.mod_mul_right_div_self]
  have hunit : (2 : ℚ) ^ (1 - (l.bias : Int) - l.p) = 2 ^ d * 2 ^ (1 - (l.bias : Int) - (l.p + d : Nat)) := by
    rw [← zpow_natCast, ← zpow_add₀ (by norm_num)]
    congr 1
    push_cast
    ring
  rw [abs_rat_of_decodeFloat hi hn, abs_rat_of_decodeFloat (l := l.widened d) hi hw, hc, ← codeMag_le_iff]
  simp only [FloatLayout.widened]
  rw [hunit, ← mul_assoc, mul_le_mul_iff_left₀ (by positivity)]
  exact_mod_cast Iff.rfl

/-- Dropping the low fraction bits truncates toward zero: what remains is at most the value, and no value of the narrow layout
up to that is greater. -/
theorem decodeFloat_div_truncates (h : decodeFloat (l.widened d) c = .fin s m e) :
    ∃ n f, decodeFloat l (c / 2 ^ d) = .fin s n f ∧ |Val.rat (.fin s n f)| ≤ |Val.rat (.fin s m e)| ∧
      ∀ raw r o g, decodeFloat l raw = .fin r o g → |Val.rat (.fin r o g)| ≤ |Val.rat (.fin s m e)| →
        |Val.rat (.fin r o g)| ≤ |Val.rat (.fin s n f)| := by
  obtain ⟨n, f, hn⟩ := exists_decodeFloat_div_of_widened_fin hi h
  refine ⟨n, f, hn, (abs_rat_le_widened_iff hi hn h).2 (Nat.le_refl _), fun raw r o g hr hle => ?_⟩
  have hcode := (abs_rat_le_widened_iff hi hr h).1 hle
  rw [abs_rat_of_decodeFloat hi hr, abs_rat_of_decodeFloat hi hn]
  gcongr
  exact (codeMag_strictMono _).monotone hcode

end Widened

/-! ### XM40 in storage -/

@[simp] theorem length_toLe (n x : Nat) : (toLe n x).length = n := by
  induction n generalizing x with
  | zero => rfl
  | succ n ih => simp [toLe, ih]

theorem length_flatMap_toLe (n : Nat) (f : Nat → Nat) (rs : List Nat) :
    (rs.flatMap fun r => toLe n (f r)).length = rs.length * n := by
  simp [List.length_flatMap]

/-- R61: a storage block is the high words of its 64 elements, then their low bytes. -/
theorem packRow_xm40_block {rs : List Nat} (h : rs.length = 64) :
    packRow xm40 rs = (rs.flatMap fun r => toLe 4 (r / 256)) ++ rs.map fun r => BitVec.ofNat 8 r := by
  have htake : rs.take 64 = rs := List.take_of_length_le (by omega)
  show packXm (ceilDiv rs.length 64) rs = _
  rw [h, show ceilDiv 64 64 = 1 by decide, packXm, htake, h, packXm]
  simp

/-- Settles O60: what MXINT8 writes lies within ±127, and rounding keeps a magnitude at or above the integer under it; XM40 is
FP32 with eight more fraction bits, and float magnitudes rise with their encodings, so that dropping those bits truncates; XL4
codes are read off their table. -/
theorem narrowElements : Obligations.NarrowElements := by
  unfold Obligations.NarrowElements
  refine ⟨fun raw sc _ hsc => ?_, fun md v largest sc => ?_, fun md p m e h => signed_encodeMxint_of_le md p h,
    fun c _ _ => ⟨fun p h => ?_, fun p m e h => ?_⟩, fun rs h => ?_, fun md sat => ⟨rfl, by decide⟩, fun k p hk => ?_,
    fun p => decodeElem_xl4 p (by decide)⟩
  · rw [decodeElem, rat_scaled_fin _ _ _ hsc, rat_fin_natAbs]
  · obtain ⟨hlt, hne⟩ := encodeMxint_range md v
    exact ⟨hlt, hne, encodeBlocked_mxint_range md largest sc v⟩
  · exact decodeFloat_div_of_widened_inf (l := fp32L) (d := 8) rfl h
  · exact decodeFloat_div_truncates (l := fp32L) (d := 8) rfl h
  · rw [packRow_xm40_block h, List.take_left' (by rw [length_flatMap_toLe, h])]
  · rw [decodeElem_xl4 p (by omega), if_neg (by omega)]
    simp only [Val.rat]
    rw [mul_assoc, xl4Mag_rat hk, mul_div_assoc]

end Sys2Proof.Machine
end

section
/-! PROOF. How a recovery begins (R311, R345, R445, R446): what stage 1 changes and what it leaves, the resets of the host
function, `GO`, and the choice at the end of stage 1 between a dump and `SKIPPED`. -/

namespace Sys2Proof.Machine

variable {s : State}

/-! ### What stage 1 leaves -/

/-- The submission and completion rings have changed, and nothing else. -/
def State.OnlyRings (s t : State) : Prop := ∃ sq cq, t = { s with host := { s.host with sq := sq, cq := cq } }

theorem State.OnlyRings.refl (s : State) : s.OnlyRings s := ⟨s.host.sq, s.host.cq, rfl⟩

theorem State.OnlyRings.updSq {t : State} (h : s.OnlyRings t) (n : Nat) (f : Ring → Ring) : s.OnlyRings (t.updSq n f) := by
  obtain ⟨sq, cq, rfl⟩ := h
  exact ⟨_, cq, rfl⟩

theorem State.OnlyRings.updCq {t : State} (h : s.OnlyRings t) (n : Nat) (f : Ring → Ring) : s.OnlyRings (t.updCq n f) := by
  obtain ⟨sq, cq, rfl⟩ := h
  exact ⟨sq, _, rfl⟩

/-- Reads given up leave no fetch behind, and touch the submission and completion rings alone. -/
theorem State.dropFetches_frame : ∃ t, s.OnlyRings t ∧ s.dropFetches = { t with host := { t.host with fetches := [] } } :=
  ⟨_, List.foldlRecOn _ _ (State.OnlyRings.refl s) fun _ ht _ _ => (ht.updCq _ _).updSq _ _, rfl⟩

/-- The `SKIP`s given up leave the descriptors, and touch the submission rings alone. -/
theorem State.dropSkips_frame : ∃ t, s.OnlyRings t ∧ s.dropSkips = { t with
    host := { t.host with descs := t.host.descs.filter fun d => d.opcode != 1 } } :=
  ⟨_, List.foldlRecOn _ _ (State.OnlyRings.refl s) fun _ ht _ _ => ht.updSq _ _, rfl⟩

/-- What stage 1 changes: tiles, planes, fabric, rings and descriptors, and the copies under way (R446, R450). -/
theorem State.freeze_frame : ∃ ts pl fa sq cq, s.freeze = { s with
    tiles := ts, planes := pl, fabric := fa, mem := { s.mem with copies := [], images := [] }
    host := { s.host with
      sq := sq, cq := cq, fetches := [], descs := s.host.descs.filter fun d => d.opcode != 1
      dmaStopped := true, wake := false } } := by
  obtain ⟨_, ⟨_, _, rfl⟩, hf⟩ := State.dropFetches_frame (s := s)
  obtain ⟨_, ⟨sq, cq, rfl⟩, hs⟩ := State.dropSkips_frame (s := s.dropFetches)
  rw [hf] at hs
  exact ⟨_, _, _, sq, cq, by rw [State.freeze, hf, hs]⟩

/-- `DEV_STATE` set reaches the alert and `ATTN_N` beside it (R498, R501). -/
theorem State.setDev_frame (d : DevState) : ∃ hw mg, s.setDev d = { s with devState := d, hotSwap := hw, mgmt := mg } := by
  unfold State.setDev
  split
  · next h => exact ⟨s.hotSwap, s.mgmt, by rw [← h]⟩
  · exact ⟨_, _, rfl⟩

/-- A recovery that begins is stage 1 in `RECOVERING` (R445, R446). -/
theorem State.startRecovery_frame (go : Bool) : ∃ hw mg, s.startRecovery go = { s.freeze with
    seq := .recovery 1 0 false go, devState := .recovering, selfTest := s.selfTest.anew
    monitor := { s.monitor with unlocked := false }, hotSwap := hw, mgmt := mg } :=
  State.setDev_frame _

theorem State.startRecovery_seq (go : Bool) : (s.startRecovery go).seq = .recovery 1 0 false go := State.setDev_seq _ _

theorem State.trigger_of_idle (h : s.seq = .idle) (go : Bool) : s.trigger go = s.startRecovery go := by
  rw [State.trigger, h]

/-! ### The resets of the host function -/

theorem State.r311Recovers_of_idle (h : s.seq = .idle) (hf : s.selfTest.fault = none) : s.r311Recovers = true := by
  rw [State.r311Recovers, h, hf]; rfl

/-- With the rings cleared first, stage 1 finds no read and no descriptor to give up. -/
theorem State.freeze_clearR311_host :
    s.clearR311.freeze.host = { s.clearR311.host with dmaStopped := true, wake := false } := rfl

/-- The module after a reset of the host function in service (R311, R445, R446). -/
def State.RecoversFromReset (s t : State) : Prop :=
  t.seq = .recovery 1 0 false false ∧ t.devState = .recovering ∧ t.host.sq = [] ∧ t.host.cq = [] ∧
    t.host.hv = [] ∧ t.host.descs = [] ∧ t.host.fetches = [] ∧ t.host.dbBase = 0 ∧ t.host.evtEnable = false ∧
    t.host.linkUp = true ∧ t.regs.locked = false ∧ t.host.bar0 = false ∧ t.host.retry = true ∧ t.host.dmaStopped = true ∧
    t.mem = { s.mem with copies := [], images := [] } ∧ t.tracker = s.tracker ∧ t.graphs = s.graphs ∧ t.ledger = s.ledger ∧
    t.fuses = s.fuses ∧ t.pending = s.pending

/-- The module as its link is up again, trained in full (R307). -/
def State.linkReturned (s : State) : State :=
  State.hostTrained 16 640 { s with host := { s.host with linkUp := true, downInStart := false } }

section InService

variable (hw : s.hotSwap.switchOn = true) (hi : s.seq = .idle) (hf : s.selfTest.fault = none)
include hw hi hf

/-- In service a reset clears its registers, starts a recovery and closes the host function (R311, R345). -/
theorem State.r311_of_idle : s.r311 = { s.clearR311.startRecovery false with
    host := { (s.clearR311.startRecovery false).host with retry := true, bar0 := false } } := by
  have hstart : s.clearR311.trigger false = s.clearR311.startRecovery false :=
    State.trigger_of_idle (s := s.clearR311) hi false
  have hseq : ¬((s.clearR311.startRecovery false).seq == .idle) = true := by
    rw [State.startRecovery_seq]
    decide
  rw [State.r311, if_neg (by simp [hw]), if_pos (State.r311Recovers_of_idle hi hf), hstart]
  exact if_neg hseq

theorem State.r311_recovers (hl : s.host.linkUp = true) : s.RecoversFromReset s.r311 := by
  rw [State.r311_of_idle hw hi hf]
  obtain ⟨_, _, h⟩ := State.startRecovery_frame (s := s.clearR311) false
  rw [h, State.freeze_clearR311_host]
  exact ⟨rfl, rfl, rfl, rfl, rfl, rfl, rfl, rfl, rfl, hl, rfl, rfl, rfl, rfl, rfl, rfl, rfl, rfl, rfl, rfl⟩

/-- The four resets that come over a link that is up come to `r311` (R311, R494). -/
theorem State.reset_recovers {c : Instr} (hc : c = .functionLevelReset ∨ c = .hotReset ∨ c = .d3hotToD0 ∨ c = .perstNAssert)
    (hl : s.host.linkUp = true) : ∃ t, exec c s = .next t ∧ s.RecoversFromReset t := by
  have hlinked : (if s.host.linkUp then s.r311 else s) = s.r311 := if_pos hl
  refine ⟨s.r311, ?_, State.r311_recovers hw hi hf hl⟩
  rcases hc with rfl | rfl | rfl | rfl
  · exact congrArg _ hlinked
  · exact congrArg _ hlinked
  · exact congrArg _ hlinked
  · rfl

/-- A link that was lost in service brings its reset when it returns (R345). -/
theorem State.hostLinkReturn_recovers (hl : s.host.linkUp = false) (hd : s.host.downInStart = false) :
    ∃ t, exec .hostLinkReturn s = .next t ∧ s.RecoversFromReset t := by
  have hrec : s.linkReturned.r311Recovers = true := State.r311Recovers_of_idle (s := s.linkReturned) hi hf
  refine ⟨s.linkReturned.r311, ?_, State.r311_recovers (s := s.linkReturned) hw hi hf rfl⟩
  show execHostLinkReturn s = _
  rw [execHostLinkReturn, onUnit, if_pos (by decide), if_neg (by simp [hl])]
  have hreset : (s.linkReturned.r311Recovers && !s.host.downInStart) = true := by rw [hrec, hd]; rfl
  exact congrArg _ (if_pos hreset)

/-- The loss of the link stops DMA and is kept as surprise down (R345). -/
theorem State.hostLinkDown_exec (hl : s.host.linkUp = true) : exec .hostLinkDown s = .next { s with host := { s.host with
    linkUp := false, dmaStopped := true, pcie := { s.host.pcie with surpriseDown := true } } } := by
  show execHostLinkDown s = _
  rw [execHostLinkDown, State.hostDown, if_neg (by simp [hw, hl])]
  exact congrArg _ (if_pos (State.r311Recovers_of_idle hi hf))

end InService

/-! ### `GO` -/

theorem State.recoveryCtrlGo_exec {v : Nat} (hb : s.bar0Answers = true) (hs : s.seq ≠ .rescue) (hv : v < 2 ^ 32)
    (hgo : bit v 0 = true) : exec (.recoveryCtrlGo ⟨0x60000, 4, v⟩) s = .next (s.writeRecovery v) := by
  show execRecoveryCtrlGo ⟨0x60000, 4, v⟩ s = _
  rw [execRecoveryCtrlGo, State.ownWrite_word hb rfl hv (by simp [hgo]), State.writePart_high hs true (by simp)]
  rfl

/-- The dump's registers as a write of `RECOVERY_CTRL` with `GO` leaves them (R453). -/
def Dump.requested (d : Dump) (v : Nat) : Dump :=
  { d with
    enable := bit v 1, startUnit := bits v 8 7, sampleUnits := bits v 16 7
    done := false, truncated := false, skipped := false, tiles := 0 }

/-- `GO` starts a recovery from every idle state but `FAILED` (R387, R445). -/
theorem State.writeRecovery_go {v : Nat} (hi : s.seq = .idle) (hd : s.devState ≠ .failed) (hgo : bit v 0 = true) :
    s.writeRecovery v = State.startRecovery true { s with dump := s.dump.requested v } := by
  have hstarts : State.goStarts { s with dump := s.dump.requested v } = true := by simp [State.goStarts, hi, hd]
  rw [← State.trigger_of_idle (s := { s with dump := s.dump.requested v }) hi, State.writeRecovery, if_neg (by simp [hgo])]
  exact if_pos hstarts

/-! ### The end of stage 1 -/

/-- A recovery that has taken no dump yet begins one exactly when `GO` asked for it, enabled and sized (R445, R451). -/
theorem State.enterDump_first (n : Nat) (go : Bool) : s.enterDump n false go =
    if go = true ∧ s.dump.enable = true ∧ s.dump.size ≠ 0 then { s.beginDump with seq := .recovery 2 n true go }
    else { s with seq := .recovery 2 n true go, dump := { s.dump with skipped := true } } := by
  simp [State.enterDump, and_assoc]

theorem State.recoveryStageComplete_first {n : Nat} {go : Bool} (hz : s.seq = .recovery 1 n false go) (r : StartReport) :
    exec (.recoveryStageComplete r) s = .next (s.enterDump n false go) := by
  show execRecoveryStageComplete r s = _
  rw [execRecoveryStageComplete, State.endStage, hz]
  rfl

/-- Settles O21: the resets of the host function come to `r311`, which in service is a cleared host interface and stage 1; the
lost link waits for its return; `GO` is stage 1 with the registers kept; and stage 1 ends in `enterDump`. -/
theorem hostResetsStartRecovery : Obligations.HostResetsStartRecovery := by
  unfold Obligations.HostResetsStartRecovery
  refine fun s hw hi hf => ⟨fun c hc => ?_, State.hostLinkDown_exec hw hi hf, fun v hb hd hv hgo => ?_,
    fun z r n go hz => ⟨_, State.recoveryStageComplete_first hz r, ?_⟩⟩
  · obtain ⟨hc, hl⟩ | ⟨rfl, hl, hd⟩ := hc
    · exact State.reset_recovers hw hi hf hc hl
    · exact State.hostLinkReturn_recovers hw hi hf hl hd
  · refine ⟨_, State.recoveryCtrlGo_exec hb (by simp [hi]) hv hgo, ?_⟩
    rw [State.writeRecovery_go hi hd hgo]
    obtain ⟨_, _, h⟩ := State.startRecovery_frame (s := { s with dump := s.dump.requested v }) true
    obtain ⟨_, _, _, _, _, hfr⟩ := State.freeze_frame (s := { s with dump := s.dump.requested v })
    rw [h, hfr]
    exact ⟨rfl, rfl, rfl, rfl, rfl, rfl, rfl, rfl, rfl, rfl, rfl, rfl, rfl⟩
  · rw [State.enterDump_first]
    split
    · next hdump => exact ⟨rfl, fun _ => ⟨rfl, rfl⟩, fun h => absurd hdump h⟩
    · next hskip => exact ⟨rfl, fun h => absurd h hskip, fun _ => rfl⟩

end Sys2Proof.Machine
end

section
/-! PROOF. The fabric's registers: coordinates in use, the laws of a port's change of state, ports of the dimensions that
`FZ_DIMS` has, and a port that follows `ENABLE` (R267, R272, R488, R489). -/

namespace Sys2Proof.Machine

variable {s t : State} {p v : Nat}

/-! ### The path of a write to its register -/

/-- A write of RWL fields before the lock. -/
theorem State.rwl_open {x : Part} (h : s.regs.locked = false) (old new : Nat) (act : State → State) :
    s.rwl x old new act = act s := by
  simp [State.rwl, h]

section Word

variable (hb : s.bar0Answers = true) (hs : s.seq ≠ .rescue) (hv : v < 2 ^ 32)
include hb hs hv

theorem State.fzDimsWrite_exec : exec (.fzDimsWrite ⟨0x50000, 4, v⟩) s = .next (s.writeDims ⟨0x50000, 0x50000, v⟩) := by
  show execFzDimsWrite _ s = _
  rw [execFzDimsWrite, State.ownWrite_word hb rfl hv rfl, State.writePart_high hs true (by simp)]
  rfl

theorem State.fzSelfWrite_exec : exec (.fzSelfWrite ⟨0x50004, 4, v⟩) s = .next (s.writeSelf ⟨0x50004, 0x50004, v⟩) := by
  show execFzSelfWrite _ s = _
  rw [execFzSelfWrite, State.ownWrite_word hb rfl hv rfl, State.writePart_high hs true (by simp)]
  rfl

theorem State.fzPortCtrlWrite_exec (hp : p < 6) :
    exec (.fzPortCtrlWrite ⟨0x50100 + 64 * p, 4, v⟩) s = .next (s.writePortCtrl p v) := by
  show execFzPortCtrlWrite _ s = _
  rw [execFzPortCtrlWrite, State.ownWrite_word hb (by omega) hv (by simp; omega), State.writePart_high hs true (by simp; omega)]
  unfold State.highPart
  rw [if_neg (by simp; omega), if_neg (by simp; omega), if_neg (by simp; omega), if_neg (by simp; omega), if_pos (by simp; omega),
    show (0x50100 + 64 * p - 0x50100) / 64 = p by omega, show (0x50100 + 64 * p - 0x50100) % 64 = 0 by omega]
  exact congrArg _ (if_pos rfl)

end Word

/-! ### Coordinates -/

/-- The coordinates in use are those of `FZ_SELF`, exactly while it is valid and lies within `FZ_DIMS` (R267, R489). -/
def State.Follows (s : State) (dims self : Nat) : Prop :=
  s.placed = (bit self 14 && idIn dims (self % 2 ^ 14)) ∧
    (s.placed = true → s.fabric.id = self % 2 ^ 14) ∧ (s.placed = false → s.fabric.id = 0)

/-- `FZ_SELF` has 15 bits (R488). -/
theorem bit_mod_self (v : Nat) : bit (v % 2 ^ 15) 14 = bit v 14 := by
  simp only [bit, Nat.shiftRight_eq_div_pow, show v % 2 ^ 15 / 2 ^ 14 % 2 = v / 2 ^ 14 % 2 by omega]

theorem id_mod_self (v : Nat) : v % 2 ^ 15 % 2 ^ 14 = v % 2 ^ 14 := by omega

theorem State.Follows.of_mod {d : Nat} (h : s.Follows d (v % 2 ^ 15)) : s.Follows d v := by
  unfold State.Follows at h ⊢
  rwa [bit_mod_self, id_mod_self] at h

theorem State.refreshId_follows (h : s.fabric.sideband = none) : s.refreshId.Follows s.fabric.dims s.fabric.self := by
  unfold State.refreshId
  rw [h]
  dsimp only
  split
  · next hself => exact ⟨hself.symm, fun _ => rfl, fun hn => absurd hn (by simp [State.placed, State.useId])⟩
  · next hself =>
    exact ⟨(Bool.eq_false_iff.2 hself).symm, fun hp => absurd hp (by simp [State.placed, State.loseId]), fun _ => rfl⟩

/-- `FZ_SELF` outside `FZ_DIMS` is not in use. -/
theorem State.Follows.of_out {d w : Nat} (h : s.Follows d w) (hout : (bit w 14 && !idIn d (w % 2 ^ 14)) = true) :
    s.placed = false ∧ s.fabric.id = 0 := by
  obtain ⟨hplaced, -, hid⟩ := h
  have hin : idIn d (w % 2 ^ 14) = false := by simpa using (Bool.and_eq_true_iff.1 hout).2
  have hp : s.placed = false := by rw [hplaced, hin, Bool.and_false]
  exact ⟨hp, hid hp⟩

/-- Coordinates from the sideband are the ones in use (R267). -/
theorem State.refreshId_id_of_sideband {m : Nat} (h : s.fabric.sideband = some m) : s.refreshId.fabric.id = m := by
  unfold State.refreshId
  rw [h]
  rfl

/-- What taking coordinates into use can change: the ID, where it comes from, and the default table (R267, R285). -/
theorem State.refreshId_fields : ∃ m src r,
    s.refreshId = { s with fabric := { s.fabric with id := m, source := src, active := r } } := by
  unfold State.refreshId
  split
  · exact ⟨_, _, _, rfl⟩
  · split
    · exact ⟨_, _, _, rfl⟩
    · exact ⟨0, 0, s.fabric.active, rfl⟩

/-- A module that becomes its own master changes its time lock, and reports it (R393). -/
theorem State.lockSelf_frame : ∃ k d o l h, s.lockSelf = { s with
    fabric := { s.fabric with lock := k, depth := d, lastOffset := o }, ledger := l, host := h } := by
  unfold State.lockSelf
  split
  · obtain ⟨_, _, _, -, h⟩ := State.raise_frame
      (s := { s with fabric := { s.fabric with lock := .locked, depth := 0, lastOffset := 0 } }) 0x150C 0 s.fabric.id 0
    exact ⟨_, _, _, _, _, h⟩
  · exact ⟨s.fabric.lock, s.fabric.depth, s.fabric.lastOffset, s.ledger, s.host, rfl⟩

/-! ### Ports -/

/-- Ports have changed, with the reports and the stagings that this brings, and nothing else. -/
def State.OnlyPorts (s t : State) : Prop := ∃ ps l h pw,
  t = { s with fabric := { s.fabric with ports := ps }, ledger := l, host := h, power := pw }

theorem State.OnlyPorts.refl (s : State) : s.OnlyPorts s := ⟨s.fabric.ports, s.ledger, s.host, s.power, rfl⟩

theorem State.OnlyPorts.trans {u : State} (h : s.OnlyPorts t) (h' : t.OnlyPorts u) : s.OnlyPorts u := by
  obtain ⟨_, _, _, _, rfl⟩ := h
  obtain ⟨_, _, _, _, rfl⟩ := h'
  exact ⟨_, _, _, _, rfl⟩

theorem State.OnlyPorts.dims (h : s.OnlyPorts t) : t.fabric.dims = s.fabric.dims := by
  obtain ⟨_, _, _, _, rfl⟩ := h
  rfl

theorem State.OnlyPorts.frame (h : s.OnlyPorts t) : t = { s with
    fabric := { s.fabric with ports := t.fabric.ports }, ledger := t.ledger, host := t.host, power := t.power } := by
  obtain ⟨_, _, _, _, rfl⟩ := h
  rfl

theorem State.updPort_onlyPorts (f : FzPort → FzPort) : s.OnlyPorts (s.updPort p f) :=
  ⟨_, s.ledger, s.host, s.power, rfl⟩

@[simp] theorem State.raise_port (c x y z q : Nat) : (s.raise c x y z).port q = s.port q := by simp [State.port]

theorem State.portTo_port (st : PortState) (q : Nat) :
    (s.portTo p st).port q = if q = p then { s.port p with state := st } else s.port q := by
  unfold State.portTo
  split
  · next h =>
    split
    · next hq => rw [hq, ← h]
    · rfl
  · rw [State.raise_port, State.updPort_port]

theorem State.portTo_onlyPorts (st : PortState) : s.OnlyPorts (s.portTo p st) := by
  unfold State.portTo
  split
  · exact .refl s
  · obtain ⟨_, _, _, -, h⟩ := State.raise_frame (s := s.updPort p fun x => { x with state := st }) 0x1501 0 p st.code
    exact (State.updPort_onlyPorts _).trans ⟨_, _, _, _, h⟩

/-- A port taken to `DISABLED` (R279, R488). -/
theorem State.disablePort_port (q : Nat) :
    (s.disablePort p).port q = if q = p then { (s.port p).dropped with state := .disabled } else s.port q := by
  rw [State.disablePort, State.portTo_port, State.updPort_port, State.updPort_port, if_pos rfl]
  split <;> rfl

theorem State.disablePort_onlyPorts : s.OnlyPorts (s.disablePort p) :=
  (State.updPort_onlyPorts _).trans (State.portTo_onlyPorts _)

/-! ### Stagings -/

theorem mem_insertStaging (g : Staging) (q : List Staging) : g ∈ insertStaging g q := by
  induction q with
  | nil => exact List.mem_singleton_self g
  | cons x q ih =>
    unfold insertStaging
    split
    · exact List.mem_cons_self
    · exact List.mem_cons_of_mem _ ih

/-- A notice reaches regulator phases alone (R407). -/
theorem State.noticeHood_frame (n : Nat) : ∃ ph, s.noticeHood n = { s with power := { s.power with phases := ph } } := by
  unfold State.noticeHood
  split
  · refine List.foldlRecOn (motive := fun t : State => ∃ ph, t = { s with power := { s.power with phases := ph } }) _ _
      ⟨s.power.phases, rfl⟩ fun t ht i _ => ?_
    obtain ⟨_, rfl⟩ := ht
    exact ⟨_, rfl⟩
  · exact ⟨s.power.phases, rfl⟩

theorem State.askDomain_frame (d : Nat) (on : Bool) : ∃ pw, s.askDomain d on = { s with power := pw } := by
  unfold State.askDomain
  split
  · exact ⟨s.power, rfl⟩
  · obtain ⟨_, h⟩ := State.noticeHood_frame (s := s) (hoodOf d)
    unfold State.queueStaging
    dsimp only
    rw [h]
    exact ⟨_, rfl⟩

/-- A staging that is queued waits in its neighbourhood (R407). -/
theorem State.queueStaging_hasStaging (d : Nat) (on : Bool) : (s.queueStaging d on).hasStaging d on = true := by
  unfold State.hasStaging State.queueStaging State.setHood State.hood
  dsimp only
  rw [Tab.get_put_same]
  split
  · simp
  · exact List.any_eq_true.2 ⟨_, List.mem_cons_of_mem _ (mem_insertStaging _ _), by simp⟩

/-- A domain asked on has its turn-on queued, unless it is lost (R404). -/
theorem State.askDomain_on_hasStaging {d : Nat} (h : d ∉ s.power.lost) : (s.askDomain d true).hasStaging d true = true := by
  unfold State.askDomain
  split
  · next hc => simpa [h] using hc
  · exact State.queueStaging_hasStaging d true

/-! ### A port that is enabled -/

/-- A port whose function is in use, once it is enabled, leaves `DISABLED` (R272, R279, R404, R488). -/
def State.trains (s : State) (p : Nat) : Bool :=
  decide ((s.port p).state = .disabled ∧ (s.port p).part ≠ 3 ∧ 1 < portDim s.fabric.dims p ∧ 679 + p ∉ s.power.lost)

/-- A port that trains does so at once where its domain is on, and asks for the turn-on elsewhere (R405). -/
theorem State.enablePort_of_enable (h : (s.port p).enable = true) : s.enablePort p =
    if s.trains p = true then
      if Tab.get false s.power.domOff (679 + p) = true then s.askDomain (679 + p) true else s.portTo p .detect
    else s := by
  have hcond : (!(s.portWanted p && (s.port p).state == .disabled) || s.power.lost.contains (679 + p)) = !s.trains p := by
    rw [Bool.eq_iff_iff]
    simp only [State.portWanted, State.trains, h, Bool.or_eq_true, Bool.not_eq_true', Bool.true_and, Bool.and_eq_false_iff,
      bne_eq_false_iff_eq, decide_eq_false_iff_not, beq_eq_false_iff_ne, List.contains_iff_mem, gt_iff_lt]
    tauto
  unfold State.enablePort
  rw [hcond]
  cases s.trains p <;> rfl

/-- A port that is asked to train stays as it is, asks for its domain, or leaves `DISABLED`. -/
theorem State.enablePort_cases : s.enablePort p = s ∨ s.enablePort p = s.askDomain (679 + p) true ∨
    s.enablePort p = s.portTo p .detect := by
  unfold State.enablePort
  split
  · exact .inl rfl
  · split
    · exact .inr (.inl rfl)
    · exact .inr (.inr rfl)

theorem State.askDomain_onlyPorts (d : Nat) (on : Bool) : s.OnlyPorts (s.askDomain d on) := by
  obtain ⟨_, h⟩ := State.askDomain_frame (s := s) d on
  exact ⟨s.fabric.ports, s.ledger, s.host, _, h⟩

theorem State.askDomain_port (d : Nat) (on : Bool) (q : Nat) : (s.askDomain d on).port q = s.port q := by
  obtain ⟨_, h⟩ := State.askDomain_frame (s := s) d on
  rw [h]; rfl

theorem State.enablePort_onlyPorts : s.OnlyPorts (s.enablePort p) := by
  obtain h | h | h := State.enablePort_cases (s := s) (p := p)
  · rw [h]; exact .refl s
  · rw [h]; exact State.askDomain_onlyPorts _ _
  · rw [h]; exact State.portTo_onlyPorts _

theorem State.enablePort_port_other {q : Nat} (hq : q ≠ p) : (s.enablePort p).port q = s.port q := by
  obtain h | h | h := State.enablePort_cases (s := s) (p := p)
  · rw [h]
  · rw [h, State.askDomain_port]
  · rw [h, State.portTo_port, if_neg hq]

/-! ### Ports of dimensions -/

/-- What `FZ_DIMS` does to one port (R488). -/
def State.dimPort (s : State) (p : Nat) : State := if portDim s.fabric.dims p = 1 then s.disablePort p else s.enablePort p

theorem State.dimPort_onlyPorts : s.OnlyPorts (s.dimPort p) := by
  unfold State.dimPort
  split
  · exact State.disablePort_onlyPorts
  · exact State.enablePort_onlyPorts

theorem State.dimPorts_onlyPorts : s.OnlyPorts s.dimPorts :=
  List.foldlRecOn (motive := s.OnlyPorts) _ State.dimPort (.refl s) fun _ h _ _ => h.trans State.dimPort_onlyPorts

theorem State.dimPort_disabled {q : Nat} (hdim : portDim s.fabric.dims p = 1) (h : q = p ∨ (s.port p).state = .disabled) :
    ((s.dimPort q).port p).state = .disabled := by
  unfold State.dimPort
  by_cases hq : q = p
  · rw [hq, if_pos hdim, State.disablePort_port, if_pos rfl]
  · have hd : (s.port p).state = .disabled := h.resolve_left hq
    split
    · rw [State.disablePort_port, if_neg (Ne.symm hq), hd]
    · rw [State.enablePort_port_other (Ne.symm hq), hd]

/-- Of the ports a list names, those of dimensions of size 1 come out `DISABLED` (R488). -/
theorem State.foldl_dimPort_disabled (qs : List Nat) (hdim : portDim s.fabric.dims p = 1)
    (h : p ∈ qs ∨ (s.port p).state = .disabled) : ((qs.foldl State.dimPort s).port p).state = .disabled := by
  induction qs generalizing s with
  | nil => exact h.resolve_left List.not_mem_nil
  | cons q qs ih =>
    refine ih ((congrArg (portDim · p) State.dimPort_onlyPorts.dims).trans hdim) ?_
    rw [List.mem_cons] at h
    by_cases hq : p ∈ qs
    · exact .inl hq
    · exact .inr (State.dimPort_disabled hdim (by tauto))

theorem State.dimPorts_disabled (hp : p < 6) (hdim : portDim s.fabric.dims p = 1) : (s.dimPorts.port p).state = .disabled :=
  State.foldl_dimPort_disabled _ hdim (.inl (List.mem_range.2 hp))

/-! ### `FZ_DIMS` -/

theorem State.OnlyPorts.follows {d w : Nat} (h : s.OnlyPorts t) (hs : s.Follows d w) : t.Follows d w := by
  obtain ⟨_, _, _, _, rfl⟩ := h
  exact hs

theorem State.lockSelf_follows {d w : Nat} (h : s.Follows d w) : s.lockSelf.Follows d w := by
  obtain ⟨_, _, _, _, _, hl⟩ := State.lockSelf_frame (s := s)
  rw [hl]
  exact h

theorem State.lockSelf_port (q : Nat) : s.lockSelf.port q = s.port q := by
  obtain ⟨_, _, _, _, _, h⟩ := State.lockSelf_frame (s := s)
  rw [h]; rfl

/-- The module with `FZ_DIMS` taken: coordinates and ports follow it (R267, R488, R489). -/
def State.takeDims (d : Nat) (s : State) : State :=
  (State.refreshId { s with fabric := { s.fabric with dims := d } }).dimPorts.lockSelf

theorem State.writeDims_open {x : Part} (ho : s.regs.locked = false) : s.writeDims x =
    if dimsOk (x.v % 2 ^ 17) = false then s.refuseWrite x.origin 1 else s.takeDims (x.v % 2 ^ 17) := by
  rw [State.writeDims, State.rwl_open ho]
  cases dimsOk (x.v % 2 ^ 17) <;> rfl

theorem State.takeDims_frame (d : Nat) : ∃ f l h pw, s.takeDims d =
    { s with fabric := f, ledger := l, host := h, power := pw } ∧ f.dims = d := by
  obtain ⟨_, _, _, hr⟩ := State.refreshId_fields (s := { s with fabric := { s.fabric with dims := d } })
  obtain ⟨_, _, _, _, hp⟩ := State.dimPorts_onlyPorts (s := State.refreshId { s with fabric := { s.fabric with dims := d } })
  obtain ⟨_, _, _, _, _, hl⟩ := State.lockSelf_frame
    (s := (State.refreshId { s with fabric := { s.fabric with dims := d } }).dimPorts)
  unfold State.takeDims
  rw [hl, hp, hr]
  exact ⟨_, _, _, _, rfl, rfl⟩

theorem State.takeDims_follows (d : Nat) (h : s.fabric.sideband = none) : (s.takeDims d).Follows d s.fabric.self :=
  State.lockSelf_follows (State.dimPorts_onlyPorts.follows
    (State.refreshId_follows (s := { s with fabric := { s.fabric with dims := d } }) h))

theorem State.takeDims_disabled {d : Nat} (hp : p < 6) (hdim : portDim d p = 1) :
    ((s.takeDims d).port p).state = .disabled := by
  unfold State.takeDims
  rw [State.lockSelf_port]
  refine State.dimPorts_disabled hp ?_
  obtain ⟨_, _, _, hr⟩ := State.refreshId_fields (s := { s with fabric := { s.fabric with dims := d } })
  rw [hr]
  exact hdim

/-! ### `FZ_SELF` -/

/-- The module with `FZ_SELF` taken (R267). -/
def State.takeSelf (w : Nat) (s : State) : State := (State.refreshId { s with fabric := { s.fabric with self := w } }).lockSelf

/-- Coordinates that differ from those of the sideband are reported beside (R267). -/
theorem State.writeSelf_open {x : Part} (ho : s.regs.locked = false) : s.writeSelf x =
    s.fabric.sideband.elim (s.takeSelf (x.v % 2 ^ 15)) fun m =>
      if bit x.v 14 = true ∧ x.v % 2 ^ 14 ≠ m then (s.takeSelf (x.v % 2 ^ 15)).raise 0x1502 0 m (x.v % 2 ^ 14)
      else s.takeSelf (x.v % 2 ^ 15) := by
  rw [State.writeSelf, State.rwl_open ho, bit_mod_self, id_mod_self]
  cases s.fabric.sideband with
  | none => rfl
  | some m => simp [State.takeSelf]

theorem State.takeSelf_frame (w : Nat) : ∃ f l h, s.takeSelf w =
    { s with fabric := f, ledger := l, host := h } ∧ f.self = w ∧ f.dims = s.fabric.dims := by
  obtain ⟨_, _, _, hr⟩ := State.refreshId_fields (s := { s with fabric := { s.fabric with self := w } })
  obtain ⟨_, _, _, _, _, hl⟩ := State.lockSelf_frame (s := State.refreshId { s with fabric := { s.fabric with self := w } })
  unfold State.takeSelf
  rw [hl, hr]
  exact ⟨_, _, _, rfl, rfl, rfl⟩

theorem State.takeSelf_follows (w : Nat) (h : s.fabric.sideband = none) : (s.takeSelf w).Follows s.fabric.dims w :=
  State.lockSelf_follows (State.refreshId_follows (s := { s with fabric := { s.fabric with self := w } }) h)

theorem State.takeSelf_id_of_sideband {m : Nat} (w : Nat) (h : s.fabric.sideband = some m) :
    (s.takeSelf w).fabric.id = m := by
  obtain ⟨_, _, _, _, _, hl⟩ := State.lockSelf_frame (s := State.refreshId { s with fabric := { s.fabric with self := w } })
  unfold State.takeSelf
  rw [hl]
  exact State.refreshId_id_of_sideband h

section Open

variable {x : Part} (ho : s.regs.locked = false)
include ho

theorem State.writeSelf_fabric : (s.writeSelf x).fabric = (s.takeSelf (x.v % 2 ^ 15)).fabric := by
  rw [State.writeSelf_open ho]
  cases s.fabric.sideband with
  | none => rfl
  | some m =>
    dsimp only [Option.elim]
    split
    · exact State.raise_fabric ..
    · rfl

theorem State.writeSelf_frame : s.writeSelf x = { s with
    fabric := (s.writeSelf x).fabric, ledger := (s.writeSelf x).ledger, host := (s.writeSelf x).host } := by
  obtain ⟨_, _, _, ht, -, -⟩ := State.takeSelf_frame (s := s) (x.v % 2 ^ 15)
  rw [State.writeSelf_open ho]
  cases s.fabric.sideband with
  | none => dsimp only [Option.elim]; rw [ht]
  | some m =>
    dsimp only [Option.elim]
    split
    · obtain ⟨_, _, _, -, hr⟩ := State.raise_frame (s := s.takeSelf (x.v % 2 ^ 15)) 0x1502 0 m (x.v % 2 ^ 14)
      rw [hr, ht]
    · rw [ht]

/-- The report of coordinates that differ from those of the sideband (R267). -/
theorem State.writeSelf_reports {m : Nat} (hm : s.fabric.sideband = some m) (hb : bit x.v 14 = true) (hne : x.v % 2 ^ 14 ≠ m) :
    (s.cairn, ⟨0x1502, 0, m, x.v % 2 ^ 14⟩) ∈ (s.writeSelf x).ledger.events := by
  obtain ⟨_, _, _, ht, -, -⟩ := State.takeSelf_frame (s := s) (x.v % 2 ^ 15)
  obtain ⟨_, _, _, -, hr⟩ := State.raise_frame (s := s.takeSelf (x.v % 2 ^ 15)) 0x1502 0 m (x.v % 2 ^ 14)
  rw [State.writeSelf_open ho, hm]
  dsimp only [Option.elim]
  rw [if_pos ⟨hb, hne⟩, hr, ht]
  exact List.mem_append_right _ (List.mem_singleton_self _)

end Open

/-! ### The lock set with `FZ_SELF` outside -/

/-- The check of coordinates has in use what `FZ_SELF` says, where the sideband gives none (R267, R489). -/
theorem State.checkIds_follows (h : s.fabric.sideband = none) : s.checkIds.Follows s.fabric.dims s.fabric.self := by
  obtain ⟨r, hr⟩ : ∃ r, (if s.selfOut then s.refuseWrite 0x50004 1 else s) = { s with regs := r } := by
    split
    · exact ⟨_, rfl⟩
    · exact ⟨s.regs, rfl⟩
  have hc : s.checkIds = State.refreshId { s with regs := r } := by
    rw [State.checkIds, hr]
    dsimp only
    rw [h]
  rw [hc]
  exact State.refreshId_follows (s := { s with regs := r }) h

theorem State.setLock_follows (ho : s.regs.locked = false) (h : s.fabric.sideband = none) :
    s.setLock.Follows s.fabric.dims s.fabric.self := by
  obtain ⟨_, _, hi⟩ := State.interleave_frame (s := { s with regs := { s.regs with locked := true } })
  rw [State.setLock, if_neg (by simp [ho]), hi]
  exact State.lockSelf_follows (State.checkIds_follows h)

/-! ### `ENABLE` of a port -/

/-- A port as `ENABLE` has it, before it trains or stops. -/
def State.setEnable (s : State) (p v : Nat) : State := s.updPort p fun x => { x with enable := bit v 0 }

theorem State.setEnable_port (q : Nat) :
    (s.setEnable p v).port q = if q = p then { s.port p with enable := bit v 0 } else s.port q := State.updPort_port ..

theorem State.setEnable_trains : (s.setEnable p v).trains p = s.trains p := by
  unfold State.trains
  rw [State.setEnable_port, if_pos rfl]
  rfl

theorem State.writePortCtrl_eq : s.writePortCtrl p v =
    if bit v 0 = true then (s.setEnable p v).enablePort p else (s.setEnable p v).disablePort p := rfl

theorem State.writePortCtrl_set (h : bit v 0 = true) : s.writePortCtrl p v =
    if s.trains p = true then
      if Tab.get false s.power.domOff (679 + p) = true then (s.setEnable p v).askDomain (679 + p) true
      else (s.setEnable p v).portTo p .detect
    else s.setEnable p v := by
  rw [← State.setEnable_trains (v := v), State.writePortCtrl_eq, if_pos h]
  exact State.enablePort_of_enable (by rw [State.setEnable_port, if_pos rfl, h])

theorem State.writePortCtrl_onlyPorts : s.OnlyPorts (s.writePortCtrl p v) := by
  have hset : s.OnlyPorts (s.setEnable p v) := State.updPort_onlyPorts _
  rw [State.writePortCtrl_eq]
  split
  · exact hset.trans State.enablePort_onlyPorts
  · exact hset.trans State.disablePort_onlyPorts

theorem State.writePortCtrl_port_other {q : Nat} (hq : q ≠ p) : (s.writePortCtrl p v).port q = s.port q := by
  have hset : (s.setEnable p v).port q = s.port q := by rw [State.setEnable_port, if_neg hq]
  rw [State.writePortCtrl_eq]
  split
  · rw [State.enablePort_port_other hq, hset]
  · rw [State.disablePort_port, if_neg hq, hset]

/-- A port whose `ENABLE` is clear is emptied and `DISABLED` (R279, R488). -/
theorem State.writePortCtrl_port_clear (h : bit v 0 = false) : (s.writePortCtrl p v).port p =
    { (s.port p).dropped with enable := bit v 0, state := .disabled } := by
  rw [State.writePortCtrl_eq, if_neg (by simp [h]), State.disablePort_port, if_pos rfl, State.setEnable_port, if_pos rfl]
  rfl

/-- Of a port whose `ENABLE` is set, the state changes where it trains and its domain is on (R405, R488). -/
theorem State.writePortCtrl_port_set (h : bit v 0 = true) : (s.writePortCtrl p v).port p = { s.port p with
    enable := bit v 0
    state := if s.trains p = true ∧ Tab.get false s.power.domOff (679 + p) = false then .detect else (s.port p).state } := by
  have hset : (s.setEnable p v).port p = { s.port p with enable := bit v 0 } := by rw [State.setEnable_port, if_pos rfl]
  rw [State.writePortCtrl_set h]
  by_cases ht : s.trains p = true
  · rw [if_pos ht]
    by_cases hd : Tab.get false s.power.domOff (679 + p) = true
    · rw [if_pos hd, State.askDomain_port, hset, if_neg (by simp [hd])]
    · rw [if_neg hd, State.portTo_port, if_pos rfl, hset, if_pos ⟨ht, Bool.eq_false_iff.2 hd⟩]
  · rw [if_neg ht, hset, if_neg fun hc => ht hc.1]

theorem State.writePortCtrl_enable : ((s.writePortCtrl p v).port p).enable = bit v 0 := by
  cases h : bit v 0 with
  | false => rw [State.writePortCtrl_port_clear h, h]
  | true => rw [State.writePortCtrl_port_set h, h]

/-- A port that trains while its domain is off has asked for the turn-on (R405, R407). -/
theorem State.writePortCtrl_hasStaging (h : bit v 0 = true) (ht : s.trains p = true)
    (hd : Tab.get false s.power.domOff (679 + p) = true) : (s.writePortCtrl p v).hasStaging (679 + p) true = true := by
  obtain ⟨-, -, -, hlost⟩ := of_decide_eq_true ht
  rw [State.writePortCtrl_set h, if_pos ht, if_pos hd]
  exact State.askDomain_on_hasStaging hlost

/-- Nothing of power changes for a port that does not train. -/
theorem State.writePortCtrl_power (h : bit v 0 = true) (ht : s.trains p = false) : (s.writePortCtrl p v).power = s.power := by
  rw [State.writePortCtrl_set h, if_neg (by simp [ht])]
  rfl

/-! ### The obligation -/

theorem State.fzDimsWrite_accepted (hb : s.bar0Answers = true) (hs : s.seq ≠ .rescue) (ho : s.regs.locked = false)
    (hv : v < 2 ^ 32) (h : dimsOk (v % 2 ^ 17) = true) :
    exec (.fzDimsWrite ⟨0x50000, 4, v⟩) s = .next (s.takeDims (v % 2 ^ 17)) := by
  rw [State.fzDimsWrite_exec hb hs hv, State.writeDims_open ho, if_neg (by rw [h]; decide)]

theorem State.fzDimsWrite_refused (hb : s.bar0Answers = true) (hs : s.seq ≠ .rescue) (ho : s.regs.locked = false)
    (hv : v < 2 ^ 32) (h : dimsOk (v % 2 ^ 17) = false) :
    exec (.fzDimsWrite ⟨0x50000, 4, v⟩) s = .next (s.refuseWrite 0x50000 1) := by
  rw [State.fzDimsWrite_exec hb hs hv, State.writeDims_open ho, if_pos h]

/-- Settles O56: a write of `FZ_DIMS` or `FZ_SELF` ends in `refreshId`, after which the coordinates in use follow `FZ_SELF`, and
ports and the time lock have no part in them; setting the lock checks the same coordinates again; and a write of `ENABLE` changes
one port, and asks for its domain where it trains without one. -/
theorem fabricRegisters : Obligations.FabricRegisters := by
  unfold Obligations.FabricRegisters
  intro s hb hs
  refine ⟨fun v ho hv => ⟨State.fzDimsWrite_refused hb hs ho hv,
    fun h => ⟨_, State.fzDimsWrite_accepted hb hs ho hv h, ?_⟩, _, State.fzSelfWrite_exec hb hs hv, ?_⟩,
    fun ho hout => ⟨_, State.setupLockSet_exec hb hs, ?_⟩, fun p v hp hv => ⟨_, State.fzPortCtrlWrite_exec hb hs hv hp, ?_⟩⟩
  · obtain ⟨_, _, _, _, ht, hd⟩ := State.takeDims_frame (s := s) (v % 2 ^ 17)
    exact ⟨by rw [ht]; exact hd, State.takeDims_follows _, fun p hp => State.takeDims_disabled hp, by rw [ht]⟩
  · have hf := State.writeSelf_fabric (x := ⟨0x50004, 0x50004, v⟩) ho
    obtain ⟨_, _, _, ht, hself, hd⟩ := State.takeSelf_frame (s := s) (v % 2 ^ 15)
    refine ⟨by rw [hf, ht]; exact hself, by rw [hf, ht]; exact hd, fun hsb => ?_, fun m hm => ⟨?_, ?_⟩, State.writeSelf_frame ho⟩
    · unfold State.placed
      rw [hf]
      exact (State.takeSelf_follows _ hsb).of_mod
    · rw [hf]; exact State.takeSelf_id_of_sideband _ hm
    · exact State.writeSelf_reports (x := ⟨0x50004, 0x50004, v⟩) ho hm
  · obtain ⟨on, hr, -⟩ := State.setLock_open ho
    rw [if_pos hout] at hr
    exact ⟨by rw [hr], by rw [hr], by rw [hr], fun hsb => (State.setLock_follows ho hsb).of_out hout⟩
  · refine ⟨State.writePortCtrl_enable, fun h => ?_, fun h trains htr => ?_, fun q hq => State.writePortCtrl_port_other hq,
      State.writePortCtrl_onlyPorts.frame⟩
    · rw [State.writePortCtrl_port_clear h]; exact ⟨rfl, rfl, rfl, rfl⟩
    · obtain rfl : trains = s.trains p := htr
      exact ⟨by rw [State.writePortCtrl_port_set h], State.writePortCtrl_hasStaging h, State.writePortCtrl_power h⟩

end Sys2Proof.Machine
end

section
/-! PROOF. The write that moves the stream table (R477, R485): its path, what a run initialised to zero reads as and leaves as it
was, and the memory on which the statement about it fails. -/

namespace Sys2Proof.Machine

/-! ### Runs initialised to zero -/

section Zero

variable {m : Memory} {lo n x : Nat}

/-- What is left of a run covers its bytes outside the part cut out. -/
theorem any_cutRun (r : Nat × Nat) (b : Bool) : (cutRun lo n r).any (fun c => c.1 ≤ x && x < c.1 + c.2 && b) =
    (r.1 ≤ x && x < r.1 + r.2 && b && !(lo ≤ x && x < lo + n)) := by
  rw [Bool.eq_iff_iff]
  simp only [cutRun, List.any_eq_true, List.mem_filter, List.mem_cons, List.not_mem_nil, or_false, bne_iff_ne,
    Bool.and_eq_true, decide_eq_true_eq, Bool.not_eq_true', Bool.and_eq_false_iff, decide_eq_false_iff_not]
  constructor
  · rintro ⟨c, ⟨rfl | rfl, _⟩, ⟨h1, h2⟩, hb⟩
    · exact ⟨⟨by simp only at h1 h2; omega, hb⟩, by simp only at h1 h2; omega⟩
    · exact ⟨⟨by simp only at h1 h2; omega, hb⟩, by simp only at h1 h2; omega⟩
  · rintro ⟨⟨_, hb⟩, h⟩
    obtain h | h : x < lo ∨ lo + n ≤ x := by omega
    · exact ⟨_, ⟨.inl rfl, by simp only; omega⟩, by simp only; omega, hb⟩
    · exact ⟨_, ⟨.inr rfl, by simp only; omega⟩, by simp only; omega, hb⟩

theorem Memory.zero_blank_inside (h : lo ≤ x ∧ x < lo + n) : (m.zero lo n).blank x = some 0 := by
  have hz : (m.zero lo n).zeroed.any (fun r => r.1 ≤ x && x < r.1 + r.2) = true := by simp [Memory.zero, h]
  have hw : (m.zero lo n).wiped.any (fun w => w.1 ≤ x && x < w.1 + w.2.1 && hbmStack x == w.2.2) = false := by
    unfold Memory.zero
    simp only [List.any_flatMap, List.any_map, Function.comp_def, any_cutRun, h]
    simp
  rw [Memory.blank, hz, hw]
  rfl

theorem Memory.zero_blank_outside (h : x < lo ∨ lo + n ≤ x) : (m.zero lo n).blank x = m.blank x := by
  have hout : (decide (lo ≤ x) && decide (x < lo + n)) = false := by simp; omega
  have hz : (m.zero lo n).zeroed.any (fun r => r.1 ≤ x && x < r.1 + r.2) = m.zeroed.any (fun r => r.1 ≤ x && x < r.1 + r.2) := by
    simp [Memory.zero, hout]
  have hw : (m.zero lo n).wiped.any (fun w => w.1 ≤ x && x < w.1 + w.2.1 && hbmStack x == w.2.2) =
      m.wiped.any (fun w => w.1 ≤ x && x < w.1 + w.2.1 && hbmStack x == w.2.2) := by
    simp only [Memory.zero, List.any_flatMap, List.any_map, Function.comp_def, any_cutRun, hout, Bool.not_false, Bool.and_true]
  rw [Memory.blank, hz, hw, Memory.blank]

/-- In a list of rising addresses the byte found is the one listed. -/
theorem findByte_eq_some_iff {t : Tab Byte} {b : Byte} (h : t.Pairwise fun a b => a.1 < b.1) :
    findByte t x = some b ↔ (x, b) ∈ t := by
  induction t with
  | nil => simp [findByte]
  | cons e t ih =>
    obtain ⟨hlt, ht⟩ := List.pairwise_cons.1 h
    unfold findByte
    rw [List.mem_cons]
    split
    · next he =>
      have hn : (x, b) ∉ t := fun hm => by have := hlt _ hm; omega
      simp only [hn, or_false, Option.some.injEq, Prod.ext_iff, he, true_and, eq_comm]
    · next he =>
      rw [ih ht, Prod.ext_iff, or_iff_right fun h => he h.1.symm]

/-- A run initialised to zero reads as zero (R242). -/
theorem Memory.get_zero_inside (key sp : Nat) (h : lo ≤ x ∧ x < lo + n) : (m.zero lo n).get key sp x = 0 := by
  have hf : findByte (m.zero lo n).bytes x = none := by
    rw [findByte_eq_get?, Option.map_eq_none_iff, List.find?_eq_none]
    intro e he
    have hc := (List.mem_filter.1 (List.mem_filter.1 he).1).2
    simp at hc ⊢
    omega
  rw [Memory.get, hf, Memory.zero_blank_inside h]

/-- In canonical form every other byte reads as before. -/
theorem Memory.get_zero_outside (key sp : Nat) (hm : m.wf = true) (h : x < lo ∨ lo + n ≤ x) :
    (m.zero lo n).get key sp x = m.get key sp x := by
  have hwf := Memory.wf_iff.1 hm
  have hwf' := Memory.wf_iff.1 (Memory.wf_zero (lo := lo) (n := n) hm)
  have hf : findByte (m.zero lo n).bytes x = findByte m.bytes x := by
    ext b
    rw [findByte_eq_some_iff hwf'.1, findByte_eq_some_iff hwf.1]
    refine ⟨fun hb => List.mem_of_mem_filter (List.mem_of_mem_filter hb), fun hb => List.mem_filter.2 ⟨List.mem_filter.2
      ⟨hb, by simp; omega⟩, decide_eq_true ?_⟩⟩
    show (m.zero lo n).blank x ≠ some b
    rw [Memory.zero_blank_outside h]
    exact hwf.2 _ hb
  rw [Memory.get, hf, Memory.zero_blank_outside h, Memory.get]

theorem Memory.getAll_eq_map (key sp a k : Nat) :
    m.getAll key sp a k = (List.range k).map fun i => m.get key sp (a + i) := by
  induction k generalizing a with
  | zero => rfl
  | succ k ih =>
    rw [Memory.getAll, ih, List.range_succ_eq_map, List.map_cons, List.map_map]
    simp [Function.comp_def, Nat.add_assoc, Nat.add_comm 1]

end Zero

/-! ### The table moved -/

section Table

variable {s : State} {a b n v : Nat}

theorem State.moveTable_readBytes (b n : Nat) : (s.moveTable a).readBytes 0 b n =
    (s.mem.hbm.zero a (2 ^ 28)).getAll (s.ledger.startCount * 2 ^ 32 + Tab.get 0 s.mem.wipes (hbmStack b)) 0 b n := rfl

/-- The records at the table's new place read as zero (R485). -/
theorem State.moveTable_readBytes_inside (h : a ≤ b) (h' : b + n ≤ a + 2 ^ 28) :
    (s.moveTable a).readBytes 0 b n = List.replicate n 0 := by
  rw [State.moveTable_readBytes, Memory.getAll_eq_map, List.eq_replicate_iff]
  refine ⟨by simp, fun x hx => ?_⟩
  obtain ⟨i, hi, rfl⟩ := List.mem_map.1 hx
  have hi := List.mem_range.1 hi
  exact Memory.get_zero_inside _ _ ⟨by omega, by omega⟩

/-- On memory in canonical form, all other bytes of HBM are as before. -/
theorem State.moveTable_readBytes_outside (hm : s.memWf = true) (h : b + n ≤ a ∨ a + 2 ^ 28 ≤ b) :
    (s.moveTable a).readBytes 0 b n = s.readBytes 0 b n := by
  rw [State.moveTable_readBytes, State.readBytes, Memory.getAll_eq_map, Memory.getAll_eq_map]
  refine List.map_congr_left fun i hi => ?_
  have hi := List.mem_range.1 hi
  exact Memory.get_zero_outside _ _ (State.memWf_iff.1 hm).1 (by omega)

section Moved

variable (hb : s.bar0Answers = true) (hs : s.seq ≠ .rescue) (ho : s.regs.locked = false) (hv : v < 2 ^ 32)
  (hg : ∀ g y, s.graph? g = some y → y.serving = none) (hst : ∀ e ∈ s.tracker.streams, e.2.state = .free)
  (ha : a = v % 2 ^ 12 * 2 ^ 32 + s.regs.streamTableLow) (hfit : a + 2 ^ 28 ≤ moduleArea)
include hb hs ho hv hg hst ha hfit

/-- With no graph that serves and no stream, a table that fits below the module area moves (R477, R485). -/
theorem State.streamTableBaseWrite_moves : exec (.streamTableBaseWrite ⟨0x13014, 4, v⟩) s = .next (s.moveTable a) := by
  subst ha
  have hstreams : (s.tracker.streams.any fun e => e.2.state != StreamState.free) = false := by
    simpa using hst
  show execStreamTableBaseWrite _ s = _
  rw [execStreamTableBaseWrite, State.ownWrite_word hb rfl hv rfl, State.writePart_low hs true (by simp)]
  show Host.Outcome.next (s.writeStreamTable true _) = _
  rw [State.writeStreamTable, if_pos rfl, State.rwl_open ho]
  dsimp only
  rw [if_neg, if_neg (Nat.not_lt.2 hfit)]
  rw [hstreams, Bool.or_false, Bool.not_eq_true, List.any_eq_false]
  intro g _
  split
  · decide
  · next y hy => rw [hg g y hy]; decide

/-- What the statement says of the move holds on memory in canonical form. -/
theorem State.streamTableBaseWrite_of_memWf (hm : s.memWf = true) :
    ∃ t, exec (.streamTableBaseWrite ⟨0x13014, 4, v⟩) s = .next t ∧ t.regs = { s.regs with streamTable := a } ∧
      (∀ b n, a ≤ b → b + n ≤ a + 2 ^ 28 → t.readBytes 0 b n = List.replicate n 0) ∧
      (∀ b n, b + n ≤ a ∨ a + 2 ^ 28 ≤ b → t.readBytes 0 b n = s.readBytes 0 b n) ∧ t.tracker = { s.tracker with cache := [] } ∧
      t = { s with regs := t.regs, mem := { s.mem with hbm := t.mem.hbm, cxl := t.mem.cxl, wrong := t.mem.wrong }, tracker := t.tracker } :=
  ⟨_, State.streamTableBaseWrite_moves hb hs ho hv hg hst ha hfit, rfl, fun _ _ => State.moveTable_readBytes_inside,
    fun _ _ => State.moveTable_readBytes_outside hm, rfl, rfl⟩

end Moved

end Table

/-! ### A byte listed twice -/

/-- A module before its set-up, with a byte of HBM listed twice, right behind the table's place at 0xB0000000, which the low word
at reset gives with a high word of 0. The listing that is read says zero, as the initialised byte would without any: memory is not
in its canonical form (`State.memWf`), as it is at reset. -/
def twiceListed : State :=
  { State.reset with
    hotSwap := { HotSwap.reset with switchOn := true }
    host := { Host_.reset with bar0 := true }
    mem := { State.reset.mem with hbm := ⟨[(0xC0000000, 0), (0xC0000000, 5)], [(0xC0000000, 1)], [], []⟩ } }

theorem twiceListed_memWf : twiceListed.memWf = false := by decide

/-- The run initialised to zero lies before the byte, and yet drops the listing that is read. -/
theorem twiceListed_readBytes : twiceListed.readBytes 0 0xC0000000 1 = [0] ∧
    (twiceListed.moveTable 0xB0000000).readBytes 0 0xC0000000 1 = [5] := by decide +kernel

/-- Refutes O53: the statement asks for no canonical form of memory, and on `twiceListed`, whose listings repeat an address, the
move of the stream table drops the zero that the byte at 0xC0000000 reads as, outside the table, and uncovers the five behind it.
On memory in canonical form the clause that fails here holds: `State.streamTableBaseWrite_of_memWf`. -/
theorem not_addressRegistersTakeHighWord : ¬ Obligations.AddressRegistersTakeHighWord := by
  unfold Obligations.AddressRegistersTakeHighWord
  intro h
  have hg : ∀ g y, twiceListed.graph? g = some y → y.serving = none := fun g y hy => by cases hy
  have hst : ∀ e ∈ twiceListed.tracker.streams, e.2.state = .free := fun e he => by cases he
  obtain ⟨-, -, -, -, -, -, -, -, -, -, hmove⟩ := h twiceListed 0 rfl (by decide) rfl (by decide)
  obtain ⟨t, ht, -, -, hout, -⟩ := hmove 0xB0000000 rfl hg hst (by decide)
  have hexec := State.streamTableBaseWrite_moves (s := twiceListed) (v := 0) rfl (by decide) rfl (by decide) hg hst rfl (by decide)
  obtain rfl := Host.Outcome.next.inj (hexec.symm.trans ht)
  obtain ⟨hbefore, hafter⟩ := twiceListed_readBytes
  have hsame := hout 0xC0000000 1 (.inr (by decide))
  exact absurd (hafter.symm.trans (hsame.trans hbefore)) (by decide)

end Sys2Proof.Machine
end

section
/-! PROOF. The hot-swap controller's rows and the alert (R496 to R500): the loss of standby power, the blink of `ATTN_N`, and
`SMBALERT_N` as the bits that `MG_ALERT` and `MG_ALERT_EN` share. -/

namespace Sys2Proof.Machine

variable {s : State}

/-! ### The controller's pins -/

/-- The module as the loss of standby power leaves it (R424, R496). -/
theorem State.standbyPowerLoss_exec : exec .standbyPowerLoss s = .next { s.bare with hotSwap := .reset } := rfl

/-- `ATTN_N` toggled at the instant `n`, which is kept as that of its last change (R498). -/
def State.toggleAttn (n : Nat) (s : State) : State :=
  let s1 := s.advanceTo n
  { s1 with hotSwap := { s1.hotSwap with attn := !s1.hotSwap.attn, lastBlink := s1.cairn } }

theorem State.toggleAttn_hotSwap (n : Nat) : (s.toggleAttn n).hotSwap =
    { s.hotSwap with attn := !s.hotSwap.attn, lastBlink := (s.toggleAttn n).cairn } := rfl

theorem State.toggleAttn_cairn (n : Nat) : (s.toggleAttn n).cairn = cairnMax s.cairn (roundUp n 4) := rfl

theorem State.toggleAttn_frame (n : Nat) :
    s.toggleAttn n = { s with cairn := (s.toggleAttn n).cairn, hotSwap := (s.toggleAttn n).hotSwap } := rfl

/-- In `FAILED`, with the switch closed and no shutdown done, the blink toggles `ATTN_N` 500 ms after its last change (R498). -/
theorem State.attnBlink_exec (hw : s.hotSwap.switchOn = true) (hd : s.shutdown.done = false) (hf : s.devState = .failed) :
    exec .attnBlink s = .next (s.toggleAttn (s.hotSwap.lastBlink + 500000000)) := by
  show execAttnBlink s = _
  rw [execAttnBlink, State.toggleAttn, if_neg (by simp [hw, hd, hf])]

/-! ### The alert -/

theorem bit_eq_testBit (x i : Nat) : bit x i = x.testBit i := by
  rw [bit, Nat.shiftRight_eq_div_pow, Nat.testBit_eq_decide_div_mod_eq]
  rfl

/-- A mask keeps something of a number exactly when both have some bit set. -/
theorem and_ne_zero_iff_exists_bit {a b : Nat} : a &&& b ≠ 0 ↔ ∃ i, bit a i = true ∧ bit b i = true := by
  simp only [bit_eq_testBit, ← Bool.and_eq_true, ← Nat.testBit_and]
  exact ⟨Nat.exists_testBit_of_ne_zero, fun ⟨i, hi⟩ h => by simp [h] at hi⟩

/-- `SMBALERT_N` is low exactly while an enabled bit is set (R500). -/
theorem State.smbAlert_iff : s.smbAlert = true ↔ ∃ i, bit s.mgmt.alert i = true ∧ bit s.mgmt.alertEn i = true := by
  rw [State.smbAlert, bne_iff_ne, and_ne_zero_iff_exists_bit]

/-- A management set that answers gives its address exactly while `SMBALERT_N` is low (R499, R500). -/
theorem State.smbusAlertResponse_exec (hw : s.hotSwap.switchOn = true) (hf : s.fw.running = true) :
    exec .smbusAlertResponse s = .next { s with mgmt := { s.mgmt with
      answer := if s.smbAlert then some (0x50 + Config.sledAddress % 8) else none } } := by
  have hm : s.mgmtAnswers = true := by rw [State.mgmtAnswers, hw, hf]; rfl
  show execSmbusAlertResponse s = _
  rw [execSmbusAlertResponse, hm]
  by_cases h : s.mgmt.alert &&& s.mgmt.alertEn = 0 <;> simp [State.smbAlert, h]

/-- Settles O9: each row is one update of the controller or the module, a wrong PEC is none, and `SMBALERT_N` is low for a
common bit of `MG_ALERT` and `MG_ALERT_EN`. -/
theorem hotSwapControllerRows : Obligations.HotSwapControllerRows := by
  unfold Obligations.HotSwapControllerRows
  refine ⟨fun s => rfl, fun s => ?_, fun s hw hd hf => ?_, fun s => rfl, fun s v w => ?_, fun s => State.smbAlert_iff,
    fun s => State.smbusAlertResponse_exec⟩
  · exact ⟨_, State.standbyPowerLoss_exec, rfl, rfl, rfl, rfl, rfl, rfl, rfl, rfl, rfl⟩
  · exact ⟨_, State.attnBlink_exec hw hd hf, State.toggleAttn_hotSwap _, State.toggleAttn_cairn _, State.toggleAttn_frame _⟩
  · -- the packet check is the first guard of each of the four rows
    exact ⟨rfl, rfl, rfl, rfl⟩

end Sys2Proof.Machine
end

section
/-! PROOF. The sessions of the serial monitor (R507, R510 to R512): a line that is a command and its answer, the attempts of
`CHALLENGE` and `UNLOCK`, the two instants that the Cairn brings, and everything that ends an unlocked session. -/

namespace Sys2Proof.Machine

variable {s t : State} {rom : Bool}

/-! ### A line and its answer -/

/-- The module with a line taken in: the session's 15 min count from now (R512). -/
def State.heard (s : State) : State := { s with monitor := { s.monitor with lastLine := s.cairn } }

/-- With no `TEST` under way, a command that both programs know is carried out and answered (R510, R514). -/
theorem State.command_both (hp : s.program = some rom) (ht : s.monitor.testing = none) (act : State → Reply) :
    s.command both false act = State.reply rom (act s.heard) := by
  unfold State.command
  rw [hp]
  simp [both, ht, State.heard]

theorem State.reply_done (ls : List Line) : State.reply rom (t.done ls) = t.print (ls ++ [.ok] ++ [.prompt rom]) := rfl

theorem State.reply_err (c : Nat) : State.reply rom (t.err (c + 1)) = t.print ([.err (c + 1)] ++ [.prompt rom]) := rfl

theorem State.answers_print (h : t.monitor.out = s.monitor.out) (ls : List Line) :
    s.answers (t.print (ls ++ [.prompt rom])) rom ls := by
  show t.monitor.out ++ (ls ++ [.prompt rom]) = _
  rw [h, List.append_assoc]

/-! ### `CHALLENGE`, `UNLOCK` and `LOCK` -/

/-- The module with a new nonce given out, the one before it void (R511). -/
def State.challenged (s : State) : State :=
  { s with monitor := { s.monitor with nonce := some s.monitor.nonces, nonces := s.monitor.nonces + 1, lockout := none } }

/-- The module with its session open and the nonce used up (R511). -/
def State.sessionOpen (s : State) : State :=
  { s with monitor := { s.monitor with unlocked := true, nonce := none, failures := 0 } }

section Line

variable (hp : s.program = some rom) (ht : s.monitor.testing = none)
include hp ht

theorem State.lock_exec : exec .lock s = .next (s.heard.lockSession.print ([.ok] ++ [.prompt rom])) :=
  congrArg _ (State.command_both hp ht _)

section Keyed

variable (hk : s.fuses.keyed = true)
include hk

theorem State.challenge_exec (hl : s.lockedOut = false) : exec .challenge s = .next (s.heard.challenged.print
    ([.value "nonce" (byteVals (sliceB (Config.nonce s.monitor.nonces) 0 32)), .value "device_id" (byteVals s.fuses.deviceId), .ok] ++
      [.prompt rom])) := by
  have hkey : s.heard.fuses.keyed = true := hk
  have hopen : s.heard.lockedOut = false := hl
  show execChallenge s = _
  rw [execChallenge, State.command_both hp ht, if_neg (by simp [hkey]), if_neg (by simp [hopen])]
  rfl

theorem State.challenge_exec_heldBack (hl : s.lockedOut = true) :
    exec .challenge s = .next (s.heard.print ([.err 6] ++ [.prompt rom])) := by
  have hkey : s.heard.fuses.keyed = true := hk
  have hheld : s.heard.lockedOut = true := hl
  show execChallenge s = _
  rw [execChallenge, State.command_both hp ht, if_neg (by simp [hkey]), if_pos hheld, State.reply_err]

/-- A well-formed attempt of a keyed module turns on its signature alone (R511). -/
theorem State.unlock_exec {slot : Nat} {pub sig : List Byte} (hpub : pub.length = 32) (hsig : sig.length = 64) (hslot : slot < 4) :
    exec (.unlock slot pub sig) s = .next (State.reply rom
      (if s.unlocks slot pub sig = true then s.heard.sessionOpen.done [] else s.heard.unlockFailed.err 7)) := by
  have hkey : s.heard.fuses.keyed = true := hk
  show execUnlock slot pub sig s = _
  rw [execUnlock, State.command_both hp ht, if_neg (by simp [hpub, hsig]), if_neg (by simp [hkey]), if_neg (by omega)]
  rfl

end Keyed

end Line

/-- The third failure in a row holds `CHALLENGE` back for 60 s (R511). -/
theorem State.unlockFailed_third (h : 2 ≤ s.monitor.failures) :
    s.unlockFailed.monitor.lockout = some (s.cairn + 60000000000) ∧ s.unlockFailed.monitor.failures = 0 := by
  simp [State.unlockFailed, h]

theorem State.unlockFailed_early (h : s.monitor.failures < 2) : s.unlockFailed.monitor.lockout = s.monitor.lockout ∧
    s.unlockFailed.monitor.failures = s.monitor.failures + 1 := by
  simp [State.unlockFailed, Nat.not_le.2 h]

/-! ### A break and the two instants -/

/-- The rate of reset and no session (R507, R512). -/
def State.brokenOff (s : State) : State := { s with monitor := { s.monitor with baud := 115200, unlocked := false } }

/-- A break is answered by the prompt of the program that serves the line, where one does (R508, R512). -/
theorem State.uartBreak_exec (hw : s.hotSwap.switchOn = true) :
    exec .uartBreak s = .next (s.brokenOff.print (s.program.toList.map Line.prompt)) := by
  show execUartBreak s = _
  rw [execUartBreak, if_neg (by simp [hw])]
  dsimp only
  split
  · next hp =>
    have hp : s.program = none := hp
    simp [hp, State.print, State.brokenOff]
  · next hp =>
    have hp : s.program = some _ := hp
    rw [hp]
    rfl

/-- A session that ends at the instant `n` (R512). It is stated for every instant: with 15 min put in for `n`, the kernel would
count out the nanoseconds. -/
theorem State.lockSession_advanceTo (n : Nat) :
    (s.advanceTo n).lockSession.monitor = { s.monitor with unlocked := false } ∧
      (s.advanceTo n).lockSession.cairn = cairnMax s.cairn (roundUp n 4) ∧
      (s.advanceTo n).lockSession = { s with
        monitor := (s.advanceTo n).lockSession.monitor, cairn := (s.advanceTo n).lockSession.cairn } := ⟨rfl, rfl, rfl⟩

/-- 15 min after the last line the session ends (R512). -/
theorem State.sessionTimeout_exec (hu : s.monitor.unlocked = true) (hc : s.cairnOn = true) :
    exec .sessionTimeout s = .next (s.advanceTo (s.monitor.lastLine + 900000000000)).lockSession := by
  show execSessionTimeout s = _
  rw [execSessionTimeout, if_neg (by simp [hu]), if_pos hc]

theorem State.unlockLockoutExpiry_exec {x : Nat} (hx : s.monitor.lockout = some x) (hc : s.cairnOn = true) :
    exec .unlockLockoutExpiry s = .next { s.advanceTo x with monitor := { s.monitor with lockout := none } } := by
  show execUnlockLockoutExpiry s = _
  rw [execUnlockLockoutExpiry, hx]
  dsimp only
  rw [if_pos hc]
  rfl

/-! ### What a recovery leaves of the session -/

@[simp] theorem State.tarnsOff_monitor (ts : List Nat) : (State.tarnsOff ts s).monitor = s.monitor := by
  unfold State.tarnsOff
  refine List.foldlRecOn (motive := fun t : State => t.monitor = s.monitor) ts _ rfl fun t ht i _ => ?_
  split
  · obtain ⟨_, h⟩ := State.askDomain_frame (s := t) (i + 320) false
    rw [h]; exact ht
  · exact ht

@[simp] theorem State.writeStatus_monitor : s.writeStatus.monitor = s.monitor := by
  unfold State.writeStatus State.hostRaw
  dsimp only
  split
  · rfl
  · split <;> rfl

@[simp] theorem State.recoveryFailed_monitor : s.recoveryFailed.monitor = s.monitor := by simp [State.recoveryFailed]

/-- A recovery that starts over, or fails, has ended the session when it began. -/
@[simp] theorem State.restartRecovery_monitor : s.restartRecovery.monitor = s.monitor := by
  unfold State.restartRecovery
  split
  · split
    · simp
    · dsimp only
      split <;> simp
  · rfl

theorem State.startRecovery_locked (go : Bool) : (s.startRecovery go).monitor.unlocked = false := by
  obtain ⟨_, _, h⟩ := State.startRecovery_frame (s := s) go
  rw [h]

theorem State.trigger_locked (h : s.monitor.unlocked = false) (go : Bool) : (s.trigger go).monitor.unlocked = false := by
  unfold State.trigger
  split
  · rw [State.restartRecovery_monitor]; exact h
  · exact State.startRecovery_locked go

/-- A reset of the host function ends the session, whether or not it starts a recovery (R311, R512). -/
theorem State.r311_locked (hw : s.hotSwap.switchOn = true) : s.r311.monitor.unlocked = false := by
  have htrig : (s.clearR311.trigger false).monitor.unlocked = false := State.trigger_locked (s := s.clearR311) rfl false
  rw [State.r311, if_neg (by simp [hw])]
  split
  · dsimp only
    split <;> exact htrig
  · rfl

theorem State.reset_locks {c : Instr} (hc : c = .functionLevelReset ∨ c = .hotReset ∨ c = .d3hotToD0 ∨ c = .perstNAssert)
    (hw : s.hotSwap.switchOn = true) (hl : s.host.linkUp = true) : ∃ t, exec c s = .next t ∧ t.monitor.unlocked = false := by
  have hlinked : (if s.host.linkUp then s.r311 else s) = s.r311 := if_pos hl
  refine ⟨s.r311, ?_, State.r311_locked hw⟩
  rcases hc with rfl | rfl | rfl | rfl
  · exact congrArg _ hlinked
  · exact congrArg _ hlinked
  · exact congrArg _ hlinked
  · rfl

/-! ### The loss of power and the cold start -/

theorem State.moduleRemoval_locks (hw : s.hotSwap.switchOn = true) :
    ∃ t, exec .moduleRemoval s = .next t ∧ t.monitor.unlocked = false := by
  refine ⟨_, rfl, ?_⟩
  rw [State.openSwitch, if_neg (by simp [hw])]
  rfl

theorem State.inputSwitchClose_locks {mv : Nat} (hw : s.hotSwap.switchOn = false) (hd : s.hotSwap.pwrDis = false)
    (hf : s.hotSwap.powerOff = false) (hlo : 44000 ≤ mv) (hhi : mv ≤ 57000) :
    ∃ t, exec (.inputSwitchClose mv) s = .next t ∧ t.monitor.unlocked = false := by
  refine ⟨_, rfl, ?_⟩
  rw [if_neg (by simp [hw, hd, hf, hlo, hhi])]
  rfl

/-! ### `LIFECYCLE` -/

/-- A descriptor that may start, with host memory in reach, comes to its action (R324, R327, R345). -/
theorem State.runDesc_of_starts {opc tag : Nat} {form : Desc → Form} {x : Desc} (h : s.starts tag opc form x) (hd : s.dma = true)
    (act : Desc → State → State) : s.runDesc opc tag form act = .next (act x s) := by
  obtain ⟨hserve, hdesc, hopc, hnew, hturn, hform⟩ := h
  have hrun : s.mayRun x = true := by simp [State.mayRun, hserve, hnew, hturn, hd]
  rw [State.runDesc, hdesc]
  dsimp only
  rw [if_neg (by simp [hopc, hrun]), hform]

@[simp] theorem State.complete_monitor (d : Desc) (status detail result : Nat) :
    (s.complete d status detail result).monitor = s.monitor := by
  simp [State.complete, State.writeCompletion, State.dropDesc]

/-- A transition that takes effect ends the session (R471, R512). -/
theorem State.programFuses_transition {b : List Byte} (hb : tKind b = 1) :
    (s.programFuses b 0xFF).monitor.unlocked = false := by
  rw [State.programFuses, if_neg (by omega), if_pos (by decide)]
  rfl

theorem State.takeToken_locks {d : Desc} {b : List Byte} (hf : s.tokenFault b = none) (hb : tKind b = 1) :
    (s.takeToken d b true).monitor.unlocked = false := by
  rw [State.takeToken, hf]
  dsimp only
  rw [if_pos rfl, State.complete_monitor]
  exact State.programFuses_transition hb

theorem State.lifecycle_exec {d : Nat} {x : Desc} {b : List Byte} (ok : Bool)
    (hx : s.starts d 0x71 (fun d => ⟨1, 0, [(16, 16)], d.get 24 8 == 128⟩) x) (hb : b.length = 128) (hd : s.dma = true) :
    exec (.lifecycle d (.data b) ok) s = .next (s.takeToken x b ok) := by
  show execLifecycle d (.data b) ok s = _
  rw [execLifecycle, State.runDesc_of_starts hx hd]
  exact congrArg _ (if_pos hb)

/-- Settles O57: each line is one update of the monitor and its answer; a break and the two instants likewise; and what else ends
a session comes to `startRecovery`, `clearR311`, `bare` or `lockSession`, each of which leaves it locked. -/
theorem monitorSessions : Obligations.MonitorSessions := by
  unfold Obligations.MonitorSessions
  refine ⟨fun s rom hp ht => ⟨fun hk hl => ?_, fun hk hl => ?_, fun slot pub sig hpub hsig hk hslot => ⟨fun h => ?_, fun h => ?_⟩, ?_⟩,
    fun s hw => ⟨?_, fun hu hc => ?_, fun x hx hc => ?_, fun c hc hl => State.reset_locks hc hw hl, fun v hb hs hd hv hgo => ?_,
      State.moduleRemoval_locks hw⟩,
    fun s mv hw hd hf hlo hhi => State.inputSwitchClose_locks hw hd hf hlo hhi, fun s d x b hx hlen hd hf hb => ?_⟩
  · exact ⟨_, State.challenge_exec hp ht hk hl, rfl, rfl, rfl, rfl, State.answers_print rfl _, rfl⟩
  · exact ⟨_, State.challenge_exec_heldBack hp ht hk hl, State.answers_print rfl _, rfl, rfl⟩
  · refine ⟨_, State.unlock_exec hp ht hk hpub hsig hslot, ?_⟩
    rw [if_pos h, State.reply_done]
    exact ⟨rfl, rfl, rfl, State.answers_print rfl _, rfl⟩
  · refine ⟨_, State.unlock_exec hp ht hk hpub hsig hslot, ?_⟩
    rw [if_neg (by simp [h]), State.reply_err]
    exact ⟨rfl, rfl, State.answers_print rfl _, State.unlockFailed_third (s := s.heard), State.unlockFailed_early (s := s.heard),
      rfl⟩
  · exact ⟨_, State.lock_exec hp ht, rfl, rfl⟩
  · refine ⟨_, State.uartBreak_exec hw, rfl, rfl, fun rom hp => ?_, rfl, rfl⟩
    rw [hp]
    exact State.answers_print (s := s) (t := s.brokenOff) rfl []
  · exact ⟨_, State.sessionTimeout_exec hu hc, State.lockSession_advanceTo _⟩
  · exact ⟨_, State.unlockLockoutExpiry_exec hx hc, rfl, rfl, rfl⟩
  · refine ⟨_, State.recoveryCtrlGo_exec hb (by simp [hs]) hv hgo, ?_⟩
    rw [State.writeRecovery_go hs hd hgo]
    exact State.startRecovery_locked true
  · exact ⟨_, State.lifecycle_exec true hx hlen hd, State.takeToken_locks hf hb⟩

end Sys2Proof.Machine
end

section
/-! PROOF. Rounding to nearest (R72 to R74): the code that a conversion comes to is one of the nearest in magnitude, and codes in
ascending order have ascending magnitudes, so that overflow and exact values follow from it. -/

namespace Sys2Proof.Machine

/-! ### Rounding to an integer -/

/-- An integer within one half of a value is a nearest one. -/
theorem abs_sub_le_of_half {x : ℚ} {n : ℤ} (h : |(n : ℚ) - x| ≤ 1 / 2) (a : ℤ) : |(n : ℚ) - x| ≤ |(a : ℚ) - x| := by
  obtain rfl | hne := eq_or_ne a n
  · exact le_rfl
  · have h1 : (1 : ℚ) ≤ |(a : ℚ) - n| := by exact_mod_cast Int.one_le_abs (sub_ne_zero.2 hne)
    have h2 : |(a : ℚ) - n| ≤ |(a : ℚ) - x| + |(n : ℚ) - x| := by
      rw [abs_sub_comm (n : ℚ) x]; exact abs_sub_le _ _ _
    linarith

theorem roundRatio_nearest_half (num : Nat) {den : Nat} (hd : 0 < den) :
    |(roundRatio .nearest num den : ℚ) - num / den| ≤ 1 / 2 := by
  have hq : (0 : ℚ) < den := by exact_mod_cast hd
  have hdiv : (den : ℚ) * (num / den : ℕ) + (num % den : ℕ) = num := by exact_mod_cast Nat.div_add_mod num den
  have hx : (num : ℚ) / den = (num / den : ℕ) + (num % den : ℕ) / den := by
    rw [eq_comm, ← hdiv]; field_simp
  have hlt : num % den < den := Nat.mod_lt _ hd
  unfold roundRatio
  dsimp only
  rw [hx]
  split
  · next h =>
    have h2 : den ≤ 2 * (num % den) := by
      simp only [Bool.or_eq_true, Bool.and_eq_true, decide_eq_true_eq, beq_iff_eq] at h
      omega
    have hge : (1 : ℚ) / 2 ≤ (num % den : ℕ) / den := by
      rw [div_le_div_iff₀ (by norm_num) hq]; exact_mod_cast (by omega : 1 * den ≤ (num % den) * 2)
    have hle : ((num % den : ℕ) : ℚ) / den ≤ 1 := by
      rw [div_le_one hq]; exact_mod_cast hlt.le
    push_cast
    rw [abs_le]; constructor <;> linarith
  · next h =>
    have h2 : 2 * (num % den) ≤ den := by
      simp only [Bool.or_eq_true, Bool.and_eq_true, decide_eq_true_eq, beq_iff_eq, not_or] at h
      omega
    have hle : ((num % den : ℕ) : ℚ) / den ≤ 1 / 2 := by
      rw [div_le_div_iff₀ hq (by norm_num)]; exact_mod_cast (by omega : (num % den) * 2 ≤ 1 * den)
    have h0 : (0 : ℚ) ≤ (num % den : ℕ) / den := by positivity
    rw [abs_le]; constructor <;> linarith

theorem roundShift_nearest_half (m : Nat) (k : Int) : |(roundShift .nearest m k : ℚ) - m * 2 ^ k| ≤ 1 / 2 := by
  unfold roundShift
  split
  · next hk =>
    obtain ⟨j, rfl⟩ := Int.eq_ofNat_of_zero_le hk
    rw [Int.toNat_natCast, Nat.shiftLeft_eq, zpow_natCast]
    push_cast
    norm_num
  · next hk =>
    obtain ⟨j, hj⟩ := Int.eq_ofNat_of_zero_le (show 0 ≤ -k by omega)
    obtain rfl : k = -(j : Int) := by omega
    rw [neg_neg, Int.toNat_natCast, zpow_neg, zpow_natCast, ← div_eq_mul_inv]
    exact_mod_cast roundRatio_nearest_half m (den := 2 ^ j) (by positivity)

/-! ### Codes and their magnitudes -/

variable {p : Nat}

/-- A significand of `n`, the carry into the next exponent included, in units of `2^k` (R73). -/
theorem codeMag_significand {k n : Nat} (h1 : k = 0 ∨ 2 ^ p ≤ n) (h2 : n ≤ 2 ^ (p + 1)) : codeMag p (k * 2 ^ p + n) = n * 2 ^ k := by
  have hp : 2 ^ (p + 1) = 2 ^ p + 2 ^ p := by ring
  obtain hlt | hge := Nat.lt_or_ge n (2 ^ p)
  · obtain rfl : k = 0 := h1.resolve_right (by omega)
    rw [Nat.zero_mul, Nat.zero_add, codeMag_of_lt hlt, pow_zero, Nat.mul_one]
  · obtain ⟨r, rfl⟩ := Nat.exists_eq_add_of_le hge
    obtain hr | rfl := Nat.lt_or_eq_of_le (show r ≤ 2 ^ p by omega)
    · rw [show k * 2 ^ p + (2 ^ p + r) = 2 ^ p * (k + 1) + r by ring, codeMag_normal k hr]
    · rw [show k * 2 ^ p + (2 ^ p + 2 ^ p) = 2 ^ p * (k + 1 + 1) + 0 by ring, codeMag_normal (k + 1) (by positivity)]
      ring

/-- From the magnitude `2^(p+k)` on, magnitudes are multiples of `2^k`. -/
theorem two_pow_dvd_codeMag_or_lt (k a : Nat) : 2 ^ k ∣ codeMag p a ∨ codeMag p a < 2 ^ (p + k) := by
  have hp : 0 < 2 ^ p := by positivity
  have hr := Nat.mod_lt a hp
  unfold codeMag
  split
  · exact .inr (hr.trans_le (Nat.pow_le_pow_right (by omega) (by omega)))
  · obtain hk | hk := Nat.lt_or_ge (a / 2 ^ p - 1) k
    · refine .inr ?_
      calc (2 ^ p + a % 2 ^ p) * 2 ^ (a / 2 ^ p - 1) < 2 ^ (p + 1) * 2 ^ (a / 2 ^ p - 1) :=
            Nat.mul_lt_mul_of_pos_right (by rw [pow_succ]; omega) (by positivity)
        _ = 2 ^ (p + 1 + (a / 2 ^ p - 1)) := (pow_add ..).symm
        _ ≤ 2 ^ (p + k) := Nat.pow_le_pow_right (by omega) (by omega)
    · exact .inl ((pow_dvd_pow 2 hk).mul_left _)

/-- A value `y × 2^k` of at least `p + 1` significant bits, or of the least exponent, rounds to a nearest code. -/
theorem codeMag_nearest {k n : Nat} {y : ℚ} (hn : |(n : ℚ) - y| ≤ 1 / 2) (hlo : k = 0 ∨ (2 : ℚ) ^ p ≤ y) (hhi : y < 2 ^ (p + 1))
    (a : Nat) : |(codeMag p (k * 2 ^ p + n) : ℚ) - y * 2 ^ k| ≤ |(codeMag p a : ℚ) - y * 2 ^ k| := by
  have hnear : ∀ c : Nat, |(n : ℚ) - y| ≤ |(c : ℚ) - y| := fun c => by exact_mod_cast abs_sub_le_of_half (n := n) hn c
  have hpow : (0 : ℚ) < 2 ^ k := by positivity
  have hlo' : k = 0 ∨ 2 ^ p ≤ n := hlo.imp_right fun h => by
    by_contra hlt
    have h1 : (n : ℚ) < 2 ^ p := by exact_mod_cast not_le.1 hlt
    have h2 := hnear (2 ^ p)
    push_cast at h2
    rw [abs_of_nonpos (by linarith), abs_of_nonpos (by linarith)] at h2
    linarith
  have hhi' : n ≤ 2 ^ (p + 1) := by
    by_contra hlt
    have h1 : (2 : ℚ) ^ (p + 1) < n := by exact_mod_cast not_le.1 hlt
    have h2 := hnear (2 ^ (p + 1))
    push_cast at h2
    rw [abs_of_pos (by linarith), abs_of_pos (by linarith)] at h2
    linarith
  have hscale : ∀ c : ℚ, |c * 2 ^ k - y * 2 ^ k| = |c - y| * 2 ^ k := fun c => by
    rw [← sub_mul, abs_mul, abs_of_pos hpow]
  rw [codeMag_significand hlo' hhi']
  push_cast
  rw [hscale]
  obtain ⟨c, hc⟩ | hlt := two_pow_dvd_codeMag_or_lt (p := p) k a
  · rw [hc, Nat.mul_comm]
    push_cast
    rw [hscale]
    exact mul_le_mul_of_nonneg_right (hnear c) hpow.le
  · obtain rfl | hy := hlo
    · simpa using hnear (codeMag p a)
    · have hc : (codeMag p a : ℚ) < 2 ^ p * 2 ^ k := by rw [← pow_add]; exact_mod_cast hlt
      have hx : (2 : ℚ) ^ p * 2 ^ k ≤ y * 2 ^ k := by gcongr
      have h2 := hnear (2 ^ p)
      push_cast at h2
      calc |(n : ℚ) - y| * 2 ^ k ≤ |(2 : ℚ) ^ p - y| * 2 ^ k := by gcongr
        _ = |(2 : ℚ) ^ p * 2 ^ k - y * 2 ^ k| := (hscale _).symm
        _ = y * 2 ^ k - 2 ^ p * 2 ^ k := by rw [abs_of_nonpos (by linarith)]; ring
        _ ≤ y * 2 ^ k - codeMag p a := by linarith
        _ ≤ |(codeMag p a : ℚ) - y * 2 ^ k| := by rw [abs_sub_comm]; exact le_abs_self _

/-! ### Decoding under any layout -/

variable {l : FloatLayout} {raw m : Nat} {s : Bool} {e : Int}

/-- The exponent above the fraction of an encoding below its sign. -/
theorem code_div (l : FloatLayout) (raw : Nat) : raw % 2 ^ (l.ebits + l.p) / 2 ^ l.p = bits raw l.p l.ebits := by
  rw [Nat.add_comm, pow_add, Nat.mod_mul_right_div_self, bits, Nat.shiftRight_eq_div_pow]

theorem code_mod (l : FloatLayout) (raw : Nat) : raw % 2 ^ (l.ebits + l.p) % 2 ^ l.p = raw % 2 ^ l.p :=
  Nat.mod_mod_of_dvd _ (pow_dvd_pow 2 (Nat.le_add_left _ _))

/-- The value of a finite encoding: its sign, and the magnitude of its code in units of the least subnormal (R63). -/
theorem decodeFloat_fin (h : decodeFloat l raw = .fin s m e) : s = bit raw (l.ebits + l.p) ∧
    (m : ℚ) * 2 ^ e = codeMag l.p (raw % 2 ^ (l.ebits + l.p)) * 2 ^ (1 - (l.bias : Int) - l.p) := by
  unfold decodeFloat at h
  dsimp only at h
  rw [codeMag, code_div, code_mod]
  split_ifs at h with _ _ _ h0
  · obtain ⟨rfl, rfl, rfl⟩ := Val.fin.inj h
    exact ⟨rfl, by rw [if_pos h0]⟩
  · obtain ⟨rfl, rfl, rfl⟩ := Val.fin.inj h
    obtain ⟨k, hk⟩ := Nat.exists_eq_succ_of_ne_zero h0
    refine ⟨rfl, ?_⟩
    rw [if_neg h0, hk, show ((k.succ : Nat) : Int) - l.bias - l.p = k + (1 - (l.bias : Int) - l.p) by push_cast; ring,
      zpow_add₀ (by norm_num)]
    push_cast
    rw [zpow_natCast]
    ring

/-- What the layouts of R63 have in common. -/
theorem floatLayouts_shape : ∀ l ∈ floatLayouts, 2 ≤ 2 ^ l.p ∧ 2 ≤ 2 ^ l.ebits ∧ (l.ieee && l.nanOnly) = false := by decide

/-- The largest finite code, over the codes below the all-ones exponent (R64). -/
theorem le_maxRaw_iff (hl : l ∈ floatLayouts) {ef fr : Nat} (hef : ef < 2 ^ l.ebits) (hfr : fr < 2 ^ l.p) :
    2 ^ l.p * ef + fr ≤ l.maxRaw ↔
      ¬((l.ieee && ef == 2 ^ l.ebits - 1) = true) ∧ ¬((l.nanOnly && ef == 2 ^ l.ebits - 1 && fr == 2 ^ l.p - 1) = true) := by
  obtain ⟨h2p, h2e, hx⟩ := floatLayouts_shape l hl
  have htop : 2 ^ (l.ebits + l.p) = 2 ^ l.p * (2 ^ l.ebits - 1) + 2 ^ l.p := by
    rw [← Nat.mul_succ, Nat.succ_eq_add_one, Nat.sub_add_cancel Nat.one_le_two_pow, ← pow_add, Nat.add_comm]
  have hup : ef = 2 ^ l.ebits - 1 ∨ 2 ^ l.p * ef + 2 ^ l.p ≤ 2 ^ l.p * (2 ^ l.ebits - 1) := by
    refine or_iff_not_imp_left.2 fun h => ?_
    rw [← Nat.mul_succ]; exact Nat.mul_le_mul_left _ (by omega)
  unfold FloatLayout.maxRaw
  dsimp only
  rw [htop]
  obtain rfl | hup := hup
  · have hT : 0 < 2 ^ l.p * (2 ^ l.ebits - 1) := Nat.mul_pos (by omega) (by omega)
    generalize 2 ^ l.p * (2 ^ l.ebits - 1) = T at *
    generalize 2 ^ l.p = P at *
    cases hi : l.ieee <;> cases hn : l.nanOnly
    · simp only [Bool.false_and, Bool.false_eq_true, if_false, not_false_eq_true, and_self, iff_true]; omega
    · simp only [Bool.false_and, Bool.true_and, beq_self_eq_true, beq_iff_eq, Bool.false_eq_true, if_false, if_true, not_false_eq_true,
        true_and]; omega
    · simp only [Bool.true_and, beq_self_eq_true, if_true, not_true_eq_false, false_and, iff_false]; omega
    · simp [hi, hn] at hx
  · have hne : ef ≠ 2 ^ l.ebits - 1 := fun h => by rw [h] at hup; have := Nat.one_le_two_pow (n := l.p); omega
    generalize 2 ^ l.p * (2 ^ l.ebits - 1) = T at *
    generalize 2 ^ l.p * ef = A at *
    simp only [beq_eq_false_iff_ne.2 hne, Bool.and_false, Bool.false_and, Bool.false_eq_true, not_false_eq_true, and_self, iff_true]
    split_ifs <;> omega

/-- The finite encodings are those whose code is at most the largest finite one (R64). -/
theorem exists_decodeFloat_fin_iff (hl : l ∈ floatLayouts) :
    (∃ s m e, decodeFloat l raw = .fin s m e) ↔ raw % 2 ^ (l.ebits + l.p) ≤ l.maxRaw := by
  have hda := Nat.div_add_mod (raw % 2 ^ (l.ebits + l.p)) (2 ^ l.p)
  rw [code_div, code_mod] at hda
  have hef : bits raw l.p l.ebits < 2 ^ l.ebits := Nat.mod_lt _ (by positivity)
  rw [← hda, le_maxRaw_iff hl hef (Nat.mod_lt _ (by positivity))]
  unfold decodeFloat
  dsimp only
  split_ifs with h1 hfr h2 h0
  · simp [h1]
  · simp [h1]
  · simp [h2]
  · exact ⟨fun _ => ⟨h1, h2⟩, fun _ => ⟨_, _, _, rfl⟩⟩
  · exact ⟨fun _ => ⟨h1, h2⟩, fun _ => ⟨_, _, _, rfl⟩⟩

/-! ### The code of a conversion -/

/-- The sign of an encoding, in its place. -/
def FloatLayout.signPart (l : FloatLayout) (s : Bool) : Nat := if s then 2 ^ (l.ebits + l.p) else 0

/-- The code to which a magnitude `m × 2^e` rounds, before the test for overflow (R72 to R74). -/
def FloatLayout.roundCode (l : FloatLayout) (m : Nat) (e : Int) : Nat :=
  let q := (if ilog2 m e < 1 - (l.bias : Int) then 1 - (l.bias : Int) else ilog2 m e) - l.p
  (q - (1 - (l.bias : Int) - l.p)).toNat * 2 ^ l.p + roundShift .nearest m (e - q)

theorem encodeFloat_fin {sat mx : Bool} (hm : m ≠ 0) : encodeFloat l .nearest sat mx (.fin s m e) =
    if l.roundCode m e > l.maxRaw then overflowFloat l sat mx s else ⟨l.signPart s + l.roundCode m e, 0, 0⟩ := by
  unfold encodeFloat
  dsimp only
  rw [if_neg hm]
  rfl

theorem encodeFloat_zero {sat mx : Bool} : encodeFloat l .nearest sat mx (.fin s 0 e) = ⟨l.signPart s, 0, 0⟩ := rfl

/-- A significand lies between the powers of two about its logarithm. -/
theorem ilog2_le (hm : m ≠ 0) : (2 : ℚ) ^ (ilog2 m e) ≤ m * 2 ^ e := by
  rw [ilog2, zpow_add₀ (by norm_num), zpow_natCast]
  gcongr
  exact_mod_cast Nat.log2_self_le hm

theorem lt_ilog2_succ : (m : ℚ) * 2 ^ e < 2 ^ (ilog2 m e + 1) := by
  rw [ilog2, add_right_comm, zpow_add₀ (by norm_num) (_ + 1)]
  gcongr
  exact_mod_cast Nat.lt_log2_self (n := m)

/-- No code has a magnitude nearer than the one a conversion comes to. -/
theorem roundCode_nearest (hm : m ≠ 0) (a : Nat) :
    |(codeMag l.p (l.roundCode m e) : ℚ) - m * 2 ^ (e - (1 - (l.bias : Int) - l.p))| ≤
      |(codeMag l.p a : ℚ) - m * 2 ^ (e - (1 - (l.bias : Int) - l.p))| := by
  have hlo := ilog2_le (e := e) hm
  have hhi := lt_ilog2_succ (m := m) (e := e)
  have two : (2 : ℚ) ≠ 0 := by norm_num
  unfold FloatLayout.roundCode
  dsimp only
  generalize hq : (if ilog2 m e < 1 - (l.bias : Int) then 1 - (l.bias : Int) else ilog2 m e) - l.p = q
  obtain ⟨k, hk⟩ := Int.eq_ofNat_of_zero_le (show 0 ≤ q - (1 - (l.bias : Int) - l.p) by split_ifs at hq <;> omega)
  have hshift : (m : ℚ) * 2 ^ (e - (1 - (l.bias : Int) - l.p)) = m * 2 ^ (e - q) * 2 ^ k := by
    rw [mul_assoc, ← zpow_natCast, ← zpow_add₀ two]
    congr 2
    omega
  have hdrop : ∀ i : Int, (m : ℚ) * 2 ^ (e - q) = m * 2 ^ e * 2 ^ (-q) := fun i => by
    rw [mul_assoc, ← zpow_add₀ two, sub_eq_add_neg]
  rw [hk, Int.toNat_natCast, hshift]
  refine codeMag_nearest (roundShift_nearest_half m (e - q)) ?_ ?_ a
  · split_ifs at hq with h
    · exact .inl (by omega)
    · refine .inr ?_
      rw [hdrop 0, show (2 : ℚ) ^ l.p = 2 ^ (ilog2 m e) * 2 ^ (-q) by
        rw [← zpow_add₀ two, ← zpow_natCast]; congr 1; omega]
      gcongr
  · rw [hdrop 0]
    calc (m : ℚ) * 2 ^ e * 2 ^ (-q) < 2 ^ (ilog2 m e + 1) * 2 ^ (-q) := by gcongr
      _ = 2 ^ (ilog2 m e + 1 - q) := by rw [← zpow_add₀ two, sub_eq_add_neg]
      _ ≤ 2 ^ ((l.p : Int) + 1) := zpow_le_zpow_right₀ (by norm_num) (by split_ifs at hq <;> omega)
      _ = 2 ^ (l.p + 1) := by rw [← zpow_natCast]; push_cast; rfl

/-! ### Encodings and codes -/

theorem signPart_add_mod {c : Nat} (hc : c < 2 ^ (l.ebits + l.p)) : (l.signPart s + c) % 2 ^ (l.ebits + l.p) = c := by
  cases s
  · simp [FloatLayout.signPart, Nat.mod_eq_of_lt hc]
  · simp [FloatLayout.signPart, Nat.mod_eq_of_lt hc]

theorem bit_signPart_add {c : Nat} (hc : c < 2 ^ (l.ebits + l.p)) : bit (l.signPart s + c) (l.ebits + l.p) = s := by
  rw [bit, Nat.shiftRight_eq_div_pow]
  cases s
  · simp [FloatLayout.signPart, Nat.div_eq_of_lt hc]
  · simp [FloatLayout.signPart, Nat.add_div_left _ (Nat.two_pow_pos _), Nat.div_eq_of_lt hc]

/-- An encoding is its sign above its code. -/
theorem eq_signPart_add (h : raw < 2 ^ (l.ebits + l.p + 1)) :
    raw = l.signPart (bit raw (l.ebits + l.p)) + raw % 2 ^ (l.ebits + l.p) := by
  have hd := Nat.div_add_mod raw (2 ^ (l.ebits + l.p))
  have h2 : raw / 2 ^ (l.ebits + l.p) < 2 := Nat.div_lt_of_lt_mul (by rw [← pow_succ]; exact h)
  rw [bit, Nat.shiftRight_eq_div_pow, Nat.mod_eq_of_lt h2, FloatLayout.signPart]
  obtain h0 | h1 := Nat.le_one_iff_eq_zero_or_eq_one.1 (Nat.lt_succ_iff.1 h2)
  · rw [h0] at hd ⊢; simpa using hd.symm
  · rw [h1] at hd ⊢; simpa using hd.symm

theorem maxRaw_lt (l : FloatLayout) : l.maxRaw < 2 ^ (l.ebits + l.p) := by
  have h : 0 < 2 ^ (l.ebits + l.p) := by positivity
  unfold FloatLayout.maxRaw
  dsimp only
  generalize 2 ^ (l.ebits + l.p) = n at *
  generalize 2 ^ l.p = P
  split_ifs <;> omega

/-- A code of which none of the layout is nearer to a magnitude gives, with the sign, an encoding that none is nearer to. -/
theorem nearest_of_code (hl : l ∈ floatLayouts) {c n : Nat} {q : Bool} {f : Int} (hc : c ≤ l.maxRaw)
    (hn : ∀ a ≤ l.maxRaw, |(codeMag l.p c : ℚ) - m * 2 ^ (e - (1 - (l.bias : Int) - l.p))| ≤
      |(codeMag l.p a : ℚ) - m * 2 ^ (e - (1 - (l.bias : Int) - l.p))|)
    (hd : decodeFloat l (l.signPart s + c) = .fin q n f) :
    q = s ∧ ∀ (raw : Nat) (r : Bool) (o : Nat) (g : Int), decodeFloat l raw = .fin r o g →
      |Val.rat (.fin q n f) - Val.rat (.fin s m e)| ≤ |Val.rat (.fin r o g) - Val.rat (.fin s m e)| := by
  have hlt : c < 2 ^ (l.ebits + l.p) := hc.trans_lt (maxRaw_lt l)
  obtain ⟨hq, hv⟩ := decodeFloat_fin hd
  rw [bit_signPart_add hlt] at hq
  rw [signPart_add_mod hlt] at hv
  refine ⟨hq, fun raw r o g hr => ?_⟩
  obtain ⟨-, hw⟩ := decodeFloat_fin hr
  have hle := hn _ ((exists_decodeFloat_fin_iff hl).1 ⟨r, o, g, hr⟩)
  subst hq
  generalize hu : 1 - (l.bias : Int) - l.p = u at hv hw hle
  have hx : (m : ℚ) * 2 ^ e = m * 2 ^ (e - u) * 2 ^ u := by
    rw [mul_assoc, ← zpow_add₀ (by norm_num), sub_add_cancel]
  have hupos : (0 : ℚ) < 2 ^ u := by positivity
  have hmul : |(codeMag l.p c : ℚ) * 2 ^ u - m * 2 ^ (e - u) * 2 ^ u| ≤
      |(codeMag l.p (raw % 2 ^ (l.ebits + l.p)) : ℚ) * 2 ^ u - m * 2 ^ (e - u) * 2 ^ u| := by
    rw [← sub_mul, ← sub_mul, abs_mul, abs_mul]
    gcongr
  have hopp : |(codeMag l.p (raw % 2 ^ (l.ebits + l.p)) : ℚ) * 2 ^ u - m * 2 ^ (e - u) * 2 ^ u| ≤
      |(codeMag l.p (raw % 2 ^ (l.ebits + l.p)) : ℚ) * 2 ^ u + m * 2 ^ (e - u) * 2 ^ u| := by
    have h1 : (0 : ℚ) ≤ codeMag l.p (raw % 2 ^ (l.ebits + l.p)) * 2 ^ u := by positivity
    have h2 : (0 : ℚ) ≤ m * 2 ^ (e - u) * 2 ^ u := by positivity
    rw [abs_of_nonneg (add_nonneg h1 h2), abs_le]
    constructor <;> linarith
  simp only [Val.rat, mul_assoc]
  rw [hv, hw, hx]
  have key := hmul.trans hopp
  generalize (codeMag l.p c : ℚ) * 2 ^ u = C at *
  generalize (codeMag l.p (raw % 2 ^ (l.ebits + l.p)) : ℚ) * 2 ^ u = R at *
  generalize (m : ℚ) * 2 ^ (e - u) * 2 ^ u = X at *
  have hneg : ∀ A B : ℚ, |-1 * A - -1 * B| = |A - B| := fun A B => by
    rw [show -1 * A - -1 * B = -(A - B) by ring, abs_neg]
  cases q <;> cases r <;> simp only [if_true, Bool.false_eq_true, if_false, one_mul]
  · exact hmul
  · rwa [show -1 * R - X = -(R + X) by ring, abs_neg]
  · rwa [hneg, show R - -1 * X = R + X by ring]
  · rwa [hneg, hneg]

/-- Overflow gives the largest finite code, or an encoding that is not finite (R74). -/
theorem overflowFloat_raw (hl : l ∈ floatLayouts) (sat mx s : Bool) : (overflowFloat l sat mx s).raw = l.signPart s + l.maxRaw ∨
    ∀ q n f, decodeFloat l (overflowFloat l sat mx s).raw ≠ .fin q n f := by
  have hpow : (2 ^ l.ebits - 1) * 2 ^ l.p + 2 ^ l.p = 2 ^ (l.ebits + l.p) := by
    rw [← Nat.succ_mul, Nat.succ_eq_add_one, Nat.sub_add_cancel Nat.one_le_two_pow, pow_add]
  obtain ⟨h2p, h2e, -⟩ := floatLayouts_shape l hl
  have hover : overflowFloat l sat mx s = if mx then ⟨l.signPart s + l.maxRaw, 0, 0⟩
      else if sat || !(l.ieee || l.nanOnly) then ⟨l.signPart s + l.maxRaw, 1, 0⟩
      else if l.ieee then ⟨l.signPart s + (2 ^ l.ebits - 1) * 2 ^ l.p, 0, 0⟩ else ⟨2 ^ (l.ebits + l.p) - 1, 0, 0⟩ := rfl
  rw [hover]
  split_ifs with h1 h2 h3
  · exact .inl rfl
  · exact .inl rfl
  · refine .inr fun q n f h => ?_
    have hfin := (exists_decodeFloat_fin_iff hl).1 ⟨q, n, f, h⟩
    have hlt : (2 ^ l.ebits - 1) * 2 ^ l.p < 2 ^ (l.ebits + l.p) := by omega
    simp only [signPart_add_mod hlt, FloatLayout.maxRaw, if_pos h3] at hfin
    have hT : 0 < (2 ^ l.ebits - 1) * 2 ^ l.p := Nat.mul_pos (by omega) (by omega)
    omega
  · refine .inr fun q n f h => ?_
    have hfin := (exists_decodeFloat_fin_iff hl).1 ⟨q, n, f, h⟩
    have hn : l.nanOnly = true := by
      simp only [h3, Bool.false_or, Bool.or_eq_true, not_or, Bool.not_eq_true', Bool.not_eq_false] at h2
      exact h2.2
    have hlt : 2 ^ (l.ebits + l.p) - 1 < 2 ^ (l.ebits + l.p) := by omega
    simp only [Nat.mod_eq_of_lt hlt, FloatLayout.maxRaw, if_neg h3, if_pos hn] at hfin
    omega

/-- Of the codes up to the largest finite one, that one is nearest to a magnitude whose nearest code lies above it (R74). -/
theorem maxRaw_nearest (hm : m ≠ 0) (h : l.maxRaw < l.roundCode m e) {a : Nat} (ha : a ≤ l.maxRaw) :
    |(codeMag l.p l.maxRaw : ℚ) - m * 2 ^ (e - (1 - (l.bias : Int) - l.p))| ≤
      |(codeMag l.p a : ℚ) - m * 2 ^ (e - (1 - (l.bias : Int) - l.p))| := by
  have hnear := roundCode_nearest (l := l) (e := e) hm l.maxRaw
  have hup : (codeMag l.p l.maxRaw : ℚ) < codeMag l.p (l.roundCode m e) := by exact_mod_cast codeMag_strictMono _ h
  have hdown : (codeMag l.p a : ℚ) ≤ codeMag l.p l.maxRaw := by exact_mod_cast (codeMag_strictMono _).monotone ha
  generalize (m : ℚ) * 2 ^ (e - (1 - (l.bias : Int) - l.p)) = x at *
  obtain hx | hx := le_total x (codeMag l.p l.maxRaw)
  · rw [abs_of_nonneg (by linarith), abs_of_nonneg (by linarith)] at hnear
    linarith
  · rw [abs_of_nonpos (by linarith), abs_of_nonpos (by linarith)]
    linarith

/-- A conversion to nearest, where it comes to a finite encoding. -/
theorem encodeFloat_nearest (hl : l ∈ floatLayouts) {sat mx q : Bool} {n : Nat} {f : Int}
    (hd : decodeFloat l (encodeFloat l .nearest sat mx (.fin s m e)).raw = .fin q n f) :
    q = s ∧ ∀ (raw : Nat) (r : Bool) (o : Nat) (g : Int), decodeFloat l raw = .fin r o g →
      |Val.rat (.fin q n f) - Val.rat (.fin s m e)| ≤ |Val.rat (.fin r o g) - Val.rat (.fin s m e)| := by
  by_cases hm : m = 0
  · subst hm
    rw [encodeFloat_zero] at hd
    refine nearest_of_code hl (c := 0) (Nat.zero_le _) (fun a _ => ?_) hd
    simp [codeMag_of_lt]
  · rw [encodeFloat_fin hm] at hd
    split_ifs at hd with h
    · obtain ho | ho := overflowFloat_raw hl sat mx s
      · rw [ho] at hd
        exact nearest_of_code hl le_rfl (fun a ha => maxRaw_nearest hm h ha) hd
      · exact absurd hd (ho q n f)
    · exact nearest_of_code hl (not_lt.1 h) (fun a _ => roundCode_nearest hm a) hd

/-- A finite encoding is what its own value rounds to: its code alone has its magnitude. -/
theorem encodeFloat_decodeFloat (hl : l ∈ floatLayouts) {sat mx : Bool} (hraw : raw < 2 ^ (l.ebits + l.p + 1))
    (h : decodeFloat l raw = .fin s m e) : encodeFloat l .nearest sat mx (.fin s m e) = ⟨raw, 0, 0⟩ := by
  obtain ⟨hs, hv⟩ := decodeFloat_fin h
  have hsum := eq_signPart_add hraw
  rw [← hs] at hsum
  have hmag : (m : ℚ) * 2 ^ (e - (1 - (l.bias : Int) - l.p)) = codeMag l.p (raw % 2 ^ (l.ebits + l.p)) := by
    rw [sub_eq_add_neg, zpow_add₀ (by norm_num), ← mul_assoc, hv, mul_assoc, ← zpow_add₀ (by norm_num), add_neg_cancel, zpow_zero,
      mul_one]
  by_cases hm : m = 0
  · subst hm
    have hc : raw % 2 ^ (l.ebits + l.p) = 0 := by
      refine (codeMag_strictMono l.p).injective ?_
      rw [codeMag_of_lt (a := 0) (by positivity)]
      rw [Nat.cast_zero, zero_mul] at hmag
      exact_mod_cast hmag.symm
    rw [encodeFloat_zero, ← show raw = l.signPart s by rw [hc] at hsum; exact hsum]
  · have hnear := roundCode_nearest (l := l) (e := e) hm (raw % 2 ^ (l.ebits + l.p))
    rw [hmag, sub_self, abs_zero, abs_nonpos_iff, sub_eq_zero] at hnear
    have hcode : l.roundCode m e = raw % 2 ^ (l.ebits + l.p) := (codeMag_strictMono _).injective (by exact_mod_cast hnear)
    rw [encodeFloat_fin hm, hcode, if_neg (not_lt.2 ((exists_decodeFloat_fin_iff hl).1 ⟨s, m, e, h⟩)), ← hsum]

/-- Settles O40: codes are the magnitudes in ascending order, the code of a conversion is a nearest one, and what lies above the
largest finite one is clamped to it or is not finite. -/
theorem roundingToNearest : Obligations.RoundingToNearest := by
  unfold Obligations.RoundingToNearest
  exact fun l hl sat mx => ⟨fun p q m n e f h => encodeFloat_nearest hl h, fun raw r o g hraw h => encodeFloat_decodeFloat hl hraw h⟩

end Sys2Proof.Machine
end

section
/-! PROOF. Exact sums, products and comparisons of finite values (R80, R83, R86), over the integers that they are at the lower of
two exponents. -/

namespace Sys2Proof.Machine

/-- A value as an integer in units of a power of two at or below its own. -/
theorem rat_eq_intAt {k : Int} {s : Bool} {m : Nat} {e : Int} (h : k ≤ e) :
    Val.rat (.fin s m e) = (intAt k s m e : ℚ) * 2 ^ k := by
  obtain ⟨j, hj⟩ := Int.eq_ofNat_of_zero_le (show 0 ≤ e - k by omega)
  obtain rfl : e = k + j := by omega
  have hval : (intAt k s m (k + j) : ℚ) = (if s then -1 else 1) * (m * 2 ^ j) := by
    rw [intAt, show (k + (j : Int) - k).toNat = j by omega, Nat.shiftLeft_eq]
    cases s
    · simp
    · simp
  rw [hval, Val.rat, zpow_add₀ (by norm_num), zpow_natCast]
  ring

section Finite

variable (p q : Bool) (m n : Nat) (e f : Int)

/-- The exact sum (R83). -/
theorem rat_addVal : (addVal (.fin p m e) (.fin q n f)).rat = Val.rat (.fin p m e) + Val.rat (.fin q n f) := by
  rw [rat_eq_intAt (min_le_left e f), rat_eq_intAt (min_le_right e f), ← add_mul]
  unfold addVal
  dsimp only
  split
  · next h => rw [← Int.cast_add, h]; simp [Val.rat]
  · rw [rat_fin_natAbs, Int.cast_add]

/-- The exact product (R80). -/
theorem rat_mulVal : (mulVal (.fin p m e) (.fin q n f)).rat = Val.rat (.fin p m e) * Val.rat (.fin q n f) := by
  simp only [mulVal, Val.rat, Nat.cast_mul, zpow_add₀ (show (2 : ℚ) ≠ 0 by norm_num)]
  cases p <;> cases q <;> simp <;> ring

/-- Values are ordered as their rational values (R86). -/
theorem ltVal_iff : ltVal (.fin p m e) (.fin q n f) = true ↔ Val.rat (.fin p m e) < Val.rat (.fin q n f) := by
  rw [rat_eq_intAt (min_le_left e f), rat_eq_intAt (min_le_right e f), mul_lt_mul_iff_left₀ (by positivity), Int.cast_lt, ltVal,
    decide_eq_true_eq]

/-- The larger of two values has the larger rational value; of equal ones the sign decides (R86). -/
theorem rat_maxVal : (maxVal (.fin p m e) (.fin q n f)).rat = max (Val.rat (.fin p m e)) (Val.rat (.fin q n f)) := by
  have h0 : ((Val.fin p m e).isNan || (Val.fin q n f).isNan) = false := rfl
  simp only [maxVal, h0, Bool.false_eq_true, if_false, ltVal_iff]
  split_ifs with h1 h2
  · rw [max_eq_right h1.le]
  · rw [max_eq_left h2.le]
  · rw [max_eq_right (not_lt.1 h2)]
  · rw [max_eq_left (not_lt.1 h1)]

theorem rat_minVal : (minVal (.fin p m e) (.fin q n f)).rat = min (Val.rat (.fin p m e)) (Val.rat (.fin q n f)) := by
  have h0 : ((Val.fin p m e).isNan || (Val.fin q n f).isNan) = false := rfl
  simp only [minVal, h0, Bool.false_eq_true, if_false, ltVal_iff]
  split_ifs with h1 h2
  · rw [min_eq_left h1.le]
  · rw [min_eq_right h2.le]
  · rw [min_eq_left (not_lt.1 h2)]
  · rw [min_eq_right (not_lt.1 h1)]

end Finite

section NotANumber

variable (v : Val)

/-- NaN on either side makes every result NaN (R80, R86). -/
theorem nan_left : addVal .nan v = .nan ∧ mulVal .nan v = .nan ∧ maxVal .nan v = .nan ∧ minVal .nan v = .nan := ⟨rfl, rfl, rfl, rfl⟩

theorem nan_right : addVal v .nan = .nan ∧ mulVal v .nan = .nan ∧ maxVal v .nan = .nan ∧ minVal v .nan = .nan := by
  cases v <;> exact ⟨rfl, rfl, rfl, rfl⟩

end NotANumber

/-- Settles O39: finite values are integers at the lower of their exponents, where sums and comparisons are those of integers. -/
theorem exactSumsAndProducts : Obligations.ExactSumsAndProducts := by
  unfold Obligations.ExactSumsAndProducts
  intro p q m n e f v
  obtain ⟨hal, hml, hxl, hnl⟩ := nan_left v
  obtain ⟨har, hmr, hxr, hnr⟩ := nan_right v
  refine ⟨rat_addVal p q m n e f, rat_mulVal p q m n e f, ltVal_iff p q m n e f, rat_maxVal p q m n e f, rat_minVal p q m n e f,
    ?_, rfl, fun hm => if_neg hm, rfl, hal, har, hml, hmr, hxl, hxr, hnl, hnr⟩
  exact if_neg (by cases p <;> decide)

end Sys2Proof.Machine
end

section
/-! PROOF. The queue and the empty queue, reset, and the rows of the input switch (R399, R425, R496, R497): each that opens it comes
to `openSwitch`, which leaves what `bare` does. -/

namespace Sys2Proof.Machine

variable {s t : State}

/-! ### Steps and reset -/

/-- One cycle in holdover with a slew rate kept, or in any other case (R422). -/
theorem State.tick_plain (h : s.fabric.lock ≠ .holdover ∨ s.fabric.slewRate = none) :
    s.tick = { s with cairn := (s.cairn + 4) % 2 ^ 64 } := by
  unfold State.tick
  split
  · next n up hr =>
    have hl : (s.fabric.lock == .holdover) = false := by simpa [hr] using h
    simp [hl]
  · rfl

theorem State.tick_holdover {n : Nat} {up : Bool} (hl : s.fabric.lock = .holdover) (hr : s.fabric.slewRate = some (n, up)) :
    s.tick = if n ≤ cairnSince s.fabric.lastSlew s.cairn then
        { s with cairn := (s.cairn + if up then 8 else 0) % 2 ^ 64
                 fabric := { s.fabric with lastSlew := (s.cairn + if up then 8 else 0) % 2 ^ 64 } }
      else { s with cairn := (s.cairn + 4) % 2 ^ 64 } := by
  unfold State.tick
  rw [hr, hl]
  simp

theorem State.step_idle (h : s.pending = []) : step s = .next s.idle := by
  unfold step
  split
  · rfl
  · next hc => rw [h] at hc; cases hc

/-- Settles O1: `step` is `exec` for a waiting command, and one `tick` of the Cairn where none waits and it runs. -/
theorem stepRunsFrontCommand : Obligations.StepRunsFrontCommand := by
  unfold Obligations.StepRunsFrontCommand
  refine ⟨fun c rest s h => by rw [step, h], fun s h hl => ?_, fun s n up h hl hr => ?_⟩
  · rw [State.step_idle h, State.idle, State.tick_plain hl]
    split <;> rfl
  · rw [State.step_idle h, State.idle, State.tick_holdover hl hr]
    cases s.cairnOn <;> rfl

/-- Settles O5: the values stand in the definition of reset. -/
theorem resetState : Obligations.ResetState := by
  unfold Obligations.ResetState
  exact ⟨rfl, rfl, rfl, rfl, rfl, rfl, rfl, rfl, rfl, rfl, rfl, rfl, rfl, rfl, rfl, rfl, rfl, rfl, rfl, rfl, rfl, rfl, rfl, rfl,
    State.memWf_reset, rfl, rfl, rfl⟩

/-! ### The power-off path -/

/-- What every command that opens the closed switch leaves of a state (R399, R497). -/
def State.PoweredOff (s t : State) (cause : Nat) : Prop :=
  t.hotSwap.switchOn = false ∧ t.hotSwap.cause = cause ∧ t.hotSwap.unread = true ∧ t.hotSwap.attn = true ∧
    t.tiles = [] ∧ t.graphs = [] ∧ t.tracker = .reset ∧ t.planes = .reset ∧ t.fabric = .reset ∧ t.regs = .reset ∧
    t.mem = .reset ∧ t.power = .reset ∧ t.dump = .reset ∧ t.shutdown = .reset ∧ t.fw = .reset ∧ t.mgmt = .reset ∧
    t.cairn = 0 ∧ t.seq = .idle ∧ t.host.sq = [] ∧ t.host.cq = [] ∧ t.host.hv = [] ∧ t.host.descs = [] ∧
    t.fuses = s.fuses ∧ t.ledger.defects = s.ledger.defects ∧ t.ledger.results = s.ledger.results ∧
    t.ledger.image = s.ledger.image ∧ t.pending = s.pending

/-- The switch opened from a state that has kept the fuses, the queue, and the ledger but for its events. -/
theorem State.openSwitch_poweredOff {u : State} {cause : Nat} (hon : u.hotSwap.switchOn = true) (hf : u.fuses = s.fuses)
    (hp : u.pending = s.pending) (hl : ∃ es, u.ledger = { s.ledger with events := es }) : s.PoweredOff (u.openSwitch cause) cause := by
  obtain ⟨es, hl⟩ := hl
  have hd : u.ledger.defects = s.ledger.defects := by rw [hl]
  have hr : u.ledger.results = s.ledger.results := by rw [hl]
  have hi : u.ledger.image = s.ledger.image := by rw [hl]
  rw [State.openSwitch, if_neg (by simp [hon])]
  exact ⟨rfl, rfl, rfl, rfl, rfl, rfl, rfl, rfl, rfl, rfl, rfl, rfl, rfl, rfl, rfl, rfl, rfl, rfl, rfl, rfl, rfl, rfl, hf, hd, hr, hi,
    hp⟩

/-- An event appends to the ledger's events alone (R490). -/
@[simp] theorem State.raise_ledger (c x y z : Nat) :
    (s.raise c x y z).ledger = { s.ledger with events := s.ledger.events ++ [(s.cairn, ⟨c, x, y, z⟩)] } := by
  obtain ⟨_, _, _, -, h⟩ := State.raise_frame (s := s) c x y z
  rw [h]

/-- Thermal limiting that begins reaches the power flag, the alert and its event (R413). -/
theorem State.limitHeat_frame (c i : Nat) : ∃ mg es h, s.limitHeat c i = { s with
    power := { s.power with limThermal := true }, mgmt := mg, ledger := { s.ledger with events := es }, host := h } := by
  unfold State.limitHeat
  split
  · next hl => exact ⟨s.mgmt, s.ledger.events, s.host, by rw [← hl]⟩
  · obtain ⟨_, _, _, -, h⟩ := State.raise_frame (s := State.alert 1 { s with power := { s.power with limThermal := true } }) 0x170A c i 0
    exact ⟨_, _, _, h⟩

theorem State.managed_of (hon : s.hotSwap.switchOn = true) (hf : s.fw.running = true) : s.managed = true := by
  simp [State.managed, hon, hf]

theorem State.powerCycle_exec (h : s.hotSwap.powerOff = false) : exec (.powerCycle true) s = .next (s.openSwitch 9) := by
  show execPowerCycle true s = _
  rw [execPowerCycle, if_neg (by simp [h])]

theorem State.brownoutReset_exec {mv : Nat} (hon : s.hotSwap.switchOn = true) (h : mv < 40000) :
    exec (.brownoutReset mv) s = .next ((s.seeInput mv).openSwitch 1) := by
  show execBrownoutReset mv s = _
  rw [execBrownoutReset, if_neg (by simp [hon, h])]

theorem State.inputOvervoltageTrip_exec {mv : Nat} (hon : s.hotSwap.switchOn = true) (h : 60000 < mv) :
    exec (.inputOvervoltageTrip mv) s = .next ((s.seeInput mv).openSwitch 2) := by
  show execInputOvervoltageTrip mv s = _
  rw [execInputOvervoltageTrip, if_neg (by simp [hon, h])]

theorem State.clockLost_exec (hm : s.managed = true) : exec .clockLost s = .next ((s.ledgerEvent 0x1F06 0 0 0).openSwitch 6) := by
  show execClockLost s = _
  rw [execClockLost, if_neg (by simp [hm])]

/-- The report of a further failed converter (R400, R501). -/
def State.converterFailed (n : Nat) (s : State) : State :=
  (State.alert 2 { s with power := { s.power with ibcFailed := s.power.ibcFailed ++ [n] } }).raise 0x1704 0 n
    (s.power.ibcFailed ++ [n]).length

theorem State.ibcFail_exec {n : Nat} (hm : s.managed = true) (hn : n < 8) (hnew : n ∉ s.power.ibcFailed) :
    exec (.ibcFail n) s =
      .next (if 6 ≤ (s.power.ibcFailed ++ [n]).length then (s.converterFailed n).openSwitch 3 else s.converterFailed n) := by
  show execIbcFail n s = _
  rw [execIbcFail, onUnit, if_pos (by simpa using hn), if_neg (by simp [hm, hnew])]
  rfl

theorem State.thermalTrip_exec {celsius island : Nat} (hm : s.managed = true) (hc : 115 < celsius) (hlo : 356 ≤ island)
    (hhi : island < 368) : exec (.thermalTrip celsius island) s = .next ((s.limitHeat celsius island).openSwitch 5) := by
  show execThermalTrip celsius island s = _
  rw [execThermalTrip, onUnit, if_pos (by simpa using hhi), if_neg (by simp [hm, hc, hlo])]

theorem State.inputSwitchClose_exec {mv : Nat} (hw : s.hotSwap.switchOn = false) (hd : s.hotSwap.pwrDis = false)
    (ho : s.hotSwap.powerOff = false) (hlo : 44000 ≤ mv) (hhi : mv ≤ 57000) : exec (.inputSwitchClose mv) s =
      .next (State.coldStart { s with hotSwap := { s.hotSwap with
        present := true, inRange := true, vin := mv, switchOn := true, ramping := true } }) := by
  show execInputSwitchClose mv s = _
  rw [execInputSwitchClose, if_neg (by simp [hw, hd, ho, hlo, hhi])]

/-- Settles O7: each of the nine rows passes its own condition and comes to `openSwitch`. -/
theorem powerOffPathOpensSwitch : Obligations.PowerOffPathOpensSwitch := by
  unfold Obligations.PowerOffPathOpensSwitch
  intro s c cause hon hc
  show ∃ t, exec c s = .next t ∧ s.PoweredOff t cause
  have direct (u : State) (hu : u.hotSwap.switchOn = true) (hf : u.fuses = s.fuses) (hp : u.pending = s.pending)
      (hl : u.ledger = s.ledger) (n : Nat) : s.PoweredOff (u.openSwitch n) n :=
    State.openSwitch_poweredOff hu hf hp ⟨s.ledger.events, hl⟩
  rcases hc with ⟨rfl, rfl⟩ | ⟨rfl, rfl⟩ | ⟨rfl, rfl⟩ | ⟨rfl, hoff, rfl⟩ | ⟨mv, hmv, rfl, rfl⟩ | ⟨mv, hmv, rfl, rfl⟩ |
    ⟨n, hn, hnew, hk, hf, rfl, rfl⟩ | ⟨celsius, island, hcel, hlo, hhi, hf, rfl, rfl⟩ | ⟨hf, rfl, rfl⟩
  · exact ⟨_, rfl, direct { s with hotSwap := { s.hotSwap with present := false } } hon rfl rfl rfl 7⟩
  · exact ⟨_, rfl, direct { s with hotSwap := { s.hotSwap with pwrDis := true } } hon rfl rfl rfl 8⟩
  · exact ⟨_, rfl, direct { s with hotSwap := { s.hotSwap with powerOff := true } } hon rfl rfl rfl 9⟩
  · exact ⟨_, State.powerCycle_exec hoff, direct s hon rfl rfl rfl 9⟩
  · exact ⟨_, State.brownoutReset_exec hon hmv, direct (s.seeInput mv) hon rfl rfl rfl 1⟩
  · exact ⟨_, State.inputOvervoltageTrip_exec hon hmv, direct (s.seeInput mv) hon rfl rfl rfl 2⟩
  · have hlen : 6 ≤ (s.power.ibcFailed ++ [n]).length := by simpa using hk
    refine ⟨_, State.ibcFail_exec (State.managed_of hon hf) hn hnew, ?_⟩
    rw [if_pos hlen]
    exact State.openSwitch_poweredOff (by simpa [State.converterFailed] using hon) (by simp [State.converterFailed])
      (by simp [State.converterFailed]) ⟨_, State.raise_ledger ..⟩
  · refine ⟨_, State.thermalTrip_exec (State.managed_of hon hf) hcel hlo hhi, ?_⟩
    obtain ⟨_, es, _, h⟩ := State.limitHeat_frame (s := s) celsius island
    rw [h]
    exact State.openSwitch_poweredOff hon rfl rfl ⟨es, rfl⟩
  · exact ⟨_, State.clockLost_exec (State.managed_of hon hf), State.openSwitch_poweredOff hon rfl rfl ⟨_, rfl⟩⟩

/-- Settles O8: in range and with its enables the row is `coldStart`, and otherwise nothing. -/
theorem inputSwitchStartsColdStart : Obligations.InputSwitchStartsColdStart := by
  unfold Obligations.InputSwitchStartsColdStart
  intro s mv
  refine ⟨fun hw hd ho hlo hhi => ?_, fun h => ?_⟩
  · exact ⟨_, State.inputSwitchClose_exec hw hd ho hlo hhi, rfl, rfl, rfl, rfl, rfl, rfl, rfl, rfl, rfl, rfl, rfl, rfl, rfl, rfl⟩
  · show execInputSwitchClose mv s = _
    rw [execInputSwitchClose, if_pos]
    simpa [or_assoc] using h

/-! ### Registers of the management set -/

theorem State.mgmtAnswers_of (hon : s.hotSwap.switchOn = true) (hf : s.fw.running = true) : s.mgmtAnswers = true := by
  simp [State.mgmtAnswers, hon, hf]

theorem State.managementWrite_exec (hon : s.hotSwap.switchOn = true) (hf : s.fw.running = true) {off : Nat} (b : List Byte)
    (ho : (decide (off < 256) && off != 0x1C && off != 0x20) = true) :
    exec (.smbusRegisterWrite .management off b true) s = .next (s.writeMgmt off b) := by
  show execSmbusRegisterWrite .management off b true s = _
  simp only [execSmbusRegisterWrite, ho, State.mgmtAnswers_of hon hf, onUnit, Bool.and_self, if_true]

theorem State.mgCoordWrite_exec (hon : s.hotSwap.switchOn = true) (hf : s.fw.running = true) (v : Nat) :
    exec (.mgCoordWrite v true) s = .next (if bit v 14 = true then
      ({ s with mgmt := { s.mgmt with coord := v % 2 ^ 15 } } : State).takeCoord (v % 2 ^ 14)
      else { s with mgmt := { s.mgmt with coord := v % 2 ^ 15 } }) := by
  show execMgCoordWrite v true s = _
  rw [execMgCoordWrite, if_neg (by simp [State.mgmtAnswers_of hon hf])]

theorem State.takeCoord_refused {m : Nat} (h : idIn s.fabric.dims m = false ∨ s.fabric.everUp = true ∧ s.fabric.source ≠ 0 ∧
    s.fabric.id ≠ m) : s.takeCoord m = s.alert 4 := by
  unfold State.takeCoord
  dsimp only
  rw [if_pos]
  simpa [and_assoc] using h

/-- Coordinates from the sideband taken into use reach the fabric, and the report of a module that becomes its own master. -/
theorem State.takeCoord_taken {m : Nat} (hin : idIn s.fabric.dims m = true) (hup : s.fabric.everUp = false) :
    ∃ f l h, s.takeCoord m = { s with fabric := f, ledger := l, host := h } ∧ f.id = m ∧ f.source = 1 := by
  unfold State.takeCoord
  dsimp only
  rw [if_neg (by simp [hin, hup])]
  split
  · next h =>
    obtain ⟨hsrc, hid⟩ : s.fabric.source = 1 ∧ s.fabric.id = m := by simpa using h
    exact ⟨s.fabric, s.ledger, s.host, rfl, hid, hsrc⟩
  · obtain ⟨k, d, o, l, h, hk⟩ := State.lockSelf_frame (s := State.refreshId { s with fabric := { s.fabric with sideband := some m } })
    have hid := State.refreshId_id_of_sideband (s := { s with fabric := { s.fabric with sideband := some m } }) rfl
    obtain ⟨f, hf⟩ := State.refreshId_frame (s := { s with fabric := { s.fabric with sideband := some m } })
    have hsrc : (State.refreshId { s with fabric := { s.fabric with sideband := some m } }).fabric.source = 1 := rfl
    rw [hf] at hid hsrc hk
    rw [hf]
    exact ⟨_, _, _, hk, hid, hsrc⟩

/-- Settles O10: a block write is `writeMgmt` at its offset, and `MG_COORD` with `VALID` is refused or taken into use. -/
theorem managementRegisterWrites : Obligations.ManagementRegisterWrites := by
  unfold Obligations.ManagementRegisterWrites
  intro s hon hf
  refine ⟨fun b hb => ?_, fun b hb => ⟨?_, ?_, ?_⟩, fun b hb => ?_, fun v hv => ?_, fun v hv hr => ?_, fun v hv hin hup => ?_⟩
  · rw [State.managementWrite_exec hon hf b (by decide)]
    simp [State.writeMgmt, hb]
  · rw [State.managementWrite_exec hon hf b (by decide)]
    simp [State.writeMgmt, hb]
  · rw [State.managementWrite_exec hon hf b (by decide)]
    simp [State.writeMgmt, hb]
  · rw [State.managementWrite_exec hon hf b (by decide)]
    simp [State.writeMgmt, hb]
  · have hv : bit (leNat [b]) 7 = true := by simpa [leNat] using hb
    show execSmbusRegisterWrite .hotSwap 1 [b] true s = _
    simp [execSmbusRegisterWrite, onUnit, State.writeHotSwap, hv]
  · rw [State.mgCoordWrite_exec hon hf, if_neg (by simp [hv])]
  · rw [State.mgCoordWrite_exec hon hf, if_pos hv,
      State.takeCoord_refused (s := { s with mgmt := { s.mgmt with coord := v % 2 ^ 15 } }) hr]
    rfl
  · obtain ⟨f, l, h, ht, hid, hsrc⟩ := State.takeCoord_taken
      (s := { s with mgmt := { s.mgmt with coord := v % 2 ^ 15 } }) hin hup
    refine ⟨_, State.mgCoordWrite_exec hon hf v, ?_⟩
    rw [if_pos hv, ht]
    exact ⟨hid, hsrc, rfl, rfl, rfl, rfl, rfl, rfl, rfl, rfl⟩

/-! ### A shutdown requested -/

theorem State.skipBad_succ (n : Nat) : s.skipBad (n + 1) =
    if ((sliceParts (sliceAt s.ledger.schedule).1 (sliceAt s.ledger.schedule).2).all fun p => s.markedBad p.1 p.2) then
      State.skipBad n (s.addResult (s.sliceResult (sliceAt s.ledger.schedule).1 (sliceAt s.ledger.schedule).2 3 1 ⟨0, [], 0⟩)).nextPlace
    else s := rfl

theorem State.addResult_frame (x : TestResult) : ∃ rs, s.addResult x = { s with ledger := { s.ledger with results := rs } } :=
  ⟨_, rfl⟩

/-- Skipped slices are recorded, and the place of the schedule moves on; nothing else changes (R440). -/
theorem State.skipBad_frame (n : Nat) : ∀ s : State, ∃ rs p, s.skipBad n = { s with
    ledger := { s.ledger with results := rs, schedule := p } } := by
  induction n with
  | zero => exact fun s => ⟨_, _, rfl⟩
  | succ n ih =>
    intro s
    rw [State.skipBad_succ]
    split
    · obtain ⟨qs, hq⟩ := State.addResult_frame (s := s)
        (s.sliceResult (sliceAt s.ledger.schedule).1 (sliceAt s.ledger.schedule).2 3 1 ⟨0, [], 0⟩)
      rw [hq]
      obtain ⟨rs, p, h⟩ := ih (State.nextPlace { s with ledger := { s.ledger with results := qs } })
      exact ⟨rs, p, h⟩
    · exact ⟨_, _, rfl⟩

/-- With time left and a module in use, the schedule begins with the training values saved (R424, R439). -/
theorem State.beginSchedule_frame (hb : 1 ≤ s.shutdown.budgetS) (h0 : s.fuses.lcState ≠ 0) (h5 : s.fuses.lcState ≠ 5) :
    ∃ rs p ms, s.beginSchedule = { s with
      shutdown := { s.shutdown with scheduling := true, usedMs := 0 }
      ledger := { s.saveTraining.ledger with results := rs, schedule := p, missed := ms } } := by
  have hms : s.shutdown.budgetMs ≠ 0 := by unfold Shutdown.budgetMs; omega
  unfold State.beginSchedule
  dsimp only
  rw [if_neg (by
    simp only [Bool.or_eq_true, decide_eq_true_eq, not_or]
    exact ⟨⟨hms, h0⟩, h5⟩)]
  generalize sliceCount = n
  obtain ⟨rs, p, h⟩ := State.skipBad_frame n { s.saveTraining with
    ledger := { s.saveTraining.ledger with schedule := s.saveTraining.ledger.missed.getD s.saveTraining.ledger.schedule, missed := none }
    shutdown := { s.shutdown with scheduling := true, usedMs := 0 } }
  exact ⟨rs, p, none, h⟩

theorem State.mgShutdownReq_exec (hon : s.hotSwap.switchOn = true) (hf : s.fw.running = true) :
    exec (.mgShutdownReq true) s = .next s.startShutdown := by
  show execMgShutdownReq true s = _
  rw [execMgShutdownReq, if_neg (by simp [State.mgmtAnswers_of hon hf])]

/-- The module as a request leaves it before it looks at graphs: busy, and with nothing done (R439). -/
def State.requested (s : State) : State :=
  State.driveAttn { s with shutdown := { s.shutdown with busy := true, done := false, scheduling := false, usedMs := 0 } }

theorem State.startShutdown_idle (hi : s.seq = .idle) (hb : s.shutdown.busy = false) : s.startShutdown =
    if s.graphIds.isEmpty then s.requested.beginSchedule
    else if s.shutdown.forceUnload then s.requested.unloadAll
    else s.requested.raise 0x1007 (sumNat (s.graphIds.map fun g => 2 ^ g)) 0 0 := by
  unfold State.startShutdown
  rw [if_neg (by simp [hi, hb])]
  rfl

/-- Settles O11: a request makes the module busy, and waits or begins the schedule by what is bound. -/
theorem shutdownRequestBegins : Obligations.ShutdownRequestBegins := by
  unfold Obligations.ShutdownRequestBegins
  intro s hon hf
  rw [State.mgShutdownReq_exec hon hf]
  refine ⟨fun hi hb hg hforce => ?_, fun hi hb hg hbud h0 h5 => ?_, fun hb => ?_⟩
  · refine ⟨_, rfl, ?_⟩
    rw [State.startShutdown_idle hi hb, if_neg (by simpa using hg), if_neg (by simp [hforce])]
    obtain ⟨_, _, _, -, h⟩ := State.raise_frame (s := s.requested) 0x1007 (sumNat (s.graphIds.map fun g => 2 ^ g)) 0 0
    rw [h]
    exact ⟨rfl, rfl, rfl, rfl, rfl, rfl, rfl⟩
  · refine ⟨_, rfl, ?_⟩
    rw [State.startShutdown_idle hi hb, if_pos (by simpa using hg)]
    obtain ⟨_, _, _, h⟩ := State.beginSchedule_frame (s := s.requested) hbud h0 h5
    rw [h]
    exact ⟨rfl, rfl, rfl, rfl, rfl, rfl, rfl⟩
  · rw [State.startShutdown, if_pos (by simp [hb])]

end Sys2Proof.Machine
end

section
/-! PROOF. What stagings, a tile let go and a tile FENCED reach (R375, R404 to R408): stagings change phases, queues and the set point
alone, and a tile that nothing uses any more takes nothing of the others with it. -/

namespace Sys2Proof.Machine

variable {s t u : State}

/-! ### Reports -/

/-- An event changes the host's memory and completion rings and the ledger's events (R329). -/
theorem State.raise_only (c x y z : Nat) : ∃ h, s.raise c x y z = { s with
    host := h, ledger := { s.ledger with events := s.ledger.events ++ [(s.cairn, ⟨c, x, y, z⟩)] } } := by
  obtain ⟨_, _, _, -, h⟩ := State.raise_frame (s := s) c x y z
  exact ⟨_, h⟩

theorem State.raiseAll_only (es : List Event) : ∃ h l, State.raiseAll es s = { s with host := h, ledger := { s.ledger with events := l } } := by
  unfold State.raiseAll
  refine List.foldlRecOn (motive := fun t : State => ∃ h l, t = { s with host := h, ledger := { s.ledger with events := l } }) es _
    ⟨_, _, rfl⟩ fun t ht e _ => ?_
  obtain ⟨h, l, rfl⟩ := ht
  obtain ⟨h', hr⟩ := State.raise_only
    (s := { s with host := h, ledger := { s.ledger with events := l } }) e.code e.a e.b e.c
  exact ⟨h', _, hr⟩

/-! ### Stagings -/

/-- Stagings have changed, with what they bring: phases no longer shed, and the set point (R407, R408). -/
def State.OnlyStagings (s t : State) : Prop :=
  (∃ ph st mhz n, t = { s with power := { s.power with phases := ph, stagings := st, setMhz := mhz, stallSteps := n } }) ∧
    ∀ n, t.phase n = { s.phase n with shed := (t.phase n).shed }

theorem State.OnlyStagings.refl (s : State) : s.OnlyStagings s := ⟨⟨_, _, _, _, rfl⟩, fun _ => rfl⟩

theorem State.OnlyStagings.trans (h : s.OnlyStagings t) (h' : t.OnlyStagings u) : s.OnlyStagings u := by
  obtain ⟨⟨_, _, _, _, rfl⟩, hp⟩ := h
  obtain ⟨⟨_, _, _, _, rfl⟩, hq⟩ := h'
  exact ⟨⟨_, _, _, _, rfl⟩, fun n => by rw [hq n, hp n]⟩

theorem State.OnlyStagings.tiles (h : s.OnlyStagings t) : t.tiles = s.tiles := by
  obtain ⟨⟨_, _, _, _, rfl⟩, -⟩ := h; rfl

theorem State.OnlyStagings.tile (h : s.OnlyStagings t) (i : Nat) : t.tile i = s.tile i := by rw [State.tile, h.tiles]; rfl

theorem State.OnlyStagings.cairn (h : s.OnlyStagings t) : t.cairn = s.cairn := by
  obtain ⟨⟨_, _, _, _, rfl⟩, -⟩ := h; rfl

theorem State.OnlyStagings.lost (h : s.OnlyStagings t) : t.power.lost = s.power.lost := by
  obtain ⟨⟨_, _, _, _, rfl⟩, -⟩ := h; rfl

theorem State.OnlyStagings.frame (h : s.OnlyStagings t) : t = { s with power := t.power } := by
  obtain ⟨⟨_, _, _, _, rfl⟩, -⟩ := h; rfl

theorem State.noticeHood_onlyStagings (n : Nat) : s.OnlyStagings (s.noticeHood n) := by
  unfold State.noticeHood
  split
  · refine List.foldlRecOn (motive := fun t : State => s.OnlyStagings t) _ _ (.refl s) fun t ht i _ => ht.trans ?_
    refine ⟨⟨_, _, _, _, rfl⟩, fun k => ?_⟩
    rw [State.updPhase_phase]
    split
    · next hk => rw [hk]
    · rfl
  · exact .refl s

theorem State.setHood_onlyStagings (n : Nat) (q : List Staging) : s.OnlyStagings (s.setHood n q) := ⟨⟨_, _, _, _, rfl⟩, fun _ => rfl⟩

theorem State.queueStaging_onlyStagings (d : Nat) (on : Bool) : s.OnlyStagings (s.queueStaging d on) :=
  (State.noticeHood_onlyStagings _).trans (State.setHood_onlyStagings _ _)

theorem State.askDomain_onlyStagings (d : Nat) (on : Bool) : s.OnlyStagings (s.askDomain d on) := by
  unfold State.askDomain
  split
  · exact .refl s
  · exact State.queueStaging_onlyStagings d on

theorem State.restorePoint_onlyStagings (g : Staging) : s.OnlyStagings (s.restorePoint g) := ⟨⟨_, _, _, _, rfl⟩, fun _ => rfl⟩

theorem State.unstage_onlyStagings (d : Nat) : s.OnlyStagings (s.unstage d) := by
  unfold State.unstage
  dsimp only
  split
  · exact .refl s
  · exact (List.foldlRecOn (motive := fun t : State => s.OnlyStagings t) _ _ (.refl s) fun t ht g _ =>
      ht.trans (State.restorePoint_onlyStagings g)).trans (State.setHood_onlyStagings _ _)

/-! ### Queues -/

theorem State.setHood_hood (n m : Nat) (q : List Staging) : (s.setHood n q).hood m = if m = n then q else s.hood m := Tab.get_put

@[simp] theorem State.noticeHood_hood (n m : Nat) : (s.noticeHood n).hood m = s.hood m := by
  obtain ⟨_, h⟩ := State.noticeHood_frame (s := s) n
  unfold State.noticeHood
  split
  · exact List.foldlRecOn (motive := fun t : State => t.hood m = s.hood m) _ _ rfl fun t ht i _ => ht
  · rfl

theorem mem_insertStaging_iff {g x : Staging} {q : List Staging} : x ∈ insertStaging g q ↔ x = g ∨ x ∈ q := by
  induction q with
  | nil => simp [insertStaging]
  | cons y q ih =>
    unfold insertStaging
    split
    · simp
    · simp [ih, or_left_comm]

/-- A staging as it is queued (R407). -/
def State.newStaging (s : State) (d : Nat) (on : Bool) : Staging := ⟨d, on, 0, roundUp (s.cairn + 2000) 4, 0, false, false⟩

/-- What waits in a neighbourhood after a staging is queued. -/
theorem State.mem_queueStaging {d m : Nat} {on : Bool} {g : Staging} :
    g ∈ (s.queueStaging d on).hood m ↔ g ∈ s.hood m ∨ m = hoodOf d ∧ g = s.newStaging d on := by
  unfold State.queueStaging
  dsimp only
  rw [State.setHood_hood]
  split
  · next hm =>
    subst hm
    split
    · next hq => simp [hq, State.newStaging]
    · next x q hq =>
      rw [hq, List.mem_cons, mem_insertStaging_iff, List.mem_cons]
      unfold State.newStaging
      tauto
  · next hm => simp [hm]

theorem State.hasStaging_iff {d : Nat} {on : Bool} : s.hasStaging d on = true ↔ ∃ g ∈ s.hood (hoodOf d), g.dom = d ∧ g.on = on := by
  simp [State.hasStaging]

/-- A domain asked on or off leaves the stagings of the others. -/
theorem State.askDomain_hasStaging {d e : Nat} {on o : Bool} : (s.askDomain d on).hasStaging e o = true ↔
    s.hasStaging e o = true ∨ e = d ∧ o = on ∧ ¬(on = true ∧ d ∈ s.power.lost) := by
  unfold State.askDomain
  split
  · next h =>
    simp only [Bool.or_eq_true, Bool.and_eq_true, List.contains_iff_mem] at h
    refine ⟨.inl, fun h' => h'.elim id fun ⟨he, ho, hl⟩ => ?_⟩
    rw [he, ho]
    exact h.resolve_right hl
  · next h =>
    simp only [Bool.or_eq_true, Bool.and_eq_true, List.contains_iff_mem, not_or] at h
    rw [State.hasStaging_iff, State.hasStaging_iff]
    constructor
    · rintro ⟨g, hg, hd, ho⟩
      obtain hg | ⟨-, rfl⟩ := State.mem_queueStaging.1 hg
      · exact .inl ⟨g, hg, hd, ho⟩
      · exact .inr ⟨hd.symm, ho.symm, h.2⟩
    · rintro (⟨g, hg, hd, ho⟩ | ⟨rfl, rfl, -⟩)
      · exact ⟨g, State.mem_queueStaging.2 (.inl hg), hd, ho⟩
      · exact ⟨_, State.mem_queueStaging.2 (.inr ⟨rfl, rfl⟩), rfl, rfl⟩

theorem State.askDomain_off_hasStaging (d : Nat) : (s.askDomain d false).hasStaging d false = true :=
  State.askDomain_hasStaging.2 (.inr ⟨rfl, rfl, by simp⟩)

/-! ### A tile let go -/

/-- Tiles have changed, those of `T` alone, with stagings and the staging writes that complete. -/
def State.OnlyTiles (T : Nat → Prop) (s t : State) : Prop :=
  (∃ ts ph st mhz n sd, t = { s with
    tiles := ts, power := { s.power with phases := ph, stagings := st, setMhz := mhz, stallSteps := n }
    mem := { s.mem with stagingDone := sd } }) ∧
    (∀ n, t.phase n = { s.phase n with shed := (t.phase n).shed }) ∧ ∀ j, ¬T j → t.tile j = s.tile j

section OnlyTiles

variable {T : Nat → Prop}

theorem State.OnlyTiles.refl (s : State) : s.OnlyTiles T s := ⟨⟨_, _, _, _, _, _, rfl⟩, fun _ => rfl, fun _ _ => rfl⟩

theorem State.OnlyTiles.trans (h : s.OnlyTiles T t) (h' : t.OnlyTiles T u) : s.OnlyTiles T u := by
  obtain ⟨⟨_, _, _, _, _, _, rfl⟩, hp, ht⟩ := h
  obtain ⟨⟨_, _, _, _, _, _, rfl⟩, hq, hu⟩ := h'
  exact ⟨⟨_, _, _, _, _, _, rfl⟩, fun n => by rw [hq n, hp n], fun j hj => by rw [hu j hj, ht j hj]⟩

theorem State.OnlyTiles.mono {T' : Nat → Prop} (h : s.OnlyTiles T t) (hT : ∀ j, T j → T' j) : s.OnlyTiles T' t :=
  ⟨h.1, h.2.1, fun j hj => h.2.2 j fun h => hj (hT j h)⟩

theorem State.OnlyStagings.onlyTiles (h : s.OnlyStagings t) : s.OnlyTiles T t := by
  obtain ⟨⟨_, _, _, _, rfl⟩, hp⟩ := h
  exact ⟨⟨_, _, _, _, _, _, rfl⟩, hp, fun _ _ => rfl⟩

theorem State.OnlyTiles.tile (h : s.OnlyTiles T t) {j : Nat} (hj : ¬T j) : t.tile j = s.tile j := h.2.2 j hj

theorem State.OnlyTiles.phase (h : s.OnlyTiles T t) (n : Nat) : t.phase n = { s.phase n with shed := (t.phase n).shed } := h.2.1 n

theorem State.OnlyTiles.mem (h : s.OnlyTiles T t) : t.mem = { s.mem with stagingDone := t.mem.stagingDone } := by
  obtain ⟨⟨_, _, _, _, _, _, rfl⟩, -, -⟩ := h; rfl

theorem State.OnlyTiles.frame (h : s.OnlyTiles T t) : t = { s with
    tiles := t.tiles, power := t.power, mem := { s.mem with stagingDone := t.mem.stagingDone } } := by
  obtain ⟨⟨_, _, _, _, _, _, rfl⟩, -, -⟩ := h; rfl

theorem State.OnlyTiles.lost (h : s.OnlyTiles T t) : t.power.lost = s.power.lost := by
  obtain ⟨⟨_, _, _, _, _, _, rfl⟩, -, -⟩ := h; rfl

end OnlyTiles

theorem State.setTile_onlyTiles (i : Nat) (x : Tile) : s.OnlyTiles (· = i) (s.setTile i x) :=
  ⟨⟨_, _, _, _, _, _, rfl⟩, fun _ => rfl, fun j hj => by rw [State.setTile_tile, if_neg hj]⟩

theorem State.updTile_onlyTiles (i : Nat) (f : Tile → Tile) : s.OnlyTiles (· = i) (s.updTile i f) := State.setTile_onlyTiles i _

theorem State.completeStaging_onlyTiles {T : Nat → Prop} (i st : Nat) (ws : List (Nat × List Byte × Bool)) :
    s.OnlyTiles T (s.completeStaging i st ws) := ⟨⟨_, _, _, _, _, _, rfl⟩, fun _ => rfl, fun _ _ => rfl⟩

/-- The Tarn of a dark tile rests or is asked off; of the tile only the Tarn's power changes (R118, R119). -/
theorem State.restTarn_cases (i : Nat) : s.OnlyStagings (s.restTarn i) ∨
    s.restTarn i = s.updTile i fun x => { x with tarnPower := .retain } := by
  unfold State.restTarn
  dsimp only
  split
  · exact .inl (.refl s)
  · split
    · exact .inr rfl
    · exact .inl (State.askDomain_onlyStagings _ _)

theorem State.quiet_cases (i : Nat) : s.OnlyStagings (s.quiet i) ∨
    s.quiet i = s.updTile i fun x => { x with tarnPower := .retain } := by
  unfold State.quiet
  split
  · exact .inl (State.askDomain_onlyStagings _ _)
  · exact State.restTarn_cases i

theorem State.quiet_onlyTiles (i : Nat) : s.OnlyTiles (· = i) (s.quiet i) := by
  obtain h | h := State.quiet_cases (s := s) i
  · exact h.onlyTiles
  · rw [h]; exact State.updTile_onlyTiles i _

/-- What a tile that goes dark keeps: all but its Tarn's power. -/
theorem State.quiet_tile_same (i : Nat) : (s.quiet i).tile i = { s.tile i with tarnPower := ((s.quiet i).tile i).tarnPower } := by
  obtain h | h := State.quiet_cases (s := s) i
  · rw [h.tile]
  · rw [h, State.updTile_tile, if_pos rfl]

theorem State.unstage_unstage_onlyStagings (i : Nat) : s.OnlyStagings ((s.unstage i).unstage (i + 320)) :=
  (State.unstage_onlyStagings i).trans (State.unstage_onlyStagings _)

theorem State.letGo_onlyTiles (i : Nat) : s.OnlyTiles (· = i) (s.letGo i) :=
  (((State.completeStaging_onlyTiles i 0x32 _).trans (State.updTile_onlyTiles i _)).trans
    (State.unstage_unstage_onlyStagings i).onlyTiles).trans (State.quiet_onlyTiles i)

/-- A tile let go is idle, but for its Tarn's power. -/
theorem State.letGo_tile_same (i : Nat) : (s.letGo i).tile i = { (s.tile i).idled with tarnPower := ((s.letGo i).tile i).tarnPower } := by
  have h := State.quiet_tile_same
    (s := (((s.completeStaging i 0x32 (s.tile i).staging).updTile i (·.idled)).unstage i).unstage (i + 320)) i
  rw [(State.unstage_unstage_onlyStagings i).tile, State.updTile_tile, if_pos rfl] at h
  exact h

theorem State.letGo_use (i : Nat) : ((s.letGo i).tile i).use = .free := by rw [State.letGo_tile_same]; rfl

/-! ### A tile FENCED -/

/-- What a tile taken out of use reaches: tiles, graphs, Saddles, stagings and the reports of it. -/
def State.Reached (s t : State) : Prop :=
  (∃ dv ts gs pl h pw l hs mg sd, t = { s with
    devState := dv, tiles := ts, graphs := gs, planes := pl, host := h, power := pw, ledger := l, hotSwap := hs, mgmt := mg
    mem := { s.mem with stagingDone := sd } }) ∧
    (∀ n, t.phase n = { s.phase n with shed := (t.phase n).shed }) ∧ t.power.lost = s.power.lost

theorem State.Reached.refl (s : State) : s.Reached s := ⟨⟨_, _, _, _, _, _, _, _, _, _, rfl⟩, fun _ => rfl, rfl⟩

theorem State.Reached.trans (h : s.Reached t) (h' : t.Reached u) : s.Reached u := by
  obtain ⟨⟨_, _, _, _, _, _, _, _, _, _, rfl⟩, hp, hl⟩ := h
  obtain ⟨⟨_, _, _, _, _, _, _, _, _, _, rfl⟩, hq, hm⟩ := h'
  exact ⟨⟨_, _, _, _, _, _, _, _, _, _, rfl⟩, fun n => by rw [hq n, hp n], by rw [hm, hl]⟩

theorem State.OnlyTiles.reached {T : Nat → Prop} (h : s.OnlyTiles T t) : s.Reached t := by
  have hl := h.lost
  obtain ⟨⟨_, _, _, _, _, _, rfl⟩, hp, -⟩ := h
  exact ⟨⟨_, _, _, _, _, _, _, _, _, _, rfl⟩, hp, hl⟩

section Reached

variable (h : s.Reached t)
include h

theorem State.Reached.phase (n : Nat) : t.phase n = { s.phase n with shed := (t.phase n).shed } := h.2.1 n
theorem State.Reached.score (n : Nat) : (t.phase n).score = (s.phase n).score := by rw [h.phase n]
theorem State.Reached.stopped (n : Nat) : (t.phase n).stopped = (s.phase n).stopped := by rw [h.phase n]
theorem State.Reached.dead (n : Nat) : (t.phase n).dead = (s.phase n).dead := by rw [h.phase n]
theorem State.Reached.failed (n : Nat) : (t.phase n).failed = (s.phase n).failed := by rw [h.phase n]

theorem State.Reached.frame : t = { s with
    devState := t.devState, tiles := t.tiles, graphs := t.graphs, planes := t.planes, host := t.host, power := t.power
    ledger := t.ledger, hotSwap := t.hotSwap, mgmt := t.mgmt, mem := { s.mem with stagingDone := t.mem.stagingDone } } := by
  obtain ⟨⟨_, _, _, _, _, _, _, _, _, _, rfl⟩, -, -⟩ := h; rfl

theorem State.Reached.mem : t.mem = { s.mem with stagingDone := t.mem.stagingDone } := by
  obtain ⟨⟨_, _, _, _, _, _, _, _, _, _, rfl⟩, -, -⟩ := h; rfl
theorem State.Reached.regs : t.regs = s.regs := by
  obtain ⟨⟨_, _, _, _, _, _, _, _, _, _, rfl⟩, -, -⟩ := h; rfl
theorem State.Reached.fuses : t.fuses = s.fuses := by
  obtain ⟨⟨_, _, _, _, _, _, _, _, _, _, rfl⟩, -, -⟩ := h; rfl
theorem State.Reached.cairn : t.cairn = s.cairn := by
  obtain ⟨⟨_, _, _, _, _, _, _, _, _, _, rfl⟩, -, -⟩ := h; rfl
theorem State.Reached.seq : t.seq = s.seq := by
  obtain ⟨⟨_, _, _, _, _, _, _, _, _, _, rfl⟩, -, -⟩ := h; rfl
theorem State.Reached.selfTest : t.selfTest = s.selfTest := by
  obtain ⟨⟨_, _, _, _, _, _, _, _, _, _, rfl⟩, -, -⟩ := h; rfl
theorem State.Reached.fabric : t.fabric = s.fabric := by
  obtain ⟨⟨_, _, _, _, _, _, _, _, _, _, rfl⟩, -, -⟩ := h; rfl

end Reached

theorem State.raise_reached (c x y z : Nat) : s.Reached (s.raise c x y z) := by
  obtain ⟨_, h⟩ := State.raise_only (s := s) c x y z
  rw [h]
  exact ⟨⟨_, _, _, _, _, _, _, _, _, _, rfl⟩, fun _ => rfl, rfl⟩

theorem State.raiseAll_reached (es : List Event) : s.Reached (State.raiseAll es s) := by
  obtain ⟨_, _, h⟩ := State.raiseAll_only (s := s) es
  rw [h]
  exact ⟨⟨_, _, _, _, _, _, _, _, _, _, rfl⟩, fun _ => rfl, rfl⟩

theorem State.setGraph_reached (g : Nat) (x : Option Graph) : s.Reached (s.setGraph g x) :=
  ⟨⟨_, _, _, _, _, _, _, _, _, _, rfl⟩, fun _ => rfl, rfl⟩

theorem State.updGraph_reached (g : Nat) (f : Graph → Graph) : s.Reached (s.updGraph g f) := by
  unfold State.updGraph
  split
  · exact .refl s
  · exact State.setGraph_reached _ _

theorem State.abandon_reached (g c : Nat) (rm rp : List Nat) : s.Reached (s.abandon g c rm rp) := by
  unfold State.abandon
  split
  · exact .refl s
  · exact (State.setGraph_reached _ _).trans (State.raiseAll_reached _)

theorem State.setDev_reached (d : DevState) : s.Reached (s.setDev d) := by
  obtain ⟨_, _, h⟩ := State.setDev_frame (s := s) d
  rw [h]
  exact ⟨⟨_, _, _, _, _, _, _, _, _, _, rfl⟩, fun _ => rfl, rfl⟩

theorem State.checkDegraded_reached : s.Reached s.checkDegraded := by
  unfold State.checkDegraded
  split
  · exact (State.setDev_reached _).trans (State.raise_reached ..)
  · exact .refl s

theorem State.dropWords_reached (i : Nat) : s.Reached (s.dropWords i) := ⟨⟨_, _, _, _, _, _, _, _, _, _, rfl⟩, fun _ => rfl, rfl⟩

theorem State.addDefect_reached (k src id c : Nat) : s.Reached (s.addDefect k src id c) := by
  unfold State.addDefect
  split
  · exact .refl s
  · exact ⟨⟨_, _, _, _, _, _, _, _, _, _, rfl⟩, fun _ => rfl, rfl⟩

/-- The tile as the fence leaves it before it goes dark (R375). -/
def Tile.fencedOff (x : Tile) : Tile := { x with fenced := true, use := .free, run := .reset, staging := [], clearing := false }

/-- The module with a tile fenced and dark, before its graph hears of it (R375, R265). -/
def State.fencedDark (s : State) (i : Nat) : State :=
  ((((((s.completeStaging i 0x32 (s.tile i).staging).dropWords i).setTile i (s.tile i).fencedOff).unstage i).unstage (i + 320)).quiet i)

/-- What the graph of a tile that is fenced does (R355, R376). -/
def State.fenceGraph (s : State) (i : Nat) (use : TileUse) : Option (Nat × Nat) → State
  | none => s
  | some (g, v) =>
    if use == TileUse.bound g v then (s.abandon g 6 [] []).updGraph g fun y => (y.losePlace v).noteFence i v
    else (s.abandon g 6 [] []).updGraph g fun y =>
      { y with verify := { y.verify with shadows := y.verify.shadows.filter (·.2 != i) } }

theorem State.fenceTile_of_fenced {i : Nat} (h : (s.tile i).fenced = true) : s.fenceTile i = s := by
  rw [State.fenceTile, if_pos h]

theorem State.fenceTile_eq {i : Nat} (h : (s.tile i).fenced = false) :
    s.fenceTile i = ((s.fencedDark i).fenceGraph i (s.tile i).use (s.owner i)).checkDegraded := by
  rw [State.fenceTile, if_neg (by simp [h])]
  dsimp only
  cases s.owner i <;> rfl

theorem State.fencedDark_reached (i : Nat) : s.Reached (s.fencedDark i) :=
  ((((State.completeStaging_onlyTiles (T := fun _ => True) i 0x32 _).reached.trans (State.dropWords_reached i)).trans
    (State.setTile_onlyTiles i _).reached).trans
    ((State.unstage_unstage_onlyStagings i).onlyTiles (T := fun _ => True)).reached).trans (State.quiet_onlyTiles i).reached

theorem State.fencedDark_tile (i j : Nat) : (s.fencedDark i).tile j =
    if j = i then { (s.tile i).fencedOff with tarnPower := ((s.fencedDark i).tile i).tarnPower } else s.tile j := by
  unfold State.fencedDark
  split
  · next h =>
    subst h
    rw [State.quiet_tile_same, (State.unstage_unstage_onlyStagings j).tile, State.setTile_tile, if_pos rfl]
  · next h =>
    rw [(State.quiet_onlyTiles i).tile h, (State.unstage_unstage_onlyStagings i).tile, State.setTile_tile, if_neg h]
    rfl

theorem State.fenceGraph_reached (i : Nat) (use : TileUse) (o : Option (Nat × Nat)) : s.Reached (s.fenceGraph i use o) := by
  unfold State.fenceGraph
  split
  · exact .refl s
  · split
    · exact (State.abandon_reached ..).trans (State.updGraph_reached _ _)
    · exact (State.abandon_reached ..).trans (State.updGraph_reached _ _)

/-- What a graph does about a fenced tile changes no tile. -/
theorem State.abandon_tiles (g c : Nat) (rm rp : List Nat) : (s.abandon g c rm rp).tiles = s.tiles := by
  unfold State.abandon
  split
  · rfl
  · obtain ⟨_, _, h⟩ := State.raiseAll_only (s := s.setGraph g (some { (_ : Graph) with abandon := some _ })) _
    rw [h]; rfl

@[simp] theorem State.updGraph_tiles' (g : Nat) (f : Graph → Graph) : (s.updGraph g f).tiles = s.tiles := by
  unfold State.updGraph
  split <;> rfl

theorem State.fenceGraph_tiles (i : Nat) (use : TileUse) (o : Option (Nat × Nat)) : (s.fenceGraph i use o).tiles = s.tiles := by
  unfold State.fenceGraph
  split
  · rfl
  · split <;> rw [State.updGraph_tiles', State.abandon_tiles]

theorem State.checkDegraded_tiles : s.checkDegraded.tiles = s.tiles := by
  unfold State.checkDegraded
  split
  · rw [State.raise_tiles, State.setDev_tiles]
  · rfl

theorem State.fenceTile_reached (i : Nat) : s.Reached (s.fenceTile i) := by
  cases h : (s.tile i).fenced
  · rw [State.fenceTile_eq h]
    exact ((State.fencedDark_reached i).trans (State.fenceGraph_reached ..)).trans State.checkDegraded_reached
  · rw [State.fenceTile_of_fenced h]
    exact .refl s

/-- A fence changes the tile that it names alone. -/
theorem State.fenceTile_tile {i : Nat} (h : (s.tile i).fenced = false) (j : Nat) : (s.fenceTile i).tile j =
    if j = i then { (s.tile i).fencedOff with tarnPower := ((s.fencedDark i).tile i).tarnPower } else s.tile j := by
  rw [State.fenceTile_eq h, State.tile, State.checkDegraded_tiles, State.fenceGraph_tiles]
  exact State.fencedDark_tile i j

theorem State.fenceTile_other {i j : Nat} (hj : j ≠ i) : (s.fenceTile i).tile j = s.tile j := by
  cases h : (s.tile i).fenced
  · rw [State.fenceTile_tile h, if_neg hj]
  · rw [State.fenceTile_of_fenced h]

theorem State.fenceTile_fenced (i : Nat) : ((s.fenceTile i).tile i).fenced = true := by
  cases h : (s.tile i).fenced
  · rw [State.fenceTile_tile h, if_pos rfl]; rfl
  · rw [State.fenceTile_of_fenced h]; exact h

/-- A fence keeps the tile's score and its part's state. -/
theorem State.fenceTile_score (i : Nat) : ((s.fenceTile i).tile i).score = (s.tile i).score ∧
    ((s.fenceTile i).tile i).part = (s.tile i).part := by
  cases h : (s.tile i).fenced
  · rw [State.fenceTile_tile h, if_pos rfl]; exact ⟨rfl, rfl⟩
  · rw [State.fenceTile_of_fenced h]; exact ⟨rfl, rfl⟩

/-! ### Scores of tiles and phases -/

theorem State.capTile_reached (i : Nat) : s.Reached (s.capTile i) := by
  unfold State.capTile
  split
  · exact .refl s
  · exact (State.updTile_onlyTiles i _).reached.trans (State.raise_reached ..)

theorem State.setTileScore_reached (i n p : Nat) : s.Reached (s.setScore .tile i n p) :=
  (State.updTile_onlyTiles i fun x => { x with score := n, part := p }).reached

theorem State.fenceAt_reached (i n c : Nat) : s.Reached (s.fenceAt i n c) := by
  unfold State.fenceAt
  split
  · exact .refl s
  · exact (((State.setTileScore_reached i n 3).trans (State.raise_reached ..)).trans (State.addDefect_reached ..)).trans
      (State.fenceTile_reached i)

theorem State.fenceNow_reached (i c : Nat) : s.Reached (s.fenceNow i c) := State.fenceAt_reached ..

theorem State.tilePhaseFailed_reached (i p r : Nat) : s.Reached (s.tilePhaseFailed i p r) := by
  unfold State.tilePhaseFailed
  dsimp only
  split
  · exact (State.raise_reached ..).trans (State.capTile_reached i)
  · split
    · exact ((State.raise_reached ..).trans (State.updTile_onlyTiles i _).reached).trans (State.fenceNow_reached ..)
    · exact State.raise_reached ..

/-- A score that has changed, with its event and its defect entry (R373): beyond the score itself, reports. -/
theorem State.settleScore_reached (k : PartKind) (id old n c : Nat) :
    (s.setScore k id n (nextPart (partThresholds k) old n)).Reached (s.settleScore k id old n c) := by
  unfold State.settleScore
  dsimp only
  split
  · exact .refl _
  · split
    · exact (State.raise_reached ..).trans (State.addDefect_reached ..)
    · exact State.raise_reached ..

end Sys2Proof.Machine
end

section
/-! PROOF. What every command keeps: the queue of commands, each fuse once blown (R468, R473), and the canonical form of memory. One
lemma for each operation of the model, in the order of the model's files. -/

namespace Sys2Proof.Machine

set_option Elab.async false

variable {s t u : State}

/-- No fuse is taken back. -/
structure Fuses.Grow (f g : Fuses) : Prop where
  level : f.level ≤ g.level
  service : f.service ≤ g.service
  rollback : f.rollback ≤ g.rollback
  fwRevoked : ∀ i, bit f.fwRevoked i = true → bit g.fwRevoked i = true
  lcRevoked : ∀ i, bit f.lcRevoked i = true → bit g.lcRevoked i = true
  blown : f.blown = true → g.blown = true
  bad : ∀ p ∈ f.bad, p ∈ g.bad
  used : ∀ b ∈ f.used, b ∈ g.used

theorem Fuses.Grow.refl (f : Fuses) : f.Grow f :=
  ⟨Nat.le_refl _, Nat.le_refl _, Nat.le_refl _, fun _ => id, fun _ => id, id, fun _ => id, fun _ => id⟩

theorem Fuses.Grow.trans {f g k : Fuses} (h : f.Grow g) (h' : g.Grow k) : f.Grow k :=
  ⟨h.level.trans h'.level, h.service.trans h'.service, h.rollback.trans h'.rollback, fun i hi => h'.fwRevoked i (h.fwRevoked i hi),
    fun i hi => h'.lcRevoked i (h.lcRevoked i hi), fun hb => h'.blown (h.blown hb), fun p hp => h'.bad p (h.bad p hp),
    fun b hb => h'.used b (h.used b hb)⟩

/-- What a command may make of a state: the queue stays, fuses only grow, and memory in canonical form stays in it. -/
structure State.Keeps (s t : State) : Prop where
  pending : t.pending = s.pending
  fuses : s.fuses.Grow t.fuses
  memWf : s.memWf = true → t.memWf = true

namespace State.Keeps

theorem refl (s : State) : s.Keeps s := ⟨rfl, .refl _, id⟩

theorem trans (h : s.Keeps t) (h' : t.Keeps u) : s.Keeps u :=
  ⟨h'.pending.trans h.pending, h.fuses.trans h'.fuses, fun hm => h'.memWf (h.memWf hm)⟩

/-- Any other part of the state may change. -/
theorem keep {cairn recoveries rd draws : Nat} {dv : DevState} {seq : Sequence} {st : SelfTest} {ts : Tab Tile} {gs : Tab (Option Graph)}
    {tr : Tracker} {pl : Planes} {fb : Fabric} {k : Host_} {rg : Regs} {m : Mem} {pw : Power} {l : Ledger} {d : Dump} {sh : Shutdown}
    {fw : Firmware} {hs : HotSwap} {mg : Mgmt} {mo : Monitor} {bs : List Byte} {lk : Tab Nat} (h : s.Keeps u)
    (hk : k.mem = u.host.mem := by rfl) (hb : m.hbm = u.mem.hbm := by rfl) (hc : m.cxl = u.mem.cxl := by rfl) :
    s.Keeps ⟨u.pending, cairn, dv, seq, st, recoveries, ts, gs, tr, pl, fb, k, rg, m, pw, l, u.fuses, d, sh, fw, hs, mg, mo, rd, bs, draws,
      lk⟩ := by
  refine h.trans ⟨rfl, .refl _, fun hw => ?_⟩
  rw [State.memWf_iff] at hw ⊢
  rw [hb, hc, hk]
  exact hw

theorem ite {c : Prop} [Decidable c] (ht : s.Keeps t) (hu : s.Keeps u) : s.Keeps (if c then t else u) := by
  split
  · exact ht
  · exact hu

/-- The same, of an answer that carries the state. -/
theorem iteFst {α : Type} {c : Prop} [Decidable c] {p q : State × α} (hp : s.Keeps p.1) (hq : s.Keeps q.1) :
    s.Keeps (if c then p else q).1 := by
  split
  · exact hp
  · exact hq

theorem foldl {α : Type} {l : List α} {f : State → α → State} (h : s.Keeps u) (hf : ∀ t x, s.Keeps t → s.Keeps (f t x)) :
    s.Keeps (l.foldl f u) :=
  List.foldlRecOn (motive := fun t => s.Keeps t) l f h fun t ht x _ => hf t x ht

theorem fst {α : Type} {p : State × α} {a : α} (h : s.Keeps p.1) (e : p = (t, a)) : s.Keeps t := by
  rw [e] at h
  exact h

theorem elim {α : Type} {o : Option α} {f : α → State} (h : s.Keeps u) (hf : ∀ a, s.Keeps (f a)) : s.Keeps (o.elim u f) := by
  cases o with
  | none => exact h
  | some a => exact hf a

theorem snd {α : Type} {p : α × State} {a : α} (h : s.Keeps p.2) (e : p = (a, t)) : s.Keeps t := by
  rw [e] at h
  exact h

/-- A fold that carries more than the state. -/
theorem foldlFst {α β : Type} {l : List α} {f : State × β → α → State × β} {p : State × β} (h : s.Keeps p.1)
    (hf : ∀ q x, s.Keeps q.1 → s.Keeps (f q x).1) : s.Keeps (l.foldl f p).1 :=
  List.foldlRecOn (motive := fun q => s.Keeps q.1) l f h fun q hq x _ => hf q x hq

end State.Keeps

/-- A row answers a next state that keeps what every command keeps, just where its operands name units. -/
def State.Ends (s : State) (ok : Bool) (o : Out3) : Prop := ∃ t, o = onUnit ok t ∧ s.Keeps t

/-- A command answers a next state just where it is well-formed, and keeps what every command keeps. -/
def Answers (c : Instr) : Prop := ∀ {s u : State}, s.Keeps u → s.Ends c.wellFormed (exec c u)

namespace State.Ends

theorem onUnit {ok : Bool} (h : s.Keeps t) : s.Ends ok (onUnit ok t) := ⟨t, rfl, h⟩

theorem next (h : s.Keeps t) : s.Ends true (.next t) := ⟨t, rfl, h⟩

theorem onLive {ok : Bool} (hu : s.Keeps u) (h : s.Keeps t) : s.Ends ok (u.onLive ok t) := .onUnit (.ite h hu)

theorem onPhase {d p : Nat} (hu : s.Keeps u) (h : s.Keeps t) : s.Ends (d < 688 && p < phasesOf d) (u.onPhase d p t) := .onUnit (.ite h hu)

theorem portStep {p : Nat} {k : PortState} {act : State → State} (h : s.Keeps u) (ha : ∀ {t}, s.Keeps t → s.Keeps (act t)) :
    s.Ends (p < 6) (u.portStep p k act) := .onUnit (.ite (ha h) h)

end State.Ends

namespace State.Keeps

/-! ### Ops -/

theorem setTile {i : Nat} {x : Tile} (h : s.Keeps u) : s.Keeps (u.setTile i x) := h.keep

theorem updTile {i : Nat} {f : Tile → Tile} (h : s.Keeps u) : s.Keeps (u.updTile i f) := h.setTile

theorem setGraph {g : Nat} {x : Option Graph} (h : s.Keeps u) : s.Keeps (u.setGraph g x) := h.keep

theorem updGraph {g : Nat} {f : Graph → Graph} (h : s.Keeps u) : s.Keeps (u.updGraph g f) := by
  unfold State.updGraph
  split
  · exact h
  · exact h.setGraph

theorem updSched {g : Nat} {f : Sched → Sched} (h : s.Keeps u) : s.Keeps (u.updSched g f) := h.updGraph

theorem setStream {i : Nat} {x : Stream} (h : s.Keeps u) : s.Keeps (u.setStream i x) := h.keep

theorem updStream {i : Nat} {f : Stream → Stream} (h : s.Keeps u) : s.Keeps (u.updStream i f) := h.setStream

theorem updSq {n : Nat} {f : Ring → Ring} (h : s.Keeps u) : s.Keeps (u.updSq n f) := h.keep

theorem updCq {n : Nat} {f : Ring → Ring} (h : s.Keeps u) : s.Keeps (u.updCq n f) := h.keep

theorem updHv {n : Nat} {f : Ring → Ring} (h : s.Keeps u) : s.Keeps (u.updHv n f) := h.keep

theorem updSlice {n : Nat} {f : Slice → Slice} (h : s.Keeps u) : s.Keeps (u.updSlice n f) := h.keep

theorem updRange {n : Nat} {f : CxlRange → CxlRange} (h : s.Keeps u) : s.Keeps (u.updRange n f) := h.keep

theorem updPort {p : Nat} {f : FzPort → FzPort} (h : s.Keeps u) : s.Keeps (u.updPort p f) := h.keep

theorem updPhase {n : Nat} {f : Phase → Phase} (h : s.Keeps u) : s.Keeps (u.updPhase n f) := h.keep

theorem advanceTo {i : Nat} (h : s.Keeps u) : s.Keeps (u.advanceTo i) := h.keep

theorem tick (h : s.Keeps u) : s.Keeps u.tick := by
  unfold State.tick
  dsimp only
  split
  · exact .ite h.keep h.keep
  · exact h.keep

theorem draw (h : s.Keeps u) : s.Keeps u.draw := h.keep

theorem setSpace {sp : Nat} {m : Memory} (h : s.Keeps u) (hm : (u.space sp).wf = true → m.wf = true) : s.Keeps (u.setSpace sp m) := by
  refine h.trans ⟨?_, ?_, fun hw => State.memWf_setSpace hw (hm (State.wf_space hw))⟩
  · unfold State.setSpace; split <;> rfl
  · unfold State.setSpace; split <;> exact .refl _

theorem writeBytes {sp a : Nat} {bs : List Byte} (h : s.Keeps u) : s.Keeps (u.writeBytes sp a bs) := h.setSpace Memory.wf_putAll

theorem setPoison {sp l : Nat} {on : Bool} (h : s.Keeps u) : s.Keeps (u.setPoison sp l on) := h.setSpace fun hw => Memory.wf_poison hw

theorem hostWrite {a : Nat} {bs : List Byte} (h : s.Keeps u) : s.Keeps (u.hostWrite a bs) := by
  refine h.trans ⟨?_, ?_, State.memWf_hostWrite⟩
  · unfold State.hostWrite; split <;> rfl
  · unfold State.hostWrite; split <;> exact .refl _

theorem signal {v : Nat} (h : s.Keeps u) : s.Keeps (u.signal v) := .ite h (.ite h.keep (.ite h h.keep))

theorem noteAer {e : AerError} (h : s.Keeps u) : s.Keeps (u.noteAer e) := h.keep

theorem sendPending (h : s.Keeps u) : s.Keeps u.sendPending := .ite h h.keep

theorem hostTrained {lanes rate : Nat} (h : s.Keeps u) : s.Keeps (u.hostTrained lanes rate) := h.keep

/-! ### Flags -/

theorem writeRec {q : Nat} {r : Rec} (h : s.Keeps u) : s.Keeps (u.writeRec q r) := h.hostWrite.updCq

theorem notice {q : Nat} {r : Rec} (h : s.Keeps u) : s.Keeps (u.notice q r) := .ite h.writeRec h.updCq

theorem ledgerEvent {code a b c : Nat} (h : s.Keeps u) : s.Keeps (u.ledgerEvent code a b c) := h.keep

theorem raise {code a b c : Nat} (h : s.Keeps u) : s.Keeps (u.raise code a b c) := .ite h.ledgerEvent.notice h.ledgerEvent

theorem raiseAll {es : List Event} (h : s.Keeps u) : s.Keeps (u.raiseAll es) := .foldl h fun _ _ ht => ht.raise

theorem alert {b : Nat} (h : s.Keeps u) : s.Keeps (u.alert b) := h.keep

theorem driveAttn (h : s.Keeps u) : s.Keeps u.driveAttn := h.keep

theorem setDev {d : DevState} (h : s.Keeps u) : s.Keeps (u.setDev d) := .ite h h.keep.alert.driveAttn

theorem noteSaturated {old new : Counter} {offset tile block : Nat}
    (h : s.Keeps u) : s.Keeps (u.noteSaturated old new offset tile block) := .ite h.raise h

theorem checkDegraded (h : s.Keeps u) : s.Keeps u.checkDegraded := .ite h.setDev.raise h

theorem abandon {g cause : Nat} {removed replace : List Nat} (h : s.Keeps u) : s.Keeps (u.abandon g cause removed replace) := by
  unfold State.abandon
  dsimp only
  split
  · exact h
  · exact h.setGraph.raiseAll

theorem setScore {k : PartKind} {id score part : Nat} (h : s.Keeps u) : s.Keeps (u.setScore k id score part) := by
  unfold State.setScore
  dsimp only
  split
  · exact h.updTile
  · exact h.updTile
  · exact h.keep
  · exact h.keep
  · exact h.updSlice
  · exact h.updRange
  · exact h.updPort
  · exact h.updPhase

theorem addDefect {kind source id cause : Nat} (h : s.Keeps u) : s.Keeps (u.addDefect kind source id cause) := .ite h h.keep

theorem setHood {n : Nat} {q : List Staging} (h : s.Keeps u) : s.Keeps (u.setHood n q) := h.keep

theorem noticeHood {n : Nat} (h : s.Keeps u) : s.Keeps (u.noticeHood n) := .ite (.foldl h fun _ _ ht => ht.updPhase) h

theorem queueStaging {dom : Nat} {on : Bool} (h : s.Keeps u) : s.Keeps (u.queueStaging dom on) := h.noticeHood.setHood

theorem askDomain {dom : Nat} {on : Bool} (h : s.Keeps u) : s.Keeps (u.askDomain dom on) := .ite h h.queueStaging

theorem restorePoint {g : Staging} (h : s.Keeps u) : s.Keeps (u.restorePoint g) := h.keep

theorem unstage {dom : Nat} (h : s.Keeps u) : s.Keeps (u.unstage dom) := .ite h (.setHood (.foldl h fun _ _ ht => ht.restorePoint))

theorem tarnsOff {ts : List Nat} (h : s.Keeps u) : s.Keeps (u.tarnsOff ts) := .foldl h fun _ _ ht => .ite ht.askDomain ht

theorem restTarn {i : Nat} (h : s.Keeps u) : s.Keeps (u.restTarn i) := .ite h (.ite h.updTile h.askDomain)

theorem quiet {i : Nat} (h : s.Keeps u) : s.Keeps (u.quiet i) := .ite h.askDomain h.restTarn

theorem dropWords {i : Nat} (h : s.Keeps u) : s.Keeps (u.dropWords i) := h.keep

theorem completeStaging {i status : Nat} {ws : List (Nat × List Byte × Bool)} (h : s.Keeps u) : s.Keeps (u.completeStaging i status ws) :=
  h.keep

theorem letGo {i : Nat} (h : s.Keeps u) : s.Keeps (u.letGo i) := h.completeStaging.updTile.unstage.unstage.quiet

theorem fenceTile {i : Nat} (h : s.Keeps u) : s.Keeps (u.fenceTile i) := by
  unfold State.fenceTile
  dsimp only
  refine .ite h ?_
  refine .checkDegraded ?_
  split
  · exact h.completeStaging.dropWords.setTile.unstage.unstage.quiet
  · exact .ite h.completeStaging.dropWords.setTile.unstage.unstage.quiet.abandon.updGraph
      h.completeStaging.dropWords.setTile.unstage.unstage.quiet.abandon.updGraph

theorem settleScore {k : PartKind} {id old n cause : Nat} (h : s.Keeps u) : s.Keeps (u.settleScore k id old n cause) :=
  .ite h.setScore (.ite h.setScore.raise.addDefect h.setScore.raise)

theorem fenceAt {i n cause : Nat} (h : s.Keeps u) : s.Keeps (u.fenceAt i n cause) := .ite h h.setScore.raise.addDefect.fenceTile

theorem fenceNow {i cause : Nat} (h : s.Keeps u) : s.Keeps (u.fenceNow i cause) := h.fenceAt

theorem portTo {p : Nat} {st : PortState} (h : s.Keeps u) : s.Keeps (u.portTo p st) := by
  unfold State.portTo
  exact .ite h h.updPort.raise

theorem disablePort {p : Nat} (h : s.Keeps u) : s.Keeps (u.disablePort p) := h.updPort.portTo

theorem portDown {p : Nat} (h : s.Keeps u) : s.Keeps (u.portDown p) := h.updPort.portTo.raise

theorem takeSlot {i slice : Nat} (h : s.Keeps u) : s.Keeps (u.takeSlot i slice) := h.keep

theorem slotWithoutCopy {i n : Nat} (h : s.Keeps u) : s.Keeps (u.slotWithoutCopy i n) := h.updSlice.takeSlot.raise.keep

theorem placeSlice (h : s.Keeps u) : s.Keeps u.placeSlice := by
  unfold State.placeSlice
  split
  · exact h.slotWithoutCopy
  · exact h

theorem retireSlice {n : Nat} (h : s.Keeps u) : s.Keeps (u.retireSlice n) := by
  unfold State.retireSlice
  split
  · split
    · exact h.updSlice.takeSlot.raise
    · exact h.raise
  · exact h

theorem loseSlice {n cause : Nat} (h : s.Keeps u) : s.Keeps (u.loseSlice n cause) := by
  unfold State.loseSlice
  split
  · exact h
  · exact h.updSlice.raise

theorem capTile {i : Nat} (h : s.Keeps u) : s.Keeps (u.capTile i) := .ite h h.updTile.raise

theorem tilePhaseFailed {i phase report : Nat} (h : s.Keeps u) : s.Keeps (u.tilePhaseFailed i phase report) :=
  .ite h.raise.capTile (.ite h.raise.updTile.fenceNow h.raise)

theorem fencePart {k : PartKind} {id : Nat} (h : s.Keeps u) : s.Keeps (u.fencePart k id) := by
  unfold State.fencePart
  split
  · exact h.fenceTile
  · exact h.fenceTile
  · exact .foldl h fun _ _ ht => ht.fenceTile
  · exact h
  · exact h.retireSlice
  · exact h.raise
  · exact h.disablePort.raise
  · exact h.updPhase.tilePhaseFailed

theorem settle {k : PartKind} {id old n cause : Nat} (h : s.Keeps u) : s.Keeps (u.settle k id old n cause) :=
  .ite h.settleScore.fencePart h.settleScore

theorem blame {k : PartKind} {id weight cause : Nat} (h : s.Keeps u) : s.Keeps (u.blame k id weight cause) := h.settle

/-! ### Operands -/

theorem noteRead {i : Nat} {r : ReadRes} (h : s.Keeps u) : s.Keeps (u.noteRead i r) :=
  .ite h.setTile.noteSaturated.noteSaturated.noteSaturated.raiseAll h.setTile.noteSaturated.noteSaturated.noteSaturated.raiseAll.blame

/-! ### Memory -/

theorem setWrong {line n : Nat} (h : s.Keeps u) : s.Keeps (u.setWrong line n) := h.keep

theorem hbmUpset {us : List (Nat × Nat)} (h : s.Keeps u) : s.Keeps (u.hbmUpset us) := .foldl h fun _ _ ht => .ite ht.setWrong ht

theorem markLines {sp off n : Nat} {poison : Bool} (h : s.Keeps u) : s.Keeps (u.markLines sp off n poison) :=
  .ite (.setPoison (.ite h.setWrong h)) (.ite (.setPoison (.ite h.setWrong h)) (.ite h.setWrong h))

theorem store {sp off : Nat} {bs : List Byte} {poison : Bool} (h : s.Keeps u) : s.Keeps (u.store sp off bs poison) :=
  h.writeBytes.markLines

theorem writeCxl {off : Nat} {bs : List Byte} {poison : Bool} (h : s.Keeps u) : s.Keeps (u.writeCxl off bs poison).1 := by
  unfold State.writeCxl
  split
  · exact h.store
  · exact h

theorem stagedOn {i : Nat} (h : s.Keeps u) : s.Keeps (u.stagedOn i) := .ite h.updTile.completeStaging h

theorem turnTileOn {i : Nat} (h : s.Keeps u) : s.Keeps (u.turnTileOn i) :=
  .ite h (.ite (.askDomain (.ite (.askDomain (.ite h.askDomain h)) (.ite h.askDomain h)))
    (.ite (.askDomain (.ite h.askDomain h)) (.ite h.askDomain h)))

theorem stageWrite {i off : Nat} {bs : List Byte} {poison : Bool} (h : s.Keeps u) : s.Keeps (u.stageWrite i off bs poison).1 := by
  unfold State.stageWrite
  extract_lets free s1
  have h1 : s.Keeps s1 := h.updTile
  refine .iteFst ?_ (.ite h1.turnTileOn h1)
  dsimp only
  exact h1.updTile

theorem renewStaged {a : Nat} (h : s.Keeps u) : s.Keeps (u.renewStaged a) := by
  unfold State.renewStaged
  split
  · split
    · exact h.updTile
    · exact h
  · exact h

theorem writeUnit {a : Nat} {bs : List Byte} {poison : Bool} (h : s.Keeps u) : s.Keeps (u.writeUnit a bs poison).1 := by
  unfold State.writeUnit
  split
  · split
    · exact h.store
    · exact h.writeCxl
    · exact h
  · exact h.writeCxl
  · split
    · exact h.stageWrite
    · exact h
  · exact h
  · exact h

theorem countSlice {n i : Nat} (h : s.Keeps u) : s.Keeps (u.countSlice n i) := h.updSlice.noteSaturated

theorem hbmCorrected {off : Nat} (h : s.Keeps u) : s.Keeps (u.hbmCorrected off) := h.countSlice.blame

theorem hbmFailed {off : Nat} (h : s.Keeps u) : s.Keeps (u.hbmFailed off) := h.countSlice.raise.blame

theorem noteLine {off : Nat} (h : s.Keeps u) : s.Keeps (u.noteLine off) := by
  unfold State.noteLine
  refine .ite h ?_
  refine .ite h.countSlice ?_
  split
  · exact .ite h.draw h
  · exact h.hbmCorrected
  · exact h.hbmFailed
  · exact h.draw

theorem noteRun {n a k : Nat} (h : s.Keeps u) : s.Keeps (State.noteRun n a k u) := by
  induction n generalizing a k u with
  | zero => exact h
  | succ n ih =>
    unfold State.noteRun
    refine .ite h (ih ?_)
    split
    · exact h.noteLine
    · exact h

theorem readNoting {a n : Nat} (h : s.Keeps u) : s.Keeps (u.readNoting a n).2 := h.noteRun.renewStaged

theorem writeRun {n a : Nat} {bs : List Byte} {p : Bool} (h : s.Keeps u) : s.Keeps (State.writeRun n a bs p u).1 := by
  induction n generalizing a bs u with
  | zero => exact h
  | succ n ih =>
    unfold State.writeRun
    dsimp only
    split
    · exact h
    · split
      · exact h.writeUnit
      · exact ih h.writeUnit

theorem write {a : Nat} {bs : List Byte} {poison : Bool} (h : s.Keeps u) : s.Keeps (u.write a bs poison).1 := h.writeRun

theorem zeroRun {a n : Nat} (h : s.Keeps u) : s.Keeps (u.zeroRun a n) := h.trans ⟨rfl, .refl _, State.memWf_zeroRun⟩

/-! ### Descriptors -/

theorem writeCompletion {ring opcode cookie status detail result head : Nat}
    (h : s.Keeps u) : s.Keeps (u.writeCompletion ring opcode cookie status detail result head) := h.updCq.writeRec

theorem dropDesc {tag : Nat} (h : s.Keeps u) : s.Keeps (u.dropDesc tag) := h.keep

theorem complete {d : Desc} {status detail result : Nat} (h : s.Keeps u) : s.Keeps (u.complete d status detail result) :=
  h.writeCompletion.dropDesc

theorem completeTag {tag status detail result : Nat} (h : s.Keeps u) : s.Keeps (u.completeTag tag status detail result) := by
  unfold State.completeTag
  split
  · exact h
  · exact h.complete

theorem holdDesc {tag : Nat} (h : s.Keeps u) : s.Keeps (u.holdDesc tag) := h.keep

end State.Keeps

theorem State.Ends.runDesc {opc tag : Nat} {form : Desc → Form} {act : Desc → State → State} (h : s.Keeps u)
    (ha : ∀ {d t}, s.Keeps t → s.Keeps (act d t)) : s.Ends true (u.runDesc opc tag form act) := by
  refine .next ?_
  split
  · exact h
  · split
    · exact h
    · split
      · exact h.complete
      · exact ha h

namespace State.Keeps

/-! ### Manifest -/

theorem updUnit {j : Nat} {f : FwUnit → FwUnit} (h : s.Keeps u) : s.Keeps (u.updUnit j f) := h.keep

theorem loadFirmware (h : s.Keeps u) : s.Keeps u.loadFirmware := h.keep

theorem settleActivation (h : s.Keeps u) : s.Keeps u.settleActivation := by
  unfold State.settleActivation
  dsimp only
  split
  · exact h
  · have h1 : s.Keeps (match u.fw.update with
        | none => u
        | some e =>
          if u.stagedUnits.isEmpty then ({ u with fw := { u.fw with update := none } }).completeTag e.1 stOk 0 0
          else (({ u with fw := { u.fw with update := none } }).completeTag e.1 stOk 0 0).raise 0x1802 (mBuild u.manifest)
            u.stagedUnits.length 0) := by
      split
      · exact h
      · exact .ite h.keep.completeTag h.keep.completeTag.raise
    exact .ite h1.keep.raise h1

theorem activateUnit {j : Nat} (h : s.Keeps u) : s.Keeps (u.activateUnit j) := by
  unfold State.activateUnit
  split
  · exact h
  · exact .ite h.updUnit.settleActivation h

/-! ### Links -/

theorem turnUp {leaf next : Nat} (h : s.Keeps u) : s.Keeps (u.turnUp leaf next) := h.keep

theorem updOut {l : Nat} {f : LinkOut → LinkOut} (h : s.Keeps u) : s.Keeps (u.updOut l f) := h.keep

theorem rise {src j n : Nat} {w : Way} (h : s.Keeps u) : s.Keeps (u.rise src j n w) := .ite h h.updOut.turnUp

theorem ackRise {m i : Nat} {back : List Nat} (h : s.Keeps u) : s.Keeps (u.ackRise m i back) := by
  unfold State.ackRise
  split
  · exact h
  · exact h.updOut.turnUp.updOut

theorem mplaneParity {l : Nat} (h : s.Keeps u) : s.Keeps (u.mplaneParity l) := .ite h.raise.blame h.raise.blame

theorem parityOf {bad : Option Nat} (h : s.Keeps u) : s.Keeps (u.parityOf bad) := .elim h fun _ => h.mplaneParity

theorem sendArrive {i id b : Nat} (h : s.Keeps u) : s.Keeps (u.sendArrive i id b) := by
  unfold State.sendArrive
  split
  · exact h.updOut.turnUp
  · exact h.updOut

theorem sendReleases {b seq : Nat} {poison : Bool} {ts : List Nat} (h : s.Keeps u) : s.Keeps (u.sendReleases b seq poison ts) :=
  .foldl h fun _ _ ht => ht.updOut

theorem dropFlits {i : Nat} {bs : List Nat} (h : s.Keeps u) : s.Keeps (u.dropFlits i bs) := h.keep

theorem splaneParity {hops : List (Nat × Nat)} {slots : List Nat} (h : s.Keeps u) : s.Keeps (u.splaneParity hops slots) :=
  h.draw.draw.raise.blame

/-! ### Fire -/

theorem afterNone {x : Machine.Ctx} {x' : Firing} (h : s.Keeps u) : s.Keeps (afterNone x x' u) := h

end State.Keeps

theorem State.Ends.fire {opc i k : Nat} {us : List (Nat × Nat)} {eff : EffectFn} {after : AfterFn} (h : s.Keeps u)
    (ha : ∀ {c f t}, s.Keeps t → s.Keeps (after c f t)) : s.Ends (i < 320 && k < 8192) (u.fire opc i k us eff after) := by
  refine .onLive h ?_
  dsimp only
  split
  · split
    · exact h.updTile
    · exact ha (h.updTile.setTile.draw.noteRead.raiseAll)
  · exact h.updTile

namespace State.Keeps

/-! ### Engines -/

theorem mma_answers {t : Nat} {k : Nat} {u : List Upset} : Answers (.mma t k u) := fun h => .fire h fun ht => ht.afterNone

theorem mtrn_answers {t : Nat} {k : Nat} {u : List Upset} : Answers (.mtrn t k u) := fun h => .fire h fun ht => ht.afterNone

theorem vadd_answers {t : Nat} {k : Nat} {u : List Upset} : Answers (.vadd t k u) := fun h => .fire h fun ht => ht.afterNone

theorem vsub_answers {t : Nat} {k : Nat} {u : List Upset} : Answers (.vsub t k u) := fun h => .fire h fun ht => ht.afterNone

theorem vmul_answers {t : Nat} {k : Nat} {u : List Upset} : Answers (.vmul t k u) := fun h => .fire h fun ht => ht.afterNone

theorem vfma_answers {t : Nat} {k : Nat} {u : List Upset} : Answers (.vfma t k u) := fun h => .fire h fun ht => ht.afterNone

theorem vmax_answers {t : Nat} {k : Nat} {u : List Upset} : Answers (.vmax t k u) := fun h => .fire h fun ht => ht.afterNone

theorem vmin_answers {t : Nat} {k : Nat} {u : List Upset} : Answers (.vmin t k u) := fun h => .fire h fun ht => ht.afterNone

theorem vcmp_answers {t : Nat} {k : Nat} {u : List Upset} : Answers (.vcmp t k u) := fun h => .fire h fun ht => ht.afterNone

theorem vsel_answers {t : Nat} {k : Nat} {u : List Upset} : Answers (.vsel t k u) := fun h => .fire h fun ht => ht.afterNone

theorem vcvt_answers {t : Nat} {k : Nat} {u : List Upset} : Answers (.vcvt t k u) := fun h => .fire h fun ht => ht.afterNone

theorem vscale_answers {t : Nat} {k : Nat} {u : List Upset} : Answers (.vscale t k u) := fun h => .fire h fun ht => ht.afterNone

theorem vrsum_answers {t : Nat} {k : Nat} {u : List Upset} : Answers (.vrsum t k u) := fun h => .fire h fun ht => ht.afterNone

theorem vrmax_answers {t : Nat} {k : Nat} {u : List Upset} : Answers (.vrmax t k u) := fun h => .fire h fun ht => ht.afterNone

theorem vrssq_answers {t : Nat} {k : Nat} {u : List Upset} : Answers (.vrssq t k u) := fun h => .fire h fun ht => ht.afterNone

theorem vabsmax_answers {t : Nat} {k : Nat} {u : List Upset} : Answers (.vabsmax t k u) := fun h => .fire h fun ht => ht.afterNone

theorem vupd_answers {t : Nat} {k : Nat} {u : List Upset} : Answers (.vupd t k u) := fun h => .fire h fun ht => ht.afterNone

theorem xcomb_answers {t : Nat} {k : Nat} {u : List Upset} : Answers (.xcomb t k u) := fun h => .fire h fun ht => ht.afterNone

theorem fexp_answers {t : Nat} {k : Nat} {u : List Upset} : Answers (.fexp t k u) := fun h => .fire h fun ht => ht.afterNone

theorem flog_answers {t : Nat} {k : Nat} {u : List Upset} : Answers (.flog t k u) := fun h => .fire h fun ht => ht.afterNone

theorem frcp_answers {t : Nat} {k : Nat} {u : List Upset} : Answers (.frcp t k u) := fun h => .fire h fun ht => ht.afterNone

theorem frsq_answers {t : Nat} {k : Nat} {u : List Upset} : Answers (.frsq t k u) := fun h => .fire h fun ht => ht.afterNone

theorem fsincos_answers {t : Nat} {k : Nat} {u : List Upset} : Answers (.fsincos t k u) := fun h => .fire h fun ht => ht.afterNone

theorem topk_answers {t : Nat} {k : Nat} {u : List Upset} : Answers (.topk t k u) := fun h => .fire h fun ht => ht.afterNone

/-! ### Stream -/

theorem afterXdisp {c : Machine.Ctx} {f : Firing} (h : s.Keeps u) : s.Keeps (afterXdisp c f u) := by
  unfold Machine.afterXdisp
  dsimp only
  split
  · split
    · exact .ite h h.keep
    · exact h
  · exact h

theorem afterCsend {c : Machine.Ctx} {f : Firing} (h : s.Keeps u) : s.Keeps (afterCsend c f u) := by
  unfold Machine.afterCsend
  dsimp only
  split
  · exact .ite h.updTile (.foldl h.updTile fun _ _ ht => ht.updTile)
  · exact h

theorem afterCrecv {c : Machine.Ctx} {x : Firing} (h : s.Keeps u) : s.Keeps (afterCrecv c x u) := by
  unfold Machine.afterCrecv
  dsimp only
  split
  · exact .ite h (.foldl h fun _ _ ht => ht.updTile)
  · exact h

theorem sload_answers {t : Nat} {k : Nat} {u : List Upset} : Answers (.sload t k u) := fun h => .fire h fun ht => ht.afterNone

theorem sstore_answers {t : Nat} {k : Nat} {u : List Upset} : Answers (.sstore t k u) := fun h => .fire h fun ht => ht.afterNone

theorem sgather_answers {t : Nat} {k : Nat} {u : List Upset} : Answers (.sgather t k u) := fun h => .fire h fun ht => ht.afterNone

theorem sscatter_answers {t : Nat} {k : Nat} {u : List Upset} : Answers (.sscatter t k u) := fun h => .fire h fun ht => ht.afterNone

theorem smcast_answers {t : Nat} {k : Nat} {u : List Upset} : Answers (.smcast t k u) := fun h => .fire h fun ht => ht.afterNone

theorem xdisp_answers {t : Nat} {k : Nat} {u : List Upset} : Answers (.xdisp t k u) := fun h => .fire h fun ht => ht.afterXdisp

theorem csend_answers {t : Nat} {k : Nat} {u : List Upset} : Answers (.csend t k u) := fun h => .fire h fun ht => ht.afterCsend

theorem crecv_answers {t : Nat} {k : Nat} {u : List Upset} : Answers (.crecv t k u) := fun h => .fire h fun ht => ht.afterCrecv

theorem wload_answers {t : Nat} {k : Nat} {u : List Upset} : Answers (.wload t k u) := fun h => .fire h fun ht => ht.afterNone

/-! ### Steering -/

theorem afterScalc {c : Machine.Ctx} {f : Firing} (h : s.Keeps u) : s.Keeps (afterScalc c f u) := .ite h.noteRead h

theorem afterSummit {c : Machine.Ctx} {f : Firing} (h : s.Keeps u) : s.Keeps (afterSummit c f u) := .ite h.updTile h.updTile.sendArrive

theorem afterChsend {c : Machine.Ctx} {x : Firing} (h : s.Keeps u) : s.Keeps (afterChsend c x u) := h.updTile

theorem afterChrecv {c : Machine.Ctx} {x : Firing} (h : s.Keeps u) : s.Keeps (afterChrecv c x u) := by
  unfold Machine.afterChrecv
  dsimp only
  split
  · exact h.updTile
  · exact .foldl h.updTile fun _ _ ht => ht.updTile

theorem chsend_answers {t : Nat} {k : Nat} {u : List Upset} : Answers (.chsend t k u) := fun h => .fire h fun ht => ht.afterChsend

theorem chrecv_answers {t : Nat} {k : Nat} {u : List Upset} : Answers (.chrecv t k u) := fun h => .fire h fun ht => ht.afterChrecv

theorem chpoll_answers {t : Nat} {k : Nat} {u : List Upset} : Answers (.chpoll t k u) := fun h => .fire h fun ht => ht.afterNone

theorem scalc_answers {t : Nat} {k : Nat} {u : List Upset} : Answers (.scalc t k u) := fun h => .fire h fun ht => ht.afterScalc

theorem psend_answers {t : Nat} {k : Nat} {u : List Upset} : Answers (.psend t k u) := fun h => .fire h fun ht => ht.afterNone

theorem summit_answers {t : Nat} {k : Nat} {u : List Upset} : Answers (.summit t k u) := fun h => .fire h fun ht => ht.afterSummit

/-! ### Late -/

theorem renewRows {i id : Nat} {bytes : List Byte} {poison : Bool} (h : s.Keeps u) : s.Keeps (u.renewRows i id bytes poison) := h.keep

theorem renewReceive {c : Machine.Ctx} {f : Firing} (h : s.Keeps u) : s.Keeps (u.renewReceive c f) := by
  unfold State.renewReceive
  dsimp only
  split
  · exact h
  · exact .foldl h fun _ _ ht => ht.updTile

theorem readBeside {i : Nat} {cs : List TarnChange} {f : Firing} (h : s.Keeps u) : s.Keeps (u.readBeside i cs f) :=
  .ite h (.noteRead (.ite h.updTile.renewRows (.ite h.updTile.renewReceive h.updTile)))

theorem seeChanges {i : Nat} (h : s.Keeps u) : s.Keeps (u.seeChanges i) := .ite h (.draw (.foldl h.updTile fun _ _ ht => ht.readBeside))

/-! ### Tracker -/

theorem writeTable {i off : Nat} {bs : List Byte} (h : s.Keeps u) : s.Keeps (u.writeTable i off bs) := h.write

theorem writeStatistics {i : Nat} {x : Stream} (h : s.Keeps u) : s.Keeps (u.writeStatistics i x) := h.writeTable

theorem writeHalves {i : Nat} {old x : Stream} (h : s.Keeps u) : s.Keeps (u.writeHalves i old x) :=
  .ite (.writeTable (.ite h.writeTable h)) (.ite h.writeTable h)

theorem touch {i : Nat} (h : s.Keeps u) : s.Keeps (u.touch i) := by
  unfold State.touch
  dsimp only
  split
  · exact h.keep
  · exact h.keep.writeStatistics

theorem readRecord {i : Nat} (h : s.Keeps u) : s.Keeps (u.readRecord i) := .ite h h.noteRun

theorem useRecord {i : Nat} (h : s.Keeps u) : s.Keeps (u.useRecord i) := h.readRecord.touch

theorem putStream {i : Nat} {x : Stream} (h : s.Keeps u) : s.Keeps (u.putStream i x) := h.readRecord.setStream.touch.writeHalves

theorem modStream {i : Nat} {f : Stream → Stream} (h : s.Keeps u) : s.Keeps (u.modStream i f) := h.putStream

theorem notify {i status detail : Nat} (h : s.Keeps u) : s.Keeps (u.notify i status detail) := .ite h.notice h

theorem setPages {i : Nat} {ps : List (Nat × Nat)} (h : s.Keeps u) : s.Keeps (u.setPages i ps) := h.keep

theorem takePages {g i need n : Nat} (h : s.Keeps u) : s.Keeps (State.takePages g i need n u).1 := by
  induction n generalizing u with
  | zero => exact h
  | succ n ih =>
    unfold State.takePages
    dsimp only
    split
    · exact h
    · split
      · exact h
      · split
        · exact h
        · split
          · exact h
          · exact ih h.write.updSched.setPages.putStream

theorem raiseEmpty {g : Nat} {pools : List Nat} (h : s.Keeps u) : s.Keeps (u.raiseEmpty g pools) := by
  unfold State.raiseEmpty
  refine .foldl h fun t x ht => ?_
  split
  · exact ht
  · exact .ite ht ht.updSched.raise

theorem pagesReady {g i n : Nat} (h : s.Keeps u) : s.Keeps (u.pagesReady g i n).1 := by
  unfold State.pagesReady
  dsimp only
  split
  · exact h
  · split
    · exact h
    · split
      · exact h.takePages
      · exact h.takePages.putStream.raiseEmpty

theorem freePage {g p page : Nat} (h : s.Keeps u) : s.Keeps (u.freePage g p page) := by
  unfold State.freePage
  dsimp only
  split
  · exact h.updSched
  · exact .foldl h.updSched fun _ _ ht => .ite ht.putStream ht

theorem takeRun {g i : Nat} {v : Serving} {tokens : List Byte} {r : State × Nat} (h : s.Keeps u)
    (e : u.takeRun g i v tokens = some r) : s.Keeps r.1 := by
  unfold State.takeRun at e
  split at e
  · exact absurd e (by simp)
  · dsimp only at e
    split at e
    · exact absurd e (by simp)
    · rw [← Option.some.inj e]
      exact h.updSched.write

theorem freeRuns {g i : Nat} (h : s.Keeps u) : s.Keeps (u.freeRuns g i) := h.updSched

theorem reserveSlot {r : Nat} (h : s.Keeps u) : s.Keeps (u.reserveSlot r).1 := by
  unfold State.reserveSlot
  split
  · exact h.updHv
  · exact h

theorem releaseSlot {r : Nat} (h : s.Keeps u) : s.Keeps (u.releaseSlot r) := h.updHv

theorem unplan {g i : Nat} (h : s.Keeps u) : s.Keeps (u.unplan g i) := by
  unfold State.unplan
  dsimp only
  split
  · exact h
  · exact .foldl h.updSched fun _ _ ht => ht.releaseSlot

theorem endStream {i status detail : Nat} (h : s.Keeps u) : s.Keeps (u.endStream i status detail) :=
  .ite h h.unplan.freeRuns.putStream.writeStatistics

theorem dropCopies {i : Nat} (h : s.Keeps u) : s.Keeps (u.dropCopies i) := h.keep

theorem dropMoves {g i : Nat} (h : s.Keeps u) : s.Keeps (u.dropMoves g i) := by
  unfold State.dropMoves
  dsimp only
  split
  · exact h
  · exact .foldl h.dropCopies.updSched fun _ _ ht => ht.freePage

theorem freeStream {i : Nat} (h : s.Keeps u) : s.Keeps (u.freeStream i) :=
  .keep (.setStream (.writeHalves (.writeStatistics (.setPages (.foldl h.dropMoves fun _ _ ht => ht.freePage)))))

theorem takeIndex {r : Nat × State} (h : s.Keeps u) (e : u.takeIndex = some r) : s.Keeps r.2 := by
  unfold State.takeIndex at e
  split at e
  · rw [← Option.some.inj e]
    exact h.keep
  · split at e
    · exact absurd e (by simp)
    · rw [← Option.some.inj e]
      exact h.keep

theorem breakDeadline {i : Nat} (h : s.Keeps u) : s.Keeps (u.breakDeadline i) := by
  unfold State.breakDeadline
  dsimp only
  split
  · exact h
  · exact h.putStream.raise.notify

/-! ### TileEvents -/

theorem putPiece {i id i' : Nat} {p : Piece} (h : s.Keeps u) : s.Keeps (u.putPiece i id i' p) := h.updTile

theorem setPiece {i id i' : Nat} {st : PieceState} (h : s.Keeps u) : s.Keeps (u.setPiece i id i' st) := by
  unfold State.setPiece
  split
  · exact h
  · exact h.putPiece

theorem noteDigest {i : Nat} {f : Firing} (h : s.Keeps u) : s.Keeps (u.noteDigest i f) := by
  unfold State.noteDigest
  dsimp only
  split
  · exact h
  · exact h.updGraph

theorem sendWord {i : Nat} {f : Firing} (h : s.Keeps u) : s.Keeps (u.sendWord i f) := .ite h.keep h

theorem commit {i : Nat} {f : Firing} (h : s.Keeps u) : s.Keeps (u.commit i f) :=
  h.updTile.noteSaturated.noteSaturated.noteDigest.sendWord

theorem remoteRow {status : Nat} {r : Row} (h : s.Keeps u) : s.Keeps (u.remoteRow status r) := .ite h.endStream h.modStream

theorem failStep {g : Nat} {b : Batch} (h : s.Keeps u) : s.Keeps (u.failStep g b) := .updSched (.foldl h fun _ _ ht => ht.endStream)

theorem noteIntegrity {g : Nat} {b : Batch} {status addr : Nat} (h : s.Keeps u) : s.Keeps (u.noteIntegrity g b status addr) :=
  h.updSched

theorem remoteFailure {g : Nat} {y : Graph} {b : Batch} {f : Firing} (h : s.Keeps u) : s.Keeps (u.remoteFailure g y b f) :=
  .abandon (.foldl h.noteIntegrity fun _ _ ht => ht.remoteRow)

theorem poisonStep {i : Nat} {f : Firing} (h : s.Keeps u) : s.Keeps (u.poisonStep i f) := by
  unfold State.poisonStep
  split
  · exact h
  · split
    · exact h
    · split
      · exact h.abandon
      · exact .ite h (.ite h.failStep (.ite h.remoteFailure (.abandon (.ite h h.noteIntegrity))))

theorem finish {i : Nat} {f : Firing} (h : s.Keeps u) : s.Keeps (u.finish i f) := .ite h.commit.poisonStep h.commit

theorem steeringFault {i : Nat} (h : s.Keeps u) : s.Keeps (u.steeringFault i) := by
  unfold State.steeringFault
  dsimp only
  refine .blame ?_
  split
  · exact h
  · exact h.abandon

theorem engineFailure {i : Nat} {f : Firing} (h : s.Keeps u) : s.Keeps (u.engineFailure i f) :=
  .ite (.ite h.blame h.blame.blame) (.ite (.updTile (.ite h.blame h.blame.blame)) (.finish (.ite h.blame h.blame.blame)))

theorem circuitParity {i : Nat} {f : Firing} (h : s.Keeps u) : s.Keeps (u.circuitParity i f) := by
  unfold State.circuitParity
  split
  · exact h
  · split
    · exact h
    · exact h.splaneParity

theorem operationComplete_answers {t : Nat} {id : Nat} {chk : Check} : Answers (.operationComplete t id chk) := by
  intro s u h
  refine .onLive h ?_
  dsimp only
  split
  · exact h
  · refine .ite h ?_
    split
    · exact h.finish
    · exact h.steeringFault
    · exact h.steeringFault
    · exact .finish (.ite h.circuitParity h)
    · exact h.engineFailure

theorem memoryOperationComplete_answers {t : Nat} {id : Nat} {bad : Bool} : Answers (.memoryOperationComplete t id bad) := by
  intro s u h
  refine .onLive h ?_
  dsimp only
  split
  · exact h
  · exact .ite h.finish h

theorem localReplay_answers {t : Nat} {id : Nat} {u : List Upset} : Answers (.localReplay t id u) := by
  intro s u h
  refine .onLive h ?_
  dsimp only
  split
  · exact h.updTile
  · exact .ite h.updTile (.ite h.updTile.finish h.updTile.setTile.noteSaturated.draw.draw.noteRead.raiseAll)

theorem loadStepNotice_answers {t : Nat} {k : Nat} : Answers (.loadStepNotice t k) := fun h =>
  .onLive h (.ite (.foldl h.setTile fun _ _ ht => ht.updPhase) h)

theorem scheduleFault {g : Nat} {circle : List (Nat × Nat)} (h : s.Keeps u) : s.Keeps (u.scheduleFault g circle) := by
  unfold State.scheduleFault
  dsimp only
  split
  · exact h
  · exact .ite h.raise.abandon.updGraph h.raise.abandon

theorem stopGraph {g : Nat} (h : s.Keeps u) : s.Keeps (u.stopGraph g) := h.updGraph.raise

theorem arrive {i q : Nat} {k : Token} (h : s.Keeps u) : s.Keeps (u.arrive i q k) := by
  unfold State.arrive
  dsimp only
  split
  · split
    · exact h
    · exact h.scheduleFault
  · split
    · exact h.updTile
    · split
      · exact h
      · exact .ite (.ite h.updTile.draw.noteRead.setGraph h.updTile.draw.noteRead.setGraph.stopGraph) h.updTile

theorem tokenArrival_answers {t : Nat} {q : Nat} : Answers (.tokenArrival t q) := by
  intro s u h
  refine .onLive h ?_
  split
  · exact h
  · exact h.updTile.arrive

theorem creditReturn_answers {t : Nat} {q : Nat} : Answers (.creditReturn t q) := fun h => .onLive h (.ite h h.updTile)

theorem releaseChannels {g : Nat} (h : s.Keeps u) : s.Keeps (u.releaseChannels g) := by
  unfold State.releaseChannels
  dsimp only
  split
  · exact h
  · exact .foldl h fun _ _ ht => ht.updTile

theorem channelCredit {w : ChanWord} (h : s.Keeps u) : s.Keeps (u.channelCredit w) := .ite h (.foldl h fun _ _ ht => ht.updTile)

theorem takeWord {w : ChanWord} {v : Word} {err : Bool} (h : s.Keeps u) : s.Keeps (u.takeWord w v err) := by
  unfold State.takeWord
  dsimp only
  split
  · exact .abandon (.foldl h fun _ _ ht => ht.updTile)
  · exact .foldl h fun _ _ ht => ht.updTile

theorem channelWordArrival_answers {t : Nat} {c : Nat} {bad : Bool} : Answers (.channelWordArrival t c bad) := by
  intro s u h
  refine .onLive h ?_
  dsimp only
  split
  · exact h
  · refine .ite h ?_
    refine .ite (.takeWord (.ite h.keep.draw.splaneParity h.keep)) ?_
    split
    · exact .ite (.ite h.keep.draw.splaneParity h.keep) (.channelCredit (.ite h.keep.draw.splaneParity h.keep))
    · exact .releaseChannels (.ite (.ite h.keep.draw.splaneParity h.keep) (.channelCredit (.ite h.keep.draw.splaneParity h.keep)))

theorem closeDispatch {i q : Nat} (h : s.Keeps u) : s.Keeps (u.closeDispatch i q) := by
  unfold State.closeDispatch
  dsimp only
  split
  · exact h
  · exact .ite h (.ite h.scheduleFault h.setTile)

theorem overflowWrite {a : Nat} {m : RowMsg} (h : s.Keeps u) : s.Keeps (u.overflowWrite a m).1 := by
  unfold State.overflowWrite
  split
  · split
    · exact h.write
    · exact h
  · exact h
  · exact h.write

theorem placeRow {q : Nat} {m : RowMsg} {lost : Bool} {j : Nat} (h : s.Keeps u) : s.Keeps (u.placeRow q m lost j) := by
  unfold State.placeRow
  dsimp only
  split
  · exact h
  · exact .ite h.updTile (.ite h.updTile.updTile (.ite h.updTile h.updTile.overflowWrite))

theorem landRow {i q : Nat} {m : RowMsg} (h : s.Keeps u) : s.Keeps (u.landRow i q m) := by
  unfold State.landRow
  dsimp only
  split
  · exact .raise (.updTile (.foldl h fun _ _ ht => ht.placeRow))
  · exact .updTile (.foldl h fun _ _ ht => ht.placeRow)

theorem dropRow {i : Nat} (h : s.Keeps u) : s.Keeps (u.dropRow i) := by
  unfold State.dropRow
  dsimp only
  split
  · exact h
  · exact h.keep.updTile

theorem dropCount {i : Nat} (h : s.Keeps u) : s.Keeps (u.dropCount i) := by
  unfold State.dropCount
  dsimp only
  split
  · exact h
  · exact h.keep.updTile

theorem mapRows {m : RowMsg} {f : RowMsg → RowMsg} (h : s.Keeps u) : s.Keeps (u.mapRows m f) := h.keep

theorem mapCounts {m : CountMsg} {f : CountMsg → CountMsg} (h : s.Keeps u) : s.Keeps (u.mapCounts m f) := h.keep

theorem admitCopies {r : Nat} (h : s.Keeps u) : s.Keeps (u.admitCopies r) := by
  unfold State.admitCopies
  dsimp only
  refine .foldl ?_ fun t x ht => .ite ht.mapCounts ht
  refine .foldl ?_ fun t x ht => .ite ht.mapRows ht
  refine .foldl h fun t x ht => ?_
  split
  · exact ht
  · exact .ite ht.putPiece ht

theorem leaveRouter {w : Way} (h : s.Keeps u) : s.Keeps (u.leaveRouter w) := .elim h fun _ => h.admitCopies

theorem rowArrives {i q j : Nat} {m : RowMsg} {rest : List RowMsg} {bad : Option Nat} {back : List Nat}
    (h : s.Keeps u) : s.Keeps (u.rowArrives i q j m rest bad back) :=
  .parityOf (.foldl h.keep.mapRows.landRow.updOut.ackRise.leaveRouter fun _ _ ht => ht.closeDispatch)

theorem expertRowArrival_answers {t : Nat} {q : Nat} {bad : Option Nat} {busy : List Nat} {held : List (Nat × Nat)}
    {back : List Nat} : Answers (.expertRowArrival t q bad busy held back) := by
  intro s u h
  refine .onLive h ?_
  dsimp only
  refine .ite h.dropRow ?_
  refine .ite h ?_
  split
  · exact h
  · split
    · exact h
    · refine .ite h ?_
      split
      · exact h.rise.mapRows
      · exact .ite h h.rise.rowArrives

theorem takeCount {q : Nat} {m : CountMsg} {j : Nat} (h : s.Keeps u) : s.Keeps (u.takeCount q m j) := by
  unfold State.takeCount
  dsimp only
  split
  · exact h
  · split
    · exact h.setTile
    · exact .ite h.setTile h.setTile

theorem countArrives {i q j : Nat} {m : CountMsg} {rest : List CountMsg} {bad : Option Nat} {back : List Nat}
    (h : s.Keeps u) : s.Keeps (u.countArrives i q j m rest bad back) :=
  .parityOf (.foldl (.leaveRouter (.ackRise (.updTile (.updOut (.foldl h.keep.mapCounts fun _ _ ht => ht.takeCount))))) fun _ _ ht =>
    ht.closeDispatch)

theorem expertCountRecord_answers {t : Nat} {q : Nat} {bad : Option Nat} {busy : List Nat} {held : List (Nat × Nat)}
    {back : List Nat} : Answers (.expertCountRecord t q bad busy held back) := by
  intro s u h
  refine .onLive h ?_
  dsimp only
  refine .ite h.dropCount ?_
  refine .ite h ?_
  split
  · exact h
  · split
    · exact h
    · refine .ite h ?_
      split
      · exact h.rise.mapCounts
      · exact .ite h h.rise.countArrives

theorem arriveAt {i : Nat} {f : Firing} {b v : Nat} {ms : List Nat} {poison : Bool}
    (h : s.Keeps u) : s.Keeps (u.arriveAt i f b v ms poison) := .ite h.keep.sendReleases h.keep

theorem summitArrive_answers {t : Nat} {id : Nat} {bad : Option Nat} : Answers (.summitArrive t id bad) := by
  intro s u h
  refine .onLive h ?_
  dsimp only
  split
  · split
    · exact h
    · exact .ite (.ite h h.updOut.sendArrive) h.updOut.arriveAt.parityOf
  · exact h

theorem summitRelease_answers {t : Nat} {id : Nat} {bad : Option Nat} : Answers (.summitRelease t id bad) := by
  intro s u h
  refine .onLive h ?_
  dsimp only
  split
  · exact h
  · split
    · exact h
    · split
      · exact h
      · exact .ite h.updOut.finish.parityOf h

theorem countAll {i : Nat} {sel : TileCounters → Tab Counter} {put : TileCounters → Tab Counter → TileCounters} {offset : Nat → Nat}
    {ks : List Nat} (h : s.Keeps u) : s.Keeps (u.countAll i sel put offset ks) := .foldl h fun _ _ ht => ht.updTile.noteSaturated

theorem noteWaits {i : Nat} (h : s.Keeps u) : s.Keeps (u.noteWaits i) := by
  unfold State.noteWaits
  dsimp only
  exact h.updTile

theorem wheelTurn_answers {t : Nat} : Answers (.wheelTurn t) := fun h =>
  .onLive h (.ite h.seeChanges.updTile.noteWaits.countAll.countAll.countAll h.seeChanges.updTile.noteWaits)

theorem dropFlights {i : Nat} (h : s.Keeps u) : s.Keeps (u.dropFlights i) := h.keep

theorem abandonFlit_answers {t : Nat} : Answers (.abandonFlit t) := by
  intro s u h
  refine .onLive h ?_
  dsimp only
  split
  · exact h
  · split
    · exact h
    · split
      · exact h
      · exact .ite h (.foldl h.updTile.dropFlights.setGraph.updTile.keep.dropFlits fun _ _ ht => ht.poisonStep)

theorem tarnPatrolRead_answers {t : Nat} {u : List Upset} : Answers (.tarnPatrolRead t u) := fun h =>
  .onLive h (.ite h.updTile h.updTile.setTile.draw.noteRead)

theorem tarnPatrolWriteBack_answers {t : Nat} : Answers (.tarnPatrolWriteBack t) := fun h => .onLive h (.ite h h.setTile)

theorem sideRegister {blk : List Byte} {addr : Nat} (h : s.Keeps u) : s.Keeps (sideRegister blk addr u) := h.keep

theorem sideRead_answers {i : Nat} {space : SideSpace} {addr : Nat} {us : List Upset} : Answers (.sideRead i space addr us) := by
  intro s u h
  cases space with
  | tarn =>
    refine .onUnit ?_
    split
    · exact h.updTile.keep
    · exact h.updTile.draw.keep
  | channels => exact .onUnit h.updTile.keep
  | tarnRegs => exact .onUnit h.updTile.keep
  | observation => exact .onUnit h.updTile.keep
  | opStore => exact .onUnit h.updTile.keep

theorem sideAccessTimeout_answers {t : Nat} {unit_ : Nat} : Answers (.sideAccessTimeout t unit_) := fun h => .onUnit (.ite h.keep h)

theorem tarnStagingWrite_answers {addr : Nat} {bytes : List Byte} : Answers (.tarnStagingWrite addr bytes) := by
  intro s u h
  refine .onLive h ?_
  dsimp only
  split
  · exact .ite h.write.updTile.keep h.write.keep
  · exact h.keep

theorem tarnStagingRead_answers {addr : Nat} {n : Nat} : Answers (.tarnStagingRead addr n) := by
  intro s u h
  refine .onLive h ?_
  dsimp only
  split
  · exact h.renewStaged.draw.keep
  · exact h.keep

theorem stagedTileTimeout_answers {t : Nat} : Answers (.stagedTileTimeout t) := by
  intro s u h
  refine .onLive h ?_
  split
  · exact h.advanceTo.letGo
  · exact h

/-! ### Shutdown -/

theorem saveTraining (h : s.Keeps u) : s.Keeps u.saveTraining := h.keep

theorem trainingSave_answers : Answers .trainingSave := fun h => .next (.ite h h.advanceTo.keep.saveTraining)

theorem addResult {x : TestResult} (h : s.Keeps u) : s.Keeps (u.addResult x) := h.keep

theorem sliceFailed {source : Nat} {k : Nat × Nat} (h : s.Keeps u) : s.Keeps (u.sliceFailed source k) :=
  .ite h (.ite h.addDefect.setScore.raise.fenceTile h.addDefect)

theorem wipe {k n : Nat} (h : s.Keeps u) : s.Keeps (u.wipe k n) := by
  refine .ite (h.trans ⟨rfl, .refl _, fun hw => ?_⟩) h
  rw [State.memWf_iff] at hw ⊢
  exact ⟨Memory.wf_wipe hw.1, hw.2⟩

theorem recordSlice {k j outcome source : Nat} {r : SliceReport} (h : s.Keeps u) : s.Keeps (u.recordSlice k j outcome source r) :=
  .checkDegraded (.addResult (.foldl h.wipe fun _ _ ht => ht.sliceFailed))

theorem print {ls : List Line} (h : s.Keeps u) : s.Keeps (u.print ls) := h.keep

theorem endSlice {preempted : Bool} {r : SliceReport} (h : s.Keeps u) : s.Keeps (u.endSlice preempted r) := by
  unfold State.endSlice
  dsimp only
  split
  · exact h
  · exact .print (.recordSlice (.foldl h.keep fun _ _ ht => .ite ht.letGo ht))

theorem preemptSlice (h : s.Keeps u) : s.Keeps u.preemptSlice := h.draw.endSlice

theorem finishShutdown (h : s.Keeps u) : s.Keeps u.finishShutdown := h.keep.alert.driveAttn

theorem nextPlace (h : s.Keeps u) : s.Keeps u.nextPlace := h.keep

theorem noteMissed {cut : Bool} (h : s.Keeps u) : s.Keeps (u.noteMissed cut) := h.keep

theorem skipBad {n : Nat} (h : s.Keeps u) : s.Keeps (State.skipBad n u) := by
  induction n generalizing u with
  | zero => exact h
  | succ n ih =>
    unfold State.skipBad
    dsimp only
    split
    · exact ih h.addResult.nextPlace
    · exact h

theorem beginSchedule (h : s.Keeps u) : s.Keeps u.beginSchedule :=
  .ite h.saveTraining.keep.finishShutdown h.saveTraining.keep.keep.skipBad

theorem shutdownOn (h : s.Keeps u) : s.Keeps u.shutdownOn := .ite h.beginSchedule h

theorem unloadAll (h : s.Keeps u) : s.Keeps u.unloadAll := .foldl h fun _ _ ht => ht.updGraph.keep

theorem startShutdown (h : s.Keeps u) : s.Keeps u.startShutdown :=
  .ite h (.ite h.keep.driveAttn.beginSchedule (.ite h.keep.driveAttn.unloadAll h.keep.driveAttn.raise))

theorem shutdownSlice {k : Nat} {r : SliceReport} (h : s.Keeps u) : s.Keeps (u.shutdownSlice k r) := by
  unfold State.shutdownSlice
  dsimp only
  exact h.advanceTo.recordSlice.keep

theorem afterSlice {cut last : Bool} {r : SliceReport} (h : s.Keeps u) : s.Keeps (u.afterSlice cut last r) := by
  unfold State.afterSlice
  dsimp only
  exact .ite h.shutdownSlice.noteMissed.nextPlace.finishShutdown h.shutdownSlice.noteMissed.nextPlace.skipBad

theorem shutdownSliceDone_answers {r : SliceReport} : Answers (.shutdownSliceDone r) := fun h => .onUnit (.ite h h.afterSlice)

theorem shutdownBudgetExpiry_answers {r : SliceReport} {whole : Bool} : Answers (.shutdownBudgetExpiry r whole) := fun h =>
  .onUnit (.ite h h.afterSlice)

/-! ### Placement -/

theorem takeSlots {g : Nat} {ls : List (Nat × Nat)} (h : s.Keeps u) : s.Keeps (u.takeSlots g ls) := h.keep

theorem takeBuntings {g : Nat} {bs : List Nat} (h : s.Keeps u) : s.Keeps (u.takeBuntings g bs) := h.keep

theorem releasePlanes {g : Nat} (h : s.Keeps u) : s.Keeps (u.releasePlanes g) := h.keep

theorem recordSession {i ms cases outcome : Nat} (h : s.Keeps u) : s.Keeps (u.recordSession i ms cases outcome) := h.keep

theorem routerOn {m : Nat} (h : s.Keeps u) : s.Keeps (u.routerOn m) := h.keep

theorem withdraw {i : Nat} (h : s.Keeps u) : s.Keeps (u.withdraw i) := by
  unfold State.withdraw
  dsimp only
  split
  · exact .recordSession (.draw (.updTile (.completeStaging (.ite h.preemptSlice h))))
  · exact .updTile (.completeStaging (.ite h.preemptSlice h))

theorem writeTile {i : Nat} {f : Tile → Tile} (h : s.Keeps u) : s.Keeps (u.writeTile i f) := h.withdraw.updTile.turnTileOn

theorem writeTiles {g : Nat} {im : Image} {place : List Nat} {gen : Nat} (h : s.Keeps u) : s.Keeps (u.writeTiles g im place gen) :=
  .foldl h fun _ _ ht => .ite ht.writeTile ht

theorem freeTileNow {i : Nat} (h : s.Keeps u) : s.Keeps (u.freeTileNow i) := .ite h.updTile h.letGo

theorem reroute {g : Nat} (h : s.Keeps u) : s.Keeps (u.reroute g) := by
  unfold State.reroute
  refine .foldl h fun t x ht => ?_
  split
  · exact ht
  · split
    · exact ht
    · exact ht.updTile

theorem putVtile {g v i : Nat} (h : s.Keeps u) : s.Keeps (u.putVtile g v i) := by
  unfold State.putVtile
  dsimp only
  split
  · exact h
  · exact h.setGraph.writeTile.takeSlots.reroute

theorem suspend {g v : Nat} (h : s.Keeps u) : s.Keeps (u.suspend g v) := by
  unfold State.suspend
  dsimp only
  split
  · exact h
  · exact .ite h.setGraph.raise (.foldl h.setGraph.raise fun _ _ ht => ht.notice)

theorem replaceVtile {g v : Nat} (h : s.Keeps u) : s.Keeps (u.replaceVtile g v) := by
  unfold State.replaceVtile
  split
  · exact h
  · split
    · exact h.suspend
    · exact h.putVtile

/-! ### Burgee -/

theorem burgeeOverCircuits {i gen : Nat} {feeds : List (Nat × Nat)} (h : s.Keeps u) : s.Keeps (u.burgeeOverCircuits i gen feeds) := by
  unfold State.burgeeOverCircuits
  refine .foldl h fun t x ht => ?_
  split
  · exact ht
  · exact .foldl ht.updTile fun _ _ ht => ht.updTile

theorem burgeeRecords {i v gen : Nat} {y : Graph} (h : s.Keeps u) : s.Keeps (u.burgeeRecords i v gen y) := h.keep

theorem sendMarkers {i : Nat} (h : s.Keeps u) : s.Keeps (u.sendMarkers i) := h.keep

theorem finishChange {g : Nat} (h : s.Keeps u) : s.Keeps (u.finishChange g) := by
  unfold State.finishChange
  dsimp only
  split
  · exact h
  · split
    · exact h
    · exact .ite h (.ite h.setGraph (.takeSlots (.keep (.foldl h.setGraph fun _ _ ht => .ite ht.updTile ht))))

theorem repost {i v : Nat} (h : s.Keeps u) : s.Keeps (u.repost i v) := by
  unfold State.repost
  dsimp only
  split
  · exact h
  · exact .foldl (.foldl h fun _ _ ht => ht.updTile) fun _ _ ht => .ite (.foldl ht fun _ _ ht => ht.updTile) ht

theorem sendBurgee {i q gen : Nat} (h : s.Keeps u) : s.Keeps (u.sendBurgee i q gen) := .foldl h fun _ _ ht => ht.updTile

theorem sendBurgees {g : Nat} (h : s.Keeps u) : s.Keeps (u.sendBurgees g) := by
  unfold State.sendBurgees
  split
  · exact h
  · exact .foldl h fun _ _ ht => .ite (.foldl ht fun _ _ ht => ht.sendBurgee) ht

theorem startNewTiles {g : Nat} (h : s.Keeps u) : s.Keeps (u.startNewTiles g) := by
  unfold State.startNewTiles
  split
  · exact h
  · split
    · exact h
    · exact .foldl h fun _ _ ht => .ite ht.updTile ht

theorem placeBurgees {g start : Nat} (h : s.Keeps u) : s.Keeps (u.placeBurgees g start) := by
  unfold State.placeBurgees
  split
  · exact h
  · split
    · exact h
    · exact .ite h h.setGraph.sendBurgees.startNewTiles.releaseChannels.completeTag

theorem releaseRow {r : Row} (h : s.Keeps u) : s.Keeps (u.releaseRow r) := .ite h.releaseSlot h

theorem endCancelled {i : Nat} (h : s.Keeps u) : s.Keeps (u.endCancelled i) := .ite h.endStream (.ite h.endStream h)

theorem removeRow {status detail : Nat} {r : Row} (h : s.Keeps u) : s.Keeps (u.removeRow status detail r) :=
  .ite h.releaseRow h.releaseRow.notify.endCancelled

theorem batchAgain {g : Nat} {causes handles : List Nat} {b : Batch} (h : s.Keeps u) : s.Keeps (u.batchAgain g causes handles b) := by
  unfold State.batchAgain
  dsimp only
  split
  · exact h
  · exact .updSched (.foldl (.foldl h fun _ _ ht => ht.removeRow) fun _ _ ht => ht.notify)

theorem letRun {g : Nat} (h : s.Keeps u) : s.Keeps (u.letRun g) := by
  unfold State.letRun
  dsimp only
  split
  · exact h
  · exact .foldl h fun _ _ ht => .ite ht ht.updTile

theorem burgeeAgain {g : Nat} (h : s.Keeps u) : s.Keeps (u.burgeeAgain g) := by
  unfold State.burgeeAgain
  dsimp only
  split
  · exact h
  · split
    · exact h
    · exact .ite h (.ite h.sendBurgees (.finishChange (.releaseChannels
        (.foldl h fun _ _ ht => .ite (.ite (.activateUnit (.ite ht.updTile ht.updTile.repost)) ht.freeTileNow.updGraph) ht))))

theorem deliverAgain {g : Nat} {causes handles : List Nat} (h : s.Keeps u) : s.Keeps (u.deliverAgain g causes handles) := by
  unfold State.deliverAgain
  split
  · exact h
  · exact .burgeeAgain (.letRun (.foldl h fun _ _ ht => ht.batchAgain))

theorem newGrid {g : Nat} (h : s.Keeps u) : s.Keeps (u.newGrid g) := by
  unfold State.newGrid
  dsimp only
  exact h.updSched

theorem resume {g cause : Nat} (h : s.Keeps u) : s.Keeps (u.resume g cause) := by
  unfold State.resume
  dsimp only
  split
  · exact h
  · exact h.setGraph.raise.newGrid.deliverAgain

theorem retry {g : Nat} (h : s.Keeps u) : s.Keeps (u.retry g) := by
  unfold State.retry
  dsimp only
  split
  · exact h
  · refine .ite h ?_
    split
    · refine .foldl h fun t x ht => ?_
      split
      · exact ht
      · exact ht.putVtile
    · split
      · refine .resume ?_
        refine .foldl h fun t x ht => ?_
        split
        · exact ht
        · exact ht.putVtile
      · refine .foldl h fun t x ht => ?_
        split
        · exact ht
        · exact ht.putVtile

theorem retryAll (h : s.Keeps u) : s.Keeps u.retryAll := .foldl h fun _ _ ht => ht.retry

theorem burgeePass_answers {t : Nat} : Answers (.burgeePass t) := by
  intro s u h
  refine .onLive h ?_
  dsimp only
  split
  · split
    · exact h
    · split
      · exact h
      · exact .ite (.ite (.finishChange (.releaseChannels (.activateUnit
          (.ite (.foldl (.ite h.burgeeOverCircuits.burgeeRecords.sendMarkers h.burgeeOverCircuits.burgeeRecords) fun _ _ ht =>
            ht.updTile) (.repost (.foldl (.ite h.burgeeOverCircuits.burgeeRecords.sendMarkers
              h.burgeeOverCircuits.burgeeRecords) fun _ _ ht => ht.updTile))))))
                (.retryAll (.finishChange (.releaseChannels (.updGraph
                  (.foldl h.burgeeOverCircuits.burgeeRecords.sendMarkers fun _ _ ht => ht.freeTileNow)))))) h
  · exact h

theorem burgeeSwitchComplete_answers {t : Nat} : Answers (.burgeeSwitchComplete t) := by
  intro s u h
  refine .onLive h ?_
  dsimp only
  split
  · exact h.setTile.releaseChannels
  · exact h

/-! ### Landing -/

theorem checkBlock {i id j : Nat} (h : s.Keeps u) : s.Keeps (u.checkBlock i id j) := by
  unfold State.checkBlock
  dsimp only
  split
  · exact h
  · exact .ite h (.ite h.updTile.blame h.updTile.noteSaturated.blame)

theorem checkWeights {i id i' : Nat} (h : s.Keeps u) : s.Keeps (u.checkWeights i id i') := by
  unfold State.checkWeights
  dsimp only
  split
  · exact h
  · split
    · exact h
    · exact .ite h (.foldl h fun _ _ ht => ht.checkBlock)

theorem takeList {i id : Nat} (h : s.Keeps u) : s.Keeps (u.takeList i id) := by
  unfold State.takeList
  dsimp only
  split
  · refine .ite h ?_
    split
    · exact h.updTile.raise
    · exact h.updTile
  · exact h

theorem landPiece {i id i' : Nat} (h : s.Keeps u) : s.Keeps (u.landPiece i id i') := by
  unfold State.landPiece
  dsimp only
  split
  · exact h
  · split
    · exact h
    · split
      · exact h.setTile.checkWeights.takeList
      · exact h

theorem turnBack {p : Piece} {j : Nat} (h : s.Keeps u) : s.Keeps (u.turnBack p j) := by
  unfold State.turnBack
  split
  · exact h.turnUp
  · exact h.turnUp
  · exact h

theorem copyResponse {i id i' : Nat} {st : PieceState} (h : s.Keeps u) : s.Keeps (u.copyResponse i id i' st) := by
  unfold State.copyResponse
  split
  · exact h
  · exact .foldl h fun _ _ ht => ht.updTile

theorem landCopy {i id i' : Nat} {f : Firing} (h : s.Keeps u) : s.Keeps (u.landCopy i id i' f) := by
  unfold State.landCopy
  split
  · exact h
  · exact h.updTile.setPiece.landPiece

theorem mplaneResponse_answers {t : Nat} {id : Nat} {i : Nat} {bad : Option Nat} {busy : List Nat} :
    Answers (.mplaneResponse t id i bad busy) := by
  intro s u h
  refine .onLive h ?_
  dsimp only
  split
  · exact h
  · refine .ite (.ite h.landCopy h) ?_
    split
    · exact h
    · split
      · exact .ite h h.updTile.copyResponse.turnBack.updOut.parityOf.landPiece
      · exact h

/-! ### Fabric -/

theorem useId {m source : Nat} (h : s.Keeps u) : s.Keeps (u.useId m source) := h.keep

theorem loseId (h : s.Keeps u) : s.Keeps u.loseId := h.keep

theorem refreshId (h : s.Keeps u) : s.Keeps u.refreshId := by
  unfold State.refreshId
  split
  · exact h.useId
  · exact .ite h.useId h.loseId

theorem lockSelf (h : s.Keeps u) : s.Keeps u.lockSelf := .ite h.keep.raise h

theorem countFz {i : Nat} (h : s.Keeps u) : s.Keeps (u.countFz i) := h.keep.noteSaturated

theorem countPort {p i n : Nat} (h : s.Keeps u) : s.Keeps (u.countPort p i n) := h.updPort.noteSaturated

theorem inject {p : Packet} (h : s.Keeps u) : s.Keeps (u.inject p) := .ite h.keep h

theorem updSend {n : Nat} {f : SendConn → SendConn} (h : s.Keeps u) : s.Keeps (u.updSend n f) := h.keep

theorem sendOpen {n : Nat} (h : s.Keeps u) : s.Keeps (u.sendOpen n) := h.updSend.inject

theorem closeSend {n : Nat} (h : s.Keeps u) : s.Keeps (u.closeSend n) := by
  unfold State.closeSend
  dsimp only
  refine .updSend ?_
  split
  · exact h.keep.inject
  · exact h

theorem startConn {n m : Nat} (h : s.Keeps u) : s.Keeps (u.startConn n m) := h.updSend.sendOpen

theorem connFor {m : Nat} {r : Nat × State} (h : s.Keeps u) (e : u.connFor m = some r) : s.Keeps r.2 := by
  unfold State.connFor at e
  split at e
  · rw [← Option.some.inj e]
    exact h
  · split at e
    · exact absurd e (by simp)
    · rw [← Option.some.inj e]
      exact (State.Keeps.ite h.closeSend h).startConn

theorem transmit {n : Nat} {o : Outstanding} (h : s.Keeps u) : s.Keeps (u.transmit n o) := h.updSend.inject

theorem request {p : Packet} {w : Requester} (h : s.Keeps u) (e : u.request p w = some t) : s.Keeps t := by
  unfold State.request at e
  split at e
  · exact absurd e (by simp)
  · next n s1 hc =>
    dsimp only at e
    split at e
    · exact absurd e (by simp)
    · rw [← Option.some.inj e]
      have h1 : s.Keeps s1 := h.connFor hc
      exact .ite h1.updSend.transmit h1.updSend

/-! ### Ports -/

theorem fzSignalDetect_answers {p : Nat} : Answers (.fzSignalDetect p) := fun {s u} h =>
  show s.Ends _ (execFzSignalDetect p u) from .portStep h fun ht => ht.updPort.portTo

theorem fzEqualiseDone_answers {p : Nat} : Answers (.fzEqualiseDone p) := fun {s u} h =>
  show s.Ends _ (execFzEqualiseDone p u) from .portStep h fun ht => ht.portTo

theorem fzEqualiseTimeout_answers {p : Nat} : Answers (.fzEqualiseTimeout p) := fun {s u} h =>
  show s.Ends _ (execFzEqualiseTimeout p u) from .portStep h fun ht => ht.portDown

theorem fzAlignDone_answers {p : Nat} {failed : Nat} : Answers (.fzAlignDone p failed) := fun {s u} h =>
  show s.Ends _ (execFzAlignDone p failed u) from .portStep h fun ht => .ite ht.updPort.portTo (.ite ht.updPort.raise.portTo ht.portDown)

theorem fzAlignTimeout_answers {p : Nat} : Answers (.fzAlignTimeout p) := fun {s u} h =>
  show s.Ends _ (execFzAlignTimeout p u) from .portStep h fun ht => ht.portTo

theorem identify {p : Nat} {far : FarId} (h : s.Keeps u) : s.Keeps (u.identify p far) := by
  unfold State.identify
  dsimp only
  split
  · exact h
  · exact .ite h (.ite (.ite h.updPort.updPort.portTo.blame h.updPort.updPort.portTo) h.updPort.raiseAll.portTo)

theorem fzIdentifyExchange_answers {p : Nat} {far : FarId} : Answers (.fzIdentifyExchange p far) := fun {s u} h =>
  show s.Ends _ (execFzIdentifyExchange p far u) from .portStep h fun ht => ht.identify

theorem fzHeldRetry_answers {p : Nat} {far : FarId} : Answers (.fzHeldRetry p far) := fun {s u} h =>
  show s.Ends _ (execFzHeldRetry p far u) from .portStep h fun ht => ht.identify

theorem fzDownRetry_answers {p : Nat} : Answers (.fzDownRetry p) := fun {s u} h =>
  show s.Ends _ (execFzDownRetry p u) from .portStep h fun ht => .ite ht.portTo ht

theorem enablePort {p : Nat} (h : s.Keeps u) : s.Keeps (u.enablePort p) := .ite h (.ite h.askDomain h.portTo)

theorem flushAfter {p : Nat} {before : List Codeword} (h : s.Keeps u) : s.Keeps (u.flushAfter p before) :=
  .ite h.updPort h.updPort.updPort

theorem flushPort {p : Nat} (h : s.Keeps u) : s.Keeps (u.flushPort p) := h.flushAfter

theorem portRetrain {p : Nat} (h : s.Keeps u) : s.Keeps (u.portRetrain p) := .ite h.updPort.countPort.portTo.updPort.blame h

theorem fzLockLoss_answers {p : Nat} : Answers (.fzLockLoss p) := fun {s u} h =>
  show s.Ends _ (execFzLockLoss p u) from .portStep h fun ht => ht.portRetrain

theorem fzRetrainDone_answers {p : Nat} {ok : Bool} : Answers (.fzRetrainDone p ok) := fun {s u} h =>
  show s.Ends _ (execFzRetrainDone p ok u) from .portStep h fun ht => .ite ht.updPort.portTo.updPort (.ite ht.portDown ht.updPort)

theorem fzRetrainTimeout_answers {p : Nat} : Answers (.fzRetrainTimeout p) := fun {s u} h =>
  show s.Ends _ (execFzRetrainTimeout p u) from .portStep h fun ht => ht.portDown

theorem stepCairn {o : ℤ} (h : s.Keeps u) : s.Keeps (u.stepCairn o) := h.keep

theorem slew {o : ℤ} (h : s.Keeps u) : s.Keeps (u.slew o) := .ite h h.keep

theorem follow {p master depth : Nat} {o : ℤ} (h : s.Keeps u) : s.Keeps (u.follow p master depth o) := by
  unfold State.follow
  dsimp only
  split
  · exact .ite (.ite h.keep.keep.raise h.keep.keep) h.keep.keep.stepCairn
  · exact .slew (.ite h.keep.keep.raise h.keep.keep)

theorem takeBeacon {p frac : Nat} {l : LinkFlit} (h : s.Keeps u) : s.Keeps (u.takeBeacon p frac l) := by
  unfold State.takeBeacon
  dsimp only
  split
  · exact .ite h.updPort.follow h.updPort
  · exact h.updPort

theorem fzBeaconSend_answers {p : Nat} {frac : Nat} : Answers (.fzBeaconSend p frac) := by
  intro s u h
  show s.Ends _ (execFzBeaconSend p u frac)
  refine .portStep h fun ht => ?_
  dsimp only
  refine .updPort ?_
  refine .updPort ?_
  split
  · exact ht
  · exact ht.advanceTo

theorem fzTimeHoldover_answers : Answers .fzTimeHoldover := by
  intro s u h
  refine .next ?_
  dsimp only
  split
  · exact h.advanceTo.keep.raise
  · exact h

theorem resend {p csn : Nat} (h : s.Keeps u) : s.Keeps (u.resend p csn) := h.updPort

theorem actOnNak {p csn : Nat} (h : s.Keeps u) : s.Keeps (u.actOnNak p csn) :=
  .ite h (.ite h.updPort.countPort.blame.portRetrain h.updPort.countPort.blame.resend)

theorem takeLinkFlit {p frac : Nat} {l : LinkFlit} (h : s.Keeps u) : s.Keeps (u.takeLinkFlit p frac l) :=
  .ite (.takeBeacon (.ite (.portRetrain (.ite h.updPort.actOnNak h.updPort)) (.ite h.updPort.actOnNak h.updPort)))
    (.ite (.portRetrain (.ite h.updPort.actOnNak h.updPort)) (.ite h.updPort.actOnNak h.updPort))

theorem discarded {p : Nat} (h : s.Keeps u) : s.Keeps (u.discarded p) := .ite h.updPort.portRetrain h.updPort

theorem discardCodeword {p : Nat} (h : s.Keeps u) : s.Keeps (u.discardCodeword p) := h.countPort.blame.discarded

theorem countSymbols {p n : Nat} (h : s.Keeps u) : s.Keeps (u.countSymbols p n) := .ite h.countPort.blame h.countPort

theorem acceptCodeword {p : Nat} {cw : Codeword} (h : s.Keeps u) : s.Keeps (u.acceptCodeword p cw) :=
  .ite h (.ite h.updPort h.discarded)

theorem fzCodewordReceive_answers {p : Nat} {cw : Codeword} {frac : Nat} : Answers (.fzCodewordReceive p cw frac) := by
  intro s u h
  show s.Ends _ (execFzCodewordReceive p cw u frac)
  refine .portStep h fun ht => ?_
  dsimp only
  refine .ite ht.discardCodeword.flushPort ?_
  refine .flushAfter ?_
  refine .acceptCodeword ?_
  split
  · exact .ite ht.updPort ht.updPort.countSymbols
  · exact .ite (.takeLinkFlit (.ite ht.updPort ht.updPort.countSymbols)) (.ite ht.updPort ht.updPort.countSymbols)

theorem takeAt {p : Nat} (h : s.Keeps u) : s.Keeps (u.takeAt p) := .ite h.keep h.updPort

theorem limit {q depth : Nat} (h : s.Keeps u) : s.Keeps (u.limit q depth) :=
  .ite (.ite (.raise (.updPort (.ite h h.updPort))) (.ite h h.updPort)) (.ite h.updPort h)

theorem output {p q : Nat} {k : Packet} (h : s.Keeps u) : s.Keeps (u.output p q k) := .ite h.takeAt h.takeAt.updPort.flushPort

theorem ejectPacket {k : Packet} (h : s.Keeps u) : s.Keeps (u.ejectPacket k) := .ite h.keep h.countFz

theorem fzPacketForward_answers {p : Nat} {depth : Nat} : Answers (.fzPacketForward p depth) := by
  intro s u h
  refine .onUnit ?_
  dsimp only
  split
  · exact h
  · refine .ite h.takeAt.countFz ?_
    split
    · exact h.takeAt.countFz
    · split
      · exact h.takeAt.countFz
      · exact h.takeAt.ejectPacket
      · exact .ite h.takeAt.countFz (.ite h.limit.output h.limit)

/-! ### Plane -/

theorem markDone {i a : Nat} {data : List Byte} (h : s.Keeps u) : s.Keeps (u.markDone i a data) := by
  unfold State.markDone
  dsimp only
  split
  · exact h
  · split
    · exact h
    · exact h.updSched

theorem tileWrite {i a : Nat} {data : List Byte} {poison : Bool} (h : s.Keeps u) : s.Keeps (u.tileWrite i a data poison).1 := by
  unfold State.tileWrite
  dsimp only
  split
  · split
    · exact h.write
    · split
      · exact h
      · exact .ite h.write h.write.markDone
  · exact h.write

theorem deliverCopy {p : Piece} {m : Nat} {bad : Bool} (h : s.Keeps u) : s.Keeps (u.deliverCopy p m bad).1 := by
  unfold State.deliverCopy
  dsimp only
  split
  · exact h
  · exact .foldl h fun _ _ ht => ht.updTile

theorem ackCopies {i : Nat} {back : List Nat} {old new : List (Nat × Bool × CopyState)}
    (h : s.Keeps u) : s.Keeps (u.ackCopies i back old new) := .foldl h fun _ _ ht => ht.ackRise

theorem sendCopy {i j : Nat} {p : Piece} {others : Copies} {held way : List (Nat × Nat)} {m : Nat} {bad : Bool}
    (h : s.Keeps u) : s.Keeps (u.sendCopy i j p others held way m bad).1 := by
  unfold State.sendCopy
  dsimp only
  split
  · exact h.deliverCopy
  · exact h

theorem castPiece {i id j k : Nat} {hit : Option Nat} {held : List (Nat × Nat)} {back : List Nat} {p : Piece} {b : Nat} (h : s.Keeps u) :
    s.Keeps (u.castPiece i id j k hit held back p b) := by
  unfold State.castPiece
  have hf := State.Keeps.foldlFst (l := (u.graphFor i).elim [] fun y => y.members b)
    (f := fun (a : State × Copies) m =>
      (((a.1.sendCopy i k p a.2 held (castPath i (k / 2) m) m (hit.any (castLinks i k m).contains)).1).putPiece i id j
          { p with
            state := .remote
            copies := a.2 ++ [(m, hit.any (castLinks i k m).contains,
              (a.1.sendCopy i k p a.2 held (castPath i (k / 2) m) m (hit.any (castLinks i k m).contains)).2)] },
        a.2 ++ [(m, hit.any (castLinks i k m).contains,
          (a.1.sendCopy i k p a.2 held (castPath i (k / 2) m) m (hit.any (castLinks i k m).contains)).2)]))
    (p := (u, [])) h fun _ _ hq => hq.sendCopy.putPiece
  exact hf.putPiece.ackCopies

theorem farRequest {i id i' : Nat} {p : Piece} (h : s.Keeps u) : s.Keeps (u.farRequest i id i' p) := by
  unfold State.farRequest
  dsimp only
  refine .ite h.setPiece ?_
  split
  · exact h.setPiece
  · next t e =>
      exact ((h.request e)).setPiece

theorem servePiece {i id i' : Nat} {p : Piece} (h : s.Keeps u) : s.Keeps (u.servePiece i id i' p) :=
  .ite (.ite h.farRequest (.ite h.tileWrite h.tileWrite.setPiece)) (.ite h.farRequest h.readNoting.setPiece)

theorem sendPiece {i id i' j : Nat} {bad : Option Nat} {sym held : List (Nat × Nat)} {back : List Nat} {p : Piece}
    (h : s.Keeps u) : s.Keeps (u.sendPiece i id i' j bad sym held back p) := by
  unfold State.sendPiece
  dsimp only
  refine .ite h.updOut.turnUp.hbmUpset.parityOf ?_
  split
  · exact h.updOut.turnUp.hbmUpset.parityOf.castPiece
  · exact h.updOut.turnUp.hbmUpset.parityOf.putPiece.servePiece

theorem mplaneRequest_answers {t : Nat} {id : Nat} {i : Nat} {bad : Option Nat} {sym : List (Nat × Nat)} {busy : List Nat}
    {held : List (Nat × Nat)} {back : List Nat} : Answers (.mplaneRequest t id i bad sym busy held back) := by
  intro s u h
  refine .onLive h ?_
  split
  · exact h
  · refine .ite (.ite h.setPiece h) ?_
    split
    · exact h
    · exact .ite h h.sendPiece

theorem releaseBranch {i id j r b : Nat} {held : List (Nat × Nat)} {back : List Nat} {p : Piece} (h : s.Keeps u) :
    s.Keeps (u.releaseBranch i id j r b held back p) := by
  unfold State.releaseBranch
  dsimp only
  refine State.Keeps.ackCopies (State.Keeps.putPiece (.foldlFst h fun q x hq => ?_))
  split
  · exact hq.sendCopy
  · exact hq

theorem multicastBranchRelease_answers {t : Nat} {id : Nat} {i : Nat} {r : Nat} {b : Nat} {held : List (Nat × Nat)}
    {back : List Nat} : Answers (.multicastBranchRelease t id i r b held back) := by
  intro s u h
  refine .onLive h ?_
  split
  · exact h
  · exact h.releaseBranch.admitCopies

theorem cxlAccessTimeout_answers {t : Nat} {id : Nat} {i : Nat} : Answers (.cxlAccessTimeout t id i) := by
  intro s u h
  refine .onLive h ?_
  split
  · exact h
  · exact .ite h.setPiece h

/-! ### Tier -/

theorem copyWrite {a : Nat} {bs : List Byte} {poison : Bool} (h : s.Keeps u) : s.Keeps (u.copyWrite a bs poison).1 := by
  unfold State.copyWrite
  split
  · split
    · exact h.write
    · exact h
  · exact h.write

theorem scribble {d a n : Nat} (h : s.Keeps u) : s.Keeps (State.scribble d a n u) := by
  induction n generalizing a u with
  | zero => exact h
  | succ n ih => exact ih (.ite h h.copyWrite)

theorem hostPoison {a : Nat} (h : s.Keeps u) : s.Keeps (u.hostPoison a) := .ite h.keep h

theorem spoil {j : CopyJob} (h : s.Keeps u) : s.Keeps (u.spoil j) := by
  unfold State.spoil
  split
  · exact h
  · exact h.hostWrite.draw
  · exact h.scribble.draw

theorem copyGet {j : CopyJob} (h : s.Keeps u) : s.Keeps (u.copyGet j).2.2 := by
  unfold State.copyGet
  split
  · split <;> exact h
  · dsimp only
    split
    · exact h
    · exact h.readNoting

theorem copyPut {j : CopyJob} {bytes : List Byte} {poison : Bool} (h : s.Keeps u) : s.Keeps (u.copyPut j bytes poison).1 := by
  unfold State.copyPut
  dsimp only
  split
  · exact .ite h.hostWrite.hostPoison h.hostWrite
  · exact h
  · split
    · exact h
    · exact h.copyWrite

theorem runCopy {n : Nat} {j : CopyJob} (h : s.Keeps u) : s.Keeps (State.runCopy n j u).1 := by
  induction n generalizing j u with
  | zero => exact h
  | succ n ih =>
    unfold State.runCopy
    dsimp only
    split
    · exact h
    · split
      · split
        · split
          · exact h
          · exact h.spoil
        · split
          · exact ih h.copyGet
          · exact h.copyGet.spoil
      · split
        · split
          · exact h
          · exact h.spoil
        · split
          · exact ih h.copyPut
          · split
            · exact h.copyPut
            · split <;> exact h.copyPut.spoil

theorem copyOn {j : CopyJob} (h : s.Keeps u) : s.Keeps (u.copyOn j).1 := h.runCopy

theorem keepCopy {j : CopyJob} (h : s.Keeps u) : s.Keeps (u.keepCopy j) := by
  unfold State.keepCopy
  refine .ite h.keep ?_
  split
  · exact h.keep
  · next e => exact (h.request e).keep

theorem beginCopy {d : Desc} {kind : CopyKind} {dead : Option Nat} (h : s.Keeps u) : s.Keeps (u.beginCopy d kind dead) := by
  unfold State.beginCopy
  dsimp only
  split
  · exact h.copyOn.complete
  · exact h.copyOn.keep.keepCopy.holdDesc

theorem memCopy_answers {d : Nat} {dead : Option Nat} : Answers (.memCopy d dead) := fun {s u} h =>
  show s.Ends _ (execMemCopy d dead u) from .runDesc h fun ht => ht.beginCopy

theorem hostCopy_answers {d : Nat} {data : Dma} {dead : Option Nat} : Answers (.hostCopy d data dead) := fun {s u} h =>
  show s.Ends _ (execHostCopy d data dead u) from .runDesc h fun ht => .ite (.beginCopy (.elim ht fun _ => ht.noteAer)) ht.beginCopy

theorem startMoves {g i p : Nat} {es : List (Nat × Nat × Nat)} (h : s.Keeps u) : s.Keeps (u.startMoves g i p es) := by
  unfold State.startMoves
  dsimp only
  refine .foldl h fun t x ht => ?_
  split
  · exact ht
  · split
    · exact ht
    · exact ht.updSched

theorem moveOut {g : Nat} {y : Graph} {v : Serving} {q : Nat → Nat → Bool} {to_ : Nat → Nat → Option Nat}
    {x : Nat × Stream} (h : s.Keeps u)
    (e : u.moveOut g y v q to_ x = some t) : s.Keeps t := by
  unfold State.moveOut at e
  dsimp only at e
  split at e
  · exact absurd e (by simp)
  · obtain ⟨p, -, rfl⟩ := Option.map_eq_some_iff.1 e
    exact h.startMoves

theorem evacuate {g : Nat} {y : Graph} {v : Serving} {x : Nat × Stream}
    (h : s.Keeps u) (e : u.evacuate g y v x = some t) : s.Keeps t := by
  unfold State.evacuate at e
  dsimp only at e
  split at e
  · exact absurd e (by simp)
  · rw [← Option.some.inj e]
    exact h.foldl fun _ _ ht => ht.elim fun _ => ht.startMoves

theorem firstMove {f : Nat × Stream → Option State} {xs : List (Nat × Stream)} (hf : ∀ x t, f x = some t → s.Keeps t)
    (e : firstMove f xs = some t) : s.Keeps t := by
  obtain ⟨x, -, hx⟩ := List.exists_of_findSome?_eq_some e
  exact hf x t hx

/-- The first of three moves that there is. -/
theorem orElse {a b c : Option State} (h : s.Keeps u) (ha : ∀ t, a = some t → s.Keeps t) (hb : ∀ t, b = some t → s.Keeps t)
    (hc : ∀ t, c = some t → s.Keeps t) : s.Keeps (((a.orElse fun _ => b).orElse fun _ => c).getD u) := by
  cases a with
  | some t => exact ha t rfl
  | none =>
    cases b with
    | some t => exact hb t rfl
    | none =>
      cases c with
      | some t => exact hc t rfl
      | none => exact h

theorem kvPageMigration_answers {g : Nat} : Answers (.kvPageMigration g) := by
  intro s u h
  refine .onLive h ?_
  split
  · exact h
  · split
    · exact h
    · refine .orElse h (fun t e => firstMove (fun x t => h.evacuate) e) (fun t e => ?_) fun t e => firstMove (fun x t e => ?_) e
      · obtain ⟨c, -, hc⟩ := List.exists_of_findSome?_eq_some e
        dsimp only at hc
        split at hc
        · exact firstMove (fun x t => h.moveOut) hc
        · exact absurd hc (by simp)
      · dsimp only at e
        split at e
        · exact h.moveOut e
        · exact absurd e (by simp)

theorem finishMove {g idx entry : Nat} {ok : Bool} (h : s.Keeps u) : s.Keeps (u.finishMove g idx entry ok) := by
  unfold State.finishMove
  dsimp only
  split
  · exact h
  · split
    · exact .ite h.updSched.write.setPages.freePage h.updSched.freePage
    · exact h

theorem endCopy {j : CopyJob} {status detail : Nat} (h : s.Keeps u) : s.Keeps (u.endCopy j status detail) := by
  unfold State.endCopy
  dsimp only
  split
  · exact h.completeTag
  · exact h.finishMove
  · exact h.keep

theorem moveCopy {j : CopyJob} (h : s.Keeps u) : s.Keeps (u.moveCopy j) := by
  unfold State.moveCopy
  dsimp only
  split
  · exact h.copyOn.endCopy
  · exact h.copyOn.keepCopy

theorem readImage {tag addr size : Nat} {dead : Option Nat} (h : s.Keeps u) : s.Keeps (u.readImage tag addr size dead).2 := by
  unfold State.readImage
  dsimp only
  split
  · exact h.keep
  · split
    · exact h
    · split
      · exact h.copyOn
      · exact h.copyOn.keep.keepCopy

theorem copyAnswer {id : Nat} {data : List Byte} {poison : Bool} {status : Nat}
    (h : s.Keeps u) : s.Keeps (u.copyAnswer id data poison status) := by
  unfold State.copyAnswer
  dsimp only
  split
  · exact h
  · exact .ite h.keep.spoil.endCopy h.keep.moveCopy

theorem retryCopies (h : s.Keeps u) : s.Keeps u.retryCopies := .foldl h fun _ _ ht => .ite ht.keep.spoil.endCopy ht.keep.moveCopy

theorem tarnClearDone_answers {t : Nat} : Answers (.tarnClearDone t) := fun h => .onLive h (.ite h.updTile.stagedOn.retryCopies h)

theorem kvPageMoveDone_answers {g : Nat} {idx : Nat} {entry : Nat} {ok : Bool} : Answers (.kvPageMoveDone g idx entry ok) := by
  intro s u h
  refine .onLive h ?_
  dsimp only
  split
  · exact h
  · split
    · exact .ite h (.ite h.finishMove h.keep.moveCopy)
    · exact h

theorem hbmPatrolRead_answers {sg : Nat} {slice : Nat} {wrong : Nat} : Answers (.hbmPatrolRead sg slice wrong) := by
  intro s u h
  refine .onLive h ?_
  dsimp only
  refine .ite h ?_
  refine .ite h.updSlice.hbmUpset ?_
  split
  · exact h.updSlice.hbmUpset.hbmCorrected.setWrong
  · exact h.updSlice.hbmUpset.hbmFailed.setPoison.setWrong
  · exact h.updSlice.hbmUpset

theorem copyFrame {slice frame c : Nat} (h : s.Keeps u) : s.Keeps (u.copyFrame slice frame c) :=
  .foldl h fun _ _ ht => ht.noteLine.store

theorem retireFrameCopied_answers {slice : Nat} {dead : Bool} : Answers (.retireFrameCopied slice dead) := by
  intro s u h
  refine .onLive h ?_
  dsimp only
  split
  · exact .ite h.loseSlice (.ite h.copyFrame (.ite h.copyFrame.updSlice h.copyFrame.updSlice.keep.raise))
  · exact h

theorem loseKv {gi : Nat × Nat} (h : s.Keeps u) : s.Keeps (u.loseKv gi) := by
  unfold State.loseKv
  split
  · exact h
  · exact .ite h.updStream h.endStream

theorem rangeOut {r members : Nat} (h : s.Keeps u) : s.Keeps (u.rangeOut r members) :=
  .foldl (.foldl h.updRange fun _ _ ht => ht.loseKv) fun _ _ ht => ht.loseSlice

theorem removalDone {waiting : List (Nat × Bool)} (h : s.Keeps u) : s.Keeps (u.removalDone waiting) :=
  .foldl h fun _ _ ht => ht.completeTag

theorem removeRange {r : Nat} {waiting : List (Nat × Bool)} (h : s.Keeps u) : s.Keeps (u.removeRange r waiting) :=
  h.rangeOut.raise.removalDone

theorem loseDevice {port r : Nat} (h : s.Keeps u) : s.Keeps (u.loseDevice port r) := .ite h (.ite h.updRange h.rangeOut.removalDone)

theorem cxlRangeLost_answers {r : Nat} {port : Nat} : Answers (.cxlRangeLost r port) := fun h => .onUnit h.loseDevice

theorem cxlRemove_answers {d : Nat} : Answers (.cxlRemove d) := fun {s u} h =>
  show s.Ends _ (execCxlRemove d u) from .runDesc h fun ht => .ite ht.complete (.ite ht.removeRange ht.updRange.holdDesc)

theorem cxlRemoveProceed_answers {r : Nat} : Answers (.cxlRemoveProceed r) := fun h => .onUnit (.ite h.removeRange h)

theorem cxlEventRecord_answers {r : Nat} : Answers (.cxlEventRecord r) := fun h => .onUnit (.ite h.blame h)

end State.Keeps

/-- A run that is cut out of what was initialised to zero leaves the other addresses as they were. -/
theorem Memory.wf_forgetZeroed {m : Memory} {lo n : Nat} {p : List Nat} (h : m.wf = true) :
    (Memory.mk (Tab.clear lo n m.bytes) (m.zeroed.flatMap (cutRun lo n)) p m.wiped).wf = true := by
  rw [Memory.wf_iff] at h ⊢
  refine ⟨h.1.filter _, fun e he => ?_⟩
  have he := List.mem_filter.1 he
  have hx : e.1 < lo ∨ lo + n ≤ e.1 := by simpa using he.2
  have hz : (m.zeroed.flatMap (cutRun lo n)).any (fun r => r.1 ≤ e.1 && e.1 < r.1 + r.2) =
      m.zeroed.any fun r => r.1 ≤ e.1 && e.1 < r.1 + r.2 := by
    have hc := fun r => any_cutRun (lo := lo) (n := n) (x := e.1) r true
    have ho : (decide (lo ≤ e.1) && decide (e.1 < lo + n)) = false := by simp; omega
    simp only [Bool.and_true, ho, Bool.not_false] at hc
    simp only [List.any_flatMap, hc]
  have hb := h.2 e he.1
  unfold Memory.blank at hb ⊢
  dsimp only
  rw [hz]
  exact hb

namespace State.Keeps

theorem forgetCxl {lo n : Nat} (h : s.Keeps u) : s.Keeps (u.forgetCxl lo n) := by
  refine h.trans ⟨rfl, .refl _, fun hw => ?_⟩
  rw [State.memWf_iff] at hw ⊢
  exact ⟨hw.1, Memory.wf_forgetZeroed hw.2.1, hw.2.2⟩

theorem slicesBack {r : Nat} (h : s.Keeps u) : s.Keeps (u.slicesBack r) := .foldl h fun _ _ ht => .ite ht.updSlice.raise.keep ht

theorem rangeOnline {r : Nat} (h : s.Keeps u) : s.Keeps (u.rangeOnline r) := h.updRange.forgetCxl.raise.slicesBack

theorem placeDevice {p sn sz : Nat} {r : Nat × State} (h : s.Keeps u) (e : u.placeDevice p sn sz = some r) : s.Keeps r.2 := by
  unfold State.placeDevice at e
  dsimp only at e
  split at e
  · exact absurd e (by simp)
  · split at e
    · exact absurd e (by simp)
    · obtain ⟨q, -, rfl⟩ := Option.map_eq_some_iff.1 e
      exact State.Keeps.updRange (h.foldl fun _ _ ht => .ite ht.updRange ht)

theorem insertDevice {port serial gib : Nat} (h : s.Keeps u) : s.Keeps (u.insertDevice port serial gib) := by
  unfold State.insertDevice
  dsimp only
  split
  · exact .ite h.updRange h.updRange.rangeOnline
  · split
    · exact h
    · next r t e =>
        exact ((h.placeDevice e)).rangeOnline

theorem cxlDeviceInsert_answers {port : Nat} {kind : Nat} {serial : Nat} {gib : Nat} :
    Answers (.cxlDeviceInsert port kind serial gib) := fun h => .onUnit (.ite h (.ite h.raise (.ite h.keep.askDomain h.insertDevice)))

theorem enumerateWaiting {port : Nat} (h : s.Keeps u) : s.Keeps (u.enumerateWaiting port) := .foldl h.keep fun _ _ ht => ht.insertDevice

theorem enumerate {ds : List (Nat × Nat × Nat × Nat)} (h : s.Keeps u) : s.Keeps (u.enumerate ds) := by
  unfold State.enumerate
  refine .foldl h fun t x ht => ?_
  refine .ite ht.raise ?_
  split
  · exact ht
  · next r t e2 =>
      exact ((ht.placeDevice e2)).updRange

theorem interleave (h : s.Keeps u) : s.Keeps u.interleave := by
  unfold State.interleave
  dsimp only
  split
  · exact h
  · exact State.Keeps.keep (State.Keeps.foldlFst (h.foldl fun _ _ ht => ht.updRange) fun _ _ hq => hq.updRange)

theorem flatRead {dead : Bool} {n f k : Nat} (h : s.Keeps u) : s.Keeps (State.flatRead dead n f k u).2.2 := by
  induction n generalizing f k u with
  | zero => exact h
  | succ n ih =>
    unfold State.flatRead
    dsimp only
    split
    · exact h
    · refine ih ?_
      split
      · exact h
      · split
        · exact h.readNoting
        · exact h.draw

theorem bar2Read_answers {off : Nat} {n : Nat} {dead : Bool} : Answers (.bar2Read off n dead) := fun h =>
  .onUnit (.ite h.keep h.flatRead.keep)

theorem flatWrite {dead : Bool} {n f : Nat} {bs : List Byte} (h : s.Keeps u) : s.Keeps (State.flatWrite dead n f bs u) := by
  induction n generalizing f bs u with
  | zero => exact h
  | succ n ih =>
    unfold State.flatWrite
    dsimp only
    split
    · exact h
    · refine ih ?_
      split
      · exact h
      · exact .ite h h.write

theorem bar2Write_answers {off : Nat} {bytes : List Byte} {dead : Bool} : Answers (.bar2Write off bytes dead) := fun h =>
  .onUnit (.ite h (.ite h.flatWrite.raise h.flatWrite))

theorem takeEject {k : Nat} {r : Packet × State} (h : s.Keeps u) (e : u.takeEject k = some r) : s.Keeps r.2 := by
  obtain ⟨_, -, rfl⟩ := Option.map_eq_some_iff.1 e
  exact h.keep

end State.Keeps

theorem State.Ends.onPacket {k : Nat} {act : Packet → State → State} (h : s.Keeps u) (ha : ∀ {p t}, s.Keeps t → s.Keeps (act p t)) :
    s.Ends true (u.onPacket k act) := by
  refine .next ?_
  split
  · exact h
  · next e => exact ha (h.takeEject e)

namespace State.Keeps

/-! ### Connections -/

theorem updRecv {n : Nat} {f : RecvConn → RecvConn} (h : s.Keeps u) : s.Keeps (u.updRecv n f) := h.keep

theorem openConn_answers : Answers .openConn := by
  intro s u h
  show s.Ends _ (execOpenConn u)
  refine .onPacket h fun ht => ?_
  dsimp only
  split
  · exact .inject (.ite ht.updRecv ht.updRecv)
  · split
    · exact ht.inject
    · exact ht.inject.inject

theorem closeConn_answers : Answers .closeConn := fun {s u} h =>
  show s.Ends _ (execCloseConn u) from .onPacket h fun ht => .ite ht.updRecv ht.inject

theorem onRequest {serve : Packet → State → State} {k : Packet} (h : s.Keeps u) (hs : ∀ {p t}, s.Keeps t → s.Keeps (serve p t)) :
    s.Keeps (u.onRequest serve k) := .ite h.inject (.ite h.updRecv (hs h.updRecv))

theorem serveRead {dead : Bool} {k : Packet} (h : s.Keeps u) : s.Keeps (u.serveRead dead k) := by
  unfold State.serveRead
  dsimp only
  refine .inject ?_
  split
  · exact h
  · exact h.readNoting

theorem readReq_answers {dead : Bool} : Answers (.readReq dead) := fun {s u} h =>
  show s.Ends _ (execReadReq u dead) from .onPacket h fun ht => ht.onRequest fun ht => ht.serveRead

theorem updWindow {i : Nat} {f : Window → Window} (h : s.Keeps u) : s.Keeps (u.updWindow i f) := h.keep

theorem applyWrite {dead : Bool} {k : Packet} (h : s.Keeps u) : s.Keeps (u.applyWrite dead k).1 := by
  unfold State.applyWrite
  dsimp only
  split
  · exact h
  · exact h
  · exact h.copyWrite
  · split
    · exact h
    · split
      · exact h
      · exact h.write

theorem serveWrite {dead : Bool} {k : Packet} (h : s.Keeps u) : s.Keeps (u.serveWrite dead k) := by
  unfold State.serveWrite
  dsimp only
  refine .ite h.inject ?_
  split
  · exact h.inject
  · exact .ite h.applyWrite.keep h.applyWrite.updRecv.inject

theorem write_answers {dead : Bool} : Answers (.write dead) := fun {s u} h =>
  show s.Ends _ (execWrite u dead) from .onPacket h fun ht => ht.onRequest fun ht => ht.serveWrite

theorem respond {o : Outstanding} {data : List Byte} {poison : Bool} {status : Nat}
    (h : s.Keeps u) : s.Keeps (u.respond o data poison status) := by
  unfold State.respond
  refine .ite h ?_
  split
  · exact h.copyAnswer
  · exact .ite h.setPiece.landPiece h

theorem onResponse {k : Packet} (h : s.Keeps u) : s.Keeps (u.onResponse k) := by
  unfold State.onResponse
  dsimp only
  refine .ite h ?_
  split
  · exact h
  · exact h.updSend.respond

theorem readResp_answers : Answers .readResp := fun {s u} h =>
  show s.Ends _ (execReadResp u) from .onPacket h fun ht => ht.onResponse.retryCopies

theorem writeAck_answers : Answers .writeAck := fun {s u} h =>
  show s.Ends _ (execWriteAck u) from .onPacket h fun ht => ht.onResponse.retryCopies

theorem sendWaiting {n : Nat} (h : s.Keeps u) : s.Keeps (u.sendWaiting n) := .foldl h fun _ _ ht => ht.transmit

theorem openAck_answers : Answers .openAck := fun {s u} h =>
  show s.Ends _ (execOpenAck u) from .onPacket h fun ht => .ite ht.updSend.sendWaiting ht

theorem openBusy_answers : Answers .openBusy := fun {s u} h =>
  show s.Ends _ (execOpenBusy u) from .onPacket h fun ht => .ite ht.updSend ht

theorem reclaim_answers : Answers .reclaim := fun {s u} h =>
  show s.Ends _ (execReclaim u) from .onPacket h fun ht => .ite ht.closeSend ht

theorem dropClosing {slot gen : Nat} (h : s.Keeps u) : s.Keeps (u.dropClosing slot gen) := h.keep

theorem staleConn_answers : Answers .staleConn := fun {s u} h =>
  show s.Ends _ (execStaleConn u) from .onPacket h fun ht => .ite ht.dropClosing ht.dropClosing.startConn.updSend

theorem failConn {n : Nat} (h : s.Keeps u) : s.Keeps (u.failConn n) := .foldl h.updSend fun _ _ ht => ht.respond

theorem resendClose {slot : Nat} (h : s.Keeps u) : s.Keeps (u.resendClose slot) := by
  unfold State.resendClose
  dsimp only
  split
  · exact h
  · exact .ite h.advanceTo.keep h.advanceTo.keep.inject.countFz

theorem fzResendTimeout_answers {slot : Nat} {seq : Nat} {closing : Bool} : Answers (.fzResendTimeout slot seq closing) := by
  intro s u h
  refine .onUnit ?_
  dsimp only
  refine .ite h.resendClose ?_
  refine .ite h ?_
  refine .ite (.ite h.advanceTo.failConn.retryCopies h.advanceTo.sendOpen.countFz) ?_
  split
  · exact h
  · exact .ite h.advanceTo.updSend.respond.retryCopies h.advanceTo.transmit.countFz

theorem fzOpenRetry_answers {slot : Nat} : Answers (.fzOpenRetry slot) := fun h =>
  .onUnit (.ite h (.ite h.advanceTo.failConn.retryCopies h.advanceTo.updSend.sendOpen))

theorem fzReceiverIdle_answers {slot : Nat} : Answers (.fzReceiverIdle slot) := fun h => .onUnit (.ite h.advanceTo.updRecv h)

theorem fzSenderIdle_answers {slot : Nat} : Answers (.fzSenderIdle slot) := fun h => .onUnit (.ite h.advanceTo.updSend h)

theorem windowIndex {r : Nat × State} (h : s.Keeps u) (e : u.windowIndex = some r) : s.Keeps r.2 := by
  unfold State.windowIndex at e
  dsimp only at e
  split at e
  · rw [← Option.some.inj e]
    exact h.keep
  · split at e
    · exact absurd e (by simp)
    · rw [← Option.some.inj e]
      exact h.keep

theorem windowOpen_answers {d : Nat} : Answers (.windowOpen d) := by
  intro s u h
  show s.Ends _ (execWindowOpen d u)
  refine .runDesc h fun ht => ?_
  dsimp only
  refine .ite ht.complete ?_
  split
  · exact ht.complete
  · next i t e2 =>
      exact .ite ht.complete ((((ht.windowIndex e2)).updWindow).complete)

theorem windowClose_answers {d : Nat} : Answers (.windowClose d) := fun {s u} h =>
  show s.Ends _ (execWindowClose d u) from .runDesc h fun ht => .ite ht.complete ht.updWindow.holdDesc

theorem windowCloseDone_answers {idx : Nat} : Answers (.windowCloseDone idx) := by
  intro s u h
  refine .onUnit ?_
  dsimp only
  split
  · exact h
  · exact h.updWindow.keep.completeTag

theorem windowImport_answers {d : Nat} : Answers (.windowImport d) := by
  intro s u h
  show s.Ends _ (execWindowImport d u)
  refine .runDesc h fun ht => ?_
  dsimp only
  split
  · exact ht.complete
  · exact .ite ht.complete ht.keep.complete

theorem windowUnimport_answers {d : Nat} : Answers (.windowUnimport d) := fun {s u} h =>
  show s.Ends _ (execWindowUnimport d u) from .runDesc h fun ht => .ite ht.keep.complete ht.complete

theorem fabricTable_answers {d : Nat} : Answers (.fabricTable d) := fun {s u} h =>
  show s.Ends _ (execFabricTable d u) from .runDesc h fun ht => .ite ht.complete
    (.ite ht.complete (.ite ht.complete (.ite ht.complete ht.keep.complete)))

theorem switchEpoch {e i : Nat} (h : s.Keeps u) : s.Keeps (u.switchEpoch e i) := by
  unfold State.switchEpoch
  dsimp only
  split
  · exact .ite h.keep h
  · exact h

theorem fabricEpoch_answers {d : Nat} : Answers (.fabricEpoch d) := fun {s u} h =>
  show s.Ends _ (execFabricEpoch d u) from .runDesc h fun ht => .ite ht.complete
    (.ite ht.complete (.ite ht.switchEpoch.raise.complete ht.keep.complete))

theorem fzEpochSwitch_answers : Answers .fzEpochSwitch := by
  intro s u h
  refine .next ?_
  split
  · exact h
  · exact h.advanceTo.switchEpoch

theorem fzEpochRelease_answers : Answers .fzEpochRelease := by
  intro s u h
  refine .next ?_
  dsimp only
  split
  · exact h
  · exact .ite h h.advanceTo.keep.raise

/-! ### Integrity -/

theorem mapVerify {g : Nat} {f : Batch → List Nat} (h : s.Keeps u) : s.Keeps (u.mapVerify g f) := h.updSched

theorem verifyAnew {g : Nat} (h : s.Keeps u) : s.Keeps (u.verifyAnew g) := by
  unfold State.verifyAnew
  split
  · exact h
  · exact h.mapVerify

theorem setShadow {g v i : Nat} (h : s.Keeps u) : s.Keeps (u.setShadow g v i) := by
  unfold State.setShadow
  dsimp only
  split
  · exact h
  · exact h.writeTile.updGraph

theorem dropShadow {g : Nat} {e : Nat × Nat} (h : s.Keeps u) : s.Keeps (u.dropShadow g e) := h.freeTileNow.updGraph

theorem dropShadows {g : Nat} (h : s.Keeps u) : s.Keeps (u.dropShadows g) := by
  unfold State.dropShadows
  dsimp only
  split
  · exact h
  · exact .updGraph (.foldl h fun _ _ ht => ht.dropShadow)

theorem nextRound {g : Nat} (h : s.Keeps u) : s.Keeps (u.nextRound g) := by
  unfold State.nextRound
  dsimp only
  refine .foldl h fun t x ht => ?_
  split
  · exact ht
  · exact .foldl ht fun _ _ ht => ht.setShadow

theorem beginVerify {g : Nat} (h : s.Keeps u) : s.Keeps (u.beginVerify g) := by
  unfold State.beginVerify
  split
  · exact h
  · exact .ite h.dropShadows.nextRound h

theorem moveVtile {g v i : Nat} (h : s.Keeps u) : s.Keeps (u.moveVtile g v i) := by
  unfold State.moveVtile
  split
  · exact h
  · exact h.putVtile.freeTileNow

theorem skipVerify {g m : Nat} (h : s.Keeps u) : s.Keeps (u.skipVerify g m) := by
  unfold State.skipVerify
  dsimp only
  split
  · exact h
  · exact .foldl h.raise fun _ _ ht => .updSched (.foldl ht fun _ _ ht => ht.removeRow)

theorem giveUpMassif {g m : Nat} (h : s.Keeps u) : s.Keeps (u.giveUpMassif g m) := by
  unfold State.giveUpMassif
  split
  · exact h
  · exact h.skipVerify.mapVerify

theorem relieveMassif {g m : Nat} (h : s.Keeps u) : s.Keeps (u.relieveMassif g m) := by
  unfold State.relieveMassif
  dsimp only
  split
  · exact h
  · refine .ite h ?_
    split
    · exact .foldl h fun _ _ ht => ht.fenceAt
    · split
      · exact .moveVtile (.foldl h fun _ _ ht => ht.fenceAt)
      · exact .giveUpMassif (.foldl h fun _ _ ht => ht.fenceAt)

theorem moveOne {g v : Nat} (h : s.Keeps u) : s.Keeps (u.moveOne g v) := by
  unfold State.moveOne
  split
  · exact h.updGraph.suspend
  · exact h.putVtile

theorem moveCircle {g : Nat} {vs : List Nat} (h : s.Keeps u) : s.Keeps (u.moveCircle g vs) := by
  unfold State.moveCircle
  dsimp only
  split
  · exact h
  · refine .ite h ?_
    split
    · exact .foldl h fun _ _ ht => ht.moveOne
    · exact .foldl (.foldl h fun _ _ ht => ht.moveOne) fun _ _ ht => .ite ht ht.freeTileNow

theorem changeShadow {g v : Nat} (h : s.Keeps u) : s.Keeps (u.changeShadow g v) := by
  unfold State.changeShadow
  dsimp only
  split
  · exact h
  · split
    · exact h
    · exact .foldl h.updGraph.setShadow fun _ _ ht => ht.dropShadow

theorem settleShadows {g : Nat} (h : s.Keeps u) : s.Keeps (u.settleShadows g) := by
  unfold State.settleShadows
  dsimp only
  split
  · exact h
  · refine .foldl h fun t x ht => ?_
    split
    · exact ht.dropShadow
    · exact .ite ht.dropShadow.setShadow ht.dropShadow

theorem newRound {g : Nat} (h : s.Keeps u) : s.Keeps (u.newRound g) := .nextRound (.foldl h.dropShadows fun _ _ ht => ht.relieveMassif)

theorem changeShadows {g : Nat} {causes : List Nat} (h : s.Keeps u) : s.Keeps (u.changeShadows g causes) := by
  unfold State.changeShadows
  dsimp only
  split
  · exact h
  · split
    · exact .ite h.settleShadows.changeShadow.updGraph h.settleShadows.changeShadow.updGraph.updGraph.verifyAnew.newRound
    · exact .newRound (.ite h h.verifyAnew)

theorem abandonDrainDone_answers {g : Nat} : Answers (.abandonDrainDone g) := by
  intro s u h
  refine .onLive h ?_
  dsimp only
  split
  · exact h
  · split
    · exact h
    · refine .ite h ?_
      split
      · exact .ite (.foldl (.ite h h.advanceTo) fun _ _ ht => ht.replaceVtile)
          (.moveCircle (.foldl (.ite h h.advanceTo) fun _ _ ht => ht.replaceVtile))
      · refine .ite (.setGraph (.ite (.foldl (.ite h h.advanceTo) fun _ _ ht => ht.replaceVtile)
          (.moveCircle (.foldl (.ite h h.advanceTo) fun _ _ ht => ht.replaceVtile)))) ?_
        split
        · exact .changeShadows (.setGraph (.ite (.foldl (.ite h h.advanceTo) fun _ _ ht => ht.replaceVtile)
            (.moveCircle (.foldl (.ite h h.advanceTo) fun _ _ ht => ht.replaceVtile))))
        · exact .ite (.changeShadows (.setGraph (.ite (.foldl (.ite h h.advanceTo) fun _ _ ht => ht.replaceVtile)
            (.moveCircle (.foldl (.ite h h.advanceTo) fun _ _ ht => ht.replaceVtile)))))
              (.retryAll (.deliverAgain (.changeShadows (.setGraph
                (.ite (.foldl (.ite h h.advanceTo) fun _ _ ht => ht.replaceVtile)
                  (.moveCircle (.foldl (.ite h h.advanceTo) fun _ _ ht => ht.replaceVtile)))))))

theorem blameTile {weight i : Nat} (h : s.Keeps u) : s.Keeps (u.blameTile weight i) := .ite h.fenceAt h.blame

theorem unresolved {g v tag : Nat} {ev : List (Nat × Nat)} (h : s.Keeps u) : s.Keeps (u.unresolved g v tag ev) := by
  unfold State.unresolved
  dsimp only
  split
  · exact h
  · split
    · exact h
    · exact .ite (.foldl (.updGraph (.updSched (.foldl h.raise fun _ _ ht => .ite ht.removeRow.updStream.endStream
        ht.removeRow.updStream))) fun _ _ ht => ht.blameTile)
          (.updGraph (.updSched (.foldl h.raise fun _ _ ht => .ite ht.removeRow.updStream.endStream ht.removeRow.updStream)))

theorem compareDigests {g : Nat} {p q : Seen} (h : s.Keeps u) : s.Keeps (u.compareDigests g p q) := by
  unfold State.compareDigests
  dsimp only
  split
  · exact h
  · refine .ite h.setGraph ?_
    split
    · exact .foldl (.ite (.abandon (.setGraph (.ite h h.raise))) (.setGraph (.ite h h.raise))) fun _ _ ht => ht.blameTile
    · exact .ite (.abandon (.unresolved (.setGraph (.ite h h.raise)))) (.abandon (.setGraph (.ite h h.raise)))

theorem digestCompare_answers {t : Nat} {id : Nat} {shadow : Nat} : Answers (.digestCompare t id shadow) := by
  intro s u h
  refine .onLive h ?_
  split
  · exact h
  · split
    · exact h
    · refine .ite h ?_
      split
      · exact h
      · split
        · exact h
        · exact h.compareDigests

theorem faultScoreLeak_answers {kind : PartKind} : Answers (.faultScoreLeak kind) := fun h =>
  .next (.foldl h.advanceTo.keep fun _ _ ht => .ite ht ht.settle)

theorem stressSessionStart_answers {massif : Nat} : Answers (.stressSessionStart massif) := by
  intro s u h
  refine .onLive h ?_
  dsimp only
  refine .ite h ?_
  split
  · exact h
  · exact h.updTile.turnTileOn

theorem stressSessionEnd_answers {t : Nat} {cases : Nat} : Answers (.stressSessionEnd t cases) := by
  intro s u h
  refine .onLive h ?_
  split
  · exact h.advanceTo.recordSession.letGo.retryAll
  · exact h

theorem endRetest {i e cases : Nat} {pass : Bool} (h : s.Keeps u) : s.Keeps (u.endRetest i e cases pass) := h.recordSession.raise

theorem stressMismatch_answers {t : Nat} {cases : Nat} {nominal : Bool} : Answers (.stressMismatch t cases nominal) := by
  intro s u h
  refine .onLive h ?_
  dsimp only
  split
  · exact .ite h.updTile.blame.endRetest h.updTile.blame
  · exact h

theorem stressNominalRetestDone_answers {t : Nat} {pass : Bool} : Answers (.stressNominalRetestDone t pass) := by
  intro s u h
  refine .onLive h ?_
  dsimp only
  split
  · exact .ite h.endRetest.letGo.retryAll h.endRetest.fenceNow
  · exact h

/-! ### Graphs -/

theorem bind {g : Nat} {y : Graph} (h : s.Keeps u) : s.Keeps (u.bind g y) := h.takeBuntings.takeSlots.setGraph.writeTiles

theorem loadNew {d : Desc} {im : Image} {sv : Option Serving} (h : s.Keeps u) : s.Keeps (u.loadNew d im sv) := by
  unfold State.loadNew
  refine .ite h.complete ?_
  split
  · exact h.complete
  · split
    · exact h.complete
    · exact h.bind.complete

theorem unbind {g : Nat} {y : Graph} (h : s.Keeps u) : s.Keeps (u.unbind g y) :=
  .keep (.releasePlanes (.foldl h fun _ _ ht => ht.freeTileNow))

theorem loadAfresh {d : Desc} {g : Nat} {y : Graph} {im : Image} {sv : Option Serving}
    (h : s.Keeps u) : s.Keeps (u.loadAfresh d g y im sv) := by
  unfold State.loadAfresh
  dsimp only
  split
  · exact h.complete
  · refine .retryAll ?_
    refine .complete ?_
    split
    · refine .resume ?_
      refine .bind ?_
      split
      · exact h.unbind
      · exact h.unbind.completeTag
    · refine .deliverAgain ?_
      refine .newGrid ?_
      refine .setGraph ?_
      refine .bind ?_
      split
      · exact h.unbind
      · exact h.unbind.completeTag

theorem loadStaged {d : Desc} {g : Nat} {y : Graph} {im : Image} {sv : Option Serving}
    (h : s.Keeps u) : s.Keeps (u.loadStaged d g y im sv) := by
  unfold State.loadStaged
  dsimp only
  split
  · exact h.complete
  · exact .ite (.placeBurgees (.holdDesc (.foldl h.takeBuntings.setGraph.takeSlots fun _ _ ht => .ite ht.updTile ht.writeTile)))
      (.holdDesc (.foldl h.takeBuntings.setGraph.takeSlots fun _ _ ht => .ite ht.updTile ht.writeTile))

theorem loadReconfig {d : Desc} {im : Image} {sv : Option Serving} (h : s.Keeps u) : s.Keeps (u.loadReconfig d im sv) := by
  unfold State.loadReconfig
  split
  · exact h.complete
  · split
    · exact h
    · exact .ite h.complete (.ite h.loadAfresh h.loadStaged)

theorem loadImage {d : Desc} {b : List Byte} (h : s.Keeps u) : s.Keeps (u.loadImage d b) := by
  unfold State.loadImage
  dsimp only
  split
  · exact h.complete
  · exact .ite h.complete (.ite h (.ite h.loadReconfig h.loadNew))

theorem loadAct {img : Dma} {dead : Option Nat} {d : Desc} (h : s.Keeps u) : s.Keeps (loadAct img dead d u) := by
  unfold Machine.loadAct
  dsimp only
  refine .ite h.complete ?_
  refine .ite h.complete ?_
  split
  · split
    · exact h.noteAer.complete
    · exact .ite h.loadImage h
  · split
    · exact h.readImage.holdDesc
    · exact .ite h.readImage.loadImage h.readImage.complete

theorem graphLoad_answers {d : Nat} {img : Dma} {dead : Option Nat} : Answers (.graphLoad d img dead) := fun {s u} h =>
  show s.Ends _ (execGraphLoad d img u dead) from .runDesc h fun ht => ht.loadAct

theorem graphUnload_answers {d : Nat} : Answers (.graphUnload d) := by
  intro s u h
  show s.Ends _ (execGraphUnload d u)
  refine .runDesc h fun ht => ?_
  split
  · exact ht.complete
  · exact ht.setGraph.holdDesc

theorem endStreams {g : Nat} (h : s.Keeps u) : s.Keeps (u.endStreams g) := .foldl h fun _ _ ht => ht.endStream.setPages

theorem graphUnloadComplete_answers {g : Nat} : Answers (.graphUnloadComplete g) := by
  intro s u h
  refine .onLive h ?_
  dsimp only
  split
  · exact h
  · split
    · exact h
    · refine .ite h ?_
      refine .shutdownOn ?_
      refine .retryAll ?_
      refine .completeTag ?_
      refine .setGraph ?_
      split
      · exact .unbind (.endStreams (.foldl h fun _ _ ht => ht.releaseRow))
      · exact .completeTag (.unbind (.endStreams (.foldl h fun _ _ ht => ht.releaseRow)))

theorem classPolicy_answers {d : Nat} : Answers (.classPolicy d) := by
  intro s u h
  show s.Ends _ (execClassPolicy d u)
  refine .runDesc h fun ht => ?_
  dsimp only
  split
  · exact ht.complete
  · split
    · exact ht.complete
    · exact .ite ht.updSched.complete ht.complete

theorem statusRead_answers {d : Nat} : Answers (.statusRead d) := by
  intro s u h
  show s.Ends _ (execStatusRead d u)
  refine .runDesc h fun ht => ?_
  dsimp only
  split
  · split
    · exact ht.complete
    · exact .ite ht.complete (.complete (.ite ht.hostWrite.updTile ht.hostWrite))
  · exact .complete (.ite ht.hostWrite.updTile ht.hostWrite)

theorem scheduleViolation_answers {g : Nat} {circle : List (Nat × Nat)} : Answers (.scheduleViolation g circle) := by
  intro s u h
  refine .onLive h ?_
  split
  · exact h
  · exact .ite h.scheduleFault h

theorem spillTokens {g q : Nat} {primary : Bool} {out : List Token} {i : Nat}
    (h : s.Keeps u) : s.Keeps (u.spillTokens g q primary out i) := by
  unfold State.spillTokens
  dsimp only
  split
  · exact h
  · exact .ite (.updTile (.foldl h.draw.setGraph fun _ _ ht => ht.noteRead)) h.stopGraph

theorem spillQueue {g i q : Nat} (h : s.Keeps u) : s.Keeps (u.spillQueue g i q) := .foldl h fun _ _ ht => ht.spillTokens

theorem cyclicWait_answers {g : Nat} {circle : List (Nat × Nat)} : Answers (.cyclicWait g circle) := by
  intro s u h
  refine .onLive h ?_
  dsimp only
  split
  · exact h
  · split
    · split
      · exact .spillQueue (.raise (.foldl h fun _ _ ht => ht.updTile))
      · exact .ite (.stopGraph (.raise (.foldl h fun _ _ ht => ht.updTile))) (.raise (.foldl h fun _ _ ht => ht.updTile))
    · exact h

theorem refillTokens {g q : Nat} {back : List Token} {i : Nat} (h : s.Keeps u) : s.Keeps (u.refillTokens g q back i) := by
  unfold State.refillTokens
  dsimp only
  split
  · exact h
  · exact h.setGraph.updTile

theorem screeRefill_answers {t : Nat} {q : Nat} : Answers (.screeRefill t q) := by
  intro s u h
  refine .onLive h ?_
  dsimp only
  split
  · exact h
  · split
    · exact h
    · exact .ite h (.foldl h fun _ _ ht => ht.refillTokens)

theorem sampleTile {g : Nat} {vt : Nat × Nat} (h : s.Keeps u) : s.Keeps (u.sampleTile g vt) := by
  unfold State.sampleTile
  dsimp only
  split
  · exact h
  · exact .ite h h.write.updTile.updGraph

theorem queueDepthSample_answers {g : Nat} : Answers (.queueDepthSample g) := by
  intro s u h
  refine .onLive h ?_
  split
  · exact h
  · split
    · exact h
    · exact .foldl h.advanceTo fun _ _ ht => ht.sampleTile

/-! ### Rings -/

theorem polled (h : s.Keeps u) : s.Keeps u.polled := h.keep

theorem takeTail {page : List Byte} {n : Nat} (h : s.Keeps u) : s.Keeps (u.takeTail page n) :=
  .ite h (.ite h.updSq (.ite h.updSq (.ite h h.updSq.notice)))

theorem takeCqHead {page : List Byte} {n : Nat} (h : s.Keeps u) : s.Keeps (u.takeCqHead page n) :=
  .ite h (.ite h.updCq (.ite h h.updCq.raise))

theorem takeHvHead {page : List Byte} {n : Nat} (h : s.Keeps u) : s.Keeps (u.takeHvHead page n) :=
  .ite h (.ite h.updHv (.ite h h.updHv.raise))

theorem signalRings (h : s.Keeps u) : s.Keeps u.signalRings := .foldl h fun _ _ ht => .ite ht (.ite ht.updCq.signal ht.updCq)

theorem doorbellPoll_answers {page : Dma} : Answers (.doorbellPoll page) := by
  intro s u h
  refine .next ?_
  dsimp only
  refine .ite h ?_
  split
  · exact h.advanceTo.keep.signalRings.noteAer.polled
  · exact .ite h (.polled (.foldl (.foldl (.foldl h.advanceTo.keep.signalRings fun _ _ ht => ht.takeTail) fun _ _ ht =>
      ht.takeCqHead) fun _ _ ht => ht.takeHvHead))

theorem descriptorFetch_answers {entries : Nat} : Answers (.descriptorFetch entries) := by
  intro s u h
  refine .onUnit ?_
  dsimp only
  refine .ite h ?_
  split
  · exact h
  · exact h.updSq.updCq.keep

theorem keepDesc {ring at_ next : Nat} {bytes : List Byte} (h : s.Keeps u) : s.Keeps (u.keepDesc ring at_ next bytes) := h.keep

theorem refuse {ring next : Nat} {bytes : List Byte} {detail : Nat} (h : s.Keeps u) : s.Keeps (u.refuse ring next bytes detail) :=
  h.updSq.writeCompletion

theorem takeEntries {f : Fetch} {bytes : List Byte} (h : s.Keeps u) : s.Keeps (u.takeEntries f bytes) :=
  .ite h.updCq.keepDesc (.ite h.updSq.refuse (.ite h.refuse h.updSq.keepDesc))

theorem fetchFailed {f : Fetch} (h : s.Keeps u) : s.Keeps (u.fetchFailed f) := h.updSq.writeCompletion

theorem hostReadCompletion_answers {ring : Nat} {data : Dma} : Answers (.hostReadCompletion ring data) := by
  intro s u h
  refine .onUnit ?_
  dsimp only
  split
  · exact h
  · split
    · exact h.keep.noteAer.fetchFailed
    · exact .ite h.keep.takeEntries h

theorem skip_answers {d : Nat} : Answers (.skip d) := by
  intro s u h
  refine .next ?_
  split
  · exact h
  · exact .ite h h.updSq.dropDesc

theorem nop_answers {d : Nat} : Answers (.nop d) := fun {s u} h => show s.Ends _ (execNop d u) from .runDesc h fun ht => ht.complete

theorem hostRaw {a : Nat} {bs : List Byte} (h : s.Keeps u) : s.Keeps (u.hostRaw a bs) := by
  refine .ite (h.trans ⟨rfl, .refl _, fun hw => ?_⟩) h
  rw [State.memWf_iff] at hw ⊢
  exact ⟨hw.1, hw.2.1, Tab.wf_putAll hw.2.2⟩

theorem writeStatus (h : s.Keeps u) : s.Keeps u.writeStatus := .ite h h.keep.hostRaw

theorem heartbeatWrite_answers : Answers .heartbeatWrite := fun h => .next (.ite h.advanceTo.writeStatus h)

theorem msixUnmask_answers {v : Nat} {mask : Bool} {entry : Option (Nat × Nat)} : Answers (.msixUnmask v mask entry) := fun h =>
  .onUnit h.keep.sendPending

theorem pcieConfigRequest_answers {f : ConfigField} {v : Option Nat} : Answers (.pcieConfigRequest f v) := fun h =>
  .next (.ite h (.ite h.keep h.keep))

/-! ### Dump -/

theorem endDump (h : s.Keeps u) : s.Keeps u.endDump := h.hostRaw.draw.hostRaw.keep.tarnsOff

theorem beginDump (h : s.Keeps u) : s.Keeps u.beginDump := h.keep

theorem writeRecord {i : Nat} (h : s.Keeps u) : s.Keeps (u.writeRecord i) := h.hostRaw.keep.tarnsOff

theorem dumpGroupDone_answers {unreach : List (Nat × Nat)} : Answers (.dumpGroupDone unreach) := fun h =>
  .onUnit (.ite h (.ite h (.ite (.endDump (.keep (.ite (.advanceTo (.foldl h.keep fun _ _ ht => ht.writeRecord))
    (.keep (.advanceTo (.foldl h.keep fun _ _ ht => ht.writeRecord))))))
      (.ite (.endDump (.ite (.advanceTo (.foldl h.keep fun _ _ ht => ht.writeRecord))
        (.keep (.advanceTo (.foldl h.keep fun _ _ ht => ht.writeRecord)))))
          (.ite (.advanceTo (.foldl h.keep fun _ _ ht => ht.writeRecord))
            (.keep (.advanceTo (.foldl h.keep fun _ _ ht => ht.writeRecord))))))))

theorem dumpBudgetExpiry_answers : Answers .dumpBudgetExpiry := fun h => .next (.ite h h.advanceTo.keep.endDump)

theorem bare (h : s.Keeps u) : s.Keeps u.bare := by
  refine h.trans ⟨rfl, .refl _, fun hw => ?_⟩
  rw [State.memWf_iff] at hw ⊢
  exact ⟨rfl, rfl, hw.2.2⟩

/-! ### Start -/

theorem openSwitch {cause : Nat} (h : s.Keeps u) : s.Keeps (u.openSwitch cause) := .ite h h.bare.keep

/-- Fuses may change where none is taken back. -/
theorem grow {f : Fuses} (h : s.Keeps u) (hf : u.fuses.Grow f) : s.Keeps { u with fuses := f } := h.trans ⟨rfl, hf, id⟩

theorem coldStart (h : s.Keeps u) : s.Keeps u.coldStart :=
  (h.bare.grow (f := { u.bare.fuses with decommission := u.bare.fuses.blown })
    ⟨Nat.le_refl _, Nat.le_refl _, Nat.le_refl _, fun _ => id, fun _ => id, id, fun _ => id, fun _ => id⟩).keep

theorem conflict {kind id dir : Nat} (h : s.Keeps u) : s.Keeps (u.conflict kind id dir) := .ite h.ledgerEvent h.ledgerEvent.keep

theorem flushConflicts (h : s.Keeps u) : s.Keeps u.flushConflicts := .ite h (.foldl h.keep fun _ _ ht => ht.notice)

theorem noteFailed {k : Nat × Nat} (h : s.Keeps u) : s.Keeps (u.noteFailed k) := .ite h h.keep

theorem testFailed {cold : Bool} {k : Nat × Nat} (h : s.Keeps u) : s.Keeps (u.testFailed cold k) :=
  .ite h.noteFailed (.ite (.ite h.noteFailed.conflict h.noteFailed) (.addDefect (.ite h.noteFailed.conflict h.noteFailed)))

theorem testPassed {k : Nat × Nat} (h : s.Keeps u) : s.Keeps (u.testPassed k) := .ite h.conflict h

theorem startFault {phase unit_ : Nat} (h : s.Keeps u) : s.Keeps (u.startFault phase unit_) := by
  unfold State.startFault
  dsimp only
  split
  · exact h
  · exact h.keep

theorem coreTests {phase : Nat} {r : StartReport} (h : s.Keeps u) : s.Keeps (u.coreTests phase r) :=
  .ite (.ite h h.startFault) (.startFault (.ite h h.startFault))

theorem phase1 {r : StartReport} (h : s.Keeps u) : s.Keeps (u.phase1 r) :=
  .ite (.loadFirmware (.keep (.ite (.ite h.keep.ledgerEvent h.keep) (.keep (.ite h.keep.ledgerEvent h.keep))))) h.keep.keep

theorem startTrims (h : s.Keeps u) : s.Keeps u.startTrims := h.keep

theorem networks {cold : Bool} {phase : Nat} {r : StartReport} (h : s.Keeps u) : s.Keeps (u.networks cold phase r) := by
  have h2 : s.Keeps ((r.failed.filter fun k => k.1 == 3 || k.1 == 4).foldl (State.testFailed cold) (u.coreTests phase r)) :=
    h.coreTests.foldl fun _ _ ht => ht.testFailed
  unfold State.networks
  dsimp only
  split
  · exact h2.keep
  · exact h2.startFault.keep

theorem phase2 {r : StartReport} (h : s.Keeps u) : s.Keeps (u.phase2 r) := h.startTrims.networks.keep

theorem slotOrLost {cause n : Nat} (h : s.Keeps u) : s.Keeps (u.slotOrLost cause n) := by
  unfold State.slotOrLost
  dsimp only
  split
  · exact h.slotWithoutCopy
  · exact h.loseSlice.keep

theorem takeUntrained {r : StartReport} (h : s.Keeps u) : s.Keeps (u.takeUntrained r) := .foldl h fun _ _ ht => ht.noteFailed.slotOrLost

theorem memoryTests {phase : Nat} {r : StartReport} (h : s.Keeps u) : s.Keeps (u.memoryTests phase r) := .ite h.startFault h

theorem restoreRetired (h : s.Keeps u) : s.Keeps u.restoreRetired := .foldl h fun _ _ ht => ht.updSlice.keep

/-- The bytes outside the module area are unknown again. -/
theorem forgetHbm {lo n : Nat} {m : Mem} (h : s.Keeps u) (hb : m.hbm = u.mem.hbm.forget lo n) (hc : m.cxl = u.mem.cxl) :
    s.Keeps { u with mem := m } := by
  refine h.trans ⟨rfl, .refl _, fun hw => ?_⟩
  rw [State.memWf_iff] at hw ⊢
  exact ⟨hb ▸ Memory.wf_forget hw.1, hc ▸ hw.2.1, hw.2.2⟩

theorem phase3 {r : StartReport} (h : s.Keeps u) : s.Keeps (u.phase3 r) := by
  have h1 : ∀ st pw, s.Keeps { u with
      selfTest := st, power := pw, mem := { u.mem with hbm := u.mem.hbm.forget moduleArea (hbmBytes - moduleArea) } } := fun st pw =>
    (h.keep (st := st) (pw := pw) (k := u.host) (m := u.mem)).forgetHbm rfl rfl
  unfold State.phase3
  dsimp only
  exact (h1 _ _).coreTests.restoreRetired.takeUntrained.zeroRun.memoryTests.keep

theorem recheckRetired {n : Nat} (h : s.Keeps u) : s.Keeps (u.recheckRetired n) := by
  unfold State.recheckRetired
  split
  · exact .ite h h.slotOrLost
  · exact h

theorem phase4 {r : StartReport} (h : s.Keeps u) : s.Keeps (u.phase4 r) :=
  .keep (.ite (.hostTrained (.foldl (.memoryTests (.foldl h.coreTests.enumerate fun _ _ ht => ht.recheckRetired)) fun _ _ ht =>
    ht.enablePort)) (.foldl (.memoryTests (.foldl h.coreTests.enumerate fun _ _ ht => ht.recheckRetired)) fun _ _ ht => ht.enablePort))

theorem clearPassed {r : StartReport} (h : s.Keeps u) : s.Keeps (u.clearPassed r) := h.keep.keep

theorem rebuildDefects (h : s.Keeps u) : s.Keeps u.rebuildDefects := .ite h h.keep.raise

theorem applyBad {k : Nat × Nat} (h : s.Keeps u) : s.Keeps (u.applyBad k) := by
  unfold State.applyBad
  dsimp only
  split
  · exact h.updTile
  · exact h.updTile
  · exact .foldl h.setScore fun _ _ ht => ht.updTile
  · exact h.setScore
  · exact h.updSlice.retireSlice
  · exact h.updPhase
  · exact h

theorem applyUntested {k : Nat × Nat} (h : s.Keeps u) : s.Keeps (u.applyUntested k) := by
  unfold State.applyUntested
  split
  · exact h.updTile
  · exact h.updTile
  · exact .foldl h fun _ _ ht => ht.updTile
  · exact h.setScore
  · exact h.updPhase
  · exact h

theorem applyPhases {i : Nat} (h : s.Keeps u) : s.Keeps (u.applyPhases i) := .ite h.updTile (.ite h.capTile h)

theorem applyUnion {r : StartReport} (h : s.Keeps u) : s.Keeps (u.applyUnion r) :=
  .foldl (.foldl (.foldl h fun _ _ ht => ht.applyBad) fun _ _ ht => ht.applyUntested) fun _ _ ht => ht.applyPhases

theorem advanceRollback (h : s.Keeps u) : s.Keeps u.advanceRollback := by
  refine .ite (h.grow ?_).raise h
  exact ⟨Nat.le_refl _, Nat.le_refl _, Nat.le_max_left _ _, fun _ => id, fun _ => id, id, fun _ => id, fun _ => id⟩

theorem intoService (h : s.Keeps u) : s.Keeps u.intoService := .ite h.setDev.raise (.ite h.setDev.raise h.setDev)

theorem endTests {r : StartReport} (h : s.Keeps u) : s.Keeps (u.endTests r) := by
  unfold State.endTests
  extract_lets s1 s2 s3
  have h2 : s.Keeps s2 := h.clearPassed.foldl fun _ _ ht => ht.testFailed
  have h3 : s.Keeps s3 := h2.foldl fun _ _ ht => ht.testPassed
  exact h3.rebuildDefects.applyUnion

theorem beat {b : Bool} {n : Nat} (h : s.Keeps u) : s.Keeps { u with host := { u.host with wake := b, lastBeat := n } } := h.keep

theorem phase5 {r : StartReport} (h : s.Keeps u) : s.Keeps (u.phase5 r) := by
  unfold State.phase5
  dsimp only
  split
  · exact h.coreTests.endTests.addResult.setDev.ledgerEvent.keep.flushConflicts
  · exact h.coreTests.endTests.addResult.intoService.keep.advanceRollback.flushConflicts.beat

theorem endPhase {r : StartReport} (h : s.Keeps u) : s.Keeps (u.endPhase r) := by
  unfold State.endPhase
  split
  · exact h.phase1
  · exact h.phase2
  · exact h.phase3
  · exact h.phase4
  · exact h.phase5
  · exact h

theorem startPhaseComplete_answers {r : StartReport} : Answers (.startPhaseComplete r) := fun h => .next h.endPhase

theorem startPhaseBudgetExpiry_answers {r : StartReport} : Answers (.startPhaseBudgetExpiry r) := fun h => .next h.endPhase

theorem katFenced {cold : Bool} {i : Nat} (h : s.Keeps u) : s.Keeps (u.katFenced cold i) := h.setScore.raise.testFailed.fenceTile

theorem knownAnswerRunDone_answers {t : Nat} {pass : Bool} : Answers (.knownAnswerRunDone t pass) := fun h =>
  .onUnit (.ite h (.ite (.ite h h.keep.settle) (.ite h.keep h.keep.katFenced)))

/-! ### Firmware -/

theorem checkSection {img : List Byte} {j : Nat} (h : s.Keeps u) : s.Keeps (u.checkSection img j) := .ite h (.ite h.updUnit h.updUnit)

theorem beginStaging {d : Desc} {img : List Byte} (h : s.Keeps u) : s.Keeps (u.beginStaging d img) :=
  .holdDesc (.foldl (.foldl h.keep fun _ _ ht => ht.updUnit) fun _ _ ht => ht.checkSection)

theorem updateFirmware {d : Desc} {img : List Byte} {ok : Bool} (h : s.Keeps u) : s.Keeps (u.updateFirmware d img ok) := by
  unfold State.updateFirmware
  split
  · exact h.complete
  · exact .ite h.beginStaging h.complete

theorem fwUpdate_answers {d : Nat} {img : Dma} {ok : Bool} {dead : Option Nat} : Answers (.fwUpdate d img ok dead) := by
  intro s u h
  show s.Ends _ (execFwUpdate d img ok u dead)
  refine .runDesc h fun ht => ?_
  dsimp only
  refine .ite ht.complete ?_
  refine .ite ht.complete ?_
  split
  · split
    · exact ht.noteAer.complete
    · exact .ite ht.updateFirmware ht
  · split
    · exact ht.readImage.holdDesc
    · exact .ite ht.readImage.updateFirmware ht.readImage.complete

theorem fwChunk_answers {unit_ : Nat} {seq : Nat} {tag : Nat} {data : Option (List Byte)} : Answers (.fwChunk unit_ seq tag data) := by
  intro s u h
  refine .onUnit ?_
  dsimp only
  split
  · exact h
  · exact .ite h h.updUnit.checkSection

theorem endStaging {tag : Nat} {img : List Byte} {activate : Bool} (h : s.Keeps u) : s.Keeps (u.endStaging tag img activate) :=
  .ite (.settleActivation (.keep (.raise (.foldl h fun _ _ ht => ht.updUnit.raise))))
    (.completeTag (.keep (.raise (.foldl h fun _ _ ht => ht.updUnit.raise))))

theorem fwRepairRound_answers : Answers .fwRepairRound := by
  intro s u h
  refine .next ?_
  dsimp only
  split
  · exact h
  · exact .ite h (.ite h.endStaging h.keep)

theorem fwUnitActivate_answers {unit_ : Nat} : Answers (.fwUnitActivate unit_) := fun h =>
  .onUnit (.ite h (.activateUnit (.ite h.advanceTo h)))

theorem programBlock {i : Nat} {data : List Byte} (h : s.Keeps u) : s.Keeps (u.programBlock i data) := h.keep

theorem commitRescue {n : Nat} {ok : Bool} (h : s.Keeps u) : s.Keeps (u.commitRescue n ok).1 := by
  unfold State.commitRescue
  dsimp only
  split
  · exact h.keep
  · split
    · exact h.keep
    · split
      · exact h.keep
      · exact h.keep.coldStart

/-! ### Security -/

theorem eraseLedger (h : s.Keeps u) : s.Keeps u.eraseLedger := h.keep

theorem lockSession (h : s.Keeps u) : s.Keeps u.lockSession := h.keep

end State.Keeps

theorem Fuses.moved_grow (f : Fuses) (to_ : Nat) : f.Grow (f.moved to_) := by
  unfold Fuses.moved
  split
  · exact ⟨Nat.le_refl _, Nat.le_refl _, Nat.le_refl _, fun _ => id, fun _ => id, fun _ => rfl, fun _ => id, fun _ => id⟩
  · split
    · exact ⟨Nat.le_refl _, Nat.le_succ _, Nat.le_refl _, fun _ => id, fun _ => id, id, fun _ => id, fun _ => id⟩
    · exact ⟨Nat.le_succ _, Nat.le_refl _, Nat.le_refl _, fun _ => id, fun _ => id, id, fun _ => id, fun _ => id⟩

/-- A bit that stands is kept by a bitwise or. -/
theorem bit_or_left {x y i : Nat} (h : bit x i = true) : bit (x ||| y) i = true := by
  have hb : ∀ n, bit n i = n.testBit i := fun n => by
    rw [bit, Nat.testBit_eq_decide_div_mod_eq, Nat.shiftRight_eq_div_pow]
    rfl
  rw [hb] at h ⊢
  rw [Nat.testBit_or, h, Bool.true_or]

theorem Fuses.revoked_grow (f : Fuses) (mask : Nat) : f.Grow (f.revoked mask) :=
  ⟨Nat.le_refl _, Nat.le_refl _, Nat.le_refl _, fun _ => bit_or_left, fun _ => bit_or_left, id, fun _ => id, fun _ => id⟩

namespace State.Keeps

theorem programFuses {b : List Byte} {mask : Nat} (h : s.Keeps u) : s.Keeps (u.programFuses b mask) := by
  have hm : s.Keeps { u with fuses := u.fuses.moved (tTo b) } := h.grow (u.fuses.moved_grow _)
  exact .ite (h.grow (u.fuses.revoked_grow _)) (.ite (.lockSession (.ite hm.eraseLedger hm)) h)

theorem takeToken {d : Desc} {b : List Byte} {ok : Bool} (h : s.Keeps u) : s.Keeps (u.takeToken d b ok) := by
  unfold State.takeToken
  split
  · exact h.complete
  · refine .ite (complete (h.programFuses.grow ?_)) h.draw.programFuses.complete
    exact ⟨Nat.le_refl _, Nat.le_refl _, Nat.le_refl _, fun _ => id, fun _ => id, id, fun _ => id, fun _ hx => List.mem_append_left _ hx⟩

theorem lifecycle_answers {d : Nat} {tok : Dma} {ok : Bool} : Answers (.lifecycle d tok ok) := by
  intro s u h
  show s.Ends _ (execLifecycle d tok ok u)
  refine .runDesc h fun ht => ?_
  split
  · exact ht.noteAer.complete
  · exact .ite ht.takeToken ht

theorem attest_answers {d : Nat} : Answers (.attest d) := fun {s u} h =>
  show s.Ends _ (execAttest d u) from .runDesc h fun ht => .ite ht.complete ht.hostWrite.complete

/-! ### Monitor -/

theorem err {code : Nat} (h : s.Keeps u) : s.Keeps (u.err code).next := h

theorem done {lines : List Line} (h : s.Keeps u) : s.Keeps (u.done lines).next := h

theorem reply {rom : Bool} {r : Reply} (h : s.Keeps r.next) : s.Keeps (State.reply rom r) := h.print

theorem command {serves : Bool → Bool} {busy : Bool} {act : State → Reply}
    (h : s.Keeps u) (ha : ∀ {t}, s.Keeps t → s.Keeps (act t).next) :
    s.Keeps (u.command serves busy act) := by
  unfold State.command
  split
  · exact h
  · exact .ite h.keep.err.reply (.ite h.keep.err.reply (ha h.keep).reply)

theorem gated {sts : List Nat} {act : State → Reply} (h : s.Keeps u) (ha : ∀ {t}, s.Keeps t → s.Keeps (act t).next) :
    s.Keeps (u.gated sts act).next := by
  unfold State.gated
  split
  · exact h.err
  · split
    · exact h.err
    · exact ha h

theorem help_answers : Answers .help := fun h => .next (h.command fun ht => ht.done)

theorem info_answers : Answers .info := fun h => .next (h.command fun ht => ht.done)

theorem state_answers : Answers .state := fun h => .next (h.command fun ht => ht.done)

theorem baud_answers {rate : Nat} : Answers (.baud rate) := by
  intro s u h
  refine .next ?_
  dsimp only
  refine .command h fun ht => ?_
  split
  · exact ht.keep.done
  · exact ht.err

theorem log_answers {n : Nat} : Answers (.log n) := by
  intro s u h
  refine .next ?_
  refine .command h fun ht => ?_
  split
  · exact ht.err
  · exact ht.done

theorem defects_answers : Answers .defects := fun h => .next (h.command fun ht => ht.done)

theorem result_answers {idx : Nat} {n : Nat} : Answers (.result idx n) := by
  intro s u h
  refine .next ?_
  refine .command h fun ht => ?_
  split
  · exact ht.err
  · exact ht.done

theorem unknownCommand_answers {why : BadLine} : Answers (.unknownCommand why) := by
  intro s u h
  refine .next ?_
  dsimp only
  split
  · exact h
  · exact h.keep.err.reply

theorem uartBreak_answers : Answers .uartBreak := by
  intro s u h
  refine .next ?_
  dsimp only
  refine .ite h ?_
  split
  · exact h.keep
  · exact h.keep.print

theorem challenge_answers : Answers .challenge := by
  intro s u h
  refine .next ?_
  dsimp only
  refine .command h fun ht => ?_
  split
  · exact ht.err
  · split
    · exact ht.err
    · exact ht.keep.done

theorem unlockFailed (h : s.Keeps u) : s.Keeps u.unlockFailed := h.keep

theorem unlock_answers {slot : Nat} {pub : List Byte} {sig : List Byte} : Answers (.unlock slot pub sig) := by
  intro s u h
  refine .next ?_
  dsimp only
  refine .command h fun ht => ?_
  split
  · exact ht.err
  · split
    · exact ht.err
    · split
      · exact ht.err
      · split
        · exact ht.keep.done
        · exact ht.unlockFailed.err

theorem unlockLockoutExpiry_answers : Answers .unlockLockoutExpiry := by
  intro s u h
  refine .next ?_
  dsimp only
  split
  · exact h
  · exact .keep (.ite h.advanceTo h)

theorem lock_answers : Answers .lock := fun h => .next (h.command fun ht => ht.lockSession.done)

theorem sessionTimeout_answers : Answers .sessionTimeout := fun h => .next (.ite h (.lockSession (.ite h.advanceTo h)))

theorem beginSlice {k j : Nat} (h : s.Keeps u) : s.Keeps (u.beginSlice k j) :=
  .keep (.ite h (.foldl h fun _ _ ht => ht.withdraw.updTile.turnTileOn))

theorem test_answers {kind : Nat} {unit_ : Nat} : Answers (.test kind unit_) := by
  intro s u h
  refine .next ?_
  dsimp only
  split
  · exact h
  · refine .ite h.keep.err.reply ?_
    split
    · exact h.keep.err.reply
    · exact .ite h.keep.beginSlice h.keep.addResult.done.reply

theorem onDemandSliceDone_answers {r : SliceReport} {preempted : Bool} : Answers (.onDemandSliceDone r preempted) := fun h =>
  .onUnit (.ite h h.advanceTo.endSlice.retryAll)

theorem keepOut {d : Defect} (h : s.Keeps u) : s.Keeps (u.keepOut d) := by
  unfold State.keepOut
  dsimp only
  split
  · exact h.updTile
  · exact h.updTile
  · exact .foldl h fun _ _ ht => ht.updTile
  · exact h

theorem defectClear_answers {idx : Nat} : Answers (.defectClear idx) := by
  intro s u h
  refine .next ?_
  dsimp only
  refine .command h fun ht => ?_
  refine .gated ht fun ht => ?_
  split
  · exact ht.err
  · split
    · exact ht.keepOut.keep.done
    · exact ht.err

theorem resultErase_answers : Answers .resultErase := fun h => .next (h.command fun ht => ht.gated fun ht => ht.keep.done)

theorem fuse_answers {kind id : Nat} {ok : Bool} : Answers (.fuse kind id ok) := by
  refine fun h => .next (h.command fun h => h.gated fun {t} h => ?_)
  have hg : t.fuses.Grow { t.fuses with
      bad := if t.fuses.bad.contains (kind, id) then t.fuses.bad else t.fuses.bad ++ [(kind, id)] } := by
    refine ⟨Nat.le_refl _, Nat.le_refl _, Nat.le_refl _, fun _ h => h, fun _ h => h, fun h => h, fun x hx => ?_, fun _ h => h⟩
    dsimp only
    split
    · exact hx
    · exact List.mem_append_left _ hx
  split
  · exact h.err
  · split
    · exact h.err
    · exact (h.grow hg).checkDegraded.done

theorem rescue_answers {blocks : Nat} : Answers (.rescue blocks) := by
  intro s u h
  refine .next ?_
  dsimp only
  refine .command h fun ht => ?_
  split
  · exact ht.err
  · split
    · exact ht.err
    · exact ht.keep.done

theorem takeBlock {idx crc : Nat} {data : List Byte} {ok : Bool} (h : s.Keeps u) : s.Keeps (u.takeBlock idx crc data ok).next := by
  unfold State.takeBlock
  dsimp only
  split
  · exact h.err
  · split
    · exact h.err
    · split
      · exact h.err
      · split
        · exact h.err
        · split
          · exact h.programBlock.err
          · exact h.programBlock.keep.done

theorem block_answers {idx : Nat} {crc : Nat} {data : List Byte} {ok : Bool} : Answers (.block idx crc data ok) := fun h =>
  .onUnit (h.command fun ht => ht.takeBlock)

theorem commit_answers {ok : Bool} : Answers (.commit ok) := by
  intro s u h
  refine .next ?_
  dsimp only
  refine .command h fun ht => ?_
  split
  · exact ht.err
  · exact ht.commitRescue

theorem rescueOwnershipTimeout_answers : Answers .rescueOwnershipTimeout := fun h => .next (.ite h.keep h)

/-! ### Streams -/

theorem promptFailed {d : Desc} {p : Dma} (h : s.Keeps u) : s.Keeps (u.promptFailed d p) := by
  unfold State.promptFailed
  split
  · exact h.noteAer.complete
  · exact h

theorem openStream {d : Desc} {y : Graph} {v : Serving} {prompt : List Byte} (h : s.Keeps u) : s.Keeps (u.openStream d y v prompt) := by
  unfold State.openStream
  dsimp only
  split
  · exact h.complete
  · next i t e =>
      split
      · exact h.complete
      · next t addr e2 =>
          exact ((((((h.takeIndex e)).takeRun e2)).keep).putStream).complete

theorem streamOpen_answers {d : Nat} {prompt : Dma} : Answers (.streamOpen d prompt) := by
  intro s u h
  show s.Ends _ (execStreamOpen d prompt u)
  refine .runDesc h fun ht => ?_
  dsimp only
  split
  · exact ht.complete
  · split
    · exact ht.complete
    · refine .ite ht.complete ?_
      refine .ite ht.complete ?_
      refine .ite ht ?_
      split
      · exact ht.promptFailed
      · exact ht.openStream

theorem namedStream {d : Desc} {refuse act : Nat → State → State} (h : s.Keeps u) (hr : ∀ {k t}, s.Keeps t → s.Keeps (refuse k t))
    (ha : ∀ {k t}, s.Keeps t → s.Keeps (act k t)) : s.Keeps (u.namedStream d refuse act) := by
  unfold State.namedStream
  split
  · exact hr h
  · exact .ite (hr h) (ha h)

theorem extendStream {d : Desc} {i : Nat} {y : Graph} {v : Serving} {tokens : List Byte}
    (h : s.Keeps u) : s.Keeps (u.extendStream d i y v tokens) := by
  unfold State.extendStream
  dsimp only
  split
  · exact h.complete
  · next t addr e =>
      exact ((((h.freeRuns.takeRun e)).unplan).putStream).complete

theorem streamExtend_answers {d : Nat} {prompt : Dma} : Answers (.streamExtend d prompt) := by
  refine fun h => .runDesc h fun h => .namedStream h (fun h => h.complete) fun h => ?_
  dsimp only
  split
  · exact h.complete
  · split
    · exact h.complete
    · refine .ite h.complete (.ite h.complete (.ite h ?_))
      split
      · exact h.promptFailed
      · exact h.extendStream

theorem streamCancel_answers {d : Nat} : Answers (.streamCancel d) := fun {s u} h =>
  show s.Ends _ (execStreamCancel d u) from .runDesc h fun ht => ht.namedStream (fun ht => ht.complete) fun ht => .ite ht.complete
    (.complete (.ite ht.putStream.unplan ht.putStream.unplan.endCancelled))

theorem streamQuery_answers {d : Nat} : Answers (.streamQuery d) := fun {s u} h =>
  show s.Ends _ (execStreamQuery d u) from .runDesc h fun ht => ht.namedStream (fun ht => ht.complete) fun ht =>
    ht.hostWrite.useRecord.complete

theorem streamFinalRecord_answers {idx : Nat} : Answers (.streamFinalRecord idx) := fun h => .onLive h (.ite h.writeRec.freeStream h)

theorem deadlineExpiry_answers {idx : Nat} : Answers (.deadlineExpiry idx) := fun h =>
  .onLive h (.ite (.breakDeadline (.ite h h.advanceTo)) h)

/-! ### Periods -/

theorem selectDecode {g rows : Nat} {e : Nat × Stream} (h : s.Keeps u) : s.Keeps (u.selectDecode g rows e) := by
  unfold State.selectDecode
  dsimp only
  split
  · exact h
  · split
    · exact h
    · exact .ite h (.ite h.pagesReady (.ite h.pagesReady.raise h.pagesReady.reserveSlot.updSched))

theorem selectChunk {g j : Nat} {v : Serving} {e : Nat × Stream} (h : s.Keeps u) : s.Keeps (u.selectChunk g j v e) := by
  unfold State.selectChunk
  dsimp only
  split
  · exact h
  · split
    · exact h
    · refine .ite h ?_
      refine .ite h.pagesReady ?_
      refine .ite h.pagesReady ?_
      refine .updSched ?_
      split
      · exact h.pagesReady.reserveSlot
      · exact h.pagesReady

theorem selectPeriod {g : Nat} (h : s.Keeps u) : s.Keeps (u.selectPeriod g) := by
  unfold State.selectPeriod
  dsimp only
  split
  · exact h
  · split
    · exact h
    · exact .foldl (.foldl h.updSched fun _ _ ht => ht.selectDecode) fun _ _ ht => .foldl ht fun _ _ ht => ht.selectChunk

theorem periodSelection_answers {g : Nat} : Answers (.periodSelection g) := by
  intro s u h
  refine .onLive h ?_
  dsimp only
  split
  · exact h
  · exact .ite h.advanceTo.selectPeriod h

theorem issueRow {r : Row} (h : s.Keeps u) : s.Keeps (u.issueRow r) := .ite h.useRecord (.modStream (.ite h.breakDeadline h))

theorem issueBatch {g kind seq units : Nat} {rows : List Row} (h : s.Keeps u) : s.Keeps (u.issueBatch g kind seq units rows) := by
  unfold State.issueBatch
  dsimp only
  split
  · exact h
  · exact .beginVerify (.updSched (.foldl h fun _ _ ht => ht.issueRow))

theorem markTrimmed {c : Chunk} (h : s.Keeps u) : s.Keeps (u.markTrimmed c) := .notify (.modStream (.ite h.releaseSlot h))

theorem trim {g k lag : Nat} {v : Serving} (h : s.Keeps u) : s.Keeps (u.trim g k lag v) := by
  unfold State.trim
  dsimp only
  split
  · exact h
  · split
    · exact h
    · exact .ite h (.foldl h.raise.updSched fun _ _ ht => ht.markTrimmed)

theorem dropChunks {cs : List Chunk} (h : s.Keeps u) : s.Keeps (u.dropChunks cs) := .foldl h fun _ _ ht => .ite ht.releaseSlot ht

theorem serveChange {g k : Nat} (h : s.Keeps u) : s.Keeps (u.serveChange g k) := by
  unfold State.serveChange
  split
  · exact h
  · split
    · exact h
    · exact .ite h.setGraph.finishChange h

theorem changeBehind {g k : Nat} (h : s.Keeps u) : s.Keeps (u.changeBehind g k) := by
  unfold State.changeBehind
  split
  · exact h
  · split
    · exact h
    · exact .ite h.updSched.placeBurgees h

theorem startPeriod {g : Nat} {y : Graph} {v : Serving} {p : Plan} (h : s.Keeps u) : s.Keeps (u.startPeriod g y v p) :=
  .changeBehind (.issueBatch (.serveChange (.updSched (.foldl h.advanceTo.updSched.dropChunks.trim fun _ _ ht => ht.releaseSlot))))

theorem periodBatchIssue_answers {g : Nat} : Answers (.periodBatchIssue g) := by
  intro s u h
  refine .onLive h ?_
  split
  · exact h
  · split
    · exact .ite h.startPeriod h
    · exact h

theorem admitFirst {g i : Nat} {v : Serving} {r : State × List Row} {x : Nat × Stream} (h : s.Keeps r.1) :
    s.Keeps (State.admitFirst g i v r x).1 := by
  unfold State.admitFirst
  dsimp only
  split
  · exact h
  · split
    · exact h
    · split
      · exact h.pagesReady
      · split
        · split
          · exact h.pagesReady.raise
          · exact h.pagesReady.reserveSlot
        · split
          · exact h.pagesReady.raise
          · exact h.pagesReady

theorem displace {g j : Nat} {v : Serving} {c : Chunk} (h : s.Keeps u) : s.Keeps (u.displace g j v c) := by
  unfold State.displace
  dsimp only
  split
  · exact h
  · split
    · exact h.updStream.updSched
    · split
      · exact h.updStream.updSched
      · exact h.updStream.dropChunks

theorem admitPlanned {g j : Nat} {v : Serving} {r : State × List Row} {c : Chunk} (h : s.Keeps r.1) :
    s.Keeps (State.admitPlanned g j v r c).1 := by
  unfold State.admitPlanned
  dsimp only
  split
  · exact h.dropChunks
  · split
    · exact h
    · exact h.displace

theorem sliceBoundary_answers {g : Nat} : Answers (.sliceBoundary g) := by
  intro s u h
  refine .onLive h ?_
  split
  · exact h
  · split
    · exact h
    · next v _ =>
      refine .ite h ?_
      extract_lets j at_ s0 r mine s1 q rows
      have hr : s.Keeps r.1 := .foldlFst (p := (s0, [])) h.advanceTo fun _ _ hq => hq.admitFirst
      have h1 : s.Keeps s1 := hr.updSched
      have hq : s.Keeps q.1 := .foldlFst (p := (s1, r.2)) h1 fun _ _ hq => hq.admitPlanned
      exact .ite hq hq.issueBatch.updSched

theorem deliverTo {g : Nat} {b : Batch} {bad : Option Nat} {e : Nat × Nat} (h : s.Keeps u) : s.Keeps (u.deliverTo g b bad e) := by
  unfold State.deliverTo
  dsimp only
  split
  · exact h
  · refine .ite h ?_
    split
    · exact .updSched (.foldl h.parityOf fun _ _ ht => ht.updTile)
    · split
      · exact .updSched (.foldl h.parityOf fun _ _ ht => ht.updTile)
      · exact .ite (.sendBurgee (.sendBurgee (.updSched (.foldl h.parityOf fun _ _ ht => ht.updTile))))
          (.updSched (.foldl h.parityOf fun _ _ ht => ht.updTile))

theorem batchDelivery_answers {g : Nat} {kind : Nat} {seq : Nat} {bad : Option Nat} : Answers (.batchDelivery g kind seq bad) := by
  intro s u h
  refine .onLive h ?_
  split
  · exact h
  · split
    · exact h
    · exact .ite h (.foldl h fun _ _ ht => ht.deliverTo)

theorem powerForecast_answers {g : Nat} : Answers (.powerForecast g) := by
  intro s u h
  refine .onLive h ?_
  dsimp only
  split
  · exact h
  · split
    · exact h
    · exact h.keep

theorem journalRecords {j : Journal} (h : s.Keeps u) : s.Keeps (u.journalRecords j) := .foldl h fun _ _ ht => .ite ht.putStream ht

theorem journalTokens {j : Journal} (h : s.Keeps u) : s.Keeps (u.journalTokens j) := .foldl h fun _ _ ht => ht.hostWrite

theorem journalTail {j : Journal} (h : s.Keeps u) : s.Keeps (u.journalTail j) := h.updHv.keep

theorem harvestRing {g ring : Nat} {rows : List (Row × Nat)} (h : s.Keeps u) : s.Keeps (u.harvestRing g ring rows) := by
  unfold State.harvestRing
  dsimp only
  split
  · exact h
  · exact .ite (.updHv (.foldl h.keep fun _ _ ht => ht.modStream))
      (.ite (.signal (.journalTail (.journalTokens (.updHv (.foldl h.keep fun _ _ ht => ht.modStream)))))
        (.journalTail (.journalTokens (.updHv (.foldl h.keep fun _ _ ht => ht.modStream)))))

theorem afterToken {g : Nat} {r : Row × Nat} (h : s.Keeps u) : s.Keeps (u.afterToken g r) := by
  unfold State.afterToken
  dsimp only
  split
  · exact .endStream (.ite h.freeRuns h)
  · exact .ite h.freeRuns h

theorem commitChunk {r : Row} (h : s.Keeps u) : s.Keeps (u.commitChunk r) := .ite h h.putStream

theorem mismatch {seq : Nat} {e : Row × Nat} (h : s.Keeps u) : s.Keeps (u.mismatch seq e) := h.raise.releaseRow.endStream

theorem harvestRows {g : Nat} {b : Batch} (h : s.Keeps u) : s.Keeps (u.harvestRows g b) :=
  .foldl (.foldl (.foldl (.foldl (.foldl (.readNoting (.foldl h fun _ _ ht => .ite ht.breakDeadline ht)) fun _ _ ht =>
    ht.releaseRow) fun _ _ ht => ht.mismatch) fun _ _ ht => ht.commitChunk) fun _ _ ht => ht.harvestRing) fun _ _ ht => ht.afterToken

theorem harvestBatch {g : Nat} {b : Batch} (h : s.Keeps u) : s.Keeps (u.harvestBatch g b) := by
  unfold State.harvestBatch
  dsimp only
  split
  · exact .foldl h.draw.harvestRows.updSched fun _ _ ht => .ite ht.endCancelled ht
  · exact .ite (.retryAll (.updGraph (.dropShadows (.foldl h.draw.harvestRows.updSched fun _ _ ht => .ite ht.endCancelled ht))))
      (.foldl h.draw.harvestRows.updSched fun _ _ ht => .ite ht.endCancelled ht)

theorem verifyRound {g : Nat} (h : s.Keeps u) : s.Keeps (u.verifyRound g) := by
  unfold State.verifyRound
  split
  · exact h
  · exact h.mapVerify.abandon

theorem harvest_answers {g : Nat} {kind : Nat} {seq : Nat} : Answers (.harvest g kind seq) := by
  intro s u h
  refine .onLive h ?_
  split
  · exact h
  · split
    · exact h
    · exact .ite h (.ite h.harvestBatch (.ite h (.ite h.verifyRound h.harvestBatch)))

/-! ### Recovery -/

theorem clearR311 (h : s.Keeps u) : s.Keeps u.clearR311 := h.keep

theorem dropFetches (h : s.Keeps u) : s.Keeps u.dropFetches := .keep (.foldl h fun _ _ ht => ht.updCq.updSq)

theorem dropSkips (h : s.Keeps u) : s.Keeps u.dropSkips := .keep (.foldl h fun _ _ ht => ht.updSq)

theorem freeze (h : s.Keeps u) : s.Keeps u.freeze := h.dropFetches.dropSkips.keep

theorem startRecovery {go : Bool} (h : s.Keeps u) : s.Keeps (u.startRecovery go) := h.freeze.keep.setDev

theorem recoveryFailed (h : s.Keeps u) : s.Keeps u.recoveryFailed := h.keep.tarnsOff.setDev.ledgerEvent.writeStatus

theorem restartRecovery (h : s.Keeps u) : s.Keeps u.restartRecovery := by
  unfold State.restartRecovery
  split
  · split
    · exact h.recoveryFailed
    · dsimp only
      split
      · exact h.keep.tarnsOff
      · exact h.keep
  · exact h

theorem trigger {go : Bool} (h : s.Keeps u) : s.Keeps (u.trigger go) := by
  unfold State.trigger
  split
  · exact h.restartRecovery
  · exact h.startRecovery

theorem r311 (h : s.Keeps u) : s.Keeps u.r311 := .ite h (.ite (.ite h.clearR311.trigger h.clearR311.trigger.keep) h.clearR311)

theorem functionLevelReset_answers : Answers .functionLevelReset := fun h => .next (.ite h.r311 h)

theorem hotReset_answers : Answers .hotReset := fun h => .next (.ite h.r311 h)

theorem d3hotToD0_answers : Answers .d3hotToD0 := fun h => .next (.ite h.r311 h)

theorem perstNAssert_answers : Answers .perstNAssert := fun h => .next h.r311

theorem hostDown (h : s.Keeps u) : s.Keeps u.hostDown := .ite h (.ite h.keep.keep h.keep.keep.clearR311)

theorem hostLinkDown_answers : Answers .hostLinkDown := fun h => .next h.hostDown

theorem hostLinkReturn_answers {lanes : Nat} {rate : Nat} : Answers (.hostLinkReturn lanes rate) := fun h =>
  .onUnit (.ite h (.ite h.keep.hostTrained.r311 h.keep.hostTrained))

theorem enterDump {n : Nat} {dumped go : Bool} (h : s.Keeps u) : s.Keeps (u.enterDump n dumped go) :=
  .ite h.keep (.ite h.beginDump.keep h.keep)

theorem oldStatistics {i : Nat} (h : s.Keeps u) : s.Keeps (u.oldStatistics i) := by
  unfold State.oldStatistics
  dsimp only
  exact h.readNoting.updStream

theorem loseCache (h : s.Keeps u) : s.Keeps u.loseCache := .keep (.foldl h fun _ _ ht => ht.oldStatistics)

theorem resetDomains (h : s.Keeps u) : s.Keeps u.resetDomains := h.loseCache.keep

theorem stage4 {r : StartReport} {n : Nat} {go : Bool} (h : s.Keeps u) : s.Keeps (u.stage4 r n go) :=
  .ite h.resetDomains.loadFirmware.keep h.resetDomains.keep

theorem stage8 {r : StartReport} {n : Nat} {go : Bool} (h : s.Keeps u) : s.Keeps (u.stage8 r n go) :=
  .keep (.applyUnion (.foldl h.coreTests fun _ _ ht => ht.testFailed))

theorem repeatJournal {j : Journal} (h : s.Keeps u) : s.Keeps (u.repeatJournal j) :=
  .journalTail (.ite h.journalRecords.journalTokens h.journalRecords)

theorem graphLost {g status detail : Nat} (h : s.Keeps u) : s.Keeps (u.graphLost g status detail) :=
  h.raise.endStreams.releasePlanes.setGraph

theorem restage {g : Nat} {c : Change} (h : s.Keeps u) : s.Keeps (u.restage g c) := by
  unfold State.restage
  dsimp only
  split
  · exact h
  · split
    · exact h
    · exact .foldl h.takeBuntings.setGraph.takeSlots fun _ _ ht => .ite ht.updTile ht.writeTile

theorem rebind {g : Nat} (h : s.Keeps u) : s.Keeps (u.rebind g) := by
  unfold State.rebind
  dsimp only
  split
  · exact h
  · refine .ite h.setGraph.graphLost ?_
    refine .ite h.setGraph.readNoting.graphLost ?_
    refine .ite h.setGraph.readNoting.graphLost ?_
    split
    · exact h.setGraph.readNoting.graphLost
    · split
      · exact h.setGraph.readNoting.graphLost
      · split
        · exact h.setGraph.readNoting.draw.bind
        · exact h.setGraph.readNoting.draw.bind.restage

theorem closeWindows (h : s.Keeps u) : s.Keeps u.closeWindows := .foldl h fun _ _ ht => ht.updWindow.keep

theorem endAsked (h : s.Keeps u) : s.Keeps u.endAsked := .foldl h fun _ _ ht => ht.endCancelled

theorem freeHarvest (h : s.Keeps u) : s.Keeps u.freeHarvest := h.keep

theorem abortDescs (h : s.Keeps u) : s.Keeps u.abortDescs := .foldl h fun _ _ ht => ht.complete

theorem breakPassed (h : s.Keeps u) : s.Keeps u.breakPassed := .foldl h fun _ _ ht => .ite ht.breakDeadline ht

theorem toSequence {n : Nat} {q : Sequence} (h : s.Keeps u) : s.Keeps { u with recoveries := n, seq := q } := h.keep

theorem wakes {b : Bool} (h : s.Keeps u) : s.Keeps { u with host := { u.host with wake := b } } := h.keep

theorem stage9 (h : s.Keeps u) : s.Keeps u.stage9 := by
  unfold State.stage9
  split
  · exact h.keep.recoveryFailed
  · extract_lets k1 s1 s2 s3 s4 x5 s5 s6 k7 s7
    have h1 : s.Keeps s1 := h.keep
    have h2 : s.Keeps s2 := (h1.foldl fun _ _ ht => ht.rebind).closeWindows
    have h3 : s.Keeps s3 := (h2.foldl fun _ _ ht => ht.repeatJournal).endAsked.freeHarvest
    have h4 : s.Keeps s4 := (h3.foldl fun _ _ ht => ht.newGrid).breakPassed
    have h5 : s.Keeps s5 := h4.intoService.toSequence
    have h6 : s.Keeps s6 := h5.abortDescs.flushConflicts.sendPending
    have h7 : s.Keeps s7 := h6.wakes
    exact .shutdownOn (.ite h7.unloadAll h7)

theorem endStage {r : StartReport} (h : s.Keeps u) : s.Keeps (u.endStage r) := by
  unfold State.endStage
  dsimp only
  split
  · exact h.enterDump
  · exact .ite h h.keep
  · exact h.keep
  · exact h.stage4
  · exact h.networks.keep
  · exact h.coreTests.takeUntrained.memoryTests.keep
  · exact .keep (.ite h h.hostTrained)
  · exact h.stage8
  · exact h.stage9
  · exact h

theorem recoveryStageComplete_answers {r : StartReport} : Answers (.recoveryStageComplete r) := fun h => .next h.endStage

theorem recoveryStageTimeout_answers : Answers .recoveryStageTimeout := by
  intro s u h
  refine .next ?_
  split
  · exact h
  · exact h.restartRecovery

/-! ### Setup -/

theorem refuseWrite {at_ cause : Nat} (h : s.Keeps u) : s.Keeps (u.refuseWrite at_ cause) := h.keep

theorem lockedWrite {at_ : Nat} (h : s.Keeps u) : s.Keeps (u.lockedWrite at_) := .ite h.keep h.keep.raise

theorem rwl {p : Part} {a b : Nat} {act : State → State} (h : s.Keeps u) (ha : ∀ {t}, s.Keeps t → s.Keeps (act t)) :
    s.Keeps (u.rwl p a b act) := .ite (ha h) (.ite h h.lockedWrite)

theorem updRing {k n : Nat} {f : Ring → Ring} (h : s.Keeps u) : s.Keeps (u.updRing k n f) := by
  unfold State.updRing
  split
  · exact h.updSq
  · exact h.updCq
  · exact h.updHv

theorem setIrq {k n v : Nat} (h : s.Keeps u) : s.Keeps (u.setIrq k n v) := h.updRing

theorem writeCtrl {k n : Nat} {p : Part} (h : s.Keeps u) : s.Keeps (u.writeCtrl k n p) := by
  unfold State.writeCtrl
  dsimp only
  refine .ite (.ite h.refuseWrite h.updRing) ?_
  split
  · split
    · exact h.refuseWrite
    · exact h.updRing
  · exact h.updRing

theorem ringCtrl {k n : Nat} {p : Part} (h : s.Keeps u) : s.Keeps (u.ringCtrl k n p) := .ite (h.setIrq.rwl fun ht => ht) h.writeCtrl

theorem ringBase {k n : Nat} {high : Bool} {p : Part} (h : s.Keeps u) : s.Keeps (u.ringBase k n high p) :=
  .ite (h.rwl fun ht => .ite ht.refuseWrite ht.updRing) (h.rwl fun ht => ht.updRing)

theorem ringPart {k n : Nat} {p : Part} (h : s.Keeps u) : s.Keeps (u.ringPart k n p) := by
  unfold State.ringPart
  split
  · exact h.ringBase
  · exact h.ringBase
  · exact h.ringCtrl
  · exact h

theorem writeDbBase {high : Bool} {p : Part} (h : s.Keeps u) : s.Keeps (u.writeDbBase high p) :=
  .ite (h.rwl fun ht => ht.keep) (h.rwl fun ht => ht.keep)

theorem writeWake (h : s.Keeps u) : s.Keeps u.writeWake := h.keep

theorem writeEvtRing {p : Part} (h : s.Keeps u) : s.Keeps (u.writeEvtRing p) :=
  h.rwl fun ht => .ite ht.refuseWrite ht.keep.flushConflicts

theorem moveTable {a : Nat} (h : s.Keeps u) : s.Keeps (u.moveTable a) := h.zeroRun.keep

theorem writeStreamTable {high : Bool} {p : Part} (h : s.Keeps u) : s.Keeps (u.writeStreamTable high p) :=
  .ite (h.rwl fun ht => .ite ht.refuseWrite (.ite ht.refuseWrite ht.moveTable)) (h.rwl fun ht => ht.keep)

theorem checkIds (h : s.Keeps u) : s.Keeps u.checkIds := by
  unfold State.checkIds
  dsimp only
  split
  · exact .refreshId (.ite h.refuseWrite h)
  · exact .ite (.refreshId (.ite h.refuseWrite h)) (.loseId (.alert (.keep (.ite h.refuseWrite h))))

theorem setLock (h : s.Keeps u) : s.Keeps u.setLock := .ite h h.keep.interleave.checkIds.lockSelf

theorem writeLock {v : Nat} (h : s.Keeps u) : s.Keeps (u.writeLock v) := .ite h.keep.setLock h.keep

theorem writePwrLimit {v : Nat} (h : s.Keeps u) : s.Keeps (u.writePwrLimit v) := h.keep

theorem writePolicy {c v : Nat} (h : s.Keeps u) : s.Keeps (u.writePolicy c v) := h.keep

theorem writeBar2 {high : Bool} {v : Nat} (h : s.Keeps u) : s.Keeps (u.writeBar2 high v) := .ite h.keep h.keep

theorem writeSlot {i : Nat} {p : Part} (h : s.Keeps u) : s.Keeps (u.writeSlot i p) := by
  unfold State.writeSlot
  dsimp only
  exact h.rwl fun ht => .ite ht.refuseWrite (.ite ht.refuseWrite (.ite ht.refuseWrite ht.keep.placeSlice))

theorem clearSliceOvf {n i v : Nat} (h : s.Keeps u) : s.Keeps (u.clearSliceOvf n i v) := h.updSlice

theorem dimPorts (h : s.Keeps u) : s.Keeps u.dimPorts := .foldl h fun _ _ ht => .ite ht.disablePort ht.enablePort

theorem writeDims {p : Part} (h : s.Keeps u) : s.Keeps (u.writeDims p) :=
  h.rwl fun ht => .ite ht.refuseWrite ht.keep.refreshId.dimPorts.lockSelf

theorem writeSelf {p : Part} (h : s.Keeps u) : s.Keeps (u.writeSelf p) := by
  unfold State.writeSelf
  dsimp only
  refine .rwl h fun ht => ?_
  split
  · exact ht.keep.refreshId.lockSelf
  · exact .ite ht.keep.refreshId.lockSelf.raise ht.keep.refreshId.lockSelf

theorem writeMaster {p : Part} (h : s.Keeps u) : s.Keeps (u.writeMaster p) := h.rwl fun ht => ht.keep.lockSelf

theorem writePortCtrl {p v : Nat} (h : s.Keeps u) : s.Keeps (u.writePortCtrl p v) := .ite h.updPort.enablePort h.updPort.disablePort

theorem clearPortOvf {p i v : Nat} (h : s.Keeps u) : s.Keeps (u.clearPortOvf p i v) := h.updPort

theorem portPart {p at_ v : Nat} (h : s.Keeps u) : s.Keeps (u.portPart p at_ v) := .ite h.writePortCtrl (.ite h.clearPortOvf h)

theorem clearFzOvf {i v : Nat} (h : s.Keeps u) : s.Keeps (u.clearFzOvf i v) := h.keep

theorem writeShutdown {v : Nat} (h : s.Keeps u) : s.Keeps (u.writeShutdown v) := .ite h.keep.startShutdown h.keep

theorem writeRecovery {v : Nat} (h : s.Keeps u) : s.Keeps (u.writeRecovery v) := .ite h.keep (.ite h.keep.keep.trigger h.keep.keep)

theorem writeDumpBase {high : Bool} {v : Nat} (h : s.Keeps u) : s.Keeps (u.writeDumpBase high v) := .ite h.keep h.keep

theorem startRetrain {kind unit_ : Nat} (h : s.Keeps u) : s.Keeps (u.startRetrain kind unit_) := .ite h (.ite h.keep.portRetrain h.keep)

theorem writeRetrain {v : Nat} (h : s.Keeps u) : s.Keeps (u.writeRetrain v) := .ite h.keep.startRetrain h.keep

theorem rescueWrite {block : Nat} {ok : Bool} (h : s.Keeps u) : s.Keeps (u.rescueWrite block ok) := .ite h.programBlock.keep h.keep

theorem writeRescue {v : Nat} {ok : Bool} (h : s.Keeps u) : s.Keeps (u.writeRescue v ok) :=
  .ite h (.ite (.commitRescue (.ite h.keep.rescueWrite h.keep)) (.ite h.keep.rescueWrite h.keep))

theorem rescueData {off v : Nat} (h : s.Keeps u) : s.Keeps (u.rescueData off v) := h.keep

theorem romPart {ok : Bool} {p : Part} (h : s.Keeps u) : s.Keeps (u.romPart ok p) := .ite h.writeRescue (.ite h.rescueData h)

theorem lowPart {p : Part} (h : s.Keeps u) : s.Keeps (u.lowPart p) :=
  .ite h.writeLock (.ite h.ringPart (.ite h.ringPart (.ite h.ringPart
    (.ite h.writeDbBase (.ite h.writeDbBase (.ite h.writeWake
      (.ite h.writeEvtRing (.ite h.writeStreamTable (.ite h.writeStreamTable h)))))))))

theorem midPart {p : Part} (h : s.Keeps u) : s.Keeps (u.midPart p) :=
  .ite h.writePwrLimit (.ite h.writeShutdown (.ite h.writePolicy
    (.ite h.keep (.ite (h.rwl fun ht => ht.keep) (.ite h.writeBar2 (.ite h.writeBar2 (.ite h.writeSlot (.ite h.clearSliceOvf h))))))))

theorem highPart {p : Part} (h : s.Keeps u) : s.Keeps (u.highPart p) :=
  .ite h.writeDims (.ite h.writeSelf (.ite h.writeMaster (.ite h.keep
    (.ite h.portPart (.ite h.clearFzOvf (.ite h.writeRecovery
      (.ite h.writeDumpBase (.ite h.writeDumpBase (.ite h.keep (.ite h.writeRetrain h))))))))))

theorem writePart {ok : Bool} {p : Part} (h : s.Keeps u) : s.Keeps (u.writePart ok p) :=
  .ite h.romPart (.ite h.lowPart (.ite h.midPart h.highPart))

theorem bar0 {ok : Bool} {w : BarWrite} (h : s.Keeps u) : s.Keeps (u.bar0 ok w) := .ite (.foldl h fun _ _ ht => ht.writePart) h

end State.Keeps

theorem State.Ends.ownWrite {p : Nat → Nat → Bool} {w : BarWrite}
    (h : s.Keeps u) : s.Ends (barCovers w p) (u.ownWrite p w) := .onUnit h.bar0

namespace State.Keeps

theorem registerWrite_answers {w : BarWrite} : Answers (.registerWrite w) := fun h => .onUnit h.bar0

theorem setupLockSet_answers {w : BarWrite} : Answers (.setupLockSet w) := fun h => .ownWrite h

theorem ringCtrlWrite_answers {w : BarWrite} : Answers (.ringCtrlWrite w) := fun h => .ownWrite h

theorem dbBaseWrite_answers {w : BarWrite} : Answers (.dbBaseWrite w) := fun h => .ownWrite h

theorem evtRingWrite_answers {w : BarWrite} : Answers (.evtRingWrite w) := fun h => .ownWrite h

theorem streamTableBaseWrite_answers {w : BarWrite} : Answers (.streamTableBaseWrite w) := fun h => .ownWrite h

theorem bar2BaseWrite_answers {w : BarWrite} : Answers (.bar2BaseWrite w) := fun h => .ownWrite h

theorem retireSlotWrite_answers {w : BarWrite} : Answers (.retireSlotWrite w) := fun h => .ownWrite h

theorem fzDimsWrite_answers {w : BarWrite} : Answers (.fzDimsWrite w) := fun h => .ownWrite h

theorem fzSelfWrite_answers {w : BarWrite} : Answers (.fzSelfWrite w) := fun h => .ownWrite h

theorem fzPortCtrlWrite_answers {w : BarWrite} : Answers (.fzPortCtrlWrite w) := fun h => ⟨_, rfl, h.bar0⟩

theorem wake_answers {w : BarWrite} : Answers (.wake w) := fun h => .ownWrite h

theorem shutdownCtrlGo_answers {w : BarWrite} : Answers (.shutdownCtrlGo w) := fun h => .ownWrite h

theorem recoveryCtrlGo_answers {w : BarWrite} : Answers (.recoveryCtrlGo w) := fun h => .ownWrite h

theorem retrainFilzorPort_answers {w : BarWrite} : Answers (.retrainFilzorPort w) := fun h => .ownWrite h

theorem retrainHbmSliceGroup_answers {w : BarWrite} : Answers (.retrainHbmSliceGroup w) := fun h => .ownWrite h

theorem retrainCxlPort_answers {w : BarWrite} : Answers (.retrainCxlPort w) := fun h => .ownWrite h

theorem retrainEffect {kind unit_ outcome : Nat} (h : s.Keeps u) : s.Keeps (u.retrainEffect kind unit_ outcome) :=
  .ite (.foldl h fun _ _ ht => ht.loseSlice) h

theorem retrainComplete_answers {outcome : Nat} : Answers (.retrainComplete outcome) := by
  intro s u h
  refine .onUnit ?_
  dsimp only
  split
  · exact h
  · exact .ite h h.keep.retrainEffect.raise

theorem rescueCtrlWrite_answers {w : BarWrite} {ok : Bool} : Answers (.rescueCtrlWrite w ok) := fun h => .onUnit h.bar0

theorem rescueCtrlCommit_answers {w : BarWrite} {ok : Bool} : Answers (.rescueCtrlCommit w ok) := fun h => .onUnit h.bar0

theorem cairnLowRead_answers : Answers .cairnLowRead := fun h => .next (.ite h (.ite h.keep h.keep))

theorem cairnHighRead_answers : Answers .cairnHighRead := fun h => .next (.ite h (.ite h.keep h.keep))

/-! ### Power -/

theorem seeInput {mv : Nat} (h : s.Keeps u) : s.Keeps (u.seeInput mv) := h.keep

theorem endSessions (h : s.Keeps u) : s.Keeps u.endSessions := by
  unfold State.endSessions
  refine .foldl h fun t x ht => ?_
  split
  · exact ht.recordSession.letGo
  · exact ht

theorem brownoutWarn_answers {mv : Nat} : Answers (.brownoutWarn mv) := fun h => .next (.ite h h.seeInput.keep.alert.raise.endSessions)

theorem brownoutClear_answers {mv : Nat} : Answers (.brownoutClear mv) := fun h => .next (.ite h h.seeInput.keep.raise)

theorem brownoutReset_answers {mv : Nat} : Answers (.brownoutReset mv) := fun h => .next (.ite h h.seeInput.openSwitch)

theorem overvoltageWarn_answers {mv : Nat} : Answers (.overvoltageWarn mv) := fun h => .next (.ite h h.seeInput.keep.raise)

theorem overvoltageRearm_answers : Answers .overvoltageRearm := fun h => .next h.keep

theorem inputOvervoltageTrip_answers {mv : Nat} : Answers (.inputOvervoltageTrip mv) := fun h => .next (.ite h h.seeInput.openSwitch)

theorem ibcFail_answers {n : Nat} : Answers (.ibcFail n) := fun h =>
  .onUnit (.ite h (.ite h.keep.alert.raise.openSwitch h.keep.alert.raise))

theorem routerOff {m : Nat} (h : s.Keeps u) : s.Keeps (u.routerOff m) := .keep (.foldl h fun _ _ ht => ht.abandon)

theorem domainLost {dom : Nat} (h : s.Keeps u) : s.Keeps (u.domainLost dom) :=
  .ite h.raise.keep.updTile.fenceTile (.ite (.ite (.foldl (.routerOff (.foldl h.raise.keep fun _ _ ht => ht.fenceTile)) fun _ _ ht =>
    ht.setScore) (.routerOff (.foldl h.raise.keep fun _ _ ht => ht.fenceTile)))
      (.ite (.foldl h.raise.keep fun _ _ ht => ht.loseSlice) (.ite h.raise.keep.hostDown
        (.ite (.foldl h.raise.keep fun _ _ ht => ht.loseDevice)
          (.ite h.raise.keep.portDown.disablePort (.ite h.raise.keep.openSwitch h.raise.keep.keep.setDev))))))

theorem otherPhaseFailed {dom p report : Nat} (h : s.Keeps u) : s.Keeps (u.otherPhaseFailed dom p report) :=
  .ite h.raise.domainLost h.raise

theorem softReport {dom p report : Nat} (h : s.Keeps u) : s.Keeps (u.softReport dom p report) := .ite h (.ite h.blame h.ledgerEvent)

theorem phOvercurrent_answers {dom : Nat} {phase : Nat} : Answers (.phOvercurrent dom phase) := fun h => .onPhase h h.softReport

theorem phOvertemp_answers {dom : Nat} {phase : Nat} : Answers (.phOvertemp dom phase) := fun h =>
  .onPhase h (.ite h (.ite (.softReport (.ite h.updPhase (.ite h.updPhase.tilePhaseFailed h.updPhase.otherPhaseFailed)))
    (.ite h.updPhase (.ite h.updPhase.tilePhaseFailed h.updPhase.otherPhaseFailed))))

theorem phOvertempClear_answers {dom : Nat} {phase : Nat} : Answers (.phOvertempClear dom phase) := fun h =>
  .onPhase h (.ite h (.ite h.updPhase.updTile h.updPhase))

theorem phRegulation_answers {dom : Nat} {phase : Nat} : Answers (.phRegulation dom phase) := fun h => .onPhase h h.softReport

theorem phDead_answers {dom : Nat} {phase : Nat} : Answers (.phDead dom phase) := fun h =>
  .onPhase h (.ite h (.ite h.updPhase.settleScore.tilePhaseFailed h.updPhase.otherPhaseFailed))

theorem undervoltage_answers {dom : Nat} {phase : Nat} : Answers (.undervoltage dom phase) := fun h =>
  .onPhase h (.ite h.softReport h.ledgerEvent)

theorem phaseShed_answers {dom : Nat} : Answers (.phaseShed dom) := fun h => .onUnit (.ite h (.foldl h fun _ _ ht => ht.updPhase))

theorem powerDomainTurnOn_answers {dom : Nat} : Answers (.powerDomainTurnOn dom) := fun h => .onUnit (.ite h h.queueStaging)

theorem powerDomainTurnOff_answers {dom : Nat} : Answers (.powerDomainTurnOff dom) := fun h =>
  .onUnit (.ite h (.ite h.advanceTo.updTile h.queueStaging))

theorem tileOff {i : Nat} (h : s.Keeps u) : s.Keeps (u.tileOff i) :=
  .restTarn (.updTile (.dropWords (.ite h (.foldl h fun _ _ ht => ht.abandon))))

theorem switchDomain {dom : Nat} {on : Bool} (h : s.Keeps u) : s.Keeps (u.switchDomain dom on) :=
  .ite (.ite (.retryCopies (.stagedOn (.updTile (.ite h.advanceTo h)))) (.tileOff (.ite h.advanceTo h)))
    (.ite (.updTile (.ite h.advanceTo h)) (.ite (.ite (.routerOn (.ite h.advanceTo h)) (.routerOff (.ite h.advanceTo h)))
      (.ite h.keep (.ite h.keep.enumerateWaiting (.ite h.keep.enablePort h.keep)))))

theorem finishStaging {n : Nat} {g : Staging} {rest : List Staging} (h : s.Keeps u) : s.Keeps (u.finishStaging n g rest) :=
  .setHood (.restorePoint (.ite h.advanceTo.setHood h.advanceTo.setHood.switchDomain))

theorem powerStage_answers {hood : Nat} {low : Bool} : Answers (.powerStage hood low) := by
  intro s u h
  refine .onUnit ?_
  dsimp only
  split
  · exact h
  · exact .ite h (.ite h.finishStaging (.ite h.advanceTo.setHood h.advanceTo.setHood))

theorem powerStageStalled_answers {hood : Nat} : Answers (.powerStageStalled hood) := by
  intro s u h
  refine .onUnit ?_
  dsimp only
  split
  · exact h
  · exact .ite h h.advanceTo.setHood.raise.keep

theorem takeReading {r : PowerReading} (h : s.Keeps u) : s.Keeps (u.takeReading r) := h.seeInput.keep

theorem noteUnmet {r : PowerReading} (h : s.Keeps u) : s.Keeps (u.noteUnmet r) := .ite h.keep.alert.raise h.keep

theorem powerSample_answers {r : PowerReading} : Answers (.powerSample r) := fun h =>
  .next (.ite h (.noteUnmet (.keep (.ite h.advanceTo.takeReading.endSessions h.advanceTo.takeReading))))

theorem stretchAll {is : List Nat} (h : s.Keeps u) : s.Keeps (u.stretchAll is) := h.keep

theorem droopStretch_answers {island : Nat} : Answers (.droopStretch island) := fun h =>
  .onUnit (.ite h (.ite h.raise (.ite h.stretchAll h.raiseAll)))

theorem limitHeat {celsius island : Nat} (h : s.Keeps u) : s.Keeps (u.limitHeat celsius island) := .ite h h.keep.alert.raise

theorem thermalStep_answers {celsius : Nat} {island : Nat} {hot : Bool} : Answers (.thermalStep celsius island hot) := fun h =>
  .onUnit (.ite h h.advanceTo.keep.limitHeat)

theorem thermalHalt_answers {celsius : Nat} {island : Nat} : Answers (.thermalHalt celsius island) := fun h =>
  .onUnit (.ite h (.foldl (.keep (.ite (.preemptSlice (.endSessions (.foldl h.limitHeat.alert.raise fun _ _ ht => ht.abandon)))
    (.endSessions (.foldl h.limitHeat.alert.raise fun _ _ ht => ht.abandon)))) fun _ _ ht => ht.unstage.unstage.dropWords.quiet))

theorem thermalResume_answers {celsius : Nat} {island : Nat} : Answers (.thermalResume celsius island) := fun h =>
  .onUnit (.ite h (.foldl h.keep.raise fun _ _ ht => .ite ht.updTile.turnTileOn ht))

theorem thermalTrip_answers {celsius : Nat} {island : Nat} : Answers (.thermalTrip celsius island) := fun h =>
  .onUnit (.ite h h.limitHeat.openSwitch)

theorem clockRefLost_answers : Answers .clockRefLost := fun h => .next (.ite h h.keep.raise)

theorem clockRefRestored_answers : Answers .clockRefRestored := fun h => .next (.ite h h.keep.raise)

theorem clockLost_answers : Answers .clockLost := fun h => .next (.ite h h.ledgerEvent.openSwitch)

theorem voltageLoop_answers {dom : Nat} {steps : ℤ} : Answers (.voltageLoop dom steps) := fun h =>
  .onUnit (.ite h (.ite h.keep (.ite h.keep.updTile (.ite h.keep.fenceNow h.keep.updTile.capTile))))

theorem filzorEqualisationUpdate_answers {p : Nat} {taps : Nat} {cxl : Option Nat} :
    Answers (.filzorEqualisationUpdate p taps cxl) := fun h =>
  .onUnit (.elim (.ite h.updPort h) fun _ => .startRetrain (.ite h.updPort h))

theorem hbmTrainingUpdate_answers {sg : Nat} {vals : Nat} {held : Bool} : Answers (.hbmTrainingUpdate sg vals held) := fun h =>
  .onUnit (.ite h (.ite h.keep h.keep.startRetrain))

/-! ### Sideband -/

theorem inputSwitchClose_answers {mv : Nat} : Answers (.inputSwitchClose mv) := fun h => .next (.ite h h.keep.coldStart)

theorem moduleRemoval_answers : Answers .moduleRemoval := fun h => .next h.keep.openSwitch

theorem pwrDisHigh_answers : Answers .pwrDisHigh := fun h => .next h.keep.openSwitch

theorem pwrDisLow_answers : Answers .pwrDisLow := fun h => .next h.keep

theorem standbyPowerLoss_answers : Answers .standbyPowerLoss := fun h => .next h.bare.keep

theorem attnBlink_answers : Answers .attnBlink := fun h => .next (.ite h h.advanceTo.keep)

theorem powerOff_answers {v : Bool} {pec : Bool} : Answers (.powerOff v pec) := fun h => .next (.ite h (.ite h.keep.openSwitch h.keep))

theorem powerCycle_answers {pec : Bool} : Answers (.powerCycle pec) := fun h => .next (.ite h h.openSwitch)

theorem takeCoord {m : Nat} (h : s.Keeps u) : s.Keeps (u.takeCoord m) := .ite h.alert (.ite h h.keep.refreshId.lockSelf)

theorem mgCoordWrite_answers {v : Nat} {pec : Bool} : Answers (.mgCoordWrite v pec) := fun h =>
  .next (.ite h (.ite h.keep.takeCoord h.keep))

theorem mgShutdownReq_answers {pec : Bool} : Answers (.mgShutdownReq pec) := fun h => .next (.ite h h.startShutdown)

theorem smbusAlertResponse_answers : Answers .smbusAlertResponse := fun h => .next (.ite h.keep h.keep)

theorem writeMgmt {off : Nat} {b : List Byte} (h : s.Keeps u) : s.Keeps (u.writeMgmt off b) :=
  .ite h.keep (.ite h.keep (.ite h.keep (.ite h.keep h)))

theorem writeHotSwap {off : Nat} {b : List Byte} (h : s.Keeps u) : s.Keeps (u.writeHotSwap off b) := .ite h.keep h

theorem smbusRegisterWrite_answers {set_ : SmbusSet} {off : Nat} {bytes : List Byte} {pec : Bool} :
    Answers (.smbusRegisterWrite set_ off bytes pec) := by
  intro s u h
  cases set_ with
  | hotSwap => exact ⟨_, rfl, .ite h.writeHotSwap h⟩
  | management =>
    refine ⟨if pec && u.mgmtAnswers then u.writeMgmt off bytes else u, ?_, .ite h.writeMgmt h⟩
    show onUnit _ _ = _
    rw [Instr.wellFormed, Bool.and_assoc]

/-! ### Step -/

theorem idle (h : s.Keeps u) : s.Keeps u.idle :=
  .ite h.tick h

end State.Keeps

/-- Every command answers just where it is well-formed, and keeps what every command keeps. -/
theorem answers : ∀ c : Instr, Answers c
  | .mma .. => State.Keeps.mma_answers
  | .mtrn .. => State.Keeps.mtrn_answers
  | .vadd .. => State.Keeps.vadd_answers
  | .vsub .. => State.Keeps.vsub_answers
  | .vmul .. => State.Keeps.vmul_answers
  | .vfma .. => State.Keeps.vfma_answers
  | .vmax .. => State.Keeps.vmax_answers
  | .vmin .. => State.Keeps.vmin_answers
  | .vcmp .. => State.Keeps.vcmp_answers
  | .vsel .. => State.Keeps.vsel_answers
  | .vcvt .. => State.Keeps.vcvt_answers
  | .vscale .. => State.Keeps.vscale_answers
  | .vrsum .. => State.Keeps.vrsum_answers
  | .vrmax .. => State.Keeps.vrmax_answers
  | .vrssq .. => State.Keeps.vrssq_answers
  | .vabsmax .. => State.Keeps.vabsmax_answers
  | .vupd .. => State.Keeps.vupd_answers
  | .xcomb .. => State.Keeps.xcomb_answers
  | .fexp .. => State.Keeps.fexp_answers
  | .flog .. => State.Keeps.flog_answers
  | .frcp .. => State.Keeps.frcp_answers
  | .frsq .. => State.Keeps.frsq_answers
  | .fsincos .. => State.Keeps.fsincos_answers
  | .topk .. => State.Keeps.topk_answers
  | .sload .. => State.Keeps.sload_answers
  | .sstore .. => State.Keeps.sstore_answers
  | .sgather .. => State.Keeps.sgather_answers
  | .sscatter .. => State.Keeps.sscatter_answers
  | .smcast .. => State.Keeps.smcast_answers
  | .xdisp .. => State.Keeps.xdisp_answers
  | .csend .. => State.Keeps.csend_answers
  | .crecv .. => State.Keeps.crecv_answers
  | .wload .. => State.Keeps.wload_answers
  | .chsend .. => State.Keeps.chsend_answers
  | .chrecv .. => State.Keeps.chrecv_answers
  | .chpoll .. => State.Keeps.chpoll_answers
  | .scalc .. => State.Keeps.scalc_answers
  | .psend .. => State.Keeps.psend_answers
  | .summit .. => State.Keeps.summit_answers
  | .operationComplete .. => State.Keeps.operationComplete_answers
  | .memoryOperationComplete .. => State.Keeps.memoryOperationComplete_answers
  | .localReplay .. => State.Keeps.localReplay_answers
  | .loadStepNotice .. => State.Keeps.loadStepNotice_answers
  | .tokenArrival .. => State.Keeps.tokenArrival_answers
  | .creditReturn .. => State.Keeps.creditReturn_answers
  | .channelWordArrival .. => State.Keeps.channelWordArrival_answers
  | .expertRowArrival .. => State.Keeps.expertRowArrival_answers
  | .expertCountRecord .. => State.Keeps.expertCountRecord_answers
  | .mplaneResponse .. => State.Keeps.mplaneResponse_answers
  | .mplaneRequest .. => State.Keeps.mplaneRequest_answers
  | .multicastBranchRelease .. => State.Keeps.multicastBranchRelease_answers
  | .summitArrive .. => State.Keeps.summitArrive_answers
  | .summitRelease .. => State.Keeps.summitRelease_answers
  | .abandonFlit .. => State.Keeps.abandonFlit_answers
  | .abandonDrainDone .. => State.Keeps.abandonDrainDone_answers
  | .tarnClearDone .. => State.Keeps.tarnClearDone_answers
  | .tarnPatrolRead .. => State.Keeps.tarnPatrolRead_answers
  | .tarnPatrolWriteBack .. => State.Keeps.tarnPatrolWriteBack_answers
  | .sideRead .. => State.Keeps.sideRead_answers
  | .sideAccessTimeout .. => State.Keeps.sideAccessTimeout_answers
  | .tarnStagingWrite .. => State.Keeps.tarnStagingWrite_answers
  | .tarnStagingRead .. => State.Keeps.tarnStagingRead_answers
  | .stagedTileTimeout .. => State.Keeps.stagedTileTimeout_answers
  | .graphLoad .. => State.Keeps.graphLoad_answers
  | .graphUnload .. => State.Keeps.graphUnload_answers
  | .graphUnloadComplete .. => State.Keeps.graphUnloadComplete_answers
  | .classPolicy .. => State.Keeps.classPolicy_answers
  | .statusRead .. => State.Keeps.statusRead_answers
  | .burgeePass .. => State.Keeps.burgeePass_answers
  | .burgeeSwitchComplete .. => State.Keeps.burgeeSwitchComplete_answers
  | .scheduleViolation .. => State.Keeps.scheduleViolation_answers
  | .cyclicWait .. => State.Keeps.cyclicWait_answers
  | .screeRefill .. => State.Keeps.screeRefill_answers
  | .queueDepthSample .. => State.Keeps.queueDepthSample_answers
  | .streamOpen .. => State.Keeps.streamOpen_answers
  | .streamExtend .. => State.Keeps.streamExtend_answers
  | .streamCancel .. => State.Keeps.streamCancel_answers
  | .streamQuery .. => State.Keeps.streamQuery_answers
  | .streamFinalRecord .. => State.Keeps.streamFinalRecord_answers
  | .deadlineExpiry .. => State.Keeps.deadlineExpiry_answers
  | .periodSelection .. => State.Keeps.periodSelection_answers
  | .periodBatchIssue .. => State.Keeps.periodBatchIssue_answers
  | .sliceBoundary .. => State.Keeps.sliceBoundary_answers
  | .batchDelivery .. => State.Keeps.batchDelivery_answers
  | .powerForecast .. => State.Keeps.powerForecast_answers
  | .harvest .. => State.Keeps.harvest_answers
  | .kvPageMigration .. => State.Keeps.kvPageMigration_answers
  | .kvPageMoveDone .. => State.Keeps.kvPageMoveDone_answers
  | .memCopy .. => State.Keeps.memCopy_answers
  | .hostCopy .. => State.Keeps.hostCopy_answers
  | .hbmPatrolRead .. => State.Keeps.hbmPatrolRead_answers
  | .retireFrameCopied .. => State.Keeps.retireFrameCopied_answers
  | .cxlAccessTimeout .. => State.Keeps.cxlAccessTimeout_answers
  | .cxlRangeLost .. => State.Keeps.cxlRangeLost_answers
  | .cxlDeviceInsert .. => State.Keeps.cxlDeviceInsert_answers
  | .cxlRemove .. => State.Keeps.cxlRemove_answers
  | .cxlRemoveProceed .. => State.Keeps.cxlRemoveProceed_answers
  | .cxlEventRecord .. => State.Keeps.cxlEventRecord_answers
  | .bar2Read .. => State.Keeps.bar2Read_answers
  | .bar2Write .. => State.Keeps.bar2Write_answers
  | .fzSignalDetect .. => State.Keeps.fzSignalDetect_answers
  | .fzEqualiseDone .. => State.Keeps.fzEqualiseDone_answers
  | .fzEqualiseTimeout .. => State.Keeps.fzEqualiseTimeout_answers
  | .fzAlignDone .. => State.Keeps.fzAlignDone_answers
  | .fzAlignTimeout .. => State.Keeps.fzAlignTimeout_answers
  | .fzIdentifyExchange .. => State.Keeps.fzIdentifyExchange_answers
  | .fzHeldRetry .. => State.Keeps.fzHeldRetry_answers
  | .fzDownRetry .. => State.Keeps.fzDownRetry_answers
  | .fzCodewordReceive .. => State.Keeps.fzCodewordReceive_answers
  | .fzLockLoss .. => State.Keeps.fzLockLoss_answers
  | .fzRetrainDone .. => State.Keeps.fzRetrainDone_answers
  | .fzRetrainTimeout .. => State.Keeps.fzRetrainTimeout_answers
  | .fzBeaconSend .. => State.Keeps.fzBeaconSend_answers
  | .fzTimeHoldover => State.Keeps.fzTimeHoldover_answers
  | .fzPacketForward .. => State.Keeps.fzPacketForward_answers
  | .readReq .. => State.Keeps.readReq_answers
  | .write .. => State.Keeps.write_answers
  | .readResp => State.Keeps.readResp_answers
  | .writeAck => State.Keeps.writeAck_answers
  | .openConn => State.Keeps.openConn_answers
  | .openAck => State.Keeps.openAck_answers
  | .openBusy => State.Keeps.openBusy_answers
  | .closeConn => State.Keeps.closeConn_answers
  | .reclaim => State.Keeps.reclaim_answers
  | .staleConn => State.Keeps.staleConn_answers
  | .fzResendTimeout .. => State.Keeps.fzResendTimeout_answers
  | .fzOpenRetry .. => State.Keeps.fzOpenRetry_answers
  | .fzReceiverIdle .. => State.Keeps.fzReceiverIdle_answers
  | .fzSenderIdle .. => State.Keeps.fzSenderIdle_answers
  | .fabricTable .. => State.Keeps.fabricTable_answers
  | .fabricEpoch .. => State.Keeps.fabricEpoch_answers
  | .fzEpochSwitch => State.Keeps.fzEpochSwitch_answers
  | .fzEpochRelease => State.Keeps.fzEpochRelease_answers
  | .windowOpen .. => State.Keeps.windowOpen_answers
  | .windowClose .. => State.Keeps.windowClose_answers
  | .windowCloseDone .. => State.Keeps.windowCloseDone_answers
  | .windowImport .. => State.Keeps.windowImport_answers
  | .windowUnimport .. => State.Keeps.windowUnimport_answers
  | .doorbellPoll .. => State.Keeps.doorbellPoll_answers
  | .descriptorFetch .. => State.Keeps.descriptorFetch_answers
  | .skip .. => State.Keeps.skip_answers
  | .nop .. => State.Keeps.nop_answers
  | .heartbeatWrite => State.Keeps.heartbeatWrite_answers
  | .functionLevelReset => State.Keeps.functionLevelReset_answers
  | .hotReset => State.Keeps.hotReset_answers
  | .d3hotToD0 => State.Keeps.d3hotToD0_answers
  | .hostLinkDown => State.Keeps.hostLinkDown_answers
  | .perstNAssert => State.Keeps.perstNAssert_answers
  | .pcieConfigRequest .. => State.Keeps.pcieConfigRequest_answers
  | .msixUnmask .. => State.Keeps.msixUnmask_answers
  | .registerWrite .. => State.Keeps.registerWrite_answers
  | .setupLockSet .. => State.Keeps.setupLockSet_answers
  | .ringCtrlWrite .. => State.Keeps.ringCtrlWrite_answers
  | .dbBaseWrite .. => State.Keeps.dbBaseWrite_answers
  | .evtRingWrite .. => State.Keeps.evtRingWrite_answers
  | .streamTableBaseWrite .. => State.Keeps.streamTableBaseWrite_answers
  | .bar2BaseWrite .. => State.Keeps.bar2BaseWrite_answers
  | .retireSlotWrite .. => State.Keeps.retireSlotWrite_answers
  | .fzDimsWrite .. => State.Keeps.fzDimsWrite_answers
  | .fzSelfWrite .. => State.Keeps.fzSelfWrite_answers
  | .fzPortCtrlWrite .. => State.Keeps.fzPortCtrlWrite_answers
  | .wake .. => State.Keeps.wake_answers
  | .cairnLowRead => State.Keeps.cairnLowRead_answers
  | .cairnHighRead => State.Keeps.cairnHighRead_answers
  | .recoveryCtrlGo .. => State.Keeps.recoveryCtrlGo_answers
  | .shutdownCtrlGo .. => State.Keeps.shutdownCtrlGo_answers
  | .retrainFilzorPort .. => State.Keeps.retrainFilzorPort_answers
  | .retrainHbmSliceGroup .. => State.Keeps.retrainHbmSliceGroup_answers
  | .retrainCxlPort .. => State.Keeps.retrainCxlPort_answers
  | .retrainComplete .. => State.Keeps.retrainComplete_answers
  | .rescueCtrlWrite .. => State.Keeps.rescueCtrlWrite_answers
  | .rescueCtrlCommit .. => State.Keeps.rescueCtrlCommit_answers
  | .smbusRegisterWrite .. => State.Keeps.smbusRegisterWrite_answers
  | .powerOff .. => State.Keeps.powerOff_answers
  | .powerCycle .. => State.Keeps.powerCycle_answers
  | .mgCoordWrite .. => State.Keeps.mgCoordWrite_answers
  | .mgShutdownReq .. => State.Keeps.mgShutdownReq_answers
  | .smbusAlertResponse => State.Keeps.smbusAlertResponse_answers
  | .inputSwitchClose .. => State.Keeps.inputSwitchClose_answers
  | .moduleRemoval => State.Keeps.moduleRemoval_answers
  | .pwrDisHigh => State.Keeps.pwrDisHigh_answers
  | .pwrDisLow => State.Keeps.pwrDisLow_answers
  | .attnBlink => State.Keeps.attnBlink_answers
  | .brownoutWarn .. => State.Keeps.brownoutWarn_answers
  | .brownoutClear .. => State.Keeps.brownoutClear_answers
  | .brownoutReset .. => State.Keeps.brownoutReset_answers
  | .overvoltageWarn .. => State.Keeps.overvoltageWarn_answers
  | .inputOvervoltageTrip .. => State.Keeps.inputOvervoltageTrip_answers
  | .ibcFail .. => State.Keeps.ibcFail_answers
  | .phOvercurrent .. => State.Keeps.phOvercurrent_answers
  | .phOvertemp .. => State.Keeps.phOvertemp_answers
  | .phOvertempClear .. => State.Keeps.phOvertempClear_answers
  | .phRegulation .. => State.Keeps.phRegulation_answers
  | .phDead .. => State.Keeps.phDead_answers
  | .powerDomainTurnOn .. => State.Keeps.powerDomainTurnOn_answers
  | .powerStage .. => State.Keeps.powerStage_answers
  | .powerDomainTurnOff .. => State.Keeps.powerDomainTurnOff_answers
  | .powerStageStalled .. => State.Keeps.powerStageStalled_answers
  | .powerSample .. => State.Keeps.powerSample_answers
  | .droopStretch .. => State.Keeps.droopStretch_answers
  | .undervoltage .. => State.Keeps.undervoltage_answers
  | .phaseShed .. => State.Keeps.phaseShed_answers
  | .thermalStep .. => State.Keeps.thermalStep_answers
  | .thermalHalt .. => State.Keeps.thermalHalt_answers
  | .thermalResume .. => State.Keeps.thermalResume_answers
  | .thermalTrip .. => State.Keeps.thermalTrip_answers
  | .clockRefLost => State.Keeps.clockRefLost_answers
  | .clockRefRestored => State.Keeps.clockRefRestored_answers
  | .clockLost => State.Keeps.clockLost_answers
  | .voltageLoop .. => State.Keeps.voltageLoop_answers
  | .filzorEqualisationUpdate .. => State.Keeps.filzorEqualisationUpdate_answers
  | .hbmTrainingUpdate .. => State.Keeps.hbmTrainingUpdate_answers
  | .trainingSave => State.Keeps.trainingSave_answers
  | .digestCompare .. => State.Keeps.digestCompare_answers
  | .faultScoreLeak .. => State.Keeps.faultScoreLeak_answers
  | .stressSessionStart .. => State.Keeps.stressSessionStart_answers
  | .stressSessionEnd .. => State.Keeps.stressSessionEnd_answers
  | .stressMismatch .. => State.Keeps.stressMismatch_answers
  | .stressNominalRetestDone .. => State.Keeps.stressNominalRetestDone_answers
  | .startPhaseComplete .. => State.Keeps.startPhaseComplete_answers
  | .startPhaseBudgetExpiry .. => State.Keeps.startPhaseBudgetExpiry_answers
  | .knownAnswerRunDone .. => State.Keeps.knownAnswerRunDone_answers
  | .shutdownSliceDone .. => State.Keeps.shutdownSliceDone_answers
  | .shutdownBudgetExpiry .. => State.Keeps.shutdownBudgetExpiry_answers
  | .onDemandSliceDone .. => State.Keeps.onDemandSliceDone_answers
  | .recoveryStageComplete .. => State.Keeps.recoveryStageComplete_answers
  | .recoveryStageTimeout => State.Keeps.recoveryStageTimeout_answers
  | .dumpGroupDone .. => State.Keeps.dumpGroupDone_answers
  | .dumpBudgetExpiry => State.Keeps.dumpBudgetExpiry_answers
  | .fwUpdate .. => State.Keeps.fwUpdate_answers
  | .fwChunk .. => State.Keeps.fwChunk_answers
  | .fwRepairRound => State.Keeps.fwRepairRound_answers
  | .fwUnitActivate .. => State.Keeps.fwUnitActivate_answers
  | .lifecycle .. => State.Keeps.lifecycle_answers
  | .attest .. => State.Keeps.attest_answers
  | .uartBreak => State.Keeps.uartBreak_answers
  | .help => State.Keeps.help_answers
  | .info => State.Keeps.info_answers
  | .state => State.Keeps.state_answers
  | .baud .. => State.Keeps.baud_answers
  | .log .. => State.Keeps.log_answers
  | .defects => State.Keeps.defects_answers
  | .result .. => State.Keeps.result_answers
  | .challenge => State.Keeps.challenge_answers
  | .unlock .. => State.Keeps.unlock_answers
  | .unlockLockoutExpiry => State.Keeps.unlockLockoutExpiry_answers
  | .lock => State.Keeps.lock_answers
  | .sessionTimeout => State.Keeps.sessionTimeout_answers
  | .test .. => State.Keeps.test_answers
  | .defectClear .. => State.Keeps.defectClear_answers
  | .resultErase => State.Keeps.resultErase_answers
  | .fuse .. => State.Keeps.fuse_answers
  | .rescue .. => State.Keeps.rescue_answers
  | .block .. => State.Keeps.block_answers
  | .commit .. => State.Keeps.commit_answers
  | .rescueOwnershipTimeout => State.Keeps.rescueOwnershipTimeout_answers
  | .hostLinkReturn .. => State.Keeps.hostLinkReturn_answers
  | .hostReadCompletion .. => State.Keeps.hostReadCompletion_answers
  | .wheelTurn .. => State.Keeps.wheelTurn_answers
  | .overvoltageRearm => State.Keeps.overvoltageRearm_answers
  | .standbyPowerLoss => State.Keeps.standbyPowerLoss_answers
  | .unknownCommand .. => State.Keeps.unknownCommand_answers

theorem State.idle_keeps : s.Keeps s.idle := .ite (State.Keeps.refl s).tick (.refl s)

/-- A step takes the front command from the queue, and keeps what every command keeps. -/
theorem step_keeps (h : step s = .next t) : ({ s with pending := s.pending.tail } : State).Keeps t := by
  unfold step at h
  split at h
  · next hp =>
    obtain rfl : s.idle = t := Host.Outcome.next.inj h
    have hs : ({ s with pending := s.pending.tail } : State) = s := by rw [hp, List.tail_nil, ← hp]
    rw [hs]
    exact State.idle_keeps
  · next c rest hp =>
    obtain ⟨v, hv, hk⟩ := answers c (.refl { s with pending := rest })
    rw [hv] at h
    unfold onUnit at h
    split at h
    · obtain rfl := Host.Outcome.next.inj h
      rw [hp]
      exact hk
    · exact absurd h (by simp)

/-- Settles O2: every command of `exec` is `onUnit` of its well-formedness. -/
theorem wellFormedCommandsNeverStop : Obligations.WellFormedCommandsNeverStop := by
  intro c s
  obtain ⟨t, h, -⟩ := answers c (.refl s)
  rw [h]
  exact ⟨fun hw => ⟨t, by rw [hw]; rfl⟩, fun hw => by rw [hw]; rfl⟩

/-- Settles O3: no command changes the queue that it runs with. -/
theorem stepConsumesOneCommand : Obligations.StepConsumesOneCommand := fun _ _ h => (step_keeps h).pending

/-- Settles O4: every operation on memory keeps the canonical form. -/
theorem memoryStaysCanonical : Obligations.MemoryStaysCanonical := fun _ _ hm h => (step_keeps h).memWf hm

/-- Settles O6: fuses are programmed by `FUSE`, life-cycle tokens and the rollback count alone, none of which takes one back. -/
theorem fusesAreOneTime : Obligations.FusesAreOneTime := fun _ _ h =>
  have g := (step_keeps h).fuses
  ⟨g.level, g.service, g.rollback, g.fwRevoked, g.lcRevoked, g.blown, g.bad, g.used⟩

end Sys2Proof.Machine
end

section
/-! PROOF. Power input and regulator phases: the end of stress sessions, a warning's event, the limit of failed converters, and what a
phase report adds up to (R380, R398 to R403, R409 to R411). -/

namespace Sys2Proof.Machine

variable {s t u : State}

/-! ### Stress sessions -/

/-- A tile under a stress session. -/
def TileUse.stressed : TileUse → Bool
  | .stress .. => true
  | _ => false

/-- One tile's part in the end of all sessions. -/
def State.endSession (s : State) (i : Nat) : State := match (s.tile i).use with
  | .stress e cases _ => (s.recordSession i ((20000000000 - cairnSince s.cairn e) / 1000000) cases 4).letGo i
  | _ => s

theorem State.endSession_frame (i : Nat) :
    ∃ ss, State.OnlyTiles (· = i) { s with ledger := { s.ledger with sessions := ss } } (s.endSession i) := by
  unfold State.endSession
  split
  · exact ⟨_, State.letGo_onlyTiles (s := State.recordSession ..) i⟩
  · exact ⟨s.ledger.sessions, .refl s⟩

theorem State.endSession_tile (i : Nat) : ((s.endSession i).tile i).use.stressed = false := by
  unfold State.endSession
  split
  · rw [State.letGo_use]; rfl
  · next h =>
    cases hu : (s.tile i).use with
    | stress e c r => exact absurd hu (h e c r)
    | _ => rfl

theorem State.endSession_other {i j : Nat} (h : j ≠ i) : (s.endSession i).tile j = s.tile j := by
  obtain ⟨ss, hf⟩ := s.endSession_frame i
  exact hf.tile h

/-- The tiles let go one after another: none of them is under stress any more, and only they have changed. -/
theorem State.endSessions_range (n : Nat) :
    (∃ ss, State.OnlyTiles (· < n) { s with ledger := { s.ledger with sessions := ss } } ((List.range n).foldl State.endSession s)) ∧
      ∀ i < n, (((List.range n).foldl State.endSession s).tile i).use.stressed = false := by
  induction n with
  | zero => exact ⟨⟨s.ledger.sessions, .refl s⟩, fun i hi => absurd hi (by omega)⟩
  | succ n ih =>
    rw [List.range_succ, List.foldl_append, List.foldl_cons, List.foldl_nil]
    generalize (List.range n).foldl State.endSession s = v at ih ⊢
    obtain ⟨⟨ss, hs⟩, hn⟩ := ih
    obtain ⟨ss', hf⟩ := v.endSession_frame n
    refine ⟨⟨ss', ?_⟩, fun i hi => ?_⟩
    · have h1 : State.OnlyTiles (· < n + 1) { s with ledger := { s.ledger with sessions := ss' } }
          { v with ledger := { v.ledger with sessions := ss' } } := by
        obtain ⟨⟨_, _, _, _, _, _, rfl⟩, hp, ht⟩ := hs
        exact ⟨⟨_, _, _, _, _, _, rfl⟩, hp, fun j hj => ht j (by omega)⟩
      exact h1.trans (hf.mono fun j hj => by omega)
    · by_cases h : i = n
      · rw [h]; exact State.endSession_tile n
      · rw [State.endSession_other h]; exact hn i (by omega)

theorem State.endSessions_frame : ∃ ss, State.OnlyTiles (· < 320) { s with ledger := { s.ledger with sessions := ss } } s.endSessions :=
  (State.endSessions_range 320).1

theorem State.endSessions_tile {i : Nat} (h : i < 320) : (s.endSessions.tile i).use.stressed = false := (State.endSessions_range 320).2 i h

/-! ### The limit of failed converters -/

theorem Power.limit_le_converters {p : Power} (h : 2 ≤ p.ibcFailed.length) : p.limit ≤ 1950 * (8 - p.ibcFailed.length) * 10000 := by
  unfold Power.limit
  dsimp only
  rw [if_pos h]
  omega

/-- One failed converter leaves the limit (R400). -/
theorem Power.limit_one_converter {p : Power} {ns : List Nat} (hp : p.ibcFailed.length < 2) (hn : ns.length < 2) :
    ({ p with ibcFailed := ns } : Power).limit = p.limit := by
  unfold Power.limit
  dsimp only
  rw [if_neg (by omega), if_neg (by omega)]

/-! ### Rows of the input -/

/-- The module with a warning of the input noted. -/
def State.browned (s : State) (mv : Nat) : State :=
  ((State.alert 2 { s.seeInput mv with power := { s.power with brownout := true } }).raise 0x1701 mv 0 0)

theorem State.brownoutWarn_exec {mv : Nat} (hon : s.hotSwap.switchOn = true) (hm : mv < 42500) (hb : s.power.brownout = false) :
    exec (.brownoutWarn mv) s = .next (s.browned mv).endSessions := by
  show execBrownoutWarn mv s = _
  rw [execBrownoutWarn, if_neg (by simp [hon, hb, hm])]
  rfl

theorem State.brownoutClear_exec {mv : Nat} (hb : s.power.brownout = true) (hm : 43000 ≤ mv) :
    exec (.brownoutClear mv) s = .next (({ s.seeInput mv with power := { s.power with brownout := false } } : State).raise 0x1702 mv 0 0) := by
  show execBrownoutClear mv s = _
  rw [execBrownoutClear, if_neg (by simp [hb, hm])]
  rfl

theorem State.overvoltageWarn_exec {mv : Nat} (hon : s.hotSwap.switchOn = true) (hm : 57000 < mv) (ho : s.power.overvoltage = false) :
    exec (.overvoltageWarn mv) s =
      .next (({ s.seeInput mv with power := { s.power with overvoltage := true } } : State).raise 0x1703 mv 0 0) := by
  show execOvervoltageWarn mv s = _
  rw [execOvervoltageWarn, if_neg (by simp [hon, ho, hm])]
  rfl

/-- Settles O12: a brownout lets every tile under stress go, and the loss of a converter is a report with a lower limit. -/
theorem inputPowerRows : Obligations.InputPowerRows := by
  unfold Obligations.InputPowerRows
  refine ⟨fun s mv hon hm hb => ?_, fun s mv hb hm => ?_, fun s mv hon hm ho => ?_, fun s => rfl, fun s n hon hf hn hnew hl => ?_⟩
  · refine ⟨_, State.brownoutWarn_exec hon hm hb, ?_⟩
    obtain ⟨ss, hs⟩ := (s.browned mv).endSessions_frame
    have ht : ∀ i < 320, ∀ e c r, ((s.browned mv).endSessions.tile i).use ≠ .stress e c r := fun i hi e c r hu => by
      have := State.endSessions_tile (s := s.browned mv) hi
      rw [hu] at this
      exact absurd this (by simp [TileUse.stressed])
    have hv : mv % 2 ^ 16 = mv := Nat.mod_eq_of_lt (by omega)
    obtain ⟨_, hr⟩ := State.raise_only (s := State.alert 2 { s.seeInput mv with power := { s.power with brownout := true } }) 0x1701 mv 0 0
    rw [State.browned] at hs ht ⊢
    rw [hr] at hs ht ⊢
    generalize State.endSessions _ = v at hs ht ⊢
    obtain ⟨⟨_, _, _, _, _, _, rfl⟩, -, -⟩ := hs
    exact ⟨rfl, hv, List.mem_append_right _ (List.mem_singleton.2 rfl), ht, rfl, rfl, rfl, rfl, rfl, rfl⟩
  · refine ⟨_, State.brownoutClear_exec hb hm, ?_⟩
    obtain ⟨_, hr⟩ := State.raise_only (s := { s.seeInput mv with power := { s.power with brownout := false } }) 0x1702 mv 0 0
    rw [hr]
    exact ⟨rfl, rfl, rfl⟩
  · refine ⟨_, State.overvoltageWarn_exec hon hm ho, ?_⟩
    obtain ⟨_, hr⟩ := State.raise_only (s := { s.seeInput mv with power := { s.power with overvoltage := true } }) 0x1703 mv 0 0
    rw [hr]
    exact ⟨rfl, rfl, hon, rfl⟩
  · have hk : (s.power.ibcFailed ++ [n]).length = s.power.ibcFailed.length + 1 := by simp
    refine ⟨_, State.ibcFail_exec (State.managed_of hon hf) hn hnew, ?_⟩
    rw [if_neg (by omega), State.converterFailed]
    obtain ⟨_, hr⟩ := State.raise_only
      (s := State.alert 2 { s with power := { s.power with ibcFailed := s.power.ibcFailed ++ [n] } }) 0x1704 0 n (s.power.ibcFailed ++ [n]).length
    rw [hr]
    refine ⟨rfl, rfl, rfl, fun h2 => ?_, fun h1 => ?_, rfl⟩
    · have := Power.limit_le_converters h2
      omega
    · have h1 : (s.power.ibcFailed ++ [n]).length = 1 := h1
      exact Power.limit_one_converter (by omega) (by omega)

end Sys2Proof.Machine
end

section
/-! PROOF. What a report of a regulator phase adds up to (R371 to R373, R402, R403, R409, R411). -/

namespace Sys2Proof.Machine

variable {s t u : State} {n : Nat} {x : Phase}

/-! ### A phase and what its reports reach -/

/-- Phase `n` has become `x`, but for being shed; beyond it, what a tile taken out of use reaches has changed. -/
def State.ReachedPhase (s : State) (n : Nat) (x : Phase) (t : State) : Prop :=
  (∃ dv ts gs pl h pw l hs mg sd, t = { s with
    devState := dv, tiles := ts, graphs := gs, planes := pl, host := h, power := pw, ledger := l, hotSwap := hs, mgmt := mg
    mem := { s.mem with stagingDone := sd } }) ∧ t.phase n = { x with shed := (t.phase n).shed }

theorem State.ReachedPhase.refl (s : State) (n : Nat) : s.ReachedPhase n (s.phase n) s :=
  ⟨⟨_, _, _, _, _, _, _, _, _, _, rfl⟩, rfl⟩

theorem State.ReachedPhase.reached (h : s.ReachedPhase n x t) (h' : t.Reached u) : s.ReachedPhase n x u := by
  have hn := h'.phase n
  obtain ⟨⟨_, _, _, _, _, _, _, _, _, _, rfl⟩, hp⟩ := h
  obtain ⟨⟨_, _, _, _, _, _, _, _, _, _, rfl⟩, -, -⟩ := h'
  exact ⟨⟨_, _, _, _, _, _, _, _, _, _, rfl⟩, by rw [hn, hp]⟩

theorem State.ReachedPhase.updPhase {f : Phase → Phase} (h : s.ReachedPhase n x t) (hf : ∀ b, f { x with shed := b } = { f x with shed := b }) :
    s.ReachedPhase n (f x) (t.updPhase n f) := by
  obtain ⟨⟨_, _, _, _, _, _, _, _, _, _, rfl⟩, hp⟩ := h
  refine ⟨⟨_, _, _, _, _, _, _, _, _, _, rfl⟩, ?_⟩
  rw [State.updPhase_phase, if_pos rfl, hp, hf]

section fields
variable (h : s.ReachedPhase n x t)
include h

theorem State.ReachedPhase.mem : t.mem = { s.mem with stagingDone := t.mem.stagingDone } := by
  obtain ⟨⟨_, _, _, _, _, _, _, _, _, _, rfl⟩, -⟩ := h; rfl
theorem State.ReachedPhase.regs : t.regs = s.regs := by obtain ⟨⟨_, _, _, _, _, _, _, _, _, _, rfl⟩, -⟩ := h; rfl
theorem State.ReachedPhase.fuses : t.fuses = s.fuses := by obtain ⟨⟨_, _, _, _, _, _, _, _, _, _, rfl⟩, -⟩ := h; rfl
theorem State.ReachedPhase.score : (t.phase n).score = x.score := by rw [h.2]
theorem State.ReachedPhase.stopped : (t.phase n).stopped = x.stopped := by rw [h.2]
theorem State.ReachedPhase.dead : (t.phase n).dead = x.dead := by rw [h.2]
theorem State.ReachedPhase.failed : (t.phase n).failed = x.failed := by rw [h.2]

/-- A phase's score settled (R373): its score and part change, with their reports. -/
theorem State.ReachedPhase.settleScore (old k c : Nat) : ∃ p, s.ReachedPhase n { x with score := k, part := p } (t.settleScore .phase n old k c) :=
  ⟨_, (h.updPhase (f := fun y => { y with score := k, part := nextPart (partThresholds .phase) old k }) fun _ => rfl).reached
    (State.settleScore_reached .phase n old k c)⟩

/-- A score over its last threshold counts the phase as failed, with what that does to its tile (R402). -/
theorem State.ReachedPhase.settle (old k c : Nat) :
    ∃ p b, s.ReachedPhase n { x with score := k, part := p, failed := b } (t.settle .phase n old k c) := by
  obtain ⟨p, hs⟩ := h.settleScore old k c
  unfold State.settle
  dsimp only
  split
  · exact ⟨p, true, (hs.updPhase (f := fun y => { y with failed := true }) fun _ => rfl).reached (State.tilePhaseFailed_reached ..)⟩
  · exact ⟨p, x.failed, hs⟩

/-- A report of a tile's phase adds 256 to its score (R372). -/
theorem State.ReachedPhase.softReport {dom p r : Nat} (hd : dom < 320) (hn : n = dom * 8 + p) (hx : (t.phase n).dead = false) :
    ∃ q b, s.ReachedPhase n { x with score := min (x.score + 256) 65535, part := q, failed := b } (t.softReport dom p r) := by
  subst hn
  rw [State.softReport, if_neg (by rw [phaseNo]; simp [hx]), if_pos hd, State.blame]
  rw [show (t.score .phase (phaseNo dom p)).1 = x.score from h.score]
  exact h.settle ..

end fields

/-- A soft report that no part of the module minds: the phase's score alone may change. -/
theorem State.ReachedPhase.softReport_same {dom p r : Nat} (h : s.ReachedPhase n x t) (hd : dom < 320) (hn : n = dom * 8 + p) :
    ∃ k q b, s.ReachedPhase n { x with score := k, part := q, failed := b } (t.softReport dom p r) := by
  cases hx : (t.phase n).dead with
  | false =>
    obtain ⟨q, b, hs⟩ := h.softReport (r := r) hd hn hx
    exact ⟨_, q, b, hs⟩
  | true =>
    rw [State.softReport, if_pos (by rw [phaseNo, ← hn]; exact hx)]
    exact ⟨x.score, x.part, x.failed, h⟩

/-! ### Rows of phases -/

section rows
variable {dom p : Nat}

theorem State.onPhase_managed (hm : s.managed = true) (hd : dom < 688) (hp : p < phasesOf dom) : s.onPhase dom p t = .next t := by
  rw [State.onPhase, onUnit, if_pos (by simp [hd, hp]), if_pos hm]

theorem phasesOf_tile (hd : dom < 320) : phasesOf dom = 8 := if_pos hd

/-- A stopped phase is reported, and stops to count among the good ones (R402, R403). -/
theorem State.phOvertemp_reached (hd : dom < 320) (hm : s.managed = true) (hp : p < 8) (hs : (s.phase (dom * 8 + p)).stopped = false)
    (hx : (s.phase (dom * 8 + p)).dead = false) : ∃ t k q b, exec (.phOvertemp dom p) s = .next t ∧
      s.ReachedPhase (dom * 8 + p) { s.phase (dom * 8 + p) with stopped := true, score := k, part := q, failed := b } t := by
  have h1 := (State.ReachedPhase.refl s (dom * 8 + p)).updPhase (f := fun x => { x with stopped := true }) fun _ => rfl
  have h2 : s.ReachedPhase (dom * 8 + p) { s.phase (dom * 8 + p) with stopped := true }
      (if (s.phase (dom * 8 + p)).bad then s.updPhase (dom * 8 + p) fun x => { x with stopped := true }
        else (s.updPhase (dom * 8 + p) fun x => { x with stopped := true }).tilePhaseFailed dom p 2) := by
    split
    · exact h1
    · exact h1.reached (State.tilePhaseFailed_reached ..)
  obtain ⟨k, q, b, h3⟩ := h2.softReport_same (r := 2) hd rfl
  refine ⟨_, k, q, b, ?_, h3⟩
  show execPhOvertemp dom p s = _
  rw [execPhOvertemp, State.onPhase_managed hm (by omega) (by rw [phasesOf_tile hd]; exact hp)]
  dsimp only [phaseNo]
  rw [if_neg (by simp [hs, hx]), if_pos hd, if_pos hd]

theorem State.phDead_reached (hd : dom < 320) (hm : s.managed = true) (hp : p < 8) (hx : (s.phase (dom * 8 + p)).dead = false) :
    ∃ t q, exec (.phDead dom p) s = .next t ∧ s.ReachedPhase (dom * 8 + p)
      { s.phase (dom * 8 + p) with dead := true, failed := true, score := max (s.phase (dom * 8 + p)).score 1024, part := q } t := by
  have h1 := (State.ReachedPhase.refl s (dom * 8 + p)).updPhase (f := fun x => { x with dead := true, failed := true }) fun _ => rfl
  obtain ⟨q, h2⟩ := h1.settleScore (s.phase (dom * 8 + p)).part (max (s.phase (dom * 8 + p)).score 1024) 4
  refine ⟨_, q, ?_, h2.reached (State.tilePhaseFailed_reached dom p 4)⟩
  have hsc : (s.updPhase (dom * 8 + p) fun x => { x with dead := true, failed := true }).score .phase (dom * 8 + p) =
      ((s.phase (dom * 8 + p)).score, (s.phase (dom * 8 + p)).part) := by
    unfold State.score
    rw [State.updPhase_phase, if_pos rfl]
  show execPhDead dom p s = _
  rw [execPhDead, State.onPhase_managed hm (by omega) (by rw [phasesOf_tile hd]; exact hp)]
  dsimp only [phaseNo]
  rw [if_neg (by simp [hx]), if_pos hd, hsc]

end rows

/-! ### Phases shed -/

/-- The place of an element among those of a range that pass a test. -/
theorem mem_drop_filter_range {g : Nat → Bool} {m k p : Nat} :
    p ∈ ((List.range m).filter g).drop k ↔ p < m ∧ g p = true ∧ k ≤ ((List.range p).filter g).length := by
  induction m with
  | zero => simp
  | succ m ih =>
    rw [List.range_succ, List.filter_append, List.drop_append, List.mem_append, ih]
    generalize hl : ((List.range m).filter g).length = l
    by_cases hg : g m = true
    · rw [List.filter_singleton, hg, cond_true]
      by_cases hk : k ≤ l
      · rw [Nat.sub_eq_zero_of_le hk, List.drop_zero, List.mem_singleton]
        constructor
        · rintro (⟨hp, h⟩ | rfl)
          · exact ⟨by omega, h⟩
          · exact ⟨by omega, hg, hl ▸ hk⟩
        · rintro ⟨hp, h⟩
          by_cases hpm : p = m
          · exact .inr hpm
          · exact .inl ⟨by omega, h⟩
      · rw [List.drop_of_length_le (by simp; omega)]
        constructor
        · rintro (⟨hp, h⟩ | h)
          · exact ⟨by omega, h⟩
          · exact absurd h (by simp)
        · rintro ⟨hp, h⟩
          refine .inl ⟨?_, h⟩
          by_cases hpm : p = m
          · rw [hpm, hl] at h; exact absurd h.2 hk
          · omega
    · rw [List.filter_singleton, Bool.eq_false_iff.2 hg, cond_false, List.drop_nil]
      constructor
      · rintro (⟨hp, h⟩ | h)
        · exact ⟨by omega, h⟩
        · exact absurd h (by simp)
      · rintro ⟨hp, h⟩
        refine .inl ⟨?_, h⟩
        by_cases hpm : p = m
        · rw [hpm] at h; exact absurd h.1 hg
        · omega

/-- The phases of a list shed, all of one domain. -/
theorem State.shed_all (dom : Nat) (l : List Nat) (hl : ∀ p ∈ l, p < 8) :
    (∃ ph, l.foldl (fun s p => s.updPhase (phaseNo dom p) fun x => { x with shed := true }) s = { s with power := { s.power with phases := ph } }) ∧
      ∀ n, (l.foldl (fun s p => s.updPhase (phaseNo dom p) fun x => { x with shed := true }) s).phase n =
        if n / 8 = dom ∧ n % 8 ∈ l then { s.phase n with shed := true } else s.phase n := by
  induction l generalizing s with
  | nil => exact ⟨⟨_, rfl⟩, fun n => by simp⟩
  | cons p l ih =>
    obtain ⟨⟨ph, hf⟩, hn⟩ := ih (s := s.updPhase (phaseNo dom p) fun x => { x with shed := true }) fun q hq => hl q (List.mem_cons_of_mem _ hq)
    have hp := hl p (List.mem_cons_self ..)
    refine ⟨⟨ph, hf⟩, fun n => ?_⟩
    rw [List.foldl_cons, hn n, State.updPhase_phase, phaseNo]
    by_cases h : n = dom * 8 + p
    · have hc : n / 8 = dom ∧ n % 8 = p := by omega
      rw [if_pos h, h, if_pos (show (dom * 8 + p) / 8 = dom ∧ (dom * 8 + p) % 8 ∈ p :: l from by rw [← h, hc.2]; exact ⟨hc.1, List.mem_cons_self ..⟩)]
      split <;> rfl
    · have hc : ¬(n / 8 = dom ∧ n % 8 = p) := by omega
      rw [if_neg h]
      refine if_congr (and_congr_right fun hd => ?_) rfl rfl
      rw [List.mem_cons, or_iff_right fun hm => hc ⟨hd, hm⟩]

/-- What PHASE_SHED does to a tile whose engines rest (R411). -/
theorem State.phaseShed_exec {dom : Nat} (hm : s.managed = true) (hd : dom < 320) (hq : (s.tile dom).quietEngines = true) :
    exec (.phaseShed dom) s = .next ((((List.range 8).filter fun p => !(s.phase (phaseNo dom p)).bad).drop 2).foldl
      (fun s p => s.updPhase (phaseNo dom p) fun x => { x with shed := true }) s) := by
  show execPhaseShed dom s = _
  rw [execPhaseShed, onUnit, if_pos (by simp; omega), if_neg (by simp [hm, hq, hd])]

theorem State.phaseShed_exec_busy {dom : Nat} (hd : dom < 320) (hq : (s.tile dom).quietEngines = false) :
    exec (.phaseShed dom) s = .next s := by
  show execPhaseShed dom s = _
  rw [execPhaseShed, onUnit, if_pos (by simp; omega), if_pos (by simp [hq])]

/-- A phase no longer stopped (R402, R403). -/
theorem State.phOvertempClear_exec {dom p : Nat} (hm : s.managed = true) (hd : dom < 320) (hp : p < 8)
    (hs : (s.phase (dom * 8 + p)).stopped = true) : exec (.phOvertempClear dom p) s = .next
      (if (s.updPhase (dom * 8 + p) fun x => { x with stopped := false }).failedPhases dom < 2 then
        (s.updPhase (dom * 8 + p) fun x => { x with stopped := false }).updTile dom fun x => { x with capped := x.ceilingCap }
      else s.updPhase (dom * 8 + p) fun x => { x with stopped := false }) := by
  show execPhOvertempClear dom p s = _
  rw [execPhOvertempClear, State.onPhase_managed hm (by omega) (by rw [phasesOf_tile hd]; exact hp)]
  dsimp only [phaseNo]
  rw [if_neg (by simp [hs])]
  simp [hd]

/-- Settles O13: a report adds to its phase's score, and what follows from it leaves the phase. -/
theorem regulatorPhaseRows : Obligations.RegulatorPhaseRows := by
  unfold Obligations.RegulatorPhaseRows
  refine ⟨fun s dom p hon hf hd hp hx => ⟨fun hd c hc => ?_, fun hd' => ?_⟩, fun s dom p hon hf hd hp => ⟨fun hs hx => ?_, fun hs => ?_,
    fun hx => ?_⟩, fun s dom hon hf hd => ⟨fun hq => State.phaseShed_exec_busy hd hq, fun hq => ?_⟩⟩
  · have hm := State.managed_of hon hf
    have key : ∀ r, ∃ t, s.softReport dom p r = t ∧ (t.phase (dom * 8 + p)).score = min ((s.phase (dom * 8 + p)).score + 256) 65535 ∧
        t.mem = { s.mem with stagingDone := t.mem.stagingDone } ∧ t.regs = s.regs ∧ t.fuses = s.fuses := fun r => by
      obtain ⟨q, b, h⟩ := (State.ReachedPhase.refl s (dom * 8 + p)).softReport (r := r) hd rfl hx
      exact ⟨_, rfl, h.score, h.mem, h.regs, h.fuses⟩
    have hrow : ∃ r, exec c s = s.onPhase dom p (s.softReport dom p r) := by
      rcases List.mem_cons.1 hc with rfl | hc
      · exact ⟨1, rfl⟩
      · rcases List.mem_cons.1 hc with rfl | hc
        · exact ⟨3, rfl⟩
        · obtain rfl := List.mem_singleton.1 hc
          refine ⟨3, ?_⟩
          show execUndervoltage dom p s = _
          rw [execUndervoltage, if_pos hd]
    obtain ⟨r, hr⟩ := hrow
    obtain ⟨t, ht, h⟩ := key r
    exact ⟨t, by rw [hr, State.onPhase_managed hm (by omega) hp, ht], h⟩
  · have hm := State.managed_of hon hf
    have hs : ∀ r, s.softReport dom p r = s.ledgerEvent 0x1705 r dom p := fun r => by
      rw [State.softReport, if_neg (by rw [phaseNo]; simp [hx]), if_neg (by omega)]
    refine ⟨?_, ?_, ?_⟩
    · show s.onPhase dom p _ = _
      rw [State.onPhase_managed hm hd hp, hs]
    · show s.onPhase dom p _ = _
      rw [State.onPhase_managed hm hd hp, hs]
    · show s.onPhase dom p _ = _
      rw [State.onPhase_managed hm hd hp, if_neg (by omega)]
  · obtain ⟨t, k, q, b, ht, h⟩ := State.phOvertemp_reached hd (State.managed_of hon hf) hp hs hx
    exact ⟨t, ht, h.stopped, h.mem⟩
  · refine ⟨_, State.phOvertempClear_exec (State.managed_of hon hf) hd hp hs, ?_⟩
    have h1 : ∀ m, (s.updPhase (dom * 8 + p) fun x => { x with stopped := false }).phase m =
        if m = dom * 8 + p then { s.phase m with stopped := false } else s.phase m := fun m => by
      rw [State.updPhase_phase]
      split
      · next hm => rw [hm]
      · rfl
    split
    · refine ⟨(h1 _).trans (if_pos rfl), fun m hm => (h1 m).trans (if_neg hm), fun i hi => ?_, fun _ => ?_, rfl⟩
      · rw [State.updTile_tile, if_neg hi]; rfl
      · rw [State.updTile_tile, if_pos rfl]; rfl
    · next hc => exact ⟨(h1 _).trans (if_pos rfl), fun m hm => (h1 m).trans (if_neg hm), fun i hi => rfl, fun h => absurd h hc, rfl⟩
  · obtain ⟨t, q, ht, h⟩ := State.phDead_reached hd (State.managed_of hon hf) hp hx
    exact ⟨t, ht, h.dead, h.failed, by rw [h.score]; exact Nat.le_max_right _ _, h.mem⟩
  · refine ⟨_, State.phaseShed_exec (State.managed_of hon hf) hd hq, ?_⟩
    obtain ⟨⟨ph, hf⟩, hn⟩ := s.shed_all dom (((List.range 8).filter fun p => !(s.phase (phaseNo dom p)).bad).drop 2) fun p hp =>
      (mem_drop_filter_range.1 hp).1
    refine ⟨by rw [hf], fun n => ?_⟩
    rw [hn n]
    refine if_congr (and_congr_right fun hd => ?_) rfl rfl
    rw [mem_drop_filter_range]
    have he : phaseNo dom (n % 8) = n := by rw [phaseNo]; omega
    rw [he]
    simp [phaseNo, Nat.mod_lt]

end Sys2Proof.Machine
end

section
/-! PROOF. A power sample (R408, R410, R416): no staging that has lowered the set point, so that the end of stress sessions leaves it. -/

namespace Sys2Proof.Machine

variable {s t u : State}

/-! ### Stagings that have not lowered the set point -/

/-- No staging has lowered the set point (R408). -/
def State.Unlowered (s : State) : Prop := ∀ h, ∀ g ∈ s.hood h, g.lowered = false

/-- The set point stays where no staging has lowered it, and none has then. -/
def State.KeepsPoint (s t : State) : Prop := s.Unlowered → t.Unlowered ∧ t.power.setMhz = s.power.setMhz

theorem State.KeepsPoint.refl (s : State) : s.KeepsPoint s := fun h => ⟨h, rfl⟩

theorem State.KeepsPoint.trans (h : s.KeepsPoint t) (h' : t.KeepsPoint u) : s.KeepsPoint u := fun hs =>
  have ht := h hs
  have hu := h' ht.1
  ⟨hu.1, hu.2.trans ht.2⟩

theorem State.KeepsPoint.of_eq (hst : t.power.stagings = s.power.stagings) (hm : t.power.setMhz = s.power.setMhz) : s.KeepsPoint t :=
  fun hs => ⟨fun h => by rw [State.hood, hst]; exact hs h, hm⟩

theorem State.setHood_keepsPoint {n : Nat} {q : List Staging} (hq : s.Unlowered → ∀ g ∈ q, g.lowered = false) : s.KeepsPoint (s.setHood n q) :=
  fun hs => ⟨fun h => by
    rw [State.setHood_hood]
    split
    · exact hq hs
    · exact hs h, rfl⟩

theorem State.noticeHood_keepsPoint (n : Nat) : s.KeepsPoint (s.noticeHood n) := by
  unfold State.noticeHood
  split
  · exact List.foldlRecOn (motive := fun t : State => s.KeepsPoint t) _ _ (.refl s) fun t ht i _ => ht.trans (.of_eq rfl rfl)
  · exact .refl s

theorem State.queueStaging_keepsPoint (d : Nat) (on : Bool) : s.KeepsPoint (s.queueStaging d on) := fun hs => by
  refine ⟨fun h g hg => ?_, ?_⟩
  · obtain hg | ⟨-, rfl⟩ := State.mem_queueStaging.1 hg
    · exact hs h g hg
    · rfl
  · exact (State.noticeHood_keepsPoint (hoodOf d) hs).2

theorem State.askDomain_keepsPoint (d : Nat) (on : Bool) : s.KeepsPoint (s.askDomain d on) := by
  unfold State.askDomain
  split
  · exact .refl s
  · exact State.queueStaging_keepsPoint d on

theorem State.restorePoint_keepsPoint {g : Staging} (hg : g.lowered = false) : s.KeepsPoint (s.restorePoint g) :=
  .of_eq rfl (by rw [State.restorePoint]; exact if_neg (by simp [hg]))

theorem State.mem_nextStaging {q : List Staging} {P : Staging → Prop} (hP : ∀ g n, P g → P { g with at_ := n }) (hq : ∀ g ∈ q, P g) :
    ∀ g ∈ s.nextStaging q, P g := by
  unfold State.nextStaging
  split
  · exact hq
  · next g hg =>
    intro x hx
    obtain rfl | hx := List.mem_cons.1 hx
    · exact hP g _ (hq g (List.mem_of_find?_eq_some hg))
    · exact hq x (List.mem_of_mem_erase hx)

theorem State.unstage_keepsPoint (d : Nat) : s.KeepsPoint (s.unstage d) := by
  unfold State.unstage
  dsimp only
  split
  · exact .refl s
  · intro hs
    have h1 := List.foldlRecOn (motive := fun t : State => s.KeepsPoint t) ((s.hood (hoodOf d)).filter fun g => g.dom == d && g.on)
      (fun s g => s.restorePoint g) (.refl s) fun t ht g hg => ht.trans (State.restorePoint_keepsPoint (hs _ g (List.mem_filter.1 hg).1))
    refine (h1.trans (State.setHood_keepsPoint fun _ => ?_)) hs
    have hq : ∀ g ∈ (s.hood (hoodOf d)).filter fun g => !(g.dom == d && g.on), g.lowered = false := fun g hg =>
      hs _ g (List.mem_filter.1 hg).1
    split
    · exact hq
    · exact State.mem_nextStaging (P := fun g => g.lowered = false) (fun _ _ h => h) hq

theorem State.restTarn_keepsPoint (i : Nat) : s.KeepsPoint (s.restTarn i) := by
  unfold State.restTarn
  dsimp only
  split
  · exact .refl s
  · split
    · exact .of_eq rfl rfl
    · exact State.askDomain_keepsPoint _ _

theorem State.quiet_keepsPoint (i : Nat) : s.KeepsPoint (s.quiet i) := by
  unfold State.quiet
  split
  · exact State.askDomain_keepsPoint _ _
  · exact State.restTarn_keepsPoint i

theorem State.letGo_keepsPoint (i : Nat) : s.KeepsPoint (s.letGo i) :=
  (((State.KeepsPoint.of_eq (t := (s.completeStaging i 0x32 (s.tile i).staging).updTile i (·.idled)) rfl rfl).trans
    (State.unstage_keepsPoint i)).trans (State.unstage_keepsPoint (i + 320))).trans (State.quiet_keepsPoint i)

theorem State.recordSession_keepsPoint (i ms c o : Nat) : s.KeepsPoint (s.recordSession i ms c o) := .of_eq rfl rfl

theorem State.endSessions_keepsPoint : s.KeepsPoint s.endSessions := by
  refine List.foldlRecOn (motive := fun t : State => s.KeepsPoint t) (List.range 320) State.endSession (.refl s) fun t ht i _ => ht.trans ?_
  unfold State.endSession
  split
  · exact State.KeepsPoint.trans (State.recordSession_keepsPoint (s := t) i _ _ _) (State.letGo_keepsPoint i)
  · exact .refl t

/-! ### The set point after a sample -/

section adjust
variable {p : Power} {r : PowerReading} {now : Nat}

theorem Power.top_ge : 900 ≤ p.top := Nat.le_max_left _ _

/-- A sample that raises the set point does so by a step, in calm, a millisecond after the last raise (R416). -/
theorem Power.adjust_cases : ((p.adjust r now).setMhz = min p.top (p.setMhz + 10) ∧ p.setMhz < p.top ∧ 1000000 ≤ cairnSince p.lastRaise now ∧
      (p.adjust r now).lastRaise = now ∧ r.w10 * 70000 ≤ p.limit ∧ r.i1 ≤ 4450) ∨
    ∃ cut, (p.adjust r now).setMhz = max 900 (p.setMhz - cut) ∧ (4450 < r.i1 → p.overCurrent = false → 50 ≤ cut) := by
  unfold Power.adjust
  dsimp only
  split
  · next h =>
    simp only [Bool.and_eq_true, Bool.not_eq_true', decide_eq_true_eq, decide_eq_false_iff_not] at h
    exact .inl ⟨rfl, by omega, by omega, rfl, by omega, by omega⟩
  · refine .inr ⟨_, rfl, fun hi ho => ?_⟩
    simp [hi, ho]

/-- Above a limit its flag is set (R410). -/
theorem Power.adjust_flags : (p.limit < r.w10 * 70000 → (p.adjust r now).limPower = true) ∧ (4450 < r.i1 → (p.adjust r now).limCurrent = true) := by
  constructor
  · intro h
    simp [Power.adjust, h]
  · intro h
    simp [Power.adjust, h]

end adjust

/-- `POWER_LIMIT_UNMET` is a report, and the flag that it has been made. -/
theorem State.noteUnmet_frame (r : PowerReading) : ∃ b mg l h, s.noteUnmet r =
    { s with power := { s.power with unmet := b }, mgmt := mg, ledger := l, host := h } := by
  unfold State.noteUnmet
  dsimp only
  split
  · obtain ⟨_, h⟩ := State.raise_only (s := State.alert 2 { s with power := { s.power with
      unmet := decide (s.power.limit < r.w10 * 70000) && (s.power.unmet || decide (s.power.limit < r.w10 * 70000) && s.power.setMhz == 900) } })
      0x1709 r.w10 (s.power.limit / 70000) 0
    exact ⟨_, _, _, _, h⟩
  · exact ⟨_, _, _, _, rfl⟩

/-- A module whose readings have been taken, once what the limit asks for has ended. -/
def State.afterReading (s : State) (r : PowerReading) : State := if s.power.limit < r.w10 * 70000 then s.endSessions else s

theorem State.afterReading_frame (r : PowerReading) (hs : s.Unlowered) : ∃ ts ph st n ss sd, s.afterReading r =
    { s with
      tiles := ts, ledger := { s.ledger with sessions := ss }, mem := { s.mem with stagingDone := sd }
      power := { s.power with phases := ph, stagings := st, stallSteps := n } } := by
  unfold State.afterReading
  split
  · obtain ⟨ss, hf⟩ := s.endSessions_frame
    have hp := (State.endSessions_keepsPoint hs).2
    generalize State.endSessions _ = v at hf hp ⊢
    obtain ⟨⟨_, _, _, _, _, _, rfl⟩, -, -⟩ := hf
    obtain rfl := hp
    exact ⟨_, _, _, _, _, _, rfl⟩
  · exact ⟨_, _, _, _, _, _, rfl⟩

/-- The module at the instant of a sample, with its readings. -/
def State.readAt (s : State) (n : Nat) (r : PowerReading) : State := (s.advanceTo n).takeReading r

theorem State.readAt_unlowered {n : Nat} {r : PowerReading} (hs : s.Unlowered) : (s.readAt n r).Unlowered := hs

/-- What a reading leaves of what limits the clock. -/
theorem State.readAt_power (n : Nat) (r : PowerReading) : (s.readAt n r).power.top = s.power.top ∧
    (s.readAt n r).power.setMhz = s.power.setMhz ∧ (s.readAt n r).power.lastRaise = s.power.lastRaise ∧
    (s.readAt n r).power.overCurrent = s.power.overCurrent := ⟨rfl, rfl, rfl, rfl⟩

theorem State.readAt_readings (n : Nat) (r : PowerReading) : (s.readAt n r).power.lastSample = (s.readAt n r).cairn ∧
    (s.readAt n r).power.inputMv = r.mv % 2 ^ 16 ∧ (s.readAt n r).power.inputW = r.w10 % 2 ^ 12 ∧
    (s.readAt n r).hotSwap.iin = r.iNow % 2 ^ 16 := ⟨rfl, rfl, rfl, rfl⟩

theorem State.readAt_frame (n : Nat) (r : PowerReading) : (s.readAt n r).cairn = cairnMax s.cairn (roundUp n 4) ∧
    (s.readAt n r).mem = s.mem ∧ (s.readAt n r).graphs = s.graphs ∧ (s.readAt n r).regs = s.regs ∧ (s.readAt n r).fabric = s.fabric :=
  ⟨rfl, rfl, rfl, rfl, rfl⟩

theorem State.powerSample_exec {r : PowerReading} (hm : s.managed = true) : ∃ v, v = (s.readAt (s.power.lastSample + 100000) r).afterReading r ∧
    exec (.powerSample r) s = .next (State.noteUnmet r { v with power := v.power.adjust r v.cairn }) := by
  refine ⟨_, rfl, ?_⟩
  show execPowerSample r s = _
  rw [execPowerSample, if_neg (by simp [hm])]
  unfold State.readAt State.afterReading
  generalize s.power.lastSample + 100000 = n
  rfl

section point
variable {p q : Power} {r : PowerReading} {now : Nat}

/-- Where a sample may put the set point. -/
theorem Power.adjust_bounds (hset : 900 ≤ p.setMhz) : 900 ≤ (p.adjust r now).setMhz ∧ (p.adjust r now).setMhz ≤ max p.setMhz p.top ∧
    (p.adjust r now).setMhz ≤ p.setMhz + 10 ∧
    (p.setMhz < (p.adjust r now).setMhz → 1000000 ≤ cairnSince p.lastRaise now ∧ (p.adjust r now).lastRaise = now) ∧
    (p.limit < r.w10 * 70000 → (p.adjust r now).setMhz ≤ p.setMhz ∧ (p.adjust r now).limPower = true) ∧
    (4450 < r.i1 → (p.adjust r now).setMhz ≤ p.setMhz ∧ (p.adjust r now).limCurrent = true) ∧
    (4450 < r.i1 → p.overCurrent = false → (p.adjust r now).setMhz ≤ max 900 (p.setMhz - 50)) := by
  have htop := Power.top_ge (p := p)
  obtain ⟨hlim, hcur⟩ := Power.adjust_flags (p := p) (r := r) (now := now)
  obtain ⟨hm, h1, h2, h3, h4, h5⟩ | ⟨cut, hm, h1⟩ := Power.adjust_cases (p := p) (r := r) (now := now)
  · rw [hm]
    exact ⟨by omega, by omega, by omega, fun _ => ⟨h2, h3⟩, fun h => by omega, fun h => by omega, fun h => by omega⟩
  · rw [hm]
    exact ⟨by omega, by omega, by omega, fun h => by omega, fun h => ⟨by omega, hlim h⟩, fun h => ⟨by omega, hcur h⟩,
      fun h h' => by have := h1 h h'; omega⟩

end point

/-- Settles O15: the readings stand, and the set point is what `Power.adjust` makes of it. -/
theorem powerSampleSetPoint : Obligations.PowerSampleSetPoint := by
  intro s r hon hf hmhz hs
  obtain ⟨v, hv, he⟩ := State.powerSample_exec (r := r) (State.managed_of hon hf)
  refine ⟨_, he, ?_⟩
  generalize s.power.lastSample + 100000 = n at hv ⊢
  obtain ⟨htop, hset, hraise, hover⟩ := s.readAt_power n r
  obtain ⟨hls, hmv, hw, hi⟩ := s.readAt_readings n r
  obtain ⟨hc, hmem, hg, hr, hfab⟩ := s.readAt_frame n r
  obtain ⟨ts, ph, st, k, ss, sd, ha⟩ := State.afterReading_frame r (State.readAt_unlowered (n := n) (r := r) hs)
  generalize s.readAt n r = w at *
  rw [ha] at hv
  subst hv
  obtain ⟨b, mg, l, h, hn⟩ := State.noteUnmet_frame (s := { w with
    tiles := ts, ledger := { w.ledger with sessions := ss }, mem := { w.mem with stagingDone := sd }
    power := ({ w.power with phases := ph, stagings := st, stallSteps := k } : Power).adjust r w.cairn }) r
  have hb := Power.adjust_bounds (p := { w.power with phases := ph, stagings := st, stallSteps := k }) (r := r) (now := w.cairn)
    (show 900 ≤ w.power.setMhz by omega)
  rw [hn]
  rw [show ({ w.power with phases := ph, stagings := st, stallSteps := k } : Power).setMhz = s.power.setMhz from hset,
    show ({ w.power with phases := ph, stagings := st, stallSteps := k } : Power).top = s.power.top from htop,
    show ({ w.power with phases := ph, stagings := st, stallSteps := k } : Power).lastRaise = s.power.lastRaise from hraise,
    show ({ w.power with phases := ph, stagings := st, stallSteps := k } : Power).overCurrent = s.power.overCurrent from hover] at hb
  obtain ⟨h1, h2, h3, h4, h5, h6, h7⟩ := hb
  exact ⟨hc, hls, hmv, hw, hi, h1, h2, h3, h4, h5, h6, h7, by rw [← hmem], hg, hr, hfab⟩

end Sys2Proof.Machine
end

section
/-! PROOF. Staged turn-on and turn-off (R118, R119, R405 to R409): how a staging is queued, advanced and ended. -/

namespace Sys2Proof.Machine

variable {s t u : State}

/-! ### Time ahead -/

/-- An instant ahead of the Cairn by less than half the circle is the later of the two. -/
theorem cairnMax_ahead {c k : Nat} (hk : 0 < k) (hk' : k ≤ 2 ^ 63) : cairnMax (c + k) c = c + k := by
  have e : ¬cairnSince (c + k) c < 2 ^ 63 := by
    rw [cairnSince_eq]
    norm_num at hk' ⊢
    omega
  rw [cairnMax, cairnBefore, if_neg fun h => e (of_decide_eq_true (Bool.and_eq_true_iff.1 h).2)]

theorem roundUp_four_le (n : Nat) : n ≤ roundUp n 4 ∧ roundUp n 4 < n + 4 := by
  unfold roundUp ceilDiv
  omega

theorem cairnMax_notice (c : Nat) : cairnMax (roundUp (c + 2000) 4) c = roundUp (c + 2000) 4 := by
  obtain ⟨h1, h2⟩ := roundUp_four_le (c + 2000)
  obtain ⟨k, hk⟩ : ∃ k, roundUp (c + 2000) 4 = c + k := ⟨roundUp (c + 2000) 4 - c, by omega⟩
  rw [hk]
  exact cairnMax_ahead (by omega) (by omega)

/-! ### Queues -/

theorem State.queueStaging_hood_nil {d : Nat} {on : Bool} (h : s.hood (hoodOf d) = []) (n : Nat) :
    (s.queueStaging d on).hood n = if n = hoodOf d then [s.newStaging d on] else s.hood n := by
  unfold State.queueStaging
  dsimp only
  rw [State.setHood_hood, h, State.noticeHood_hood]
  rfl

theorem State.hasStaging_nil {d : Nat} {on : Bool} (h : s.hood (hoodOf d) = []) : s.hasStaging d on = false := by
  rw [State.hasStaging, h]
  rfl

theorem State.queueStaging_frame (d : Nat) (on : Bool) : ∃ pw, s.queueStaging d on = { s with power := pw } :=
  ⟨_, (State.queueStaging_onlyStagings d on).frame⟩

/-- The next staging of an empty queue, and of one whose only staging is a turn-off (R407). -/
theorem State.nextStaging_nil : s.nextStaging [] = [] := rfl

theorem State.nextStaging_off {g : Staging} (h : g.on = false) : s.nextStaging [g] = [{ g with at_ := cairnMax g.at_ s.cairn }] := by
  simp [State.nextStaging, h]

/-! ### Rows of the domains -/

theorem State.turnOn_exec {d : Nat} (hd : d < 688) (hm : s.managed = true) (hq : s.seq = .idle) (ht : s.mayTurnOn d = true)
    (h : s.hood (hoodOf d) = []) : exec (.powerDomainTurnOn d) s = .next (s.queueStaging d true) := by
  show execPowerDomainTurnOn d s = _
  rw [execPowerDomainTurnOn, onUnit, if_pos (by simpa using hd), if_neg (by simp [hm, hq, ht, State.hasStaging_nil h])]

theorem State.turnOff_exec {d : Nat} (hd : d < 688) (hm : s.managed = true) (hq : s.seq = .idle) (ht : s.mayTurnOff d = true)
    (h : s.hood (hoodOf d) = []) : exec (.powerDomainTurnOff d) s = .next
      (if 320 ≤ d && d < 640 && (s.tile (d - 320)).inUse then
        (s.advanceTo (s.cairn + 4000)).updTile (d - 320) fun x => { x with tarnPower := .retain }
      else s.queueStaging d false) := by
  show execPowerDomainTurnOff d s = _
  rw [execPowerDomainTurnOff, onUnit, if_pos (by simpa using hd), if_neg (by simp [hm, hq, ht, State.hasStaging_nil h])]

section stage
variable {n : Nat} {g : Staging} {q : List Staging} {low : Bool}

theorem State.powerStage_next (hn : n < 29) (hm : s.managed = true) (hq : s.hood n = g :: q) (hs : g.stage < 16)
    (hl : (g.on && low && decide (1 ≤ g.stage)) = false) : exec (.powerStage n low) s =
      .next ((s.advanceTo g.at_).setHood n ({ g with stage := g.stage + 1, at_ := g.at_ + 250 } :: q)) := by
  show execPowerStage n low s = _
  rw [execPowerStage, onUnit, if_pos (by simpa using hn), hq]
  dsimp only
  rw [if_neg (by simp [hm]), if_neg (by omega), if_neg (by rw [hl]; simp)]

theorem State.powerStage_waits (hn : n < 29) (hm : s.managed = true) (hq : s.hood n = g :: q) (hon : g.on = true) (h1 : 1 ≤ g.stage)
    (hs : g.stage < 16) : exec (.powerStage n true) s = .next
      ((s.advanceTo (cairnMax s.cairn g.at_ + 4)).setHood n ({ g with
        at_ := (s.advanceTo (cairnMax s.cairn g.at_ + 4)).cairn
        waited := g.waited + cairnSince (cairnMax s.cairn g.at_) (s.advanceTo (cairnMax s.cairn g.at_ + 4)).cairn } :: q)) := by
  show execPowerStage n true s = _
  rw [execPowerStage, onUnit, if_pos (by simpa using hn), hq]
  dsimp only
  rw [if_neg (by simp [hm]), if_neg (by omega), if_pos (by simp [hon, h1])]

theorem State.powerStage_ends (hn : n < 29) (hm : s.managed = true) (hq : s.hood n = g :: q) (hs : g.stage = 16) :
    exec (.powerStage n low) s = .next (s.finishStaging n g q) := by
  show execPowerStage n low s = _
  rw [execPowerStage, onUnit, if_pos (by simpa using hn), hq]
  dsimp only
  rw [if_neg (by simp [hm]), if_pos hs]

end stage

/-- A staging that has waited for a millisecond (R408). -/
def State.stalledAt (s : State) (g : Staging) : Staging :=
  { g with
    at_ := (s.advanceTo (cairnMax s.cairn g.at_ + (1000000 - g.waited))).cairn, waited := max g.waited 1000000, stalled := true
    lowered := 910 ≤ s.power.setMhz }

/-- What such a staging makes of power: a step off the set point. -/
def State.stalledPower (s : State) (n : Nat) (g : Staging) (q : List Staging) : Power :=
  { (s.setHood n (s.stalledAt g :: q)).power with setMhz := max 900 (s.power.setMhz - 10), stallSteps := s.power.stallSteps + 1 }

theorem State.powerStageStalled_exec {n : Nat} {g : Staging} {q : List Staging} (hn : n < 29) (hm : s.managed = true)
    (hq : s.hood n = g :: q) (hon : g.on = true) (hst : g.stalled = false) (h1 : 1 ≤ g.stage) (h2 : g.stage < 16) :
    exec (.powerStageStalled n) s = .next { (State.raise 0x1708 (s.stalledAt g).waited g.dom 0
        ((s.advanceTo (cairnMax s.cairn g.at_ + (1000000 - g.waited))).setHood n (s.stalledAt g :: q))) with
      power := s.stalledPower n g q } := by
  show execPowerStageStalled n s = _
  rw [execPowerStageStalled, onUnit, if_pos (by simpa using hn), hq]
  dsimp only
  rw [if_neg (by simp [hm, hon, hst]; omega), State.raise_power]
  rfl

/-! ### The end of a staging -/

theorem State.mayTurnOff_advanceTo (n d : Nat) : (s.advanceTo n).mayTurnOff d = s.mayTurnOff d := rfl

/-- The module as a staging's end finds it: its instant come, and the staging out of its queue. -/
def State.atEnd (s : State) (n : Nat) (g : Staging) : State := (s.advanceTo g.at_).setHood n []

/-- Whether the rules keep the domain as it is (R251, R404, R405). -/
def State.keepsDomain (s : State) (g : Staging) : Bool := if g.on then s.power.lost.contains g.dom else !s.mayTurnOff g.dom

/-- The module with the domain as its staging leaves it. -/
def State.switched (s : State) (n : Nat) (g : Staging) : State := (s.atEnd n g).switchDomain g.dom g.on

section ends
variable {n : Nat} {g : Staging}

/-- A staging that has ended, for which the set point has not fallen, goes on from what it has switched. -/
def State.wentOn (s : State) (n : Nat) (g : Staging) : State :=
  (s.restorePoint g).setHood n ((s.restorePoint g).nextStaging ((s.restorePoint g).hood n))

theorem State.finishStaging_eq : s.finishStaging n g [] = (if s.keepsDomain g then s.atEnd n g else s.switched n g).wentOn n g := rfl

theorem State.wentOn_fields (hl : g.lowered = false) : (s.wentOn n g).tiles = s.tiles ∧ (s.wentOn n g).planes = s.planes ∧
    (s.wentOn n g).cairn = s.cairn ∧ (s.wentOn n g).power.setMhz = s.power.setMhz ∧ (s.wentOn n g).power.domOff = s.power.domOff ∧
    (s.wentOn n g).hood n = s.nextStaging (s.hood n) := by
  refine ⟨rfl, rfl, rfl, if_neg (by simp [hl]), rfl, ?_⟩
  rw [State.wentOn, State.setHood_hood, if_pos rfl]
  rfl

theorem State.wentOn_frame : s.wentOn n g = { s with power := (s.wentOn n g).power } := rfl

theorem State.atEnd_hood : (s.atEnd n g).hood n = [] := by rw [State.atEnd, State.setHood_hood, if_pos rfl]

end ends

/-! ### A domain switched -/

theorem State.abandon_frame (g c : Nat) (rm rp : List Nat) : ∃ gs h l, s.abandon g c rm rp =
    { s with graphs := gs, host := h, ledger := { s.ledger with events := l } } := by
  unfold State.abandon
  split
  · exact ⟨_, _, _, rfl⟩
  · next y _ =>
    dsimp only
    obtain ⟨_, _, h⟩ := State.raiseAll_only (s := s.setGraph g (some _)) (y.inFlight.map fun b => ⟨0x1601, b.seq, g, c⟩)
    exact ⟨_, _, _, h⟩

/-- Passes abandoned of several graphs. -/
theorem State.abandonAll_frame (gs : List Nat) (c : Nat) (rm rp : List Nat) : ∃ ys h l,
    gs.foldl (fun s g => s.abandon g c rm rp) s = { s with graphs := ys, host := h, ledger := { s.ledger with events := l } } := by
  refine List.foldlRecOn (motive := fun t : State => ∃ ys h l, t = { s with graphs := ys, host := h, ledger := { s.ledger with events := l } })
    gs _ ⟨_, _, _, rfl⟩ fun t ht g _ => ?_
  obtain ⟨_, _, _, rfl⟩ := ht
  obtain ⟨_, _, _, h⟩ := State.abandon_frame (s := { s with graphs := _, host := _, ledger := { s.ledger with events := _ } }) g c rm rp
  exact ⟨_, _, _, h⟩

theorem State.askDomain_setMhz (d : Nat) (on : Bool) : (s.askDomain d on).power.setMhz = s.power.setMhz := by
  unfold State.askDomain
  split
  · rfl
  · obtain ⟨_, h⟩ := State.noticeHood_frame (s := s) (hoodOf d)
    show (s.noticeHood (hoodOf d)).power.setMhz = _
    rw [h]

section tile
variable {i : Nat}

/-- A tile dark with what its graphs and its Saddles lose (R119, R265). -/
def State.darkTile (s : State) (i : Nat) : State :=
  ((if s.power.halted then s else (s.wordGraphs i).foldl (fun s g => s.abandon g 1 [] []) s).dropWords i).updTile i fun x => { x with on := false }

theorem State.tileOff_eq : s.tileOff i = (s.darkTile i).restTarn i := rfl

theorem State.darkTile_frame : ∃ ys h l pl, s.darkTile i =
    ({ s with graphs := ys, host := h, planes := pl, ledger := { s.ledger with events := l } } : State).updTile i fun x => { x with on := false } := by
  unfold State.darkTile
  split
  · exact ⟨_, _, _, _, rfl⟩
  · obtain ⟨_, _, _, h⟩ := State.abandonAll_frame (s := s) (s.wordGraphs i) 1 [] []
    rw [h]
    exact ⟨_, _, _, _, rfl⟩

theorem State.darkTile_power : (s.darkTile i).power = s.power := by
  obtain ⟨_, _, _, _, h⟩ := State.darkTile_frame (s := s) (i := i)
  rw [h]; rfl

theorem State.darkTile_cairn : (s.darkTile i).cairn = s.cairn := by
  obtain ⟨_, _, _, _, h⟩ := State.darkTile_frame (s := s) (i := i)
  rw [h]; rfl

theorem State.darkTile_tile : (s.darkTile i).tile i = { s.tile i with on := false } := by
  obtain ⟨_, _, _, _, h⟩ := State.darkTile_frame (s := s) (i := i)
  rw [h, State.updTile_tile, if_pos rfl]; rfl

/-- What becomes of the Tarn of a dark tile (R118, R119). -/
theorem State.restTarn_inUse (hd : (s.tile i).on = false) (hp : (s.tile i).tarnPower ≠ .off) (hu : (s.tile i).inUse = true) :
    s.restTarn i = s.updTile i fun x => { x with tarnPower := .retain } := by
  rw [State.restTarn, if_neg (by simp [hd, hp]), if_pos (by simp [hu])]

theorem State.restTarn_unused (hd : (s.tile i).on = false) (hp : (s.tile i).tarnPower ≠ .off) (hu : (s.tile i).inUse = false)
    (hf : (s.tile i).fenced = false) : s.restTarn i = s.askDomain (i + 320) false := by
  rw [State.restTarn, if_neg (by simp [hd, hp]), if_neg (by simp [hu, hf])]

theorem State.restTarn_on : ((s.restTarn i).tile i).on = (s.tile i).on := by
  obtain h | h := State.restTarn_cases (s := s) i
  · rw [h.tile]
  · rw [h, State.updTile_tile, if_pos rfl]

theorem State.restTarn_setMhz : (s.restTarn i).power.setMhz = s.power.setMhz := by
  unfold State.restTarn
  dsimp only
  split
  · rfl
  · split
    · rfl
    · exact State.askDomain_setMhz _ _

theorem State.tileOff_setMhz : (s.tileOff i).power.setMhz = s.power.setMhz := by
  rw [State.tileOff_eq, State.restTarn_setMhz, State.darkTile_power]

theorem State.tileOff_on : ((s.tileOff i).tile i).on = false := by
  rw [State.tileOff_eq, State.restTarn_on, State.darkTile_tile]

/-- The tile of a use goes dark with its Tarn in RETAIN. -/
theorem State.tileOff_inUse (hu : (s.tile i).inUse = true) (hp : (s.tile i).tarnPower ≠ .off) :
    (s.tileOff i).power = s.power ∧ ((s.tileOff i).tile i).tarnPower = .retain := by
  have hx := State.darkTile_tile (s := s) (i := i)
  rw [State.tileOff_eq, State.restTarn_inUse (by rw [hx]) (by rw [hx]; exact hp) (by rw [hx]; exact hu)]
  exact ⟨State.darkTile_power, by rw [State.updTile_tile, if_pos rfl]⟩

/-- Behind a tile without a use its Tarn is asked off. -/
theorem State.tileOff_unused (hu : (s.tile i).inUse = false) (hf : (s.tile i).fenced = false) (hp : (s.tile i).tarnPower ≠ .off) :
    s.tileOff i = (s.darkTile i).askDomain (i + 320) false := by
  have hx := State.darkTile_tile (s := s) (i := i)
  rw [State.tileOff_eq, State.restTarn_unused (by rw [hx]) (by rw [hx]; exact hp) (by rw [hx]; exact hu) (by rw [hx]; exact hf)]

/-- Staging writes that come to a tile leave its supply. -/
theorem Tile.stageWords_on (x : Tile) (ws : List (Nat × List Byte × Bool)) : (ws.foldl Tile.stageWords x).on = x.on :=
  List.foldlRecOn (motive := fun y : Tile => y.on = x.on) ws _ rfl fun _ hy _ _ => hy

theorem State.completeStaging_tile (j st : Nat) (ws : List (Nat × List Byte × Bool)) : (s.completeStaging i st ws).tile j = s.tile j := rfl

theorem State.stagedOn_onlyTiles : s.OnlyTiles (· = i) (s.stagedOn i) := by
  unfold State.stagedOn
  split
  · exact (State.updTile_onlyTiles i _).trans (State.completeStaging_onlyTiles i stOk _)
  · exact .refl s

theorem State.stagedOn_power : (s.stagedOn i).power = s.power := by
  unfold State.stagedOn
  split <;> rfl

theorem State.stagedOn_copies : (s.stagedOn i).mem.copies = s.mem.copies := by rw [State.stagedOn_onlyTiles.mem]

theorem State.stagedOn_on : ((s.stagedOn i).tile i).on = (s.tile i).on := by
  unfold State.stagedOn
  split
  · rw [State.completeStaging_tile, State.updTile_tile, if_pos rfl]
    exact Tile.stageWords_on _ _
  · rfl

/-- A tile for which no staging write waits stays as it is. -/
theorem State.stagedOn_none (h : (s.tile i).staging = []) : (s.stagedOn i).tile i = s.tile i := by
  unfold State.stagedOn
  split
  · rw [State.completeStaging_tile, State.updTile_tile, if_pos rfl, h, List.foldl_nil, ← h]
  · rfl

theorem State.retryCopies_nil (h : s.mem.copies = []) : s.retryCopies = s := by rw [State.retryCopies, h]; rfl

end tile

/-! ### Units behind the CXL and Filzor domains -/

theorem State.slicesBack_power (r : Nat) : (s.slicesBack r).power = s.power := by
  refine List.foldlRecOn (motive := fun t : State => t.power = s.power) _ _ rfl fun t ht i _ => ?_
  dsimp only
  split
  · show (State.raise ..).power = _
    rw [State.raise_power]
    exact ht
  · exact ht

theorem State.rangeOnline_power (r : Nat) : (s.rangeOnline r).power = s.power := by
  unfold State.rangeOnline
  dsimp only
  rw [State.slicesBack_power, State.raise_power]
  rfl

theorem State.placeDevice_power {p sn sz : Nat} {x : Nat × State} (h : s.placeDevice p sn sz = some x) : x.2.power = s.power := by
  unfold State.placeDevice at h
  dsimp only at h
  split at h
  · exact absurd h (by simp)
  · split at h
    · exact absurd h (by simp)
    · obtain ⟨q, -, rfl⟩ := Option.map_eq_some_iff.1 h
      refine (State.updRange_power ..).trans
        (List.foldlRecOn (motive := fun t : State => t.power = s.power) (List.range 8) _ rfl fun t ht i _ => ?_)
      split
      · exact ht
      · exact ht

theorem State.insertDevice_power (p sn sz : Nat) : (s.insertDevice p sn sz).power = s.power := by
  unfold State.insertDevice
  split
  · dsimp only
    split
    · rfl
    · rw [State.rangeOnline_power]; rfl
  · split
    · rfl
    · next h => rw [State.rangeOnline_power, State.placeDevice_power h]

theorem State.enumerateWaiting_power (p : Nat) : (s.enumerateWaiting p).power = s.power :=
  List.foldlRecOn (motive := fun t : State => t.power = s.power) _ _ rfl fun t ht d _ => by rw [State.insertDevice_power, ht]

theorem State.portTo_power (p : Nat) (k : PortState) : (s.portTo p k).power = s.power := by
  unfold State.portTo
  split
  · rfl
  · rw [State.raise_power]; rfl

theorem State.enablePort_setMhz (p : Nat) : (s.enablePort p).power.setMhz = s.power.setMhz := by
  unfold State.enablePort
  split
  · rfl
  · split
    · exact State.askDomain_setMhz _ _
    · rw [State.portTo_power]

theorem State.routerOff_frame (m : Nat) : (s.routerOff m).power = s.power ∧ Tab.get false (s.routerOff m).planes.routerOn m = false := by
  unfold State.routerOff
  obtain ⟨_, _, _, h⟩ := State.abandonAll_frame (s := s) (s.darkened m) 1 [] []
  rw [h]
  refine ⟨rfl, ?_⟩
  dsimp only
  rw [Tab.get_put, if_pos rfl]

/-! ### Each kind of domain -/

section kinds
variable {d : Nat}

theorem State.switchTile_on (hd : d < 320) (hc : s.mem.copies = []) : ∃ c, s.switchDomain d true =
    State.stagedOn d ((s.advanceTo c).updTile d fun x => { x with on := true }) := by
  refine ⟨s.cairn + 500, ?_⟩
  rw [State.switchDomain, if_pos hd, if_pos rfl, if_pos (by simp [hd])]
  exact State.retryCopies_nil (State.stagedOn_copies.trans hc)

theorem State.switchTile_off (hd : d < 320) : s.switchDomain d false = s.tileOff d := by
  rw [State.switchDomain, if_pos hd]
  rfl

theorem State.switchTarn {on : Bool} (h1 : 320 ≤ d) (h2 : d < 640) :
    s.switchDomain d on = s.updTile (d - 320) fun x => if on then x.tarnOn else x.tarnLost := by
  rw [State.switchDomain, if_neg (by omega), if_pos h2, if_neg (by simp; omega)]

theorem State.switchRouter_on (h1 : 640 ≤ d) (h2 : d < 660) : ∃ c, s.switchDomain d true = (s.advanceTo c).routerOn (d - 640) := by
  refine ⟨s.cairn + 500, ?_⟩
  rw [State.switchDomain, if_neg (by omega), if_neg (by omega), if_pos h2]
  exact congrArg (State.routerOn (d - 640)) (if_pos (by simp [h1, h2]))

theorem State.switchRouter_off (h1 : 640 ≤ d) (h2 : d < 660) : s.switchDomain d false = s.routerOff (d - 640) := by
  rw [State.switchDomain, if_neg (by omega), if_neg (by omega), if_pos h2]
  rfl

/-- A domain outside tiles, Tarns and routers is noted on or off (R405). -/
def State.noteDomain (s : State) (d : Nat) (on : Bool) : State :=
  { s with power := { s.power with domOff := Tab.put false d (!on) s.power.domOff } }

theorem State.switchOther {on : Bool} (h : 660 ≤ d) : s.switchDomain d on =
    if !on then s.noteDomain d on
    else if d = 677 || d = 678 then (s.noteDomain d on).enumerateWaiting (d - 677)
    else if 679 ≤ d && d < 685 then (s.noteDomain d on).enablePort (d - 679)
    else s.noteDomain d on := by
  rw [State.switchDomain, if_neg (by omega), if_neg (by omega), if_neg (by omega)]
  rfl

theorem Tile.tarnOn_power (x : Tile) : x.tarnOn.tarnPower = .active := by
  unfold Tile.tarnOn
  split <;> rfl

/-- A domain switched leaves the set point. -/
theorem State.switchDomain_setMhz {on : Bool} (hc : on = true → s.mem.copies = []) : (s.switchDomain d on).power.setMhz = s.power.setMhz := by
  by_cases h1 : d < 320
  · cases on with
    | true =>
      obtain ⟨c, h⟩ := State.switchTile_on h1 (hc rfl)
      rw [h, State.stagedOn_power]
      rfl
    | false => rw [State.switchTile_off h1, State.tileOff_setMhz]
  · by_cases h2 : d < 640
    · rw [State.switchTarn (by omega) h2]; rfl
    · by_cases h3 : d < 660
      · cases on with
        | true =>
          obtain ⟨c, h⟩ := s.switchRouter_on (d := d) (by omega) h3
          rw [h]; rfl
        | false => rw [State.switchRouter_off (by omega) h3, (State.routerOff_frame _).1]
      · rw [State.switchOther (by omega)]
        split
        · rfl
        · split
          · rw [State.enumerateWaiting_power]; rfl
          · split
            · rw [State.enablePort_setMhz]; rfl
            · rfl

/-- What a staging's end makes of its domain, where its queue is then empty. -/
theorem State.switchTile_on_fields (hd : d < 320) (hc : s.mem.copies = []) {n : Nat} (hn : s.hood n = []) :
    ((s.switchDomain d true).tile d).on = true ∧ (s.switchDomain d true).hood n = [] ∧
      ((s.tile d).staging = [] → (s.switchDomain d true).tile d = { s.tile d with on := true }) := by
  obtain ⟨c, h⟩ := State.switchTile_on hd hc
  have hx : ((s.advanceTo c).updTile d fun x => { x with on := true }).tile d = { s.tile d with on := true } := by
    rw [State.updTile_tile, if_pos rfl]; rfl
  rw [h]
  refine ⟨by rw [State.stagedOn_on, hx], ?_, fun hs => by rw [State.stagedOn_none (by rw [hx]; exact hs), hx]⟩
  rw [State.hood, State.stagedOn_power]
  exact hn

/-- A tile's turn-off without a use for it brings its Tarn's behind it (R119, R408). -/
theorem State.switchTile_off_unused (hd : d < 320) (hu : (s.tile d).inUse = false) (hf : (s.tile d).fenced = false)
    (hp : (s.tile d).tarnPower ≠ .off) {n : Nat} (hn : n = hoodOf d) (hq : s.hood n = []) :
    (s.switchDomain d false).nextStaging ((s.switchDomain d false).hood n) =
      [⟨320 + d, false, 0, roundUp ((s.switchDomain d false).cairn + 2000) 4, 0, false, false⟩] := by
  have hh : hoodOf (d + 320) = n := by rw [hn]; unfold hoodOf; rw [if_neg (by omega), if_pos (by omega), if_pos hd]; omega
  have hw : (s.darkTile d).hood (hoodOf (d + 320)) = [] := by rw [State.hood, State.darkTile_power, hh]; exact hq
  have hv : s.switchDomain d false = (s.darkTile d).queueStaging (d + 320) false := by
    rw [State.switchTile_off hd, State.tileOff_unused hu hf hp, State.askDomain, if_neg (by simp [State.hasStaging_nil hw])]
  have hc : (s.switchDomain d false).cairn = (s.darkTile d).cairn := by rw [hv, (State.queueStaging_onlyStagings ..).cairn]
  have hg : (s.switchDomain d false).hood n = [(s.darkTile d).newStaging (d + 320) false] := by
    rw [hv, State.queueStaging_hood_nil hw, if_pos hh.symm]
  rw [hg, State.nextStaging_off rfl, hc]
  unfold State.newStaging
  dsimp only
  rw [cairnMax_notice, Nat.add_comm d]

end kinds

/-- Settles O14: a staging is queued behind its notice, advances stage by stage, and ends with its domain switched. -/
theorem domainStagingRows : Obligations.DomainStagingRows := by
  intro s hon hf hq
  have hm := State.managed_of hon hf
  refine ⟨fun d hd ht hh => ?_, fun d hd ht hh hu => ?_, fun i hi ht hh hu => ?_, fun n hn g q low hg hs hl => ?_,
    fun n hn g q hg hgon h1 h2 => ?_, fun n hn g hg hgn hs hst hlo => ?_, fun n hn g q hg hgon hst h1 h2 => ?_⟩
  · refine ⟨_, State.turnOn_exec hd hm hq ht hh, (State.queueStaging_hood_nil hh _).trans (if_pos rfl),
      fun n hn => (State.queueStaging_hood_nil hh n).trans (if_neg hn), ?_⟩
    exact (State.queueStaging_onlyStagings d true).frame
  · refine ⟨_, State.turnOff_exec hd hm hq ht hh, ?_⟩
    rw [if_neg fun h => ?_]
    · exact ⟨(State.queueStaging_hood_nil hh _).trans (if_pos rfl), (State.queueStaging_onlyStagings d false).frame⟩
    · simp only [Bool.and_eq_true, decide_eq_true_eq] at h
      rw [hu h.1] at h
      exact absurd h.2 (by simp)
  · refine ⟨_, State.turnOff_exec (by omega) hm hq ht hh, ?_⟩
    rw [show 320 + i - 320 = i by omega, if_pos (by simp [hu]; omega)]
    refine ⟨by rw [State.updTile_tile, if_pos rfl]; rfl, fun j hj => by rw [State.updTile_tile, if_neg hj]; rfl, rfl⟩
  · exact ⟨_, State.powerStage_next hn hm hg hs hl, (State.setHood_hood ..).trans (if_pos rfl), rfl, rfl⟩
  · exact ⟨_, State.powerStage_waits hn hm hg hgon h1 h2, (State.setHood_hood ..).trans (if_pos rfl), rfl⟩
  · have he := fun low => State.powerStage_ends (low := low) hn hm hg hs
    have hnil := State.atEnd_hood (s := s) (n := n) (g := g)
    constructor
    · intro hk
      refine ⟨_, he false, ?_⟩
      have hkeep : s.keepsDomain g = true := by
        unfold State.keepsDomain
        split at hk
        · next hgo => rw [if_pos hgo]; simpa using hk
        · next hgo => rw [if_neg hgo]; simpa using hk
      rw [State.finishStaging_eq, if_pos hkeep]
      obtain ⟨-, -, -, -, -, hh⟩ := (s.atEnd n g).wentOn_fields (n := n) hlo
      exact ⟨by rw [hh, hnil]; rfl, rfl⟩
    · intro hk
      refine ⟨_, he false, ?_⟩
      have hkeep : s.keepsDomain g = false := by
        unfold State.keepsDomain
        split at hk
        · next hgo => rw [if_pos hgo]; simpa using hk.1
        · next hgo => rw [if_neg hgo]; simpa using hk
      have hcop : g.on = true → (s.atEnd n g).mem.copies = [] := fun hgo => by
        rw [if_pos hgo] at hk
        exact hk.2
      rw [State.finishStaging_eq, if_neg (by simp [hkeep])]
      obtain ⟨htile, hpl, hc, hmhz, hdom, hh⟩ := (s.switched n g).wentOn_fields (n := n) hlo
      have htl : ∀ j, ((s.switched n g).wentOn n g).tile j = (s.switched n g).tile j := fun j => by rw [State.tile, htile]; rfl
      rw [hmhz, hh, hpl, hdom, hc]
      simp only [htl]
      unfold State.switched
      have hgo : g.on = true ∨ g.on = false := by cases g.on <;> simp
      refine ⟨State.switchDomain_setMhz hcop, fun hd => ?_, fun hd hgo => ?_, fun hd hgo hu hp => ?_, fun hd hgo hu hfe hp => ?_,
        fun h1 h2 => ?_, fun h1 h2 => ?_, fun h1 h2 => ?_⟩
      · obtain hgo | hgo := hgo
        · rw [hgo]; exact (State.switchTile_on_fields hd (hcop hgo) hnil).1
        · rw [hgo, State.switchTile_off hd, State.tileOff_on]
      · rw [hgo]
        obtain ⟨-, h2, h3⟩ := State.switchTile_on_fields hd (hcop hgo) hnil
        exact ⟨by rw [h2]; rfl, h3⟩
      · rw [hgo, State.switchTile_off hd]
        obtain ⟨h1, h2⟩ := State.tileOff_inUse (s := s.atEnd n g) hu hp
        exact ⟨by rw [State.hood, h1, ← State.hood, hnil]; rfl, h2⟩
      · rw [hgo]
        exact State.switchTile_off_unused (s := s.atEnd n g) hd hu hfe hp hgn hnil
      · rw [State.switchTarn h1 h2]
        refine ⟨by rw [State.hood, State.updTile_power, ← State.hood, hnil]; rfl, ?_⟩
        rw [State.updTile_tile, if_pos rfl]
        obtain hgo | hgo := hgo
        · rw [hgo]; exact Tile.tarnOn_power _
        · rw [hgo]; rfl
      · obtain hgo | hgo := hgo
        · obtain ⟨c, h⟩ := (s.atEnd n g).switchRouter_on h1 h2
          rw [hgo, h]
          refine ⟨by rw [show State.hood (State.routerOn ..) n = (s.atEnd n g).hood n from rfl, hnil]; rfl, ?_⟩
          show Tab.get false (Tab.put false (g.dom - 640) true _) (g.dom - 640) = true
          rw [Tab.get_put, if_pos rfl]
        · rw [hgo, State.switchRouter_off h1 h2]
          obtain ⟨hp, hr⟩ := (s.atEnd n g).routerOff_frame (g.dom - 640)
          exact ⟨by rw [State.hood, hp, ← State.hood, hnil]; rfl, hr⟩
      · have hv : (s.atEnd n g).switchDomain g.dom g.on = (s.atEnd n g).noteDomain g.dom g.on := by
          rw [State.switchOther h1]
          split
          · rfl
          · rw [if_neg (by simp; omega), if_neg (by simp; omega)]
        rw [hv]
        exact ⟨by rw [show ((s.atEnd n g).noteDomain g.dom g.on).hood n = (s.atEnd n g).hood n from rfl, hnil]; rfl,
          Tab.get_put.trans (if_pos rfl)⟩
  · refine ⟨_, State.powerStageStalled_exec hn hm hg hgon hst h1 h2, ?_⟩
    refine ⟨rfl, rfl, ?_⟩
    have hh : Tab.get [] (s.stalledPower n g q).stagings n = s.stalledAt g :: q :=
      (State.setHood_hood (s := s) n n (s.stalledAt g :: q)).trans (if_pos rfl)
    exact ⟨_, hh, rfl, rfl⟩

end Sys2Proof.Machine
end

section
/-! PROOF. Heat (R357, R378, R408, R413): a hot sensor lowers the set point, a halt asks every tile off, and its end turns the tiles in
use on again. -/

namespace Sys2Proof.Machine

variable {s t u : State}

/-! ### Stagings taken out and asked -/

theorem State.mem_nextStaging_kind {q : List Staging} {d : Nat} {on : Bool} :
    (∃ g ∈ s.nextStaging q, g.dom = d ∧ g.on = on) ↔ ∃ g ∈ q, g.dom = d ∧ g.on = on := by
  unfold State.nextStaging
  split
  · exact Iff.rfl
  · next g hg =>
    have hq := List.mem_of_find?_eq_some hg
    simp only [List.mem_cons, exists_eq_or_imp]
    constructor
    · rintro (h | ⟨x, hx, h⟩)
      · exact ⟨g, hq, h⟩
      · exact ⟨x, List.mem_of_mem_erase hx, h⟩
    · rintro ⟨x, hx, h⟩
      by_cases hxg : x = g
      · exact .inl (hxg ▸ h)
      · exact .inr ⟨x, (List.mem_erase_of_ne hxg).2 hx, h⟩

theorem State.restorePoints_hood (gs : List Staging) (n : Nat) : (gs.foldl (fun s g => s.restorePoint g) s).hood n = s.hood n :=
  List.foldlRecOn (motive := fun t : State => t.hood n = s.hood n) gs _ rfl fun _ ht _ _ => ht

/-- Taking out the turn-ons of a domain leaves every other staging. -/
theorem State.unstage_hasStaging (d e : Nat) (on : Bool) :
    (s.unstage d).hasStaging e on = true ↔ s.hasStaging e on = true ∧ ¬(e = d ∧ on = true) := by
  have hf : (∃ g ∈ (s.hood (hoodOf d)).filter fun g => !(g.dom == d && g.on), g.dom = e ∧ g.on = on) ↔
      (∃ g ∈ s.hood (hoodOf d), g.dom = e ∧ g.on = on) ∧ ¬(e = d ∧ on = true) := by
    simp only [List.mem_filter, Bool.not_eq_true', Bool.and_eq_false_iff, beq_eq_false_iff_ne]
    constructor
    · rintro ⟨g, ⟨hg, hn⟩, rfl, rfl⟩
      exact ⟨⟨g, hg, rfl, rfl⟩, fun ⟨h1, h2⟩ => hn.elim (fun h => h h1) fun h => by simp [h] at h2⟩
    · rintro ⟨⟨g, hg, rfl, rfl⟩, hn⟩
      refine ⟨g, ⟨hg, ?_⟩, rfl, rfl⟩
      by_contra hc
      simp only [not_or, ne_eq, not_not, Bool.not_eq_false] at hc
      exact hn hc
  rw [State.hasStaging_iff, State.hasStaging_iff]
  unfold State.unstage
  dsimp only
  split
  · next heq =>
    rw [heq] at hf
    refine ⟨fun h => ⟨h, fun hd => ?_⟩, fun h => h.1⟩
    rw [hd.1, hd.2] at h hf
    exact (hf.1 h).2 ⟨rfl, rfl⟩
  · rw [State.setHood_hood]
    split
    · next hd =>
      rw [hd, ← hf]
      split
      · exact Iff.rfl
      · exact State.mem_nextStaging_kind
    · next hd =>
      rw [State.restorePoints_hood]
      exact ⟨fun h => ⟨h, fun hc => hd (by rw [hc.1])⟩, fun h => h.1⟩

theorem State.updTile_hasStaging (i : Nat) (f : Tile → Tile) (e : Nat) (on : Bool) :
    (s.updTile i f).hasStaging e on = s.hasStaging e on := rfl

/-- A tile that goes dark asks nothing on, and takes no staging out. -/
theorem State.restTarn_hasStaging (i e : Nat) : ((s.restTarn i).hasStaging e true = s.hasStaging e true) ∧
    (s.hasStaging e false = true → (s.restTarn i).hasStaging e false = true) := by
  unfold State.restTarn
  dsimp only
  split
  · exact ⟨rfl, id⟩
  · split
    · exact ⟨rfl, id⟩
    · exact ⟨by rw [Bool.eq_iff_iff, State.askDomain_hasStaging]; simp, fun h => State.askDomain_hasStaging.2 (.inl h)⟩

theorem State.quiet_hasStaging (i e : Nat) : ((s.quiet i).hasStaging e true = s.hasStaging e true) ∧
    (s.hasStaging e false = true → (s.quiet i).hasStaging e false = true) := by
  unfold State.quiet
  split
  · exact ⟨by rw [Bool.eq_iff_iff, State.askDomain_hasStaging]; simp, fun h => State.askDomain_hasStaging.2 (.inl h)⟩
  · exact State.restTarn_hasStaging i e

/-- A lit tile is asked off. -/
theorem State.quiet_lit {i : Nat} (h : (s.tile i).on = true) : (s.quiet i).hasStaging i false = true := by
  rw [State.quiet, if_pos h]
  exact State.askDomain_off_hasStaging i

/-- The Tarn of a dark tile in use is not active. -/
theorem State.quiet_dark {i : Nat} (h : (s.tile i).on = false) (hu : (s.tile i).inUse = true) : ((s.quiet i).tile i).tarnPower ≠ .active := by
  rw [State.quiet, if_neg (by simp [h])]
  by_cases hp : (s.tile i).tarnPower = .off
  · rw [State.restTarn, if_pos (by simp [hp]), hp]
    exact nofun
  · rw [State.restTarn_inUse h hp hu, State.updTile_tile, if_pos rfl]
    exact nofun

/-! ### A thermal halt -/

/-- A tile's part in a thermal halt (R413). -/
def State.haltTile (s : State) (i : Nat) : State := (((s.unstage i).unstage (i + 320)).dropWords i).quiet i

section halt
variable {i : Nat}

theorem State.haltTile_before_tile (j : Nat) : ((((s.unstage i).unstage (i + 320)).dropWords i).tile j) = s.tile j :=
  (State.unstage_unstage_onlyStagings i).tile j

theorem State.haltTile_other {j : Nat} (h : j ≠ i) : (s.haltTile i).tile j = s.tile j := by
  rw [State.haltTile, (State.quiet_onlyTiles i).tile h, State.haltTile_before_tile]

theorem State.haltTile_same : (s.haltTile i).tile i = { s.tile i with tarnPower := ((s.haltTile i).tile i).tarnPower } := by
  have h := State.quiet_tile_same (s := ((s.unstage i).unstage (i + 320)).dropWords i) i
  rw [State.haltTile_before_tile] at h
  exact h

theorem State.haltTile_hasStaging_on (e : Nat) :
    (s.haltTile i).hasStaging e true = true ↔ s.hasStaging e true = true ∧ e ≠ i ∧ e ≠ i + 320 := by
  rw [State.haltTile, (State.quiet_hasStaging i e).1]
  show ((s.unstage i).unstage (i + 320)).hasStaging e true = true ↔ _
  rw [State.unstage_hasStaging, State.unstage_hasStaging]
  simp only [and_true, and_assoc]

theorem State.haltTile_hasStaging_off {e : Nat} (h : s.hasStaging e false = true) : (s.haltTile i).hasStaging e false = true := by
  refine (State.quiet_hasStaging i e).2 ?_
  show ((s.unstage i).unstage (i + 320)).hasStaging e false = true
  simp [State.unstage_hasStaging, h]

theorem State.haltTile_frame : (s.haltTile i).graphs = s.graphs ∧ (s.haltTile i).power.halted = s.power.halted := by
  have h1 := (State.unstage_unstage_onlyStagings (s := s) i).onlyTiles (T := (· = i))
  have h2 := State.quiet_onlyTiles (s := ((s.unstage i).unstage (i + 320)).dropWords i) i
  obtain ⟨⟨_, _, _, _, _, _, e1⟩, -, -⟩ := h1
  obtain ⟨⟨_, _, _, _, _, _, e2⟩, -, -⟩ := h2
  rw [State.haltTile, e2, e1]
  exact ⟨rfl, rfl⟩

end halt

/-- What a thermal halt has made of a tile. -/
def State.Halted (s : State) (i : Nat) : Prop :=
  ((s.tile i).on = true → s.hasStaging i false = true) ∧ s.hasStaging i true = false ∧ s.hasStaging (320 + i) true = false ∧
    ((s.tile i).on = false → (s.tile i).inUse = true → (s.tile i).tarnPower ≠ .active)

theorem State.haltTile_halted (i : Nat) : (s.haltTile i).Halted i := by
  have hb (j : Nat) := State.haltTile_before_tile (s := s) (i := i) j
  refine ⟨fun h => State.quiet_lit ?_, ?_, ?_, fun h hu => State.quiet_dark ?_ ?_⟩
  · rw [hb]; rw [State.haltTile_same] at h; exact h
  · rw [Bool.eq_false_iff, ne_eq, State.haltTile_hasStaging_on]; simp
  · rw [Bool.eq_false_iff, ne_eq, State.haltTile_hasStaging_on]; simp [Nat.add_comm]
  · rw [hb]; rw [State.haltTile_same] at h; exact h
  · rw [hb]; rw [State.haltTile_same] at hu; exact hu

/-- The halt of another tile leaves a tile halted. -/
theorem State.Halted.step {i j : Nat} (h : s.Halted i) (hij : i ≠ j) : (s.haltTile j).Halted i := by
  obtain ⟨h1, h2, h3, h4⟩ := h
  refine ⟨fun ho => State.haltTile_hasStaging_off (h1 ?_), ?_, ?_, ?_⟩
  · rwa [State.haltTile_other hij] at ho
  · rw [Bool.eq_false_iff, ne_eq, State.haltTile_hasStaging_on]; simp [h2]
  · rw [Bool.eq_false_iff, ne_eq, State.haltTile_hasStaging_on]; simp [h3]
  · rw [State.haltTile_other hij]; exact h4

theorem State.haltTiles_range (n : Nat) : (∀ i < n, ((List.range n).foldl State.haltTile s).Halted i) ∧
    ((List.range n).foldl State.haltTile s).graphs = s.graphs ∧ ((List.range n).foldl State.haltTile s).power.halted = s.power.halted := by
  induction n with
  | zero => exact ⟨fun i hi => absurd hi (by omega), rfl, rfl⟩
  | succ n ih =>
    rw [List.range_succ, List.foldl_append, List.foldl_cons, List.foldl_nil]
    obtain ⟨ih, hg, hh⟩ := ih
    refine ⟨fun i hi => ?_, State.haltTile_frame.1.trans hg, State.haltTile_frame.2.trans hh⟩
    by_cases hin : i = n
    · rw [hin]; exact State.haltTile_halted n
    · exact (ih i (by omega)).step hin

/-! ### What ends with a halt -/

theorem State.wipe_graphs (k u : Nat) : (s.wipe k u).graphs = s.graphs := by
  unfold State.wipe
  split <;> rfl

theorem State.checkDegraded_graphs : s.checkDegraded.graphs = s.graphs := by
  unfold State.checkDegraded
  split
  · rw [State.raise_graphs]
    obtain ⟨_, _, h⟩ := State.setDev_frame (s := s) .degraded
    rw [h]
  · rfl

/-- A slice recorded without a failure. -/
theorem State.recordSlice_graphs (k u out src n d : Nat) : (s.recordSlice k u out src ⟨n, [], d⟩).graphs = s.graphs := by
  have hp : s.partsFailed ⟨n, [], d⟩ k u = [] := by simp [State.partsFailed]
  unfold State.recordSlice
  obtain ⟨_, h⟩ := State.addResult_frame (s := s.wipe k u) (s.sliceResult k u out src ⟨n, [], d⟩)
  rw [hp, State.checkDegraded_graphs, List.foldl_nil, h]
  exact State.wipe_graphs k u

theorem State.print_graphs (ls : List Line) : (s.print ls).graphs = s.graphs := rfl

theorem State.preemptSlice_graphs : s.preemptSlice.graphs = s.graphs := by
  unfold State.preemptSlice State.endSlice
  dsimp only
  split
  · rfl
  · rw [State.print_graphs, State.recordSlice_graphs]
    refine List.foldlRecOn (motive := fun t : State => t.graphs = s.graphs) (List.range 320) _ rfl fun t ht i _ => ?_
    split
    · rw [(State.letGo_onlyTiles i).frame]; exact ht
    · exact ht

theorem State.endSessions_graphs : s.endSessions.graphs = s.graphs := by
  obtain ⟨_, h⟩ := State.endSessions_frame (s := s)
  rw [h.frame]

/-! ### Graphs abandoned -/

/-- A graph whose abandonment has a cause. -/
def State.AbandonedFor (s : State) (c g : Nat) : Prop := ∃ z a, s.graph? g = some z ∧ z.abandon = some a ∧ c ∈ a.causes

theorem State.raiseAll_graph? (es : List Event) (h : Nat) : (State.raiseAll es s).graph? h = s.graph? h := by
  obtain ⟨_, _, e⟩ := State.raiseAll_only (s := s) es
  rw [e]
  rfl

theorem State.abandon_graph {g c : Nat} {rm rp : List Nat} {y : Graph} (h : s.graph? g = some y) :
    ∃ a, (s.abandon g c rm rp).graph? g = some { y with abandon := some a } ∧
      a.causes = (y.abandon.getD ⟨[], [], [], [], [], 0, false⟩).causes ++ [c] := by
  unfold State.abandon
  rw [h]
  dsimp only
  rw [State.raiseAll_graph?, State.setGraph_graph, if_pos rfl]
  exact ⟨_, rfl, rfl⟩

theorem State.abandon_other {g h c : Nat} {rm rp : List Nat} (hne : h ≠ g) : (s.abandon g c rm rp).graph? h = s.graph? h := by
  unfold State.abandon
  split
  · rfl
  · dsimp only
    rw [State.raiseAll_graph?, State.setGraph_graph, if_neg hne]

theorem State.abandon_isSome (g h c : Nat) (rm rp : List Nat) : ((s.abandon g c rm rp).graph? h).isSome = (s.graph? h).isSome := by
  by_cases hh : h = g
  · subst hh
    cases hg : s.graph? h with
    | none => rw [State.abandon, hg]; dsimp only; rw [hg]
    | some y =>
      obtain ⟨a, ha, -⟩ := State.abandon_graph (c := c) (rm := rm) (rp := rp) hg
      rw [ha]; rfl
  · rw [State.abandon_other hh]

theorem State.abandon_for {g c : Nat} {rm rp : List Nat} (h : (s.graph? g).isSome = true) : (s.abandon g c rm rp).AbandonedFor c g := by
  obtain ⟨y, hy⟩ := Option.isSome_iff_exists.1 h
  obtain ⟨a, ha, hc⟩ := State.abandon_graph (c := c) (rm := rm) (rp := rp) hy
  exact ⟨_, a, ha, rfl, by simp [hc]⟩

/-- A further abandonment keeps the causes of those before it (R355). -/
theorem State.AbandonedFor.abandon {g h c d : Nat} {rm rp : List Nat} (ha : s.AbandonedFor c h) : (s.abandon g d rm rp).AbandonedFor c h := by
  obtain ⟨z, a, hz, hza, hc⟩ := ha
  by_cases hh : h = g
  · subst hh
    obtain ⟨b, hb, hbc⟩ := State.abandon_graph (c := d) (rm := rm) (rp := rp) hz
    exact ⟨_, b, hb, rfl, by rw [hbc, hza]; simp [hc]⟩
  · exact ⟨z, a, by rw [State.abandon_other hh, hz], hza, hc⟩

theorem State.abandonAll_for {gs : List Nat} {c : Nat} {rm rp : List Nat} (h : ∀ g ∈ gs, (s.graph? g).isSome = true) :
    ∀ g ∈ gs, (gs.foldl (fun s g => s.abandon g c rm rp) s).AbandonedFor c g := by
  induction gs generalizing s with
  | nil => exact fun g hg => absurd hg List.not_mem_nil
  | cons x gs ih =>
    rw [List.foldl_cons]
    intro g hg
    by_cases hm : g ∈ gs
    · exact ih (fun g hg => by rw [State.abandon_isSome]; exact h g (List.mem_cons_of_mem x hg)) g hm
    · have hx : g = x := (List.mem_cons.1 hg).resolve_right hm
      subst hx
      exact List.foldlRecOn (motive := fun t : State => t.AbandonedFor c g) gs _ (State.abandon_for (h g hg)) fun t ht _ _ => ht.abandon

/-! ### The tiles' return -/

theorem Tile.resume_eq (x : Tile) : x.resume = { x with
    tarn := x.resume.tarn, patrolBack := x.resume.patrolBack, clearing := x.resume.clearing } := by
  unfold Tile.resume
  split <;> rfl

theorem Tile.resume_bound {x : Tile} {g v : Nat} (h : x.use = .bound g v) : x.resume = { x.clear with clearing := true } := by
  rw [Tile.resume, h]

/-- A tile asked on leaves everything but stagings. -/
theorem State.turnTileOn_onlyStagings (i : Nat) : s.OnlyStagings (s.turnTileOn i) := by
  have ask (d : Nat) (off : Bool) (v : State) : v.OnlyStagings (if off then v.askDomain d true else v) := by
    split
    · exact State.askDomain_onlyStagings d true
    · exact .refl v
  unfold State.turnTileOn
  dsimp only
  split
  · exact .refl s
  · exact ((ask _ _ s).trans (ask _ _ _)).trans (ask _ _ _)

/-- A domain asked on where it is off. -/
def State.askOn (s : State) (d : Nat) (off : Bool) : State := if off then s.askDomain d true else s

theorem State.askOn_onlyStagings (d : Nat) (off : Bool) : s.OnlyStagings (s.askOn d off) := by
  unfold State.askOn
  split
  · exact State.askDomain_onlyStagings d true
  · exact .refl s

theorem State.askOn_mono {d e : Nat} {off on : Bool} (h : s.hasStaging e on = true) : (s.askOn d off).hasStaging e on = true := by
  unfold State.askOn
  split
  · exact State.askDomain_hasStaging.2 (.inl h)
  · exact h

theorem State.askOn_asks {d : Nat} {off : Bool} (ho : off = true) (hl : d ∉ s.power.lost) : (s.askOn d off).hasStaging d true = true := by
  rw [State.askOn, if_pos ho]
  exact State.askDomain_hasStaging.2 (.inr ⟨rfl, rfl, fun h => hl h.2⟩)

theorem State.turnTileOn_eq {i : Nat} (h : s.power.halted = false) : s.turnTileOn i =
    ((s.askOn (i + 320) ((s.tile i).tarnPower != .active)).askOn i (!(s.tile i).on)).askOn (640 + i / 16)
      (!Tab.get false s.planes.routerOn (i / 16)) := by
  rw [State.turnTileOn, if_neg (by simp [h])]
  rfl

theorem State.turnTileOn_mono {i e : Nat} {on : Bool} (h : s.hasStaging e on = true) : (s.turnTileOn i).hasStaging e on = true := by
  cases hh : s.power.halted
  · rw [State.turnTileOn_eq hh]
    exact State.askOn_mono (State.askOn_mono (State.askOn_mono h))
  · rw [State.turnTileOn, if_pos hh]
    exact h

/-- The domains of a tile that are off and not lost are asked on. -/
theorem State.turnTileOn_asks {i : Nat} (h : s.power.halted = false) :
    ((s.tile i).on = false → i ∉ s.power.lost → (s.turnTileOn i).hasStaging i true = true) ∧
    ((s.tile i).tarnPower ≠ .active → 320 + i ∉ s.power.lost → (s.turnTileOn i).hasStaging (320 + i) true = true) := by
  rw [State.turnTileOn_eq h]
  refine ⟨fun ho hl => State.askOn_mono (State.askOn_asks (by simp [ho]) ?_), fun hp hl => State.askOn_mono (State.askOn_mono ?_)⟩
  · rw [(State.askOn_onlyStagings _ _).lost]; exact hl
  · rw [Nat.add_comm 320 i] at hl ⊢
    exact State.askOn_asks (by simp [hp]) hl

/-- A tile's part in the end of a thermal halt (R413). -/
def State.resumeTile (s : State) (i : Nat) : State := if (s.tile i).inUse then (s.updTile i (·.resume)).turnTileOn i else s

/-- What the end of a halt changes: stagings, and the tiles in use. -/
theorem State.resumeTile_onlyTiles (i : Nat) : s.OnlyTiles (fun j => j = i ∧ (s.tile i).inUse = true) (s.resumeTile i) := by
  unfold State.resumeTile
  split
  · next h =>
    exact ((State.updTile_onlyTiles i _).trans (State.turnTileOn_onlyStagings i).onlyTiles).mono fun j hj => ⟨hj, h⟩
  · exact .refl s

theorem State.resumeTile_mem (i : Nat) : (s.resumeTile i).mem = s.mem ∧ (s.resumeTile i).graphs = s.graphs ∧
    (s.resumeTile i).power.halted = s.power.halted := by
  unfold State.resumeTile
  split
  · obtain ⟨⟨_, _, _, _, h⟩, -⟩ := State.turnTileOn_onlyStagings (s := s.updTile i (·.resume)) i
    rw [h]
    exact ⟨rfl, rfl, rfl⟩
  · exact ⟨rfl, rfl, rfl⟩

theorem State.resumeTile_mono {i e : Nat} {on : Bool} (h : s.hasStaging e on = true) : (s.resumeTile i).hasStaging e on = true := by
  unfold State.resumeTile
  split
  · exact State.turnTileOn_mono h
  · exact h

/-- What the end of a halt has made of a bound tile. -/
def State.Resumed (s t : State) (i : Nat) : Prop :=
  (t.tile i).clearing = true ∧ (t.tile i).tarn = [] ∧
    ((s.tile i).on = false → i ∉ s.power.lost → t.hasStaging i true = true) ∧
    ((s.tile i).tarnPower ≠ .active → 320 + i ∉ s.power.lost → t.hasStaging (320 + i) true = true)

theorem State.resumeTile_resumed {i g v : Nat} (hb : (s.tile i).use = .bound g v) (hf : (s.tile i).fenced = false)
    (hh : s.power.halted = false) : s.Resumed (s.resumeTile i) i := by
  rw [State.resumeTile, if_pos (by simp [Tile.inUse, hb, hf])]
  obtain ⟨h1, h2⟩ := State.turnTileOn_asks (s := s.updTile i (·.resume)) (i := i) hh
  have ht : (s.updTile i (·.resume)).tile i = { (s.tile i).clear with clearing := true } := by
    rw [State.updTile_tile, if_pos rfl, Tile.resume_bound hb]
  rw [ht] at h1 h2
  refine ⟨?_, ?_, h1, h2⟩ <;> rw [(State.turnTileOn_onlyStagings i).tile, ht] <;> rfl

/-- The tiles resumed one after another. -/
theorem State.resumeTiles_range (hh : s.power.halted = false) (n : Nat) :
    (∀ i < n, ∀ g v, (s.tile i).use = .bound g v → (s.tile i).fenced = false → s.Resumed ((List.range n).foldl State.resumeTile s) i) ∧
    (∀ i, (n ≤ i ∨ (s.tile i).use = .free) → ((List.range n).foldl State.resumeTile s).tile i = s.tile i) ∧
    ((List.range n).foldl State.resumeTile s).mem = s.mem ∧ ((List.range n).foldl State.resumeTile s).graphs = s.graphs ∧
    ((List.range n).foldl State.resumeTile s).power.halted = s.power.halted ∧
    ((List.range n).foldl State.resumeTile s).power.lost = s.power.lost := by
  induction n with
  | zero => exact ⟨fun i hi => absurd hi (by omega), fun _ _ => rfl, rfl, rfl, rfl, rfl⟩
  | succ n ih =>
    rw [List.range_succ, List.foldl_append, List.foldl_cons, List.foldl_nil]
    generalize (List.range n).foldl State.resumeTile s = v at ih ⊢
    obtain ⟨hr, ht, hm, hg, hv, hl⟩ := ih
    obtain ⟨hm', hg', hv'⟩ := State.resumeTile_mem (s := v) n
    have ho := State.resumeTile_onlyTiles (s := v) n
    have hn := ht n (.inl (Nat.le_refl n))
    refine ⟨fun i hi g w hb hf => ?_, fun i hi => ?_, hm'.trans hm, hg'.trans hg, hv'.trans hv, ho.lost.trans hl⟩
    · by_cases hin : i = n
      · subst hin
        have h := State.resumeTile_resumed (s := v) (i := i) (g := g) (v := w) (by rw [hn, hb]) (by rw [hn, hf]) (by rw [hv, hh])
        rw [State.Resumed, hn, hl] at h
        exact h
      · obtain ⟨h1, h2, h3, h4⟩ := hr i (by omega) g w hb hf
        refine ⟨?_, ?_, fun a b => State.resumeTile_mono (h3 a b), fun a b => State.resumeTile_mono (h4 a b)⟩ <;>
          rw [ho.tile (fun h => hin h.1)] <;> assumption
    · rw [ho.tile, ht i (hi.imp (by omega) id)]
      rintro ⟨rfl, hu⟩
      rw [hn] at hu
      refine hi.elim (by omega) fun hfree => ?_
      simp [Tile.inUse, hfree] at hu

/-! ### The rows -/

section rows
variable {celsius island : Nat}

/-- The module after the set point's step for heat. -/
def State.stepped (s : State) (n : Nat) : State :=
  { s.advanceTo n with power := { (s.advanceTo n).power with
    setMhz := max 900 ((s.advanceTo n).power.setMhz - 10), lastThermal := (s.advanceTo n).cairn } }

theorem State.thermalStep_exec {hot : Bool} (hi : island < 368) (hm : s.managed = true) (hh : hot = true ∨ islandLimit island < celsius)
    (hs : s.stressed island = false) : exec (.thermalStep celsius island hot) s = .next ((s.stepped (s.power.lastThermal + 1000000)).limitHeat celsius island) := by
  show execThermalStep celsius island hot s = _
  rw [execThermalStep, onUnit, if_pos (by simpa using hi), if_neg (by simpa [hm, hs] using fun h => hh.resolve_left (by simp [h]))]
  rfl

theorem State.thermalStep_exec_stressed {hot : Bool} (hi : island < 368) (hs : s.stressed island = true) :
    exec (.thermalStep celsius island hot) s = .next s := by
  show execThermalStep celsius island hot s = _
  rw [execThermalStep, onUnit, if_pos (by simpa using hi), if_pos (by simp [hs])]

/-- The module as a thermal halt finds it, its event raised. -/
def State.overheated (s : State) (celsius island : Nat) : State := ((s.limitHeat celsius island).alert 1).raise 0x170B celsius island 0

/-- The on-demand slice that runs ends. -/
def State.sliceEnded (s : State) : State := if s.monitor.testing.isSome then s.preemptSlice else s

theorem State.sliceEnded_graphs : s.sliceEnded.graphs = s.graphs := by
  unfold State.sliceEnded
  split
  · exact State.preemptSlice_graphs
  · rfl

/-- What the tiles' work ends as before the tiles halt. -/
def State.workEnded (s : State) : State :=
  let v := (s.graphIds.foldl (fun s g => s.abandon g 6 [] []) s).endSessions.sliceEnded
  { v with power := { v.power with halted := true } }

theorem State.workEnded_graphs : s.workEnded.graphs = (s.graphIds.foldl (fun s g => s.abandon g 6 [] []) s).graphs := by
  unfold State.workEnded
  dsimp only
  rw [State.sliceEnded_graphs, State.endSessions_graphs]

theorem State.thermalHalt_exec (hi : island < 356) (hm : s.managed = true) (hc : 115 < celsius) (hh : s.power.halted = false) :
    exec (.thermalHalt celsius island) s = .next ((List.range 320).foldl State.haltTile (s.overheated celsius island).workEnded) := by
  show execThermalHalt celsius island s = _
  rw [execThermalHalt, onUnit, if_pos (by simp; omega), if_neg (by simp [hm, hh]; omega)]
  unfold State.workEnded State.sliceEnded State.overheated
  rfl

theorem State.overheated_graphs : (s.overheated celsius island).graphs = s.graphs := by
  rw [State.overheated, State.raise_graphs]
  obtain ⟨_, _, _, h⟩ := State.limitHeat_frame (s := s) celsius island
  rw [h]
  rfl

/-- The module at the end of a thermal halt, its event raised. -/
def State.cooled (s : State) (celsius island : Nat) : State :=
  ({ s with power := { s.power with halted := false } } : State).raise 0x170C celsius island 0

theorem State.thermalResume_exec (hi : island < 368) (hm : s.managed = true) (hc : celsius < 95) (hh : s.power.halted = true) :
    exec (.thermalResume celsius island) s = .next ((List.range 320).foldl State.resumeTile (s.cooled celsius island)) := by
  show execThermalResume celsius island s = _
  rw [execThermalResume, onUnit, if_pos (by simpa using hi), if_neg (by simp [hm, hh]; omega)]
  rfl

end rows

/-- A hot sensor moves the set point down, and raises its event once. -/
theorem State.stepped_limitHeat (n celsius island : Nat) : ∃ t, t = (s.stepped n).limitHeat celsius island ∧
    t.power.setMhz = max 900 (s.power.setMhz - 10) ∧ t.power.limThermal = true ∧ t.power.lastThermal = t.cairn ∧
    t = { s with cairn := t.cairn, power := t.power, mgmt := t.mgmt, ledger := t.ledger, host := t.host } := by
  obtain ⟨_, _, _, h⟩ := State.limitHeat_frame (s := s.stepped n) celsius island
  exact ⟨_, h.symm, rfl, rfl, rfl, rfl⟩

/-- Every graph bound at a halt is abandoned for it. -/
theorem State.workEnded_for {celsius island g : Nat} {y : Graph} (hg : g < 8) (hy : s.graph? g = some y) :
    (s.overheated celsius island).workEnded.AbandonedFor 6 g := by
  have hs : (s.overheated celsius island).graph? g = some y := by rw [State.graph?, State.overheated_graphs]; exact hy
  have h := State.abandonAll_for (s := s.overheated celsius island) (gs := (s.overheated celsius island).graphIds) (c := 6) (rm := []) (rp := [])
    (fun g hg => (List.mem_filter.1 hg).2) g (List.mem_filter.2 ⟨List.mem_range.2 hg, by rw [hs]; rfl⟩)
  rw [State.AbandonedFor, State.graph?, ← State.workEnded_graphs] at h
  exact h

theorem State.cooled_frame (celsius island : Nat) : ∃ hs l, s.cooled celsius island =
    { s with power := { s.power with halted := false }, host := hs, ledger := l } := by
  obtain ⟨_, h⟩ := State.raise_only (s := { s with power := { s.power with halted := false } }) 0x170C celsius island 0
  exact ⟨_, _, h⟩

theorem State.workEnded_halted : s.workEnded.power.halted = true := rfl

/-- Settles O16: every tile is halted, or resumed, by itself, and a graph abandoned keeps its cause. -/
theorem thermalRows : Obligations.ThermalRows := by
  unfold Obligations.ThermalRows
  intro s hon hf
  have hm := State.managed_of hon hf
  refine ⟨fun celsius island hot hi hh => ⟨State.thermalStep_exec_stressed hi, fun hs => ?_⟩, fun celsius island hi hc hh => ?_,
    fun celsius island hi hc hh => ?_⟩
  · obtain ⟨t, ht, h⟩ := State.stepped_limitHeat (s := s) (s.power.lastThermal + 1000000) celsius island
    exact ⟨t, by rw [ht]; exact State.thermalStep_exec hi hm hh hs, h⟩
  · obtain ⟨ht, hg, hp⟩ := State.haltTiles_range (s := (s.overheated celsius island).workEnded) 320
    refine ⟨_, State.thermalHalt_exec hi hm hc hh, ?_⟩
    generalize (List.range 320).foldl State.haltTile _ = t at ht hg hp ⊢
    refine ⟨hp.trans State.workEnded_halted, fun i hi => (ht i hi).1, fun i hi => ⟨(ht i hi).2.1, (ht i hi).2.2.1⟩,
      fun i hi => (ht i hi).2.2.2, fun g y hg8 hy => ?_⟩
    have := State.workEnded_for (celsius := celsius) (island := island) hg8 hy
    rwa [State.AbandonedFor, State.graph?, ← hg] at this
  · obtain ⟨_, _, hs⟩ := s.cooled_frame celsius island
    refine ⟨_, State.thermalResume_exec hi hm hc hh, ?_⟩
    obtain ⟨hr, ht, hm, hg, hv, -⟩ := State.resumeTiles_range (s := s.cooled celsius island) (by rw [hs]) 320
    generalize (List.range 320).foldl State.resumeTile _ = t at hr ht hm hg hv ⊢
    rw [hs] at hr ht hm hg hv
    exact ⟨hv, hr, fun i _ hu => ht i (.inr hu), hg, hm⟩

end Sys2Proof.Machine
end

section
/-! PROOF. Clocks and loops (R264, R401, R415 to R418, R421 to R424): what a stretched period adds to the Saddles of an island, and the
values that loops move and the ledger saves. -/

namespace Sys2Proof.Machine

variable {s t u : State}

/-! ### Stretches in step -/

/-- Islands in step are never lost from the list, nor those whose budget is spent. -/
theorem State.inStep_mono (n : Nat) : ∀ done short : List Nat,
    done ⊆ (s.inStep n done short).1 ∧ short ⊆ (s.inStep n done short).2 := by
  induction n with
  | zero => exact fun done short => ⟨fun _ h => h, fun _ h => h⟩
  | succ n ih =>
    intro done short
    unfold State.inStep
    dsimp only
    split
    · exact ⟨fun _ h => h, fun _ h => h⟩
    · exact ⟨fun _ h => (ih _ _).1 (List.mem_append_left _ h), fun _ h => (ih _ _).2 (List.mem_append_left _ h)⟩

theorem State.saddleMates_lt {i j : Nat} (h : j ∈ s.saddleMates i) : j < 368 := List.mem_range.1 (List.mem_filter.1 h).1

/-- Every island found in step is one of the 368. -/
theorem State.inStep_lt (n : Nat) : ∀ done short : List Nat, (∀ i ∈ done, i < 368) → ∀ i ∈ (s.inStep n done short).1, i < 368 := by
  induction n with
  | zero => exact fun done short h => h
  | succ n ih =>
    intro done short h
    unfold State.inStep
    dsimp only
    split
    · exact h
    · refine ih _ _ fun i hi => ?_
      obtain hi | hi := List.mem_append.1 hi
      · exact h i hi
      · obtain ⟨k, -, hk⟩ := List.mem_flatMap.1 (List.mem_dedup.1 (List.mem_filter.1 hi).1)
        exact State.saddleMates_lt (List.mem_filter.1 hk).1

/-- A neighbour that another quarter would take too far stretches in step, where its budget allows it (R418). -/
theorem State.mem_inStep {n i j : Nat} (hj : j ∈ s.saddleMates i) (hij : j ≠ i) (h16 : 16 ≤ (s.apartOf i j).length)
    (hs : (s.inStep (n + 1) [i] []).2 = []) : j ∈ (s.inStep (n + 1) [i] []).1 := by
  have hn : j ∈ ([i].flatMap fun i' => (s.saddleMates i').filter fun j =>
      !([i] : List Nat).contains j && !([] : List Nat).contains j && 16 ≤ (s.apartOf i' j).length).dedup := by
    simp [List.mem_filter, hj, hij, h16]
  unfold State.inStep at hs ⊢
  dsimp only at hs ⊢
  generalize ([i].flatMap fun i' => (s.saddleMates i').filter fun j =>
    !([i] : List Nat).contains j && !([] : List Nat).contains j && 16 ≤ (s.apartOf i' j).length).dedup = new at hn hs ⊢
  have he : new.isEmpty = false := by
    cases new with
    | nil => exact absurd hn List.not_mem_nil
    | cons => rfl
  rw [if_neg (by simp [he])] at hs ⊢
  obtain ⟨h1, h2⟩ := State.inStep_mono (s := s) n ([i] ++ new.filter fun j => (s.stretchOf j).length < 16)
    ([] ++ new.filter fun j => 16 ≤ (s.stretchOf j).length)
  rw [hs] at h2
  refine h1 (List.mem_append_right _ (List.mem_filter.2 ⟨hn, ?_⟩))
  by_contra hc
  exact List.not_mem_nil (h2 (List.mem_append_right _ (List.mem_filter.2 ⟨hn, by simpa using hc⟩)))

/-- A Saddle's number names its two islands. -/
theorem saddleNo_eq {a b c d : Nat} (ha : a < 368) (hb : b < 368) (hc : c < 368) (hd : d < 368) (h : saddleNo a b = saddleNo c d) :
    a = c ∧ b = d ∨ a = d ∧ b = c := by
  unfold saddleNo at h
  omega

section stretch
variable {is : List Nat} {i j : Nat}

theorem State.stretchAll_stretch (hi : i ∈ is) : Tab.get [] (s.stretchAll is).power.stretch i = s.stretchOf i ++ [s.cairn] := by
  show Tab.get [] (is.foldl (fun t i => Tab.put [] i (s.stretchOf i ++ [s.cairn]) t) s.power.stretch) i = _
  induction is using List.reverseRecOn with
  | nil => exact absurd hi List.not_mem_nil
  | append_singleton is x ih =>
    rw [List.foldl_append, List.foldl_cons, List.foldl_nil, Tab.get_put]
    split
    · next h => rw [h]
    · next h =>
      obtain hm | hm := List.mem_append.1 hi
      · exact ih hm
      · exact absurd (List.mem_singleton.1 hm) h

/-- The quarters that one island's stretch adds to its Saddles. -/
def State.apartFrom (s : State) (is : List Nat) (t : Tab (List Nat)) (i : Nat) : Tab (List Nat) :=
  ((s.saddleMates i).filter fun j => !is.contains j).foldl (fun t j => Tab.put [] (saddleNo i j) (s.apartOf i j ++ [s.cairn]) t) t

theorem State.apartOf_comm (i j : Nat) : s.apartOf i j = s.apartOf j i := by
  rw [State.apartOf, State.apartOf, Nat.max_comm, saddleNo, saddleNo, Nat.min_comm, Nat.max_comm j i]

/-- A Saddle of two islands keeps its quarters, or has one quarter more where one of the two stretches alone. -/
theorem State.get_apartFrom {x : Nat} {tb : Tab (List Nat)} (hx : x < 368) (hxm : x ∈ is) (hi : i < 368) (hj : j < 368) :
    Tab.get [] (s.apartFrom is tb x) (saddleNo i j) = Tab.get [] tb (saddleNo i j) ∨
      Tab.get [] (s.apartFrom is tb x) (saddleNo i j) = s.apartOf i j ++ [s.cairn] ∧ ¬(i ∈ is ∧ j ∈ is) := by
  refine List.foldlRecOn (motive := fun t' : Tab (List Nat) => Tab.get [] t' (saddleNo i j) = Tab.get [] tb (saddleNo i j) ∨
      Tab.get [] t' (saddleNo i j) = s.apartOf i j ++ [s.cairn] ∧ ¬(i ∈ is ∧ j ∈ is)) _ _ (.inl rfl) fun t' ht k hk => ?_
  obtain ⟨hkm, hkn⟩ := List.mem_filter.1 hk
  have hkn : k ∉ is := by simpa using hkn
  rw [Tab.get_put]
  split
  · next h =>
    obtain ⟨rfl, rfl⟩ | ⟨rfl, rfl⟩ := saddleNo_eq hi hj hx (State.saddleMates_lt hkm) h
    · exact .inr ⟨rfl, fun h => hkn h.2⟩
    · exact .inr ⟨by rw [State.apartOf_comm], fun h => hkn h.1⟩
  · exact ht

theorem State.get_apart (his : ∀ x ∈ is, x < 368) (hi : i < 368) (hj : j < 368) :
    Tab.get [] (s.stretchAll is).power.apart (saddleNo i j) = Tab.get [] s.power.apart (saddleNo i j) ∨
      Tab.get [] (s.stretchAll is).power.apart (saddleNo i j) = s.apartOf i j ++ [s.cairn] ∧ ¬(i ∈ is ∧ j ∈ is) := by
  refine List.foldlRecOn (motive := fun t' : Tab (List Nat) => Tab.get [] t' (saddleNo i j) = Tab.get [] s.power.apart (saddleNo i j) ∨
      Tab.get [] t' (saddleNo i j) = s.apartOf i j ++ [s.cairn] ∧ ¬(i ∈ is ∧ j ∈ is)) is (s.apartFrom is) (.inl rfl) fun t' ht x hx => ?_
  obtain h | h := State.get_apartFrom (s := s) (tb := t') (his x hx) hx hi hj
  · rw [h]; exact ht
  · exact .inr h

theorem State.apartOf_stretchAll (i j : Nat) : (s.stretchAll is).apartOf i j =
    s.quarters (max (islandKhz s i) (islandKhz s j)) (Tab.get [] (s.stretchAll is).power.apart (saddleNo i j)) := rfl

theorem State.quarters_quarters_le (khz : Nat) (xs : List Nat) (x : Nat) :
    (s.quarters khz (s.quarters khz xs ++ [x])).length ≤ (s.quarters khz xs).length + 1 :=
  (List.length_filter_le _ _).trans (by rw [List.length_append]; rfl)

/-- The Saddles of the islands that stretch stay within 16 quarters, where all neighbours at 16 stretch with them. -/
theorem State.apartOf_le (his : ∀ x ∈ is, x < 368) (hi : i ∈ is) (hj : j < 368) (hstep : 16 ≤ (s.apartOf i j).length → j ∈ is)
    (hle : (s.apartOf i j).length ≤ 16) : ((s.stretchAll is).apartOf i j).length ≤ 16 := by
  rw [State.apartOf_stretchAll]
  obtain h | ⟨h, hn⟩ := State.get_apart (s := s) his (his i hi) hj
  · rw [h]; exact hle
  · have hlt : (s.apartOf i j).length < 16 := by
      by_contra hc
      exact hn ⟨hi, hstep (by omega)⟩
    rw [h]
    exact (State.quarters_quarters_le _ _ _).trans hlt

theorem State.stretchAll_frame : s.stretchAll is = { s with power := { s.power with
    stretch := (s.stretchAll is).power.stretch, apart := (s.stretchAll is).power.apart } } := rfl

end stretch

/-! ### Rows -/

section rows
variable (hm : s.managed = true)
include hm

theorem State.clockRefLost_exec (h : s.power.refHoldover = false) : exec .clockRefLost s =
    .next (({ s with power := { s.power with refHoldover := true } } : State).raise 0x170E s.cairn 0 0) := by
  show execClockRefLost s = _
  rw [execClockRefLost, if_neg (by simp [hm, h])]

theorem State.clockRefRestored_exec (h : s.power.refHoldover = true) : exec .clockRefRestored s =
    .next (({ s with power := { s.power with refHoldover := false } } : State).raise 0x170F s.cairn 0 0) := by
  show execClockRefRestored s = _
  rw [execClockRefRestored, if_neg (by simp [hm, h])]

section droop
variable {i : Nat} (hi : i < 368) (hon : s.islandOn i = true)
include hi hon

theorem State.droopStretch_spent (h : 16 ≤ (s.stretchOf i).length) : exec (.droopStretch i) s = .next (s.raise 0x170D 0 i 0) := by
  show execDroopStretch i s = _
  rw [execDroopStretch, onUnit, if_pos (by simpa using hi), if_neg (by simp [hm, hon]), if_pos h]

theorem State.droopStretch_short (h : (s.stretchOf i).length < 16) (hs : (s.inStep 368 [i] []).2 ≠ []) :
    exec (.droopStretch i) s = .next (s.raiseAll ((s.inStep 368 [i] []).2.map fun j => ⟨0x170D, 0, j, 0⟩)) := by
  show execDroopStretch i s = _
  rw [execDroopStretch, onUnit, if_pos (by simpa using hi), if_neg (by simp [hm, hon]), if_neg (by omega)]
  dsimp only
  rw [if_neg (by simpa using hs)]

theorem State.droopStretch_all (h : (s.stretchOf i).length < 16) (hs : (s.inStep 368 [i] []).2 = []) :
    exec (.droopStretch i) s = .next (s.stretchAll (s.inStep 368 [i] []).1) := by
  show execDroopStretch i s = _
  rw [execDroopStretch, onUnit, if_pos (by simpa using hi), if_neg (by simp [hm, hon]), if_neg (by omega)]
  dsimp only
  rw [if_pos (by simp [hs])]

end droop

/-- The module with a trim moved. -/
def State.trimmed (s : State) (dom : Nat) (steps : Int) : State :=
  { s with power := { s.power with trims := Tab.put 16 dom (max (-16) (min 32 (s.trimOf dom + steps))) s.power.trims } }

/-- A tile that no ceiling caps. -/
def Tile.uncapped (x : Tile) (failed : Bool) : Tile := if x.ceilingCap then { x with ceilingCap := false, capped := failed } else x

omit hm in
theorem Tile.uncapped_cap (x : Tile) (b : Bool) : (x.uncapped b).ceilingCap = false := by
  unfold Tile.uncapped
  split
  · rfl
  · next h => simpa using h

theorem State.voltageLoop_exec {dom : Nat} {steps : Int} (hd : dom < 320 ∨ 640 ≤ dom ∧ dom < 660)
    (hc : overCeiling (s.power.setMhz * 1000) (s.trimOf dom + steps) = false) : exec (.voltageLoop dom steps) s = .next
      (if 320 ≤ dom then s.trimmed dom steps
       else (s.trimmed dom steps).updTile dom fun x => x.uncapped (2 ≤ (s.trimmed dom steps).failedPhases dom)) := by
  show execVoltageLoop dom steps s = _
  rw [execVoltageLoop, onUnit, if_pos (by simp; omega), if_neg (by simp [hm]; omega)]
  dsimp only
  rw [hc]
  rfl

end rows

/-- A trim within the ceiling moves, and takes the ceiling's cap off its tile. -/
theorem State.voltageLoop_row {dom : Nat} {steps : Int} (hm : s.managed = true) (hd : dom < 320 ∨ 640 ≤ dom ∧ dom < 660)
    (hc : overCeiling (s.power.setMhz * 1000) (s.trimOf dom + steps) = false) :
    ∃ t, exec (.voltageLoop dom steps) s = .next t ∧ t = { s with power := t.power, tiles := t.tiles } ∧
      t.power = (s.trimmed dom steps).power ∧ (∀ i, i ≠ dom → t.tile i = s.tile i) ∧ (dom < 320 → (t.tile dom).ceilingCap = false) := by
  refine ⟨_, State.voltageLoop_exec hm hd hc, ?_⟩
  split
  · next h => exact ⟨rfl, rfl, fun _ _ => rfl, fun h' => absurd h' (by omega)⟩
  · refine ⟨rfl, rfl, fun i hi => ?_, fun _ => ?_⟩
    · rw [State.updTile_tile, if_neg hi]; rfl
    · rw [State.updTile_tile, if_pos rfl]; exact Tile.uncapped_cap _ _

theorem State.equalisation_exec {p taps : Nat} (hp : p < 6) (hu : (s.port p).state = .up) :
    exec (.filzorEqualisationUpdate p taps) s = .next (s.updPort p fun x => { x with taps := taps }) := by
  show execFilzorEqualisationUpdate p taps s none = _
  rw [execFilzorEqualisationUpdate, onUnit, if_pos (by simpa using hp), if_pos (by rw [hu]; rfl)]
  rfl

theorem State.hbmTraining_exec {sg vals : Nat} (hs : sg < 16) (hi : s.inService = true) : exec (.hbmTrainingUpdate sg vals) s =
    .next { s with power := { s.power with hbmTrain := Tab.put 0 sg vals s.power.hbmTrain } } := by
  show execHbmTrainingUpdate sg vals s true = _
  rw [execHbmTrainingUpdate, onUnit, if_pos (by simpa using hs), if_neg (by simp [hi]), if_pos rfl]

/-- The module at the instant of a save, with its operating hours. -/
def State.atSave (s : State) (n : Nat) : State :=
  { s.advanceTo n with ledger := { (s.advanceTo n).ledger with hours := (s.advanceTo n).ledger.hours + 24, lastSave := (s.advanceTo n).cairn } }

theorem State.trainingSave_exec (hf : s.fw.running = true) (hc : s.cairnOn = true) :
    exec .trainingSave s = .next (s.atSave (s.ledger.lastSave + 86400000000000)).saveTraining := by
  show execTrainingSave s = _
  rw [execTrainingSave, if_neg (by simp [hf, hc])]
  rfl

theorem State.saveTraining_frame : ∃ xs, s.saveTraining = { s with ledger := { s.ledger with training := xs } } ∧
    ∀ d v, (d, v) ∈ s.power.trims → s.savedSet 6 d (v + 16).toNat 0 ∈ xs :=
  ⟨_, rfl, fun _ _ h => List.mem_append_right _ (List.mem_map_of_mem (f := fun e => s.savedSet 6 e.1 (e.2 + 16).toNat 0) h)⟩

/-- A save: the hours have run, and every trim stands in the ledger with its sum. -/
theorem State.atSave_row (n : Nat) : ∃ t, (s.atSave n).saveTraining = t ∧ t.ledger.hours = s.ledger.hours + 24 ∧
    t.ledger.lastSave = t.cairn ∧ (∀ d v, (d, v) ∈ s.power.trims → ∃ e ∈ t.ledger.training,
      e.kind = 6 ∧ e.part = d ∧ e.value = (v + 16).toNat ∧ e.hours = t.ledger.hours ∧ e.crc = e.sum) ∧
    t = { s with cairn := t.cairn, ledger := t.ledger } := by
  obtain ⟨xs, h, hx⟩ := State.saveTraining_frame (s := s.atSave n)
  exact ⟨_, h, rfl, rfl, fun d v hd => ⟨_, hx d v hd, rfl, rfl, rfl, rfl, rfl⟩, rfl⟩

/-- A report with what it changes, and the events it adds. -/
theorem State.raise_row (c x y z : Nat) : ∃ t, s.raise c x y z = t ∧ t.power = s.power ∧
    t.ledger.events = s.ledger.events ++ [(s.cairn, ⟨c, x, y, z⟩)] ∧ t = { s with ledger := t.ledger, host := t.host } := by
  obtain ⟨_, h⟩ := State.raise_only (s := s) c x y z
  exact ⟨_, h, rfl, rfl, rfl⟩

/-- Settles O17: an island stretches with every neighbour that would drift too far, and the loops move one value each. -/
theorem clockAndLoopRows : Obligations.ClockAndLoopRows := by
  unfold Obligations.ClockAndLoopRows
  intro s hon hf
  have hm := State.managed_of hon hf
  refine ⟨fun h => ?_, fun h => ?_, fun i hi ho => ⟨State.droopStretch_spent hm hi ho, fun hl hs => ?_, fun hl hs => ?_⟩,
    fun dom steps hd hc => State.voltageLoop_row hm hd hc, fun p taps hp hu => ?_, fun sg vals hs hi => State.hbmTraining_exec hs hi,
    fun hc => ?_⟩
  · obtain ⟨t, ht, hp, he, hfr⟩ := State.raise_row (s := { s with power := { s.power with refHoldover := true } }) 0x170E s.cairn 0 0
    exact ⟨t, (State.clockRefLost_exec hm h).trans (congrArg _ ht), hp, he, by rw [hfr]⟩
  · obtain ⟨t, ht, hp, he, hfr⟩ := State.raise_row (s := { s with power := { s.power with refHoldover := false } }) 0x170F s.cairn 0 0
    exact ⟨t, (State.clockRefRestored_exec hm h).trans (congrArg _ ht), hp, he, by rw [hfr]⟩
  · obtain ⟨_, _, h⟩ := State.raiseAll_only (s := s) ((s.inStep 368 [i] []).2.map fun j => ⟨0x170D, 0, j, 0⟩)
    exact ⟨_, State.droopStretch_short hm hi ho hl hs, by rw [h]⟩
  · have his := State.inStep_lt (s := s) 368 [i] [] (by simpa using hi)
    have hin : i ∈ (s.inStep 368 [i] []).1 := (State.inStep_mono (s := s) 368 [i] []).1 List.mem_cons_self
    refine ⟨_, State.droopStretch_all hm hi ho hl hs, State.stretchAll_stretch hin, fun j hj hle => ?_, State.stretchAll_frame⟩
    refine State.apartOf_le his hin (State.saddleMates_lt hj) (fun h16 => ?_) hle
    by_cases hij : j = i
    · rw [hij]; exact hin
    · exact State.mem_inStep hj hij h16 hs
  · refine ⟨_, State.equalisation_exec hp hu, ?_, fun q hq => ?_, rfl⟩
    · rw [State.updPort_port, if_pos rfl]
    · rw [State.updPort_port, if_neg hq]
  · obtain ⟨t, ht, h⟩ := State.atSave_row (s := s) (s.ledger.lastSave + 86400000000000)
    exact ⟨t, (State.trainingSave_exec hf hc).trans (congrArg _ ht), h⟩

end Sys2Proof.Machine
end

section
/-! PROOF. The cold start (R399, R425 to R436, R467): what tests find, what the phases of a start change, and how the last of them ends
it. -/

namespace Sys2Proof.Machine

variable {s t u : State}

/-! ### Steps one after another -/

/-- What every step of a fold keeps, the fold keeps. -/
theorem foldl_steps {α : Type} {R : State → State → Prop} {f : State → α → State} (hr : ∀ s, R s s) (ht : ∀ s t u, R s t → R t u → R s u)
    (hf : ∀ s a, R s (f s a)) (l : List α) (s : State) : R s (l.foldl f s) :=
  List.foldlRecOn (motive := fun t => R s t) l f (hr s) fun t h a _ => ht s t _ h (hf t a)

/-! ### Findings of tests -/

/-- The ledger and the notes of the tests have changed, and nothing else. -/
def State.Found (s t : State) : Prop := ∃ l x, t = { s with ledger := l, selfTest := x }

theorem State.Found.refl (s : State) : s.Found s := ⟨_, _, rfl⟩

theorem State.Found.trans (h : s.Found t) (h' : t.Found u) : s.Found u := by
  obtain ⟨_, _, rfl⟩ := h
  obtain ⟨_, _, rfl⟩ := h'
  exact ⟨_, _, rfl⟩

/-- The ledger and the parts that failed have changed, and nothing else. -/
def State.FoundParts (s t : State) : Prop := ∃ l x, t = { s with ledger := l, selfTest := { s.selfTest with failed := x } }

theorem State.FoundParts.refl (s : State) : s.FoundParts s := ⟨_, _, rfl⟩

theorem State.FoundParts.trans (h : s.FoundParts t) (h' : t.FoundParts u) : s.FoundParts u := by
  obtain ⟨_, _, rfl⟩ := h
  obtain ⟨_, _, rfl⟩ := h'
  exact ⟨_, _, rfl⟩

theorem State.FoundParts.found (h : s.FoundParts t) : s.Found t := by
  obtain ⟨_, _, rfl⟩ := h
  exact ⟨_, _, rfl⟩

theorem State.noteFailed_found (k : Nat × Nat) : s.FoundParts (s.noteFailed k) := by
  unfold State.noteFailed
  split
  · exact .refl s
  · exact ⟨_, _, rfl⟩

theorem State.conflict_found (k id d : Nat) : s.FoundParts (s.conflict k id d) := by
  unfold State.conflict
  dsimp only
  split
  · exact ⟨_, _, rfl⟩
  · exact ⟨_, _, rfl⟩

theorem State.addDefect_found (k src id c : Nat) : s.FoundParts (s.addDefect k src id c) := by
  unfold State.addDefect
  split
  · exact .refl s
  · exact ⟨_, _, rfl⟩

theorem State.testFailed_found (cold : Bool) (k : Nat × Nat) : s.FoundParts (s.testFailed cold k) := by
  have noted (v : State) : v.FoundParts (if v.markedBad k.1 k.2 then v else v.addDefect k.1 1 k.2 0) := by
    split
    · exact .refl v
    · exact State.addDefect_found ..
  unfold State.testFailed
  dsimp only
  refine (State.noteFailed_found k).trans ?_
  split
  · exact .refl _
  · cases cold
    · exact noted _
    · exact (State.conflict_found ..).trans (noted _)

theorem State.testPassed_found (k : Nat × Nat) : s.FoundParts (s.testPassed k) := by
  unfold State.testPassed
  split
  · exact State.conflict_found ..
  · exact .refl s

theorem State.testsFailed_found (cold : Bool) (ks : List (Nat × Nat)) : s.FoundParts (ks.foldl (State.testFailed cold) s) :=
  foldl_steps (R := State.FoundParts) .refl (fun _ _ _ => .trans) (fun _ k => State.testFailed_found cold k) ks s

theorem State.testsPassed_found (ks : List (Nat × Nat)) : s.FoundParts (ks.foldl State.testPassed s) :=
  foldl_steps (R := State.FoundParts) .refl (fun _ _ _ => .trans) (fun _ k => State.testPassed_found k) ks s

theorem State.startFault_found (p n : Nat) : s.Found (s.startFault p n) := by
  unfold State.startFault
  split
  · exact .refl s
  · exact ⟨_, _, rfl⟩

theorem State.coreTests_found (p : Nat) (r : StartReport) : s.Found (s.coreTests p r) := by
  have one (b : Bool) (n : Nat) (v : State) : v.Found (if b then v else v.startFault p n) := by
    split
    · exact .refl v
    · exact State.startFault_found ..
  exact (one r.tracker 686 s).trans (one r.bridge 687 _)

theorem State.memoryTests_found (p : Nat) (r : StartReport) : s.Found (s.memoryTests p r) := by
  unfold State.memoryTests
  split
  · exact State.startFault_found ..
  · exact .refl s

/-- A start that already has a finding keeps it, and one whose core is good has none from it (R428). -/
theorem State.coreTests_same {p : Nat} {r : StartReport} (h : s.selfTest.fault ≠ none ∨ r.tracker = true ∧ r.bridge = true) :
    s.coreTests p r = s := by
  obtain h | ⟨h1, h2⟩ := h
  · obtain ⟨f, hf⟩ := Option.ne_none_iff_exists'.1 h
    have same (n : Nat) : s.startFault p n = s := by rw [State.startFault, hf]
    rw [State.coreTests]
    simp only [same, ite_self]
  · rw [State.coreTests, h1, h2]
    rfl

/-! ### The networks -/

theorem Tab.get_lit {p : Nat → Bool} {n m : Nat} (hm : m < n) :
    Tab.get false (((List.range n).filter p).map fun m => (m, true)) m = p m := by
  have key (l : List Nat) : Tab.get false ((l.filter p).map fun m => (m, true)) m = (decide (m ∈ l) && p m) := by
    induction l with
    | nil => rfl
    | cons x l ih =>
      rw [List.filter_cons]
      split
      · next hx =>
        rw [List.map_cons, Tab.get, ih]
        by_cases h : x = m
        · rw [← h, if_pos rfl, hx]; simp
        · rw [if_neg h]; simp [Ne.symm h]
      · next hx =>
        rw [ih]
        by_cases h : m = x
        · rw [h]; simp [hx]
        · simp [h]
  rw [key]
  simp [hm]

/-- Phase 2 and stage 5 leave the router domains on that are not lost, and what the tests found (R404, R428). -/
theorem State.networks_frame (cold : Bool) (p : Nat) (r : StartReport) : ∃ l x pl, s.networks cold p r =
    { s with ledger := l, selfTest := x, planes := pl } ∧
      ∀ m < 20, Tab.get false pl.routerOn m = decide (640 + m ∉ s.power.lost) := by
  unfold State.networks
  extract_lets s1 s2 s3
  have h2 : s.Found s2 := (State.coreTests_found p r).trans (State.testsFailed_found cold _).found
  have h3 : s.Found s3 := by
    refine h2.trans ?_
    unfold s3
    split
    · exact .refl s2
    · exact State.startFault_found ..
  generalize s3 = v at h3
  obtain ⟨l, x, rfl⟩ := h3
  refine ⟨l, x, _, rfl, fun m hm => ?_⟩
  rw [Tab.get_lit hm]
  simp

/-! ### Slices of a start -/

/-- Slices, slots, ranges, ports, stagings and the ledger have changed, with what the tests note and the host is told. -/
def State.Mapped (s t : State) : Prop := ∃ pw fb sl sls un rg h l x, t = { s with
  power := pw, fabric := fb, host := h, ledger := l, selfTest := x
  mem := { s.mem with slices := sl, slots := sls, unplaced := un, ranges := rg } }

theorem State.Mapped.refl (s : State) : s.Mapped s := ⟨_, _, _, _, _, _, _, _, _, rfl⟩

theorem State.Mapped.trans (h : s.Mapped t) (h' : t.Mapped u) : s.Mapped u := by
  obtain ⟨_, _, _, _, _, _, _, _, _, rfl⟩ := h
  obtain ⟨_, _, _, _, _, _, _, _, _, rfl⟩ := h'
  exact ⟨_, _, _, _, _, _, _, _, _, rfl⟩

theorem State.Found.mapped (h : s.Found t) : s.Mapped t := by
  obtain ⟨_, _, rfl⟩ := h
  exact ⟨_, _, _, _, _, _, _, _, _, rfl⟩

theorem State.raise_mapped (c x y z : Nat) : s.Mapped (s.raise c x y z) := by
  obtain ⟨_, h⟩ := State.raise_only (s := s) c x y z
  rw [h]
  exact ⟨_, _, _, _, _, _, _, _, _, rfl⟩

theorem State.updSlice_mapped (n : Nat) (f : Slice → Slice) : s.Mapped (s.updSlice n f) := ⟨_, _, _, _, _, _, _, _, _, rfl⟩

theorem State.updRange_mapped (n : Nat) (f : CxlRange → CxlRange) : s.Mapped (s.updRange n f) := ⟨_, _, _, _, _, _, _, _, _, rfl⟩

theorem State.takeSlot_mapped (i n : Nat) : s.Mapped (s.takeSlot i n) := ⟨_, _, _, _, _, _, _, _, _, rfl⟩

theorem State.slotWithoutCopy_mapped (i n : Nat) : s.Mapped (s.slotWithoutCopy i n) := by
  unfold State.slotWithoutCopy
  extract_lets base s1
  refine State.Mapped.trans (t := s1) (((State.updSlice_mapped n _).trans (State.takeSlot_mapped i n)).trans (State.raise_mapped ..)) ?_
  exact ⟨_, _, _, _, _, _, _, _, _, rfl⟩

theorem State.loseSlice_mapped (n c : Nat) : s.Mapped (s.loseSlice n c) := by
  unfold State.loseSlice
  split
  · exact .refl s
  · exact (State.updSlice_mapped n _).trans (State.raise_mapped ..)

theorem State.slotOrLost_mapped (c n : Nat) : s.Mapped (s.slotOrLost c n) := by
  unfold State.slotOrLost
  split
  · exact State.slotWithoutCopy_mapped ..
  · exact (State.loseSlice_mapped n c).trans ⟨_, _, _, _, _, _, _, _, _, rfl⟩

theorem State.takeUntrained_mapped (r : StartReport) : s.Mapped (s.takeUntrained r) :=
  foldl_steps (R := State.Mapped) .refl (fun _ _ _ => .trans)
    (fun _ n => (State.noteFailed_found (5, n)).found.mapped.trans (State.slotOrLost_mapped _ n)) _ s

theorem State.restoreRetired_mapped : s.Mapped s.restoreRetired := by
  unfold State.restoreRetired
  exact foldl_steps (R := State.Mapped) .refl (fun _ _ _ => .trans) (fun _ _ => ⟨_, _, _, _, _, _, _, _, _, rfl⟩) _ s

theorem State.recheckRetired_mapped (n : Nat) : s.Mapped (s.recheckRetired n) := by
  unfold State.recheckRetired
  split
  · split
    · exact .refl s
    · exact State.slotOrLost_mapped ..
  · exact .refl s

theorem State.recheckAll_mapped (l : List Nat) : s.Mapped (l.foldl State.recheckRetired s) :=
  foldl_steps (R := State.Mapped) .refl (fun _ _ _ => .trans) (fun _ n => State.recheckRetired_mapped n) l s

theorem State.placeDevice_mapped {p sn sz : Nat} {e : Nat × State} (h : s.placeDevice p sn sz = some e) : s.Mapped e.2 := by
  unfold State.placeDevice at h
  dsimp only at h
  split at h
  · exact absurd h (by simp)
  · split at h
    · exact absurd h (by simp)
    · obtain ⟨q, -, rfl⟩ := Option.map_eq_some_iff.1 h
      refine (foldl_steps (R := State.Mapped) .refl (fun _ _ _ => .trans) (fun v q => ?_) (List.range 8) s).trans (State.updRange_mapped ..)
      split
      · exact State.updRange_mapped ..
      · exact .refl v

theorem State.enumerate_mapped (ds : List (Nat × Nat × Nat × Nat)) : s.Mapped (s.enumerate ds) := by
  refine foldl_steps (R := State.Mapped) .refl (fun _ _ _ => .trans) (fun v d => ?_) _ s
  split
  · exact State.raise_mapped ..
  · split
    · exact .refl v
    · next h => exact (State.placeDevice_mapped h).trans (State.updRange_mapped ..)

theorem State.portTo_mapped (p : Nat) (k : PortState) : s.Mapped (s.portTo p k) := by
  unfold State.portTo
  split
  · exact .refl s
  · exact State.Mapped.trans (t := s.updPort p fun x => { x with state := k }) ⟨_, _, _, _, _, _, _, _, _, rfl⟩ (State.raise_mapped ..)

theorem State.OnlyStagings.mapped (h : s.OnlyStagings t) : s.Mapped t := by
  rw [h.frame]
  exact ⟨_, _, _, _, _, _, _, _, _, rfl⟩

theorem State.enablePort_mapped (p : Nat) : s.Mapped (s.enablePort p) := by
  obtain h | h | h := State.enablePort_cases (s := s) (p := p)
  · rw [h]; exact .refl s
  · rw [h]; exact (State.askDomain_onlyStagings _ _).mapped
  · rw [h]; exact State.portTo_mapped ..

theorem State.enableAll_mapped (l : List Nat) : s.Mapped (l.foldl (fun s p => s.enablePort p) s) :=
  foldl_steps (R := State.Mapped) .refl (fun _ _ _ => .trans) (fun _ p => State.enablePort_mapped p) l s

theorem State.hostTrained_mapped (n k : Nat) : s.Mapped (s.hostTrained n k) := ⟨_, _, _, _, _, _, _, _, _, rfl⟩

/-! ### The phases up to the fourth -/

section phases
variable {r : StartReport}

theorem State.phase1_good (h : r.image = true) (hv : s.ledgerVerifies = true) : ∃ l, s.phase1 r = State.loadFirmware
    { s with hotSwap := { s.hotSwap with ramping := false }, ledger := l, seq := .start 2, cairn := 0 } ∧ l.image = s.ledger.image := by
  unfold State.phase1
  extract_lets src s0 s1 src' s2
  have hg : (r.image && s0.ledgerVerifies) = true := by rw [h]; exact hv
  rw [if_pos hg]
  have h1 : ∃ l, s1 = { s0 with ledger := l } ∧ l.image = s0.ledger.image := by
    unfold s1
    split
    · exact ⟨_, rfl, rfl⟩
    · exact ⟨_, rfl, rfl⟩
  have h2 : ∃ l, s2 = { s0 with ledger := l } ∧ l.image = s0.ledger.image := by
    obtain ⟨l, h1, hl⟩ := h1
    clear_value s1
    subst h1
    unfold s2
    split
    · exact ⟨l, rfl, hl⟩
    · exact ⟨_, rfl, hl⟩
  obtain ⟨l, h2, hl⟩ := h2
  exact ⟨l, by rw [h2], hl⟩

theorem State.phase1_rescue (h : r.image = false ∨ s.ledgerVerifies = false) : s.phase1 r = { s with
    hotSwap := { s.hotSwap with ramping := false }, seq := .rescue
    host := { s.host with bar0 := true, retry := false }, fw := { s.fw with cairnKept := false } } := by
  have hb : (r.image && s.ledgerVerifies) = false := by
    obtain h | h := h <;> simp [h]
  exact if_neg (by rw [show State.ledgerVerifies { s with hotSwap := { s.hotSwap with ramping := false } } = s.ledgerVerifies from rfl, hb]; decide)

theorem State.phase2_frame : ∃ l x pl pw, s.phase2 r = { s with ledger := l, selfTest := x, planes := pl, power := pw, seq := .start 3 } ∧
    ∀ m < 20, Tab.get false pl.routerOn m = decide (640 + m ∉ s.power.lost) := by
  have ht : ∃ pw : Power, s.startTrims = { s with power := pw } ∧ pw.lost = s.power.lost := ⟨_, rfl, rfl⟩
  obtain ⟨pw, ht, hl⟩ := ht
  obtain ⟨l, x, pl, h, hr⟩ := State.networks_frame (s := s.startTrims) true 2 r
  rw [ht] at h hr
  refine ⟨l, x, pl, pw, ?_, fun m hm => ?_⟩
  · rw [State.phase2, ht, h]
  · rw [hr m hm, hl]

/-- The module as phase 3 finds its memory: HBM's module area forgotten (R242). -/
def State.areaForgotten (s : State) (r : StartReport) : State :=
  { s with
    selfTest := { s.selfTest with serials := r.serials }
    mem := { s.mem with hbm := s.mem.hbm.forget moduleArea (hbmBytes - moduleArea) }
    power := { s.power with hbmTrain := (List.range 16).foldl (fun m g =>
      match State.saved { s with selfTest := { s.selfTest with serials := r.serials } } 5 g with
      | none => m
      | some v => if r.pattern.contains (g / 2) then m else Tab.put 0 g v m) [] } }

/-- The slices of a start with the redirects restored, before the stream table is initialised. -/
def State.redirectsBack (s : State) (r : StartReport) : State := (((s.areaForgotten r).coreTests 3 r).restoreRetired.takeUntrained r)

theorem State.redirectsBack_mapped : (s.areaForgotten r).Mapped (s.redirectsBack r) :=
  ((State.coreTests_found 3 r).mapped.trans State.restoreRetired_mapped).trans (State.takeUntrained_mapped r)

theorem State.phase3_eq : s.phase3 r =
    { (((s.redirectsBack r).zeroRun s.regs.streamTable (2 ^ 28)).memoryTests 3 r) with seq := .start 4 } := rfl

/-- A run of zeros reaches the CXL tier through redirected slices alone (R239). -/
theorem State.zeroRun_cxl {a n : Nat} (h : ∀ k < 64, ∀ i, (s.slice k).state ≠ .retired i) (h' : ∀ k < 64, ∀ i c, (s.slice k).state ≠ .retiring i c) :
    (s.zeroRun a n).mem.cxl = s.mem.cxl := by
  unfold State.zeroRun
  extract_lets cxl
  show (List.range 64).foldl cxl s.mem.cxl = s.mem.cxl
  unfold cxl
  refine List.foldlRecOn (motive := fun m : Memory => m = s.mem.cxl) (List.range 64) _ rfl fun m hm k hk => ?_
  have hk := List.mem_range.1 hk
  dsimp only
  split
  · next i hi => exact absurd hi (h k hk i)
  · next i c hi => exact absurd hi (h' k hk i c)
  · exact hm

theorem State.zeroRun_rest (a n : Nat) : ∃ c w, s.zeroRun a n = { s with mem := { s.mem with hbm := s.mem.hbm.zero a n, cxl := c, wrong := w } } :=
  ⟨_, _, rfl⟩

/-- What phase 3 leaves: the stream table zero, and the CXL tier as it was where no slice is redirected. -/
theorem State.phase3_row : ∃ t, s.phase3 r = t ∧ t.seq = .start 4 ∧
    (∀ key a, s.regs.streamTable ≤ a → a < s.regs.streamTable + 2 ^ 28 → t.mem.hbm.get key 0 a = 0) ∧
    ((∀ n < 64, ∀ i, (t.slice n).state ≠ .retired i) → (∀ n < 64, ∀ i k, (t.slice n).state ≠ .retiring i k) →
      t.mem.cxl = s.mem.cxl) ∧ t.fuses = s.fuses := by
  obtain ⟨pw, fb, sl, sls, un, rg, h, l, x, hm⟩ := State.redirectsBack_mapped (s := s) (r := r)
  obtain ⟨l', x', hf⟩ := State.memoryTests_found (s := (s.redirectsBack r).zeroRun s.regs.streamTable (2 ^ 28)) 3 r
  refine ⟨_, State.phase3_eq, rfl, fun key a h1 h2 => ?_, fun h1 h2 => ?_, ?_⟩
  · rw [hf]
    exact Memory.get_zero_inside key 0 ⟨h1, h2⟩
  · rw [hf] at h1 h2 ⊢
    refine (State.zeroRun_cxl (s := s.redirectsBack r) h1 h2).trans ?_
    rw [hm]
    rfl
  · rw [hf]
    obtain ⟨_, _, hz⟩ := (s.redirectsBack r).zeroRun_rest s.regs.streamTable (2 ^ 28)
    rw [hz, hm]
    rfl

theorem State.phase4_row : ∃ t, s.phase4 r = t ∧ t.seq = .start 5 ∧ t.host.bar0 = true ∧ t.host.retry = false ∧
    t.mem.hbm = s.mem.hbm ∧ t.tiles = s.tiles ∧ t.fuses = s.fuses := by
  unfold State.phase4
  extract_lets s1 s2 s3
  have h1 : s.Mapped s1 := ((State.coreTests_found 4 r).mapped.trans (State.enumerate_mapped _)).trans
    (State.recheckAll_mapped _)
  have h2 : s.Mapped s2 := (h1.trans (State.memoryTests_found 4 r).mapped).trans
    (State.enableAll_mapped _)
  have h3 : s.Mapped s3 := by
    unfold s3
    split
    · exact h2.trans (State.hostTrained_mapped _ _)
    · exact h2
  generalize s3 = v at h3
  obtain ⟨_, _, _, _, _, _, _, _, _, rfl⟩ := h3
  exact ⟨_, rfl, rfl, rfl, rfl, rfl, rfl, rfl⟩

end phases

/-! ### The tests of the last phase -/

/-- Tiles, planes, phases, slices and the ledger have changed with what the tests of the parts found, and the start has no new
finding. -/
def State.Tested (s t : State) : Prop := ∃ ts pl pw sl sls h l f, t = { s with
  tiles := ts, planes := pl, power := pw, host := h, ledger := l, selfTest := { s.selfTest with failed := f }
  mem := { s.mem with slices := sl, slots := sls } }

theorem State.Tested.refl (s : State) : s.Tested s := ⟨_, _, _, _, _, _, _, _, rfl⟩

theorem State.Tested.trans (h : s.Tested t) (h' : t.Tested u) : s.Tested u := by
  obtain ⟨_, _, _, _, _, _, _, _, rfl⟩ := h
  obtain ⟨_, _, _, _, _, _, _, _, rfl⟩ := h'
  exact ⟨_, _, _, _, _, _, _, _, rfl⟩

theorem State.FoundParts.tested (h : s.FoundParts t) : s.Tested t := by
  obtain ⟨_, _, rfl⟩ := h
  exact ⟨_, _, _, _, _, _, _, _, rfl⟩

theorem State.raise_tested (c x y z : Nat) : s.Tested (s.raise c x y z) := by
  obtain ⟨_, h⟩ := State.raise_only (s := s) c x y z
  rw [h]
  exact ⟨_, _, _, _, _, _, _, _, rfl⟩

theorem State.updTile_tested (i : Nat) (f : Tile → Tile) : s.Tested (s.updTile i f) := ⟨_, _, _, _, _, _, _, _, rfl⟩

theorem State.clearPassed_tested (r : StartReport) : s.Tested (s.clearPassed r) := ⟨_, _, _, _, _, _, _, _, rfl⟩

theorem State.rebuildDefects_tested : s.Tested s.rebuildDefects := by
  unfold State.rebuildDefects
  split
  · exact .refl s
  · extract_lets fused all
    exact State.Tested.trans (t := { s with ledger := { s.ledger with defects := all, defectsGood := true } })
      ⟨_, _, _, _, _, _, _, _, rfl⟩ (State.raise_tested ..)

theorem State.retireSlice_tested (n : Nat) : s.Tested (s.retireSlice n) := by
  unfold State.retireSlice
  split
  · split
    · exact State.Tested.trans (t := (s.updSlice n _).takeSlot _ n) ⟨_, _, _, _, _, _, _, _, rfl⟩ (State.raise_tested ..)
    · exact State.raise_tested ..
  · exact .refl s

theorem State.fenceTiles_tested (b : Nat) (l : List Nat) : s.Tested (l.foldl (fun s i => s.updTile (b + i) fun x => { x with fenced := true }) s) :=
  foldl_steps (R := State.Tested) .refl (fun _ _ _ => .trans) (fun _ _ => State.updTile_tested ..) l s

theorem State.applyBad_tested (k : Nat × Nat) : s.Tested (s.applyBad k) := by
  unfold State.applyBad
  split
  · exact State.updTile_tested ..
  · exact State.updTile_tested ..
  · exact State.Tested.trans (t := s.setScore .router k.2 _ 3) ⟨_, _, _, _, _, _, _, _, rfl⟩ (State.fenceTiles_tested ..)
  · exact ⟨_, _, _, _, _, _, _, _, rfl⟩
  · exact State.Tested.trans (t := s.updSlice k.2 _) ⟨_, _, _, _, _, _, _, _, rfl⟩ (State.retireSlice_tested _)
  · exact ⟨_, _, _, _, _, _, _, _, rfl⟩
  · exact .refl s

theorem State.applyUntested_tested (k : Nat × Nat) : s.Tested (s.applyUntested k) := by
  unfold State.applyUntested
  split
  · exact State.updTile_tested ..
  · exact State.updTile_tested ..
  · exact State.fenceTiles_tested ..
  · exact ⟨_, _, _, _, _, _, _, _, rfl⟩
  · exact ⟨_, _, _, _, _, _, _, _, rfl⟩
  · exact .refl s

theorem State.capTile_tested (i : Nat) : s.Tested (s.capTile i) := by
  unfold State.capTile
  split
  · exact .refl s
  · exact (State.updTile_tested ..).trans (State.raise_tested ..)

theorem State.applyPhases_tested (i : Nat) : s.Tested (s.applyPhases i) := by
  unfold State.applyPhases
  dsimp only
  split
  · exact State.updTile_tested ..
  · split
    · exact State.capTile_tested i
    · exact .refl s

theorem State.applyBads_tested (l : List (Nat × Nat)) : s.Tested (l.foldl State.applyBad s) :=
  foldl_steps (R := State.Tested) .refl (fun _ _ _ => .trans) (fun _ k => State.applyBad_tested k) l s

theorem State.applyUntesteds_tested (l : List (Nat × Nat)) : s.Tested (l.foldl State.applyUntested s) :=
  foldl_steps (R := State.Tested) .refl (fun _ _ _ => .trans) (fun _ k => State.applyUntested_tested k) l s

theorem State.applyAllPhases_tested (l : List Nat) : s.Tested (l.foldl State.applyPhases s) :=
  foldl_steps (R := State.Tested) .refl (fun _ _ _ => .trans) (fun _ i => State.applyPhases_tested i) l s

theorem State.applyUnion_tested (r : StartReport) : s.Tested (s.applyUnion r) := by
  unfold State.applyUnion
  exact ((State.applyBads_tested _).trans (State.applyUntesteds_tested _)).trans (State.applyAllPhases_tested _)

theorem State.endTests_tested (r : StartReport) : s.Tested (s.endTests r) := by
  unfold State.endTests
  extract_lets s1 s2 s3
  have h1 : s.Tested s1 := State.clearPassed_tested r
  have h2 : s.Tested s2 := h1.trans (State.testsFailed_found true _).tested
  have h3 : s.Tested s3 := h2.trans (State.testsPassed_found _).tested
  exact (h3.trans State.rebuildDefects_tested).trans (State.applyUnion_tested r)

theorem State.addResult_tested (x : TestResult) : s.Tested (s.addResult x) := by
  obtain ⟨_, h⟩ := State.addResult_frame (s := s) x
  rw [h]
  exact ⟨_, _, _, _, _, _, _, _, rfl⟩

/-! ### The end of a start -/

theorem State.usableTiles_congr (ht : t.tiles = s.tiles) (hf : t.fuses.bad = s.fuses.bad) (hd : t.ledger.defects = s.ledger.defects)
    (hs : t.selfTest.failed = s.selfTest.failed) (hp : t.power.phases = s.power.phases) : t.usableTiles = s.usableTiles := by
  have hb (k i : Nat) : t.bad k i = s.bad k i := by rw [State.bad, State.bad, State.markedBad, State.markedBad, hf, hd, hs]
  have hn (i : Nat) : t.failedPhases i = s.failedPhases i := by
    unfold State.failedPhases State.phase
    rw [hp]
  have hu : t.usable = s.usable := funext fun i => by
    rw [State.usable, State.usable, hb, hb, hb, hn, State.tile, State.tile, ht]
  rw [State.usableTiles, State.usableTiles, hu]

/-- `DEV_STATE` of a module that goes into service (R17). -/
def State.serviceState (s : State) : DevState := if s.usableTiles < 256 then .degraded else .ready

theorem State.intoService_frame : ∃ hw mg h es, s.intoService = { s with
    devState := s.serviceState, hotSwap := hw, mgmt := mg, host := h, ledger := { s.ledger with events := es } } := by
  have step (d : DevState) (c n : Nat) : ∃ hw mg h es, (s.setDev d).raise c n 0 0 = { s with
      devState := d, hotSwap := hw, mgmt := mg, host := h, ledger := { s.ledger with events := es } } := by
    obtain ⟨_, h⟩ := State.raise_only (s := s.setDev d) c n 0 0
    obtain ⟨_, _, hd⟩ := State.setDev_frame (s := s) d
    rw [h, hd]
    exact ⟨_, _, _, _, rfl⟩
  unfold State.intoService State.serviceState
  split
  · exact step _ _ _
  · split
    · exact step _ _ _
    · obtain ⟨_, _, hd⟩ := State.setDev_frame (s := s) .ready
      rw [hd]
      exact ⟨_, _, _, _, rfl⟩

theorem State.advanceRollback_frame : ∃ rb h es, s.advanceRollback = { s with
    fuses := { s.fuses with rollback := rb }, host := h, ledger := { s.ledger with events := es } } ∧ s.fuses.rollback ≤ rb := by
  unfold State.advanceRollback
  split
  · obtain ⟨_, h⟩ := State.raise_only (s := { s with
      fuses := { s.fuses with rollback := max s.fuses.rollback (min s.securityVersion 64) } }) 0x1806 0 (min s.securityVersion 64) 0
    exact ⟨_, _, _, h, Nat.le_max_left _ _⟩
  · exact ⟨_, _, _, rfl, Nat.le_refl _⟩

theorem State.flushConflicts_frame : ∃ cs h, s.flushConflicts = { s with ledger := { s.ledger with conflicts := cs }, host := h } := by
  unfold State.flushConflicts
  split
  · exact ⟨_, _, rfl⟩
  · refine List.foldlRecOn (motive := fun t : State => ∃ cs h, t = { s with ledger := { s.ledger with conflicts := cs }, host := h }) _ _
      ⟨_, _, rfl⟩ fun t ht c _ => ?_
    obtain ⟨cs, h, ht⟩ := ht
    obtain ⟨_, _, _, -, h'⟩ := State.notice_frame (s := t) t.host.evtRing ⟨2, 0, 0x1005, 0, 0, c.1, c.2.1, c.2.2⟩
    rw [h', ht]
    exact ⟨_, _, rfl⟩

/-- The module after the tests of phase 5, with their result recorded. -/
def State.judged (s : State) (r : StartReport) : State := (s.endTests r).addResult ((s.endTests r).startResult r)

theorem State.judged_tested (r : StartReport) : s.Tested (s.judged r) := by
  rw [State.judged]
  exact (State.endTests_tested r).trans (State.addResult_tested _)

/-- A start with a finding fails. -/
def State.startFails (s : State) (f : Nat × Nat) : State :=
  State.flushConflicts { ((s.setDev .failed).ledgerEvent 0x1F07 f.1 f.2 0) with seq := .idle }

/-- A start without one goes into service. -/
def State.startEnds (s : State) : State :=
  let s4 := (State.advanceRollback { s.intoService with seq := .idle, selfTest := s.selfTest.anew }).flushConflicts
  { s4 with host := { s4.host with wake := true, lastBeat := s4.cairn } }

/-- How the start ends with the findings of its tests. -/
def State.startOver (s : State) : State := match s.selfTest.fault with
  | some f => s.startFails f
  | none => s.startEnds

theorem State.phase5_eq {r : StartReport} (h : s.coreTests 5 r = s) : s.phase5 r = (s.judged r).startOver := by
  unfold State.phase5 State.judged
  rw [h]
  generalize s.endTests r = v
  rfl

theorem State.judged_fault (r : StartReport) : (s.judged r).selfTest.fault = s.selfTest.fault := by
  obtain ⟨_, _, _, _, _, _, _, _, hj⟩ := State.judged_tested (s := s) r
  rw [hj]

theorem State.phase5_failed {r : StartReport} {f : Nat × Nat} (h : s.selfTest.fault = some f) : s.phase5 r = (s.judged r).startFails f := by
  rw [State.phase5_eq (State.coreTests_same (.inl (by rw [h]; simp))), State.startOver, State.judged_fault, h]

theorem State.phase5_ends {r : StartReport} (h : s.selfTest.fault = none) (ht : r.tracker = true) (hb : r.bridge = true) :
    s.phase5 r = (s.judged r).startEnds := by
  rw [State.phase5_eq (State.coreTests_same (.inr ⟨ht, hb⟩)), State.startOver, State.judged_fault, h]

theorem State.startFails_row (f : Nat × Nat) : ∃ t, s.startFails f = t ∧ t.seq = .idle ∧ t.devState = .failed ∧ t.mem = s.mem ∧
    t.graphs = s.graphs ∧ t.fuses = s.fuses := by
  obtain ⟨_, _, hd⟩ := State.setDev_frame (s := s) .failed
  obtain ⟨_, _, h⟩ := State.flushConflicts_frame (s := { ((s.setDev .failed).ledgerEvent 0x1F07 f.1 f.2 0) with seq := .idle })
  refine ⟨_, h, ?_⟩
  rw [hd]
  exact ⟨rfl, rfl, rfl, rfl, rfl⟩

theorem State.startEnds_row : ∃ t, s.startEnds = t ∧ t.seq = .idle ∧ t.devState = s.serviceState ∧ t.host.wake = true ∧ t.mem = s.mem ∧
    t.graphs = s.graphs ∧ s.fuses.rollback ≤ t.fuses.rollback ∧ t.usableTiles = s.usableTiles := by
  obtain ⟨hw, mg, h, es, hi⟩ := State.intoService_frame (s := s)
  obtain ⟨rb, h2, es2, ha, hrb⟩ := State.advanceRollback_frame (s := { s.intoService with seq := .idle, selfTest := s.selfTest.anew })
  obtain ⟨cs, h3, hc⟩ := State.flushConflicts_frame (s := State.advanceRollback { s.intoService with seq := .idle, selfTest := s.selfTest.anew })
  rw [ha, hi] at hc
  rw [hi] at hrb
  unfold State.startEnds
  dsimp only
  rw [ha, hi, hc]
  exact ⟨_, rfl, rfl, rfl, rfl, rfl, rfl, hrb, State.usableTiles_congr rfl rfl rfl rfl rfl⟩

/-- Settles O18: each phase is what its tests find and the one change that it brings, and the last one reads the findings. -/
theorem coldStartPhases : Obligations.ColdStartPhases := by
  unfold Obligations.ColdStartPhases
  intro s r c hc
  have he : exec c s = .next (s.endPhase r) := by
    obtain rfl | rfl := hc
    · rfl
    · rfl
  rw [he]
  refine ⟨fun h hi hv => ?_, fun h hi => ?_, fun h => ?_, fun h => ?_, fun h => ?_, fun h hf ht hb => ?_, fun h hf => ?_⟩ <;>
    rw [State.endPhase, h]
  · obtain ⟨l, h1, hl⟩ := State.phase1_good hi hv
    refine ⟨_, congrArg _ h1, rfl, rfl, rfl, ?_, rfl, rfl, rfl, rfl⟩
    show State.manifest { s with hotSwap := _, ledger := l, seq := _, cairn := 0 } = s.manifest
    rw [State.manifest, State.manifest, hl]
  · exact ⟨_, congrArg _ (State.phase1_rescue hi), rfl, rfl, rfl, rfl, rfl⟩
  · obtain ⟨l, x, pl, pw, h2, hr⟩ := State.phase2_frame (s := s) (r := r)
    exact ⟨_, congrArg _ h2, rfl, hr, rfl, rfl, rfl⟩
  · obtain ⟨t, ht, h3⟩ := State.phase3_row (s := s) (r := r)
    exact ⟨t, congrArg _ ht, h3⟩
  · obtain ⟨t, ht, h4⟩ := State.phase4_row (s := s) (r := r)
    exact ⟨t, congrArg _ ht, h4⟩
  · obtain ⟨_, _, _, _, _, _, _, _, hj⟩ := State.judged_tested (s := s) r
    obtain ⟨t, he, h1, h2, h3, h4, h5, h6, h7⟩ := State.startEnds_row (s := s.judged r)
    refine ⟨t, congrArg _ ((State.phase5_ends hf ht hb).trans he), h1, ?_, h3, ?_, ?_, ?_, ?_⟩
    · rw [h2, State.serviceState, h7]
    · rw [h4, hj]
    · rw [h4, hj]
    · rw [h5, hj]
    · rw [hj] at h6; exact h6
  · obtain ⟨f, hf⟩ := Option.ne_none_iff_exists'.1 hf
    obtain ⟨_, _, _, _, _, _, _, _, hj⟩ := State.judged_tested (s := s) r
    obtain ⟨t, he, h1, h2, h3, h4, h5⟩ := State.startFails_row (s := s.judged r) f
    refine ⟨t, congrArg _ ((State.phase5_failed hf).trans he), h1, h2, ?_, ?_, ?_, ?_⟩ <;> simp only [h3, h4, h5, hj]

end Sys2Proof.Machine
end

section
/-! PROOF. A tile's known-answer runs and the crash dump (R119 to R121, R436, R452, R453). -/

namespace Sys2Proof.Machine

variable {s t u : State}

/-! ### A fence and the defect list -/

/-- The defect list, apart from the rest of the ledger, stays. -/
def State.SameDefects (s t : State) : Prop := t.ledger.defects = s.ledger.defects

theorem State.raise_defects (c x y z : Nat) : (s.raise c x y z).ledger.defects = s.ledger.defects := by
  obtain ⟨_, h⟩ := State.raise_only (s := s) c x y z
  rw [h]

theorem State.abandon_defects (g c : Nat) (rm rp : List Nat) : (s.abandon g c rm rp).ledger.defects = s.ledger.defects := by
  unfold State.abandon
  split
  · rfl
  · dsimp only
    obtain ⟨_, _, h⟩ := State.raiseAll_only (s := s.setGraph g _) _
    rw [h]
    rfl

theorem State.fenceGraph_defects (i : Nat) (use : TileUse) (o : Option (Nat × Nat)) :
    (s.fenceGraph i use o).ledger.defects = s.ledger.defects := by
  unfold State.fenceGraph
  split
  · rfl
  · split <;> rw [State.updGraph_ledger, State.abandon_defects]

theorem State.checkDegraded_defects : s.checkDegraded.ledger.defects = s.ledger.defects := by
  unfold State.checkDegraded
  split
  · rw [State.raise_defects]
    obtain ⟨_, _, h⟩ := State.setDev_frame (s := s) .degraded
    rw [h]
  · rfl

theorem State.fencedDark_ledger (i : Nat) : (s.fencedDark i).ledger = s.ledger := by
  unfold State.fencedDark
  rw [(State.quiet_onlyTiles i).frame]
  obtain ⟨⟨_, _, _, _, h⟩, -⟩ := State.unstage_unstage_onlyStagings
    (s := ((s.completeStaging i 0x32 (s.tile i).staging).dropWords i).setTile i (s.tile i).fencedOff) i
  rw [h]
  rfl

theorem State.fenceTile_defects (i : Nat) : (s.fenceTile i).ledger.defects = s.ledger.defects := by
  cases h : (s.tile i).fenced
  · rw [State.fenceTile_eq h, State.checkDegraded_defects, State.fenceGraph_defects, State.fencedDark_ledger]
  · rw [State.fenceTile_of_fenced h]

/-! ### Known-answer runs -/

section kat
variable {i : Nat} (hi : i < 320) (hq : s.tilesTested = true)
include hi hq

theorem State.katRun_first_fail (h : i ∉ s.selfTest.katFailed) : exec (.knownAnswerRunDone i false) s =
    .next { s with selfTest := { s.selfTest with katFailed := s.selfTest.katFailed ++ [i] } } := by
  have hn : s.selfTest.katFailed.count i = 0 := List.count_eq_zero.2 h
  show execKnownAnswerRunDone i false s = _
  rw [execKnownAnswerRunDone, onUnit, if_pos (by simpa using hi)]
  dsimp only
  rw [hn, hq]
  rfl

theorem State.katRun_first_pass (h : i ∉ s.selfTest.katFailed) : exec (.knownAnswerRunDone i true) s = .next s := by
  have hn : s.selfTest.katFailed.count i = 0 := List.count_eq_zero.2 h
  show execKnownAnswerRunDone i true s = _
  rw [execKnownAnswerRunDone, onUnit, if_pos (by simpa using hi)]
  dsimp only
  rw [hn, hq]
  rfl

variable (h1 : s.selfTest.katFailed.count i = 1)
include h1

theorem State.katRun_second_fail : exec (.knownAnswerRunDone i false) s = .next (State.katFenced (s.seq == .start 5) i
    { s with selfTest := { s.selfTest with katFailed := s.selfTest.katFailed ++ [i] } }) := by
  show execKnownAnswerRunDone i false s = _
  rw [execKnownAnswerRunDone, onUnit, if_pos (by simpa using hi)]
  dsimp only
  rw [h1, hq]
  rfl

/-- The module with a tile's failure forgotten. -/
def State.katForgotten (s : State) (i : Nat) : State :=
  { s with selfTest := { s.selfTest with katFailed := s.selfTest.katFailed.filter (· != i) } }

theorem State.katRun_second_pass : exec (.knownAnswerRunDone i true) s =
    .next ((s.katForgotten i).settle .tile i (s.tile i).part 1024 0) := by
  show execKnownAnswerRunDone i true s = _
  rw [execKnownAnswerRunDone, onUnit, if_pos (by simpa using hi)]
  dsimp only
  rw [h1, hq]
  rfl

end kat

theorem State.raise_markedBad (c x y z k id : Nat) : (s.raise c x y z).markedBad k id = s.markedBad k id := by
  obtain ⟨_, h⟩ := State.raise_only (s := s) c x y z
  rw [h]
  rfl

theorem State.addDefect_markedBad {k src id c : Nat} (h : s.ledger.defects.length < 4096) : (s.addDefect k src id c).markedBad k id = true := by
  rw [State.addDefect, if_neg (by omega), State.markedBad]
  simp

/-- A part that failed its test is marked bad, where the list has room for it (R431). -/
theorem State.testFailed_markedBad (cold : Bool) (k : Nat × Nat) (h : s.ledger.defects.length < 4096) :
    (s.testFailed cold k).markedBad k.1 k.2 = true := by
  have noted {v : State} (hv : v.ledger.defects.length < 4096) :
      (if v.markedBad k.1 k.2 then v else v.addDefect k.1 1 k.2 0).markedBad k.1 k.2 = true := by
    split
    · next hb => exact hb
    · exact State.addDefect_markedBad hv
  have hn : (s.noteFailed k).ledger = s.ledger := by unfold State.noteFailed; split <;> rfl
  have hc : ((s.noteFailed k).conflict k.1 k.2 1).ledger.defects = s.ledger.defects := by
    rw [← hn]
    unfold State.conflict
    dsimp only
    split <;> rfl
  unfold State.testFailed
  dsimp only
  split
  · next hf =>
    rw [State.markedBad]
    exact Bool.or_eq_true_iff.2 (.inl hf)
  · cases cold
    · rw [if_neg Bool.false_ne_true]
      exact noted (by rw [hn]; exact h)
    · rw [if_pos rfl]
      exact noted (by rw [hc]; exact h)

theorem State.markedBad_congr (hf : t.fuses = s.fuses) (hd : t.ledger.defects = s.ledger.defects) (k id : Nat) :
    t.markedBad k id = s.markedBad k id := by rw [State.markedBad, State.markedBad, hf, hd]

/-- A tile that failed both runs, before it is fenced. -/
def State.katScored (s : State) (cold : Bool) (i : Nat) : State := ((s.setScore .tile i 4096 3).raise 0x1608 4096 1 i).testFailed cold (1, i)

theorem State.katFenced_eq (cold : Bool) (i : Nat) : s.katFenced cold i = (s.katScored cold i).fenceTile i := rfl

theorem State.katScored_frame (cold : Bool) (i : Nat) : (s.katScored cold i).tile i = { s.tile i with score := 4096, part := 3 } ∧
    (s.katScored cold i).mem = s.mem := by
  obtain ⟨_, _, h⟩ := State.testFailed_found (s := (s.setScore .tile i 4096 3).raise 0x1608 4096 1 i) cold (1, i)
  rw [State.katScored, h]
  refine ⟨?_, ?_⟩
  · show ((s.setScore .tile i 4096 3).raise 0x1608 4096 1 i).tile i = _
    rw [State.tile, State.raise_tiles]
    exact (State.updTile_tile ..).trans (if_pos rfl)
  · exact (State.raise_mem ..).trans rfl

theorem State.katScored_markedBad (cold : Bool) (i : Nat) (h : s.ledger.defects.length < 4096) : (s.katScored cold i).markedBad 1 i = true :=
  State.testFailed_markedBad cold (1, i) (by rw [State.raise_defects]; exact h)

/-- A score of 1,024 makes a tile SUSPECT, and no more (R371, R373). -/
theorem State.settle_suspect {i old : Nat} (h : old ≠ 3) : ∃ t, s.settle .tile i old 1024 0 = t ∧
    (t.tile i).score = 1024 ∧ (t.tile i).part = 2 ∧ (∀ j, j ≠ i → t.tile j = s.tile j) ∧ t.mem = s.mem ∧ t.selfTest = s.selfTest := by
  have hp : nextPart (partThresholds .tile) old 1024 = 2 := by
    unfold nextPart partThresholds
    simp [h]
  have hx : (s.updTile i fun x => { x with score := 1024, part := 2 }).tile i = { s.tile i with score := 1024, part := 2 } :=
    (State.updTile_tile ..).trans (if_pos rfl)
  have ho (j : Nat) (hj : j ≠ i) : (s.updTile i fun x => { x with score := 1024, part := 2 }).tile j = s.tile j :=
    (State.updTile_tile ..).trans (if_neg hj)
  refine ⟨_, rfl, ?_⟩
  rw [State.settle, State.settleScore, hp]
  dsimp only
  rw [if_neg (by simp)]
  show let t := (if 2 = old then s.updTile i fun x => { x with score := 1024, part := 2 }
    else (s.updTile i fun x => { x with score := 1024, part := 2 }).raise 0x1607 1024 1 i)
    (t.tile i).score = 1024 ∧ (t.tile i).part = 2 ∧ (∀ j, j ≠ i → t.tile j = s.tile j) ∧ t.mem = s.mem ∧ t.selfTest = s.selfTest
  dsimp only
  split
  · rw [hx]
    exact ⟨rfl, rfl, ho, rfl, rfl⟩
  · obtain ⟨_, h⟩ := State.raise_only (s := s.updTile i fun x => { x with score := 1024, part := 2 }) 0x1607 1024 1 i
    rw [h]
    exact ⟨congrArg Tile.score hx, congrArg Tile.part hx, ho, rfl, rfl⟩

/-- Settles O19: the count of failures says which of the four cases a run is. -/
theorem knownAnswerRuns : Obligations.KnownAnswerRuns := by
  unfold Obligations.KnownAnswerRuns
  intro s i hi hq
  refine ⟨fun h => ⟨State.katRun_first_fail hi hq h, State.katRun_first_pass hi hq h⟩, fun h1 => ⟨?_, fun hp => ?_⟩⟩
  · refine ⟨_, State.katRun_second_fail hi hq h1, ?_⟩
    generalize hv : ({ s with selfTest := { s.selfTest with katFailed := s.selfTest.katFailed ++ [i] } } : State) = v
    have hmem : v.mem = s.mem := by rw [← hv]
    have hled : v.ledger = s.ledger := by rw [← hv]
    obtain ⟨ht, hm⟩ := State.katScored_frame (s := v) (s.seq == .start 5) i
    obtain ⟨hs, hpt⟩ := State.fenceTile_score (s := v.katScored (s.seq == .start 5) i) i
    have hr := State.fenceTile_reached (s := v.katScored (s.seq == .start 5) i) i
    rw [State.katFenced_eq]
    refine ⟨State.fenceTile_fenced i, by rw [hs, ht], by rw [hpt, ht], fun hl => ?_, ?_⟩
    · rw [State.markedBad_congr hr.fuses (State.fenceTile_defects i)]
      exact State.katScored_markedBad _ i (by rw [hled]; exact hl)
    · rw [← hmem, ← hm]
      exact hr.mem
  · obtain ⟨t, ht, h1', h2, h3, h4, h5⟩ := State.settle_suspect (s := s.katForgotten i) (i := i) hp
    refine ⟨t, (State.katRun_second_pass hi hq h1).trans (congrArg _ ht), h1', h2, ?_, h3, h4⟩
    rw [h5]
    simp [State.katForgotten]

/-! ### The crash dump -/

theorem State.hostRaw_frame (a : Nat) (bs : List Byte) : ∃ h, s.hostRaw a bs = { s with host := h } := by
  unfold State.hostRaw
  split
  · exact ⟨_, rfl⟩
  · exact ⟨_, rfl⟩

/-- The Tarn of one fenced tile asked off (R119). -/
def State.tarnOffOf (s : State) (i : Nat) : State :=
  if (s.tile i).fenced && (s.tile i).tarnPower == .retain then s.askDomain (i + 320) false else s

theorem State.tarnOffOf_onlyStagings (i : Nat) : s.OnlyStagings (s.tarnOffOf i) := by
  unfold State.tarnOffOf
  split
  · exact State.askDomain_onlyStagings ..
  · exact .refl s

theorem State.tarnOffOf_mono {i d : Nat} {on : Bool} (h : s.hasStaging d on = true) : (s.tarnOffOf i).hasStaging d on = true := by
  unfold State.tarnOffOf
  split
  · exact State.askDomain_hasStaging.2 (.inl h)
  · exact h

theorem State.tarnOffOf_asks {i : Nat} (hf : (s.tile i).fenced = true) (hp : (s.tile i).tarnPower = .retain) :
    (s.tarnOffOf i).hasStaging (320 + i) false = true := by
  rw [State.tarnOffOf, if_pos (by simp [hf, hp]), Nat.add_comm]
  exact State.askDomain_off_hasStaging _

theorem State.tarnsOff_onlyStagings (l : List Nat) : s.OnlyStagings (State.tarnsOff l s) :=
  List.foldlRecOn (motive := fun t : State => s.OnlyStagings t) l State.tarnOffOf (.refl s) fun _ h i _ => h.trans (State.tarnOffOf_onlyStagings i)

theorem State.tarnsOff_asks {l : List Nat} {j : Nat} (hj : j ∈ l) (hf : (s.tile j).fenced = true) (hp : (s.tile j).tarnPower = .retain) :
    (State.tarnsOff l s).hasStaging (320 + j) false = true := by
  show (l.foldl State.tarnOffOf s).hasStaging (320 + j) false = true
  induction l generalizing s with
  | nil => exact absurd hj List.not_mem_nil
  | cons i l ih =>
    rw [List.foldl_cons]
    by_cases hi : j = i
    · subst hi
      exact List.foldlRecOn (motive := fun t : State => t.hasStaging (320 + j) false = true) l _ (State.tarnOffOf_asks hf hp)
        fun _ h _ _ => State.tarnOffOf_mono h
    · refine ih ((List.mem_cons.1 hj).resolve_left hi) ?_ ?_
      · rw [(State.tarnOffOf_onlyStagings i).tile]; exact hf
      · rw [(State.tarnOffOf_onlyStagings i).tile]; exact hp

theorem State.writeRecord_frame (i : Nat) : ∃ h, State.OnlyStagings { s with host := h, dump := { s.dump with tiles := i + 1 } } (s.writeRecord i) := by
  obtain ⟨h, hr⟩ := State.hostRaw_frame (s := s) (s.dump.base + dumpHead + i * s.dump.recordBytes) (s.dumpRecord i)
  refine ⟨h, ?_⟩
  rw [State.writeRecord, hr]
  exact State.tarnsOff_onlyStagings [i]

theorem State.writeRecord_asks {i : Nat} (hf : (s.tile i).fenced = true) (hp : (s.tile i).tarnPower = .retain) :
    (s.writeRecord i).hasStaging (320 + i) false = true := by
  obtain ⟨h, hr⟩ := State.hostRaw_frame (s := s) (s.dump.base + dumpHead + i * s.dump.recordBytes) (s.dumpRecord i)
  rw [State.writeRecord, hr]
  exact State.tarnsOff_asks List.mem_cons_self hf hp

theorem State.writeRecord_mono {i d : Nat} {on : Bool} (h : s.hasStaging d on = true) : (s.writeRecord i).hasStaging d on = true := by
  obtain ⟨x, hr⟩ := State.hostRaw_frame (s := s) (s.dump.base + dumpHead + i * s.dump.recordBytes) (s.dumpRecord i)
  rw [State.writeRecord, hr]
  exact State.tarnOffOf_mono h

/-- Records written one after another, from the tile on that the dump has come to. -/
theorem State.writeRecords (n : Nat) :
    (∃ h, State.OnlyStagings { s with host := h, dump := { s.dump with tiles := s.dump.tiles + n } }
      (((List.range n).map fun i => s.dump.tiles + i).foldl State.writeRecord s)) ∧
    ∀ j, s.dump.tiles ≤ j → j < s.dump.tiles + n → (s.tile j).fenced = true → (s.tile j).tarnPower = .retain →
      (((List.range n).map fun i => s.dump.tiles + i).foldl State.writeRecord s).hasStaging (320 + j) false = true := by
  induction n with
  | zero => exact ⟨⟨s.host, .refl s⟩, fun j h1 h2 => absurd h2 (by omega)⟩
  | succ n ih =>
    rw [List.range_succ, List.map_append, List.foldl_append]
    show (∃ h, State.OnlyStagings _ ((List.foldl State.writeRecord s _).writeRecord (s.dump.tiles + n))) ∧ _
    generalize ((List.range n).map fun i => s.dump.tiles + i).foldl State.writeRecord s = v at ih ⊢
    obtain ⟨⟨h, hv⟩, ha⟩ := ih
    obtain ⟨h', hw⟩ := v.writeRecord_frame (s.dump.tiles + n)
    have ht := hv.tile
    refine ⟨⟨h', ?_⟩, fun j h1 h2 hf hp => ?_⟩
    · have h1 : State.OnlyStagings { s with host := h', dump := { s.dump with tiles := s.dump.tiles + (n + 1) } }
          { v with host := h', dump := { v.dump with tiles := s.dump.tiles + n + 1 } } := by
        obtain ⟨⟨_, _, _, _, rfl⟩, hph⟩ := hv
        exact ⟨⟨_, _, _, _, rfl⟩, hph⟩
      exact h1.trans hw
    · by_cases hj : j = s.dump.tiles + n
      · rw [hj] at hf hp ⊢
        exact State.writeRecord_asks (by rw [ht]; exact hf) (by rw [ht]; exact hp)
      · exact State.writeRecord_mono (ha j h1 (by omega) hf hp)

/-- The time that the slowest of some records takes. -/
def State.dumpTimes (s : State) (l : List Nat) : Nat := l.foldl (fun m i => max m (s.dumpTime i)) 0

theorem State.dumpTimes_max (l : List Nat) : ∀ m : Nat, (m ≤ l.foldl (fun m i => max m (s.dumpTime i)) m) ∧
    (∀ i ∈ l, s.dumpTime i ≤ l.foldl (fun m i => max m (s.dumpTime i)) m) ∧
    ∀ n, m ≤ n → (∀ i ∈ l, s.dumpTime i ≤ n) → l.foldl (fun m i => max m (s.dumpTime i)) m ≤ n := by
  induction l with
  | nil => exact fun m => ⟨Nat.le_refl m, fun i hi => absurd hi List.not_mem_nil, fun n h _ => h⟩
  | cons x l ih =>
    intro m
    obtain ⟨h1, h2, h3⟩ := ih (max m (s.dumpTime x))
    rw [List.foldl_cons]
    refine ⟨(Nat.le_max_left _ _).trans h1, fun i hi => ?_, fun n hm hl => ?_⟩
    · obtain rfl | hi := List.mem_cons.1 hi
      · exact (Nat.le_max_right _ _).trans h1
      · exact h2 i hi
    · exact h3 n (max_le hm (hl x List.mem_cons_self)) fun i hi => hl i (List.mem_cons_of_mem x hi)

/-- An advance of less than half the circle reaches its instant, for a Cairn far from the end of its count. -/
theorem cairnMax_reaches {c n : Nat} (hc : c < 2 ^ 62) (hn : n ≤ 300000000) : c + n ≤ cairnMax c (roundUp (c + n) 4) := by
  obtain ⟨h1, h2⟩ := roundUp_four_le (c + n)
  generalize roundUp (c + n) 4 = d at h1 h2
  norm_num at hc
  by_cases hd : d = c
  · unfold cairnMax
    split
    · next h =>
      rw [hd, cairnBefore, cairnSince, BitVec.sub_self] at h
      exact absurd h (by decide)
    · omega
  · have hs : cairnSince c d = d - c := by
      rw [cairnSince_eq]
      norm_num
      omega
    unfold cairnMax cairnBefore
    rw [hs, if_pos (by norm_num; omega)]
    norm_num
    omega

/-- The eight tiles of a dump's next group. -/
def State.dumpGroup (s : State) : List Nat := (List.range 8).map fun i => s.dump.tiles + i

theorem State.writeGroup_frame : ∃ h pw, s.dumpGroup.foldl State.writeRecord s =
    { s with host := h, power := pw, dump := { s.dump with tiles := s.dump.tiles + 8 } } := by
  obtain ⟨⟨h, hf⟩, -⟩ := State.writeRecords (s := s) 8
  exact ⟨_, _, hf.frame⟩

section group
variable (hr : s.dump.running = true) (hu : s.dump.unreach = []) (ht : s.dump.tiles + 8 < 320)
  (hh : dumpHead + (s.dump.tiles + 8) * s.dump.recordBytes ≤ s.dump.size)
include hr hu ht hh

omit hr hu in
theorem State.dumpGroup_all : ((s.dumpGroup.filter (· < 320)).filter s.dump.holds) = s.dumpGroup ∧ s.dumpGroup.filter (· < 320) = s.dumpGroup := by
  have h1 : s.dumpGroup.filter (· < 320) = s.dumpGroup := List.filter_eq_self.2 fun j hj => by
    obtain ⟨i, hi, rfl⟩ := List.mem_map.1 hj
    have := List.mem_range.1 hi
    simpa using (by omega : s.dump.tiles + i < 320)
  refine ⟨?_, h1⟩
  rw [h1]
  refine List.filter_eq_self.2 fun j hj => ?_
  obtain ⟨i, hi, rfl⟩ := List.mem_map.1 hj
  have := List.mem_range.1 hi
  have hm : (s.dump.tiles + i + 1) * s.dump.recordBytes ≤ (s.dump.tiles + 8) * s.dump.recordBytes := Nat.mul_le_mul_right _ (by omega)
  simpa [Dump.holds] using Nat.le_trans (Nat.add_le_add_left hm _) hh

/-- The end of a group whose tiles `ts` the dump holds. -/
def State.dumpOn (s : State) (group ts : List Nat) : State :=
  let s2 := (ts.foldl State.writeRecord s).advanceTo (s.cairn + s.dumpTimes ts)
  let s3 := if ts.isEmpty then s2 else { s2 with dump := { s2.dump with cairnEnd := s2.cairn } }
  if ts.length < group.length then State.endDump { s3 with dump := { s3.dump with truncated := true } }
  else if s3.dump.tiles ≥ 320 then s3.endDump
  else s3

omit ht hh in
theorem State.dumpGroupDone_exec : exec (.dumpGroupDone []) s = .next
    (if cairnSince s.dump.cairnStart s.cairn + s.dumpTimes ((s.dumpGroup.filter (· < 320)).filter s.dump.holds) > 300000000 then s
     else s.dumpOn (s.dumpGroup.filter (· < 320)) ((s.dumpGroup.filter (· < 320)).filter s.dump.holds)) := by
  have hs : ({ s with dump := { s.dump with unreach := (s.dump.unreach ++ []).dedup } } : State) = s := by
    have : (s.dump.unreach ++ []).dedup = s.dump.unreach := by rw [hu]; rfl
    rw [this]
  show execDumpGroupDone [] s = _
  rw [execDumpGroupDone, onUnit, if_pos (by rfl), if_neg (by simp [hr])]
  dsimp only
  rw [hs]
  rfl

/-- The module after a group that the dump holds. -/
def State.dumpedOn (s : State) : State :=
  let v := (s.dumpGroup.foldl State.writeRecord s).advanceTo (s.cairn + s.dumpTimes s.dumpGroup)
  { v with dump := { v.dump with cairnEnd := v.cairn } }

omit hr hu ht hh in
theorem State.dumpOn_held {l : List Nat} (hl : l.isEmpty = false) (ht : (l.foldl State.writeRecord s).dump.tiles < 320) :
    s.dumpOn l l = { (l.foldl State.writeRecord s).advanceTo (s.cairn + s.dumpTimes l) with
      dump := { (l.foldl State.writeRecord s).dump with cairnEnd := cairnMax (l.foldl State.writeRecord s).cairn (roundUp (s.cairn + s.dumpTimes l) 4) } } := by
  unfold State.dumpOn
  generalize s.cairn + s.dumpTimes l = n
  generalize l.foldl State.writeRecord s = v at ht ⊢
  rw [hl, if_neg (Nat.lt_irrefl _)]
  exact if_neg (Nat.not_le.2 ht)

theorem State.dumpGroupDone_held (hb : cairnSince s.dump.cairnStart s.cairn + s.dumpTimes s.dumpGroup ≤ 300000000) :
    exec (.dumpGroupDone []) s = .next s.dumpedOn := by
  obtain ⟨h1, h2⟩ := State.dumpGroup_all ht hh
  have hw : (s.dumpGroup.foldl State.writeRecord s).dump.tiles < 320 := by
    obtain ⟨_, _, hf⟩ := State.writeGroup_frame (s := s)
    rw [hf]
    exact ht
  have he : s.dumpGroup.isEmpty = false := rfl
  rw [State.dumpGroupDone_exec hr hu, h1, h2, if_neg (Nat.not_lt.2 hb), State.dumpOn_held he hw, State.dumpedOn]
  generalize s.cairn + s.dumpTimes s.dumpGroup = n
  generalize s.dumpGroup.foldl State.writeRecord s = v
  rfl

end group

/-- What a group of eight changes: its records and its time, and the stagings of Tarns that nothing reads any more. -/
theorem State.dumpedOn_row : s.dumpedOn.dump = { s.dump with tiles := s.dump.tiles + 8, cairnEnd := s.dumpedOn.cairn } ∧
    s.dumpedOn.cairn = cairnMax s.cairn (roundUp (s.cairn + s.dumpTimes s.dumpGroup) 4) ∧
    (∀ j, s.dump.tiles ≤ j → j < s.dump.tiles + 8 → (s.tile j).fenced = true → (s.tile j).tarnPower = .retain →
      s.dumpedOn.hasStaging (320 + j) false = true) ∧
    s.dumpedOn = { s with dump := s.dumpedOn.dump, host := s.dumpedOn.host, cairn := s.dumpedOn.cairn, power := s.dumpedOn.power } := by
  obtain ⟨_, _, hf⟩ := State.writeGroup_frame (s := s)
  have ha : ∀ j, s.dump.tiles ≤ j → j < s.dump.tiles + 8 → (s.tile j).fenced = true → (s.tile j).tarnPower = .retain →
    (s.dumpGroup.foldl State.writeRecord s).hasStaging (320 + j) false = true := (State.writeRecords (s := s) 8).2
  unfold State.dumpedOn
  generalize s.cairn + s.dumpTimes s.dumpGroup = n
  generalize s.dumpGroup.foldl State.writeRecord s = v at hf ha ⊢
  refine ⟨?_, ?_, ha, ?_⟩ <;> rw [hf] <;> rfl

/-- The Tarns of fenced tiles that only a dump kept are asked off at its end. -/
theorem State.endDump_frame : ∃ h, State.OnlyStagings
    { s with host := h, draws := s.draws + 1, dump := { s.dump with done := true, running := false } } s.endDump := by
  obtain ⟨h1, e1⟩ := State.hostRaw_frame (s := s) (s.dump.base + 64) (freeBytes s.draws 0 (min (s.dump.size - 64) 65472))
  obtain ⟨h2, e2⟩ := State.hostRaw_frame (s := { s with host := h1, draws := s.draws + 1 }) s.dump.base
    (State.dumpHeader { s with host := h1 })
  refine ⟨h2, ?_⟩
  unfold State.endDump
  dsimp only
  rw [e1, State.draw, e2]
  exact State.tarnsOff_onlyStagings _

theorem State.endDump_asks {j : Nat} (hj : j < 320) (hf : (s.tile j).fenced = true) (hp : (s.tile j).tarnPower = .retain) :
    s.endDump.hasStaging (320 + j) false = true := by
  obtain ⟨h1, e1⟩ := State.hostRaw_frame (s := s) (s.dump.base + 64) (freeBytes s.draws 0 (min (s.dump.size - 64) 65472))
  obtain ⟨h2, e2⟩ := State.hostRaw_frame (s := { s with host := h1, draws := s.draws + 1 }) s.dump.base
    (State.dumpHeader { s with host := h1 })
  unfold State.endDump
  dsimp only
  rw [e1, State.draw, e2]
  exact State.tarnsOff_asks (List.mem_range.2 hj) hf hp

/-- The module at the end of a dump's budget. -/
def State.outOfTime (s : State) (n : Nat) : State := { s.advanceTo n with dump := { (s.advanceTo n).dump with truncated := true } }

theorem State.dumpBudgetExpiry_exec (hr : s.dump.running = true) :
    exec .dumpBudgetExpiry s = .next (s.outOfTime (s.dump.cairnStart + 300000000)).endDump := by
  show execDumpBudgetExpiry s = _
  rw [execDumpBudgetExpiry, if_neg (by simp [hr])]
  rfl

theorem State.outOfTime_row (n : Nat) : ∃ t, (s.outOfTime n).endDump = t ∧
    t.dump = { s.dump with done := true, running := false, truncated := true } ∧ t.cairn = cairnMax s.cairn (roundUp n 4) ∧
    (∀ j < 320, (s.tile j).fenced = true → (s.tile j).tarnPower = .retain → t.hasStaging (320 + j) false = true) ∧
    t = { s with dump := t.dump, host := t.host, cairn := t.cairn, draws := t.draws, power := t.power } := by
  have ha (j : Nat) (hj : j < 320) (hf : (s.tile j).fenced = true) (hp : (s.tile j).tarnPower = .retain) :
      (s.outOfTime n).endDump.hasStaging (320 + j) false = true := State.endDump_asks (s := s.outOfTime n) hj hf hp
  obtain ⟨_, ⟨_, _, _, _, h⟩, -⟩ := State.endDump_frame (s := s.outOfTime n)
  rw [h] at ha
  exact ⟨_, h, rfl, rfl, ha, rfl⟩

theorem State.sideAccessTimeout_exec {i n : Nat} (hr : s.dump.running = true) (hi : i < 320) (hn : n < 97) (h : (i, n) ∉ s.dump.unreach) :
    exec (.sideAccessTimeout i n) s = .next { s with dump := { s.dump with unreach := s.dump.unreach ++ [(i, n)] } } := by
  show execSideAccessTimeout i n s = _
  rw [execSideAccessTimeout, onUnit, if_pos (by simp [hi, hn]), if_pos (by simp [hr, h])]

/-- A group takes the time of its slowest record. -/
theorem State.dumpTimes_group {c b : Nat} (hb : ∀ i < 8, c + s.dumpTime (s.dump.tiles + i) ≤ b) : c + s.dumpTimes s.dumpGroup ≤ b ∧
    ∀ i < 8, s.dumpTime (s.dump.tiles + i) ≤ s.dumpTimes s.dumpGroup := by
  have hle (i : Nat) (hi : i ∈ s.dumpGroup) : c + s.dumpTime i ≤ b := by
    obtain ⟨k, hk, rfl⟩ := List.mem_map.1 hi
    exact hb k (List.mem_range.1 hk)
  obtain ⟨-, hd, hm⟩ := State.dumpTimes_max (s := s) s.dumpGroup 0
  have h0 := hb 0 (by omega)
  have hmax : s.dumpTimes s.dumpGroup ≤ b - c := hm _ (Nat.zero_le _) fun i hi => by have := hle i hi; omega
  exact ⟨by omega, fun i hi => hd _ (List.mem_map.2 ⟨i, List.mem_range.2 hi, rfl⟩)⟩

/-- Settles O20: eight records follow one another, the slowest of them gives the time, and the budget ends what is left. -/
theorem crashDumpRows : Obligations.CrashDumpRows := by
  unfold Obligations.CrashDumpRows
  intro s hr
  refine ⟨fun hu ht hh hb => ?_, ?_, fun i n hi hn h => State.sideAccessTimeout_exec hr hi hn h⟩
  · obtain ⟨hg, hd⟩ := State.dumpTimes_group hb
    obtain ⟨h1, h2, h3, h4⟩ := State.dumpedOn_row (s := s)
    refine ⟨_, State.dumpGroupDone_held hr hu ht hh hg, h1, fun hc i hi => ?_, h3, h4⟩
    rw [h2]
    exact Nat.le_trans (Nat.add_le_add_left (hd i hi) _) (cairnMax_reaches hc ((Nat.le_add_left _ _).trans hg))
  · obtain ⟨t, ht, h1, h2, h3⟩ := State.outOfTime_row (s := s) (s.dump.cairnStart + 300000000)
    exact ⟨t, (State.dumpBudgetExpiry_exec hr).trans (congrArg _ ht), h1, h2, h3⟩

end Sys2Proof.Machine
end

section
/-! PROOF. Descriptors that start and complete (R324 to R330), and those of the fabric: windows, imports and routing epochs (R289 to R291,
R299 to R303, R344). -/

namespace Sys2Proof.Machine

variable {s t u : State}

/-! ### A descriptor that starts -/

section starts
variable {opc d : Nat} {form : Desc → Form} {x : Desc}

theorem State.starts_desc (h : s.starts d opc form x) : s.desc d = some x := h.2.1

theorem State.starts_opcode (h : s.starts d opc form x) : x.opcode = opc := h.2.2.1

theorem State.desc_tag (h : s.desc d = some x) : x.tag = d := by
  have := List.find?_some h
  simpa using this

/-- A descriptor whose action reads no host memory starts whether or not DMA is up (R345). -/
theorem State.runDesc_of_starts_local (h : s.starts d opc form x) (hr : x.readsHost = false) (act : Desc → State → State) :
    s.runDesc opc d form act = .next (act x s) := by
  obtain ⟨hserve, hdesc, hopc, hnew, hturn, hform⟩ := h
  have hrun : s.mayRun x = true := by simp [State.mayRun, hserve, hnew, hturn, hr]
  rw [State.runDesc, hdesc]
  dsimp only
  rw [if_neg (by simp [hopc, hrun]), hform]

/-- Descriptors that read no host memory by their opcode alone. -/
theorem State.starts_local (h : s.starts d opc form x) (ho : opc ∉ [0x10, 0x70, 0x20, 0x21, 0x31, 0x71]) : x.readsHost = false := by
  simp only [List.mem_cons, List.not_mem_nil, or_false, not_or] at ho
  obtain ⟨h1, h2, h3, h4, h5, h6⟩ := ho
  unfold Desc.readsHost
  rw [State.starts_opcode h]
  split <;> simp_all

theorem State.holdDesc_desc (h : s.desc d = some x) : (s.holdDesc d).desc d = some { x with started := true } := by
  have hp : ((fun e : Desc => e.tag == d) ∘ fun e : Desc => if e.tag = d then { e with started := true } else e) = fun e => e.tag == d := by
    funext e
    show ((if e.tag = d then { e with started := true } else e : Desc).tag == d) = (e.tag == d)
    split <;> rfl
  show ((s.host.descs.map fun e => if e.tag = d then { e with started := true } else e).find? fun e => e.tag == d) = _
  rw [List.find?_map, hp]
  have h : s.host.descs.find? (fun e => e.tag == d) = some x := h
  rw [h, Option.map_some, if_pos (State.desc_tag h)]

end starts

/-! ### Completion records -/

theorem toLe_length (n v : Nat) : (toLe n v).length = n := by
  induction n generalizing v with
  | zero => rfl
  | succ n ih => simp [toLe, ih]

theorem recBytes_length (r : Rec) (p l c : Nat) : (recBytes r p l c).length = 32 := by simp [recBytes, toLe_length]

theorem Tab.getAll_eq_map {α : Type} (d : α) (m : Tab α) (k n : Nat) : Tab.getAll d m k n = (List.range n).map fun i => Tab.get d m (k + i) := by
  induction n generalizing k with
  | zero => rfl
  | succ n ih =>
    rw [Tab.getAll, ih, List.range_succ_eq_map, List.map_cons, List.map_map]
    simp [Function.comp_def, Nat.add_assoc, Nat.add_comm 1]

/-- What has been written reads back. -/
theorem Tab.getAll_putAll {α : Type} [DecidableEq α] {d : α} {m : Tab α} {k : Nat} {vs : List α} :
    Tab.getAll d (Tab.putAll d k vs m) k vs.length = vs := by
  rw [Tab.getAll_eq_map]
  refine List.ext_getElem (by simp) fun i h1 h2 => ?_
  rw [List.getElem_map, List.getElem_range]
  exact Tab.get_putAll h2

/-- The tail of a completion ring in host memory (R330). -/
def Ring.tailAt (c : Ring) : Nat := c.base + 32 * (c.count % c.size)

section record
variable {q : Nat} {r : Rec}

theorem State.writeRec_frame : ∃ h, s.writeRec q r = { s with host := h } := by
  unfold State.writeRec
  dsimp only
  obtain ⟨_, _, h⟩ := State.hostWrite_frame (s := s) ((s.cq q).base + 32 * ((s.cq q).count % (s.cq q).size))
    (recBytes r (1 - (s.cq q).count / (s.cq q).size % 2) (s.cq q).lost (bits s.cairn 10 32))
  rw [h]
  exact ⟨_, rfl⟩

/-- A record stands at its ring's tail, and nothing else of host memory changes (R330). -/
theorem State.writeRec_row (hd : s.dma = true) : ((s.writeRec q r).cq q).count = ((s.cq q).count + 1) % 2 ^ 32 ∧
    Tab.getAll 0 (s.writeRec q r).host.mem (s.cq q).tailAt 32 =
      recBytes r (1 - (s.cq q).count / (s.cq q).size % 2) (s.cq q).lost (bits s.cairn 10 32) ∧
    ∀ a, a < (s.cq q).tailAt ∨ (s.cq q).tailAt + 32 ≤ a → Tab.get 0 (s.writeRec q r).host.mem a = Tab.get 0 s.host.mem a := by
  have hm : (s.writeRec q r).host.mem = Tab.putAll 0 (s.cq q).tailAt
      (recBytes r (1 - (s.cq q).count / (s.cq q).size % 2) (s.cq q).lost (bits s.cairn 10 32)) s.host.mem := by
    unfold State.writeRec State.hostWrite
    dsimp only
    rw [if_pos hd]
    rfl
  have hl := recBytes_length r (1 - (s.cq q).count / (s.cq q).size % 2) (s.cq q).lost (bits s.cairn 10 32)
  refine ⟨?_, ?_, fun a ha => ?_⟩
  · unfold State.writeRec
    dsimp only
    rw [State.updCq_cq, if_pos rfl]
    obtain ⟨_, _, h⟩ := State.hostWrite_frame (s := s) ((s.cq q).base + 32 * ((s.cq q).count % (s.cq q).size))
      (recBytes r (1 - (s.cq q).count / (s.cq q).size % 2) (s.cq q).lost (bits s.cairn 10 32))
    rw [h]
    rfl
  · rw [hm]
    generalize recBytes r _ _ _ = bs at hl
    rw [← hl]
    exact Tab.getAll_putAll
  · rw [hm]
    exact Tab.get_putAll_other (by rw [hl]; exact ha)

end record

/-- A completion reaches the host's memory, its rings and the store of descriptors alone. -/
theorem State.complete_frame (x : Desc) (st dt res : Nat) : ∃ h, s.complete x st dt res = { s with host := h } := by
  unfold State.complete State.writeCompletion
  dsimp only
  obtain ⟨_, h⟩ := State.writeRec_frame (s := s.updCq (s.sq x.ring).cq fun c => { c with reserved := c.reserved - 1 })
    (q := (s.sq x.ring).cq) (r := ⟨0, st, dt, x.opcode, x.ring, x.cookie, (s.sq x.ring).count, res⟩)
  rw [h]
  exact ⟨_, rfl⟩

theorem State.complete_desc (x : Desc) (st dt res : Nat) : (s.complete x st dt res).desc x.tag = none := by
  show ((State.writeCompletion ..).host.descs.filter (·.tag != x.tag)).find? (·.tag == x.tag) = none
  rw [List.find?_filter, List.find?_eq_none]
  intro e _
  simp

/-- A completion's record, and what it leaves of host memory (R328). -/
theorem State.complete_record {x : Desc} {st dt res q : Nat} (hd : s.dma = true) (hq : q = (s.sq x.ring).cq) :
    ((s.complete x st dt res).cq q).count = ((s.cq q).count + 1) % 2 ^ 32 ∧
    Tab.getAll 0 (s.complete x st dt res).host.mem (s.cq q).tailAt 32 = recBytes ⟨0, st, dt, x.opcode, x.ring, x.cookie, (s.sq x.ring).count, res⟩
      (1 - (s.cq q).count / (s.cq q).size % 2) (s.cq q).lost (bits s.cairn 10 32) ∧
    ∀ a, a < (s.cq q).tailAt ∨ (s.cq q).tailAt + 32 ≤ a → Tab.get 0 (s.complete x st dt res).host.mem a = Tab.get 0 s.host.mem a := by
  subst hq
  have hc : (s.updCq (s.sq x.ring).cq fun c => { c with reserved := c.reserved - 1 }).cq (s.sq x.ring).cq =
      { s.cq (s.sq x.ring).cq with reserved := (s.cq (s.sq x.ring).cq).reserved - 1 } := by rw [State.updCq_cq, if_pos rfl]
  have h := State.writeRec_row (s := s.updCq (s.sq x.ring).cq fun c => { c with reserved := c.reserved - 1 })
    (q := (s.sq x.ring).cq) (r := ⟨0, st, dt, x.opcode, x.ring, x.cookie, (s.sq x.ring).count, res⟩) hd
  rw [hc] at h
  exact h

/-- Settles O24: a NOP is its completion. -/
theorem nopWritesOneRecord : Obligations.NopWritesOneRecord := by
  unfold Obligations.NopWritesOneRecord
  intro s d x h hd
  have he : exec (.nop d) s = .next (s.complete x stOk 0 0) := State.runDesc_of_starts h hd _
  obtain ⟨h1, h2, h3⟩ := State.complete_record (x := x) (st := stOk) (dt := 0) (res := 0) hd rfl
  rw [State.starts_opcode h] at h2
  obtain ⟨_, hf⟩ := State.complete_frame (s := s) x stOk 0 0
  have hn := State.complete_desc (s := s) x stOk 0 0
  rw [State.desc_tag (State.starts_desc h)] at hn
  exact ⟨_, he, ⟨h1, h2, h3⟩, hn, by rw [hf]⟩

/-! ### Windows and imports -/

theorem State.windowIndex_frame {i : Nat} {s1 : State} (h : s.windowIndex = some (i, s1)) :
    ∃ n ls, s1 = { s with fabric := { s.fabric with windowFresh := n, windowFreed := ls } } := by
  unfold State.windowIndex at h
  dsimp only at h
  split at h
  · obtain ⟨-, rfl⟩ := Prod.mk.inj (Option.some.inj h)
    exact ⟨_, _, rfl⟩
  · split at h
    · exact absurd h (by simp)
    · obtain ⟨-, rfl⟩ := Prod.mk.inj (Option.some.inj h)
      exact ⟨_, _, rfl⟩

/-- Settles O34: each row is one change of the window or import table, and its completion where it has one. -/
theorem windowAndImportRows : Obligations.WindowAndImportRows := by
  unfold Obligations.WindowAndImportRows
  refine ⟨fun s s1 d i x hx hno hi hfit => ?_, fun s d x hx ho hg => ?_, fun s i tag hi hc => ?_, fun s d i x hx hno hi => ?_,
    fun s d x hx hu => ?_⟩
  · obtain ⟨n, ls, rfl⟩ := State.windowIndex_frame hi
    refine ⟨State.updWindow { s with fabric := { s.fabric with windowFresh := n, windowFreed := ls } } i fun _ =>
      ⟨windowGen (s.window i).gen, true, none, x.arg % 2, x.get 16 8, x.get 24 8, x.get 32 2, x.get 34 2⟩, ?_, ?_, fun j hj => ?_, rfl⟩
    · show execWindowOpen d s = _
      rw [execWindowOpen, State.runDesc_of_starts_local hx (State.starts_local hx (by decide))]
      dsimp only
      rw [hno, if_neg Bool.false_ne_true, hi]
      dsimp only
      rw [hfit]
      rfl
    · rw [State.updWindow_window, if_pos rfl]
    · rw [State.updWindow_window, if_neg hj]; rfl
  · have ht := State.desc_tag (State.starts_desc hx)
    refine ⟨(s.updWindow (x.get 36 4 % 65536) fun w => { w with gen := windowGen w.gen, isOpen := false, closing := some d }).holdDesc d,
      ?_, ?_, State.holdDesc_desc (s := s.updWindow ..) (x := x) hx.2.1, rfl, rfl⟩
    · show execWindowClose d s = _
      rw [execWindowClose, State.runDesc_of_starts_local hx (State.starts_local hx (by decide))]
      dsimp only
      rw [if_neg (by simp [ho, hg]), ht]
    · show (s.updWindow ..).window _ = _
      rw [State.updWindow_window, if_pos rfl]
  · refine ⟨{ s.updWindow i fun w => { w with closing := none } with
      fabric := { (s.updWindow i fun w => { w with closing := none }).fabric with windowFreed := s.fabric.windowFreed ++ [i] } }, ?_, ?_, rfl,
      fun j hj => ?_, rfl⟩
    · show execWindowCloseDone i s = _
      rw [execWindowCloseDone, onUnit, if_pos (by simpa using hi), hc]
      rfl
    · show State.window (s.updWindow i fun w => { w with closing := none }) i = _
      rw [State.updWindow_window, if_pos rfl]
    · show State.window (s.updWindow i fun w => { w with closing := none }) j = _
      rw [State.updWindow_window, if_neg hj]
  · refine ⟨{ s with fabric := { s.fabric with
      imports := Tab.put .reset i ⟨true, x.get 36 4, x.get 40 2, x.get 42 1, x.get 16 8, x.get 24 8⟩ s.fabric.imports } }, ?_, ?_,
      fun j hj => ?_, rfl⟩
    · show execWindowImport d s = _
      rw [execWindowImport, State.runDesc_of_starts_local hx (State.starts_local hx (by decide))]
      dsimp only
      rw [hi]
      dsimp only
      rw [hno]
      rfl
    · dsimp only
      rw [Tab.get_put, if_pos rfl]
    · dsimp only
      rw [Tab.get_put, if_neg hj]
  · refine ⟨{ s with fabric := { s.fabric with imports := Tab.put .reset (x.get 44 2) .reset s.fabric.imports } }, ?_, ?_, fun j hj => ?_, rfl⟩
    · show execWindowUnimport d s = _
      rw [execWindowUnimport, State.runDesc_of_starts_local hx (State.starts_local hx (by decide))]
      dsimp only
      rw [if_pos hu]
    · dsimp only
      rw [Tab.get_put, if_pos rfl]
    · dsimp only
      rw [Tab.get_put, if_neg hj]

/-! ### Routing epochs -/

theorem State.switchEpoch_loaded {e n : Nat} {r : Routing} (ho : s.fabric.other = some r) (he : r.epoch = e) (hd : s.fabric.draining = false) :
    s.switchEpoch e n = { s with fabric := { s.fabric with
      active := r, loaded := true, other := some s.fabric.active, draining := true, switchedAt := n, switch_ := none } } := by
  rw [State.switchEpoch]
  dsimp only
  rw [ho]
  dsimp only
  rw [if_pos (by simp [he, hd])]

/-- The old table released at the instant `n`. -/
theorem State.released_row (n e : Nat) : ∃ t, (({ s.advanceTo n with fabric := { (s.advanceTo n).fabric with other := none, draining := false } }
      : State).raise 0x150A (s.advanceTo n).cairn e 0) = t ∧ t.fabric = { s.fabric with other := none, draining := false } ∧
    t.cairn = cairnMax s.cairn (roundUp n 4) ∧ t = { s with cairn := t.cairn, fabric := t.fabric, ledger := t.ledger, host := t.host } := by
  obtain ⟨_, h⟩ := State.raise_only (s := { s.advanceTo n with fabric := { (s.advanceTo n).fabric with other := none, draining := false } })
    0x150A (s.advanceTo n).cairn e 0
  exact ⟨_, h, rfl, rfl, rfl⟩

/-- Settles O35: a table is held, scheduled, switched and released, each in the one case that its rule names. -/
theorem routingEpochRows : Obligations.RoutingEpochRows := by
  unfold Obligations.RoutingEpochRows
  refine ⟨fun s d x hx hok => ⟨fun ha => ?_, fun hd he => ?_⟩, fun s d x r hx ho he hne hd hb => ?_, fun s e T r hs ho he hd => ?_,
    fun s r ho hd hl hn => ?_⟩
  · show execFabricTable d s = _
    rw [execFabricTable, State.runDesc_of_starts_local hx (State.starts_local hx (by decide))]
    dsimp only
    rw [hok, ha]
    exact congrArg _ (if_pos rfl)
  · have hne : ¬(⟨x.arg % 4, x.get 16 8, x.get 24 8, x.get 32 8⟩ : Routing) = s.fabric.active := fun h => by
      have := congrArg Routing.epoch h
      simp only at this
      omega
    show execFabricTable d s = _
    rw [execFabricTable, State.runDesc_of_starts_local hx (State.starts_local hx (by decide))]
    dsimp only
    rw [if_neg (by simp [hok]), if_neg hne, if_neg (by simp [hd]), if_neg (by simp [he])]
  · show execFabricEpoch d s = _
    rw [execFabricEpoch, State.runDesc_of_starts_local hx (State.starts_local hx (by decide))]
    dsimp only
    rw [ho, if_neg (Ne.symm hne)]
    dsimp only
    rw [if_neg (by simp [he, hd]), if_neg (by simp [hb])]
  · refine ⟨(s.advanceTo T).switchEpoch e T, ?_, ?_⟩
    · show execFzEpochSwitch s = _
      rw [execFzEpochSwitch, hs]
    · rw [State.switchEpoch_loaded (s := s.advanceTo T) ho he hd]
      exact ⟨rfl, rfl, rfl⟩
  · obtain ⟨t, ht, h1, h2, h3⟩ := State.released_row (s := s) (s.fabric.switchedAt + 1200004) r.epoch
    refine ⟨t, ?_, h1, h2, h3⟩
    rw [← ht]
    show execFzEpochRelease s = _
    rw [execFzEpochRelease, ho]
    dsimp only
    rw [if_neg (by simp [hd, hl, hn])]

end Sys2Proof.Machine
end

section
/-! PROOF. Filzor ports: training, identity, hop recovery, beacons and the forwarding of packets (R271 to R292, R304, R305). -/

namespace Sys2Proof.Machine

variable {s t u : State} {p q : Nat}

/-! ### One port changes, with its reports -/

/-- Port `p` has changed, with the reports that this brings, and no other port. -/
def State.OnlyPort (p : Nat) (s t : State) : Prop := (∀ q, q ≠ p → t.port q = s.port q) ∧ ∃ ps l h,
  t = { s with fabric := { s.fabric with ports := ps }, ledger := l, host := h }

namespace State.OnlyPort

theorem refl (s : State) : s.OnlyPort p s := ⟨fun _ _ => rfl, s.fabric.ports, s.ledger, s.host, rfl⟩

theorem trans (h : s.OnlyPort p t) (h' : t.OnlyPort p u) : s.OnlyPort p u := by
  obtain ⟨hq, _, _, _, rfl⟩ := h
  obtain ⟨hq', _, _, _, rfl⟩ := h'
  exact ⟨fun q h => (hq' q h).trans (hq q h), _, _, _, rfl⟩

theorem frame (h : s.OnlyPort p t) : t = { s with fabric := { s.fabric with ports := t.fabric.ports }, ledger := t.ledger, host := t.host } := by
  obtain ⟨-, _, _, _, rfl⟩ := h
  rfl

theorem mem (h : s.OnlyPort p t) : t.mem = s.mem := by rw [h.frame]

theorem tiles (h : s.OnlyPort p t) : t.tiles = s.tiles := by rw [h.frame]

theorem graphs (h : s.OnlyPort p t) : t.graphs = s.graphs := by rw [h.frame]

theorem dims (h : s.OnlyPort p t) : t.fabric.dims = s.fabric.dims := by rw [h.frame]

end State.OnlyPort

theorem State.updPort_onlyPort (f : FzPort → FzPort) : s.OnlyPort p (s.updPort p f) :=
  ⟨fun q hq => by rw [State.updPort_port, if_neg hq], _, s.ledger, s.host, rfl⟩

theorem State.raise_onlyPort (c x y z : Nat) : s.OnlyPort p (s.raise c x y z) := by
  obtain ⟨h, hr⟩ := State.raise_only (s := s) c x y z
  exact ⟨fun q _ => State.raise_port c x y z q, s.fabric.ports, _, h, hr⟩

theorem State.raiseAll_onlyPort (es : List Event) : s.OnlyPort p (State.raiseAll es s) := by
  obtain ⟨h, l, hr⟩ := State.raiseAll_only (s := s) es
  exact ⟨fun q _ => by rw [hr]; rfl, s.fabric.ports, _, h, hr⟩

theorem State.raiseAll_port (es : List Event) : (State.raiseAll es s).port q = s.port q := by
  obtain ⟨h, l, hr⟩ := State.raiseAll_only (s := s) es
  rw [hr]
  rfl

theorem State.portTo_onlyPort (st : PortState) : s.OnlyPort p (s.portTo p st) := by
  unfold State.portTo
  split
  · exact .refl s
  · exact (State.updPort_onlyPort _).trans (State.raise_onlyPort _ _ _ _)

theorem State.portTo_same (st : PortState) : (s.portTo p st).port p = { s.port p with state := st } := by
  rw [State.portTo_port, if_pos rfl]

theorem State.portDown_onlyPort : s.OnlyPort p (s.portDown p) :=
  ((State.updPort_onlyPort _).trans (State.portTo_onlyPort _)).trans (State.raise_onlyPort _ _ _ _)

theorem State.updPort_same (f : FzPort → FzPort) : (s.updPort p f).port p = f (s.port p) := by
  rw [State.updPort_port, if_pos rfl]

/-- A port that goes DOWN has its packets dropped (R278). -/
theorem State.portDown_same : (s.portDown p).port p = { (s.port p).dropped with state := .down } := by
  rw [State.portDown, State.raise_port, State.portTo_same, State.updPort_same]

theorem State.noteSaturated_port (old new : Counter) (a b c : Nat) : (s.noteSaturated old new a b c).port q = s.port q := by
  unfold State.noteSaturated
  split
  · exact State.raise_port _ _ _ _ _
  · rfl

theorem State.noteSaturated_onlyPort (old new : Counter) (a b c : Nat) : s.OnlyPort p (s.noteSaturated old new a b c) := by
  unfold State.noteSaturated
  split
  · exact State.raise_onlyPort _ _ _ _
  · exact .refl s

theorem State.countPort_onlyPort (i n : Nat) : s.OnlyPort p (s.countPort p i n) :=
  (State.updPort_onlyPort _).trans (State.noteSaturated_onlyPort _ _ _ _ _)

theorem State.countPort_same (i n : Nat) :
    (s.countPort p i n).port p = (s.port p).setCounter i (((s.port p).counter i).add n) := by
  rw [State.countPort, State.noteSaturated_port, State.updPort_same]

theorem State.addDefect_onlyPort (k source id cause : Nat) : s.OnlyPort p (s.addDefect k source id cause) := by
  unfold State.addDefect
  split
  · exact .refl s
  · exact ⟨fun _ _ => rfl, s.fabric.ports, _, s.host, rfl⟩

theorem State.settleScore_port_onlyPort (old n cause : Nat) : s.OnlyPort p (s.settleScore .filzor p old n cause) := by
  unfold State.settleScore
  extract_lets part s1 s2
  have h1 : s.OnlyPort p s1 := State.updPort_onlyPort _
  have h2 : s.OnlyPort p s2 := h1.trans (State.raise_onlyPort _ _ _ _)
  split
  · exact h1
  · split
    · exact h2.trans (State.addDefect_onlyPort _ _ _ _)
    · exact h2

theorem State.blame_port_onlyPort (w cause : Nat) : s.OnlyPort p (s.blame .filzor p w cause) := by
  unfold State.blame State.settle
  extract_lets old s1
  have h1 : s.OnlyPort p s1 := State.settleScore_port_onlyPort _ _ _
  split
  · exact h1.trans (((State.updPort_onlyPort _).trans (State.portTo_onlyPort _)).trans (State.raise_onlyPort _ _ _ _))
  · exact h1

/-- Below FENCED a port's weight only adds to its score (R372, R373). -/
theorem State.blame_port_same {w cause : Nat} (h3 : (s.port p).part ≠ 3) (hw : (s.port p).score + w < 49152) :
    (s.blame .filzor p w cause).port p = { s.port p with
      score := (s.port p).score + w, part := nextPart (partThresholds .filzor) (s.port p).part ((s.port p).score + w) } := by
  have hmin : min ((s.port p).score + w) 65535 = (s.port p).score + w := by omega
  have hpart : nextPart (partThresholds .filzor) (s.port p).part ((s.port p).score + w) ≠ 3 := by
    unfold nextPart
    rw [if_neg (by simp [h3, partThresholds]; omega)]
    split
    · nofun
    · split
      · nofun
      · nofun
  unfold State.blame State.settle
  simp only [State.score, hmin]
  rw [if_neg (by simp [hpart])]
  unfold State.settleScore
  extract_lets part s1 s2
  have h1 : s1.port p = { s.port p with score := (s.port p).score + w, part := part } := State.updPort_same _
  split
  · exact h1
  · rw [State.raise_port, h1]

theorem State.portStep_exec {from_ : PortState} {act : State → State} (hp : p < 6) (h : (s.port p).state = from_) :
    s.portStep p from_ act = .next (act s) := by
  rw [State.portStep, onUnit, if_pos (by simpa using hp), if_pos h]

/-! ### Training (R272 to R274, R278) -/

section training
variable {c : Instr}

/-- What a training row leaves of the other ports and of the module, given what it does to its own. -/
theorem State.trained {old new : PortState} {act : State → State} (hp : p < 6) (hold : (s.port p).state = old)
    (h : s.OnlyPort p (act s)) (hnew : ((act s).port p).state = new)
    (hdown : new = .down → (act s).port p = { (s.port p).dropped with state := .down }) :
    ∃ t, s.portStep p old act = .next t ∧ (t.port p).state = new ∧ (∀ q, q ≠ p → t.port q = s.port q) ∧
      (new = .down → (t.port p).input = [] ∧ (t.port p).output = [] ∧ (t.port p).replay = []) ∧
      t = { s with fabric := { s.fabric with ports := t.fabric.ports }, ledger := t.ledger, host := t.host } :=
  ⟨act s, State.portStep_exec hp hold, hnew, h.1, fun hn => by rw [hdown hn]; exact ⟨rfl, rfl, rfl⟩, h.frame⟩

theorem State.trained_to {old new : PortState} {act : State → State} (hp : p < 6) (hold : (s.port p).state = old)
    (hn : new ≠ .down) (h : s.OnlyPort p (act s)) (hnew : ((act s).port p).state = new) :
    ∃ t, s.portStep p old act = .next t ∧ (t.port p).state = new ∧ (∀ q, q ≠ p → t.port q = s.port q) ∧
      (new = .down → (t.port p).input = [] ∧ (t.port p).output = [] ∧ (t.port p).replay = []) ∧
      t = { s with fabric := { s.fabric with ports := t.fabric.ports }, ledger := t.ledger, host := t.host } :=
  State.trained hp hold h hnew fun h => absurd h hn

theorem State.trained_down {old : PortState} {act : State → State} (hp : p < 6) (hold : (s.port p).state = old)
    (ha : act s = s.portDown p) :
    ∃ t, s.portStep p old act = .next t ∧ (t.port p).state = .down ∧ (∀ q, q ≠ p → t.port q = s.port q) ∧
      (PortState.down = .down → (t.port p).input = [] ∧ (t.port p).output = [] ∧ (t.port p).replay = []) ∧
      t = { s with fabric := { s.fabric with ports := t.fabric.ports }, ledger := t.ledger, host := t.host } :=
  State.trained hp hold (ha ▸ State.portDown_onlyPort) (by rw [ha, State.portDown_same]) fun _ => by rw [ha, State.portDown_same]

/-- What a signal detected does (R272). -/
def State.signalled (p : Nat) (s : State) : State :=
  (s.updPort p fun x => { x with taps := (s.savedTaps p).getD x.taps }).portTo p .equalise

theorem State.signalled_onlyPort : s.OnlyPort p (s.signalled p) := (State.updPort_onlyPort _).trans (State.portTo_onlyPort _)

theorem State.signalled_state : ((s.signalled p).port p).state = .equalise := by rw [State.signalled, State.portTo_same]

/-- What the retry of a port that is DOWN does (R272). -/
def State.retried (p : Nat) (s : State) : State := if (s.port p).enable then s.portTo p .detect else s

/-- The port at the end of alignment where the lower half of its lanes is good (R274). -/
def State.alignedPort (s : State) (p failed : Nat) : State :=
  if failed % 256 = 0 then (s.updPort p fun x => { x with half := false }).portTo p .identify
  else ((s.updPort p fun x => { x with half := true }).raise 0x1506 (failed % 256) p 0).portTo p .identify

theorem State.alignedPort_onlyPort (failed : Nat) : s.OnlyPort p (s.alignedPort p failed) := by
  unfold State.alignedPort
  split
  · exact (State.updPort_onlyPort _).trans (State.portTo_onlyPort _)
  · exact ((State.updPort_onlyPort _).trans (State.raise_onlyPort _ _ _ _)).trans (State.portTo_onlyPort _)

theorem State.alignedPort_same (failed : Nat) :
    (s.alignedPort p failed).port p = { s.port p with half := decide (failed % 256 ≠ 0), state := .identify } := by
  unfold State.alignedPort
  split
  · next h => rw [State.portTo_same, State.updPort_same]; simp [h]
  · next h => rw [State.portTo_same, State.raise_port, State.updPort_same]; simp [h]

/-- What the end of alignment does (R274). -/
def State.afterAlign (p failed : Nat) (s : State) : State :=
  if failed % 256 = 0 then (s.updPort p fun x => { x with half := false }).portTo p .identify
  else if failed % 16 = 0 then
    ((s.updPort p fun x => { x with half := true }).raise 0x1506 (failed % 256) p 0).portTo p .identify
  else s.portDown p

theorem State.afterAlign_good {failed : Nat} (h : failed % 16 = 0) : s.afterAlign p failed = s.alignedPort p failed := by
  unfold State.afterAlign State.alignedPort
  rw [if_pos h]

theorem State.afterAlign_bad {failed : Nat} (h : failed % 16 ≠ 0) : s.afterAlign p failed = s.portDown p := by
  unfold State.afterAlign
  rw [if_neg (by omega), if_neg h]

/-- What the end of retraining does (R278). -/
def State.afterRetrain (p : Nat) (ok : Bool) (s : State) : State :=
  let n := (s.port p).retrains + 1
  if ok then
    let s1 := (s.updPort p fun x => { x with retrains := 0, resent := 0 }).portTo p .up
    s1.updPort p fun x => { x with wire := x.replay.map (s1.codeword p) }
  else if n ≥ 3 then s.portDown p
  else s.updPort p fun x => { x with retrains := n }

theorem State.afterRetrain_onlyPort (ok : Bool) : s.OnlyPort p (s.afterRetrain p ok) := by
  unfold State.afterRetrain
  extract_lets n s1
  split
  · exact ((State.updPort_onlyPort _).trans (State.portTo_onlyPort _)).trans (State.updPort_onlyPort _)
  · split
    · exact State.portDown_onlyPort
    · exact State.updPort_onlyPort _

theorem State.afterRetrain_up : ((s.afterRetrain p true).port p).state = .up := by
  unfold State.afterRetrain
  rw [if_pos rfl, State.updPort_same, State.portTo_same]

theorem State.afterRetrain_down (h : 2 ≤ (s.port p).retrains) : s.afterRetrain p false = s.portDown p := by
  unfold State.afterRetrain
  dsimp only
  rw [if_neg nofun, if_pos (by omega)]

theorem State.afterRetrain_again (h : (s.port p).retrains < 2) :
    s.afterRetrain p false = s.updPort p fun x => { x with retrains := (s.port p).retrains + 1 } := by
  unfold State.afterRetrain
  dsimp only
  rw [if_neg nofun, if_neg (by omega)]

theorem State.portRetrain_onlyPort : s.OnlyPort p (s.portRetrain p) := by
  unfold State.portRetrain
  split
  · extract_lets s1
    have h1 : s.OnlyPort p s1 :=
      ((State.updPort_onlyPort _).trans (State.countPort_onlyPort _ _)).trans (State.portTo_onlyPort _)
    exact (h1.trans (State.updPort_onlyPort _)).trans (State.blame_port_onlyPort _ _)
  · exact .refl s

/-- A port that enters RETRAIN takes a weight of 64 (R278, R372). -/
theorem State.portRetrain_same (hup : (s.port p).state = .up) (h3 : (s.port p).part ≠ 3) (hw : (s.port p).score + 64 < 49152) :
    ((s.portRetrain p).port p).state = .retrain ∧ ((s.portRetrain p).port p).score = (s.port p).score + 64 := by
  unfold State.portRetrain
  rw [if_pos hup]
  extract_lets s1
  have hs1 : (s1.port p).state = .retrain ∧ (s1.port p).part = (s.port p).part ∧ (s1.port p).score = (s.port p).score := by
    simp only [s1, State.portTo_same, State.countPort_same, State.updPort_same, FzPort.setCounter]
    exact ⟨trivial, trivial, trivial⟩
  obtain ⟨hst, hpart, hscore⟩ := hs1
  have hw2 : ((s1.updPort p fun x => { x with wire := [s1.linkWord p false 0] }).port p) =
      { s1.port p with wire := [s1.linkWord p false 0] } := State.updPort_same _
  generalize (s1.updPort p fun x => { x with wire := [s1.linkWord p false 0] }) = s2 at hw2
  have hpart2 : (s2.port p).part = (s.port p).part := by rw [hw2, ← hpart]
  have hscore2 : (s2.port p).score = (s.port p).score := by rw [hw2, ← hscore]
  rw [State.blame_port_same (hpart2 ▸ h3) (hscore2 ▸ hw)]
  exact ⟨by rw [hw2, ← hst], by rw [← hscore2]⟩

end training

/-- Settles O27: each training row changes its own port through `portTo` or `portDown`. -/
theorem portTrainingSteps : Obligations.PortTrainingSteps := by
  intro s p hp
  refine ⟨fun c old new hold hc => ?_, fun failed hst hf => ?_, fun hst hr => ?_, fun hst h3 hw => ?_⟩
  · obtain ⟨rfl, rfl, rfl⟩ | ⟨rfl, rfl, rfl⟩ | ⟨rfl, rfl, rfl⟩ | ⟨failed, hf, rfl, rfl, rfl⟩ | ⟨failed, hf, hf', rfl, rfl, rfl⟩ |
      ⟨failed, hf, rfl, rfl, rfl⟩ | ⟨rfl, rfl, rfl⟩ | ⟨rfl, hen, rfl, rfl⟩ | ⟨rfl, rfl, rfl⟩ | ⟨rfl, rfl, rfl⟩ | ⟨rfl, hn, rfl, rfl⟩ := hc
    · exact State.trained_to (act := State.signalled p) hp hold (by decide) State.signalled_onlyPort State.signalled_state
    · exact State.trained_to (act := State.portTo p .align) hp hold (by decide) (State.portTo_onlyPort _) (by rw [State.portTo_same])
    · exact State.trained_down (act := State.portDown p) hp hold rfl
    · exact State.trained_to (act := State.afterAlign p failed) hp hold (by decide)
        (by rw [State.afterAlign_good (by omega)]; exact State.alignedPort_onlyPort failed)
        (by rw [State.afterAlign_good (by omega), State.alignedPort_same])
    · exact State.trained_to (act := State.afterAlign p failed) hp hold (by decide)
        (by rw [State.afterAlign_good hf']; exact State.alignedPort_onlyPort failed)
        (by rw [State.afterAlign_good hf', State.alignedPort_same])
    · exact State.trained_down (act := State.afterAlign p failed) hp hold (State.afterAlign_bad hf)
    · exact State.trained_to (act := State.portTo p .equalise) hp hold (by decide) (State.portTo_onlyPort _) (by rw [State.portTo_same])
    · exact State.trained_to (act := State.retried p) hp hold (by decide)
        (by rw [State.retried, if_pos hen]; exact State.portTo_onlyPort _) (by rw [State.retried, if_pos hen, State.portTo_same])
    · exact State.trained_down (act := State.portDown p) hp hold rfl
    · exact State.trained_to (act := State.afterRetrain p true) hp hold (by decide) (State.afterRetrain_onlyPort true) State.afterRetrain_up
    · exact State.trained_down (act := State.afterRetrain p false) hp hold (State.afterRetrain_down hn)
  · refine ⟨s.alignedPort p failed, ?_, by rw [State.alignedPort_same]⟩
    exact (State.portStep_exec (act := State.afterAlign p failed) hp hst).trans (congrArg _ (State.afterAlign_good hf))
  · refine ⟨_, (State.portStep_exec (act := State.afterRetrain p false) hp hst).trans (congrArg _ (State.afterRetrain_again hr)),
      State.updPort_same _, (State.updPort_onlyPort _).1⟩
  · obtain ⟨h1, h2⟩ := State.portRetrain_same hst h3 hw
    have h := State.portRetrain_onlyPort (s := s) (p := p)
    exact ⟨_, State.portStep_exec hp hst, h1, h2, h.1, h.mem, h.tiles, h.graphs⟩

/-! ### Identity (R273) -/

theorem State.identify_unplaced {far : FarId} (h : s.placed = false ∨ far.id = none) : s.identify p far = s := by
  unfold State.identify
  split
  · rfl
  · next hid =>
    have hpl : s.placed = false := h.resolve_right (by rw [hid]; nofun)
    rw [if_pos (by simp [hpl])]

/-- The state with the far side's identity stored. -/
def State.withPeer (s : State) (p m : Nat) (far : FarId) : State :=
  s.updPort p fun x => { x with peer := m % 2 ^ 14, peerPort := far.port % 8, peerValid := true }

theorem State.identify_good {far : FarId} {m : Nat} (hpl : s.placed = true) (hid : far.id = some m) (hf : s.identityFaults p m far = [])
    (hhalf : (s.port p).half = false) : s.identify p far = ((s.withPeer p m far).updPort p (·.fresh)).portTo p .up := by
  unfold State.identify
  rw [hid]
  dsimp only
  rw [if_neg (by simp [hpl]), if_pos (by simp [hf])]
  refine if_neg ?_
  rw [State.portTo_same, State.updPort_same, State.updPort_same]
  simp [FzPort.fresh, FzPort.dropped, hhalf]

theorem State.identify_bad {far : FarId} {m : Nat} (hpl : s.placed = true) (hid : far.id = some m) (hf : s.identityFaults p m far ≠ []) :
    s.identify p far = (State.raiseAll (s.identityFaults p m far) (s.withPeer p m far)).portTo p .held := by
  unfold State.identify
  rw [hid]
  dsimp only
  rw [if_neg (by simp [hpl]), if_neg (by simpa using hf)]
  rfl

/-- Settles O28: the far side is stored first, and the port goes UP or HELD as the list of failed checks is empty or not. -/
theorem portIdentityChecks : Obligations.PortIdentityChecks := by
  intro s p m far c hp hc
  have hx : exec c s = .next (s.identify p far) := by
    obtain ⟨rfl, h⟩ | ⟨rfl, h⟩ := hc
    · exact State.portStep_exec hp h
    · exact State.portStep_exec hp h
  refine ⟨fun hpl hid h1 h2 h3 hh => ?_, fun hpl hid hbad => ?_, fun h => by rw [hx, State.identify_unplaced h]⟩
  · have hnil : s.identityFaults p m far = [] := by
      unfold State.identityFaults
      rw [if_pos h1, if_pos h2, if_pos h3]
      rfl
    have ho : s.OnlyPort p (((s.withPeer p m far).updPort p (·.fresh)).portTo p .up) :=
      ((State.updPort_onlyPort _).trans (State.updPort_onlyPort _)).trans (State.portTo_onlyPort _)
    have hs : (((s.withPeer p m far).updPort p (·.fresh)).portTo p .up).port p = { { s.port p with
        peer := m % 2 ^ 14, peerPort := far.port % 8, peerValid := true : FzPort }.fresh with state := .up } := by
      rw [State.portTo_same, State.updPort_same, State.withPeer, State.updPort_same]
    refine ⟨_, hx.trans (congrArg _ (State.identify_good hpl hid hnil hh)), ?_⟩
    rw [hs]
    exact ⟨rfl, rfl, rfl, rfl, rfl, rfl, rfl, rfl, ho.1, ho.mem, ho.graphs⟩
  · have hne : s.identityFaults p m far ≠ [] := by
      unfold State.identityFaults
      obtain h | h | h := hbad
      · simp [h]
      · simp [h]
      · simp [h]
    have ho : s.OnlyPort p ((State.raiseAll (s.identityFaults p m far) (s.withPeer p m far)).portTo p .held) :=
      ((State.updPort_onlyPort _).trans (State.raiseAll_onlyPort _)).trans (State.portTo_onlyPort _)
    refine ⟨_, hx.trans (congrArg _ (State.identify_bad hpl hid hne)), ?_⟩
    rw [State.portTo_same, State.raiseAll_port, State.withPeer, State.updPort_same]
    exact ⟨rfl, rfl, ho.mem⟩

end Sys2Proof.Machine
end

section
/-! PROOF. Hop recovery, beacons and the forwarding of packets (R270 to R292, R304, R305). -/

namespace Sys2Proof.Machine

variable {s t u : State} {p q : Nat}

/-! ### A port with nothing to send -/

theorem FzPort.nextFlit_none {x : FzPort} (ho : x.output = []) (hs : x.sending = []) : x.nextFlit = none := by
  simp [FzPort.nextFlit, FzPort.candidate, ho, hs]

theorem FzPort.nextWord_none {x : FzPort} (h : x.nextFlit = none) : x.nextWord = none := by
  simp [FzPort.nextWord, h]

theorem FzPort.flush_none {x : FzPort} (h : x.nextFlit = none) : ∀ fuel, x.flush fuel = (x, [])
  | 0 => rfl
  | n + 1 => by simp [FzPort.flush, FzPort.nextWord_none h]

/-- A port's own value put back changes no port. -/
theorem State.updPort_self_port (q : Nat) : (s.updPort p fun _ => s.port p).port q = s.port q := by
  rw [State.updPort_port]
  split
  · next h => rw [h]
  · rfl

/-- The link flits of a port do not depend on what it has put out (R271). -/
theorem State.linkWord_wire (w : List Codeword) (b : Bool) (f : Nat) :
    (s.updPort p fun x => { x with wire := w }).linkWord p b f = s.linkWord p b f := by
  simp only [State.linkWord, State.linkFlit, State.updPort_same, State.updPort_cairn]
  rfl

/-- An idle port puts out a codeword of link flits (R271). -/
theorem State.flushPort_idle (hst : (s.port p).state = .up) (hn : (s.port p).nextFlit = none) (hw : (s.port p).wire = w) (hw' : w = []) :
    ∃ t, s.flushAfter p w = t ∧ t.port p = { s.port p with wire := [t.linkWord p false 0] } ∧
      (∀ q, q ≠ p → t.port q = s.port q) ∧ t = { s with fabric := { s.fabric with ports := t.fabric.ports } } := by
  subst hw'
  unfold State.flushAfter
  dsimp only
  rw [FzPort.flush_none hn, if_neg (by simp [hst])]
  have hp := State.updPort_self_port (s := s) (p := p)
  refine ⟨_, rfl, ?_, fun q hq => ?_, rfl⟩
  · rw [State.linkWord_wire, State.updPort_same, hp]
    rfl
  · rw [State.updPort_port, if_neg hq, hp]

/-! ### Codewords (R270, R277) -/

/-- A slot of a codeword taken. -/
def FzPort.takeSlot (x : FzPort) : Slot → FzPort
  | .fabric k n => x.takeFlit k n
  | .link _ => x

/-- The packet of a fabric slot. -/
def Slot.packet? : Slot → Option Packet
  | .fabric k _ => some k
  | .link _ => none

theorem FzPort.takeCodeword_eq (x : FzPort) (cw : Codeword) : x.takeCodeword cw =
    cw.slots.foldl FzPort.takeSlot { x with rxCsn := (x.rxCsn + 1) % 1024, rxGood := some x.rxCsn, nak := false } := by
  unfold FzPort.takeCodeword
  refine congrArg (fun g => cw.slots.foldl g _) ?_
  funext x f
  cases f <;> rfl

theorem FzPort.takeSlot_frame (x : FzPort) (f : Slot) : ∃ a i, x.takeSlot f = { x with arriving := a, input := i } := by
  cases f with
  | link l => exact ⟨_, _, rfl⟩
  | fabric k n =>
    unfold FzPort.takeSlot FzPort.takeFlit
    dsimp only
    split
    · exact ⟨_, _, rfl⟩
    · split
      · exact ⟨_, _, rfl⟩
      · exact ⟨_, _, rfl⟩

theorem FzPort.takeSlots_frame (fs : List Slot) (x : FzPort) :
    ∃ a i, fs.foldl FzPort.takeSlot x = { x with arriving := a, input := i } := by
  induction fs generalizing x with
  | nil => exact ⟨_, _, rfl⟩
  | cons f fs ih =>
    obtain ⟨a, i, h⟩ := x.takeSlot_frame f
    obtain ⟨a', i', h'⟩ := ih (x.takeSlot f)
    exact ⟨a', i', h'.trans (by rw [h])⟩

/-- Packets of one flit wait for the router at once (R270, R280). -/
theorem FzPort.takeSlots_input (fs : List Slot) (x : FzPort) (h : ∀ k n, Slot.fabric k n ∈ fs → n = 0 ∧ k.flits = 1) :
    (fs.foldl FzPort.takeSlot x).input = x.input ++ fs.filterMap Slot.packet? := by
  induction fs generalizing x with
  | nil => simp
  | cons f fs ih =>
    rw [List.foldl_cons, ih _ fun k n hk => h k n (List.mem_cons_of_mem _ hk)]
    cases f with
    | link l => rfl
    | fabric k n =>
      obtain ⟨rfl, hk⟩ := h k n List.mem_cons_self
      simp [FzPort.takeSlot, FzPort.takeFlit, hk, Slot.packet?]

/-- The state in which a codeword without wrong symbols and link flit is judged. -/
def State.wireCleared (p : Nat) (s : State) : State := s.updPort p fun x => { x with wire := [] }

theorem State.codewordReceive_exec {cw : Codeword} {frac : Nat} (hp : p < 6) (hst : (s.port p).state = .up) (hw : cw.wrong = 0)
    (hl : linkOf cw = none) : exec (.fzCodewordReceive p cw frac) s =
      .next (((s.wireCleared p).acceptCodeword p cw).flushAfter p (((s.wireCleared p).acceptCodeword p cw).port p).wire) := by
  show execFzCodewordReceive p cw s frac = _
  unfold execFzCodewordReceive
  rw [State.portStep_exec hp hst]
  dsimp only
  rw [if_neg (by omega), if_pos hw, hl]
  rfl

/-- A port as the codeword is judged: UP, with nothing to send and nothing put out yet. -/
theorem State.wireCleared_same : (s.wireCleared p).port p = { s.port p with wire := [] } := State.updPort_same _

theorem State.wireCleared_other (hq : q ≠ p) : (s.wireCleared p).port q = s.port q := by
  rw [State.wireCleared, State.updPort_port, if_neg hq]

/-- A codeword in order is taken (R277). -/
theorem State.acceptCodeword_inOrder {cw : Codeword} (hst : (s.port p).state = .up) (hseq : isSequenced cw = true)
    (hc : cw.csn = (s.port p).rxCsn) : (s.wireCleared p).acceptCodeword p cw = (s.wireCleared p).updPort p fun x => x.takeCodeword cw := by
  unfold State.acceptCodeword
  dsimp only
  rw [State.wireCleared_same, if_neg (by simp [hst, hseq]), if_pos hc]

/-- A codeword out of order is discarded (R277). -/
theorem State.acceptCodeword_outOfOrder {cw : Codeword} (hst : (s.port p).state = .up) (hseq : isSequenced cw = true)
    (hc : cw.csn ≠ (s.port p).rxCsn) (hd : (s.port p).discards.length < 1000) :
    (s.wireCleared p).acceptCodeword p cw = (s.wireCleared p).updPort p fun x => { x with
      nak := true, discards := (s.port p).discards.filter (fun t => cairnSince t s.cairn < 1000000) ++ [s.cairn] } := by
  have hlen := List.length_filter_le (fun t => decide (cairnSince t s.cairn < 1000000)) (s.port p).discards
  unfold State.acceptCodeword
  dsimp only
  rw [State.wireCleared_same, if_neg (by simp [hst, hseq]), if_neg hc]
  unfold State.discarded
  dsimp only
  rw [State.wireCleared_same, if_neg]
  · rfl
  · rw [List.length_append, List.length_singleton]
    show ¬ ((s.port p).discards.filter fun t => decide (cairnSince t s.cairn < 1000000)).length + 1 > 1000
    omega

/-- What a codeword taken leaves of its port (R276, R277). -/
theorem FzPort.takeCodeword_frame (x : FzPort) (cw : Codeword) : ∃ a i, x.takeCodeword cw = { x with
    rxCsn := (x.rxCsn + 1) % 1024, rxGood := some x.rxCsn, nak := false, arriving := a, input := i } := by
  rw [FzPort.takeCodeword_eq]
  exact FzPort.takeSlots_frame _ _

theorem State.codeword_taken {cw : Codeword} {frac : Nat} (hp : p < 6) (hst : (s.port p).state = .up) (ho : (s.port p).output = [])
    (hs : (s.port p).sending = []) (hw : cw.wrong = 0) (hl : linkOf cw = none) (hseq : isSequenced cw = true)
    (hc : cw.csn = (s.port p).rxCsn) :
    ∃ t a i, exec (.fzCodewordReceive p cw frac) s = .next t ∧
      t.port p = { s.port p with
        rxCsn := ((s.port p).rxCsn + 1) % 1024, rxGood := some cw.csn, nak := false, arriving := a, input := i, wire := [t.linkWord p false 0] } ∧
      ((∀ k n, Slot.fabric k n ∈ cw.slots → n = 0 ∧ k.flits = 1) → i = (s.port p).input ++ cw.slots.filterMap Slot.packet?) ∧
      (∀ q, q ≠ p → t.port q = s.port q) ∧ t = { s with fabric := { s.fabric with ports := t.fabric.ports } } := by
  have hexec := State.codewordReceive_exec (frac := frac) hp hst hw hl
  rw [State.acceptCodeword_inOrder hst hseq hc] at hexec
  obtain ⟨a, i, hx⟩ := FzPort.takeCodeword_frame { s.port p with wire := [] } cw
  have hpt : ((s.wireCleared p).updPort p fun x => x.takeCodeword cw).port p = { s.port p with
      rxCsn := ((s.port p).rxCsn + 1) % 1024, rxGood := some cw.csn, nak := false, arriving := a, input := i, wire := [] } := by
    rw [State.updPort_same, State.wireCleared_same, hx, hc]
  have hin : (∀ k n, Slot.fabric k n ∈ cw.slots → n = 0 ∧ k.flits = 1) → i = (s.port p).input ++ cw.slots.filterMap Slot.packet? := by
    intro h
    have := FzPort.takeSlots_input cw.slots { { s.port p with wire := [] } with
      rxCsn := ((s.port p).rxCsn + 1) % 1024, rxGood := some (s.port p).rxCsn, nak := false } h
    rw [← this, ← FzPort.takeCodeword_eq { s.port p with wire := [] }, hx]
  have hother : ∀ q, q ≠ p → ((s.wireCleared p).updPort p fun x => x.takeCodeword cw).port q = s.port q := fun q hq => by
    rw [State.updPort_port, if_neg hq, State.wireCleared_other hq]
  have hframe : ((s.wireCleared p).updPort p fun x => x.takeCodeword cw) = { s with fabric := { s.fabric with
      ports := ((s.wireCleared p).updPort p fun x => x.takeCodeword cw).fabric.ports } } := rfl
  generalize ((s.wireCleared p).updPort p fun x => x.takeCodeword cw) = s1 at *
  obtain ⟨t, ht, h1, h2, h3⟩ := State.flushPort_idle (s := s1) (p := p) (w := (s1.port p).wire) (by rw [hpt]; exact hst)
    (FzPort.nextFlit_none (by rw [hpt]; exact ho) (by rw [hpt]; exact hs)) rfl (by rw [hpt])
  refine ⟨t, a, i, hexec.trans (congrArg _ ht), ?_, hin, fun q hq => (h2 q hq).trans (hother q hq), ?_⟩
  · rw [h1, hpt]
  · rw [h3, hframe]

theorem State.codeword_refused {cw : Codeword} {frac : Nat} (hp : p < 6) (hst : (s.port p).state = .up) (ho : (s.port p).output = [])
    (hs : (s.port p).sending = []) (hw : cw.wrong = 0) (hl : linkOf cw = none) (hseq : isSequenced cw = true)
    (hc : cw.csn ≠ (s.port p).rxCsn) (hd : (s.port p).discards.length < 1000) :
    ∃ t, exec (.fzCodewordReceive p cw frac) s = .next t ∧
      t.port p = { s.port p with nak := true, discards := (t.port p).discards, wire := [t.linkWord p false 0] } ∧
      s.cairn ∈ (t.port p).discards ∧
      (∀ q, q ≠ p → t.port q = s.port q) ∧ t = { s with fabric := { s.fabric with ports := t.fabric.ports } } := by
  have hexec := State.codewordReceive_exec (frac := frac) hp hst hw hl
  rw [State.acceptCodeword_outOfOrder hst hseq hc hd] at hexec
  generalize hds : (s.port p).discards.filter (fun t => cairnSince t s.cairn < 1000000) ++ [s.cairn] = ds at hexec
  have hmem : s.cairn ∈ ds := by simp [← hds]
  have hpt : ((s.wireCleared p).updPort p fun x => { x with nak := true, discards := ds }).port p =
      { s.port p with nak := true, discards := ds, wire := [] } := by
    rw [State.updPort_same, State.wireCleared_same]
  have hother : ∀ q, q ≠ p → ((s.wireCleared p).updPort p fun x => { x with nak := true, discards := ds }).port q = s.port q :=
    fun q hq => by rw [State.updPort_port, if_neg hq, State.wireCleared_other hq]
  have hframe : ((s.wireCleared p).updPort p fun x => { x with nak := true, discards := ds }) = { s with fabric := { s.fabric with
      ports := ((s.wireCleared p).updPort p fun x => { x with nak := true, discards := ds }).fabric.ports } } := rfl
  generalize ((s.wireCleared p).updPort p fun x => { x with nak := true, discards := ds }) = s1 at *
  obtain ⟨t, ht, h1, h2, h3⟩ := State.flushPort_idle (s := s1) (p := p) (w := (s1.port p).wire) (by rw [hpt]; exact hst)
    (FzPort.nextFlit_none (by rw [hpt]; exact ho) (by rw [hpt]; exact hs)) rfl (by rw [hpt])
  refine ⟨t, hexec.trans (congrArg _ ht), ?_, ?_, fun q hq => (h2 q hq).trans (hother q hq), ?_⟩
  · rw [h1, hpt]
  · rw [h1, hpt]
    exact hmem
  · rw [h3, hframe]

/-! ### Beacons and the holdover (R304, R305) -/

/-- The beacon that a port numbers and stamps. -/
def State.numbered (p frac : Nat) (s : State) : State :=
  s.updPort p fun x => { x with
    beaconSeq := ((s.port p).beaconSeq + 1) % 65536
    beacons := ((((s.port p).beaconSeq + 1) % 65536, s.cairn, frac % 4096) :: x.beacons).take 4 }

theorem State.beaconSend_exec {frac n at_ f : Nat} {bs : List (Nat × Nat × Nat)} (hp : p < 6) (hst : (s.port p).state = .up)
    (hb : (s.port p).beacons = (n, at_, f) :: bs) : exec (.fzBeaconSend p frac) s =
      .next (((s.advanceTo (at_ + 1000)).numbered p frac).updPort p fun x => { x with
        wire := [((s.advanceTo (at_ + 1000)).numbered p frac).linkWord p true (frac % 4096)] }) := by
  show execFzBeaconSend p s frac = _
  unfold execFzBeaconSend
  rw [State.portStep_exec hp hst]
  dsimp only
  rw [hb]
  rfl

theorem State.holdover_exec (hl : s.fabric.lock = .locked) (hp : s.parentPort = some p) : exec .fzTimeHoldover s =
    .next ({ s.advanceTo (s.fabric.lastBeacon + 100000) with
      fabric := { (s.advanceTo (s.fabric.lastBeacon + 100000)).fabric with lock := .holdover } }.raise 0x150E
      (signedArg 64 (offsetNs s.fabric.lastOffset)) p 0) := by
  show execFzTimeHoldover s = _
  rw [execFzTimeHoldover, hl, hp]

/-- A beacon sent at the instant `c` (R304). -/
theorem State.beacon_row (p frac : Nat) (s : State) (c : Nat) :
    ∃ t l cw, ({ s with cairn := c }.numbered p frac).updPort p (fun x => { x with
        wire := [({ s with cairn := c }.numbered p frac).linkWord p true (frac % 4096)] }) = t ∧ t.cairn = c ∧
      (t.port p).beaconSeq = ((s.port p).beaconSeq + 1) % 65536 ∧
      (t.port p).beacons.head? = some ((t.port p).beaconSeq, t.cairn, frac % 4096) ∧ (t.port p).wire = [cw] ∧
      linkOf cw = some l ∧ l.beacon = true ∧ l.txCairn = t.cairn ∧ l.txFrac = frac % 4096 ∧ l.beaconSeq = (t.port p).beaconSeq ∧
      (∀ q, q ≠ p → t.port q = s.port q) ∧ t = { s with cairn := t.cairn, fabric := { s.fabric with ports := t.fabric.ports } } := by
  have hsame : ({ s with cairn := c }.numbered p frac).port p = { s.port p with
      beaconSeq := ((s.port p).beaconSeq + 1) % 65536
      beacons := ((((s.port p).beaconSeq + 1) % 65536, c, frac % 4096) :: (s.port p).beacons).take 4 } := State.updPort_same _
  have hother : ∀ q, q ≠ p → ({ s with cairn := c }.numbered p frac).port q = s.port q := fun q hq => by
    rw [State.numbered, State.updPort_port, if_neg hq]
    rfl
  have hframe : ({ s with cairn := c }.numbered p frac) = { s with cairn := c, fabric := { s.fabric with
      ports := ({ s with cairn := c }.numbered p frac).fabric.ports } } := rfl
  generalize ({ s with cairn := c }.numbered p frac) = s1 at *
  have hc : s1.cairn = c := by rw [hframe]
  refine ⟨_, s1.linkFlit p true (frac % 4096), s1.linkWord p true (frac % 4096), rfl, hc, ?_⟩
  rw [State.updPort_same, hsame]
  refine ⟨rfl, ?_, rfl, rfl, rfl, rfl, rfl, ?_, fun q hq => ?_, ?_⟩
  · rw [State.updPort_cairn, hc]
    rfl
  · rw [State.linkFlit, hsame]
  · rw [State.updPort_port, if_neg hq, hother q hq]
  · obtain ⟨ps, rfl⟩ : ∃ ps, s1 = { s with cairn := c, fabric := { s.fabric with ports := ps } } := ⟨_, hframe⟩
    rfl

/-- The holdover begun at the instant `c` (R305). -/
theorem State.holdover_row (p : Nat) (s : State) (c : Nat) :
    ∃ t, State.raise 0x150E (signedArg 64 (offsetNs s.fabric.lastOffset)) p 0
        { s with cairn := c, fabric := { s.fabric with lock := .holdover } } = t ∧
      t.fabric = { s.fabric with lock := .holdover } ∧ t.cairn = c ∧
      t = { s with cairn := t.cairn, fabric := t.fabric, ledger := t.ledger, host := t.host } := by
  obtain ⟨h, hr⟩ := State.raise_only (s := { s with cairn := c, fabric := { s.fabric with lock := .holdover } })
    0x150E (signedArg 64 (offsetNs s.fabric.lastOffset)) p 0
  exact ⟨_, hr, rfl, rfl, rfl⟩

/-- Settles O29: a port with nothing to send answers a codeword by its link flits, with what it took or a NAK; a beacon carries
the stamps of the moment. -/
theorem codewordsAndBeacons : Obligations.CodewordsAndBeacons := by
  intro s
  refine ⟨fun p frac cw hp hst ho hs hw hl hseq => ⟨fun hc => ?_, fun hc hd => ?_⟩, fun p n at_ f frac bs hp hst hb => ?_, fun p hl hp => ?_⟩
  · obtain ⟨t, a, i, ht, h1, hin, h2, h3⟩ := State.codeword_taken (frac := frac) hp hst ho hs hw hl hseq hc
    refine ⟨t, ht, by rw [h1], by rw [h1], by rw [h1], fun h => ?_, ?_, h2, h3⟩
    · rw [h1]
      refine (hin h).trans (congrArg (fun g => (s.port p).input ++ cw.slots.filterMap g) ?_)
      funext f
      cases f <;> rfl
    · generalize t.linkWord p false 0 = w at h1
      rw [h1]
  · exact State.codeword_refused hp hst ho hs hw hl hseq hc hd
  · have hx := State.beaconSend_exec (frac := frac) hp hst hb
    rw [State.advanceTo] at hx
    generalize cairnMax s.cairn (roundUp (at_ + 1000) 4) = c at hx ⊢
    obtain ⟨t, l, cw, ht, h⟩ := State.beacon_row p frac s c
    exact ⟨t, l, cw, hx.trans (congrArg _ ht), h⟩
  · have hx := State.holdover_exec hl hp
    rw [State.advanceTo] at hx
    generalize cairnMax s.cairn (roundUp (s.fabric.lastBeacon + 100000) 4) = c at hx ⊢
    obtain ⟨t, ht, h1, h2, h3⟩ := State.holdover_row p s c
    exact ⟨t, hx.trans (congrArg _ ht), h1, h2, h3⟩

end Sys2Proof.Machine
end

section
/-! PROOF. The router: packets dropped, ejected and forwarded (R283 to R292). -/

namespace Sys2Proof.Machine

variable {s t u : State} {p q : Nat} {k : Packet} {ks : List Packet}

/-! ### The packet at an input -/

theorem State.waitingAt_port (hp : p < 6) (hk : (s.port p).input = k :: ks) : s.waitingAt p = some k := by
  rw [State.waitingAt, if_neg (by omega), hk]
  rfl

/-- The state with the packet taken out of its input (R271). -/
theorem State.takeAt_port (hp : p < 6) (hk : (s.port p).input = k :: ks) (q : Nat) : (s.takeAt p).port q =
    if q = p then { s.port p with input := ks, freed := (s.port p).freed.modify (vcOf k) fun n => (n + k.flits) % 65536 } else s.port q := by
  rw [State.takeAt, if_neg (by omega), State.updPort_port, hk]

theorem State.takeAt_output (hp : p < 6) (hk : (s.port p).input = k :: ks) (q : Nat) : ((s.takeAt p).port q).output = (s.port q).output := by
  rw [State.takeAt_port hp hk]
  split
  · next h => rw [h]
  · rfl

theorem State.takeAt_frame (hp : p < 6) : ∃ ps, s.takeAt p = { s with fabric := { s.fabric with ports := ps } } := by
  rw [State.takeAt, if_neg (by omega)]
  exact ⟨_, rfl⟩

/-- A packet dropped is counted (R306), and nothing else changes. -/
theorem State.countFz_frame (i : Nat) : ∃ l h, s.countFz i = { s with
    fabric := { s.fabric with counters := Tab.put .reset i ((Tab.get Counter.reset s.fabric.counters i).add 1) s.fabric.counters }
    ledger := l, host := h } := by
  unfold State.countFz State.noteSaturated
  dsimp only
  split
  · obtain ⟨h, hr⟩ := State.raise_only (s := { s with
      fabric := { s.fabric with counters := Tab.put .reset i ((Tab.get Counter.reset s.fabric.counters i).add 1) s.fabric.counters } })
      0x1003 (0x50300 + 8 * i + 2 ^ 32 * 0 + 2 ^ 48 * 0) 0 0
    exact ⟨_, _, hr⟩
  · exact ⟨s.ledger, s.host, rfl⟩

/-- A packet dropped at its input: it leaves it, and is counted. -/
theorem State.dropped_row (hp : p < 6) (hk : (s.port p).input = k :: ks) (i : Nat) :
    ∃ t, (s.takeAt p).countFz i = t ∧ (t.port p).input = ks ∧
      Tab.get .reset t.fabric.counters i = (Tab.get Counter.reset s.fabric.counters i).add 1 ∧ t.fabric.eject = s.fabric.eject ∧
      (∀ q, (t.port q).output = (s.port q).output) ∧ t = { s with fabric := t.fabric, ledger := t.ledger, host := t.host } := by
  have hin := State.takeAt_port hp hk p
  have hout := State.takeAt_output hp hk
  obtain ⟨ps, hframe⟩ := State.takeAt_frame (s := s) hp
  rw [if_pos rfl] at hin
  rw [hframe] at hin hout ⊢
  obtain ⟨l, h, hc⟩ := State.countFz_frame (s := { s with fabric := { s.fabric with ports := ps } }) i
  refine ⟨_, hc, ?_, ?_, rfl, hout, rfl⟩
  · exact congrArg FzPort.input hin
  · dsimp only
    rw [Tab.get_put, if_pos rfl]

/-! ### The three ways of a packet -/

/-- What the row does with the packet in front of an input. -/
def State.forward (p depth : Nat) (k : Packet) (s : State) : State :=
  if !s.fzLocked || s.ageOf k ≥ 64 then (s.takeAt p).countFz 1
  else match s.fabric.table k.epoch with
    | none => (s.takeAt p).countFz 4
    | some r => match r.hop k.dst with
      | .unreachable => (s.takeAt p).countFz 3
      | .eject => (s.takeAt p).ejectPacket k
      | .port q =>
        if k.hops ≥ 63 then (s.takeAt p).countFz 2
        else
          let s1 := s.limit q depth
          if s1.turnIs q p then s1.output p q k else s1

theorem State.packetForward_exec {depth : Nat} (hp : p < 6) (hk : (s.port p).input = k :: ks) :
    exec (.fzPacketForward p depth) s = .next (s.forward p depth k) := by
  show execFzPacketForward p depth s = _
  rw [execFzPacketForward, onUnit, if_pos (by simpa using (by omega : p < 7)), State.waitingAt_port hp hk]
  rfl

theorem State.forward_young {depth : Nat} (hl : s.fzLocked = true) (ha : s.ageOf k < 64) : s.forward p depth k =
    match s.fabric.table k.epoch with
    | none => (s.takeAt p).countFz 4
    | some r => match r.hop k.dst with
      | .unreachable => (s.takeAt p).countFz 3
      | .eject => (s.takeAt p).ejectPacket k
      | .port q =>
        if k.hops ≥ 63 then (s.takeAt p).countFz 2
        else
          let s1 := s.limit q depth
          if s1.turnIs q p then s1.output p q k else s1 := by
  unfold State.forward
  rw [if_neg (by simp [hl]; omega)]

/-- Each reason to drop a packet counts it in its own counter (R283, R285, R290, R306). -/
theorem State.forward_dropped {depth i : Nat} (hl : s.fzLocked = true)
    (h : (i = 1 ∧ 64 ≤ s.ageOf k) ∨ (i = 4 ∧ s.ageOf k < 64 ∧ s.fabric.table k.epoch = none) ∨
      (∃ r, s.ageOf k < 64 ∧ s.fabric.table k.epoch = some r ∧
        (i = 3 ∧ r.hop k.dst = .unreachable ∨ i = 2 ∧ 63 ≤ k.hops ∧ ∃ q, r.hop k.dst = .port q))) :
    s.forward p depth k = (s.takeAt p).countFz i := by
  obtain ⟨rfl, ha⟩ | ⟨rfl, ha, ht⟩ | ⟨r, ha, ht, ⟨rfl, hh⟩ | ⟨rfl, hn, q, hh⟩⟩ := h
  · rw [State.forward, if_pos (by simp [ha])]
  · rw [State.forward_young hl ha, ht]
  · rw [State.forward_young hl ha, ht]
    dsimp only
    rw [hh]
  · rw [State.forward_young hl ha, ht]
    dsimp only
    rw [hh]
    exact if_pos hn

/-! ### The flits that a port sends (R276, R287) -/

theorem FzPort.fill_empty : ∀ (n : Nat) (x : FzPort), x.output = [] → (x.fill n).1.output = [] ∧ (x.fill n).1.replay = x.replay ∧
    (x.fill n).1.turn = x.turn ∧ (x.fill n).1.txCsn = x.txCsn ∧ (x.fill n).1.input = x.input
  | 0, x, h => ⟨h, rfl, rfl, rfl, rfl⟩
  | n + 1, x, h => by
    unfold FzPort.fill
    split
    · exact FzPort.fill_empty n x h
    · next e _ =>
      have hx : (x.sendFlit e).output = [] := by
        unfold FzPort.sendFlit
        dsimp only
        split
        · rw [h]; rfl
        · exact h
      exact FzPort.fill_empty n (x.sendFlit e) hx

/-- What a codeword put out keeps of a port whose queue is empty, and that it stands in the replay buffer. -/
theorem FzPort.nextWord_empty {x : FzPort} {w : FzPort × Nat × Slots} (h : x.output = []) (hw : x.nextWord = some w) :
    w.1.output = [] ∧ w.1.replay = x.replay ++ [(x.txCsn, w.2.2)] ∧ w.1.turn = x.turn ∧ w.1.input = x.input := by
  unfold FzPort.nextWord at hw
  split at hw
  · cases hw
  · dsimp only at hw
    split at hw
    · obtain ⟨h1, h2, h3, h4, h5⟩ := FzPort.fill_empty 9 x h
      cases hw
      exact ⟨h1, by dsimp only; rw [h2, h4], h3, h5⟩
    · obtain ⟨h1, h2, h3, h4, h5⟩ := FzPort.fill_empty 10 x h
      cases hw
      exact ⟨h1, by dsimp only; rw [h2, h4], h3, h5⟩

theorem FzPort.flush_empty : ∀ (n : Nat) (x : FzPort), x.output = [] → (x.flush n).1.output = [] ∧
    (∃ r, (x.flush n).1.replay = x.replay ++ r) ∧ (x.flush n).1.turn = x.turn
  | 0, x, h => ⟨h, ⟨[], by simp [FzPort.flush]⟩, rfl⟩
  | n + 1, x, h => by
    unfold FzPort.flush
    split
    · exact ⟨h, ⟨[], by simp⟩, rfl⟩
    · next w hw =>
      obtain ⟨h1, h2, h3, -⟩ := FzPort.nextWord_empty h hw
      obtain ⟨i1, ⟨r, i2⟩, i3⟩ := FzPort.flush_empty n w.1 h1
      exact ⟨i1, ⟨(x.txCsn, w.2.2) :: r, by rw [i2, h2]; simp⟩, i3.trans h3⟩

/-- With one packet in its queue and none in progress, that packet's header is the next flit, where there is room for it. -/
theorem FzPort.nextFlit_single {x : FzPort} (ho : x.output = [k]) (hs : x.sending = []) :
    x.nextFlit = none ∨ x.nextFlit = some (k, 0) := by
  have hc : ∀ b, x.candidate b = if (k.cls == 2) == b && x.credit k then some (k, 0) else none := fun b => by
    unfold FzPort.candidate
    rw [hs, ho]
    cases h : ((k.cls == 2) == b && x.credit k)
    · simp [List.find?, h]
    · simp [List.find?, h]
  unfold FzPort.nextFlit
  rw [hc, hc]
  cases k.cls == 2
  · cases x.credit k
    · exact .inl rfl
    · exact .inr rfl
  · cases x.credit k
    · exact .inl rfl
    · exact .inr rfl

theorem FzPort.sendFlit_single {x : FzPort} (ho : x.output = [k]) : (x.sendFlit (k, 0)).output = [] := by
  simp [FzPort.sendFlit, ho]

/-- The codeword that begins with the only packet of a queue. -/
theorem FzPort.fill_single {x : FzPort} (n : Nat) (ho : x.output = [k]) (hn : x.nextFlit = some (k, 0)) :
    (x.fill (n + 1)).1.output = [] ∧ (x.fill (n + 1)).1.replay = x.replay ∧ (x.fill (n + 1)).1.turn = x.turn ∧
      (x.fill (n + 1)).1.txCsn = x.txCsn ∧ some (k, 0) ∈ (x.fill (n + 1)).2 := by
  obtain ⟨h1, h2, h3, h4, -⟩ := FzPort.fill_empty n (x.sendFlit (k, 0)) (FzPort.sendFlit_single ho)
  unfold FzPort.fill
  rw [hn]
  exact ⟨h1, h2, h3, h4, List.mem_cons_self⟩

theorem FzPort.nextWord_single {x : FzPort} {w : FzPort × Nat × Slots} (ho : x.output = [k]) (hs : x.sending = []) (hw : x.nextWord = some w) :
    w.1.output = [] ∧ w.1.replay = x.replay ++ [(x.txCsn, w.2.2)] ∧ w.1.turn = x.turn ∧ some (k, 0) ∈ w.2.2 := by
  have hn : x.nextFlit = some (k, 0) := (FzPort.nextFlit_single ho hs).resolve_left fun h => by
    rw [FzPort.nextWord_none h] at hw
    cases hw
  unfold FzPort.nextWord at hw
  split at hw
  · cases hw
  · dsimp only at hw
    split at hw
    · obtain ⟨h1, h2, h3, h4, h5⟩ := FzPort.fill_single 8 ho hn
      cases hw
      exact ⟨h1, by dsimp only; rw [h2, h4], h3, List.mem_cons_of_mem _ h5⟩
    · obtain ⟨h1, h2, h3, h4, h5⟩ := FzPort.fill_single 9 ho hn
      cases hw
      exact ⟨h1, by dsimp only; rw [h2, h4], h3, h5⟩

/-- A port with one packet in its queue keeps it there, or sends its header in the next codeword. -/
theorem FzPort.flush_single {x : FzPort} (n : Nat) (ho : x.output = [k]) (hs : x.sending = []) :
    ((x.flush (n + 1)).1.output = [k] ∧ (x.flush (n + 1)).1.replay = x.replay ∨
      (∃ w rest, (x.flush (n + 1)).1.output = [] ∧ some (k, 0) ∈ w ∧ (x.flush (n + 1)).1.replay = x.replay ++ (x.txCsn, w) :: rest)) ∧
      (x.flush (n + 1)).1.turn = x.turn := by
  unfold FzPort.flush
  split
  · exact ⟨.inl ⟨ho, rfl⟩, rfl⟩
  · next w hw =>
    obtain ⟨h1, h2, h3, h4⟩ := FzPort.nextWord_single ho hs hw
    obtain ⟨i1, ⟨r, i2⟩, i3⟩ := FzPort.flush_empty n w.1 h1
    exact ⟨.inr ⟨w.2.2, r, i1, h4, by rw [i2, h2]; simp⟩, i3.trans h3⟩

theorem State.flushPort_row (p : Nat) (s : State) : ∃ w, (s.flushPort p).port p =
      { ((s.port p).flush (9 * ((s.port p).output.length + (s.port p).sending.length) + 1)).1 with wire := w } ∧
    (∀ q, q ≠ p → (s.flushPort p).port q = s.port q) ∧
    s.flushPort p = { s with fabric := { s.fabric with ports := (s.flushPort p).fabric.ports } } := by
  unfold State.flushPort State.flushAfter
  extract_lets x r s1
  have hs1 : s1.port p = r.1 := State.updPort_same _
  have hq : ∀ q, q ≠ p → s1.port q = s.port q := fun q hq => by rw [State.updPort_port, if_neg hq]
  split
  · exact ⟨_, hs1, hq, rfl⟩
  · generalize (if [].isEmpty && r.2.isEmpty then [s1.linkWord p false 0] else [] ++ r.2.map (s1.codeword p)) = w
    refine ⟨w, ?_, fun q h => ?_, rfl⟩
    · rw [State.updPort_same, hs1]
    · rw [State.updPort_port, if_neg h, hq q h]

/-! ### Forwarding -/

/-- The injection limit of an output changes no port but by its own fields (R292). -/
theorem State.limit_frame (q depth : Nat) : (∀ i, ∃ b n o, (s.limit q depth).port i = { s.port i with limited := b, transit := n, overrunAt := o }) ∧
    ∃ ps l h, s.limit q depth = { s with fabric := { s.fabric with ports := ps }, ledger := l, host := h } := by
  have keep : ∀ {t : State}, (∀ i, ∃ b n o, t.port i = { s.port i with limited := b, transit := n, overrunAt := o }) →
      ∀ f : FzPort → FzPort, (∀ x, ∃ b n o, f x = { x with limited := b, transit := n, overrunAt := o }) →
      ∀ i, ∃ b n o, (t.updPort q f).port i = { s.port i with limited := b, transit := n, overrunAt := o } := by
    intro t h f hf i
    obtain ⟨b, n, o, hi⟩ := h i
    rw [State.updPort_port]
    split
    · next hq =>
      subst hq
      obtain ⟨b', n', o', hx⟩ := hf (t.port i)
      exact ⟨b', n', o', by rw [hx, hi]⟩
    · exact ⟨b, n, o, hi⟩
  have h0 : ∀ i, ∃ b n o, s.port i = { s.port i with limited := b, transit := n, overrunAt := o } := fun i => ⟨_, _, _, rfl⟩
  unfold State.limit
  extract_lets x s1
  split
  · have h1 : (∀ i, ∃ b n o, s1.port i = { s.port i with limited := b, transit := n, overrunAt := o }) ∧
        ∃ ps, s1 = { s with fabric := { s.fabric with ports := ps } } := by
      by_cases hx : x.limited
      · rw [show s1 = s from if_pos hx]
        exact ⟨h0, s.fabric.ports, rfl⟩
      · rw [show s1 = s.updPort q fun x => { x with limited := true, transit := 0 } from if_neg hx]
        exact ⟨keep h0 _ fun y => ⟨_, _, _, rfl⟩, _, rfl⟩
    clear_value s1
    obtain ⟨hp, ps, rfl⟩ := h1
    split
    · obtain ⟨h, hr⟩ := State.raise_only (s := State.updPort { s with fabric := { s.fabric with ports := ps } } q fun x =>
        { x with overrunAt := some s.cairn }) 0x150B 0 q 0
      refine ⟨fun i => ?_, _, _, h, hr⟩
      rw [State.raise_port]
      exact keep hp _ (fun y => ⟨_, _, _, rfl⟩) i
    · exact ⟨hp, ps, s.ledger, s.host, rfl⟩
  · split
    · exact ⟨keep h0 _ fun y => ⟨_, _, _, rfl⟩, _, s.ledger, s.host, rfl⟩
    · exact ⟨h0, s.fabric.ports, s.ledger, s.host, rfl⟩

/-- The round of an output stands at the input whose packet waits for it (R287). -/
theorem State.turnIs_front {r : Routing} (hp : p < 6) (hk : s.waitingAt p = some k) (hr : s.fabric.table k.epoch = some r)
    (hh : r.hop k.dst = .port q) (ht : (s.port q).turn = p) : s.turnIs q p = true := by
  have hready : s.readyFor q p = true := by
    unfold State.readyFor
    rw [hk]
    dsimp only
    rw [hr]
    simp [hh, show ¬ p = 6 by omega]
  have hmod : (p + 0) % 7 = p := by omega
  unfold State.turnIs
  rw [ht, show List.range 7 = [0, 1, 2, 3, 4, 5, 6] from rfl, List.map_cons, hmod, List.find?_cons, hready]
  simp

/-- A packet put on another output that is UP, with an empty queue (R286, R287). -/
theorem State.output_row (hp : p < 6) (hqp : q ≠ p) (hk : (s.port p).input = k :: ks) (hup : (s.port q).state = .up)
    (ho : (s.port q).output = []) (hs : (s.port q).sending = []) :
    ∃ t k', s.output p q k = t ∧ (t.port p).input = ks ∧ k' = s.hopped p q k ∧
        ((t.port q).output = [k'] ∧ (t.port q).replay = (s.port q).replay ∨
          (∃ w rest, (t.port q).output = [] ∧ some (k', 0) ∈ w ∧
            (t.port q).replay = (s.port q).replay ++ ((s.port q).txCsn, w) :: rest)) ∧
        (t.port q).turn = (p + 1) % 7 ∧ t.fabric.eject = s.fabric.eject ∧ t.mem = s.mem := by
  have hin := State.takeAt_port hp hk p
  have hq := State.takeAt_port hp hk q
  obtain ⟨ps, hframe⟩ := State.takeAt_frame (s := s) hp
  rw [if_pos rfl] at hin
  rw [if_neg hqp] at hq
  unfold State.output
  extract_lets s1 x
  rw [if_neg (by simp [x, s1, hq, hup])]
  obtain ⟨w, h1, h2, h3⟩ := State.flushPort_row q (s1.updPort q fun x =>
      { x with output := x.output ++ [s.hopped p q k], turn := (p + 1) % 7, transit := if p = 6 then 0 else x.transit + 1 })
  rw [State.updPort_same, hq] at h1
  obtain ⟨h4, h5⟩ := FzPort.flush_single (k := s.hopped p q k) (x := { s.port q with
    output := (s.port q).output ++ [s.hopped p q k], turn := (p + 1) % 7, transit := if p = 6 then 0 else (s.port q).transit + 1 })
    (9 * (((s.port q).output ++ [s.hopped p q k]).length + (s.port q).sending.length)) (by rw [ho]; rfl) hs
  refine ⟨_, _, rfl, ?_, rfl, ?_, ?_, ?_, ?_⟩
  · rw [h2 p (Ne.symm hqp), State.updPort_port, if_neg (Ne.symm hqp), hin]
  · rw [h1]
    exact h4
  · rw [h1]
    exact h5
  · rw [h3]
    show (s.takeAt p).fabric.eject = s.fabric.eject
    rw [hframe]
  · rw [h3]
    show (s.takeAt p).mem = s.mem
    rw [hframe]

/-- Settles O30: a packet leaves its input by the drop, the ejection or the output that its table names. -/
theorem packetForwarding : Obligations.PacketForwarding := by
  intro s p depth k ks hp hk hl
  have hx := State.packetForward_exec (depth := depth) hp hk
  refine ⟨fun i hi => ?_, fun r ha ht hh hc hg => ?_, fun r q ha ht hh hn hq hqp hup ho hs hturn => ?_⟩
  · obtain ⟨t, h, hrow⟩ := State.dropped_row hp hk i
    exact ⟨t, hx.trans (congrArg _ ((State.forward_dropped hl hi).trans h)), hrow⟩
  · have hf : s.forward p depth k = (s.takeAt p).ejectPacket k := by
      rw [State.forward_young hl ha, ht]
      dsimp only
      rw [hh]
    have hin := State.takeAt_port hp hk p
    have hout := State.takeAt_output hp hk
    obtain ⟨ps, hframe⟩ := State.takeAt_frame (s := s) hp
    rw [if_pos rfl] at hin
    rw [hf, State.ejectPacket, if_pos (by simpa [hg] using hc)] at hx
    rw [hframe] at hin hout hx
    exact ⟨_, hx, congrArg FzPort.input hin, rfl, hout, rfl⟩
  · obtain ⟨hports, ps, l, h, hlim⟩ := State.limit_frame (s := s) q depth
    obtain ⟨bp, np, op, hpp⟩ := hports p
    obtain ⟨bq, nq, oq, hqq⟩ := hports q
    have hf : s.forward p depth k = (s.limit q depth).output p q k := by
      rw [State.forward_young hl ha, ht]
      dsimp only
      rw [hh]
      dsimp only
      rw [if_neg (by omega), if_pos]
      exact State.turnIs_front hp (State.waitingAt_port hp (by rw [hpp]; exact hk)) (by rw [hlim]; exact ht) hh (by rw [hqq]; exact hturn)
    obtain ⟨t, k', h1, h2, h3, h4, h5, h6, h7⟩ := State.output_row (s := s.limit q depth) hp hqp (by rw [hpp]; exact hk)
      (by rw [hqq]; exact hup) (by rw [hqq]; exact ho) (by rw [hqq]; exact hs)
    rw [hqq] at h4
    have hk' : k' = s.hopped p q k := by rw [h3, hlim]; rfl
    exact ⟨t, k', hx.trans (congrArg _ (hf.trans h1)), h2, hk', by rw [hk']; rfl, h4, h5, by rw [h6, hlim], by rw [h7, hlim]⟩

end Sys2Proof.Machine
end

section
/-! PROOF. Life-cycle tokens and the attestation report (R464, R468 to R475). -/

namespace Sys2Proof.Machine

variable {s t u : State} {b : List Byte}

/-! ### The checks of a token (R472) -/

theorem State.tokenFault_notGenuine (h : s.fuses.tokenGenuine b = false) : s.tokenFault b = some 0x0701 := by
  unfold State.tokenFault
  dsimp only
  rw [h]
  rfl

/-- A token of this device that has taken effect is stale (R472). -/
theorem State.tokenFault_used (hu : b ∈ s.fuses.used) (hg : s.fuses.tokenGenuine b = true) (hd : sliceB b 8 16 = s.fuses.deviceId) :
    s.tokenFault b = some 0x0703 := by
  have hdev : (sliceB b 8 16 == s.fuses.deviceId) = true := beq_iff_eq.2 hd
  have hused : s.fuses.used.contains b = true := List.contains_iff_mem.2 hu
  unfold State.tokenFault
  dsimp only
  rw [hg, hdev, hused, Bool.not_true, Bool.and_false]
  rfl

theorem State.takeToken_fault {x : Desc} {e : Nat} (ok : Bool) (h : s.tokenFault b = some e) :
    s.takeToken x b ok = s.complete x stNotPermitted e 0 := by
  rw [State.takeToken, h]

theorem State.takeToken_fails {x : Desc} (h : s.tokenFault b = none) : s.takeToken x b false =
    (s.draw.programFuses b (Config.freeWord s.draws).toNat).complete x stPoisoned lcFuseFailed 0 := by
  rw [State.takeToken, h]
  rfl

/-- The state once a token has been noted as used (R472). -/
def State.tokenUsed (s : State) (b : List Byte) : State := { s with fuses := { s.fuses with used := s.fuses.used ++ [b] } }

theorem State.takeToken_works {x : Desc} (h : s.tokenFault b = none) : s.takeToken x b true =
    ((s.programFuses b 0xFF).tokenUsed b).complete x stOk 0 ((s.programFuses b 0xFF).tokenUsed b).fuses.newState := by
  rw [State.takeToken, h]
  rfl

/-! ### What a token that works changes -/

/-- A transition (R468, R471, R473, R512). -/
theorem State.programFuses_moved (h : tKind b = 1) : s.programFuses b 0xFF = { s with
    fuses := s.fuses.moved (tTo b)
    ledger := if tTo b = 5 then { Ledger.reset with
      image := s.ledger.image, defects := s.ledger.defects, defectsGood := s.ledger.defectsGood, results := s.ledger.results } else s.ledger
    monitor := { s.monitor with unlocked := false } } := by
  rw [State.programFuses, if_neg (by omega), if_pos (by decide)]
  dsimp only
  split
  · rfl
  · rfl

theorem Fuses.moved_decommission (f : Fuses) : f.moved 5 = { f with blown := true } := if_pos rfl

theorem Fuses.moved_service {f : Fuses} {to_ : Nat} (h5 : to_ ≠ 5) (h : 3 ≤ f.lcState) : f.moved to_ = { f with service := f.service + 1 } := by
  rw [Fuses.moved, if_neg h5, if_pos h]

theorem Fuses.moved_level {f : Fuses} {to_ : Nat} (h5 : to_ ≠ 5) (h : f.lcState < 3) : f.moved to_ = { f with level := f.level + 1 } := by
  rw [Fuses.moved, if_neg h5, if_neg (by omega)]

theorem Fuses.moved_used (f : Fuses) (to_ : Nat) : (f.moved to_).used = f.used := by
  unfold Fuses.moved
  split
  · rfl
  · split <;> rfl

/-- A bit of a word's low part, of the part above it, and of an 8-bit mask. -/
theorem bit_or_right {x y i : Nat} (h : bit y i = true) : bit (x ||| y) i = true := by
  rw [bit_eq_testBit] at h ⊢
  rw [Nat.testBit_or, h, Bool.or_true]

theorem bit_low_mask {x i : Nat} (hi : i < 4) (h : bit x i = true) : bit ((x &&& 0xFF) % 16) i = true := by
  rw [bit_eq_testBit] at h ⊢
  rw [show (16 : Nat) = 2 ^ 4 from rfl, Nat.testBit_mod_two_pow, Nat.testBit_and, h, show (0xFF : Nat) = 2 ^ 8 - 1 from rfl,
    Nat.testBit_two_pow_sub_one]
  simp [hi, show i < 8 by omega]

theorem bit_high_mask {x i : Nat} (hi : i < 4) (h : bit x (4 + i) = true) : bit ((x &&& 0xFF) / 16 % 16) i = true := by
  rw [bit_eq_testBit] at h ⊢
  rw [show (16 : Nat) = 2 ^ 4 from rfl, Nat.testBit_mod_two_pow, ← Nat.shiftRight_eq_div_pow, Nat.testBit_shiftRight, Nat.testBit_and, h,
    show (0xFF : Nat) = 2 ^ 8 - 1 from rfl, Nat.testBit_two_pow_sub_one]
  simp [hi, show 4 + i < 8 by omega]

/-- A revocation (R470). -/
theorem State.programFuses_revoked (h : tKind b = 2) :
    s.programFuses b 0xFF = { s with fuses := s.fuses.revoked (tRevoke b &&& 0xFF) } := by
  rw [State.programFuses, if_pos h]

/-! ### The report (R475) -/

theorem sliceB_append {p q r : List Byte} {off n : Nat} (hp : p.length = off) (hq : q.length = n) : sliceB (p ++ q ++ r) off n = q := by
  subst hp hq
  simp [sliceB]

/-- The nonce stands behind the first eight bytes of the report. -/
theorem State.reportBody_nonce (n : List Byte) : ∃ p r, p.length = 8 ∧ s.reportBody n = p ++ n ++ r := by
  unfold State.reportBody
  extract_lets gs img pend flags
  refine ⟨toLe 4 0x54415458 ++ toLe 2 1 ++ toLe 2 (832 + 80 * gs.length + 64), ?rest, ?len, ?eq⟩
  case eq =>
    simp only [List.append_assoc]
    rfl
  case len => rw [List.length_append, List.length_append, toLe_length, toLe_length, toLe_length]

theorem State.report_nonce {n : List Byte} (hn : n.length = 32) : sliceB (s.report n) 8 32 = n := by
  obtain ⟨p, r, hp, h⟩ := State.reportBody_nonce (s := s) n
  rw [State.report, h, List.append_assoc (p ++ n) r]
  exact sliceB_append hp hn

theorem State.attest_exec {d : Nat} {x : Desc}
    (hx : s.starts d 0x72 (fun d => ⟨1, 0, [(16, 44)], d.get 48 8 % 64 == 0 && 1536 ≤ d.get 56 4⟩) x) : exec (.attest d) s =
      .next (if !s.fuses.keyed then s.complete x stNotPermitted lifecycleForbids 0
        else (s.hostWrite (x.get 48 8) (s.report (sliceB x.bytes 16 32))).complete x stOk 0 (s.report (sliceB x.bytes 16 32)).length) := by
  show execAttest d s = _
  rw [execAttest, State.runDesc_of_starts_local hx (State.starts_local hx (by decide))]

/-- Settles O59: the checks in their order, the fuses that a token moves, and the report as it is put together. -/
theorem identityRows : Obligations.IdentityRows := by
  refine ⟨fun s d x b hx hb hd => ⟨State.tokenFault_notGenuine, fun e ok he => ?_, fun hf => ⟨fun hk => ?_, fun hk => ?_, ?_⟩,
    fun hu hg hdev => State.tokenFault_used hu hg hdev, fun ok e y => ?_⟩, fun s d x n r hx hn hr => ⟨fun hk => ⟨?_, fun hl => ?_, ?_⟩, fun hk => ?_⟩⟩
  · rw [State.lifecycle_exec ok hx hb hd, State.takeToken_fault ok he]
    rfl
  · have hp := State.programFuses_moved (s := s) hk
    refine ⟨(s.programFuses b 0xFF).tokenUsed b, (State.lifecycle_exec true hx hb hd).trans (congrArg _ (State.takeToken_works hf)), ?_⟩
    rw [hp]
    refine ⟨fun h5 hl => ?_, fun h5 hl => ?_, fun h5 => ⟨?_, ?_⟩, fun h5 => if_neg h5, rfl⟩
    · simp only [State.tokenUsed, Fuses.moved_level h5 hl]
    · simp only [State.tokenUsed, Fuses.moved_service h5 hl]
    · simp only [State.tokenUsed, h5, Fuses.moved_decommission]
    · rw [if_pos h5]
      exact ⟨rfl, rfl, rfl, rfl⟩
  · have hp := State.programFuses_revoked (s := s) hk
    refine ⟨(s.programFuses b 0xFF).tokenUsed b, (State.lifecycle_exec true hx hb hd).trans (congrArg _ (State.takeToken_works hf)), ?_⟩
    rw [hp]
    exact ⟨fun i hi h => bit_or_right (bit_low_mask hi h), fun i hi h => bit_or_right (bit_high_mask hi h), rfl⟩
  · exact ⟨_, (State.lifecycle_exec false hx hb hd).trans (congrArg _ (State.takeToken_fails hf))⟩
  · show execLifecycle d (.failed e y) ok s = _
    rw [execLifecycle, State.runDesc_of_starts hx hd]
    rfl
  · rw [State.attest_exec hx, hk, hr, hn]
    rfl
  · rw [hr]
    exact State.report_nonce hl
  · rw [hr]
    rfl
  · rw [State.attest_exec hx, hk]
    rfl

end Sys2Proof.Machine
end

section
/-! PROOF. The commands of the serial monitor (R438, R507 to R517). -/

namespace Sys2Proof.Machine

variable {s t u : State} {rom : Bool}

/-! ### A command and its answer -/

/-- A command that its program knows, and that no `TEST` keeps back, is carried out and answered (R510, R514). -/
theorem State.command_serves {serves : Bool → Bool} {busyOk : Bool} (hp : s.program = some rom) (hs : serves rom = true)
    (hb : s.monitor.testing = none ∨ busyOk = true) (act : State → Reply) :
    s.command serves busyOk act = State.reply rom (act s.heard) := by
  unfold State.command
  rw [hp]
  dsimp only
  rw [if_neg (by simp [hs])]
  refine if_neg ?_
  obtain h | h := hb
  · simp [h]
  · simp [h]

/-- A command that succeeds prints its lines, `OK` and the prompt; one that fails its code (R510). -/
theorem State.reply_ok (ls : List Line) : State.reply rom (t.done ls) = t.print (ls ++ [.ok] ++ [.prompt rom]) := rfl

theorem State.answers_done (h : t.monitor.out = s.monitor.out) (ls : List Line) :
    s.answers (State.reply rom (t.done ls)) rom (ls ++ [.ok]) := State.answers_print h _

theorem State.answers_err (h : t.monitor.out = s.monitor.out) (c : Nat) :
    s.answers (State.reply rom (t.err (c + 1))) rom [.err (c + 1)] := State.answers_print h _

/-- A command that tells something changes nothing but the monitor's own state. -/
theorem State.command_tells {serves : Bool → Bool} {busyOk : Bool} {act : State → Reply} {ls : List Line} (hp : s.program = some rom)
    (hs : serves rom = true) (hb : s.monitor.testing = none ∨ busyOk = true) (ha : act s.heard = s.heard.done ls) :
    ∃ t, (.next (s.command serves busyOk act) : Out3) = .next t ∧ s.answers t rom (ls ++ [.ok]) ∧
      t = { s with monitor := { s.monitor with lastLine := s.cairn, out := t.monitor.out } } :=
  ⟨_, congrArg _ ((State.command_serves hp hs hb act).trans (congrArg _ ha)), State.answers_done (t := s.heard) rfl ls, rfl⟩

theorem State.command_refuses {serves : Bool → Bool} {busyOk : Bool} {act : State → Reply} {c : Nat} (hp : s.program = some rom)
    (hs : serves rom = true) (hb : s.monitor.testing = none ∨ busyOk = true) (ha : act s.heard = s.heard.err (c + 1)) :
    ∃ t, (.next (s.command serves busyOk act) : Out3) = .next t ∧ s.answers t rom [.err (c + 1)] ∧
      t = { s with monitor := { s.monitor with lastLine := s.cairn, out := t.monitor.out } } :=
  ⟨_, congrArg _ ((State.command_serves hp hs hb act).trans (congrArg _ ha)), State.answers_err (t := s.heard) rfl c, rfl⟩

theorem State.gated_pass {states : List Nat} (h : s.fuses.lcState ∈ states) (hu : s.monitor.unlocked = true) (act : State → Reply) :
    s.gated states act = act s := by
  rw [State.gated, if_neg (by simp [h]), if_neg (by simp [hu])]

theorem State.gated_heard {states : List Nat} (h : s.fuses.lcState ∈ states) (hu : s.monitor.unlocked = true) (act : State → Reply) :
    s.heard.gated states act = act s.heard := State.gated_pass (s := s.heard) h hu act

/-- The boot ROM serves the line in a rescue, and only then (R508). -/
theorem State.program_rom (hp : s.program = some rom) : (s.seq == .rescue) = rom := by
  unfold State.program at hp
  split at hp
  · cases hp
  · split at hp
    · next h => cases hp; rw [h]; rfl
    · next h =>
      split at hp
      · cases hp; rw [h]; rfl
      · cases hp
    · next h _ =>
      split at hp
      · cases hp
        exact beq_false_of_ne h
      · cases hp

/-! ### Both programs -/

section both
variable (hp : s.program = some rom)
include hp

theorem State.help_tells (ht : s.monitor.testing = none) : ∃ t, exec .help s = .next t ∧
    s.answers t rom ((s.permitted rom).map (fun c => .value ("cmd " ++ c) []) ++ [.ok]) ∧
    t = { s with monitor := { s.monitor with lastLine := s.cairn, out := t.monitor.out } } := by
  have h := State.program_rom hp
  refine State.command_tells hp rfl (.inl ht) ?_
  show s.heard.done ((s.heard.permitted (s.seq == .rescue)).map _) = _
  rw [h]
  rfl

theorem State.info_tells (ht : s.monitor.testing = none) : ∃ t, exec .info s = .next t ∧ s.answers t rom
    [.value "serial" [Config.serial], .value "device_id" (byteVals s.fuses.deviceId), .value "build_id" [mBuild s.manifest],
      .value "secver" [s.securityVersion], .value "stepping" [Config.stepping], .value "lc_state" [s.fuses.lcState], .ok] ∧
    t = { s with monitor := { s.monitor with lastLine := s.cairn, out := t.monitor.out } } :=
  State.command_tells (ls := [.value "serial" [Config.serial], .value "device_id" (byteVals s.fuses.deviceId),
    .value "build_id" [mBuild s.manifest], .value "secver" [s.securityVersion], .value "stepping" [Config.stepping],
    .value "lc_state" [s.fuses.lcState]]) hp rfl (.inl ht) rfl

theorem State.log_tells {n : Nat} (h0 : 0 < n) (hn : n ≤ 256) : ∃ t, exec (.log n) s = .next t ∧
    s.answers t rom ((s.ledger.events.drop (s.ledger.events.length - n)).map eventLine ++ [.ok]) ∧
    t = { s with monitor := { s.monitor with lastLine := s.cairn, out := t.monitor.out } } :=
  State.command_tells hp rfl (.inr rfl) (if_neg (by simp; omega))

theorem State.unknownCommand_refuses (why : BadLine) : ∃ t, exec (.unknownCommand why) s = .next t ∧
    s.answers t rom [.err (if why = .unknown then 2 else 1)] ∧
    t = { s with monitor := { s.monitor with lastLine := s.cairn, out := t.monitor.out } } := by
  have hx : ∀ c, (match why with | .unknown => 2 | _ => 1) = c → exec (.unknownCommand why) s = .next (State.reply rom (s.heard.err c)) := by
    rintro c rfl
    show execUnknownCommand why s = _
    unfold execUnknownCommand
    rw [hp]
    rfl
  cases why with
  | unknown => exact ⟨_, hx 2 rfl, State.answers_err (t := s.heard) rfl 1, rfl⟩
  | malformed => exact ⟨_, hx 1 rfl, State.answers_err (t := s.heard) rfl 0, rfl⟩
  | tooLong => exact ⟨_, hx 1 rfl, State.answers_err (t := s.heard) rfl 0, rfl⟩

theorem State.baud_row (ht : s.monitor.testing = none) (rate : Nat) : ∃ t, exec (.baud rate) s = .next t ∧
    (rate ∈ [115200, 230400, 460800, 921600, 1000000, 2000000, 3000000] → t.monitor.baud = rate ∧ s.answers t rom [.ok]) ∧
    (rate ∉ [115200, 230400, 460800, 921600, 1000000, 2000000, 3000000] → t.monitor.baud = s.monitor.baud ∧ s.answers t rom [.err 5]) ∧
    t = { s with monitor := t.monitor } := by
  have hx : exec (.baud rate) s = .next (State.reply rom (if baudRates.contains rate then
      State.done { s.heard with monitor := { s.heard.monitor with baud := rate } } [] else s.heard.err 5)) :=
    congrArg _ (State.command_serves hp rfl (.inl ht) _)
  by_cases h : baudRates.contains rate = true
  · rw [if_pos h] at hx
    have hmem : rate ∈ baudRates := List.contains_iff_mem.1 h
    exact ⟨_, hx, fun _ => ⟨rfl, State.answers_done (t := { s.heard with monitor := { s.heard.monitor with baud := rate } }) rfl []⟩,
      fun hn => absurd hmem hn, rfl⟩
  · rw [if_neg h] at hx
    have hmem : rate ∉ baudRates := fun hm => h (List.contains_iff_mem.2 hm)
    exact ⟨_, hx, fun hm => absurd hm hmem, fun _ => ⟨rfl, State.answers_err (t := s.heard) rfl 4⟩, rfl⟩

end both

/-! ### `TEST` (R438, R514) -/

/-- A tile taken for an on-demand slice: withdrawn from the stress test, and asked on. -/
def State.takeForSlice (s : State) (i : Nat) : State :=
  ((s.withdraw i).updTile i fun x => { x with use := .onDemand }).turnTileOn i

/-- With no slice under way, a tile withdrawn is the only one that changes. -/
theorem State.withdraw_row (ht : s.monitor.testing = none) (i : Nat) : (s.withdraw i).monitor = s.monitor ∧
    (∀ v, v ≠ i → (s.withdraw i).tile v = s.tile v) ∧ ∃ d, (s.withdraw i).mem = { s.mem with stagingDone := d } := by
  have hn : s.sliceNeeds i = false := by rw [State.sliceNeeds, ht]
  unfold State.withdraw
  rw [hn]
  extract_lets s0 s1
  have h1 : s1.monitor = s.monitor ∧ (∀ v, v ≠ i → s1.tile v = s.tile v) ∧ ∃ d, s1.mem = { s.mem with stagingDone := d } :=
    ⟨rfl, fun v hv => by rw [State.updTile_tile, if_neg hv]; rfl, _, rfl⟩
  clear_value s1
  split
  · exact h1
  · exact h1

theorem State.takeForSlice_row (ht : s.monitor.testing = none) (i : Nat) : (s.takeForSlice i).monitor = s.monitor ∧
    ((s.takeForSlice i).tile i).use = .onDemand ∧ (∀ v, v ≠ i → (s.takeForSlice i).tile v = s.tile v) ∧
    ∃ d, (s.takeForSlice i).mem = { s.mem with stagingDone := d } := by
  obtain ⟨h1, h2, d, h3⟩ := State.withdraw_row ht i
  obtain ⟨⟨_, _, _, _, h⟩, -⟩ := State.turnTileOn_onlyStagings (s := (s.withdraw i).updTile i fun x => { x with use := .onDemand }) i
  have htile : ∀ v, (s.takeForSlice i).tile v = ((s.withdraw i).updTile i fun x => { x with use := .onDemand }).tile v := fun v => by
    rw [State.takeForSlice, h]
    rfl
  refine ⟨?_, ?_, fun v hv => ?_, d, ?_⟩
  · rw [State.takeForSlice, h]
    exact h1
  · rw [htile, State.updTile_tile, if_pos rfl]
  · rw [htile, State.updTile_tile, if_neg hv, h2 v hv]
  · rw [State.takeForSlice, h]
    exact h3

/-- The tiles of a massif taken one after another. -/
theorem State.takeForSlices_row (n : Nat) (l : List Nat) : ∀ s : State, s.monitor.testing = none →
    (l.foldl (fun s i => s.takeForSlice (n * 16 + i)) s).monitor = s.monitor ∧
    (∀ i, (i ∈ l ∨ (s.tile (n * 16 + i)).use = .onDemand) →
      ((l.foldl (fun s i => s.takeForSlice (n * 16 + i)) s).tile (n * 16 + i)).use = .onDemand) ∧
    (∀ v, (∀ i ∈ l, v ≠ n * 16 + i) → (l.foldl (fun s i => s.takeForSlice (n * 16 + i)) s).tile v = s.tile v) ∧
    ∃ d, (l.foldl (fun s i => s.takeForSlice (n * 16 + i)) s).mem = { s.mem with stagingDone := d } := by
  induction l with
  | nil => exact fun s _ => ⟨rfl, fun i h => h.resolve_left (by simp), fun _ _ => rfl, s.mem.stagingDone, rfl⟩
  | cons j l ih =>
    intro s ht
    obtain ⟨h1, h2, h3, d, h4⟩ := State.takeForSlice_row ht (n * 16 + j)
    obtain ⟨i1, i2, i3, d', i4⟩ := ih (s.takeForSlice (n * 16 + j)) (by rw [h1]; exact ht)
    rw [List.foldl_cons]
    refine ⟨i1.trans h1, fun i hi => i2 i ?_, fun v hv => ?_, d', ?_⟩
    · by_cases hij : i = j
      · exact .inr (by rw [hij]; exact h2)
      · rw [h3 _ (by omega)]
        exact hi.imp_left fun h => (List.mem_cons.1 h).resolve_left hij
    · rw [i3 v fun i hi => hv i (List.mem_cons_of_mem _ hi), h3 v (hv j List.mem_cons_self)]
    · rw [i4, h4]

theorem State.takeForSlices_eq (n : Nat) (l : List Nat) (s : State) : l.foldl (fun s i =>
      ((s.withdraw (n * 16 + i)).updTile (n * 16 + i) fun x => { x with use := .onDemand }).turnTileOn (n * 16 + i)) s =
    l.foldl (fun s i => s.takeForSlice (n * 16 + i)) s := rfl

theorem State.beginSlice_row (k n : Nat) (ht : s.monitor.testing = none) : (s.beginSlice k n).monitor.testing = some (k, n) ∧
    (s.beginSlice k n).monitor.out = s.monitor.out ∧ (k ≤ 3 → ∀ i < 16, ((s.beginSlice k n).tile (n * 16 + i)).use = .onDemand) ∧
    (∀ v, v / 16 ≠ n → (s.beginSlice k n).tile v = s.tile v) ∧
    (s.beginSlice k n).mem = { s.mem with stagingDone := (s.beginSlice k n).mem.stagingDone } := by
  obtain ⟨h1, h2, h3, d, h4⟩ := State.takeForSlices_row n (List.range 16) s ht
  by_cases hk : 3 < k
  · have hb : s.beginSlice k n = { s with monitor := { s.monitor with testing := some (k, n), lastLine := s.cairn } } := by
      rw [State.beginSlice, if_pos hk]
    rw [hb]
    exact ⟨rfl, rfl, fun h => absurd hk (by omega), fun _ _ => rfl, rfl⟩
  · obtain ⟨v, hv⟩ : ∃ v, v = (List.range 16).foldl (fun s i => s.takeForSlice (n * 16 + i)) s := ⟨_, rfl⟩
    rw [← hv] at h1 h2 h3 h4
    have hb : s.beginSlice k n = { v with monitor := { v.monitor with testing := some (k, n), lastLine := s.cairn } } := by
      rw [State.beginSlice, if_neg hk, State.takeForSlices_eq, hv]
    rw [hb]
    refine ⟨rfl, by dsimp only; rw [h1], fun _ i hi => h2 i (.inl (List.mem_range.2 hi)), fun w hw => h3 w fun i hi => ?_, ?_⟩
    · have := List.mem_range.1 hi
      omega
    · dsimp only
      rw [h4]

/-- What a `TEST` answers, and whether a slice begins. -/
def State.tested (s : State) (kind n : Nat) : State :=
  match s.testFault kind n with
  | some c => State.reply false (s.err c)
  | none => if s.sliceFree kind n then s.beginSlice kind n
    else State.reply false ((s.addResult (s.sliceResult kind n 3 2 ⟨0, [], 0⟩)).done [(s.sliceResult kind n 3 2 ⟨0, [], 0⟩).line])

theorem State.test_exec (hp : s.program = some false) (kind n : Nat) : exec (.test kind n) s = .next (s.heard.tested kind n) := by
  show execTest kind n s = _
  rw [execTest, hp]
  rfl

section test
variable {kind n : Nat}

theorem State.testFault_state (h1 : s.fuses.lcState ≠ 1) (h4 : s.fuses.lcState ≠ 4) : s.testFault kind n = some 4 := by
  rw [State.testFault, if_pos (by simp [h1, h4])]

theorem State.testFault_locked (h : s.fuses.lcState = 1 ∨ s.fuses.lcState = 4) (hu : s.monitor.unlocked = false) :
    s.testFault kind n = some 3 := by
  rw [State.testFault, if_neg, if_pos (by simp [hu])]
  obtain h | h := h
  · simp [h]
  · simp [h]

theorem State.testFault_none (h : s.fuses.lcState = 1 ∨ s.fuses.lcState = 4) (hu : s.monitor.unlocked = true) (h1 : 1 ≤ kind) (h5 : kind ≤ 5)
    (hn : n < sliceUnits kind) (ht : s.monitor.testing = none) (hb : s.shutdown.busy = false) (hs : s.inService = true) :
    s.testFault kind n = none := by
  rw [State.testFault, if_neg, if_neg (by simp [hu]), if_neg (by simp; omega), if_neg (by simp [ht, hb, hs])]
  obtain h | h := h
  · simp [h]
  · simp [h]

theorem State.tested_fault {c : Nat} (h : s.testFault kind n = some c) : s.tested kind n = State.reply false (s.err c) := by
  rw [State.tested, h]

theorem State.tested_free (h : s.testFault kind n = none) (hf : s.sliceFree kind n = true) : s.tested kind n = s.beginSlice kind n := by
  rw [State.tested, h]
  exact if_pos hf

theorem State.tested_notFree (h : s.testFault kind n = none) (hf : s.sliceFree kind n = false) : s.tested kind n =
    State.reply false ((s.addResult (s.sliceResult kind n 3 2 ⟨0, [], 0⟩)).done [(s.sliceResult kind n 3 2 ⟨0, [], 0⟩).line]) := by
  rw [State.tested, h]
  exact if_neg (by simp [hf])

/-- Below its limit the result log takes a record at its end (R442). -/
theorem State.addResult_short (x : TestResult) (h : s.ledger.results.length < 16384) :
    s.addResult x = { s with ledger := { s.ledger with results := s.ledger.results ++ [x] } } := by
  have hd : (s.ledger.results ++ [x]).length - 16384 = 0 := by
    rw [List.length_append, List.length_singleton]
    omega
  rw [State.addResult]
  dsimp only
  rw [hd, List.drop_zero]

end test

/-! ### Defects, results and fuses (R433, R437, R515) -/

theorem State.updTile_tilesOnly (i : Nat) (f : Tile → Tile) : ∃ ts, s.updTile i f = { s with tiles := ts } := ⟨_, rfl⟩

theorem State.keepOut_frame (d : Defect) : ∃ ts, s.keepOut d = { s with tiles := ts } := by
  unfold State.keepOut
  dsimp only
  split
  · exact ⟨_, rfl⟩
  · exact ⟨_, rfl⟩
  · generalize List.range 16 = l
    refine List.foldlRecOn (motive := fun t : State => ∃ ts, t = { s with tiles := ts }) l _ ⟨s.tiles, rfl⟩ fun t ht i _ => ?_
    obtain ⟨ts, rfl⟩ := ht
    exact ⟨_, rfl⟩
  · exact ⟨s.tiles, rfl⟩

theorem State.checkDegraded_frame : ∃ d hw mg l h, s.checkDegraded = { s with devState := d, hotSwap := hw, mgmt := mg, ledger := l, host := h } := by
  unfold State.checkDegraded
  split
  · obtain ⟨hw, mg, hs⟩ := State.setDev_frame (s := s) .degraded
    obtain ⟨h, hr⟩ := State.raise_only (s := s.setDev .degraded) 0x1001 s.usableTiles 0 0
    rw [hr, hs]
    exact ⟨_, _, _, _, _, rfl⟩
  · exact ⟨_, _, _, _, _, rfl⟩

/-- The fuse map with an entry in it (R437). -/
def Fuses.marked (f : Fuses) (p : Nat × Nat) : List (Nat × Nat) := if f.bad.contains p then f.bad else f.bad ++ [p]

theorem Fuses.mem_marked (f : Fuses) (p : Nat × Nat) : p ∈ f.marked p ∧ ∀ q ∈ f.bad, q ∈ f.marked p := by
  unfold Fuses.marked
  split
  · next h => exact ⟨List.contains_iff_mem.1 h, fun _ => id⟩
  · exact ⟨by simp, fun q hq => List.mem_append_left _ hq⟩

/-! ### The rescue over the UART (R516, R517) -/

theorem State.takeBlock_good {n idx crc : Nat} {data : List Byte} (ho : s.fw.rescueOpen = some n) (hw : s.fw.rescueOwner ≠ 1) (hi : idx < n)
    (hc : crc32c data = crc) : s.takeBlock idx crc data true = State.done { s.programBlock idx data with
      fw := { (s.programBlock idx data).fw with rescueBuf := data, rescueOwner := 2 } } [] := by
  rw [State.takeBlock, ho]
  dsimp only
  rw [if_neg hw, if_neg (by omega), if_neg (by simpa using hc)]
  rfl

theorem State.takeBlock_badCrc {n idx crc : Nat} {data : List Byte} (ho : s.fw.rescueOpen = some n) (hw : s.fw.rescueOwner ≠ 1) (hi : idx < n)
    (hc : crc32c data ≠ crc) : s.takeBlock idx crc data true = s.err 8 := by
  rw [State.takeBlock, ho]
  dsimp only
  rw [if_neg hw, if_neg (by omega), if_pos hc]

theorem State.block_exec {idx crc : Nat} {data : List Byte} (hp : s.program = some true) (ht : s.monitor.testing = none)
    (hl : data.length = 4096) : exec (.block idx crc data true) s = .next (State.reply true (s.heard.takeBlock idx crc data true)) := by
  have hb : data.length = blockBytes := hl
  show execBlock idx crc data true s = _
  rw [execBlock, onUnit, if_pos (decide_eq_true hb), State.command_serves hp rfl (.inl ht)]

theorem State.commitRescue_accepted {n : Nat} {img : List Byte} (hi : s.rescueImage n = some img) (hf : s.fuses.imageFaultOf img = none) :
    s.commitRescue n true = (State.coldStart { s with ledger := { s.ledger with image := img } }, 1) := by
  rw [State.commitRescue, hi]
  dsimp only
  rw [if_neg (by simp [hf])]
  rfl

theorem State.commitRescue_refused {n : Nat} {img : List Byte} (ok : Bool) (hi : s.rescueImage n = some img)
    (hf : s.fuses.imageFaultOf img ≠ none) :
    s.commitRescue n ok = ({ s with fw := { s.fw with rescueResult := 2, rescueOwner := 0 } }, 2) := by
  rw [State.commitRescue, hi]
  dsimp only
  rw [if_pos (Option.isSome_iff_ne_none.2 hf)]

theorem State.commit_exec {n : Nat} (hp : s.program = some true) (ht : s.monitor.testing = none) (ho : s.fw.rescueOpen = some n) :
    exec (.commit true) s = .next (State.reply true ⟨[.value "result" [(s.heard.commitRescue n true).2]],
      if (s.heard.commitRescue n true).2 = 1 then 0 else if (s.heard.commitRescue n true).2 = 2 then 7 else 9,
      (s.heard.commitRescue n true).1, (s.heard.commitRescue n true).2 != 1⟩) := by
  have ho' : s.heard.fw.rescueOpen = some n := ho
  show execCommit true s = _
  rw [execCommit, State.command_serves hp rfl (.inl ht), ho']

/-- `STATE` serves beside a `TEST` too (R510, R513). -/
theorem State.state_tells (hp : s.program = some false) : ∃ t, exec .state s = .next t ∧ s.answers t false
    [.value "dev_state" [s.devState.code], .value "usable_tiles" [s.usableTiles], .value "set_mhz" [s.power.setMhz],
      .value "input_w" [s.power.inputW], .value "compute_c" [s.power.computeTemp], .value "time_locked" [b2n (s.fabric.lock == .locked)],
      .value "recoveries" [s.recoveries], .ok] ∧
    t = { s with monitor := { s.monitor with lastLine := s.cairn, out := t.monitor.out } } :=
  State.command_tells (ls := [.value "dev_state" [s.devState.code], .value "usable_tiles" [s.usableTiles],
    .value "set_mhz" [s.power.setMhz], .value "input_w" [s.power.inputW], .value "compute_c" [s.power.computeTemp],
    .value "time_locked" [b2n (s.fabric.lock == .locked)], .value "recoveries" [s.recoveries]]) hp rfl (.inr rfl) rfl

/-! ### The firmware's gated commands -/

section firmware
variable (hp : s.program = some false) (ht : s.monitor.testing = none)
include hp ht

theorem State.test_row {kind n : Nat} (h : s.fuses.lcState = 1 ∨ s.fuses.lcState = 4) (h1 : 1 ≤ kind) (h5 : kind ≤ 5)
    (hn : n < sliceUnits kind) :
    (s.monitor.unlocked = false → ∃ t, exec (.test kind n) s = .next t ∧ s.answers t false [.err 3] ∧
      t = { s with monitor := { s.monitor with lastLine := s.cairn, out := t.monitor.out } }) ∧
    (s.monitor.unlocked = true → s.shutdown.busy = false → s.inService = true →
      (s.sliceFree kind n = true → ∃ t, exec (.test kind n) s = .next t ∧ t.monitor.testing = some (kind, n) ∧
        t.monitor.out = s.monitor.out ∧ (kind ≤ 3 → ∀ i < 16, (t.tile (n * 16 + i)).use = .onDemand) ∧
        (∀ v, v / 16 ≠ n → t.tile v = s.tile v) ∧ t.mem = { s.mem with stagingDone := t.mem.stagingDone }) ∧
      (s.sliceFree kind n = false → s.ledger.results.length < 16384 → ∃ t x, exec (.test kind n) s = .next t ∧
        t.ledger = { s.ledger with results := s.ledger.results ++ [x] } ∧ x.outcome = 3 ∧ x.slice = kind ∧ x.unit_ = n ∧
        x.source = 2 ∧ s.answers t false [x.line, .ok] ∧ t = { s with monitor := t.monitor, ledger := t.ledger })) := by
  have hx := State.test_exec hp kind n
  refine ⟨fun hu => ?_, fun hu hb hs => ⟨fun hf => ?_, fun hf hlen => ?_⟩⟩
  · rw [State.tested_fault (s := s.heard) (State.testFault_locked (s := s.heard) h hu)] at hx
    exact ⟨_, hx, State.answers_err (t := s.heard) rfl 2, rfl⟩
  · rw [State.tested_free (s := s.heard) (State.testFault_none (s := s.heard) h hu h1 h5 hn ht hb hs) hf] at hx
    exact ⟨_, hx, State.beginSlice_row (s := s.heard) kind n ht⟩
  · rw [State.tested_notFree (s := s.heard) (State.testFault_none (s := s.heard) h hu h1 h5 hn ht hb hs) hf,
      State.addResult_short (s := s.heard) _ hlen] at hx
    refine ⟨_, s.heard.sliceResult kind n 3 2 ⟨0, [], 0⟩, hx, rfl, rfl, rfl, rfl, rfl, ?_, rfl⟩
    exact State.answers_done (t := { s.heard with
      ledger := { s.heard.ledger with results := s.heard.ledger.results ++ [s.heard.sliceResult kind n 3 2 ⟨0, [], 0⟩] } }) rfl
      [(s.heard.sliceResult kind n 3 2 ⟨0, [], 0⟩).line]

theorem State.defectClear_exec {idx : Nat} {e : Defect} (h : s.fuses.lcState = 1 ∨ s.fuses.lcState = 4) (hu : s.monitor.unlocked = true)
    (he : s.ledger.defects[idx]? = some e) : exec (.defectClear idx) s = .next (State.reply false (if s.clearable e then
      State.done { s.heard.keepOut e with
        ledger := { (s.heard.keepOut e).ledger with defects := (s.heard.keepOut e).ledger.defects.eraseIdx idx } } [defectLine idx e]
      else s.heard.err 5)) := by
  have he' : s.heard.ledger.defects[idx]? = some e := he
  show execDefectClear idx s = _
  rw [execDefectClear, State.command_serves hp rfl (.inl ht), State.gated_heard (by simpa using h) hu, he']
  rfl

theorem State.defectClear_row {idx : Nat} {e : Defect} (h : s.fuses.lcState = 1 ∨ s.fuses.lcState = 4) (hu : s.monitor.unlocked = true)
    (he : s.ledger.defects[idx]? = some e) :
    (s.clearable e = true → ∃ t, exec (.defectClear idx) s = .next t ∧ s.answers t false [defectLine idx e, .ok] ∧
      t.ledger = { s.ledger with defects := s.ledger.defects.eraseIdx idx } ∧ t.fuses = s.fuses ∧ t.mem = s.mem ∧ t.graphs = s.graphs) ∧
    (s.clearable e = false → ∃ t, exec (.defectClear idx) s = .next t ∧ s.answers t false [.err 5] ∧
      t = { s with monitor := { s.monitor with lastLine := s.cairn, out := t.monitor.out } }) := by
  have hx := State.defectClear_exec hp ht h hu he
  refine ⟨fun hc => ?_, fun hc => ?_⟩
  · obtain ⟨ts, hk⟩ := State.keepOut_frame (s := s.heard) e
    rw [if_pos hc, hk] at hx
    refine ⟨_, hx, ?_, rfl, rfl, rfl, rfl⟩
    exact State.answers_done (t := { s.heard with tiles := ts, ledger := { s.ledger with defects := s.ledger.defects.eraseIdx idx } })
      rfl [defectLine idx e]
  · rw [if_neg (by simp [hc])] at hx
    exact ⟨_, hx, State.answers_err (t := s.heard) rfl 4, rfl⟩

theorem State.resultErase_row (h : s.fuses.lcState = 1) (hu : s.monitor.unlocked = true) : ∃ t, exec .resultErase s = .next t ∧
    s.answers t false [.value "erased" [s.ledger.results.length], .ok] ∧
    t = { s with monitor := t.monitor, ledger := { s.ledger with results := [] } } := by
  have hx : exec .resultErase s = .next (State.reply false (State.done { s.heard with ledger := { s.ledger with results := [] } }
      [.value "erased" [s.ledger.results.length]])) := by
    show execResultErase s = _
    rw [execResultErase, State.command_serves hp rfl (.inl ht), State.gated_heard (by simpa using h) hu]
    rfl
  exact ⟨_, hx, State.answers_done (t := { s.heard with ledger := { s.ledger with results := [] } }) rfl _, rfl⟩

theorem State.fuse_row {kind id : Nat} (h : s.fuses.lcState = 1) (hu : s.monitor.unlocked = true) (hid : id < fuseUnits kind) :
    ∃ t, exec (.fuse kind id true) s = .next t ∧ s.answers t false [.value "fuse" [kind, id], .ok] ∧ (kind, id) ∈ t.fuses.bad ∧
      (∀ p ∈ s.fuses.bad, p ∈ t.fuses.bad) ∧ t = { s with
        monitor := t.monitor, fuses := { s.fuses with bad := t.fuses.bad }, devState := t.devState, mgmt := t.mgmt
        hotSwap := t.hotSwap, ledger := t.ledger, host := t.host } := by
  obtain ⟨hself, hkeep⟩ := s.fuses.mem_marked (kind, id)
  obtain ⟨d, hw, mg, l, ho, hc⟩ := State.checkDegraded_frame
    (s := { s.heard with fuses := { s.heard.fuses with bad := s.fuses.marked (kind, id) } })
  have hx : exec (.fuse kind id true) s = .next (State.reply false (State.done
      ({ s.heard with fuses := { s.heard.fuses with bad := s.fuses.marked (kind, id) } } : State).checkDegraded
      [.value "fuse" [kind, id]])) := by
    show execFuse kind id true s = _
    rw [execFuse, State.command_serves hp rfl (.inl ht), State.gated_heard (by simpa using h) hu,
      if_neg (by omega), if_neg (by simp)]
    rfl
  rw [hc] at hx
  exact ⟨_, hx, State.answers_done (t := { s.heard with
    fuses := { s.heard.fuses with bad := s.fuses.marked (kind, id) }, devState := d, hotSwap := hw, mgmt := mg, ledger := l, host := ho })
    rfl _, hself, hkeep, rfl⟩

end firmware

/-! ### The boot ROM's commands -/

section bootRom
variable (hp : s.program = some true) (ht : s.monitor.testing = none)
include hp ht

theorem State.rescue_row {n : Nat} (h0 : 0 < n) (hn : n ≤ 4096) (ho : s.fw.rescueOwner ≠ 1) : ∃ t, exec (.rescue n) s = .next t ∧
    s.answers t true [.ok] ∧ t = { s with monitor := t.monitor, fw := { s.fw with rescueOpen := some n } } := by
  have hx : exec (.rescue n) s = .next (State.reply true (State.done { s.heard with fw := { s.heard.fw with rescueOpen := some n } } [])) := by
    have ho : s.heard.fw.rescueOwner ≠ 1 := ho
    show execRescue n s = _
    rw [execRescue, State.command_serves hp rfl (.inl ht), if_neg (by simp; omega), if_neg ho]
  exact ⟨_, hx, State.answers_done (t := { s.heard with fw := { s.heard.fw with rescueOpen := some n } }) rfl [], rfl⟩

theorem State.block_row {n idx crc : Nat} {data : List Byte} (ho : s.fw.rescueOpen = some n) (hw : s.fw.rescueOwner ≠ 1) (hi : idx < n)
    (hl : data.length = 4096) :
    (crc32c data = crc → ∃ t, exec (.block idx crc data true) s = .next t ∧ s.answers t true [.ok] ∧ t.fw.rescueOwner = 2 ∧
      Tab.get [] t.fw.rescueBlocks idx = data ∧ (∀ i, i ≠ idx → Tab.get [] t.fw.rescueBlocks i = Tab.get [] s.fw.rescueBlocks i) ∧
      t = { s with monitor := t.monitor, fw := t.fw }) ∧
    (crc32c data ≠ crc → ∃ t, exec (.block idx crc data true) s = .next t ∧ s.answers t true [.err 8] ∧
      t = { s with monitor := t.monitor }) := by
  have hx := State.block_exec (idx := idx) (crc := crc) hp ht hl
  refine ⟨fun hc => ?_, fun hc => ?_⟩
  · rw [State.takeBlock_good (s := s.heard) ho hw hi hc] at hx
    refine ⟨_, hx, ?_, rfl, Tab.get_put_same .., fun i hne => Tab.get_put_other hne, rfl⟩
    exact State.answers_done (t := { s.heard.programBlock idx data with
      fw := { (s.heard.programBlock idx data).fw with rescueBuf := data, rescueOwner := 2 } }) rfl []
  · rw [State.takeBlock_badCrc (s := s.heard) ho hw hi hc] at hx
    exact ⟨_, hx, State.answers_err (t := s.heard) rfl 7, rfl⟩

theorem State.commit_row {n : Nat} {img : List Byte} (ho : s.fw.rescueOpen = some n) (hi : s.rescueImage n = some img) :
    (s.fuses.imageFaultOf img = none → ∃ t, exec (.commit true) s = .next t ∧ t.seq = .start 1 ∧ t.ledger.image = img ∧
      t.monitor.out = s.monitor.out ++ [.value "result" [1], .ok] ∧ t.pending = s.pending) ∧
    (s.fuses.imageFaultOf img ≠ none → ∃ t, exec (.commit true) s = .next t ∧
      s.answers t true [.value "result" [2], .err 7] ∧ t.fw = { s.fw with rescueResult := 2, rescueOwner := 0 } ∧
      t = { s with monitor := t.monitor, fw := t.fw }) := by
  have hx := State.commit_exec hp ht ho
  refine ⟨fun hf => ?_, fun hf => ?_⟩
  · rw [State.commitRescue_accepted (s := s.heard) hi hf] at hx
    exact ⟨_, hx, rfl, rfl, rfl, rfl⟩
  · rw [State.commitRescue_refused (s := s.heard) true hi hf] at hx
    exact ⟨_, hx, State.answers_print (t := { s.heard with fw := { s.heard.fw with rescueResult := 2, rescueOwner := 0 } }) rfl
      [.value "result" [2], .err 7], rfl, rfl⟩

end bootRom

theorem State.rescueOwnershipTimeout_exec (hp : s.program = some true) :
    exec .rescueOwnershipTimeout s = .next { s with fw := { s.fw with rescueOwner := 0 } } :=
  congrArg _ (if_pos (State.program_rom hp))

/-- Settles O58: every command is `act` on the heard state and its answer. -/
theorem monitorCommands : Obligations.MonitorCommands := by
  refine ⟨fun s rom hp => ⟨fun ht => ⟨State.help_tells hp ht, State.info_tells hp ht, State.baud_row hp ht⟩,
    fun n h0 hn => State.log_tells hp h0 hn, State.unknownCommand_refuses hp⟩, fun s hp => ⟨State.state_tells hp,
    fun ht => ⟨State.command_tells hp rfl (.inl ht) rfl, fun idx n hi h0 => State.command_tells hp rfl (.inl ht) (if_neg ?_),
      fun kind n h h1 h5 hn => State.test_row hp ht h h1 h5 hn, fun kind n h1 h4 => ?_,
      fun idx e h hu he => State.defectClear_row hp ht h hu he,
      fun h hu => ⟨State.resultErase_row hp ht h hu, fun kind id hid => State.fuse_row hp ht h hu hid⟩⟩⟩,
    fun s hp ht => ⟨fun n h0 hn ho => State.rescue_row hp ht h0 hn ho, fun n idx crc data ho hw hi hl => State.block_row hp ht ho hw hi hl,
      fun n img ho hi => State.commit_row hp ht ho hi, State.rescueOwnershipTimeout_exec hp⟩⟩
  · have hi : idx < s.heard.ledger.results.length := hi
    simp
    omega
  · have hx := State.test_exec hp kind n
    rw [State.tested_fault (s := s.heard) (State.testFault_state (s := s.heard) h1 h4)] at hx
    exact ⟨_, hx, State.answers_err (t := s.heard) rfl 3, rfl⟩

end Sys2Proof.Machine
end

section
/-! PROOF. Writes to ring, event-ring, wake, slot, shutdown, retraining and rescue registers, and the reads of `CAIRN_NOW` (R319, R420,
R432, R439, R457, R458, R483 to R487). -/

namespace Sys2Proof.Machine

variable {s t u : State} {v n q : Nat}

/-! ### Fields of a word -/

theorem bits_eq (x lo w : Nat) : bits x lo w = x / 2 ^ lo % 2 ^ w := by rw [bits, Nat.shiftRight_eq_div_pow]

theorem bit_eq (x i : Nat) : bit x i = decide (x / 2 ^ i % 2 = 1) := by
  rw [bit, Nat.shiftRight_eq_div_pow]
  exact Bool.beq_eq_decide_eq _ _

/-! ### Rings (R482 to R484) -/

/-- `CTRL` of a submission ring as the row writes it. -/
def ctrlWord (size q : Nat) : Nat := 1 + 2 * size + 2 ^ 8 * q

section ctrl
variable {size : Nat} (hq : q < 256) (hsize : size < 32)
include hq hsize

theorem ctrlWord_lt : ctrlWord size q < 2 ^ 32 := by
  unfold ctrlWord
  omega

theorem Ring.setCtrl_word (r : Ring) : r.setCtrl 0 (ctrlWord size q) = { r with enable := true, log2 := size, cq := q } := by
  have h0 : bit (ctrlWord size q) 0 = true := by rw [bit_eq, ctrlWord]; simp; omega
  have h1 : bits (ctrlWord size q) 1 5 = size := by rw [bits_eq, ctrlWord]; omega
  have h8 : bits (ctrlWord size q) 8 8 = q := by rw [bits_eq, ctrlWord]; omega
  unfold Ring.setCtrl
  rw [h0, h1, h8]
  rfl

end ctrl

section word
variable (hb : s.bar0Answers = true) (hs : s.seq ≠ .rescue)
include hb hs

theorem State.ringCtrlWrite_submission (hl : s.regs.locked = false) (hn : n < 256) (hv : v < 2 ^ 32) :
    exec (.ringCtrlWrite ⟨0x10008 + 16 * n, 4, v⟩) s = .next (s.writeCtrl 0 n ⟨0x10008 + 16 * n, 0x10008 + 16 * n, v⟩) := by
  refine (State.ownWrite_word hb (by omega) hv (by simp; omega)).trans (congrArg _ ?_)
  rw [State.writePart_ring hs true (k := 0) (n := n) (j := 8) (by omega) hn (by omega) (by dsimp only; omega)]
  unfold State.ringPart
  rw [show (0x10008 + 16 * n) % 16 = 8 by omega]
  show s.ringCtrl 0 n _ = _
  rw [State.ringCtrl, if_neg (by simp [hl])]

theorem State.evtRingWrite_word (hl : s.regs.locked = false) (hv : v < 2 ^ 32) : exec (.evtRingWrite ⟨0x1300C, 4, v⟩) s =
    .next (if bit v 8 && !(s.cq (bits v 0 8)).enable then s.refuseWrite 0x1300C 2
      else State.flushConflicts { s with host := { s.host with evtRing := bits v 0 8, evtEnable := bit v 8 } }) := by
  refine (State.ownWrite_word hb (by decide) hv rfl).trans (congrArg _ ?_)
  rw [State.writePart_low hs true (show (0x1300C : Nat) < 0x20000 by decide)]
  show s.writeEvtRing ⟨0x1300C, 0x1300C, v⟩ = _
  rw [State.writeEvtRing, State.rwl, if_pos (by simp [hl])]

theorem State.wake_word : exec (.wake ⟨0x13008, 4, v⟩) s = .next s.writeWake := by
  have hcov : barCovers ⟨0x13008, 4, v⟩ (fun a _ => a == 0x13008) = true := by simp [barCovers, barParts]
  have hbar : s.bar0 true ⟨0x13008, 4, v⟩ = s.writePart true ⟨0x13008, 0x13008, v % 2 ^ 32⟩ := by
    rw [State.bar0, if_pos hb, barParts, if_pos (by simp), List.foldl_cons, List.foldl_nil]
  show onUnit _ _ = _
  rw [hcov, hbar, onUnit, if_pos rfl, State.writePart_low hs true (show (0x13008 : Nat) < 0x20000 by decide)]
  rfl

theorem State.retireSlotWrite_word {i : Nat} (hl : s.regs.locked = false) (hi : i < 8) (hv : v < 2 ^ 32) :
    exec (.retireSlotWrite ⟨0x40040 + 4 * i, 4, v⟩) s = .next (s.writeSlot i ⟨0x40040 + 4 * i, 0x40040 + 4 * i, v⟩) := by
  refine (State.ownWrite_word hb (by omega) hv (by simp; omega)).trans (congrArg _ ?_)
  rw [State.writePart_mid hs true (by dsimp only; omega) (by dsimp only; omega)]
  unfold State.midPart
  dsimp only
  rw [if_neg (by omega), if_neg (by omega), if_neg (by simp; omega), if_neg (by omega), if_neg (by omega), if_neg (by omega),
    if_neg (by omega), if_pos (by simp; omega), show (0x40040 + 4 * i - 0x40040) / 4 = i by omega]

theorem State.shutdownCtrlGo_word (hv : v < 2 ^ 32) (h0 : bit v 0 = true) :
    exec (.shutdownCtrlGo ⟨0x20020, 4, v⟩) s = .next (s.writeShutdown v) := by
  refine (State.ownWrite_word hb (by decide) hv (by simp [h0])).trans (congrArg _ ?_)
  rw [State.writePart_mid hs true (show 0x20000 ≤ (0x20020 : Nat) by decide) (show (0x20020 : Nat) < 0x50000 by decide)]
  rfl

theorem State.retrain_word (hv : v < 2 ^ 32) : s.writePart true ⟨0x60018, 0x60018, v⟩ = s.writeRetrain v := by
  rw [State.writePart_high hs true (show 0x50000 ≤ (0x60018 : Nat) by decide)]
  rfl

theorem State.cairnLowRead_exec : exec .cairnLowRead s =
    .next { s with rd := s.cairn % 2 ^ 32, regs := { s.regs with cairnLatch := some (s.cairn / 2 ^ 32) } } := by
  show execCairnLowRead s = _
  rw [execCairnLowRead, if_neg (by simp [hb]), if_neg (by simpa using hs)]

theorem State.cairnHighRead_exec : exec .cairnHighRead s =
    .next { s with rd := s.regs.cairnLatch.getD (s.cairn / 2 ^ 32), regs := { s.regs with cairnLatch := none } } := by
  show execCairnHighRead s = _
  rw [execCairnHighRead, if_neg (by simp [hb]), if_neg (by simpa using hs)]

end word

/-- A disabled ring that may be enabled starts with its counts at 0 (R483). -/
theorem State.writeCtrl_starts {p : Part} {x : Ring} (hx : (s.sq n).setCtrl 0 p.v = x) (he : (s.sq n).enable = false) (hen : x.enable = true)
    (hf : s.enableFault 0 x = none) : s.writeCtrl 0 n p = s.updSq n fun _ => x.fresh := by
  have hr : s.ring 0 n = s.sq n := rfl
  unfold State.writeCtrl
  dsimp only
  rw [hr, hx, if_neg (by simp [he]), if_pos hen, hf]
  rfl

theorem State.writeCtrl_refused {p : Part} {x : Ring} {c : Nat} (hx : (s.sq n).setCtrl 0 p.v = x) (he : (s.sq n).enable = false)
    (hen : x.enable = true) (hf : s.enableFault 0 x = some c) : s.writeCtrl 0 n p = s.refuseWrite p.origin c := by
  have hr : s.ring 0 n = s.sq n := rfl
  unfold State.writeCtrl
  dsimp only
  rw [hr, hx, if_neg (by simp [he]), if_pos hen, hf]

/-- Held conflicts reported leave the choice of the event ring (R432). -/
theorem State.flushConflicts_evt : s.flushConflicts.host.evtRing = s.host.evtRing ∧ s.flushConflicts.host.evtEnable = s.host.evtEnable := by
  unfold State.flushConflicts
  split
  · exact ⟨rfl, rfl⟩
  · refine List.foldlRecOn (motive := fun t : State => t.host.evtRing = s.host.evtRing ∧ t.host.evtEnable = s.host.evtEnable) _ _
      ⟨rfl, rfl⟩ fun t ht c _ => ?_
    obtain ⟨_, _, _, -, h⟩ := State.notice_frame (s := t) t.host.evtRing ⟨2, 0, 0x1005, 0, 0, c.1, c.2.1, c.2.2⟩
    rw [h]
    exact ht

/-! ### Slots (R486, R487) -/

theorem State.placeSlice_none (h : s.mem.unplaced = []) : s.placeSlice = s := by
  unfold State.placeSlice
  rw [h]
  cases s.freeSlot with
  | none => rfl
  | some i => rfl

theorem State.writeSlot_takes {i base : Nat} {r : RetireSlot} {p : Part} (hl : s.regs.locked = false) (hv : p.v = base + 2 ^ 13)
    (hbase : base < 2 ^ 13) (hr : r = Tab.get RetireSlot.reset s.mem.slots i) (hu : r.inUse = false) (hm : s.slotMapped base = true)
    (ht : s.slotTaken i base = false) (hp : s.mem.unplaced = []) :
    s.writeSlot i p = { s with mem := { s.mem with slots := Tab.put .reset i { r with baseGib := base, enable := true } s.mem.slots } } := by
  have hbits : bits p.v 0 13 = base := by rw [bits_eq, hv]; omega
  have hbit : bit p.v 13 = true := by rw [bit_eq, hv]; simp; omega
  unfold State.writeSlot State.rwl
  dsimp only
  rw [if_pos (by simp [hl]), ← hr, if_neg (by simp [hu]), hbits, hbit, if_neg (by simp [hm]), if_neg (by simp [ht])]
  exact State.placeSlice_none hp

/-! ### Shutdown and retraining (R439, R458) -/

theorem State.writeShutdown_waits {budget : Nat} (hbud : budget < 2 ^ 12) (hi : s.seq = .idle) (hbusy : s.shutdown.busy = false)
    (hg : s.graphIds ≠ []) : ∃ t, s.writeShutdown (1 + 4 * budget) = t ∧ t.shutdown.busy = true ∧ t.shutdown.done = false ∧
      t.shutdown.forceUnload = false ∧ t.shutdown.budgetS = budget ∧ t.graphs = s.graphs ∧ t.tiles = s.tiles ∧ t.mem = s.mem := by
  have h0 : bit (1 + 4 * budget) 0 = true := by rw [bit_eq]; simp; omega
  have h1 : bit (1 + 4 * budget) 1 = false := by rw [bit_eq]; simp; omega
  have h2 : bits (1 + 4 * budget) 2 12 = budget := by rw [bits_eq]; omega
  unfold State.writeShutdown
  dsimp only
  rw [h0, h1, h2, if_pos rfl, State.startShutdown_idle (by exact hi) (by exact hbusy), if_neg (mt List.isEmpty_iff.1 (by exact hg)), if_neg nofun]
  obtain ⟨h, hr⟩ := State.raise_only (s := State.requested { s with shutdown := { s.shutdown with forceUnload := false, budgetS := budget } })
    0x1007 (sumNat (s.graphIds.map fun g => 2 ^ g)) 0 0
  exact ⟨_, hr, rfl, rfl, rfl, rfl, rfl, rfl, rfl⟩

/-- The word of `RETRAIN_REQ` with GO set. -/
def retrainWord (kind n : Nat) : Nat := 2 ^ 31 + 16 * n + kind

section retrainWord
variable {kind : Nat} (hk : kind < 16) (hn : n < 256)
include hk hn

theorem retrainWord_lt : retrainWord kind n < 2 ^ 32 := by unfold retrainWord; omega

theorem retrainWord_kind : bits (retrainWord kind n) 0 4 = kind := by rw [bits_eq, retrainWord]; omega

theorem retrainWord_unit : bits (retrainWord kind n) 4 8 = n := by rw [bits_eq, retrainWord]; omega

theorem retrainWord_go : bit (retrainWord kind n) 31 = true := by rw [bit_eq, retrainWord]; simp; omega

/-- The request stored. -/
def State.retrainAsked (s : State) (kind n : Nat) : State := { s with regs := { s.regs with retrainKind := kind, retrainUnit := n } }

theorem State.writeRetrain_word : s.writeRetrain (retrainWord kind n) = (s.retrainAsked kind n).startRetrain kind n := by
  unfold State.writeRetrain
  dsimp only
  rw [retrainWord_kind hk hn, retrainWord_unit hk hn, retrainWord_go hk hn, if_pos rfl]
  rfl

end retrainWord

theorem State.retrainFilzorPort_exec (hb : s.bar0Answers = true) (hs : s.seq ≠ .rescue) (hn : n < 256) :
    exec (.retrainFilzorPort ⟨0x60018, 4, retrainWord 1 n⟩) s = .next ((s.retrainAsked 1 n).startRetrain 1 n) := by
  have hlt := retrainWord_lt (kind := 1) (by omega) hn
  refine (State.ownWrite_word hb (by decide) hlt ?_).trans (congrArg _ ?_)
  · rw [retrainOf, retrainWord_go (by omega) hn, retrainWord_kind (by omega) hn]
    rfl
  · rw [State.retrain_word hb hs hlt, State.writeRetrain_word (by omega) hn]

theorem State.retrainHbmSliceGroup_exec (hb : s.bar0Answers = true) (hs : s.seq ≠ .rescue) (hn : n < 256) :
    exec (.retrainHbmSliceGroup ⟨0x60018, 4, retrainWord 2 n⟩) s = .next ((s.retrainAsked 2 n).startRetrain 2 n) := by
  have hlt := retrainWord_lt (kind := 2) (by omega) hn
  refine (State.ownWrite_word hb (by decide) hlt ?_).trans (congrArg _ ?_)
  · rw [retrainOf, retrainWord_go (by omega) hn, retrainWord_kind (by omega) hn]
    rfl
  · rw [State.retrain_word hb hs hlt, State.writeRetrain_word (by omega) hn]

theorem State.retrainCxlPort_exec (hb : s.bar0Answers = true) (hs : s.seq ≠ .rescue) (hn : n < 256) :
    exec (.retrainCxlPort ⟨0x60018, 4, retrainWord 3 n⟩) s = .next ((s.retrainAsked 3 n).startRetrain 3 n) := by
  have hlt := retrainWord_lt (kind := 3) (by omega) hn
  refine (State.ownWrite_word hb (by decide) hlt ?_).trans (congrArg _ ?_)
  · rw [retrainOf, retrainWord_go (by omega) hn, retrainWord_kind (by omega) hn]
    rfl
  · rw [State.retrain_word hb hs hlt, State.writeRetrain_word (by omega) hn]

theorem State.startRetrain_not {kind : Nat} (h : s.retrainable kind n = false) : s.startRetrain kind n = s := by
  rw [State.startRetrain, if_pos (by simp [h])]

/-- The state in which a unit's retraining runs. -/
def State.retrains (s : State) (kind n : Nat) : State := { s with fw := { s.fw with
  retraining := some (kind, n), retrained := s.fw.retrained.filter (fun e => e.1 != kind * 256 + n) ++ [(kind * 256 + n, s.cairn)] } }

theorem State.startRetrain_starts {kind : Nat} (h : s.retrainable kind n = true) :
    s.startRetrain kind n = if kind = 1 then (s.retrains kind n).portRetrain n else s.retrains kind n := by
  rw [State.startRetrain, if_neg (by simp [h])]
  rfl

theorem State.retrainable_up (h : s.retrainable 1 n = true) : (s.port n).state = .up := by
  unfold State.retrainable at h
  simp only [Bool.and_eq_true, beq_iff_eq] at h
  exact h.1.2.2

theorem State.retrain_row {kind : Nat} (h : s.retrainable kind n = true)
    (hp : kind = 1 → (s.port n).part ≠ 3 ∧ (s.port n).score + 64 < 49152) :
    ∃ t, (s.retrainAsked kind n).startRetrain kind n = t ∧ t.fw.retraining = some (kind, n) ∧ (kind = 1 → (t.port n).state = .retrain) ∧
      t.regs = { s.regs with retrainKind := kind, retrainUnit := n } ∧ t.mem = s.mem ∧ t.tiles = s.tiles ∧ t.graphs = s.graphs ∧
      (kind ≠ 1 → t = { s with regs := t.regs, fw := t.fw }) := by
  have h' : (s.retrainAsked kind n).retrainable kind n = true := h
  refine ⟨_, State.startRetrain_starts h', ?_⟩
  split
  · next hk =>
    obtain ⟨h3, hw⟩ := hp hk
    subst hk
    have hup : (((s.retrainAsked 1 n).retrains 1 n).port n).state = .up := State.retrainable_up (s := s) h
    obtain ⟨hst, -⟩ := State.portRetrain_same (s := (s.retrainAsked 1 n).retrains 1 n) hup h3 hw
    have hf := (State.portRetrain_onlyPort (s := (s.retrainAsked 1 n).retrains 1 n) (p := n)).frame
    refine ⟨?_, fun _ => hst, ?_, ?_, ?_, ?_, fun h => absurd rfl h⟩
    · rw [hf]; rfl
    · rw [hf]; rfl
    · rw [hf]; rfl
    · rw [hf]; rfl
    · rw [hf]; rfl
  · next hk => exact ⟨rfl, fun h => absurd h hk, rfl, rfl, rfl, rfl, fun _ => rfl⟩

/-! ### Slices lost (R240) -/

theorem State.loseSlice_row (m c : Nat) : ((s.loseSlice m c).slice m).state = .lost ∧
    (∀ j, (s.slice j).state = .lost → ((s.loseSlice m c).slice j).state = .lost) ∧ (s.loseSlice m c).cairn = s.cairn ∧
    (s.loseSlice m c).fw = s.fw ∧ (s.loseSlice m c).mem.hbm = s.mem.hbm := by
  unfold State.loseSlice
  split
  · next h => exact ⟨h, fun _ => id, rfl, rfl, rfl⟩
  · obtain ⟨h, hr⟩ := State.raise_only (s := s.updSlice m fun x => { x with state := .lost }) 0x130A 0 m c
    have hsl : ∀ j, ((s.updSlice m fun x => { x with state := .lost }).raise 0x130A 0 m c).slice j =
        if j = m then { s.slice m with state := .lost } else s.slice j := fun j => by
      rw [hr]
      exact State.updSlice_slice (s := s) m j _
    refine ⟨by rw [hsl, if_pos rfl], fun j hj => ?_, by rw [hr]; rfl, by rw [hr]; rfl, by rw [hr]; rfl⟩
    rw [hsl]
    split
    · rfl
    · exact hj

theorem State.loseSlices_row (m c : Nat) (l : List Nat) : ∀ s : State,
    (∀ j, (j ∈ l ∨ (s.slice (m * 4 + j)).state = .lost) → ((l.foldl (fun s i => s.loseSlice (m * 4 + i) c) s).slice (m * 4 + j)).state = .lost) ∧
    (l.foldl (fun s i => s.loseSlice (m * 4 + i) c) s).cairn = s.cairn ∧ (l.foldl (fun s i => s.loseSlice (m * 4 + i) c) s).fw = s.fw ∧
    (l.foldl (fun s i => s.loseSlice (m * 4 + i) c) s).mem.hbm = s.mem.hbm := by
  induction l with
  | nil => exact fun s => ⟨fun j h => h.resolve_left (by simp), rfl, rfl, rfl⟩
  | cons i l ih =>
    intro s
    obtain ⟨h1, h2, h3, h4, h5⟩ := State.loseSlice_row (s := s) (m * 4 + i) c
    obtain ⟨i1, i2, i3, i4⟩ := ih (s.loseSlice (m * 4 + i) c)
    refine ⟨fun j hj => i1 j ?_, i2.trans h3, i3.trans h4, i4.trans h5⟩
    obtain hj | hj := hj
    · obtain rfl | hj := List.mem_cons.1 hj
      · exact .inr h1
      · exact .inl hj
    · exact .inr (h2 _ hj)

theorem State.retrainComplete_exec {kind outcome : Nat} (hs : s.inService = true) (hr : s.fw.retraining = some (kind, n)) (hk : kind ≠ 1)
    (ho : outcome < 3) : exec (.retrainComplete outcome) s = .next
      ((State.retrainEffect kind n outcome { s with fw := { s.fw with retraining := none } }).raise 0x1805 0 (kind * 256 + n) outcome) := by
  show execRetrainComplete outcome s = _
  rw [execRetrainComplete, onUnit, if_pos (by simpa using ho), hr]
  dsimp only
  rw [if_neg (by simp [hs, hk]), if_neg hk]

/-! ### The rescue over PCIe (R457, R516) -/

section rescue
variable (hb : s.bar0Answers = true) (hs : s.seq = .rescue) (hv : v < 2 ^ 32)
include hb hs hv

theorem State.rescueCtrl_word (ok : Bool) : s.bar0 ok ⟨0x60020, 4, v⟩ = s.writeRescue v ok := by
  rw [State.bar0_word hb ok (by decide) hv, State.writePart, if_pos (by rw [hs]; rfl)]
  rfl

theorem State.rescueCtrlWrite_exec (ok : Bool) (h : bit v 12 = true) :
    exec (.rescueCtrlWrite ⟨0x60020, 4, v⟩ ok) s = .next (s.writeRescue v ok) := by
  show onUnit _ _ = _
  rw [State.rescueCtrl_word hb hs hv, barCovers, barParts_word (by decide) hv, onUnit, if_pos (by simp [h])]

theorem State.rescueCtrlCommit_exec (ok : Bool) (h : bit v 13 = true) :
    exec (.rescueCtrlCommit ⟨0x60020, 4, v⟩ ok) s = .next (s.writeRescue v ok) := by
  show onUnit _ _ = _
  rw [State.rescueCtrl_word hb hs hv, barCovers, barParts_word (by decide) hv, onUnit, if_pos (by simp [h])]

end rescue

theorem State.writeRescue_ignored (ok : Bool) (h : s.fw.rescueOwner = 2) : s.writeRescue v ok = s := if_pos h

/-- The fields of `RESCUE_CTRL` stored. -/
def State.rescueAsked (s : State) (block count : Nat) : State := { s with fw := { s.fw with rescueBlock := block, rescueCount := count } }

theorem State.writeRescue_write {block : Nat} (ok : Bool) (h : s.fw.rescueOwner ≠ 2) (hblock : block < 4096) :
    s.writeRescue (block + 2 ^ 12) ok = (s.rescueAsked block 0).rescueWrite block ok := by
  have h1 : bits (block + 2 ^ 12) 0 12 = block := by rw [bits_eq]; omega
  have h2 : bits (block + 2 ^ 12) 16 12 = 0 := by rw [bits_eq]; omega
  have h3 : bit (block + 2 ^ 12) 12 = true := by rw [bit_eq]; simp; omega
  have h4 : bit (block + 2 ^ 12) 13 = false := by rw [bit_eq]; simp; omega
  unfold State.writeRescue
  rw [if_neg h, h1, h2, h3, h4]
  rfl

theorem State.writeRescue_commit {count : Nat} (ok : Bool) (h : s.fw.rescueOwner ≠ 2) (hcount : count < 4096) :
    s.writeRescue (2 ^ 13 + 2 ^ 16 * count) ok = ((s.rescueAsked 0 count).commitRescue (count + 1) ok).1 := by
  have h1 : bits (2 ^ 13 + 2 ^ 16 * count) 0 12 = 0 := by rw [bits_eq]; omega
  have h2 : bits (2 ^ 13 + 2 ^ 16 * count) 16 12 = count := by rw [bits_eq]; omega
  have h3 : bit (2 ^ 13 + 2 ^ 16 * count) 12 = false := by rw [bit_eq]; simp; omega
  have h4 : bit (2 ^ 13 + 2 ^ 16 * count) 13 = true := by rw [bit_eq]; simp; omega
  unfold State.writeRescue
  rw [if_neg h, h1, h2, h3, h4]
  rfl

theorem State.commitRescue_missing {m : Nat} (ok : Bool) (h : s.rescueImage m = none) :
    s.commitRescue m ok = ({ s with fw := { s.fw with rescueResult := 2, rescueOwner := 0 } }, 2) := by
  rw [State.commitRescue, h]

/-- Settles O55: a word of each register comes to one writer, whose fields are those of the word. -/
theorem setupWrites : Obligations.SetupWrites := by
  refine ⟨fun s hb hs hl => ⟨fun n size q hn hq he hbase hcq hsize => ⟨fun h6 h16 => ?_, fun h => ?_⟩, fun q hq => ⟨fun hcq => ?_, fun hcq => ?_⟩,
      fun i base r hi hbase hr hu hm ht hp => ?_⟩,
    fun s hb hs => ⟨fun v => State.wake_word hb hs, State.cairnLowRead_exec hb hs, State.cairnHighRead_exec hb hs,
      fun budget hbud hi hbusy hg => ?_, fun c kind n w hw hn hc => ?_⟩,
    fun s kind n outcome hs hr hk ho => ⟨fun h => ?_, fun h2 hout => ?_⟩,
    fun s hb hs => ⟨fun block hblock how => ⟨?_, ?_⟩, fun count hcount how => ⟨fun hi ok => ?_, fun img hi hf => ?_⟩,
      fun v ok hv how => ⟨fun h => ?_, fun h => ?_⟩⟩⟩
  · have hset := Ring.setCtrl_word hq hsize (s.sq n)
    refine ⟨_, (State.ringCtrlWrite_submission hb hs hl hn (ctrlWord_lt hq hsize)).trans
      (congrArg _ (State.writeCtrl_starts hset he rfl ?_)), ?_, fun m hm => ?_, rfl⟩
    · rw [State.enableFault, if_neg (by simp; omega), if_neg hbase, if_neg (by simp [hcq])]
    · exact (State.updSq_sq (s := s) n n _).trans (if_pos rfl)
    · exact (State.updSq_sq (s := s) n m _).trans (if_neg hm)
  · refine (State.ringCtrlWrite_submission hb hs hl hn (ctrlWord_lt hq hsize)).trans
      (congrArg _ (State.writeCtrl_refused (Ring.setCtrl_word hq hsize (s.sq n)) he rfl ?_))
    rw [State.enableFault, if_pos (by simp; omega)]
  · have h0 : bits (q + 2 ^ 8) 0 8 = q := by rw [bits_eq]; omega
    have h8 : bit (q + 2 ^ 8) 8 = true := by rw [bit_eq]; simp; omega
    have hx := State.evtRingWrite_word hb hs hl (v := q + 2 ^ 8) (by omega)
    rw [h0, h8, if_neg (by simp [hcq])] at hx
    obtain ⟨hring, hen⟩ := State.flushConflicts_evt (s := { s with host := { s.host with evtRing := q, evtEnable := true } })
    obtain ⟨cs, h, hf⟩ := State.flushConflicts_frame (s := { s with host := { s.host with evtRing := q, evtEnable := true } })
    exact ⟨_, hx, hring, hen, by rw [hf]⟩
  · have h0 : bits (q + 2 ^ 8) 0 8 = q := by rw [bits_eq]; omega
    have h8 : bit (q + 2 ^ 8) 8 = true := by rw [bit_eq]; simp; omega
    have hx := State.evtRingWrite_word hb hs hl (v := q + 2 ^ 8) (by omega)
    rw [h0, h8, if_pos (by simp [hcq])] at hx
    exact hx
  · refine ⟨_, (State.retireSlotWrite_word hb hs hl hi (by omega)).trans
      (congrArg _ (State.writeSlot_takes hl rfl hbase hr hu hm ht hp)), ?_, fun j hj => ?_, rfl⟩
    · exact Tab.get_put_same ..
    · exact Tab.get_put_other hj
  · have h0 : bit (1 + 4 * budget) 0 = true := by rw [bit_eq]; simp; omega
    obtain ⟨t, ht, h⟩ := State.writeShutdown_waits hbud hi hbusy hg
    exact ⟨t, (State.shutdownCtrlGo_word hb hs (by omega) h0).trans (congrArg _ ht), h⟩
  · have hx : exec c s = .next ((s.retrainAsked kind n).startRetrain kind n) := by
      obtain ⟨rfl, rfl⟩ | ⟨rfl, rfl⟩ | ⟨rfl, rfl⟩ := hc
      · exact hw ▸ State.retrainFilzorPort_exec hb hs hn
      · exact hw ▸ State.retrainHbmSliceGroup_exec hb hs hn
      · exact hw ▸ State.retrainCxlPort_exec hb hs hn
    refine ⟨fun h => hx.trans (congrArg _ (State.startRetrain_not (s := s.retrainAsked kind n) h)), fun h hp => ?_⟩
    obtain ⟨t, ht, hrow⟩ := State.retrain_row h hp
    exact ⟨t, hx.trans (congrArg _ ht), hrow⟩
  · rw [State.retrainComplete_exec hs hr hk ho, State.retrainEffect, if_neg (by simp; omega)]
  · have hx := State.retrainComplete_exec hs hr hk ho
    rw [State.retrainEffect, if_pos (by simp [h2, hout])] at hx
    obtain ⟨h1, hc, hfw, hm⟩ := State.loseSlices_row n 1 (List.range 4) { s with fw := { s.fw with retraining := none } }
    generalize (List.range 4).foldl (fun s i => s.loseSlice (n * 4 + i) 1) { s with fw := { s.fw with retraining := none } } = s1 at *
    obtain ⟨h, hraise⟩ := State.raise_only (s := s1) 0x1805 0 (kind * 256 + n) outcome
    rw [hraise] at hx
    refine ⟨_, hx, ?_, fun i hi => h1 i (.inl (List.mem_range.2 hi)), ?_, hm⟩
    · dsimp only
      rw [hfw]
    · dsimp only
      rw [hc, hout]
      exact List.mem_append_right _ (List.mem_singleton_self _)
  · have h12 : bit (block + 2 ^ 12) 12 = true := by rw [bit_eq]; simp; omega
    refine ⟨_, (State.rescueCtrlWrite_exec hb hs (by omega) true h12).trans (congrArg _ (State.writeRescue_write true how hblock)), ?_⟩
    rw [State.rescueWrite, if_pos rfl]
    exact ⟨Tab.get_put_same .., fun i hi => Tab.get_put_other hi, rfl, rfl, rfl⟩
  · have h12 : bit (block + 2 ^ 12) 12 = true := by rw [bit_eq]; simp; omega
    refine (State.rescueCtrlWrite_exec hb hs (by omega) false h12).trans (congrArg _ ((State.writeRescue_write false how hblock).trans ?_))
    rw [State.rescueWrite, if_neg nofun]
    rfl
  · have h13 : bit (2 ^ 13 + 2 ^ 16 * count) 13 = true := by rw [bit_eq]; simp; omega
    refine (State.rescueCtrlCommit_exec hb hs (by omega) ok h13).trans (congrArg _ ((State.writeRescue_commit ok how hcount).trans ?_))
    rw [State.commitRescue_missing (s := s.rescueAsked 0 count) ok hi]
    rfl
  · have h13 : bit (2 ^ 13 + 2 ^ 16 * count) 13 = true := by rw [bit_eq]; simp; omega
    refine ⟨_, (State.rescueCtrlCommit_exec hb hs (by omega) true h13).trans (congrArg _ (State.writeRescue_commit true how hcount)), ?_⟩
    rw [State.commitRescue_accepted (s := s.rescueAsked 0 count) hi hf]
    exact ⟨rfl, rfl, rfl, rfl, rfl⟩
  · exact (State.rescueCtrlWrite_exec hb hs hv ok h).trans (congrArg _ (State.writeRescue_ignored ok how))
  · exact (State.rescueCtrlCommit_exec hb hs hv ok h).trans (congrArg _ (State.writeRescue_ignored ok how))

end Sys2Proof.Machine
end

section
/-! PROOF. Firmware update in service (R454 to R456, R466). -/

namespace Sys2Proof.Machine

variable {s t u : State}

/-! ### Units -/

theorem State.updUnit_unit (m n : Nat) (f : FwUnit → FwUnit) : (s.updUnit m f).unit n = if n = m then f (s.unit m) else s.unit n := Tab.get_upd

/-- Units alone have changed. -/
def State.OnlyUnits (s t : State) : Prop := ∃ us, t = { s with fw := { s.fw with units := us } }

theorem State.OnlyUnits.refl (s : State) : s.OnlyUnits s := ⟨s.fw.units, rfl⟩

theorem State.OnlyUnits.trans (h : s.OnlyUnits t) (h' : t.OnlyUnits u) : s.OnlyUnits u := by
  obtain ⟨_, rfl⟩ := h
  obtain ⟨_, rfl⟩ := h'
  exact ⟨_, rfl⟩

theorem State.updUnit_onlyUnits (m : Nat) (f : FwUnit → FwUnit) : s.OnlyUnits (s.updUnit m f) := ⟨_, rfl⟩

theorem State.checkSection_onlyUnits (img : List Byte) (m : Nat) : s.OnlyUnits (s.checkSection img m) := by
  unfold State.checkSection
  dsimp only
  split
  · exact .refl s
  · split
    · exact State.updUnit_onlyUnits m _
    · exact State.updUnit_onlyUnits m _

/-- A fold of steps of which each changes units alone. -/
theorem State.foldl_onlyUnits {α : Type} (f : State → α → State) (hf : ∀ s a, State.OnlyUnits s (f s a)) (l : List α) (s : State) :
    s.OnlyUnits (l.foldl f s) := List.foldlRecOn (motive := fun t : State => s.OnlyUnits t) l f (.refl s) fun t ht a _ => ht.trans (hf t a)

/-! ### `FW_UPDATE` (R455) -/

/-- The ledger's image and the update under way, before anything is distributed. -/
def State.updating (s : State) (d : Desc) (img : List Byte) : State := { s with
  ledger := { s.ledger with image := img }
  fw := { s.fw with update := some (d.tag, img, bit d.arg 1, 0), activating := false } }

theorem State.beginStaging_frame (d : Desc) (img : List Byte) : ∃ us, s.beginStaging d img =
    State.holdDesc d.tag { s.updating d img with fw := { (s.updating d img).fw with units := us } } := by
  unfold State.beginStaging
  extract_lets l0 f0 s1 us s2
  have h1 : s1 = s.updating d img := rfl
  have h2 : s1.OnlyUnits s2 := State.foldl_onlyUnits _ (fun t a => State.updUnit_onlyUnits a _) us s1
  have h3 : s1.OnlyUnits ((us.filter fun u => !s2.unitCurrent img u).foldl (State.checkSection img) s2) :=
    h2.trans (State.foldl_onlyUnits _ (fun t a => State.checkSection_onlyUnits img a) _ s2)
  obtain ⟨v, h⟩ := h3
  rw [h, h1]
  exact ⟨v, rfl⟩

theorem State.fwUpdate_exec {d : Nat} {x : Desc} {img : List Byte} (hx : s.starts d 0x70 fwForm x) (h0 : s.fuses.lcState ≠ 0)
    (h5 : s.fuses.lcState ≠ 5) (hu : s.fw.update = none) (hf : s.fetchesFirmware x.tag = false) (hd : s.dma = true) (ha : bit x.arg 0 = true)
    (hl : img.length = x.get 24 8) (hi : s.fuses.imageFaultOf img = none) :
    exec (.fwUpdate d (.data img) true) s = .next (s.beginStaging x img) := by
  show execFwUpdate d (.data img) true s none = _
  rw [execFwUpdate, State.runDesc_of_starts hx hd]
  dsimp only
  rw [if_neg (by simp [h0, h5]), if_neg (by simp [hu, hf]), if_pos ha, if_pos hl, State.updateFirmware, hi]
  rfl

/-! ### Chunks and repair (R456) -/

theorem State.fwChunk_exec {m seq tag n : Nat} {img : List Byte} {act : Bool} (hm : m < unitTotal) (hu : s.fw.update = some (tag, img, act, n))
    (ha : s.fw.activating = false) (hs : seq < sectionChunks img (unitKind m)) (hst : (s.unit m).staged = none)
    (hc : s.unitCurrent img m = false) : exec (.fwChunk m seq (field (imageDigest img) 0 4)) s =
      .next ((s.updUnit m fun x => x.store seq (sentChunk img (unitKind m) seq) none).checkSection img m) := by
  show execFwChunk m seq (field (imageDigest img) 0 4) s none = _
  rw [execFwChunk, onUnit, if_pos (by simpa using hm), hu]
  dsimp only
  rw [if_neg]
  rw [hst, hc, ha]
  simp
  omega

/-- A unit that still lacks a chunk waits for it (R456). -/
theorem State.checkSection_waits {img : List Byte} {m : Nat} (h : (s.unit m).chunks.length < sectionChunks img (unitKind m)) :
    s.checkSection img m = s := if_pos h

theorem FwUnit.store_new {x : FwUnit} {i : Nat} (sent : List Byte) (h : i ∉ x.chunks) :
    x.store i sent none = { x with chunks := x.chunks ++ [i], altered := Tab.erase i x.altered } := by
  unfold FwUnit.store
  rw [if_neg (by simpa using h)]

theorem State.fwRepairRound_sends {tag n : Nat} {img : List Byte} {act : Bool} (hu : s.fw.update = some (tag, img, act, n))
    (ha : s.fw.activating = false) (hm : s.missingUnits img ≠ []) (hn : n < 4) :
    exec .fwRepairRound s = .next { s with fw := { s.fw with update := some (tag, img, act, n + 1) } } := by
  show execFwRepairRound s = _
  rw [execFwRepairRound, hu]
  dsimp only
  rw [if_neg (by simp [ha]), if_neg]
  simp only [Bool.or_eq_true, List.isEmpty_iff, decide_eq_true_eq, not_or]
  exact ⟨hm, by omega⟩

theorem State.fwRepairRound_ends {tag n : Nat} {img : List Byte} {act : Bool} (hu : s.fw.update = some (tag, img, act, n))
    (ha : s.fw.activating = false) (hm : s.missingUnits img = []) : exec .fwRepairRound s = .next (s.endStaging tag img act) := by
  show execFwRepairRound s = _
  rw [execFwRepairRound, hu]
  dsimp only
  rw [if_neg (by simp [ha]), if_pos (by rw [hm]; rfl)]

/-- A descriptor completed by its tag leaves the store; the host alone sees it. -/
theorem State.completeTag_row (tag st dt res : Nat) : (s.completeTag tag st dt res).desc tag = none ∧
    ∃ h, s.completeTag tag st dt res = { s with host := h } := by
  unfold State.completeTag
  split
  · next h => exact ⟨h, s.host, rfl⟩
  · next d h =>
    have hd := State.complete_desc (s := s) d st dt res
    rw [State.desc_tag h] at hd
    exact ⟨hd, State.complete_frame d st dt res⟩

/-- Distribution that ends with every unit ready and no activation asked (R455). -/
theorem State.endStaging_row {tag : Nat} {img : List Byte} (hm : s.missingUnits img = []) :
    ∃ t, s.endStaging tag img false = t ∧ t.fw.update = none ∧ t.desc tag = none ∧
      (s.cairn, ⟨0x1801, mBuild img, 0, 0⟩) ∈ t.ledger.events ∧ t.mem = s.mem := by
  obtain ⟨h, hr⟩ := State.raise_only (s := s) 0x1801 (mBuild img) 0 0
  have he : s.endStaging tag img false = ({ s.raise 0x1801 (mBuild img) 0 0 with
      fw := { (s.raise 0x1801 (mBuild img) 0 0).fw with update := none } } : State).completeTag tag stOk 0 0 := by
    rw [State.endStaging, hm]
    rfl
  refine ⟨_, rfl, ?_⟩
  rw [he, hr]
  obtain ⟨hd, h', hc⟩ := State.completeTag_row (s := { s with
    host := h, ledger := { s.ledger with events := s.ledger.events ++ [(s.cairn, ⟨0x1801, mBuild img, 0, 0⟩)] }
    fw := { s.fw with update := none } }) tag stOk 0 0
  refine ⟨?_, hd, ?_, ?_⟩
  · rw [hc]
  · rw [hc]
    exact List.mem_append_right _ (List.mem_singleton_self _)
  · rw [hc]

/-! ### Activation (R454, R474) -/

/-- What ends an update leaves memory, graphs and the units. -/
theorem State.settleActivation_frame : ∃ h l up ac, s.settleActivation = { s with
    host := h, ledger := l, fw := { s.fw with update := up, activating := ac } } := by
  unfold State.settleActivation
  extract_lets st build s2 s1
  split
  · exact ⟨_, _, _, _, rfl⟩
  · have h1 : ∃ h l up, s1 = { s with host := h, ledger := l, fw := { s.fw with update := up } } := by
      simp only [s1]
      split
      · exact ⟨_, _, _, rfl⟩
      · next v hv =>
        obtain ⟨-, h, hc⟩ := State.completeTag_row (s := { s with fw := { s.fw with update := none } }) v.1 stOk 0 0
        simp only [s2]
        rw [hc]
        split
        · exact ⟨_, _, _, rfl⟩
        · obtain ⟨h', hr⟩ := State.raise_only (s := { s with fw := { s.fw with update := none }, host := h }) 0x1802 build st.length 0
          exact ⟨_, _, _, hr⟩
    clear_value s1
    obtain ⟨h, l, up, rfl⟩ := h1
    split
    · obtain ⟨h', hr⟩ := State.raise_only (s := { s with host := h, ledger := l, fw := { s.fw with update := up, activating := false } }) 0x1803 build 0 0
      exact ⟨_, _, _, _, hr⟩
    · exact ⟨_, _, _, _, rfl⟩

/-- The unit with its staged section running. -/
def State.runsSection (s : State) (m : Nat) (dg : List Byte) : State := s.updUnit m fun x => { x with running := dg, staged := none }

theorem State.activateUnit_staged {m : Nat} {dg : List Byte} (ha : s.fw.activating = true) (hs : (s.unit m).staged = some dg) :
    s.activateUnit m = (s.runsSection m dg).settleActivation := by
  rw [State.activateUnit, hs]
  exact if_pos ha

theorem State.activateUnit_row {m : Nat} {dg : List Byte} (ha : s.fw.activating = true) (hs : (s.unit m).staged = some dg) :
    ∃ t, s.activateUnit m = t ∧ (t.unit m).running = dg ∧ (t.unit m).staged = none ∧ t.mem = s.mem ∧ t.graphs = s.graphs := by
  obtain ⟨h, l, up, ac, hf⟩ := State.settleActivation_frame (s := s.runsSection m dg)
  have hsame : (s.runsSection m dg).unit m = { s.unit m with running := dg, staged := none } := by
    rw [State.runsSection, State.updUnit_unit, if_pos rfl]
  have hunit : (s.runsSection m dg).settleActivation.unit m = { s.unit m with running := dg, staged := none } := by
    rw [hf]
    exact hsame
  refine ⟨_, State.activateUnit_staged ha hs, ?_, ?_, ?_, ?_⟩
  · rw [hunit]
  · rw [hunit]
  · rw [hf]; rfl
  · rw [hf]; rfl

theorem State.fwUnitActivate_exec {m : Nat} {dg : List Byte} (hm : m < unitTotal) (ha : s.fw.activating = true)
    (hs : (s.unit m).staged = some dg) (hat : s.atActivation m = true) : ∃ c, exec (.fwUnitActivate m) s =
      .next ((if unitKind m = 5 then s.advanceTo c else s).activateUnit m) := by
  show ∃ c, execFwUnitActivate m s = _
  refine ⟨s.cairn + 200000, ?_⟩
  rw [execFwUnitActivate, onUnit, if_pos (by simpa using hm), if_neg (by simp [ha, hs, hat])]

/-- Settles O25: each row is one change of the units and of the update's record, and the completion where it ends. -/
theorem firmwareUpdateRows : Obligations.FirmwareUpdateRows := by
  refine ⟨fun s d x img hx h0 h5 hu hf hd ha hl hi => ?_, fun s m seq tag n img act hm hu ha hs hseq hst hc hlen => ?_,
    fun s tag n img act hu ha => ⟨fun hm hn => State.fwRepairRound_sends hu ha hm hn, fun hm hact => ?_⟩, fun s m dg hm ha hs hat => ?_⟩
  · obtain ⟨us, hb⟩ := State.beginStaging_frame (s := s) x img
    have htag := State.desc_tag (State.starts_desc hx)
    subst htag
    refine ⟨_, (State.fwUpdate_exec hx h0 h5 hu hf hd ha hl hi).trans (congrArg _ hb), rfl, rfl, ?_, rfl, rfl, rfl, rfl⟩
    exact State.holdDesc_desc (s := { s.updating x img with fw := { (s.updating x img).fw with units := us } }) (State.starts_desc hx)
  · have hsame : (s.updUnit m fun x => x.store seq (sentChunk img (unitKind m) seq) none).unit m =
        { s.unit m with chunks := (s.unit m).chunks ++ [seq], altered := Tab.erase seq (s.unit m).altered } := by
      rw [State.updUnit_unit, if_pos rfl, FwUnit.store_new _ hseq]
    refine ⟨_, (State.fwChunk_exec hm hu ha hs hst hc).trans (congrArg _ (State.checkSection_waits ?_)), hsame, fun v hv => ?_, rfl⟩
    · rw [hsame]
      dsimp only
      rw [List.length_append, List.length_singleton]
      exact hlen
    · rw [State.updUnit_unit, if_neg hv]
  · subst hact
    obtain ⟨t, ht, h⟩ := State.endStaging_row (s := s) (tag := tag) hm
    exact ⟨t, (State.fwRepairRound_ends hu ha hm).trans (congrArg _ ht), h⟩
  · obtain ⟨c, hx⟩ := State.fwUnitActivate_exec hm ha hs hat
    obtain ⟨v, hv⟩ : ∃ v, v = if unitKind m = 5 then s.advanceTo c else s := ⟨_, rfl⟩
    rw [← hv] at hx
    have hadv : v.fw = s.fw ∧ v.mem = s.mem ∧ v.graphs = s.graphs := by
      rw [hv]
      split
      · exact ⟨rfl, rfl, rfl⟩
      · exact ⟨rfl, rfl, rfl⟩
    obtain ⟨hfw, hmem, hgr⟩ := hadv
    obtain ⟨t, ht, h1, h2, h3, h4⟩ := State.activateUnit_row (s := v) (m := m) (dg := dg) (by rw [hfw]; exact ha)
      (by rw [State.unit, hfw]; exact hs)
    exact ⟨t, hx.trans (congrArg _ ht), h1, h2, h3.trans hmem, h4.trans hgr⟩

end Sys2Proof.Machine
end

section
/-! PROOF. The rings: polls, fetching, `SKIP`, the heartbeat, MSI-X and configuration requests (R307 to R331). -/

namespace Sys2Proof.Machine

variable {s t u : State}

/-! ### The host side alone -/

/-- Everything but the host side and the ledger's events is as it was, and submission ring `n` too. -/
def State.KeepsSq (n : Nat) (s t : State) : Prop := t.sq n = s.sq n ∧ ∃ h l, t = { s with host := h, ledger := l }

theorem State.KeepsSq.refl (n : Nat) (s : State) : s.KeepsSq n s := ⟨rfl, s.host, s.ledger, rfl⟩

theorem State.KeepsSq.trans {n : Nat} (h : s.KeepsSq n t) (h' : t.KeepsSq n u) : s.KeepsSq n u := by
  obtain ⟨hn, _, _, rfl⟩ := h
  obtain ⟨hn', _, _, rfl⟩ := h'
  exact ⟨hn'.trans hn, _, _, rfl⟩

section keepsSq
variable (n : Nat)

theorem State.notice_keepsSq (q : Nat) (r : Rec) : s.KeepsSq n (s.notice q r) := by
  obtain ⟨_, _, _, -, h⟩ := State.notice_frame (s := s) q r
  rw [h]
  exact ⟨rfl, _, s.ledger, rfl⟩

theorem State.raise_keepsSq (c x y z : Nat) : s.KeepsSq n (s.raise c x y z) := by
  obtain ⟨_, _, _, -, h⟩ := State.raise_frame (s := s) c x y z
  rw [h]
  exact ⟨rfl, _, _, rfl⟩

theorem State.updCq_keepsSq (q : Nat) (f : Ring → Ring) : s.KeepsSq n (s.updCq q f) := ⟨rfl, _, s.ledger, rfl⟩

theorem State.updHv_keepsSq (q : Nat) (f : Ring → Ring) : s.KeepsSq n (s.updHv q f) := ⟨rfl, _, s.ledger, rfl⟩

theorem State.updSq_keepsSq {m : Nat} (hm : n ≠ m) (f : Ring → Ring) : s.KeepsSq n (s.updSq m f) :=
  ⟨by rw [State.updSq_sq, if_neg hm], _, s.ledger, rfl⟩

theorem State.takeTail_keepsSq (page : List Byte) {m : Nat} (hm : n ≠ m) : s.KeepsSq n (s.takeTail page m) := by
  unfold State.takeTail
  extract_lets r tail
  split
  · exact .refl n s
  · split
    · exact State.updSq_keepsSq n hm _
    · split
      · exact State.updSq_keepsSq n hm _
      · split
        · exact .refl n s
        · exact (State.updSq_keepsSq n hm _).trans (State.notice_keepsSq n _ _)

theorem State.takeCqHead_keepsSq (page : List Byte) (m : Nat) : s.KeepsSq n (s.takeCqHead page m) := by
  unfold State.takeCqHead
  extract_lets r head
  split
  · exact .refl n s
  · split
    · exact State.updCq_keepsSq n _ _
    · split
      · exact .refl n s
      · exact (State.updCq_keepsSq n _ _).trans (State.raise_keepsSq n _ _ _ _)

theorem State.takeHvHead_keepsSq (page : List Byte) (m : Nat) : s.KeepsSq n (s.takeHvHead page m) := by
  unfold State.takeHvHead
  extract_lets r head
  split
  · exact .refl n s
  · split
    · exact State.updHv_keepsSq n _ _
    · split
      · exact .refl n s
      · exact (State.updHv_keepsSq n _ _).trans (State.raise_keepsSq n _ _ _ _)

theorem State.foldl_keepsSq {α : Type} (f : State → α → State) (hf : ∀ s a, State.KeepsSq n s (f s a)) (l : List α) (s : State) :
    s.KeepsSq n (l.foldl f s) := List.foldlRecOn (motive := fun t : State => s.KeepsSq n t) l f (.refl n s) fun t ht a _ => ht.trans (hf t a)

end keepsSq

/-! ### Messages (R310, R331) -/

/-- Messages and completion rings alone have changed. -/
def State.OnlySignals (s t : State) : Prop := ∃ cq m p, t = { s with host := { s.host with cq := cq, messages := m, pendingVec := p } }

theorem State.signal_onlySignals (v : Nat) : s.OnlySignals (s.signal v) := by
  unfold State.signal
  split
  · exact ⟨_, _, _, rfl⟩
  · split
    · exact ⟨_, _, _, rfl⟩
    · split
      · exact ⟨_, _, _, rfl⟩
      · exact ⟨_, _, _, rfl⟩

/-- The vector of one completion ring written since the last poll (R331). -/
def State.signalRing (s : State) (n : Nat) : State :=
  if !(s.cq n).dirty then s
  else
    let s1 := s.updCq n fun r => { r with dirty := false }
    if (s.cq n).irq then s1.signal (s.cq n).vector else s1

theorem State.signalRing_onlySignals (n : Nat) : s.OnlySignals (s.signalRing n) := by
  unfold State.signalRing
  split
  · exact ⟨_, _, _, rfl⟩
  · dsimp only
    split
    · obtain ⟨_, _, _, h⟩ := State.signal_onlySignals (s := s.updCq n fun r => { r with dirty := false }) (s.cq n).vector
      exact ⟨_, _, _, h⟩
    · exact ⟨_, _, _, rfl⟩

theorem State.signalRings_onlySignals : s.OnlySignals s.signalRings := by
  unfold State.signalRings
  generalize List.range 256 = l
  refine List.foldlRecOn (motive := fun t : State => s.OnlySignals t) l (fun s n => s.signalRing n) ⟨_, _, _, rfl⟩ fun t ht n _ => ?_
  obtain ⟨_, _, _, rfl⟩ := ht
  obtain ⟨_, _, _, h⟩ := State.signalRing_onlySignals
    (s := { s with host := { s.host with cq := _, messages := _, pendingVec := _ } }) n
  exact ⟨_, _, _, h⟩

/-! ### A poll (R312, R315, R319) -/

/-- A poll begun at the instant of the state, with the rings signalled. -/
def State.pollBegun (s : State) : State := State.signalRings { s with host := { s.host with lastPoll := s.cairn, wake := false } }

theorem State.pollBegun_frame : ∃ cq m p, s.pollBegun =
    { s with host := { s.host with lastPoll := s.cairn, wake := false, cq := cq, messages := m, pendingVec := p } } := by
  unfold State.pollBegun
  obtain ⟨cq, m, p, h⟩ := State.signalRings_onlySignals (s := { s with host := { s.host with lastPoll := s.cairn, wake := false } })
  rw [h]
  exact ⟨cq, m, p, rfl⟩

theorem State.polled_frame : ∃ n, s.polled = { s with host := { s.host with pollNext := n } } := ⟨_, rfl⟩

theorem State.polled_keeps (n : Nat) : s.polled.sq n = s.sq n ∧ s.polled.mem = s.mem ∧ s.polled.tiles = s.tiles ∧ s.polled.graphs = s.graphs :=
  ⟨rfl, rfl, rfl, rfl⟩

theorem State.mem_noteAer (e : AerError) : e ∈ (s.noteAer e).host.pcie.aer := by
  unfold State.noteAer
  dsimp only
  split
  · next h => simpa using h
  · simp

theorem State.doorbellPoll_failed_exec (hr : s.ringsRun = true) (e : AerError) (bs : List Byte) : exec (.doorbellPoll (.failed e bs)) s =
    .next (((s.advanceTo s.pollDue).pollBegun.noteAer e).polled) := by
  show execDoorbellPoll (.failed e bs) s = _
  unfold execDoorbellPoll State.pollBegun
  rw [if_neg (by simp [hr])]

theorem State.pollFailed_row (e : AerError) : ∃ t, (s.pollBegun.noteAer e).polled = t ∧ t.cairn = s.cairn ∧ e ∈ t.host.pcie.aer ∧
    t.host.lastPoll = t.cairn ∧ t.host.wake = false ∧ t.host.sq = s.host.sq ∧ t = { s with host := t.host } := by
  obtain ⟨cq, m, p, hb⟩ := State.pollBegun_frame (s := s)
  have hm := State.mem_noteAer (s := s.pollBegun) e
  obtain ⟨n, hn⟩ := State.polled_frame (s := s.pollBegun.noteAer e)
  rw [hn]
  rw [hb] at hm ⊢
  exact ⟨_, rfl, rfl, hm, rfl, rfl, rfl, rfl⟩

/-- The tails and heads of a page taken. -/
def State.takePage (b : List Byte) (s : State) : State :=
  (List.range 64).foldl (State.takeHvHead b) ((List.range 256).foldl (State.takeCqHead b) ((List.range 256).foldl (State.takeTail b) s))

theorem State.doorbellPoll_data_exec (hr : s.ringsRun = true) {b : List Byte} (hb : b.length = 0x900) : exec (.doorbellPoll (.data b)) s =
    .next (((s.advanceTo s.pollDue).pollBegun.takePage b).polled) := by
  show execDoorbellPoll (.data b) s = _
  unfold execDoorbellPoll State.pollBegun State.takePage
  rw [if_neg (by simp [hr])]
  dsimp only
  rw [if_neg (by simp [hb])]

/-- A ring that is enabled and runs, with a tail that it may take. -/
def Ring.Takes (r : Ring) (tail : Nat) : Prop :=
  r.enable = true ∧ r.halted = false ∧ count32 r.fetched r.count ≤ count32 tail r.count ∧ count32 tail r.count ≤ r.size

theorem State.takeTail_takes {page : List Byte} {n : Nat} (h : (s.sq n).Takes (field page (4 * n) 4)) :
    s.takeTail page n = s.updSq n fun r => { r with other := field page (4 * n) 4 } := by
  obtain ⟨he, hh, h1, h2⟩ := h
  unfold State.takeTail
  dsimp only
  rw [if_neg (by simp [he]), if_neg (by simp [hh]), if_pos (by simp [h1, h2])]

/-- A page's tails taken in any order of the rings: a valid one is stored (R315). -/
theorem State.takeTails_row {page : List Byte} {n : Nat} (l : List Nat) : ∀ s : State, (s.sq n).Takes (field page (4 * n) 4) →
    (l.foldl (State.takeTail page) s).sq n = (if n ∈ l then { s.sq n with other := field page (4 * n) 4 } else s.sq n) ∧
    ∃ h lg, l.foldl (State.takeTail page) s = { s with host := h, ledger := lg } := by
  induction l with
  | nil => exact fun s _ => ⟨by simp, s.host, s.ledger, rfl⟩
  | cons m l ih =>
    intro s hs
    rw [List.foldl_cons]
    by_cases hm : n = m
    · subst hm
      have hstep := State.takeTail_takes hs
      have hn : (s.takeTail page n).sq n = { s.sq n with other := field page (4 * n) 4 } := by
        rw [hstep, State.updSq_sq, if_pos rfl]
      obtain ⟨h1, h, lg, h2⟩ := ih (s.takeTail page n) (by rw [hn]; exact hs)
      refine ⟨?_, h, lg, by rw [h2, hstep]; rfl⟩
      rw [h1, hn, if_pos List.mem_cons_self]
      split <;> rfl
    · obtain ⟨hn, h0, l0, hf⟩ := State.takeTail_keepsSq (s := s) n page hm
      obtain ⟨h1, h, lg, h2⟩ := ih (s.takeTail page m) (by rw [hn]; exact hs)
      refine ⟨?_, h, lg, by rw [h2, hf]⟩
      rw [h1, hn]
      simp only [List.mem_cons, hm, false_or]

theorem State.takePage_row {page : List Byte} {n : Nat} (hn : n < 256) (h : (s.sq n).Takes (field page (4 * n) 4)) :
    (s.takePage page).sq n = { s.sq n with other := field page (4 * n) 4 } ∧ ∃ h l, s.takePage page = { s with host := h, ledger := l } := by
  obtain ⟨h1, hx, lx, h2⟩ := State.takeTails_row (List.range 256) s h
  rw [if_pos (List.mem_range.2 hn)] at h1
  obtain ⟨h3, hy, ly, h4⟩ := (State.foldl_keepsSq n (State.takeCqHead page) (fun s a => State.takeCqHead_keepsSq n page a) (List.range 256)
    ((List.range 256).foldl (State.takeTail page) s)).trans
    (State.foldl_keepsSq n (State.takeHvHead page) (fun s a => State.takeHvHead_keepsSq n page a) (List.range 64) _)
  exact ⟨h3.trans h1, hy, ly, by rw [State.takePage, h4, h2]⟩

theorem State.pollTaken_row {page : List Byte} {n : Nat} (hn : n < 256) (h : (s.sq n).Takes (field page (4 * n) 4)) :
    ∃ t, (s.pollBegun.takePage page).polled = t ∧ t.sq n = { s.sq n with other := field page (4 * n) 4 } ∧
      t.mem = s.mem ∧ t.tiles = s.tiles ∧ t.graphs = s.graphs := by
  obtain ⟨cq, m, p, hb⟩ := State.pollBegun_frame (s := s)
  have hsq : s.pollBegun.sq n = s.sq n := by rw [hb]; rfl
  obtain ⟨h1, hx, lx, h2⟩ := State.takePage_row (s := s.pollBegun) (page := page) hn (hsq.symm ▸ h)
  rw [hsq] at h1
  obtain ⟨p1, p2, p3, p4⟩ := State.polled_keeps (s := s.pollBegun.takePage page) n
  exact ⟨_, rfl, p1.trans h1, p2.trans (by rw [h2, hb]), p3.trans (by rw [h2, hb]), p4.trans (by rw [h2, hb])⟩

/-! ### Fetching (R322 to R327) -/

theorem State.descriptorFetch_row {entries n : Nat} (he : entries < 256) (hr : s.ringsRun = true) (hb : s.shutdown.busy = false)
    (hd : s.shutdown.done = false)
    (hf : ((List.range 256).map fun i => (s.host.lastRing + 1 + i) % 256).find? (s.canFetch entries) = some n) :
    ∃ t, exec (.descriptorFetch entries) s = .next t ∧ t.host.fetches = s.host.fetches ++ [⟨n, (s.sq n).fetched, entries⟩] ∧
      (t.cq (s.sq n).cq).reserved = (s.cq (s.sq n).cq).reserved + 1 ∧
      (t.sq n).fetched = ((s.sq n).fetched + (s.sq n).takesUp entries) % 2 ^ 32 ∧ t.host.lastRing = n ∧ t = { s with host := t.host } := by
  have hx : exec (.descriptorFetch entries) s = .next (
      let s2 := (s.updSq n fun r => { r with fetched := (r.fetched + r.takesUp entries) % 2 ^ 32 }).updCq (s.sq n).cq fun c =>
        { c with reserved := c.reserved + 1 }
      { s2 with host := { s2.host with
        fetches := s2.host.fetches ++ [⟨n, (s.sq n).fetched, entries⟩], lastRing := n, lastFetch := some s.cairn } }) := by
    show execDescriptorFetch entries s = _
    rw [execDescriptorFetch, onUnit, if_pos (by simpa using he), if_neg (by simp [hr, hb, hd]), hf]
  refine ⟨_, hx, rfl, ?_, ?_, rfl, rfl⟩
  · refine (congrArg Ring.reserved (State.updCq_cq (s := s.updSq n fun r => { r with fetched := (r.fetched + r.takesUp entries) % 2 ^ 32 })
      (s.sq n).cq (s.sq n).cq fun c => { c with reserved := c.reserved + 1 })).trans ?_
    rw [if_pos rfl]
    rfl
  · refine (congrArg Ring.fetched (State.updSq_sq (s := s) n n fun r => { r with fetched := (r.fetched + r.takesUp entries) % 2 ^ 32 })).trans ?_
    rw [if_pos rfl]

/-- A record written counts on its ring, whether or not DMA is up (R330). -/
theorem State.writeRec_count (q : Nat) (r : Rec) : ((s.writeRec q r).cq q).count = ((s.cq q).count + 1) % 2 ^ 32 ∧
    ∃ cq m p, s.writeRec q r = { s with host := { s.host with cq := cq, mem := m, poison := p } } := by
  unfold State.writeRec
  dsimp only
  obtain ⟨m, p, h⟩ := State.hostWrite_frame (s := s) ((s.cq q).base + 32 * ((s.cq q).count % (s.cq q).size))
    (recBytes r (1 - (s.cq q).count / (s.cq q).size % 2) (s.cq q).lost (bits s.cairn 10 32))
  rw [h, State.updCq_cq, if_pos rfl]
  exact ⟨rfl, _, _, _, rfl⟩

/-- A completion written counts one record on the ring of its submission ring. -/
theorem State.writeCompletion_row (ring opc ck st dt res head : Nat) :
    ((s.writeCompletion ring opc ck st dt res head).cq (s.sq ring).cq).count = ((s.cq (s.sq ring).cq).count + 1) % 2 ^ 32 ∧
    ∃ cq m p, s.writeCompletion ring opc ck st dt res head = { s with host := { s.host with cq := cq, mem := m, poison := p } } := by
  obtain ⟨hc, cq, m, p, h⟩ := State.writeRec_count (s := s.updCq (s.sq ring).cq fun c => { c with reserved := c.reserved - 1 })
    (s.sq ring).cq ⟨0, st, dt, opc, ring, ck, head, res⟩
  rw [State.updCq_cq, if_pos rfl] at hc
  exact ⟨hc, cq, m, p, h⟩

theorem fetch_ring {ring : Nat} {fs : List Fetch} {f : Fetch} (h : fs.find? (·.ring == ring) = some f) : f.ring = ring := by
  have := List.find?_some h
  simpa using this

theorem State.hostReadCompletion_failed {ring : Nat} {f : Fetch} (hr : ring < 256) (hf : s.host.fetches.find? (·.ring == ring) = some f)
    (e : AerError) (bs : List Byte) : exec (.hostReadCompletion ring (.failed e bs)) s =
      .next ((State.noteAer e { s with host := { s.host with fetches := s.host.fetches.erase f } }).fetchFailed f) := by
  show execHostReadCompletion ring (.failed e bs) s = _
  rw [execHostReadCompletion, onUnit, if_pos (by simpa using hr), hf]

/-- A failed read halts its ring, and its record is written (R326). -/
theorem State.fetchFailed_row (f : Fetch) : ∃ t, s.fetchFailed f = t ∧ t.host.pcie = s.host.pcie ∧ (t.sq f.ring).halted = true ∧
    (t.sq f.ring).fetched = f.at_ ∧ t.host.fetches = s.host.fetches ∧ t.host.descs = s.host.descs ∧
    (t.cq (s.sq f.ring).cq).count = ((s.cq (s.sq f.ring).cq).count + 1) % 2 ^ 32 ∧ t = { s with host := t.host } := by
  have hsq : (s.updSq f.ring fun r => { r with fetched := f.at_, halted := true }).sq f.ring =
      { s.sq f.ring with fetched := f.at_, halted := true } := by rw [State.updSq_sq, if_pos rfl]
  obtain ⟨hc, cq, m, p, h⟩ := State.writeCompletion_row (s := s.updSq f.ring fun r => { r with fetched := f.at_, halted := true })
    f.ring 0 0 stBad hostReadFailed 0 f.at_
  rw [hsq] at hc
  refine ⟨_, rfl, ?_⟩
  unfold State.fetchFailed
  rw [h] at hc ⊢
  exact ⟨rfl, congrArg Ring.halted hsq, congrArg Ring.fetched hsq, rfl, rfl, hc, rfl⟩

theorem State.updSq_count (s : State) (n c : Nat) : ((s.updSq n fun r => { r with count := c }).sq n).count = c := by
  rw [State.updSq_sq, if_pos rfl]

theorem Ring.toEnd_pos (r : Ring) (at_ : Nat) : 1 ≤ r.toEnd at_ := by
  have : at_ % r.size < r.size := Nat.mod_lt _ (by unfold Ring.size; exact Nat.two_pow_pos _)
  unfold Ring.toEnd
  omega

theorem State.hostReadCompletion_good {ring : Nat} {f : Fetch} {b : List Byte} (hr : ring < 256)
    (hf : s.host.fetches.find? (·.ring == ring) = some f) (he : f.entries = 1) (hl : b.length = 64) (h1 : field b 1 1 = 1)
    (h0 : field b 0 1 ≠ 1) (ho : field b 0 1 ∈ opcodesOf332) : exec (.hostReadCompletion ring (.data b)) s =
      .next (State.keepDesc f.ring f.at_ ((f.at_ + 1) % 2 ^ 32) b
        (State.updSq { s with host := { s.host with fetches := s.host.fetches.erase f } } f.ring fun r => { r with count := (f.at_ + 1) % 2 ^ 32 })) := by
  have hcov : coveredEntries f.entries = 1 := by rw [he]; rfl
  have hpast : (s.sq f.ring).runsPast f.at_ f.entries = false := by
    have := (s.sq f.ring).toEnd_pos f.at_
    rw [Ring.runsPast, he]
    simp
    omega
  have hfits : s.fetchFits f b = true := by
    have := (s.sq f.ring).toEnd_pos f.at_
    unfold State.fetchFits
    dsimp only
    rw [hcov, hpast, hl, h1, he]
    simp [h0]
    omega
  have htake : State.takeEntries f b { s with host := { s.host with fetches := s.host.fetches.erase f } } =
      State.keepDesc f.ring f.at_ ((f.at_ + 1) % 2 ^ 32) b
        (State.updSq { s with host := { s.host with fetches := s.host.fetches.erase f } } f.ring fun r =>
          { r with count := (f.at_ + 1) % 2 ^ 32 }) := by
    have hpast' : ((State.sq { s with host := { s.host with fetches := s.host.fetches.erase f } } f.ring).runsPast f.at_ f.entries) = false := hpast
    unfold State.takeEntries
    dsimp only
    rw [hcov, if_neg (by simp [h0]), if_neg (by rw [hpast']; simp [h0]), if_neg (by simp [ho])]
  show execHostReadCompletion ring (.data b) s = _
  rw [execHostReadCompletion, onUnit, if_pos (by simpa using hr), hf]
  dsimp only
  rw [if_pos hfits, htake]

/-! ### The heartbeat (R318, R320) -/

theorem State.heartbeatWrite_exec (hb : s.beats = true) : ∃ n, n = s.host.lastBeat + 10000000 ∧
    exec .heartbeatWrite s = .next (s.advanceTo n).writeStatus := by
  refine ⟨_, rfl, ?_⟩
  show execHeartbeatWrite s = _
  rw [execHeartbeatWrite, if_pos hb]

theorem State.beats_base (hb : s.beats = true) : s.host.dbBase ≠ 0 := by
  unfold State.beats at hb
  simp only [Bool.and_eq_true, bne_iff_ne] at hb
  exact hb.1.1.2

theorem State.writeStatus_row (h : s.host.dbBase ≠ 0) : ∃ t, s.writeStatus = t ∧ t.host.hbCount = (s.host.hbCount + 1) % 2 ^ 64 ∧
    t.cairn = s.cairn ∧ t.host.lastBeat = s.cairn ∧ t = { s with host := t.host } := by
  have hr : ∀ (v : State) (a : Nat) (bs : List Byte), ∃ m, v.hostRaw a bs = { v with host := { v.host with mem := m } } := fun v a bs => by
    unfold State.hostRaw
    split
    · exact ⟨_, rfl⟩
    · exact ⟨v.host.mem, rfl⟩
  unfold State.writeStatus
  rw [if_neg h]
  dsimp only
  generalize State.statusBlock _ = bs
  obtain ⟨m, hm⟩ := hr { s with host := { s.host with hbCount := (s.host.hbCount + 1) % 2 ^ 64, lastBeat := s.cairn } }
    (s.host.dbBase + 0xF00) bs
  exact ⟨_, hm, rfl, rfl, rfl, rfl⟩

/-! ### MSI-X (R308, R310) -/

/-- The table's entry written, before what is pending is sent. -/
def State.msixWritten (s : State) (v : Nat) (mask : Bool) (e : Option (Nat × Nat)) : State := { s with host := { s.host with
  unmasked := Tab.put false v (!mask) s.host.unmasked
  msix := e.elim s.host.msix fun e => Tab.put (0, 0) v (e.1 % 2 ^ 64, e.2 % 2 ^ 32) s.host.msix } }

theorem State.msixUnmask_exec {v : Nat} (mask : Bool) (e : Option (Nat × Nat)) (hv : v < 2048) :
    exec (.msixUnmask v mask e) s = .next (s.msixWritten v mask e).sendPending := by
  show execMsixUnmask v s mask e = _
  rw [execMsixUnmask, onUnit, if_pos (by simpa using hv)]
  rfl

/-- The pending vectors that a written entry lets go. -/
def State.freed (s : State) (v : Nat) (mask : Bool) : List Nat :=
  s.host.pendingVec.filter fun w => Tab.get false (Tab.put false v (!mask) s.host.unmasked) w

theorem State.sendPending_stopped (h : s.dma = false) : s.sendPending = s := by
  rw [State.sendPending, if_pos (by simp [h])]

theorem State.sendPending_sends (h : s.dma = true) {vs : List Nat} (hv : vs = s.host.pendingVec.filter fun v => Tab.get false s.host.unmasked v) :
    s.sendPending = { s with host := { s.host with
      pendingVec := s.host.pendingVec.filter (!vs.contains ·), messages := s.host.messages ++ vs } } := by
  rw [State.sendPending, if_neg (by simp [h]), hv]

theorem State.freed_none {v : Nat} {mask : Bool} (h : v ∉ s.host.pendingVec ∨ mask = true)
    (hm : ∀ w ∈ s.host.pendingVec, Tab.get false s.host.unmasked w = false) : s.freed v mask = [] := by
  unfold State.freed
  rw [List.filter_eq_nil_iff]
  intro w hw
  rw [Tab.get_put]
  split
  · next heq =>
    subst heq
    simp [h.resolve_left (not_not_intro hw)]
  · simp [hm w hw]

theorem State.freed_one {v : Nat} (h : v ∈ s.host.pendingVec) (hn : s.host.pendingVec.Nodup)
    (hm : ∀ w ∈ s.host.pendingVec, Tab.get false s.host.unmasked w = false) : s.freed v false = [v] := by
  have hf : s.freed v false = s.host.pendingVec.filter (· == v) := by
    unfold State.freed
    refine List.filter_congr fun w hw => ?_
    rw [Tab.get_put]
    split
    · next heq => simp [heq]
    · next hne => simp [hm w hw, hne]
  rw [hf, List.filter_beq, List.count_eq_one_of_mem hn h]
  rfl

theorem State.msixUnmask_row {v : Nat} (mask : Bool) (e : Option (Nat × Nat)) :
    ∃ t, (s.msixWritten v mask e).sendPending = t ∧ Tab.get false t.host.unmasked v = !mask ∧
      (∀ a d, e = some (a, d) → Tab.get (0, 0) t.host.msix v = (a % 2 ^ 64, d % 2 ^ 32)) ∧
      (s.dma = false → t.host.messages = s.host.messages ∧ t.host.pendingVec = s.host.pendingVec) ∧
      (s.dma = true → t.host.messages = s.host.messages ++ s.freed v mask ∧
        t.host.pendingVec = s.host.pendingVec.filter (!(s.freed v mask).contains ·)) ∧
      t = { s with host := t.host } := by
  have hun : Tab.get false (s.msixWritten v mask e).host.unmasked v = !mask := Tab.get_put_same ..
  have hms : ∀ a d, e = some (a, d) → Tab.get (0, 0) (s.msixWritten v mask e).host.msix v = (a % 2 ^ 64, d % 2 ^ 32) := by
    rintro a d rfl
    exact Tab.get_put_same ..
  cases hd : s.dma with
  | false => exact ⟨_, State.sendPending_stopped (s := s.msixWritten v mask e) hd, hun, hms, fun _ => ⟨rfl, rfl⟩, nofun, rfl⟩
  | true =>
    exact ⟨_, State.sendPending_sends (s := s.msixWritten v mask e) (vs := s.freed v mask) hd rfl, hun, hms, nofun, fun _ => ⟨rfl, rfl⟩, rfl⟩

/-! ### Configuration requests (R307, R427) -/

section config
variable (hw : s.hotSwap.switchOn = true) (hl : s.host.linkUp = true) (hs : s.seq ≠ .start 1)
include hw hl hs

theorem State.configRequest_exec (f : ConfigField) (v : Option Nat) : exec (.pcieConfigRequest f v) s =
    .next (if s.host.retry then { s with rd := 1 } else { s with rd := 0, host := { s.host with pcie := match v with
      | none => { s.host.pcie with answer := s.configRead f }
      | some n => s.host.pcie.write f n } }) := by
  show execPcieConfigRequest s f v = _
  unfold execPcieConfigRequest
  refine congrArg _ ((if_neg ?up).trans ?_)
  case up => simp [hw, hl, hs]
  cases v with
  | none => rfl
  | some n => rfl

end config

theorem Pcie.write_payload {n : Nat} (p : Pcie) (h : n = 128 ∨ n = 256 ∨ n = 512) : (p.write .maxPayload n).payload = n := by
  have hok : sizeOk 512 n = true := by
    obtain rfl | rfl | rfl := h
    · rfl
    · rfl
    · rfl
  rw [Pcie.write, if_pos hok]

/-- Settles O23: each row is one change of the host side, read off its definition. -/
theorem ringRows : Obligations.RingRows := by
  refine fun s => ⟨fun hr e bs => ?_, fun page n hr hp hn he hh h1 h2 => ?_, fun entries n he hr hb hd hf => State.descriptorFetch_row he hr hb hd hf,
    fun ring f hr hf e bs => ?_, fun ring f b hr hf he hl h1 h0 ho => ?_, fun d x hx ho => ?_, fun hb => ?_, fun v mask e hv => ?_,
    fun f v hw hl hs => ⟨fun hr => ?_, fun hr hv => ?_, fun n hr hv => ?_⟩⟩
  · obtain ⟨t, ht, h1, h2, h3, h4, h5, h6⟩ := State.pollFailed_row (s := s.advanceTo s.pollDue) e
    exact ⟨t, (State.doorbellPoll_failed_exec hr e bs).trans (congrArg _ ht), h1, h2, h3, h4, h5, by rw [h6]; rfl⟩
  · obtain ⟨t, ht, h⟩ := State.pollTaken_row (s := s.advanceTo s.pollDue) (page := page) (n := n) hn ⟨he, hh, h1, h2⟩
    exact ⟨t, (State.doorbellPoll_data_exec hr hp).trans (congrArg _ ht), h⟩
  · obtain ⟨t, ht, h1, h2, h3, h4, h5, h6, h7⟩ := State.fetchFailed_row
      (s := State.noteAer e { s with host := { s.host with fetches := s.host.fetches.erase f } }) f
    refine ⟨t, (State.hostReadCompletion_failed hr hf e bs).trans (congrArg _ ht), ?_, h2, h3, h4, h5, h6, by rw [h7]; rfl⟩
    rw [h1]
    exact State.mem_noteAer e
  · exact ⟨_, State.hostReadCompletion_good hr hf he hl h1 h0 ho, rfl, rfl, State.updSq_count s f.ring _,
      rfl, rfl⟩
  · refine ⟨(s.updSq x.ring fun r => { r with count := x.next }).dropDesc d, ?_, ?_, ?_, rfl, rfl, rfl⟩
    · show execSkip d s = _
      rw [execSkip, hx]
      dsimp only
      rw [if_neg (not_not_intro ho)]
    · exact State.updSq_count s x.ring x.next
    · show (s.host.descs.filter (·.tag != d)).find? (·.tag == d) = none
      rw [List.find?_filter, List.find?_eq_none]
      intro e _
      simp
  · obtain ⟨n, hn, hx⟩ := State.heartbeatWrite_exec hb
    obtain ⟨t, ht, h1, h2, h3, h4⟩ := State.writeStatus_row (s := s.advanceTo n) (State.beats_base hb)
    rw [← hn]
    exact ⟨t, hx.trans (congrArg _ ht), h1, h2, h3.trans h2.symm, by rw [h4]; rfl⟩
  · obtain ⟨t, ht, h1, h2, h3, h4, h5⟩ := State.msixUnmask_row (s := s) (v := v) mask e
    refine ⟨t, (State.msixUnmask_exec mask e hv).trans (congrArg _ ht), h1, h2, h3, fun hd hv hm => ?_, fun hd hmask hv hn hm => ?_, h5⟩
    · obtain ⟨h6, h7⟩ := h4 hd
      rw [State.freed_none hv hm] at h6 h7
      exact ⟨h6.trans (List.append_nil _), h7.trans (by simp)⟩
    · obtain ⟨h6, h7⟩ := h4 hd
      rw [hmask, State.freed_one hv hn hm] at h6 h7
      refine ⟨h6, h7.trans (List.filter_congr fun w _ => ?_)⟩
      simp
  · rw [State.configRequest_exec hw hl hs, if_pos hr]
  · rw [State.configRequest_exec hw hl hs, if_neg (by simp [hr]), hv]
  · refine ⟨{ s with rd := 0, host := { s.host with pcie := s.host.pcie.write f n } }, ?_, rfl, ?_, ?_, ?_, rfl⟩
    · rw [State.configRequest_exec hw hl hs, if_neg (by simp [hr]), hv]
    · rintro rfl h
      exact Pcie.write_payload s.host.pcie h
    · rintro rfl
      rfl
    · rintro rfl
      rfl

end Sys2Proof.Machine
end

section
/-! PROOF. Connections at both sides, and requests served for another module (R293 to R298, R302, R123). -/

namespace Sys2Proof.Machine

variable {s s1 t u : State} {k p : Packet} {kind n : Nat}

/-! ### The packet a row takes -/

/-- What `pickFirst` leaves is the list without the element it took. -/
theorem pickFirst_erase {α : Type} [DecidableEq α] {f : α → Bool} {xs r : List α} {x : α} (h : pickFirst f xs = some (x, r)) :
    r = xs.erase x := by
  induction xs generalizing r with
  | nil => simp [pickFirst] at h
  | cons y ys ih =>
    unfold pickFirst at h
    split at h
    · simp only [Option.some.injEq, Prod.mk.injEq] at h
      obtain ⟨rfl, rfl⟩ := h
      rw [List.erase_cons_head]
    · next hy =>
      obtain ⟨⟨z, w⟩, hz, he⟩ := Option.map_eq_some_iff.1 h
      simp only [Prod.mk.injEq] at he
      obtain ⟨rfl, rfl⟩ := he
      obtain ⟨hf, -, -⟩ := pickFirst_some hz
      rw [List.erase_cons_tail (by rintro h; exact hy (by rwa [eq_of_beq h])), ← ih hz]

theorem State.takeEject_erase (h : s.takeEject kind = some (k, s1)) :
    k.kind = kind ∧ k ∈ s.fabric.eject ∧ s1 = { s with fabric := { s.fabric with eject := s.fabric.eject.erase k } } := by
  obtain ⟨⟨x, r⟩, hx, he⟩ := Option.map_eq_some_iff.1 h
  simp only [Prod.mk.injEq] at he
  obtain ⟨rfl, rfl⟩ := he
  obtain ⟨h1, h2, -⟩ := pickFirst_some hx
  exact ⟨by simpa using h1, h2, by rw [pickFirst_erase hx]⟩

/-- The state left by a taken packet: the same module with one ejected packet less. -/
theorem State.takeEject_left (h : s.takeEject kind = some (k, s1)) : ∃ es, s1 = { s with fabric := { s.fabric with eject := es } } :=
  ⟨_, (State.takeEject_erase h).2.2⟩

/-- A row acts on the packet that it takes. -/
theorem State.onPacket_taken {act : Packet → State → State} (h : s.takeEject kind = some (k, s1)) :
    s.onPacket kind act = .next (act k s1) := State.onPacket_next.2 (.inr ⟨_, h, rfl⟩)

/-! ### A packet put out -/

/-- A packet as the module stamps it (R280, R290). -/
def State.stamped (s : State) (p : Packet) : Packet := withCrc { p with
  src := s.fabric.id, epoch := s.fabric.active.epoch, stamp := bits s.cairn 14 16, dateline := false, hops := 0 }

theorem State.inject_eq (h : s.fzLocked = true) :
    s.inject p = { s with fabric := { s.fabric with inject := s.fabric.inject ++ [s.stamped p] } } := if_pos h

/-- Putting a packet out changes the packets put out alone. -/
theorem State.inject_frame : ∃ ps, s.inject p = { s with fabric := { s.fabric with inject := ps } } := by
  unfold State.inject
  split
  · exact ⟨_, rfl⟩
  · exact ⟨_, rfl⟩

/-! ### The receiving side -/

theorem seqBelow_self (a : Nat) : seqBelow a a = false := by
  have h : (a + 2 ^ 32 - a % 2 ^ 32) % 2 ^ 32 = 0 := by norm_num; omega
  unfold seqBelow
  dsimp only
  rw [h]
  rfl

/-- A request whose `low` the connection has already leaves that (R295). -/
theorem RecvConn.advance_eq {c : RecvConn} {low : Nat} (now : Nat) (hl : low = c.low) :
    c.advance low now = { c with record := c.record.filter fun e => !seqBelow e.1 c.low, lastUse := now } := by
  subst hl
  rw [RecvConn.advance, if_neg (by rw [seqBelow_self]; decide)]

/-- It leaves its record as well, where nothing in it lies below. -/
theorem RecvConn.advance_same {c : RecvConn} {low : Nat} (now : Nat) (hl : low = c.low) (hr : ∀ e ∈ c.record, seqBelow e.1 low = false) :
    c.advance low now = { c with lastUse := now } := by
  have hf : c.record.filter (fun e => !seqBelow e.1 c.low) = c.record :=
    List.filter_eq_self.2 fun e he => by rw [← hl, hr e he]; rfl
  rw [RecvConn.advance_eq now hl, hf]

/-- A request of a connection that is not held is answered `STALE_CONN` (R297). -/
theorem State.onRequest_stale {serve : Packet → State → State} (h : (s.recv k.dstConn).owns k = false) :
    s.onRequest serve k = s.inject (answerTo k 0x26 []) := by
  rw [State.onRequest, h]
  exact if_pos rfl

/-- A request of a connection that is held, at or above its `low`, is served. -/
theorem State.onRequest_served {serve : Packet → State → State} (h : (s.recv k.dstConn).owns k = true)
    (hl : k.low = (s.recv k.dstConn).low) (hb : seqBelow k.seq k.low = false) :
    s.onRequest serve k = serve k (s.updRecv k.dstConn fun c => c.advance k.low s.cairn) := by
  have hs : ((s.updRecv k.dstConn fun c => c.advance k.low s.cairn).recv k.dstConn).low = k.low := by
    rw [State.updRecv_recv, if_pos rfl, RecvConn.advance_eq _ hl, hl]
  rw [State.onRequest, h, if_neg (by decide)]
  dsimp only
  rw [hs, hb, if_neg (by decide)]

/-- A repeated write takes the recorded status (R295). -/
theorem State.serveWrite_repeat {dead : Bool} {st : Nat} (hm : s.memUp = true)
    (hr : (s.recv k.dstConn).record.find? (fun e => e.1 == k.seq) = some (k.seq, st)) :
    s.serveWrite dead k = s.inject { answerTo k 0x12 [] with status := st } := by
  rw [State.serveWrite, hm]
  dsimp only
  rw [if_neg (by decide), hr]

/-- A repeated write of a connection that is held (R295). -/
theorem State.onRequest_repeat {dead : Bool} {st : Nat} (hm : s.memUp = true) (h : (s.recv k.dstConn).owns k = true)
    (hl : k.low = (s.recv k.dstConn).low) (hb : seqBelow k.seq k.low = false)
    (hr : (s.recv k.dstConn).record.find? (fun e => e.1 == k.seq) = some (k.seq, st))
    (hrec : ∀ e ∈ (s.recv k.dstConn).record, seqBelow e.1 k.low = false) : s.onRequest (State.serveWrite dead) k =
      (s.updRecv k.dstConn fun c => c.advance k.low s.cairn).inject { answerTo k 0x12 [] with status := st } := by
  rw [State.onRequest_served h hl hb]
  refine State.serveWrite_repeat hm ?_
  rwa [State.updRecv_recv, if_pos rfl, RecvConn.advance_same _ hl hrec]

/-- A write that the connection has not seen is applied, answered with its status and recorded with it (R294, R295). -/
theorem State.serveWrite_new {dead : Bool} (hm : s.memUp = true) (hr : ∀ e ∈ (s.recv k.dstConn).record, e.1 ≠ k.seq)
    (hw : (s.applyWrite dead k).2 ≠ stWait) : s.serveWrite dead k =
      ((s.applyWrite dead k).1.updRecv k.dstConn fun c => { c with record := c.record ++ [(k.seq, (s.applyWrite dead k).2)] }).inject
        { answerTo k 0x12 [] with status := (s.applyWrite dead k).2 } := by
  have hf : (s.recv k.dstConn).record.find? (fun e => e.1 == k.seq) = none :=
    List.find?_eq_none.2 fun e he h => hr e he (by simpa using h)
  rw [State.serveWrite, hm]
  dsimp only
  rw [if_neg (by decide), hf]
  exact if_neg hw

/-- With memory out of reach a read brings nothing (R306). -/
theorem State.serveRead_down {dead : Bool} (hm : s.memUp = false) : s.serveRead dead k =
    s.inject { answerTo k 0x11 [] with addr := k.addr, status := stUnreachable, poison := false } := by
  rw [State.serveRead, hm]
  rfl

theorem State.onRequest_readDown {dead : Bool} (hm : s.memUp = false) (h : (s.recv k.dstConn).owns k = true)
    (hl : k.low = (s.recv k.dstConn).low) (hb : seqBelow k.seq k.low = false) : s.onRequest (State.serveRead dead) k =
      (s.updRecv k.dstConn fun c => c.advance k.low s.cairn).inject
        { answerTo k 0x11 [] with addr := k.addr, status := stUnreachable, poison := false } :=
  (State.onRequest_served h hl hb).trans (State.serveRead_down hm)

/-- What putting a packet out leaves: the packet, stamped, behind the others. -/
theorem State.inject_row (h : s.fzLocked = true) : ∃ t a, s.inject p = t ∧ t.fabric.inject = s.fabric.inject ++ [a] ∧
    (a.kind = p.kind ∧ a.dst = p.dst ∧ a.dstConn = p.dstConn ∧ a.srcConn = p.srcConn ∧ a.connGen = p.connGen ∧ a.seq = p.seq ∧
      a.status = p.status ∧ a.payload = p.payload) ∧ t = { s with fabric := { s.fabric with inject := t.fabric.inject } } :=
  ⟨_, _, State.inject_eq h, rfl, ⟨rfl, rfl, rfl, rfl, rfl, rfl, rfl, rfl⟩, rfl⟩

/-! ### The receiving rows -/

/-- `OPEN` of a source without a slot (R293). -/
theorem State.openConn_row (h : s.takeEject 0x21 = some (k, s1)) (hf : (s1.fabric.recv.find? fun e => e.2.owns k) = none)
    (hn : (List.range connSlots).find? (fun n => !(s1.recv n).inUse) = some n) : exec .openConn s =
      .next ((s1.updRecv n fun _ => ⟨k.src, k.srcConn, k.connGen, 0, [], s1.cairn, true⟩).inject
        { answerTo k 0x22 [] with dstConn := n }) := by
  have hslot : s1.recvSlot k = some n := by
    unfold State.recvSlot
    rw [hf]
    exact hn
  have hfree : (s1.recv n).owns k = false := by
    have := List.find?_some hn
    rw [Bool.not_eq_true'] at this
    rw [RecvConn.owns, this]
    rfl
  show execOpenConn s = _
  rw [execOpenConn, State.onPacket_taken h]
  dsimp only
  rw [hslot]
  dsimp only
  rw [if_neg (by rw [hfree]; decide)]

/-- `CLOSE` (R297). -/
theorem State.closeConn_row (h : s.takeEject 0x24 = some (k, s1)) : exec .closeConn s =
    .next (if (s1.recv k.dstConn).owns k then s1.updRecv k.dstConn fun _ => .reset else s1.inject (answerTo k 0x26 [])) := by
  show execCloseConn s = _
  rw [execCloseConn, State.onPacket_taken h]

theorem State.readReq_row {dead : Bool} (h : s.takeEject 0x01 = some (k, s1)) :
    exec (.readReq dead) s = .next (s1.onRequest (State.serveRead dead) k) := State.onPacket_taken h

theorem State.write_row {dead : Bool} (h : s.takeEject 0x02 = some (k, s1)) :
    exec (.write dead) s = .next (s1.onRequest (State.serveWrite dead) k) := State.onPacket_taken h

/-- Each request of a connection that is not held, and its `CLOSE`, is answered `STALE_CONN` (R297). -/
theorem State.stale_row {c : Instr} (hc : c = Instr.closeConn ∧ kind = 0x24 ∨ (∃ dead, c = .readReq dead) ∧ kind = 0x01 ∨
    (∃ dead, c = .write dead) ∧ kind = 0x02) (h : s.takeEject kind = some (k, s1)) (ho : (s1.recv k.dstConn).owns k = false) :
    exec c s = .next (s1.inject (answerTo k 0x26 [])) := by
  obtain ⟨rfl, rfl⟩ | ⟨⟨dead, rfl⟩, rfl⟩ | ⟨⟨dead, rfl⟩, rfl⟩ := hc
  · rw [State.closeConn_row h, if_neg (by rw [ho]; decide)]
  · rw [State.readReq_row h, State.onRequest_stale ho]
  · rw [State.write_row h, State.onRequest_stale ho]

/-- Settles O31: each row is one action on the packet that it takes. -/
theorem receivedConnectionPackets : Obligations.ReceivedConnectionPackets := by
  refine fun s s1 k => ⟨fun kind h => State.takeEject_erase h, fun n h hf hn hl => ?_, fun h ho => ?_, fun c kind hc h ho hl => ?_,
    fun st dead hm h ho hlow hb hr hrec hl => ?_, fun dead h ho hlow hb hl hm => ?_⟩
  · have hx := State.openConn_row h hf hn
    obtain ⟨es, rfl⟩ := State.takeEject_left h
    obtain ⟨t, a, ht, ha, ⟨h1, h2, h3, h4, h5, -, -, -⟩, hrow⟩ := State.inject_row (p := { answerTo k 0x22 [] with dstConn := n })
      (s := State.updRecv { s with fabric := { s.fabric with eject := es } } n fun _ => ⟨k.src, k.srcConn, k.connGen, 0, [], s.cairn, true⟩) hl
    have hr (m : Nat) : t.recv m = if m = n then ⟨k.src, k.srcConn, k.connGen, 0, [], s.cairn, true⟩ else s.recv m := by
      rw [hrow]
      exact Tab.get_upd (d := RecvConn.reset) (f := fun _ => ⟨k.src, k.srcConn, k.connGen, 0, [], s.cairn, true⟩)
    exact ⟨t, a, hx.trans (congrArg _ ht), (hr n).trans (if_pos rfl), fun m hm => (hr m).trans (if_neg hm), ha, h1, h2, h3, h4, h5,
      by rw [hrow]; rfl⟩
  · have hx := State.closeConn_row h
    rw [if_pos ho] at hx
    obtain ⟨es, rfl⟩ := State.takeEject_left h
    exact ⟨_, hx, (State.updRecv_recv _).trans (if_pos rfl), fun m hm => (State.updRecv_recv _).trans (if_neg hm), rfl⟩
  · have hx := State.stale_row hc h ho
    obtain ⟨es, rfl⟩ := State.takeEject_left h
    obtain ⟨t, a, ht, ha, ⟨h1, h2, -, -, h5, -, -, -⟩, hrow⟩ := State.inject_row (p := answerTo k 0x26 [])
      (s := { s with fabric := { s.fabric with eject := es } }) hl
    exact ⟨t, a, hx.trans (congrArg _ ht), ha, h1, h2, h5, by rw [hrow], by rw [hrow]⟩
  · have hx := State.write_row (dead := dead) h
    obtain ⟨es, rfl⟩ := State.takeEject_left h
    rw [State.onRequest_repeat (s := { s with fabric := { s.fabric with eject := es } }) hm ho hlow hb hr hrec] at hx
    obtain ⟨t, a, ht, ha, ⟨h1, -, -, -, -, h6, h7, -⟩, hrow⟩ := State.inject_row (p := { answerTo k 0x12 [] with status := st })
      (s := State.updRecv { s with fabric := { s.fabric with eject := es } } k.dstConn fun c => c.advance k.low s.cairn) hl
    exact ⟨t, a, hx.trans (congrArg _ ht), ha, h1, h7, h6, by rw [hrow]; rfl⟩
  · have hx := State.readReq_row (dead := dead) h
    obtain ⟨es, rfl⟩ := State.takeEject_left h
    rw [State.onRequest_readDown (s := { s with fabric := { s.fabric with eject := es } }) hm ho hlow hb] at hx
    obtain ⟨t, a, ht, ha, ⟨h1, -, -, -, -, h6, h7, h8⟩, hrow⟩ := State.inject_row
      (p := { answerTo k 0x11 [] with addr := k.addr, status := stUnreachable, poison := false })
      (s := State.updRecv { s with fabric := { s.fabric with eject := es } } k.dstConn fun c => c.advance k.low s.cairn) hl
    exact ⟨t, a, hx.trans (congrArg _ ht), ha, h1, h7, h6, h8, by rw [hrow]; rfl⟩

/-! ### Requests served -/

theorem State.windowCheck_ne_wait : s.windowCheck k ≠ stWait := by
  unfold State.windowCheck
  dsimp only
  split
  · decide
  · split
    · decide
    · decide

/-- A write to HBM outside an open window is refused (R302). -/
theorem State.applyWrite_refused {dead : Bool} {off : Nat} (hl : s.locate k.addr = .hbm off) (hw : s.windowCheck k ≠ stOk) :
    s.applyWrite dead k = (s, s.windowCheck k) := by
  rw [State.applyWrite, hl]
  exact if_pos hw

/-- One inside an open window is a write of memory. -/
theorem State.applyWrite_hbm {off : Nat} (hl : s.locate k.addr = .hbm off) (hw : s.windowCheck k = stOk) :
    s.applyWrite false k = s.write k.addr k.payload k.poison := by
  rw [State.applyWrite, hl]
  exact (if_neg (not_not_intro hw)).trans (if_neg (by simp [State.noResponse]))

/-- One to the CXL tier that draws no response ends unreachable (R229). -/
theorem State.applyWrite_silent (hc : s.onCxl k.addr = true) (hw : s.windowCheck k = stOk) :
    s.applyWrite true k = (s, stUnreachable) := by
  have hn : s.noResponse true k = true := hc
  unfold State.onCxl at hc
  split at hc
  · next off hl =>
    rw [State.applyWrite, hl]
    exact (if_neg (not_not_intro hw)).trans (if_pos hn)
  · next off hl =>
    rw [State.applyWrite, hl]
    exact (if_neg (not_not_intro hw)).trans (if_pos hn)
  · exact absurd hc (by decide)

/-! ### A write that begins in HBM -/

theorem State.store_fabric (sp off : Nat) (bs : List Byte) (p : Bool) : (s.store sp off bs p).fabric = s.fabric := by
  have hs (u : State) (sp : Nat) (m : Memory) : (u.setSpace sp m).fabric = u.fabric := by unfold State.setSpace; split <;> rfl
  have hp (u : State) (l : Nat) (on : Bool) : (u.setPoison sp l on).fabric = u.fabric := hs _ _ _
  have hm (u : State) : (u.markLines sp off bs.length p).fabric = u.fabric := by
    unfold State.markLines
    extract_lets l whole v
    have hv : v.fabric = u.fabric := by
      unfold v
      split <;> rfl
    rw [← hv]
    split
    · exact hp _ _ _
    · split
      · exact hp _ _ _
      · rfl
  rw [State.store, hm]
  exact hs _ _ _

theorem State.writeCxl_row (off : Nat) (bs : List Byte) (p : Bool) :
    (s.writeCxl off bs p).1.fabric = s.fabric ∧ (s.writeCxl off bs p).2 ≠ stWait := by
  unfold State.writeCxl
  split
  · exact ⟨State.store_fabric .., show stOk ≠ stWait by decide⟩
  · exact ⟨rfl, show stUnreachable ≠ stWait by decide⟩

/-- An address of the space of HBM. -/
def State.inHbm (s : State) (a : Nat) : Prop := bits a 44 14 = s.fabric.id ∧ bits a 58 2 = 0

theorem State.inHbm_of_locate {a off : Nat} (h : s.locate a = .hbm off) : s.inHbm a := by
  unfold State.locate at h
  dsimp only at h
  split at h
  · cases h
  · next hid =>
    split at h
    · next hsp =>
      split at h
      · next hlt => exact ⟨not_not.1 hid, hsp⟩
      · cases h
    · split at h
      · split at h <;> cases h
      · split at h
        · split at h <;> cases h
        · cases h

/-- The next unit of a run that lies in HBM lies in it as well, or the space has ended. -/
theorem State.inHbm_next {a n : Nat} (h : s.inHbm a) (hlt : a % 2 ^ 44 < hbmBytes) :
    s.inHbm (a + min n (64 - a % 64)) := by
  obtain ⟨hid, hsp⟩ := h
  have hb : hbmBytes = 64 * 6442450944 := rfl
  have hq : (a + min n (64 - a % 64)) / 2 ^ 44 = a / 2 ^ 44 := by norm_num at hlt ⊢; omega
  rw [bits_eq] at hid hsp
  refine ⟨?_, ?_⟩
  · rw [bits_eq, hq, hid]
  · rw [bits_eq, show (2 : Nat) ^ 58 = 2 ^ 44 * 2 ^ 14 from rfl, ← Nat.div_div_eq_div_mul, hq, Nat.div_div_eq_div_mul]
    exact hsp

/-- A write of a unit of HBM is not one that waits, and the fabric stays (R123). -/
theorem State.writeUnit_hbm {a : Nat} {bs : List Byte} {p : Bool} (h : s.inHbm a) :
    (s.writeUnit a bs p).1.fabric = s.fabric ∧ (s.writeUnit a bs p).2 ≠ stWait ∧
      ((s.writeUnit a bs p).2 = stOk → a % 2 ^ 44 < hbmBytes) := by
  obtain ⟨hid, hsp⟩ := h
  have hl : s.locate a = if a % 2 ^ 44 < hbmBytes then .hbm (a % 2 ^ 44) else .fault := by
    rw [State.locate, if_neg (not_not_intro hid)]
    exact if_pos hsp
  unfold State.writeUnit
  rw [hl]
  by_cases hlt : a % 2 ^ 44 < hbmBytes
  · rw [if_pos hlt]
    dsimp only
    split
    · exact ⟨State.store_fabric .., show stOk ≠ stWait by decide, fun _ => hlt⟩
    · exact ⟨(State.writeCxl_row ..).1, (State.writeCxl_row ..).2, fun _ => hlt⟩
    · exact ⟨rfl, show stPoisoned ≠ stWait by decide, fun _ => hlt⟩
  · rw [if_neg hlt]
    exact ⟨rfl, show stNotPermitted ≠ stWait by decide, fun h => absurd h (show stNotPermitted ≠ stOk by decide)⟩

theorem State.writeRun_hbm {n a : Nat} {bs : List Byte} {p : Bool} (h : s.inHbm a) :
    (State.writeRun n a bs p s).1.fabric = s.fabric ∧ (State.writeRun n a bs p s).2 ≠ stWait := by
  induction n generalizing a bs s with
  | zero => exact ⟨rfl, show stOk ≠ stWait by decide⟩
  | succ n ih =>
    obtain ⟨hf, hw, hlt⟩ := State.writeUnit_hbm (bs := bs.take (min bs.length (64 - a % 64))) (p := p) h
    unfold State.writeRun
    dsimp only
    split
    · exact ⟨rfl, show stOk ≠ stWait by decide⟩
    · split
      · exact ⟨hf, hw⟩
      · next hok =>
        have h' := State.inHbm_next (n := bs.length) h (hlt (not_not.1 hok))
        obtain ⟨h1, h2⟩ := ih (s := (s.writeUnit a (bs.take (min bs.length (64 - a % 64))) p).1) (bs := bs.drop (min bs.length (64 - a % 64)))
          (by rw [State.inHbm, hf]; exact h')
        exact ⟨h1.trans hf, h2⟩

theorem State.write_hbm {a off : Nat} {bs : List Byte} {p : Bool} (h : s.locate a = .hbm off) :
    (s.write a bs p).1.fabric = s.fabric ∧ (s.write a bs p).2 ≠ stWait := State.writeRun_hbm (State.inHbm_of_locate h)

/-! ### Wear -/

/-- What reports, scores and fences change: never the sending and receiving sides, memory's bytes, copies, registers or the firmware. -/
def State.Worn (s t : State) : Prop := ∃ dv ts gs pl h pw ev df hs mg dr sl rg ss sd ps, t = { s with
  devState := dv, tiles := ts, graphs := gs, planes := pl, host := h, power := pw, hotSwap := hs, mgmt := mg, draws := dr
  ledger := { s.ledger with events := ev, defects := df }
  mem := { s.mem with slices := sl, ranges := rg, slots := ss, stagingDone := sd }
  fabric := { s.fabric with ports := ps } }

namespace State.Worn

theorem refl (s : State) : s.Worn s := ⟨_, _, _, _, _, _, _, _, _, _, _, _, _, _, _, _, rfl⟩

theorem trans (h : s.Worn t) (h' : t.Worn u) : s.Worn u := by
  obtain ⟨_, _, _, _, _, _, _, _, _, _, _, _, _, _, _, _, rfl⟩ := h
  obtain ⟨_, _, _, _, _, _, _, _, _, _, _, _, _, _, _, _, rfl⟩ := h'
  exact ⟨_, _, _, _, _, _, _, _, _, _, _, _, _, _, _, _, rfl⟩

theorem ite {c : Prop} [Decidable c] (ht : s.Worn t) (hu : s.Worn u) : s.Worn (if c then t else u) := by
  split
  · exact ht
  · exact hu

theorem foldl {α : Type} {f : State → α → State} {l : List α} (h : s.Worn u) (hf : ∀ t a, s.Worn t → s.Worn (f t a)) :
    s.Worn (l.foldl f u) := List.foldlRecOn (motive := fun t : State => s.Worn t) l f h fun t ht a _ => hf t a ht

theorem frame (h : s.Worn t) : t = { s with
    devState := t.devState, tiles := t.tiles, graphs := t.graphs, planes := t.planes, host := t.host, power := t.power
    hotSwap := t.hotSwap, mgmt := t.mgmt, draws := t.draws
    ledger := { s.ledger with events := t.ledger.events, defects := t.ledger.defects }
    mem := { s.mem with slices := t.mem.slices, ranges := t.mem.ranges, slots := t.mem.slots, stagingDone := t.mem.stagingDone }
    fabric := { s.fabric with ports := t.fabric.ports } } := by
  obtain ⟨_, _, _, _, _, _, _, _, _, _, _, _, _, _, _, _, rfl⟩ := h
  rfl

theorem raise (h : s.Worn u) {c x y z : Nat} : s.Worn (u.raise c x y z) := by
  obtain ⟨_, hr⟩ := State.raise_only (s := u) c x y z
  rw [hr]
  exact h.trans ⟨_, _, _, _, _, _, _, _, _, _, _, _, _, _, _, _, rfl⟩

theorem raiseAll (h : s.Worn u) {es : List Event} : s.Worn (State.raiseAll es u) := h.foldl fun _ _ ht => ht.raise

theorem noteSaturated (h : s.Worn u) {old new : Counter} {a b c : Nat} : s.Worn (u.noteSaturated old new a b c) := by
  unfold State.noteSaturated
  exact .ite h.raise h

theorem draw (h : s.Worn u) : s.Worn u.draw := h.trans ⟨_, _, _, _, _, _, _, _, _, _, _, _, _, _, _, _, rfl⟩

theorem setTile (h : s.Worn u) {i : Nat} {x : Tile} : s.Worn (u.setTile i x) :=
  h.trans ⟨_, _, _, _, _, _, _, _, _, _, _, _, _, _, _, _, rfl⟩

theorem updTile (h : s.Worn u) {i : Nat} {f : Tile → Tile} : s.Worn (u.updTile i f) := h.setTile

theorem setGraph (h : s.Worn u) {g : Nat} {x : Option Graph} : s.Worn (u.setGraph g x) :=
  h.trans ⟨_, _, _, _, _, _, _, _, _, _, _, _, _, _, _, _, rfl⟩

theorem updGraph (h : s.Worn u) {g : Nat} {f : Graph → Graph} : s.Worn (u.updGraph g f) := by
  unfold State.updGraph
  split
  · exact h
  · exact h.setGraph

theorem updSlice (h : s.Worn u) {n : Nat} {f : Slice → Slice} : s.Worn (u.updSlice n f) :=
  h.trans ⟨_, _, _, _, _, _, _, _, _, _, _, _, _, _, _, _, rfl⟩

theorem takeSlot (h : s.Worn u) {n k : Nat} : s.Worn (u.takeSlot n k) :=
  h.trans ⟨_, _, _, _, _, _, _, _, _, _, _, _, _, _, _, _, rfl⟩

theorem updPort (h : s.Worn u) {n : Nat} {f : FzPort → FzPort} : s.Worn (u.updPort n f) :=
  h.trans ⟨_, _, _, _, _, _, _, _, _, _, _, _, _, _, _, _, rfl⟩

theorem updPhase (h : s.Worn u) {n : Nat} {f : Phase → Phase} : s.Worn (u.updPhase n f) :=
  h.trans ⟨_, _, _, _, _, _, _, _, _, _, _, _, _, _, _, _, rfl⟩

theorem setScore (h : s.Worn u) {k : PartKind} {id n p : Nat} : s.Worn (u.setScore k id n p) := by
  refine h.trans ?_
  cases k <;> exact ⟨_, _, _, _, _, _, _, _, _, _, _, _, _, _, _, _, rfl⟩

theorem addDefect (h : s.Worn u) {k src id c : Nat} : s.Worn (u.addDefect k src id c) := by
  unfold State.addDefect
  exact .ite h (h.trans ⟨_, _, _, _, _, _, _, _, _, _, _, _, _, _, _, _, rfl⟩)

theorem dropWords (h : s.Worn u) {i : Nat} : s.Worn (u.dropWords i) :=
  h.trans ⟨_, _, _, _, _, _, _, _, _, _, _, _, _, _, _, _, rfl⟩

theorem onlyTiles {T : Nat → Prop} (h : s.Worn u) (h' : u.OnlyTiles T t) : s.Worn t := by
  rw [h'.frame]
  exact h.trans ⟨_, _, _, _, _, _, _, _, _, _, _, _, _, _, _, _, rfl⟩

theorem onlyStagings (h : s.Worn u) (h' : u.OnlyStagings t) : s.Worn t := h.onlyTiles (h'.onlyTiles (T := fun _ => True))

theorem abandon (h : s.Worn u) {g c : Nat} {rm rp : List Nat} : s.Worn (u.abandon g c rm rp) := by
  obtain ⟨_, _, _, ha⟩ := State.abandon_frame (s := u) g c rm rp
  rw [ha]
  exact h.trans ⟨_, _, _, _, _, _, _, _, _, _, _, _, _, _, _, _, rfl⟩

theorem setDev (h : s.Worn u) {d : DevState} : s.Worn (u.setDev d) := by
  obtain ⟨_, _, hd⟩ := State.setDev_frame (s := u) d
  rw [hd]
  exact h.trans ⟨_, _, _, _, _, _, _, _, _, _, _, _, _, _, _, _, rfl⟩

theorem checkDegraded (h : s.Worn u) : s.Worn u.checkDegraded := .ite h.setDev.raise h

theorem fencedDark (h : s.Worn u) {i : Nat} : s.Worn (u.fencedDark i) :=
  ((h.onlyTiles (State.completeStaging_onlyTiles (T := fun _ => True) i 0x32 _)).dropWords.setTile.onlyStagings
    (State.unstage_unstage_onlyStagings i)).onlyTiles (State.quiet_onlyTiles i)

theorem fenceGraph (h : s.Worn u) {i : Nat} {use : TileUse} {o : Option (Nat × Nat)} : s.Worn (u.fenceGraph i use o) := by
  unfold State.fenceGraph
  split
  · exact h
  · exact .ite h.abandon.updGraph h.abandon.updGraph

/-- A tile FENCED (R375). -/
theorem fenceTile (h : s.Worn u) {i : Nat} : s.Worn (u.fenceTile i) := by
  cases hf : (u.tile i).fenced
  · rw [State.fenceTile_eq hf]
    exact h.fencedDark.fenceGraph.checkDegraded
  · rw [State.fenceTile_of_fenced hf]
    exact h

theorem fenceAt (h : s.Worn u) {i n c : Nat} : s.Worn (u.fenceAt i n c) := .ite h h.setScore.raise.addDefect.fenceTile

theorem settleScore (h : s.Worn u) {k : PartKind} {id old n c : Nat} : s.Worn (u.settleScore k id old n c) :=
  .ite h.setScore (.ite h.setScore.raise.addDefect h.setScore.raise)

theorem retireSlice (h : s.Worn u) {n : Nat} : s.Worn (u.retireSlice n) := by
  unfold State.retireSlice
  split
  · split
    · exact h.updSlice.takeSlot.raise
    · exact h.raise
  · exact h

theorem disablePort (h : s.Worn u) {p : Nat} : s.Worn (u.disablePort p) := .ite h.updPort h.updPort.updPort.raise

theorem capTile (h : s.Worn u) {i : Nat} : s.Worn (u.capTile i) := .ite h h.updTile.raise

theorem tilePhaseFailed (h : s.Worn u) {i p r : Nat} : s.Worn (u.tilePhaseFailed i p r) :=
  .ite h.raise.capTile (.ite h.raise.updTile.fenceAt h.raise)

/-- What FENCED does to a part (R374). -/
theorem fencePart (h : s.Worn u) {k : PartKind} {id : Nat} : s.Worn (u.fencePart k id) := by
  unfold State.fencePart
  split
  · exact h.fenceTile
  · exact h.fenceTile
  · exact h.foldl fun _ _ ht => ht.fenceTile
  · exact h
  · exact h.retireSlice
  · exact h.raise
  · exact h.disablePort.raise
  · exact h.updPhase.tilePhaseFailed

theorem blame (h : s.Worn u) {k : PartKind} {id w c : Nat} : s.Worn (u.blame k id w c) := by
  unfold State.blame State.settle
  exact .ite h.settleScore.fencePart h.settleScore

/-! ### Reads of memory -/

theorem countSlice (h : s.Worn u) {n i : Nat} : s.Worn (u.countSlice n i) := h.updSlice.noteSaturated

theorem noteLine (h : s.Worn u) {off : Nat} : s.Worn (u.noteLine off) := by
  unfold State.noteLine
  refine .ite h (.ite h.countSlice ?_)
  split
  · exact .ite h.draw h
  · exact h.countSlice.blame
  · exact h.countSlice.raise.blame
  · exact h.draw

theorem noteRun (h : s.Worn u) {n a k : Nat} : s.Worn (State.noteRun n a k u) := by
  induction n generalizing a k u with
  | zero => exact h
  | succ n ih =>
    unfold State.noteRun
    refine .ite h (ih ?_)
    split
    · exact h.noteLine
    · exact h

theorem renewStaged (h : s.Worn u) {a : Nat} : s.Worn (u.renewStaged a) := by
  unfold State.renewStaged
  split
  · split
    · exact h.updTile
    · exact h
  · exact h

/-- A read counts and renews, and changes no byte (R224, R123). -/
theorem readNoting (h : s.Worn u) {a n : Nat} : s.Worn (u.readNoting a n).2 := h.noteRun.renewStaged

end State.Worn

/-! ### Requests served -/

/-- A write of a connection that is held and that it has not seen (R294, R295). -/
theorem State.onRequest_new {dead : Bool} {r : State × Nat} (hm : s.memUp = true) (h : (s.recv k.dstConn).owns k = true)
    (hl : k.low = (s.recv k.dstConn).low) (hb : seqBelow k.seq k.low = false)
    (hrec : ∀ e ∈ (s.recv k.dstConn).record, seqBelow e.1 k.low = false) (hr : ∀ e ∈ (s.recv k.dstConn).record, e.1 ≠ k.seq)
    (ha : (s.updRecv k.dstConn fun c => c.advance k.low s.cairn).applyWrite dead k = r) (hw : r.2 ≠ stWait) :
    s.onRequest (State.serveWrite dead) k =
      (r.1.updRecv k.dstConn fun c => { c with record := c.record ++ [(k.seq, r.2)] }).inject { answerTo k 0x12 [] with status := r.2 } := by
  subst ha
  rw [State.onRequest_served h hl hb]
  refine State.serveWrite_new hm ?_ hw
  rwa [State.updRecv_recv, if_pos rfl, RecvConn.advance_same _ hl hrec]

/-- A read of a connection that is held (R294). -/
theorem State.serveRead_up (hm : s.memUp = true) : s.serveRead false k = (s.readNoting k.addr k.length).2.inject
    { answerTo k 0x11 (if (s.readNoting k.addr k.length).1.status = stOk then (s.readNoting k.addr k.length).1.bytes else []) with
      addr := k.addr, status := (s.readNoting k.addr k.length).1.status
      poison := (s.readNoting k.addr k.length).1.poison && (s.readNoting k.addr k.length).1.status == stOk } := by
  rw [State.serveRead, hm]
  rfl

theorem State.serveRead_row (hm : s.memUp = true) (hl : s.fzLocked = true) : ∃ t a, s.serveRead false k = t ∧ a ∈ t.fabric.inject ∧
    a.kind = 0x11 ∧ a.seq = k.seq ∧ a.dst = k.src ∧ a.status = (s.readNoting k.addr k.length).1.status ∧
    ((s.readNoting k.addr k.length).1.status = stOk → a.payload = (s.readNoting k.addr k.length).1.bytes) ∧
    t.mem = (s.readNoting k.addr k.length).2.mem := by
  have hlock : (s.readNoting k.addr k.length).2.fzLocked = true := by
    rw [((State.Worn.refl s).readNoting (a := k.addr) (n := k.length)).frame]
    exact hl
  obtain ⟨t, a, ht, ha, ⟨h1, h2, -, -, -, h6, h7, h8⟩, hrow⟩ := State.inject_row hlock
  refine ⟨t, a, (State.serveRead_up hm).trans ht, by rw [ha]; simp, h1, h6, h2, h7, fun hok => h8.trans (if_pos hok), by rw [hrow]⟩

/-- A write of a held connection that it has not seen: its status is answered and recorded, and the rest is that of the write. -/
theorem State.writeServed_row {dead : Bool} {r : State × Nat} (h : s.takeEject 0x02 = some (k, s1)) (hlock : s1.fzLocked = true)
    (hm : s1.memUp = true) (ho : (s1.recv k.dstConn).owns k = true)
    (hl : k.low = (s1.recv k.dstConn).low) (hb : seqBelow k.seq k.low = false)
    (hrec : ∀ e ∈ (s1.recv k.dstConn).record, seqBelow e.1 k.low = false) (hr : ∀ e ∈ (s1.recv k.dstConn).record, e.1 ≠ k.seq)
    (ha : (s1.updRecv k.dstConn fun c => c.advance k.low s1.cairn).applyWrite dead k = r)
    (hf : r.1.fabric = (s1.updRecv k.dstConn fun c => c.advance k.low s1.cairn).fabric) (hw : r.2 ≠ stWait) :
    ∃ t a, exec (.write dead) s = .next t ∧ t.fabric.inject = s1.fabric.inject ++ [a] ∧ a.kind = 0x12 ∧ a.status = r.2 ∧ a.seq = k.seq ∧
      (t.recv k.dstConn).record = (s1.recv k.dstConn).record ++ [(k.seq, r.2)] ∧ t = { r.1 with fabric := t.fabric } := by
  have hx := (State.write_row (dead := dead) h).trans (congrArg _ (State.onRequest_new hm ho hl hb hrec hr ha hw))
  have hu : r.1.recv k.dstConn = { s1.recv k.dstConn with lastUse := s1.cairn } := by
    rw [State.recv, hf]
    refine (State.updRecv_recv (s := s1) (n := k.dstConn) (m := k.dstConn) fun c => c.advance k.low s1.cairn).trans ?_
    rw [if_pos rfl, RecvConn.advance_same _ hl hrec]
  obtain ⟨t, a, ht, ha, ⟨h1, -, -, -, -, h6, h7, -⟩, hrow⟩ := State.inject_row (p := { answerTo k 0x12 [] with status := r.2 })
    (s := r.1.updRecv k.dstConn fun c => { c with record := c.record ++ [(k.seq, r.2)] })
    (by rw [State.fzLocked]; exact (congrArg (fun f : Fabric => f.lock != TimeLock.unlocked) hf).trans hlock)
  have hrecv : t.recv k.dstConn = (r.1.updRecv k.dstConn fun c => { c with record := c.record ++ [(k.seq, r.2)] }).recv k.dstConn := by
    rw [hrow]; rfl
  refine ⟨t, a, hx.trans (congrArg _ ht), ha.trans ?_, h1, h7, h6, ?_, by rw [hrow]; rfl⟩
  · show r.1.fabric.inject ++ [a] = _
    rw [hf]
    rfl
  · rw [hrecv, State.updRecv_recv, if_pos rfl, hu]

/-- Settles O32: what a served request answers, and what it leaves of memory. -/
theorem servedRemoteRequests : Obligations.ServedRemoteRequests := by
  intro s s1 k hlock hm ho hl hb hrec
  have up {n : Nat} (h : s.takeEject n = some (k, s1)) : s1.memUp = true ∧ s1.fzLocked = true := by
    obtain ⟨es, rfl⟩ := State.takeEject_left h
    exact ⟨hm, hlock⟩
  refine ⟨fun h => ⟨fun off dead hloc hr hw => ?_, fun off hloc hr hw => ?_, fun hc hr hw => ?_⟩, fun h => ?_⟩
  · obtain ⟨t, a, hx, ha, h1, h2, h3, h4, h5⟩ := State.writeServed_row (dead := dead) h (up h).2 (up h).1 ho hl hb hrec hr
      (r := (_, s.windowCheck k)) (by obtain ⟨es, rfl⟩ := State.takeEject_left h; exact State.applyWrite_refused (off := off) hloc hw) rfl
      State.windowCheck_ne_wait
    obtain ⟨es, rfl⟩ := State.takeEject_left h
    exact ⟨t, a, hx, ha, h1, h2, h3, h4, h5⟩
  · have hloc' : (s1.updRecv k.dstConn fun c => c.advance k.low s1.cairn).locate k.addr = .hbm off := by
      obtain ⟨es, rfl⟩ := State.takeEject_left h
      exact hloc
    obtain ⟨hf, hwait⟩ := State.write_hbm (bs := k.payload) (p := k.poison) hloc'
    obtain ⟨t, a, hx, ha, h1, h2, h3, h4, h5⟩ := State.writeServed_row (dead := false) h (up h).2 (up h).1 ho hl hb hrec hr
      (State.applyWrite_hbm hloc' (by obtain ⟨es, rfl⟩ := State.takeEject_left h; exact hw)) hf hwait
    exact ⟨t, a, _, hx, by rw [ha]; simp, h1, h3, rfl, h2, by rw [h5], by rw [h5]⟩
  · obtain ⟨t, a, hx, ha, h1, h2, h3, h4, h5⟩ := State.writeServed_row (dead := true) h (up h).2 (up h).1 ho hl hb hrec hr
      (r := (_, stUnreachable)) (by obtain ⟨es, rfl⟩ := State.takeEject_left h; exact State.applyWrite_silent hc hw) rfl
      (show stUnreachable ≠ stWait by decide)
    obtain ⟨es, rfl⟩ := State.takeEject_left h
    exact ⟨t, a, hx, by rw [ha]; simp, h1, h3, h2, h5⟩
  · have hx := (State.readReq_row (dead := false) h).trans (congrArg _ (State.onRequest_served ho hl hb))
    obtain ⟨t, a, ht, ha, h1, h2, h3, h4, h5, h6⟩ := State.serveRead_row
      (s := s1.updRecv k.dstConn fun c => c.advance k.low s1.cairn) (k := k) (up h).1 (up h).2
    exact ⟨t, a, _, hx.trans (congrArg _ ht), ha, h1, h2, h3, rfl, h4, h5, h6⟩

end Sys2Proof.Machine
end

section
/-! PROOF. The sending side of connections, and where answers land (R48, R293 to R297). -/

namespace Sys2Proof.Machine

variable {s s1 t u : State} {k p : Packet} {kind n : Nat}

/-! ### Pieces that land -/

theorem Tile.flight_id {x : Tile} {id : Nat} {f : Firing} (h : x.flight id = some f) : f.id = id := by
  simpa using List.find?_some h

/-- A firing put in place of the one of its number. -/
theorem Tile.setFlight_same {x : Tile} {id : Nat} {f g : Firing} (h : x.flight id = some f) (hg : g.id = id) :
    (x.setFlight g).flight id = some g := by
  subst hg
  exact Tile.setFlight_flight x g (by rw [h]; rfl)

theorem Firing.noteStatus_fields (f : Firing) (st a : Nat) : (f.noteStatus st a).id = f.id ∧ (f.noteStatus st a).pieces = f.pieces ∧
    (f.noteStatus st a).index = f.index := by
  unfold Firing.noteStatus
  split
  · exact ⟨rfl, rfl, rfl⟩
  · exact ⟨rfl, rfl, rfl⟩

theorem State.tile_raise (c x y z i : Nat) : (s.raise c x y z).tile i = s.tile i := by
  rw [State.tile, State.raise_tiles]
  rfl

/-- An address list taken changes the firing's pieces only behind those it has, and no word of the Tarn (R141). -/
theorem State.takeList_tile {i id : Nat} {f : Firing} (h : (s.tile i).flight id = some f) : ∃ g,
    ((s.takeList i id).tile i).flight id = some g ∧ (∀ (j : Nat) (p : Piece), f.pieces[j]? = some p → g.pieces[j]? = some p) ∧
      ((s.takeList i id).tile i).tarn = (s.tile i).tarn := by
  unfold State.takeList
  dsimp only
  split
  · next f' g _ hf _ =>
    obtain rfl : f' = f := by rw [h] at hf; exact (Option.some.inj hf).symm
    split
    · exact ⟨f', h, fun _ _ hj => hj, rfl⟩
    · split
      · simp only [State.tile_raise, State.updTile_tile, if_pos]
        exact ⟨_, Tile.setFlight_same h (show f'.id = id from Tile.flight_id h), fun _ _ hj => hj, rfl⟩
      · rw [State.updTile_tile, if_pos rfl]
        refine ⟨_, Tile.setFlight_same h (show f'.id = id from Tile.flight_id h), fun j p hj => ?_, rfl⟩
        exact (List.getElem?_append_left (List.getElem?_eq_some_iff.1 hj).1).trans hj
  · exact ⟨f, h, fun _ _ hj => hj, rfl⟩

/-- The words that a run written beside a tile's firings leaves (R23). -/
theorem Tile.writeBeside_tarn (x : Tile) (a : Nat) (ws : List Word) (p : Bool) {j : Nat} {w : Word} (h : ws[j]? = some w) :
    Tab.get .zero (x.writeBeside a ws p).tarn (a + j) = ⟨w, 0, p⟩ := by
  obtain ⟨hj, hw⟩ := List.getElem?_eq_some_iff.1 h
  refine (Tab.get_putAll (by simpa using hj)).trans ?_
  rw [List.getElem_map, hw]

/-- The tile at which a served piece has landed, before what that leads to. -/
def Tile.landed (x : Tile) (f : Firing) (i : Nat) (p : Piece) (data : List Byte) (poison : Bool) (status : Nat) : Tile :=
  let f1 := (f.setPiece i (p.land data)).noteStatus status p.addr
  let x1 := x.setFlight (if poison then { f1 with poison := true } else f1)
  if p.kind == PieceKind.read && status == stOk then x1.writeBeside p.tarn (bytesToWords data) poison else x1

theorem State.landPiece_eq {i id j : Nat} {f : Firing} {p : Piece} {data : List Byte} {poison : Bool} {status : Nat}
    (hf : (s.tile i).flight id = some f) (hp : f.pieces[j]? = some p) (hs : p.state = .served data poison status) :
    s.landPiece i id j = ((s.setTile i ((s.tile i).landed f j p data poison status)).checkWeights i id j).takeList i id := by
  unfold State.landPiece
  dsimp only
  rw [hf]
  dsimp only
  rw [hp]
  dsimp only
  rw [hs]
  rfl

theorem Tile.landed_flight {x : Tile} {id j : Nat} {f : Firing} {p : Piece} {data : List Byte} {poison : Bool} {status : Nat}
    (hf : x.flight id = some f) (hp : f.pieces[j]? = some p) : ∃ g, (x.landed f j p data poison status).flight id = some g ∧
      g.index = f.index ∧ g.pieces[j]? = some (p.land data) := by
  obtain ⟨h1, h2, h3⟩ := Firing.noteStatus_fields (f.setPiece j (p.land data)) status p.addr
  have hj : (f.setPiece j (p.land data)).pieces[j]? = some (p.land data) := by
    show (f.pieces.set j (p.land data))[j]? = _
    rw [List.getElem?_set_self (List.getElem?_eq_some_iff.1 hp).1]
  have hb (y : Tile) (a : Nat) (ws : List Word) (b : Bool) : (y.writeBeside a ws b).flight id = y.flight id := rfl
  refine ⟨if poison then { (f.setPiece j (p.land data)).noteStatus status p.addr with poison := true }
    else (f.setPiece j (p.land data)).noteStatus status p.addr, ?_, ?_, ?_⟩
  · unfold Tile.landed
    dsimp only
    have hg : (if poison then { (f.setPiece j (p.land data)).noteStatus status p.addr with poison := true }
        else (f.setPiece j (p.land data)).noteStatus status p.addr).id = id := by
      split <;> exact h1.trans (show f.id = id from Tile.flight_id hf)
    split
    · rw [hb]; exact Tile.setFlight_same hf hg
    · exact Tile.setFlight_same hf hg
  · split <;> exact h3
  · split <;> exact (congrArg (·[j]?) h2).trans hj

theorem Tile.landed_op {x : Tile} {j m : Nat} {f : Firing} {p : Piece} {data : List Byte} {poison : Bool} {status : Nat} :
    (x.landed f j p data poison status).op m = x.op m := by
  unfold Tile.landed
  dsimp only
  split <;> rfl

/-- What a served piece of an operation other than `WLOAD` leaves at its tile (R48). -/
theorem State.landPiece_landed {i id j : Nat} {f : Firing} {p : Piece} {data : List Byte} {poison : Bool} {status : Nat}
    (hf : (s.tile i).flight id = some f) (hp : f.pieces[j]? = some p) (hs : p.state = .served data poison status)
    (ho : opCode ((s.tile i).op f.index) ≠ 0x58) : ∃ g, ((s.landPiece i id j).tile i).flight id = some g ∧
      g.pieces[j]? = some (p.land data) ∧ (p.kind = .read → status = stOk → ∀ (m : Nat) (w : Word), (bytesToWords data)[m]? = some w →
        Tab.get .zero ((s.landPiece i id j).tile i).tarn (p.tarn + m) = ⟨w, 0, poison⟩) := by
  rw [State.landPiece_eq hf hp hs]
  obtain ⟨g, hg, hgi, hgp⟩ := Tile.landed_flight (data := data) (poison := poison) (status := status) hf hp
  generalize hx : (s.tile i).landed f j p data poison status = x at hg ⊢
  have hxo : x.op g.index = (s.tile i).op f.index := by rw [← hx, Tile.landed_op, hgi]
  have hw : (s.setTile i x).checkWeights i id j = s.setTile i x := by
    unfold State.checkWeights
    rw [State.setTile_tile, if_pos rfl, hg]
    dsimp only
    rw [hgp]
    dsimp only
    rw [hxo, if_pos (by simp [ho])]
  rw [hw]
  obtain ⟨g', hg', hpieces, htarn⟩ := State.takeList_tile (s := s.setTile i x) (i := i) (id := id) (f := g)
    (by rw [State.setTile_tile, if_pos rfl]; exact hg)
  refine ⟨g', hg', hpieces _ _ hgp, fun hk hst m w hmw => ?_⟩
  rw [htarn, State.setTile_tile, if_pos rfl, ← hx, Tile.landed, if_pos (by simp [hk, hst])]
  exact Tile.writeBeside_tarn _ _ _ _ hmw

/-! ### What a landing changes besides -/

theorem State.Worn.checkBlock (h : s.Worn u) {i id j : Nat} : s.Worn (u.checkBlock i id j) := by
  unfold State.checkBlock
  dsimp only
  split
  · exact h
  · exact .ite h (.ite h.updTile.blame h.updTile.noteSaturated.blame)

theorem State.Worn.checkWeights (h : s.Worn u) {i id j : Nat} : s.Worn (u.checkWeights i id j) := by
  unfold State.checkWeights
  split
  · exact h
  · split
    · exact h
    · exact .ite h (h.foldl fun _ _ ht => ht.checkBlock)

theorem State.Worn.takeList (h : s.Worn u) {i id : Nat} : s.Worn (u.takeList i id) := by
  unfold State.takeList
  dsimp only
  split
  · refine .ite h ?_
    split
    · exact h.updTile.raise
    · exact h.updTile
  · exact h

theorem State.Worn.landPiece (h : s.Worn u) {i id j : Nat} : s.Worn (u.landPiece i id j) := by
  unfold State.landPiece
  dsimp only
  split
  · exact h
  · split
    · exact h
    · split
      · exact h.setTile.checkWeights.takeList
      · exact h

theorem State.Worn.setPiece (h : s.Worn u) {i id j : Nat} {st : PieceState} : s.Worn (u.setPiece i id j st) := by
  unfold State.setPiece
  split
  · exact h
  · exact h.updTile

/-- With no copy on its way, an answer touches the tile that asked and what its wear reaches. -/
theorem State.Worn.respond (h : s.Worn u) (hc : u.mem.copies = []) {o : Outstanding} {data : List Byte} {poison : Bool} {status : Nat} :
    s.Worn (u.respond o data poison status) := by
  unfold State.respond
  refine .ite h ?_
  split
  · unfold State.copyAnswer
    rw [hc]
    exact h
  · exact .ite h.setPiece.landPiece h

theorem State.retryCopies_none (hc : s.mem.copies = []) : s.retryCopies = s := by
  unfold State.retryCopies
  rw [hc]
  rfl

/-- An answer lands at the piece that waits for it. -/
theorem State.respond_piece {o : Outstanding} {i id j : Nat} {f : Firing} {p : Piece} {data : List Byte} {poison : Bool} {status : Nat}
    (ho : o.who = .piece i id j) (ha : o.answered = false) (hf : (s.tile i).flight id = some f) (hp : f.pieces[j]? = some p)
    (hr : p.state = .remote) : s.respond o data poison status =
      (s.updTile i fun x => x.setFlight (f.setPiece j { p with state := .served data poison status })).landPiece i id j := by
  have hpiece : s.piece? i id j = some p := by
    unfold State.piece?
    rw [hf]
    exact hp
  unfold State.respond
  rw [ha, ho]
  dsimp only
  rw [if_neg (by decide), hpiece, if_pos (by simp [hr])]
  unfold State.setPiece State.putPiece
  rw [hpiece]
  dsimp only
  unfold State.updTile
  dsimp only
  rw [hf]

theorem State.respond_landed {o : Outstanding} {i id j : Nat} {f : Firing} {p : Piece} {data : List Byte} {poison : Bool} {status : Nat}
    (ho : o.who = .piece i id j) (ha : o.answered = false) (hf : (s.tile i).flight id = some f) (hp : f.pieces[j]? = some p)
    (hr : p.state = .remote) (hop : opCode ((s.tile i).op f.index) ≠ 0x58) (hk : p.kind = .read ∨ p.kind = .write) :
    (((s.respond o data poison status).tile i).flight id).bind (fun g => g.pieces[j]?.map (·.state)) = some .landed ∧
      (p.kind = .read → status = stOk → ∀ (m : Nat) (w : Word), (bytesToWords data)[m]? = some w →
        Tab.get .zero ((s.respond o data poison status).tile i).tarn (p.tarn + m) = ⟨w, 0, poison⟩) := by
  rw [State.respond_piece ho ha hf hp hr]
  generalize hu : (s.updTile i fun x => x.setFlight (f.setPiece j { p with state := .served data poison status })) = u
  have hx : u.tile i = (s.tile i).setFlight (f.setPiece j { p with state := .served data poison status }) := by
    rw [← hu, State.updTile_tile, if_pos rfl]
  obtain ⟨g, hg, hgp, hw⟩ := State.landPiece_landed (s := u) (i := i) (id := id) (j := j)
    (f := f.setPiece j { p with state := .served data poison status }) (p := { p with state := .served data poison status })
    (by rw [hx]; exact Tile.setFlight_same hf (show f.id = id from Tile.flight_id hf))
    (by show (f.pieces.set j _)[j]? = _; rw [List.getElem?_set_self (List.getElem?_eq_some_iff.1 hp).1]) rfl (by rw [hx]; exact hop)
  refine ⟨?_, hw⟩
  rw [hg, Option.bind_some, hgp]
  obtain hk | hk := hk
  · simp [Piece.land, hk]
  · simp [Piece.land, hk]

/-! ### Slots opened and closed -/

theorem State.closeSend_frame : ∃ fb, s.closeSend n = { s with fabric := fb } := by
  unfold State.closeSend
  dsimp only
  split
  · next m _ =>
    obtain ⟨_, h⟩ := State.inject_frame (p := { mkPacket 0x24 (s.send n).peer [] with srcConn := n, dstConn := m, connGen := (s.send n).gen })
      (s := { s with fabric := { s.fabric with closing := s.fabric.closing ++
        [(⟨n, { mkPacket 0x24 (s.send n).peer [] with srcConn := n, dstConn := m, connGen := (s.send n).gen }, s.cairn, 1⟩ : Closing)] } })
    rw [h]
    exact ⟨_, rfl⟩
  · exact ⟨_, rfl⟩

/-- `OPEN` sent of a slot (R293). -/
theorem State.sendOpen_row (n : Nat) : ∃ t, s.sendOpen n = t ∧
    t.send n = { s.send n with openSends := (s.send n).openSends + 1, openAt := s.cairn } ∧
    (s.fzLocked = true → ∃ a, t.fabric.inject = s.fabric.inject ++ [a] ∧ a.kind = 0x21 ∧ a.srcConn = n) ∧
    t = { s with fabric := t.fabric } := by
  refine ⟨_, rfl, ?_, fun hl => ?_, ?_⟩
  · rw [State.sendOpen, State.inject_send, State.updSend_send, if_pos rfl]
  · obtain ⟨t, a, ht, ha, ⟨h1, -, -, h4, -, -, -, -⟩, -⟩ := State.inject_row
      (p := { mkPacket 0x21 (s.send n).peer [] with srcConn := n, connGen := (s.send n).gen })
      (s := s.updSend n fun c => { c with openSends := c.openSends + 1, openAt := s.cairn }) hl
    refine ⟨a, ?_, h1, h4⟩
    rw [State.sendOpen]
    exact (congrArg (fun t : State => t.fabric.inject) ht).trans ha
  · obtain ⟨_, h⟩ := State.inject_frame (p := { mkPacket 0x21 (s.send n).peer [] with srcConn := n, connGen := (s.send n).gen })
      (s := s.updSend n fun c => { c with openSends := c.openSends + 1, openAt := s.cairn })
    rw [State.sendOpen, h]
    rfl

/-! ### Answers to the sender -/

/-- `OPEN_ACK` (R293). -/
theorem State.openAck_row (h : s.takeEject 0x22 = some (k, s1)) (ho : (s1.send k.srcConn).owns k = true)
    (hn : (s1.send k.srcConn).opened = false) (hw : (s1.send k.srcConn).waiting = []) : exec .openAck s =
      .next (s1.updSend k.srcConn fun c => { c with opened := true, busy := false, openSlot := some k.dstConn, lastUse := s1.cairn }) := by
  show execOpenAck s = _
  rw [execOpenAck, State.onPacket_taken h]
  refine congrArg _ ((if_pos (by rw [ho, hn]; rfl)).trans ?_)
  rw [State.sendWaiting, State.updSend_send, if_pos rfl]
  dsimp only
  rw [hw]
  rfl

/-- `OPEN_BUSY` (R293). -/
theorem State.openBusy_row (h : s.takeEject 0x23 = some (k, s1)) (ho : (s1.send k.srcConn).owns k = true)
    (hn : (s1.send k.srcConn).opened = false) : exec .openBusy s = .next (s1.updSend k.srcConn fun c => { c with busy := true }) := by
  show execOpenBusy s = _
  rw [execOpenBusy, State.onPacket_taken h]
  exact congrArg _ (if_pos (by rw [ho, hn]; rfl))

/-- `RECLAIM` (R293). -/
theorem State.reclaim_row (h : s.takeEject 0x25 = some (k, s1)) (ho : (s1.send k.srcConn).owns k = true)
    (hn : (s1.send k.srcConn).open_ = []) : exec .reclaim s = .next (s1.closeSend k.srcConn) := by
  show execReclaim s = _
  rw [execReclaim, State.onPacket_taken h]
  exact congrArg _ (if_pos (by rw [ho, hn]; rfl))

/-- `STALE_CONN` (R297): the slot begins anew, and its packets wait for the new connection. -/
theorem State.staleConn_row (h : s.takeEject 0x26 = some (k, s1)) (ho : (s1.send k.srcConn).owns k = true) :
    ∃ t, exec .staleConn s = .next t ∧ (t.send k.srcConn).gen = connGenNext (s1.send k.srcConn).gen ∧
      (t.send k.srcConn).opened = false ∧ (t.send k.srcConn).waiting.length = (s1.send k.srcConn).open_.length ∧
      (t.send k.srcConn).nextSeq = (s1.send k.srcConn).open_.length ∧ t.mem = s1.mem := by
  have hx : exec .staleConn s = .next (((s1.dropClosing k.srcConn k.connGen).startConn k.srcConn (s1.send k.srcConn).peer).updSend
      k.srcConn fun c => { c with
        waiting := (s1.send k.srcConn).open_.zipIdx.map fun oi => { oi.1 with packet := { oi.1.packet with seq := oi.2 }, sends := 0 }
        nextSeq := ((s1.send k.srcConn).open_.zipIdx.map fun oi : Outstanding × Nat =>
          ({ oi.1 with packet := { oi.1.packet with seq := oi.2 }, sends := 0 } : Outstanding)).length }) := by
    show execStaleConn s = _
    rw [execStaleConn, State.onPacket_taken h]
    exact congrArg _ (if_neg (by rw [show ((s1.dropClosing k.srcConn k.connGen).send k.srcConn).owns k = true from ho]; decide))
  obtain ⟨t, ht, hsend, -, hrow⟩ := State.sendOpen_row (s := (s1.dropClosing k.srcConn k.connGen).updSend k.srcConn fun c =>
    { SendConn.reset with peer := (s1.send k.srcConn).peer, gen := connGenNext c.gen, openFrom := s1.cairn, lastUse := s1.cairn, inUse := true })
    k.srcConn
  rw [State.updSend_send, if_pos rfl] at hsend
  have hs : (s1.dropClosing k.srcConn k.connGen).startConn k.srcConn (s1.send k.srcConn).peer = t := ht
  rw [hs] at hx
  refine ⟨_, hx, ?_, ?_, ?_, ?_, by rw [hrow]; rfl⟩
  · rw [State.updSend_send, if_pos rfl, hsend]
    rfl
  · rw [State.updSend_send, if_pos rfl, hsend]
    rfl
  · rw [State.updSend_send, if_pos rfl]
    simp
  · rw [State.updSend_send, if_pos rfl]
    simp

/-- The state that a response leaves, of an answer that finds its packet (R294). -/
def State.answered (s : State) (k : Packet) : State :=
  s.updSend k.srcConn fun c => { c with waiting := c.waiting.filter fun e => e.packet.seq != k.seq, lastUse := s.cairn }

theorem State.onResponse_row {o : Outstanding} (ho : (s.send k.srcConn).owns k = true)
    (hw : (s.send k.srcConn).waiting.find? (fun o => o.packet.seq == k.seq) = some o) :
    s.onResponse k = (s.answered k).respond o k.payload k.poison k.status := by
  unfold State.onResponse
  dsimp only
  rw [if_neg (by rw [ho]; decide), hw]
  rfl

theorem State.response_exec {c : Instr} (hc : c = Instr.readResp ∧ kind = 0x11 ∨ c = .writeAck ∧ kind = 0x12)
    (h : s.takeEject kind = some (k, s1)) : exec c s = .next (s1.onResponse k).retryCopies := by
  obtain ⟨rfl, rfl⟩ | ⟨rfl, rfl⟩ := hc
  · show execReadResp s = _
    rw [execReadResp, State.onPacket_taken h]
  · show execWriteAck s = _
    rw [execWriteAck, State.onPacket_taken h]

/-- A response whose packet waits takes that one from those that wait. -/
theorem State.response_row {c : Instr} {o : Outstanding} (hc : c = Instr.readResp ∧ kind = 0x11 ∨ c = .writeAck ∧ kind = 0x12)
    (h : s.takeEject kind = some (k, s1)) (hm : s1.mem.copies = []) (ho : (s1.send k.srcConn).owns k = true)
    (hw : (s1.send k.srcConn).waiting.find? (fun o => o.packet.seq == k.seq) = some o) :
    exec c s = .next ((s1.answered k).respond o k.payload k.poison k.status) ∧
      ∀ e ∈ (((s1.answered k).respond o k.payload k.poison k.status).send k.srcConn).waiting, e.packet.seq ≠ k.seq := by
  have hz := (State.Worn.refl (s1.answered k)).respond (o := o) (data := k.payload) (poison := k.poison) (status := k.status) hm
  refine ⟨?_, fun e he => ?_⟩
  · rw [State.response_exec hc h, State.onResponse_row ho hw, State.retryCopies_none]
    rw [hz.frame]
    exact hm
  · have hs : ((s1.answered k).respond o k.payload k.poison k.status).send k.srcConn = (s1.answered k).send k.srcConn := by
      rw [hz.frame]
      rfl
    rw [hs, State.answered, State.updSend_send, if_pos rfl] at he
    simpa using (List.mem_filter.1 he).2

/-! ### Silence -/

theorem State.advanceTo_eq (n : Nat) : ∃ c, s.advanceTo n = { s with cairn := c } := ⟨_, rfl⟩

theorem State.advanceTo_instant (n : Nat) : ∃ c, c = cairnMax s.cairn (roundUp n 4) ∧ s.advanceTo n = { s with cairn := c } := ⟨_, rfl, rfl⟩

/-- `FZ_SENDER_IDLE` (R297). -/
theorem State.senderIdle_row {slot : Nat} (hs : slot < connSlots) (hu : (s.send slot).inUse = true) (ho : (s.send slot).opened = true)
    (hw : (s.send slot).open_ = []) : ∃ c, exec (.fzSenderIdle slot) s =
      .next (State.updSend { s with cairn := c } slot fun c => { SendConn.reset with gen := c.gen }) := by
  obtain ⟨c, hc⟩ := State.advanceTo_eq (s := s) ((s.send slot).lastUse + 500000000)
  refine ⟨c, ?_⟩
  show execFzSenderIdle slot s = _
  rw [execFzSenderIdle, onUnit, if_pos (by simpa using hs)]
  dsimp only
  rw [if_pos (by rw [hu, ho, hw]; rfl), hc]

/-- `FZ_OPEN_RETRY` within the opening time (R293, R296). -/
theorem State.openRetry_row {slot : Nat} (hs : slot < connSlots) (hu : (s.send slot).inUse = true) (hb : (s.send slot).busy = true)
    (ht : cairnSince (s.send slot).openFrom s.cairn + 50000 < openNs) : ∃ c, exec (.fzOpenRetry slot) s =
      .next ((State.updSend { s with cairn := c } slot fun c => { c with busy := false }).sendOpen slot) := by
  obtain ⟨c, hc⟩ := State.advanceTo_eq (s := s) (s.cairn + 50000)
  refine ⟨c, ?_⟩
  show execFzOpenRetry slot s = _
  rw [execFzOpenRetry, onUnit, if_pos (by simpa using hs)]
  dsimp only
  rw [if_neg (by rw [hu, hb]; decide), if_neg (by omega), hc]

/-- `FZ_RESEND_TIMEOUT` of an opening within its time (R296). -/
theorem State.resendOpen_row {slot seq : Nat} (hs : slot < connSlots) (hu : (s.send slot).inUse = true) (ho : (s.send slot).opened = false)
    (ht : cairnSince (s.send slot).openFrom (s.send slot).openAt + resendNs < openNs) : exec (.fzResendTimeout slot seq false) s =
      .next ((State.sendOpen slot (s.advanceTo ((s.send slot).openAt + resendNs))).countFz 5) := by
  show execFzResendTimeout slot seq s false = _
  rw [execFzResendTimeout, onUnit, if_pos (by simpa using hs)]
  dsimp only
  rw [if_neg (by decide), if_neg (by rw [hu]; decide), if_pos (by rw [ho]; rfl), if_neg (by omega)]

/-- `FZ_RESEND_TIMEOUT` of a `CLOSE` (R296). -/
theorem State.resendClose_row {slot seq : Nat} {c : Closing} (hs : slot < connSlots)
    (hc : s.fabric.closing.find? (·.slot == slot) = some c) (h4 : c.sends < 4) : exec (.fzResendTimeout slot seq true) s =
      .next ((State.inject c.packet { s.advanceTo (c.sentAt + resendNs) with fabric := { (s.advanceTo (c.sentAt + resendNs)).fabric with
        closing := (s.advanceTo (c.sentAt + resendNs)).fabric.closing.erase c ++
          [{ c with sentAt := (s.advanceTo (c.sentAt + resendNs)).cairn, sends := c.sends + 1 }] } }).countFz 5) := by
  show execFzResendTimeout slot seq s true = _
  rw [execFzResendTimeout, onUnit, if_pos (by simpa using hs)]
  dsimp only
  rw [if_pos rfl, State.resendClose, hc]
  dsimp only
  rw [if_neg (by omega)]

/-- `FZ_RECEIVER_IDLE` (R297). -/
theorem State.receiverIdle_row {slot : Nat} (hs : slot < connSlots) (hu : (s.recv slot).inUse = true) : ∃ c,
    exec (.fzReceiverIdle slot) s = .next (State.updRecv { s with cairn := c } slot fun _ => .reset) := by
  obtain ⟨c, hc⟩ := State.advanceTo_eq (s := s) ((s.recv slot).lastUse + 1000000000)
  refine ⟨c, ?_⟩
  show execFzReceiverIdle slot s = _
  rw [execFzReceiverIdle, onUnit, if_pos (by simpa using hs)]
  dsimp only
  rw [if_pos hu, hc]

theorem State.countFz_connections (i : Nat) : (s.countFz i).fabric.send = s.fabric.send ∧ (s.countFz i).fabric.closing = s.fabric.closing ∧
    (s.countFz i).fabric.inject = s.fabric.inject ∧ (s.countFz i).cairn = s.cairn ∧ (s.countFz i).mem = s.mem := by
  obtain ⟨_, _, h⟩ := State.countFz_frame (s := s) i
  rw [h]
  exact ⟨rfl, rfl, rfl, rfl, rfl⟩

/-- Settles O33: each row changes the slot that it names, and what it lands. -/
theorem sendingConnectionRows : Obligations.SendingConnectionRows := by
  refine fun s s1 k => ⟨fun h ho hn hw => ?_, fun h ho hn => ?_, fun h ho hn => ?_, fun h ho => ?_, fun c kind hc h hm => ⟨fun ho => ?_,
    fun o ho hw => ?_⟩, fun slot hs hu => ⟨fun ho hw => ?_, fun hb ht => ?_, fun seq ho ht => ?_⟩, fun slot hs seq c hc h4 => ?_,
    fun slot hs hu => ?_⟩
  · have hx := State.openAck_row h ho hn hw
    obtain ⟨es, rfl⟩ := State.takeEject_left h
    exact ⟨_, hx, (State.updSend_send _).trans (if_pos rfl), fun m hm => (State.updSend_send _).trans (if_neg hm), rfl⟩
  · have hx := State.openBusy_row h ho hn
    obtain ⟨es, rfl⟩ := State.takeEject_left h
    exact ⟨_, hx, (State.updSend_send _).trans (if_pos rfl), fun m hm => (State.updSend_send _).trans (if_neg hm), rfl⟩
  · have hx := State.reclaim_row h ho hn
    have hsend (m : Nat) := State.closeSend_send (s := s1) (n := k.srcConn) (m := m)
    obtain ⟨_, hf⟩ := State.closeSend_frame (s := s1) (n := k.srcConn)
    obtain ⟨es, rfl⟩ := State.takeEject_left h
    exact ⟨_, hx, (hsend _).trans (if_pos rfl), fun m hm => (hsend m).trans (if_neg hm), by rw [hf]⟩
  · obtain ⟨t, hx, h1, h2, h3, h4, h5⟩ := State.staleConn_row h ho
    obtain ⟨es, rfl⟩ := State.takeEject_left h
    exact ⟨t, hx, h1, h2, h3, h4, h5⟩
  · have hx := State.response_exec hc h
    have hr : s1.onResponse k = s1 := if_pos (by rw [ho]; rfl)
    rw [hr, State.retryCopies_none] at hx
    · exact hx
    · obtain ⟨es, rfl⟩ := State.takeEject_left h
      exact hm
  · have hm1 : s1.mem.copies = [] := by
      obtain ⟨es, rfl⟩ := State.takeEject_left h
      exact hm
    obtain ⟨hx, hwait⟩ := State.response_row hc h hm1 ho hw
    refine ⟨_, hx, hwait, fun t id i f p hwho ha hf hp hr hop hk => ?_⟩
    obtain ⟨es, rfl⟩ := State.takeEject_left h
    exact State.respond_landed hwho ha hf hp hr hop hk
  · obtain ⟨c, hx⟩ := State.senderIdle_row hs hu ho hw
    exact ⟨_, hx, (State.updSend_send _).trans (if_pos rfl), fun m hm => (State.updSend_send _).trans (if_neg hm), rfl⟩
  · obtain ⟨c, hx⟩ := State.openRetry_row hs hu hb ht
    obtain ⟨t, ht, hsend, hin, hrow⟩ := State.sendOpen_row
      (s := State.updSend { s with cairn := c } slot fun c => { c with busy := false }) slot
    rw [State.updSend_send, if_pos rfl] at hsend
    refine ⟨t, hx.trans (congrArg _ ht), by rw [hsend], by rw [hsend]; rfl, by rw [hsend, hrow], hin, by rw [hrow]; rfl⟩
  · have hx := State.resendOpen_row (seq := seq) hs hu ho ht
    obtain ⟨n, hn, hadv⟩ := State.advanceTo_instant (s := s) ((s.send slot).openAt + resendNs)
    rw [hadv] at hx
    rw [← hn]
    obtain ⟨t, ht, hsend, -, hrow⟩ := State.sendOpen_row (s := { s with cairn := n }) slot
    rw [ht] at hx
    obtain ⟨h1, -, -, -, h5⟩ := State.countFz_connections (s := t) 5
    have hc : (t.countFz 5).send slot = t.send slot := by rw [State.send, h1]; rfl
    exact ⟨_, hx, by rw [hc, hsend]; rfl, by rw [hc, hsend], by rw [h5, hrow]⟩
  · have hx := State.resendClose_row (seq := seq) hs hc h4
    obtain ⟨n, hn, hadv⟩ := State.advanceTo_instant (s := s) (c.sentAt + resendNs)
    rw [hadv] at hx
    rw [← hn]
    dsimp only at hx
    generalize hv : ({ s with cairn := n, fabric := { s.fabric with closing := s.fabric.closing.erase c ++
      [{ c with sentAt := n, sends := c.sends + 1 }] } } : State) = v at hx
    obtain ⟨ps, hi⟩ := State.inject_frame (p := c.packet) (s := v)
    obtain ⟨h1, h2, h3, h4, h5⟩ := State.countFz_connections (s := v.inject c.packet) 5
    refine ⟨_, hx, ?_, ?_, fun hl => ?_, ?_, ?_⟩
    · rw [h4, hi, ← hv]
    · rw [h2, h4, hi, ← hv]
    · obtain ⟨t, a, ht, ha, ⟨hk, hd, -, -, -, -, -, -⟩, -⟩ := State.inject_row (p := c.packet) (s := v) (by rw [← hv]; exact hl)
      exact ⟨a, by rw [h3, ht, ha, ← hv], hk, hd⟩
    · rw [h5, hi, ← hv]
    · rw [h1, hi, ← hv]
  · obtain ⟨c, hx⟩ := State.receiverIdle_row hs hu
    exact ⟨_, hx, (State.updRecv_recv _).trans (if_pos rfl), fun m hm => (State.updRecv_recv _).trans (if_neg hm), rfl⟩

end Sys2Proof.Machine
end

section
/-! PROOF. Firing an operation: what every row of an operation does, and what the rows of the steering unit and of the stream engine
compute (R22 to R31, R47, R52, R143, R256). -/

namespace Sys2Proof.Machine

variable {s v w : State} {t k opc : Nat} {us : List Upset} {ins : List (Nat × Nat × List Token)}

/-! ### Reads of a Tarn without wrong bits -/

/-- No word of the Tarn holds a wrong bit. -/
def Tile.Clean (x : Tile) : Prop := ∀ a, (Tab.get .zero x.tarn a).wrong = 0

/-- A read that found nothing wrong: no word was corrected, and none is uncorrectable. -/
def ReadRes.Clean (r : ReadRes) : Prop := r.ce = 0 ∧ r.ue = []

theorem Tile.readWords_succ {x : Tile} (h : x.Clean) (draw a n : Nat) : ∃ st, x.readWords draw a (n + 1) =
    { x.readWords draw (a + 1) n with words := (Tab.get .zero x.tarn a).data :: (x.readWords draw (a + 1) n).words, stored := st } := by
  rw [Tile.readWords]
  dsimp only
  by_cases hp : (Tab.get .zero x.tarn a).poison = true
  · rw [show readKind (decide (x.window ≤ a)) (Tab.get .zero x.tarn a) = .stored from if_pos hp]
    dsimp only
    exact ⟨_, rfl⟩
  · rw [show readKind (decide (x.window ≤ a)) (Tab.get .zero x.tarn a) = .good from (if_neg hp).trans (if_pos (h a))]
    dsimp only
    exact ⟨_, rfl⟩

theorem Tile.readWords_clean {x : Tile} (h : x.Clean) (draw a n : Nat) : (x.readWords draw a n).Clean := by
  induction n generalizing a with
  | zero => exact ⟨rfl, rfl⟩
  | succ n ih =>
    obtain ⟨_, hr⟩ := Tile.readWords_succ h draw a n
    rw [hr]
    exact ih (a + 1)

theorem Tile.readWords_words {x : Tile} (h : x.Clean) (draw a n : Nat) :
    (x.readWords draw a n).words = (List.range n).map fun i => (Tab.get .zero x.tarn (a + i)).data := by
  induction n generalizing a with
  | zero => rfl
  | succ n ih =>
    obtain ⟨_, hr⟩ := Tile.readWords_succ h draw a n
    rw [hr, List.range_succ_eq_map]
    simp only [List.map_cons, List.map_map, Nat.add_zero, ih]
    congr 1
    refine List.map_congr_left fun i _ => ?_
    simp only [Function.comp_apply, Nat.succ_eq_add_one, Nat.add_assoc, Nat.add_comm 1]

theorem Reads.add_clean {r : Reads} {x : Tile} (h : x.Clean) (hr : r.all.Clean) (draw i a n : Nat) : (r.add x draw i a n).all.Clean := by
  unfold Reads.add
  split
  · obtain ⟨hc, hu⟩ := Tile.readWords_clean h draw a n
    exact ⟨by show r.all.ce + _ = 0; rw [hr.1, hc], by show r.all.ue ++ _ = []; rw [hr.2, hu]; rfl⟩
  · exact hr

/-- One token's words read. -/
def Reads.step (x : Tile) (draw w : Nat) (r : Reads) (it : Nat × Token) : Reads :=
  match it.2.body with
  | .data a n =>
    let k := needWords w it.1 n
    if it.1 ≥ 3 || k = 0 then r else r.add x draw it.1 a k
  | _ => r

theorem readInputs_eq (x : Tile) (draw w : Nat) (toks : List (Nat × Token)) :
    readInputs x draw w toks = toks.foldl (Reads.step x draw w) .none_ := rfl

theorem Reads.step_clean {r : Reads} {x : Tile} (h : x.Clean) (hr : r.all.Clean) (draw w : Nat) (it : Nat × Token) :
    (r.step x draw w it).all.Clean := by
  unfold Reads.step
  split
  · dsimp only
    split
    · exact hr
    · exact Reads.add_clean h hr _ _ _ _
  · exact hr

theorem readInputs_clean {x : Tile} (h : x.Clean) (draw w : Nat) (toks : List (Nat × Token)) : (readInputs x draw w toks).all.Clean :=
  List.foldlRecOn (motive := fun r : Reads => r.all.Clean) toks _ ⟨rfl, rfl⟩ fun _ hr it _ => Reads.step_clean h hr draw w it

theorem readIds_clean {r : Reads} {x : Tile} (h : x.Clean) (hr : r.all.Clean) (draw w xw : Nat) (regs : Tab Word) :
    (readIds x draw w xw regs r).2.all.Clean := by
  unfold readIds
  dsimp only
  split
  · exact hr
  · split
    · exact hr
    · exact Reads.add_clean h hr _ _ _ _

/-! ### The tile as a firing reads it -/

/-- Words of the Tarn have changed, with patrol's own list of them, and no word holds more wrong bits. -/
def Tile.Rewritten (x y : Tile) : Prop := (∃ tn pb, y = { x with tarn := tn, patrolBack := pb }) ∧ (x.Clean → y.Clean)

theorem Tile.Rewritten.refl (x : Tile) : x.Rewritten x := ⟨⟨_, _, rfl⟩, id⟩

theorem Tile.Rewritten.trans {x y z : Tile} (h : x.Rewritten y) (h' : y.Rewritten z) : x.Rewritten z := by
  obtain ⟨⟨_, _, rfl⟩, hy⟩ := h
  obtain ⟨⟨_, _, rfl⟩, hz⟩ := h'
  exact ⟨⟨_, _, rfl⟩, fun hx => hz (hy hx)⟩

theorem Tab.putAll_clean {m : Tab TarnWord} (h : ∀ a, (Tab.get .zero m a).wrong = 0) (ws : List TarnWord) (hw : ∀ v ∈ ws, v.wrong = 0)
    (a b : Nat) : (Tab.get .zero (Tab.putAll .zero a ws m) b).wrong = 0 := by
  induction ws generalizing a m with
  | nil => exact h b
  | cons v vs ih =>
    refine ih (fun c => ?_) (fun z hz => hw z (List.mem_cons_of_mem _ hz)) (a + 1)
    rw [Tab.get_put]
    split
    · exact hw v (List.mem_cons_self ..)
    · exact h c

theorem Tile.writeWords_rewritten (x : Tile) (a : Nat) (ws : List Word) (p : Bool) : x.Rewritten (x.writeWords a ws p) :=
  ⟨⟨_, _, rfl⟩, fun h => Tab.putAll_clean h _ (by simp) a⟩

theorem Tile.asRead_rewritten (x : Tile) (draw w issue : Nat) : x.Rewritten (x.asRead draw w issue) := by
  unfold Tile.asRead
  dsimp only
  refine List.foldlRecOn (motive := fun y : Tile => x.Rewritten y) _ _ (.refl x) fun y hy f _ => ?_
  refine List.foldlRecOn (motive := fun z : Tile => x.Rewritten z) _ _ hy fun z hz _ _ => ?_
  split
  · exact hz.trans (z.writeWords_rewritten _ _ _)
  · split
    · exact hz.trans (z.writeWords_rewritten _ _ _)
    · exact hz

/-- Tokens taken change the queues and credits alone (R27). -/
theorem Tile.consume_frame (x : Tile) (ins : List (Nat × Nat × List Token)) : ∃ qs cs,
    x.consume ins = { x with run := { x.run with queues := qs, credits := cs } } := by
  unfold Tile.consume
  refine List.foldlRecOn (motive := fun y : Tile => ∃ qs cs, y = { x with run := { x.run with queues := qs, credits := cs } }) _ _
    ⟨_, _, rfl⟩ fun y hy e _ => ?_
  obtain ⟨_, _, rfl⟩ := hy
  exact ⟨_, _, rfl⟩

/-- The tile with its tokens taken and the Pennants in its registers (R27, R136). -/
def Tile.taken (x : Tile) (k : Nat) (ins : List (Nat × Nat × List Token)) : Tile :=
  { (x.consume ins) with sregs := pennantRegs (consumedTokens (x.op k) ins) x.sregs }

theorem Tile.taken_frame (x : Tile) (k : Nat) (ins : List (Nat × Nat × List Token)) : ∃ qs cs sr,
    x.taken k ins = { x with sregs := sr, run := { x.run with queues := qs, credits := cs } } := by
  obtain ⟨_, _, h⟩ := x.consume_frame ins
  rw [Tile.taken, h]
  exact ⟨_, _, _, rfl⟩

/-! ### The context of a firing -/

/-- The module after the wrong bits that have come about. -/
def State.upsetAt (s : State) (t : Nat) (us : List Upset) : State := s.updTile t (·.upset us)

/-- What the reads of a firing found, and whether their ranges hold. -/
def State.firingReads (s : State) (t k : Nat) (us : List Upset) (ins : List (Nat × Nat × List Token)) : ReadRes × Bool :=
  let x := (s.tile t).upset us
  ((s.upsetAt t us).context t k (x.taken k ins) (consumedTokens (x.op k) ins) (pennantRegs (consumedTokens (x.op k) ins) x.sregs)).2

theorem State.upsetAt_tile (s : State) (t : Nat) (us : List Upset) : (s.upsetAt t us).tile t = (s.tile t).upset us := by
  rw [State.upsetAt, State.updTile_tile, if_pos rfl]

/-- What a firing sees of its tile. -/
structure Ctx.Sees (c : Ctx) (t k : Nat) (x : Tile) (ins : List (Nat × Nat × List Token)) : Prop where
  at_ : c.t = t
  index : c.k = k
  word : c.w = x.op k
  tokens : c.toks = consumedTokens (x.op k) ins
  tile : ∃ qs cs sr tn pb, c.x = { x with sregs := sr, tarn := tn, patrolBack := pb, run := { x.run with queues := qs, credits := cs } }

theorem State.context_clean {x : Tile} (h : x.Clean) (toks : List (Nat × Token)) (regs : Tab Word) :
    (s.context t k x toks regs).2.1.Clean := by
  unfold State.context
  dsimp only
  exact readIds_clean ((Tile.asRead_rewritten x _ _ _).2 h) (readInputs_clean ((Tile.asRead_rewritten x _ _ _).2 h) _ _ _) _ _ _ _

theorem State.context_x (x : Tile) (toks : List (Nat × Token)) (regs : Tab Word) :
    x.Rewritten (s.context t k x toks regs).1.x := x.asRead_rewritten _ _ _

theorem State.firingCtx_sees (s : State) (t k : Nat) (us : List Upset) (ins : List (Nat × Nat × List Token)) :
    (s.firingCtx t k us ins).Sees t k ((s.tile t).upset us) ins := by
  obtain ⟨qs, cs, sr, hx⟩ := ((s.tile t).upset us).taken_frame k ins
  obtain ⟨⟨tn, pb, hr⟩, -⟩ := State.context_x (s := s.upsetAt t us) (t := t) (k := k) (((s.tile t).upset us).taken k ins)
    (consumedTokens (((s.tile t).upset us).op k) ins) (pennantRegs (consumedTokens (((s.tile t).upset us).op k) ins) ((s.tile t).upset us).sregs)
  refine ⟨rfl, rfl, ?_, rfl, qs, cs, sr, tn, pb, hr.trans ?_⟩
  · show (((s.tile t).upset us).taken k ins).op k = _
    rw [hx]
    rfl
  · rw [hx]

/-! ### What a firing records -/

/-- The firing of an operation with an effect. -/
def State.firingOf (s : State) (t k : Nat) (us : List Upset) (ins : List (Nat × Nat × List Token)) (eff : EffectFn) : Firing × List Event :=
  (s.upsetAt t us).makeFiring (s.firingCtx t k us ins) (eff (s.firingCtx t k us ins) (s.upsetAt t us)) (s.firingReads t k us ins).1
    (s.firingReads t k us ins).2 none

/-- The module once a firing is recorded, before what the operation does besides. -/
def State.recorded (s : State) (t k : Nat) (us : List Upset) (ins : List (Nat × Nat × List Token)) (eff : EffectFn) : State :=
  ((((s.upsetAt t us).setTile t ((((s.tile t).upset us).taken k ins).record (((s.tile t).upset us).op k) ins
    (s.firingOf t k us ins eff).1)).draw).noteRead t (s.firingReads t k us ins).1).raiseAll (s.firingOf t k us ins eff).2

/-- An operation that fires is recorded, and then does what it does besides (R25 to R27). -/
theorem State.fire_exec {eff : EffectFn} {after : AfterFn} (h : s.firesWith t k us opc ins) : s.fire opc t k us eff after =
    .next (after (s.firingCtx t k us ins) (s.firingOf t k us ins eff).1 (s.recorded t k us ins eff)) := by
  obtain ⟨hs, ht, hk, hr, ho, hf, hi, -⟩ := h
  unfold State.fire
  rw [State.onLive_next]
  refine ⟨by simp [ht, hk], ?_⟩
  rw [if_pos hs]
  have hx : (s.updTile t (·.upset us)).tile t = (s.tile t).upset us := s.upsetAt_tile t us
  dsimp only
  rw [hx, if_pos (by rw [hr, ho, hf]; simp), hi]
  rfl

/-! ### What the record leaves -/

theorem State.noteSaturated_only (old new : Counter) (a b c : Nat) : ∃ h l, s.noteSaturated old new a b c =
    { s with host := h, ledger := l } := by
  unfold State.noteSaturated
  split
  · obtain ⟨_, h⟩ := State.raise_only (s := s) 0x1003 (a + 2 ^ 32 * b + 2 ^ 48 * c) 0 0
    exact ⟨_, _, h⟩
  · exact ⟨_, _, rfl⟩

/-- A read that found nothing wrong is counted at its tile, and no part is blamed (R111, R113). -/
theorem State.noteRead_clean {r : ReadRes} (h : r.Clean) : ∃ cn te k l, s.noteRead t r =
    { s.setTile t { s.tile t with cnt := cn, tarnErr := te } with host := k, ledger := l } := by
  obtain ⟨hc, hu⟩ := h
  unfold State.noteRead
  dsimp only
  rw [hc, hu, if_pos (show 0 + ([] : List Nat).length = 0 from rfl), List.map_nil]
  show ∃ cn te k l, (((State.setTile _ _ _).noteSaturated _ _ _ _ _).noteSaturated _ _ _ _ _).noteSaturated _ _ _ _ _ = _
  generalize hv : State.setTile s t _ = v
  obtain ⟨_, _, h1⟩ := State.noteSaturated_only (s := v) (s.tile t).cnt.tarnCe ((s.tile t).cnt.tarnCe.add 0) 0x08 t 1
  rw [h1]
  generalize hv2 : ({ v with host := _, ledger := _ } : State) = v2
  obtain ⟨_, _, h2⟩ := State.noteSaturated_only (s := v2) (s.tile t).cnt.tarnUe ((s.tile t).cnt.tarnUe.add [].length) 0x10 t 1
  rw [h2]
  generalize hv3 : ({ v2 with host := _, ledger := _ } : State) = v3
  obtain ⟨_, _, h3⟩ := State.noteSaturated_only (s := v3) (s.tile t).cnt.tarnPoison ((s.tile t).cnt.tarnPoison.add r.stored.length) 0x18 t 1
  rw [h3, ← hv3, ← hv2, ← hv]
  exact ⟨_, _, _, _, rfl⟩

/-- What an operation does besides its record, on its way through the rest of the module: the firings stay that it does not receive
for, and of its tile only firings, changes, posted receives, channels, Summit numbers and counts are touched. -/
structure State.Beside (opc t : Nat) (f : Firing) (v w : State) : Prop where
  tile : ∃ fs ch po hs su cn te, w.tile t = { v.tile t with cnt := cn, tarnErr := te, run := { (v.tile t).run with
    flights := fs, changes := ch, posted := po, channels := hs, summits := su } } ∧ (f ∈ (v.tile t).run.flights → f ∈ fs)
  others : opc ∉ [0x56, 0x57, 0x61] → ∀ u, u ≠ t → w.tile u = v.tile u
  planes : opc ≠ 0x55 → opc ≠ 0x65 → w.planes = v.planes
  frame : ∃ ts pl l h, w = { v with tiles := ts, planes := pl, ledger := l, host := h }

variable {f : Firing} {u : State}

theorem State.Beside.refl (v : State) : State.Beside opc t f v v :=
  ⟨⟨_, _, _, _, _, _, _, rfl, id⟩, fun _ _ _ => rfl, fun _ _ => rfl, _, _, _, _, rfl⟩

theorem State.Beside.trans (h : State.Beside opc t f v w) (h' : State.Beside opc t f w u) : State.Beside opc t f v u := by
  obtain ⟨⟨fs, ch, po, hs, su, cn, te, ht, hf⟩, ho, hp, ts, pl, l, k, hw⟩ := h
  obtain ⟨⟨fs', ch', po', hs', su', cn', te', ht', hf'⟩, ho', hp', ts', pl', l', k', hu⟩ := h'
  refine ⟨⟨fs', ch', po', hs', su', cn', te', by rw [ht', ht], fun h => hf' (by rw [ht]; exact hf h)⟩,
    fun h i hi => (ho' h i hi).trans (ho h i hi), fun h1 h2 => (hp' h1 h2).trans (hp h1 h2), ts', pl', l', k', by rw [hu, hw]⟩

/-- A tile's execution state touched besides. -/
def TileRun.Beside (f : Firing) (r q : TileRun) : Prop := ∃ fs ch po hs su, q = { r with
  flights := fs, changes := ch, posted := po, channels := hs, summits := su } ∧ (f ∈ r.flights → f ∈ fs)

theorem State.updTile_beside {i : Nat} {g : TileRun → TileRun} (hi : i = t ∨ opc ∈ [0x56, 0x57, 0x61]) (hg : ∀ r, TileRun.Beside f r (g r)) :
    State.Beside opc t f v (v.updTile i fun x => x.updRun g) := by
  refine ⟨?_, fun h j hj => ?_, fun _ _ => rfl, _, _, _, _, rfl⟩
  · rw [State.updTile_tile]
    split
    · next h =>
      subst h
      obtain ⟨fs, ch, po, hs, su, hq, hf⟩ := hg (v.tile t).run
      refine ⟨fs, ch, po, hs, su, (v.tile t).cnt, (v.tile t).tarnErr, ?_, hf⟩
      show { v.tile t with run := g (v.tile t).run } = _
      rw [hq]
    · exact ⟨_, _, _, _, _, _, _, rfl, id⟩
  · rw [State.updTile_tile, if_neg]
    rintro rfl
    exact hi.elim hj h

theorem State.updTiles_beside {us : List Nat} {g : TileRun → TileRun} (ho : opc ∈ [0x56, 0x57, 0x61]) (hg : ∀ r, TileRun.Beside f r (g r)) :
    State.Beside opc t f v (us.foldl (fun s i => s.updTile i fun x => x.updRun g) v) :=
  List.foldlRecOn (motive := fun w : State => State.Beside opc t f v w) us _ (.refl v) fun _ hw _ _ =>
    hw.trans (State.updTile_beside (.inr ho) hg)

theorem State.noteRead_beside {r : ReadRes} (h : r.Clean) : State.Beside opc t f v (v.noteRead t r) := by
  obtain ⟨_, _, _, _, hr⟩ := State.noteRead_clean (s := v) (t := t) h
  rw [hr]
  exact ⟨⟨(v.tile t).run.flights, (v.tile t).run.changes, (v.tile t).run.posted, (v.tile t).run.channels, (v.tile t).run.summits, _, _,
    (State.setTile_tile ..).trans (if_pos rfl), id⟩, fun _ j hj => (State.setTile_tile ..).trans (if_neg hj), fun _ _ => rfl, _, _, _, _, rfl⟩

theorem State.raiseAll_beside (es : List Event) : State.Beside opc t f v (State.raiseAll es v) := by
  obtain ⟨_, _, hr⟩ := State.raiseAll_only (s := v) es
  rw [hr]
  exact ⟨⟨_, _, _, _, _, _, _, rfl, id⟩, fun _ _ _ => rfl, fun _ _ => rfl, _, _, _, _, rfl⟩

theorem State.firingReads_clean (h : s.firesWith t k us opc ins) : (s.firingReads t k us ins).1.Clean := by
  obtain ⟨-, -, -, -, -, -, -, hw⟩ := h
  refine State.context_clean (fun a => ?_) _ _
  obtain ⟨_, _, _, hx⟩ := ((s.tile t).upset us).taken_frame k ins
  rw [hx]
  exact hw a

/-- The tile with the firing recorded. -/
def State.recordedTile (s : State) (t k : Nat) (us : List Upset) (ins : List (Nat × Nat × List Token)) (eff : EffectFn) : Tile :=
  (((s.tile t).upset us).taken k ins).record (((s.tile t).upset us).op k) ins (s.firingOf t k us ins eff).1

/-- The record changes the firing's tile alone, and counts and reports. -/
theorem State.recorded_beside (h : s.firesWith t k us opc ins) (eff : EffectFn) (f : Firing) : State.Beside opc t f
    ((s.upsetAt t us).setTile t (s.recordedTile t k us ins eff)).draw (s.recorded t k us ins eff) :=
  (State.noteRead_beside (State.firingReads_clean h)).trans (State.raiseAll_beside _)

/-- The tile of a record (R27): its firing is the last in flight, its engine is busy, and its count is one higher. -/
theorem Tile.record_frame (x : Tile) (w : Nat) (ins : List (Nat × Nat × List Token)) (f : Firing) : ∃ qs cs ld bk hh rh ch fs,
    x.record w ins f = { x with run := { x.run with
      queues := qs, credits := cs, lead := ld, banks := bk, halfHolds := hh, ringHolds := rh, changes := ch, flights := fs ++ [f]
      engines := Tab.put .reset ((engineOf (opCode w)).getD 3) ⟨f.fire + f.issue, true, f.fire + f.issue⟩ x.run.engines
      firings := Tab.upd 0 f.index (· + 1) x.run.firings, nextId := x.run.nextId + 1 } } := by
  have h1 : ∃ cs, (outputsOf w).foldl (fun x o => x.updCredit o.2 fun c => { c with held := c.held - 1 }) x =
      { x with run := { x.run with credits := cs } } := by
    refine List.foldlRecOn (motive := fun y : Tile => ∃ cs, y = { x with run := { x.run with credits := cs } }) _ _ ⟨_, rfl⟩
      fun y hy e _ => ?_
    obtain ⟨_, rfl⟩ := hy
    exact ⟨_, rfl⟩
  have h2 : ∃ qs cs, (if outEn w 0 then ((outputsOf w).foldl (fun x o => x.updCredit o.2 fun c => { c with held := c.held - 1 }) x).updQueue
      (outQ w 0) fun q => { q with sent := q.sent + 1 } else (outputsOf w).foldl (fun x o => x.updCredit o.2 fun c => { c with held := c.held - 1 }) x) =
      { x with run := { x.run with queues := qs, credits := cs } } := by
    obtain ⟨_, h1⟩ := h1
    rw [h1]
    split
    · exact ⟨_, _, rfl⟩
    · exact ⟨_, _, rfl⟩
  obtain ⟨_, _, h2⟩ := h2
  unfold Tile.record
  dsimp only
  rw [h2]
  exact ⟨_, _, _, _, _, _, _, _, rfl⟩

/-! ### The record of an operation that fires -/

/-- What every row of an operation leaves at its tile and beyond (R22, R27, R51). -/
structure State.Fired (s : State) (t k opc : Nat) (x : Tile) (f : Firing) (z : State) : Prop where
  flights : f ∈ (z.tile t).run.flights
  engine : (z.tile t).engine ((engineOf opc).getD 3) = ⟨x.cycle + f.issue, true, x.cycle + f.issue⟩
  firings : Tab.get 0 (z.tile t).run.firings k = f.count + 1
  cfg : (z.tile t).cfg = x.cfg
  tarn : (z.tile t).tarn = x.tarn
  cycle : (z.tile t).cycle = x.cycle
  emitted : (z.tile t).run.emitted = x.run.emitted
  others : opc ∉ [0x56, 0x57, 0x61] → ∀ v, v ≠ t → z.tile v = s.tile v
  planes : opc ≠ 0x55 → opc ≠ 0x65 → z.planes = s.planes
  frame : z = { s with tiles := z.tiles, planes := z.planes, ledger := z.ledger, host := z.host, draws := s.draws + 1 }

/-- What an operation does besides keeps its record. -/
theorem State.Fired.beside {x : Tile} (h : s.Fired t k opc x f v) (h' : State.Beside opc t f v w) : s.Fired t k opc x f w := by
  obtain ⟨⟨fs, ch, po, hs, su, cn, te, ht, hf⟩, ho, hp, ts, pl, l, hh, hw⟩ := h'
  refine ⟨?_, ?_, ?_, ?_, ?_, ?_, ?_, fun hc u hu => (ho hc u hu).trans (h.others hc u hu), fun h1 h2 => (hp h1 h2).trans (h.planes h1 h2), ?_⟩
  · rw [ht]; exact hf h.flights
  · rw [ht]; exact h.engine
  · rw [ht]; exact h.firings
  · rw [ht]; exact h.cfg
  · rw [ht]; exact h.tarn
  · rw [ht]; exact h.cycle
  · rw [ht]; exact h.emitted
  · rw [hw, h.frame]

/-- The fields of a firing that do not depend on its effect. -/
theorem State.makeFiring_fields (c : Ctx) (e : Effect) (rd : ReadRes) (ok : Bool) : ∃ b : TokenBody,
    ((s.makeFiring c e rd ok none).1.id = c.x.run.nextId ∧ (s.makeFiring c e rd ok none).1.index = c.k ∧
      (s.makeFiring c e rd ok none).1.fire = c.x.cycle ∧ (s.makeFiring c e rd ok none).1.count = Tab.get 0 c.x.run.firings c.k ∧
      (s.makeFiring c e rd ok none).1.inputs = c.toks) ∧
    (s.makeFiring c e rd ok none).1.outs = (outputsOf c.w).map (fun o => (o.2,
      { body := b, tag := outTag c.toks (Tab.get 0 c.x.run.firings c.k), poison := (s.makeFiring c e rd ok none).1.poison })) ∧
    ((∃ i ∈ c.toks, i.2.poison = true) → (s.makeFiring c e rd ok none).1.poison = true) := by
  refine ⟨_, ⟨rfl, rfl, rfl, rfl, rfl⟩, rfl, fun ⟨i, hi, hp⟩ => ?_⟩
  have : c.toks.any (·.2.poison) = true := List.any_eq_true.2 ⟨i, hi, hp⟩
  unfold State.makeFiring
  dsimp only
  rw [this]
  rfl

/-- The record of a firing, before what its operation does besides. -/
theorem State.recorded_fired (h : s.firesWith t k us opc ins) (eff : EffectFn) :
    s.Fired t k opc ((s.tile t).upset us) (s.firingOf t k us ins eff).1 (s.recorded t k us ins eff) := by
  have hb := State.recorded_beside h eff (s.firingOf t k us ins eff).1
  obtain ⟨hat, hi, hw, htk, qs, cs, sr, tn, pb, hx⟩ := s.firingCtx_sees t k us ins
  obtain ⟨-, ⟨hid, hindex, hfire, hcount, -⟩, -, -⟩ := State.makeFiring_fields (s := s.upsetAt t us) (s.firingCtx t k us ins)
    (eff (s.firingCtx t k us ins) (s.upsetAt t us)) (s.firingReads t k us ins).1 (s.firingReads t k us ins).2
  rw [hx] at hfire hcount
  rw [hi] at hindex hcount
  obtain ⟨_, _, _, hxt⟩ := ((s.tile t).upset us).taken_frame k ins
  obtain ⟨_, _, _, _, _, _, _, _, hrec⟩ := Tile.record_frame (((s.tile t).upset us).taken k ins) (((s.tile t).upset us).op k) ins
    (s.firingOf t k us ins eff).1
  replace hrec : s.recordedTile t k us ins eff = _ := hrec
  rw [hxt] at hrec
  have hop : opCode (((s.tile t).upset us).op k) = opc := h.2.2.2.2.1
  rw [hop] at hrec
  have ht : (((s.upsetAt t us).setTile t (s.recordedTile t k us ins eff)).draw).tile t = s.recordedTile t k us ins eff :=
    (State.setTile_tile ..).trans (if_pos rfl)
  replace ht := ht.trans hrec
  have hengine (i : Nat) (e : Engine) (r : Tab Engine) : Tab.get .reset (Tab.put .reset i e r) i = e := Tab.get_put_same
  refine State.Fired.beside (v := ((s.upsetAt t us).setTile t (s.recordedTile t k us ins eff)).draw) (State.Fired.mk ?_ ?_ ?_ ?_ ?_ ?_ ?_ (fun _ u hu => ?_) (fun _ _ => rfl) rfl) hb
  · rw [ht]; simp
  · rw [ht]
    refine (hengine _ _ _).trans ?_
    rw [show (s.firingOf t k us ins eff).1.fire = ((s.tile t).upset us).cycle from hfire]
  · rw [ht, show (s.firingOf t k us ins eff).1.index = k from hindex,
      show (s.firingOf t k us ins eff).1.count = Tab.get 0 ((s.tile t).upset us).run.firings k from hcount]
    exact Tab.get_upd_same (d := 0) (f := (· + 1))
  · rw [ht]
  · rw [ht]
  · rw [ht]
  · rw [ht]
  · exact ((State.setTile_tile ..).trans (if_neg hu)).trans ((State.updTile_tile ..).trans (if_neg hu))

/-! ### What the operations do besides -/

theorem State.updOut_beside (l : Nat) (g : LinkOut → LinkOut) : State.Beside 0x65 t f v (v.updOut l g) :=
  ⟨⟨_, _, _, _, _, _, _, rfl, id⟩, fun _ _ _ => rfl, fun _ h => absurd rfl h, _, _, _, _, rfl⟩

theorem State.afterXdisp_beside (c : Ctx) : State.Beside 0x55 t f v (afterXdisp c f v) := by
  unfold afterXdisp
  split
  · split
    · dsimp only
      split
      · exact .refl v
      · exact ⟨⟨_, _, _, _, _, _, _, rfl, id⟩, fun _ _ _ => rfl, fun h => absurd rfl h, _, _, _, _, rfl⟩
    · exact .refl v
  · exact .refl v

theorem mem_receiveFirst {now index : Nat} {src : Firing} (hf : f.openEnded = false) :
    ∀ fs : List Firing, f ∈ fs → f ∈ receiveFirst now index src fs := by
  intro fs
  induction fs with
  | nil => exact id
  | cons g gs ih =>
    intro h
    unfold receiveFirst
    split
    · next hg =>
      obtain rfl | h := List.mem_cons.1 h
      · rw [hf] at hg
        exact absurd hg (by simp)
      · exact List.mem_cons_of_mem _ h
    · obtain rfl | h := List.mem_cons.1 h
      · exact List.mem_cons_self ..
      · exact List.mem_cons_of_mem _ (ih h)

/-- A receive takes the words of a send, and no other firing is touched (R147). -/
theorem State.receiveWords_beside {i index : Nat} (src : Firing) (hf : f.openEnded = false) :
    State.Beside 0x56 t f v (v.updTile i fun x => x.receiveWords index src) := by
  refine ⟨?_, fun h => absurd (by simp) h, fun _ _ => rfl, _, _, _, _, rfl⟩
  rw [State.updTile_tile]
  split
  · next h =>
    subst h
    exact ⟨receiveFirst (v.tile t).cycle index src (v.tile t).run.flights, _, (v.tile t).run.posted, (v.tile t).run.channels,
      (v.tile t).run.summits, (v.tile t).cnt, (v.tile t).tarnErr, rfl, mem_receiveFirst hf _⟩
  · exact ⟨_, _, _, _, _, _, _, rfl, id⟩

theorem State.afterCsend_beside (c : Ctx) (hf : f.openEnded = false) : State.Beside 0x56 t f v (afterCsend c f v) := by
  unfold afterCsend
  split
  · next k p _ _ =>
    dsimp only
    have h1 : State.Beside 0x56 t f v (v.updTile c.t fun x => x.updRun fun r => { r with posted := r.posted.erase p }) :=
      State.updTile_beside (.inr (by simp)) fun r => ⟨_, _, _, _, _, rfl, id⟩
    split
    · exact h1
    · exact List.foldlRecOn (motive := fun w : State => State.Beside 0x56 t f v w) _ _ h1 fun _ hw i _ =>
        hw.trans (State.receiveWords_beside f hf)
  · exact .refl v

theorem State.afterCrecv_beside (c : Ctx) : State.Beside 0x57 t f v (afterCrecv c f v) := by
  unfold afterCrecv
  split
  · dsimp only
    split
    · exact .refl v
    · exact State.updTiles_beside (by simp) fun r => ⟨_, _, _, _, _, rfl, id⟩
  · exact .refl v

theorem State.afterChsend_beside {c : Ctx} (hc : c.t = t) : State.Beside opc t f v (afterChsend c f v) :=
  State.updTile_beside (.inl hc) fun _ => ⟨_, _, _, _, _, rfl, id⟩

theorem State.afterChrecv_beside (c : Ctx) : State.Beside 0x61 t f v (afterChrecv c f v) := by
  unfold afterChrecv
  dsimp only
  have h1 : State.Beside 0x61 t f v (v.updTile c.t fun x => x.updChannel c.chan fun h => { h with recv := h.recv.drop 1 }) :=
    State.updTile_beside (.inr (by simp)) fun r => ⟨_, _, _, _, _, rfl, id⟩
  split
  · exact h1
  · exact h1.trans (State.updTiles_beside (by simp) fun r => ⟨_, _, _, _, _, rfl, id⟩)

theorem State.afterScalc_beside {c : Ctx} (hc : c.t = t) (hx : c.x.Clean) : State.Beside opc t f v (afterScalc c f v) := by
  unfold afterScalc
  split
  · rw [hc]
    exact State.noteRead_beside (Tile.readWords_clean hx _ _ _)
  · exact .refl v

theorem State.sendArrive_beside (i b : Nat) : State.Beside 0x65 t f v (v.sendArrive t i b) := by
  unfold State.sendArrive
  split
  · exact ⟨⟨_, _, _, _, _, _, _, rfl, id⟩, fun _ _ _ => rfl, fun _ h => absurd rfl h, _, _, _, _, rfl⟩
  · exact State.updOut_beside _ _

theorem State.afterSummit_beside {c : Ctx} (hc : c.t = t) : State.Beside 0x65 t f v (afterSummit c f v) := by
  unfold afterSummit
  dsimp only
  have h1 : State.Beside 0x65 t f v (v.updTile c.t fun x => x.updRun fun r =>
      { r with summits := Tab.upd 0 (c.summitBunting v) (· + 1) r.summits }) :=
    State.updTile_beside (.inl hc) fun r => ⟨_, _, _, _, _, rfl, id⟩
  split
  · exact h1
  · refine h1.trans ?_
    rw [hc]
    exact State.sendArrive_beside _ _

/-! ### The rows -/

/-- What the operation of an opcode does besides its record. -/
def afterOf (opc : Nat) : AfterFn :=
  match opc with
  | 0x55 => afterXdisp
  | 0x56 => afterCsend
  | 0x57 => afterCrecv
  | 0x60 => afterChsend
  | 0x61 => afterChrecv
  | 0x63 => afterScalc
  | 0x65 => afterSummit
  | _ => afterNone

/-- Each row fires its operation with its effect. -/
theorem firedRows_fire {c : Instr} {eff : EffectFn} (hm : (c, opc, eff) ∈ firedRows t k us) :
    exec c s = s.fire opc t k us eff (afterOf opc) := by
  have key : ∀ e ∈ firedRows t k us, exec e.1 s = s.fire e.2.1 t k us e.2.2 (afterOf e.2.1) := by
    simp only [firedRows, List.forall_mem_cons, List.not_mem_nil, false_imp_iff, implies_true, and_true]
    and_intros
    all_goals rfl
  exact key _ hm

/-- What it does besides keeps the record. -/
theorem afterOf_beside {d : Ctx} (ht : d.t = t) (hx : d.x.Clean) (ho : opc = 0x56 → f.openEnded = false) :
    State.Beside opc t f v (afterOf opc d f v) := by
  unfold afterOf
  split
  · exact State.afterXdisp_beside d
  · exact State.afterCsend_beside d (ho rfl)
  · exact State.afterCrecv_beside d
  · exact State.afterChsend_beside ht
  · exact State.afterChrecv_beside d
  · exact State.afterScalc_beside ht hx
  · exact State.afterSummit_beside ht
  · exact .refl v

/-- An operation of the matrix or the vector engine takes its fixed time (R38, R41). -/
theorem firedRows_timing {c : Instr} {eff : EffectFn} (hm : (c, opc, eff) ∈ firedRows t k us) (ho : opc ≤ 0x45) (d : Ctx) :
    ((eff d s).issue, (eff d s).depth) = timing d.w := by
  have key : ∀ e ∈ firedRows t k us, e.2.1 ≤ 0x45 → ((e.2.2 d s).issue, (e.2.2 d s).depth) = timing d.w := by
    simp only [firedRows, List.forall_mem_cons, List.not_mem_nil, false_imp_iff, implies_true, and_true, Nat.reduceLeDiff, true_imp_iff]
    and_intros
    all_goals rfl
  exact key _ hm ho

/-- A `CSEND` is of fixed timing (R147). -/
theorem firedRows_csend {c : Instr} {eff : EffectFn} (hm : (c, opc, eff) ∈ firedRows t k us) (ho : opc = 0x56) (d : Ctx) :
    (eff d s).openEnded = false := by
  have key : ∀ e ∈ firedRows t k us, e.2.1 = 0x56 → e.2.2 = effCsend := by
    simp only [firedRows, List.forall_mem_cons, List.not_mem_nil, false_imp_iff, implies_true, and_true, Nat.reduceEqDiff]
  rw [show eff = effCsend from key _ hm ho]
  unfold effCsend
  split <;> rfl

/-- What a row of an operation fires, and the state it leaves. -/
theorem State.fires_row {c : Instr} {eff : EffectFn} (hm : (c, opc, eff) ∈ firedRows t k us) (h : s.firesWith t k us opc ins) :
    exec c s = .next (afterOf opc (s.firingCtx t k us ins) (s.firingOf t k us ins eff).1 (s.recorded t k us ins eff)) ∧
      State.Beside opc t (s.firingOf t k us ins eff).1 (s.recorded t k us ins eff)
        (afterOf opc (s.firingCtx t k us ins) (s.firingOf t k us ins eff).1 (s.recorded t k us ins eff)) := by
  have hx : (s.firingCtx t k us ins).x.Clean := by
    refine (State.context_x (s := s.upsetAt t us) (t := t) (k := k) (((s.tile t).upset us).taken k ins)
      (consumedTokens (((s.tile t).upset us).op k) ins) _).2 fun a => ?_
    obtain ⟨_, _, _, hq⟩ := ((s.tile t).upset us).taken_frame k ins
    rw [hq]
    exact h.2.2.2.2.2.2.2 a
  exact ⟨(firedRows_fire hm).trans (State.fire_exec h),
    afterOf_beside (State.firingCtx_sees s t k us ins).at_ hx fun ho => firedRows_csend hm ho _⟩

/-- Settles O36: what the record of a firing holds, kept by what the operation does besides. -/
theorem operationsFire : Obligations.OperationsFire := by
  intro s t k us c opc eff ins x hm h hx
  subst hx
  obtain ⟨hexec, hb⟩ := State.fires_row hm h
  have hz := (State.recorded_fired h eff).beside hb
  obtain ⟨hat, hi, hw, htk, qs, cs, sr, tn, pb, hcx⟩ := s.firingCtx_sees t k us ins
  obtain ⟨b, ⟨hid, hindex, hfire, hcount, hin⟩, houts, hpois⟩ := State.makeFiring_fields (s := s.upsetAt t us) (s.firingCtx t k us ins)
    (eff (s.firingCtx t k us ins) (s.upsetAt t us)) (s.firingReads t k us ins).1 (s.firingReads t k us ins).2
  rw [hcx] at hid hfire hcount
  rw [hi] at hindex hcount
  rw [htk] at hin hpois
  refine ⟨_, (s.firingOf t k us ins eff).1, hexec, hz.flights, hid, hindex, hfire, hcount, hin, ?_, ?_, ?_, ?_, hz.engine, hz.firings,
    hz.cfg, hz.tarn, hz.cycle, hz.emitted, hz.others, hz.planes, hz.frame⟩
  · rw [show (s.firingOf t k us ins eff).1.outs = _ from houts, hw, List.map_map]
    rfl
  · intro o ho
    rw [show (s.firingOf t k us ins eff).1.outs = _ from houts] at ho
    obtain ⟨e, -, rfl⟩ := List.mem_map.1 ho
    refine ⟨?_, rfl⟩
    rw [show (s.firingOf t k us ins eff).1.inputs = _ from hin, show (s.firingOf t k us ins eff).1.count = _ from hcount]
    show outTag (s.firingCtx t k us ins).toks _ = _
    rw [htk, hi, hcx]
  · rw [show (s.firingOf t k us ins eff).1.inputs = _ from hin]
    exact hpois
  · intro ho
    rw [← hw]
    exact firedRows_timing hm ho _

end Sys2Proof.Machine
end

section
/-! PROOF. What the firings of the steering unit and of the stream engine hold (R47, R52, R53, R142, R143, R256). -/

namespace Sys2Proof.Machine

variable {s v w : State} {t k opc : Nat} {us : List Upset} {ins : List (Nat × Nat × List Token)}

/-! ### Operations without operands in the Tarn -/

/-- The reads of an operation that needs no word of its tokens keep the ranges (R100). -/
theorem readInputs_none {x : Tile} {draw w : Nat} {toks : List (Nat × Token)} (h : ∀ i n, needWords w i n = 0) :
    readInputs x draw w toks = .none_ := by
  rw [readInputs_eq]
  refine List.foldlRecOn (motive := fun r : Reads => r = .none_) toks _ rfl fun r hr it _ => ?_
  subst hr
  unfold Reads.step
  split
  · dsimp only
    rw [if_pos (by rw [h]; simp)]
  · rfl

theorem readIds_none {x : Tile} {draw w xw : Nat} {regs : Tab Word} {r : Reads} (h : engineOf (opCode w) ≠ some 1) :
    readIds x draw w xw regs r = ([], r) := by
  unfold readIds
  dsimp only
  rw [if_pos (by simp [h])]

/-- The word of the operation that fires. -/
theorem State.firesWith.opcode (h : s.firesWith t k us opc ins) : opCode (((s.tile t).upset us).op k) = opc := h.2.2.2.2.1

theorem Tile.taken_op (x : Tile) (j : Nat) : (x.taken k ins).op j = x.op j := by
  obtain ⟨_, _, _, h⟩ := x.taken_frame k ins
  rw [h]
  rfl

/-- An operation that reads no operand finds its ranges good, and reads nothing that the record holds. -/
theorem State.firingReads_none (h : s.firesWith t k us opc ins) (he : engineOf opc ≠ some 1)
    (hn : ∀ i n, needWords (((s.tile t).upset us).op k) i n = 0) : (s.firingReads t k us ins).2 = true := by
  show (readIds _ _ _ _ _ (readInputs _ _ _ _)).2.ok = true
  rw [readInputs_none, readIds_none]
  · rfl
  · show engineOf (opCode ((((s.tile t).upset us).taken k ins).op k)) ≠ _
    rw [Tile.taken_op, h.opcode]
    exact he
  · intro i n
    show needWords ((((s.tile t).upset us).taken k ins).op k) i n = 0
    rw [Tile.taken_op]
    exact hn i n

theorem needWords_steering {w : Nat} (h : 0x60 ≤ opCode w ∧ opCode w ≤ 0x65 ∨ opCode w = 0x50) (i n : Nat) : needWords w i n = 0 := by
  unfold needWords
  dsimp only
  rw [if_neg (by omega), if_neg (by omega), if_neg (by omega), if_neg (by omega), if_neg (by simp; omega), if_neg (by simp; omega),
    if_neg (by simp; omega)]
  rfl

/-! ### What a firing takes from its effect -/

/-- The fields of a firing that its effect gives. -/
theorem State.makeFiring_effect (c : Ctx) (e : Effect) (rd : ReadRes) (ok : Bool) :
    (s.makeFiring c e rd ok none).1.issue = e.issue ∧ (s.makeFiring c e rd ok none).1.depth = e.depth ∧
      (s.makeFiring c e rd ok none).1.openEnded = e.openEnded ∧ (s.makeFiring c e rd ok none).1.sent = e.sent ∧
      (s.makeFiring c e rd ok none).1.regs = e.regs := ⟨rfl, rfl, rfl, rfl, rfl⟩

/-- Without a fault of its ranges a firing keeps its requests and acknowledgements. -/
theorem State.makeFiring_good {c : Ctx} {e : Effect} {rd : ReadRes} {ok : Bool} (hok : ok = true)
    (hw : writesOk c.x c.w (outBody c.x c.w e).1 e = true) (hf : e.fault = none) :
    (s.makeFiring c e rd ok none).1.acks = e.acks ∧
      (s.makeFiring c e rd ok none).1.pieces = e.pieces.map fun p => { p with poison := p.poison || (s.makeFiring c e rd ok none).1.poison } := by
  subst hok
  unfold State.makeFiring
  dsimp only
  rw [hw, hf]
  exact ⟨rfl, rfl⟩

theorem State.makeFiring_body {c : Ctx} {e : Effect} {rd : ReadRes} {ok : Bool} {b : TokenBody} (hb : e.body = some b) :
    ∀ o ∈ (s.makeFiring c e rd ok none).1.outs, o.2.body = b := by
  intro o ho
  obtain ⟨q, -, rfl⟩ := List.mem_map.1 ho
  show (outBody c.x c.w e).1 = b
  unfold outBody
  rw [hb]

/-! ### The rows of the steering unit -/

/-- What the record leaves at the firing's tile of channels and Summit numbers, and of graphs. -/
theorem State.recorded_tile (h : s.firesWith t k us opc ins) (eff : EffectFn) :
    ((s.recorded t k us ins eff).tile t).run.channels = ((s.tile t).upset us).run.channels ∧
      ((s.recorded t k us ins eff).tile t).run.summits = ((s.tile t).upset us).run.summits ∧
      (s.recorded t k us ins eff).graphs = s.graphs := by
  have ht : ∃ cn te, (s.recorded t k us ins eff).tile t = { s.recordedTile t k us ins eff with cnt := cn, tarnErr := te } := by
    obtain ⟨_, _, _, _, hr⟩ := State.noteRead_clean
      (s := ((s.upsetAt t us).setTile t (s.recordedTile t k us ins eff)).draw) (t := t) (State.firingReads_clean h)
    obtain ⟨_, _, ha⟩ := State.raiseAll_only (s := State.noteRead t (s.firingReads t k us ins).1
      ((s.upsetAt t us).setTile t (s.recordedTile t k us ins eff)).draw) (s.firingOf t k us ins eff).2
    have hz : s.recorded t k us ins eff = _ := ha.trans (by rw [hr])
    rw [hz]
    have h1 (i : Nat) (x y : Tile) (u : State) : ((u.setTile i x).draw.setTile i y).tile i = y := (State.setTile_tile ..).trans (if_pos rfl)
    have h2 (i : Nat) (x : Tile) (u : State) : (u.setTile i x).draw.tile i = x := (State.setTile_tile ..).trans (if_pos rfl)
    rw [h2]
    exact ⟨_, _, h1 _ _ _ _⟩
  obtain ⟨_, _, ht⟩ := ht
  obtain ⟨_, _, _, _, _, _, _, _, hrec⟩ := Tile.record_frame (((s.tile t).upset us).taken k ins) (((s.tile t).upset us).op k) ins
    (s.firingOf t k us ins eff).1
  obtain ⟨_, _, _, hx⟩ := ((s.tile t).upset us).taken_frame k ins
  replace hrec : s.recordedTile t k us ins eff = _ := hrec
  rw [hx] at hrec
  refine ⟨?_, ?_, ?_⟩
  · rw [ht, hrec]
  · rw [ht, hrec]
  · rw [(State.recorded_fired h eff).frame]

theorem State.firingCtx_run (s : State) (t k : Nat) (us : List Upset) (ins : List (Nat × Nat × List Token)) :
    (s.firingCtx t k us ins).x.run.channels = ((s.tile t).upset us).run.channels ∧
      (s.firingCtx t k us ins).x.run.summits = ((s.tile t).upset us).run.summits ∧
      (s.firingCtx t k us ins).x.cfg = ((s.tile t).upset us).cfg := by
  obtain ⟨-, -, -, -, _, _, _, _, _, hx⟩ := s.firingCtx_sees t k us ins
  rw [hx]
  exact ⟨rfl, rfl, rfl⟩

theorem Tile.updChannel_channel (x : Tile) (n m : Nat) (f : Channel → Channel) :
    (x.updChannel n f).channel m = if m = n then f (x.channel n) else x.channel m := Tab.get_upd

section steer
variable (h : s.firesWith t k us opc ins)
include h

/-- `CHSEND` spends a credit of its channel (R52). -/
theorem State.chsend_channel (eff : EffectFn) (f : Firing) (ch : Nat) (hc : ch = (s.firingCtx t k us ins).chan) :
    (((afterChsend (s.firingCtx t k us ins) f (s.recorded t k us ins eff)).tile t).channel ch).credits =
      (((s.tile t).upset us).channel ch).credits - 1 := by
  obtain ⟨h1, -, -⟩ := State.recorded_tile h eff
  subst hc
  rw [afterChsend, (s.firingCtx_sees t k us ins).at_, State.updTile_tile, if_pos rfl]
  rw [Tile.updChannel_channel, if_pos rfl, Tile.channel, h1]
  rfl

/-- `CHRECV` takes the oldest word of its channel (R53). -/
theorem State.chrecv_channel (eff : EffectFn) (f : Firing) (ch : Nat) (hc : ch = (s.firingCtx t k us ins).chan) :
    (((afterChrecv (s.firingCtx t k us ins) f (s.recorded t k us ins eff)).tile t).channel ch).recv =
      (((s.tile t).upset us).channel ch).recv.drop 1 := by
  obtain ⟨h1, -, -⟩ := State.recorded_tile h eff
  subst hc
  have hv : (((State.updTile (s.recorded t k us ins eff) (s.firingCtx t k us ins).t fun x => x.updChannel (s.firingCtx t k us ins).chan
      fun h => { h with recv := h.recv.drop 1 }).tile t).channel (s.firingCtx t k us ins).chan).recv =
      (((s.tile t).upset us).channel (s.firingCtx t k us ins).chan).recv.drop 1 := by
    rw [(s.firingCtx_sees t k us ins).at_, State.updTile_tile, if_pos rfl]
    rw [Tile.updChannel_channel, if_pos rfl, Tile.channel, h1]
    rfl
  unfold afterChrecv
  dsimp only
  split
  · exact hv
  · refine List.foldlRecOn (motive := fun v : State => ((v.tile t).channel (s.firingCtx t k us ins).chan).recv =
      (((s.tile t).upset us).channel (s.firingCtx t k us ins).chan).recv.drop 1) _ _ hv fun v hw i _ => ?_
    rw [State.updTile_tile]
    split
    · next h =>
      subst h
      refine Eq.trans ?_ hw
      rw [Tile.updChannel_channel]
      split
      · next h => rw [h]
      · rfl
    · exact hw

end steer

/-- `SUMMIT` uses up the sequence number of its Bunting (R256). -/
theorem State.summit_number (h : s.firesWith t k us 0x65 ins) (eff : EffectFn) (f : Firing) (b : Nat)
    (hb : b = (s.firingCtx t k us ins).summitBunting (s.upsetAt t us)) :
    Tab.get 0 ((afterSummit (s.firingCtx t k us ins) f (s.recorded t k us ins eff)).tile t).run.summits b =
      Tab.get 0 ((s.tile t).upset us).run.summits b + 1 := by
  obtain ⟨-, h1, hg⟩ := State.recorded_tile h eff
  have hs : b = (s.firingCtx t k us ins).summitBunting (s.recorded t k us ins eff) := by
    rw [hb]
    unfold Ctx.summitBunting Ctx.graph State.graph?
    rw [hg]
    rfl
  have ha (v : State) (i m j : Nat) : (v.sendArrive i m j).tile t = v.tile t := by
    unfold State.sendArrive
    split <;> rfl
  have hv : Tab.get 0 ((State.updTile (s.recorded t k us ins eff) (s.firingCtx t k us ins).t fun x => x.updRun fun r =>
      { r with summits := Tab.upd 0 b (· + 1) r.summits }).tile t).run.summits b = Tab.get 0 ((s.tile t).upset us).run.summits b + 1 := by
    rw [(s.firingCtx_sees t k us ins).at_, State.updTile_tile, if_pos rfl]
    refine (Tab.get_upd_same (d := 0) (f := (· + 1))).trans ?_
    rw [h1]
  unfold afterSummit
  dsimp only
  rw [← hs]
  split
  · exact hv
  · rw [ha]; exact hv

/-- A firing of a row and what it leaves, for a row's own claims. -/
theorem State.fires_effect {c : Instr} {eff : EffectFn} (hm : (c, opc, eff) ∈ firedRows t k us) (h : s.firesWith t k us opc ins) :
    ∃ z, exec c s = .next z ∧ z = afterOf opc (s.firingCtx t k us ins) (s.firingOf t k us ins eff).1 (s.recorded t k us ins eff) ∧
      (s.firingOf t k us ins eff).1 ∈ (z.tile t).run.flights ∧ (s.firingOf t k us ins eff).1.index = k := by
  obtain ⟨hx, hb⟩ := State.fires_row hm h
  exact ⟨_, hx, rfl, ((State.recorded_fired h eff).beside hb).flights, rfl⟩

/-- Settles O37: the effect of each row, and what it does besides at its tile. -/
theorem steeringResults : Obligations.SteeringResults := by
  intro s t k us ins x c hx hc
  subst hx hc
  obtain ⟨-, -, hw, -, -⟩ := s.firingCtx_sees t k us ins
  obtain ⟨hch, hsu, hcfg⟩ := s.firingCtx_run t k us ins
  refine ⟨fun h => ?_, fun h r ws hr => ?_, fun h => ?_, fun h hf => ?_, fun h => ?_, fun h => ?_⟩
  · obtain ⟨z, hx, hz, hfl, hi⟩ := State.fires_effect (c := .chsend t k us) (eff := effChsend) (by simp [firedRows]) h
    refine ⟨z, _, hx, hfl, hi, ?_, rfl, rfl, ?_⟩
    · rw [← hw]; rfl
    · rw [hz]
      exact State.chsend_channel h effChsend (s.firingOf t k us ins effChsend).1 _ (by rw [← hw]; rfl)
  · obtain ⟨z, hx, hz, hfl, hi⟩ := State.fires_effect (c := .chrecv t k us) (eff := effChrecv) (by simp [firedRows]) h
    refine ⟨z, _, hx, hfl, hi, ?_, ?_, rfl, rfl⟩
    · have hrecv : ((s.firingCtx t k us ins).x.channel (s.firingCtx t k us ins).chan).recv = r :: ws := by
        rw [← hr, Tile.channel, hch, ← hw]
        rfl
      show [(bits (s.firingCtx t k us ins).w 80 5, ((((s.firingCtx t k us ins).x.channel (s.firingCtx t k us ins).chan).recv.head?).getD 0))] = _
      rw [hrecv, hw]
      rfl
    · rw [hz]
      refine (State.chrecv_channel h effChrecv (s.firingOf t k us ins effChrecv).1 _ (by rw [← hw]; rfl)).trans ?_
      rw [hr]
      rfl
  · obtain ⟨z, hx, hz, hfl, hi⟩ := State.fires_effect (c := .chpoll t k us) (eff := effChpoll) (by simp [firedRows]) h
    refine ⟨z, _, hx, hfl, hi, ?_, rfl, rfl⟩
    show [(bits (s.firingCtx t k us ins).w 80 5, (s.firingCtx t k us ins).x.chReady),
      (bits (s.firingCtx t k us ins).w 75 5, (s.firingCtx t k us ins).x.chSpace)] = _
    unfold Tile.chReady Tile.chSpace Tile.channel
    rw [hch, hcfg, hw]
  · obtain ⟨z, hx, hz, hfl, hi⟩ := State.fires_effect (c := .scalc t k us) (eff := effScalc) (by simp [firedRows]) h
    have he : effScalc (s.firingCtx t k us ins) (s.upsetAt t us) = { Effect.steer with regs := [(bits (s.firingCtx t k us ins).w 80 5,
        scalar (bits (s.firingCtx t k us ins).w 85 4) (s.firingCtx t k us ins).sa (s.firingCtx t k us ins).sb)] } := by
      unfold effScalc
      rw [hw]
      dsimp only
      rw [if_neg (by simp; omega)]
    obtain ⟨h1, h2, -, -, h5⟩ := State.makeFiring_effect (s := s.upsetAt t us) (s.firingCtx t k us ins)
      (effScalc (s.firingCtx t k us ins) (s.upsetAt t us)) (s.firingReads t k us ins).1 (s.firingReads t k us ins).2
    refine ⟨z, _, hx, hfl, hi, h1.trans (by rw [he]; rfl), h2.trans (by rw [he]; rfl), h5.trans ?_⟩
    rw [he, ← hw]
    rfl
  · obtain ⟨z, hx, hz, hfl, hi⟩ := State.fires_effect (c := .psend t k us) (eff := effPsend) (by simp [firedRows]) h
    refine ⟨z, _, hx, hfl, hi, fun o ho => ?_, rfl, rfl⟩
    rw [← hw]
    exact State.makeFiring_body (e := effPsend (s.firingCtx t k us ins) (s.upsetAt t us)) rfl o ho
  · obtain ⟨z, hx, hz, hfl, hi⟩ := State.fires_effect (c := .summit t k us) (eff := effSummit) (by simp [firedRows]) h
    refine ⟨z, _, _, hx, hfl, hi, rfl, ?_, ?_, rfl, ?_⟩
    · show [BitVec.ofNat 64 (Tab.get 0 (s.firingCtx t k us ins).x.run.summits _ % 2 ^ 16)] = _
      rw [hsu]
      rfl
    · have hok := State.firingReads_none h (by decide) fun i n => needWords_steering (.inl (by rw [h.opcode]; decide)) i n
      exact (State.makeFiring_good (e := effSummit (s.firingCtx t k us ins) (s.upsetAt t us)) hok rfl rfl).1
    · rw [hz]
      exact State.summit_number h effSummit (s.firingOf t k us ins effSummit).1 _ rfl

end Sys2Proof.Machine
end

section
/-! PROOF. The requests of the stream engine's loads and stores (R47, R141, R142). -/

namespace Sys2Proof.Machine

variable {s v w : State} {t k opc : Nat} {us : List Upset} {ins : List (Nat × Nat × List Token)}

/-! ### The requests of a transfer -/

/-- What the `i`th request of a transfer within this module is, and the bytes that it carries. -/
structure Piece.Part (kind : PieceKind) (a tarn n i : Nat) (p : Piece) : Prop where
  kind : p.kind = kind
  waiting : p.state = .waiting
  bytes : 0 < p.bytes ∧ p.bytes ≤ 256 ∧ 256 * i + p.bytes ≤ n
  addr : p.addr = (a + 256 * i) % 2 ^ 60
  tarn : p.tarn = tarn + 32 * i

theorem splitPieces_part {kind : PieceKind} {fuel a tarn n i : Nat} {data : List Byte} {p : Piece}
    (h : (splitPieces false kind fuel a tarn n data)[i]? = some p) : p.Part kind a tarn n i := by
  induction fuel generalizing a tarn n data i with
  | zero => simp [splitPieces] at h
  | succ fuel ih =>
    rw [splitPieces] at h
    split at h
    · simp at h
    · next hn =>
      dsimp only at h
      rw [if_neg (by decide)] at h
      cases i with
      | zero =>
        rw [List.getElem?_cons_zero, Option.some.injEq] at h
        subst h
        exact ⟨rfl, rfl, ⟨by show 0 < min n 256; omega, Nat.min_le_right .., by show 256 * 0 + min n 256 ≤ n; omega⟩, rfl, rfl⟩
      | succ i =>
        rw [List.getElem?_cons_succ] at h
        obtain ⟨hk, hw, ⟨h0, h1, h2⟩, ha, ht⟩ := ih h
        have hm : min n 256 = 256 := by omega
        rw [hm] at ha ht h2
        refine ⟨hk, hw, ⟨h0, h1, by omega⟩, ?_, ?_⟩
        · rw [ha]; congr 1; omega
        · rw [ht]; omega

/-- The requests of a transfer move all its bytes. -/
theorem splitPieces_bytes {kind : PieceKind} {fuel a tarn n : Nat} {data : List Byte} (h : n ≤ 256 * fuel) :
    ((splitPieces false kind fuel a tarn n data).map (·.bytes)).sum = n := by
  induction fuel generalizing a tarn n data with
  | zero => exact (Nat.le_zero.1 h).symm
  | succ fuel ih =>
    rw [splitPieces]
    split
    · next hn => rw [hn]; rfl
    · dsimp only
      rw [if_neg (by decide), List.map_cons, List.sum_cons, ih (by omega)]
      show min n 256 + (n - min n 256) = n
      omega

/-- The requests of a transfer carry its data, each as many bytes as it moves. -/
theorem splitPieces_data {kind : PieceKind} {fuel a tarn n : Nat} {data : List Byte} (h : n ≤ 256 * fuel) (hd : data.length = n) :
    (splitPieces false kind fuel a tarn n data).flatMap (·.data) = data ∧
      ∀ p ∈ splitPieces false kind fuel a tarn n data, p.data.length = p.bytes := by
  induction fuel generalizing a tarn n data with
  | zero =>
    rw [Nat.le_zero.1 h, List.length_eq_zero_iff] at hd
    simp [splitPieces, hd]
  | succ fuel ih =>
    rw [splitPieces]
    split
    · next hn =>
      rw [hn, List.length_eq_zero_iff] at hd
      simp [hd]
    · dsimp only
      rw [if_neg (by decide)]
      obtain ⟨h1, h2⟩ := ih (a := a + min n 256) (tarn := tarn + min n 256 / 8) (n := n - min n 256) (data := data.drop (min n 256))
        (by omega) (by rw [List.length_drop, hd])
      refine ⟨by rw [List.flatMap_cons, h1, List.take_append_drop], fun p hp => ?_⟩
      rcases List.mem_cons.1 hp with rfl | hp
      · show (data.take (min n 256)).length = min n 256
        rw [List.length_take, hd]
        omega
      · exact h2 p hp

theorem sumNat_eq (xs : List Nat) : sumNat xs = xs.sum := List.sum_eq_foldl.symm

/-! ### The tokens of a store -/

/-- Every input of an operation other than `XCOMB` takes one token (R25). -/
theorem takeFrom_length {w i : Nat} {pr : Option Nat} {vis ks : List Token} (hw : opCode w ≠ 0x2F) (h : takeFrom w i pr vis = some ks) :
    ks.length = 1 := by
  unfold takeFrom at h
  rw [if_neg (by simp [hw])] at h
  split at h
  · split at h
    · exact nomatch h
    · obtain ⟨_, _, rfl⟩ := Option.map_eq_some_iff.1 h
      rfl
  · obtain ⟨_, _, rfl⟩ := Option.map_eq_some_iff.1 h
    rfl

/-- The inputs whose tokens are taken are those of the word, each once. -/
theorem Tile.takes_inputs (x : Tile) {w : Nat} (hw : opCode w ≠ 0x2F) (l : List (Nat × Nat)) (used : List (Nat × List Token)) :
    (((x.takes w l used).map fun t => (t.1, t.2.1, t.2.2.getD [])).flatMap fun e => e.2.2.map fun _ => e.1).Sublist (l.map (·.1)) := by
  induction l generalizing used with
  | nil => exact List.Sublist.refl _
  | cons iq rest ih =>
    rw [Tile.takes, List.map_cons, List.flatMap_cons, List.map_cons]
    cases hk : takeFrom w iq.1 (x.pairTag w) ((x.visible iq.2).diff ((used.filter (·.1 == iq.2)).flatMap (·.2))) with
    | none => exact (ih _).cons _
    | some ks =>
      obtain ⟨_, rfl⟩ := List.length_eq_one_iff.1 (takeFrom_length hw hk)
      exact (ih _).cons_cons _

theorem inputsOf_nodup (w : Nat) : ((inputsOf w).map (·.1)).Nodup := by
  unfold inputsOf
  rw [List.map_map]
  refine (List.nodup_map_iff fun _ _ h => h).2 ?_
  exact List.nodup_range.filter _

/-- An operation other than `XCOMB` takes at most one token of each input. -/
theorem consumedTokens_nodup {x : Tile} {w : Nat} (hw : opCode w ≠ 0x2F) (h : x.takeAll w = some ins) :
    ((consumedTokens w ins).map (·.1)).Nodup := by
  unfold Tile.takeAll at h
  dsimp only at h
  split at h
  · obtain rfl := Option.some.inj h
    unfold consumedTokens
    rw [List.map_flatMap]
    have hs := (x.takes_inputs hw (inputsOf w) []).nodup (inputsOf_nodup w)
    refine Eq.mpr (congrArg _ (List.flatMap_congr fun e _ => ?_)) hs
    rw [if_neg (by simp [hw]), List.map_map]
    rfl
  · exact nomatch h

/-! ### The words that a store reads -/

/-- An operation that reads words for its first input alone reads those of its first token (R135). -/
theorem readInputs_first {x : Tile} {draw w a n m tag : Nat} {p : Bool} {more : List (Nat × Token)} (hm : needWords w 0 n = m) (h0 : m ≠ 0)
    (hn : ∀ i, i ≠ 0 → ∀ l, needWords w i l = 0) (ht : (0 :: more.map (·.1)).Nodup) (ha : x.rangeOk a m = true) :
    ∃ all, readInputs x draw w ((0, ⟨.data a n, tag, p⟩) :: more) = ⟨[(0, (x.readWords draw a m).words)], all, true, [(a, m)]⟩ := by
  rw [readInputs_eq, List.foldl_cons]
  have h1 : Reads.step x draw w .none_ (0, ⟨.data a n, tag, p⟩) = Reads.none_.add x draw 0 a m := by
    unfold Reads.step
    dsimp only
    rw [hm, if_neg (by simp [h0])]
  refine ⟨(Reads.none_.add x draw 0 a m).all, ?_⟩
  rw [h1]
  refine List.foldlRecOn (motive := fun r : Reads => r = _) more _ ?_ fun r hr it hit => ?_
  · unfold Reads.add
    rw [if_pos ha]
    rfl
  · subst hr
    have hi : it.1 ≠ 0 := fun h => (List.nodup_cons.1 ht).1 (List.mem_map.2 ⟨it, hit, h⟩)
    unfold Reads.step
    split
    · dsimp only
      rw [if_pos (by rw [hn _ hi]; simp)]
    · rfl

theorem needWords_store {w : Nat} (h : opCode w = 0x51) (i n : Nat) : needWords w i n = if i = 0 then streamBytes w / 8 else 0 := by
  unfold needWords
  dsimp only
  rw [h, if_neg (by decide), if_neg (by decide), if_neg (by decide), if_neg (by decide), if_neg (by decide), if_pos (by decide)]
  unfold ceilDiv streamBytes
  split
  · omega
  · rfl

theorem Tile.upset_taken_clean (h : s.firesWith t k us opc ins) : (((s.tile t).upset us).taken k ins).Clean := by
  obtain ⟨-, -, -, -, -, -, -, hw⟩ := h
  obtain ⟨_, _, _, hx⟩ := ((s.tile t).upset us).taken_frame k ins
  rw [hx]
  exact hw

/-- What an operation without row identifiers reads is what its tokens name (R91, R135). -/
theorem State.firing_reads (h : s.firesWith t k us opc ins) (he : engineOf opc ≠ some 1) {z : Reads}
    (hz : readInputs (s.firingCtx t k us ins).x (s.upsetAt t us).draws (((s.tile t).upset us).op k)
      (consumedTokens (((s.tile t).upset us).op k) ins) = z) :
    (s.firingReads t k us ins).2 = z.ok ∧ (s.firingCtx t k us ins).data0 = (z.res.filter (·.1 == 0)).map fun d => wordBytes d.2 := by
  have hop : (((s.tile t).upset us).taken k ins).op k = ((s.tile t).upset us).op k := Tile.taken_op _ _
  have hids (xw : Nat) (regs : Tab Word) : readIds (s.firingCtx t k us ins).x (s.upsetAt t us).draws ((((s.tile t).upset us).taken k ins).op k) xw regs
      (readInputs (s.firingCtx t k us ins).x (s.upsetAt t us).draws ((((s.tile t).upset us).taken k ins).op k)
        (consumedTokens (((s.tile t).upset us).op k) ins)) = ([], z) := by
    rw [readIds_none (by rw [hop, h.opcode]; exact he), hop, hz]
  exact ⟨congrArg (fun r : List Nat × Reads => r.2.ok) (hids _ _),
    congrArg (fun r : List Nat × Reads => (r.2.res.filter fun d : Nat × List Word => d.1 == 0).map fun d : Nat × List Word => wordBytes d.2)
      (hids _ _)⟩

/-- A store reads the words that its token names, as they stand where it reads them (R103, R141). -/
theorem State.firing_store (h : s.firesWith t k us 0x51 ins) {a n tag : Nat} {p : Bool} {more : List (Nat × Token)}
    (ht : consumedTokens (((s.tile t).upset us).op k) ins = (0, ⟨.data a n, tag, p⟩) :: more)
    (hr : ((s.tile t).upset us).rangeOk a (streamBytes (((s.tile t).upset us).op k) / 8) = true) :
    (s.firingReads t k us ins).2 = true ∧ (s.firingCtx t k us ins).a = wordBytes
      ((List.range (streamBytes (((s.tile t).upset us).op k) / 8)).map fun i => (Tab.get .zero (s.firingCtx t k us ins).x.tarn (a + i)).data) := by
  obtain ⟨-, -, hw, -, _, _, _, _, _, hx⟩ := s.firingCtx_sees t k us ins
  have hop := h.opcode
  have hi := h.2.2.2.2.2.2.1
  have hnd := consumedTokens_nodup (by rw [hop]; decide) hi
  have hcl : (s.firingCtx t k us ins).x.Clean :=
    (State.context_x (s := s.upsetAt t us) (t := t) (k := k) _ _ _).2 (Tile.upset_taken_clean h)
  generalize hW : ((s.tile t).upset us).op k = W at *
  rw [ht] at hnd
  have hpos : streamBytes W / 8 ≠ 0 := by unfold streamBytes; omega
  have hr' : (s.firingCtx t k us ins).x.rangeOk a (streamBytes W / 8) = true := by rw [hx]; exact hr
  obtain ⟨all, hread⟩ := readInputs_first (x := (s.firingCtx t k us ins).x) (draw := (s.upsetAt t us).draws) (w := W) (a := a) (n := n)
    (tag := tag) (p := p) (more := more) ((needWords_store hop 0 n).trans (if_pos rfl)) hpos
    (fun i hi l => (needWords_store hop i l).trans (if_neg hi)) hnd hr'
  rw [Tile.readWords_words hcl, ← ht, ← hW] at hread
  obtain ⟨h1, h2⟩ := State.firing_reads h (by decide) hread
  refine ⟨h1, ?_⟩
  rw [Ctx.a, h2, hW]
  rfl

/-! ### The rows -/

theorem wordBytes_length (ws : List Word) : (wordBytes ws).length = 8 * ws.length := by
  unfold wordBytes
  induction ws with
  | nil => rfl
  | cons w ws ih => rw [List.flatMap_cons, List.length_append, ih, toLe_length, List.length_cons]; omega

theorem transfer_bytes (kind : PieceKind) (a tarn n : Nat) (data : List Byte) :
    ((transfer false kind a tarn n data).map (·.bytes)).sum = n := splitPieces_bytes (by omega)

/-- Settles O38: the requests of a transfer, and the words that a store reads. -/
theorem streamRequests : Obligations.StreamRequests := by
  intro s t k us ins x c a hx hc ha hfar hok ha60
  obtain ⟨-, -, hw, htok, qs, cs, sr, tn, pb, hcx⟩ := s.firingCtx_sees t k us ins
  replace ha : a = (s.firingCtx t k us ins).addr (s.upsetAt t us) := by rw [ha, hc]; rfl
  have hfar' : (s.upsetAt t us).isFar a = false := hfar
  have hok' : (s.upsetAt t us).addrOk a (streamBytes (x.op k)) = true := hok
  rw [← hx] at hw htok hcx
  refine ⟨fun h h101 he hwin => ?_, fun h b n tag more hct hr hb => ?_⟩
  · obtain ⟨z, hx', hz, hfl, hi⟩ := State.fires_effect (c := .sload t k us) (eff := effSload) (by simp [firedRows]) h
    have heff : effSload (s.firingCtx t k us ins) (s.upsetAt t us) = { Effect.plane (streamBytes (x.op k)) with
        place := some (none, streamBytes (x.op k) / 8), pieces := transfer false .read a c.entry (streamBytes (x.op k)) [] } := by
      unfold effSload
      dsimp only
      rw [← ha, hw, ← hc, if_neg (by simp [h101]), if_pos (by simp [State.moveOk, hok', he]), hfar']
    have hwr : writesOk (s.firingCtx t k us ins).x (s.firingCtx t k us ins).w (outBody (s.firingCtx t k us ins).x (s.firingCtx t k us ins).w
        (effSload (s.firingCtx t k us ins) (s.upsetAt t us))).1 (effSload (s.firingCtx t k us ins) (s.upsetAt t us)) = true := by
      have h58 : opCode (x.op k) ≠ 0x58 := by rw [hx, h.opcode]; decide
      have hwi : (s.firingCtx t k us ins).x.window = x.window := by rw [hcx]; rfl
      rw [heff]
      show (if opCode (s.firingCtx t k us ins).w = 0x58 then _ else decide (_ ≤ _)) = true
      rw [hw, if_neg h58, decide_eq_true_eq, hwi]
      rw [hc, Ctx.entry, hw] at hwin
      exact hwin
    have hrd := State.firingReads_none h (by decide) fun i n => needWords_steering (.inr h.opcode) i n
    obtain ⟨-, hp⟩ := State.makeFiring_good (s := s.upsetAt t us) (rd := (s.firingReads t k us ins).1) hrd hwr (by rw [heff]; rfl)
    have hop := congrArg Effect.openEnded heff
    have hpc := hp.trans (congrArg (fun e : Effect => e.pieces.map _) heff)
    refine ⟨z, _, hx', hfl, hi, hop, ?_, fun i p hip => ?_⟩
    · rw [show (s.firingOf t k us ins effSload).1.pieces = _ from hpc, sumNat_eq, List.map_map]
      exact transfer_bytes .read a c.entry (streamBytes (x.op k)) []
    · rw [show (s.firingOf t k us ins effSload).1.pieces = _ from hpc, List.getElem?_map] at hip
      obtain ⟨q, hq, rfl⟩ := Option.map_eq_some_iff.1 hip
      obtain ⟨hk, hwt, ⟨h0, h1, h2⟩, haddr, htn⟩ := splitPieces_part hq
      exact ⟨hk, hwt, h0, h1, haddr.trans (Nat.mod_eq_of_lt (by omega)), htn⟩
  · subst hx
    obtain ⟨z, hx', hz, hfl, hi⟩ := State.fires_effect (c := .sstore t k us) (eff := effSstore) (by simp [firedRows]) h
    obtain ⟨hrd, hca⟩ := State.firing_store h hct hr
    have hfrom : (s.firingCtx t k us ins).from0 = b := by
      unfold Ctx.from0 Ctx.tok
      rw [htok, hct]
      rfl
    have heff : effSstore (s.firingCtx t k us ins) (s.upsetAt t us) = { Effect.plane (streamBytes (((s.tile t).upset us).op k)) with
        pieces := transfer false .write a 0 (streamBytes (((s.tile t).upset us).op k)) (s.firingCtx t k us ins).a } := by
      unfold effSstore
      dsimp only
      rw [← ha, hw, if_pos (by simp [State.moveOk, hok', hfrom, hb]), hfar']
    obtain ⟨-, hp⟩ := State.makeFiring_good (s := s.upsetAt t us) (c := s.firingCtx t k us ins)
      (e := effSstore (s.firingCtx t k us ins) (s.upsetAt t us)) (rd := (s.firingReads t k us ins).1) hrd (by rw [heff]; rfl) (by rw [heff]; rfl)
    have hop := congrArg Effect.openEnded heff
    have hpc := hp.trans (congrArg (fun e : Effect => e.pieces.map _) heff)
    have hlen : (s.firingCtx t k us ins).a.length = streamBytes (((s.tile t).upset us).op k) := by
      rw [hca, wordBytes_length, List.length_map, List.length_range]
      unfold streamBytes
      omega
    obtain ⟨hd, hl⟩ := splitPieces_data (kind := .write) (fuel := streamBytes (((s.tile t).upset us).op k) / 256 + 2) (a := a) (tarn := 0)
      (by omega) hlen
    refine ⟨z, _, hx', hfl, hi, hop, ?_, fun i p hip => ?_⟩
    · rw [show (s.firingOf t k us ins effSstore).1.pieces = _ from hpc, List.flatMap_map, hc]
      exact hd.trans hca
    · rw [show (s.firingOf t k us ins effSstore).1.pieces = _ from hpc, List.getElem?_map] at hip
      obtain ⟨q, hq, rfl⟩ := Option.map_eq_some_iff.1 hip
      obtain ⟨hk, hwt, ⟨h0, h1, h2⟩, haddr, -⟩ := splitPieces_part hq
      exact ⟨hk, hwt, h0, h1, hl q (List.mem_of_getElem? hq), haddr.trans (Nat.mod_eq_of_lt (by omega))⟩

end Sys2Proof.Machine
end

section
/-! PROOF. The Tarn's rows: clearing, patrol, side reads and staging (R109 to R123, R173). -/

namespace Sys2Proof.Machine

variable {s v w : State} {t i : Nat} {us : List Upset}

/-! ### Clearing -/

theorem State.retryCopies_asked (h : ∀ j ∈ s.mem.copies, j.asked = true) : s.retryCopies = s := by
  rw [State.retryCopies, List.filter_eq_nil_iff.2 fun j hj => by simp [h j hj]]
  rfl

/-- Words written from outside a tile's firings change its Tarn, patrol's list and the changes that others may read beside (R23). -/
theorem Tile.stageWords_frame (x : Tile) (ws : List (Nat × List Byte × Bool)) : ∃ tn pb ch, ws.foldl Tile.stageWords x =
    { x with tarn := tn, patrolBack := pb, run := { x.run with changes := ch } } := by
  refine List.foldlRecOn (motive := fun y : Tile => ∃ tn pb ch, y = { x with tarn := tn, patrolBack := pb, run := { x.run with changes := ch } })
    ws _ ⟨_, _, _, rfl⟩ fun y hy _ _ => ?_
  obtain ⟨_, _, _, rfl⟩ := hy
  exact ⟨_, _, _, rfl⟩

theorem State.stagedOn_tile (h : (s.tile t).stageReady = true) : (s.stagedOn t).tile t =
    { (s.tile t).staging.foldl Tile.stageWords (s.tile t) with staging := [] } := by
  rw [State.stagedOn, if_pos h, State.completeStaging_tile, State.updTile_tile, if_pos rfl]

/-- The tile whose clearing has ended (R109). -/
def Tile.cleared (x : Tile) : Tile := { x.clear with clearing := false, cycle := x.cycle + 24576 }

theorem State.tarnClearDone_exec (hs : s.inService = true) (ht : t < 320) (hc : (s.tile t).clearing = true)
    (hp : (s.tile t).tarnPower = .active) (ha : ∀ j ∈ s.mem.copies, j.asked = true) :
    exec (.tarnClearDone t) s = .next (State.stagedOn t (s.updTile t Tile.cleared)) := by
  show execTarnClearDone t s = _
  rw [execTarnClearDone, State.onLive_next]
  refine ⟨by simpa using ht, ?_⟩
  rw [if_pos hs, if_pos (by rw [hc, hp]; rfl), State.retryCopies_asked]
  · rfl
  · rw [State.stagedOn_copies]
    exact ha

theorem State.stagedOn_fields (s : State) (t : Nat) : ((s.stagedOn t).tile t).clearing = (s.tile t).clearing ∧
    ((s.stagedOn t).tile t).cycle = (s.tile t).cycle ∧
    s.stagedOn t = { s with tiles := (s.stagedOn t).tiles, mem := { s.mem with stagingDone := (s.stagedOn t).mem.stagingDone } } := by
  by_cases h : (s.tile t).stageReady = true
  · obtain ⟨_, _, _, hf⟩ := (s.tile t).stageWords_frame (s.tile t).staging
    refine ⟨?_, ?_, by rw [State.stagedOn, if_pos h]; rfl⟩
    · rw [State.stagedOn_tile h, hf]
    · rw [State.stagedOn_tile h, hf]
  · rw [State.stagedOn, if_neg h]
    exact ⟨rfl, rfl, rfl⟩

/-- A staging write that waited stands in the Tarn once the tile is ready for it, and completes (R123). -/
theorem State.stagedOn_one {off : Nat} {bs : List Byte} {p : Bool} (h : (s.tile t).stageReady = true) (hg : (s.tile t).staging = [(off, bs, p)]) :
    ((s.stagedOn t).tile t).staging = [] ∧
      (s.stagedOn t).mem.stagingDone = s.mem.stagingDone ++ [(2 ^ 59 + s.fabric.id * 2 ^ 44 + t * 2 ^ 23 + off, stOk)] ∧
      ∀ i w, (bytesToWords bs)[i]? = some w → Tab.get .zero ((s.stagedOn t).tile t).tarn (off / 8 + i) = ⟨w, 0, p⟩ := by
  refine ⟨by rw [State.stagedOn_tile h], ?_, fun i w hi => ?_⟩
  · rw [State.stagedOn, if_pos h, hg]
    rfl
  · rw [State.stagedOn_tile h, hg]
    exact Tile.writeBeside_tarn _ _ _ _ hi

/-! ### Patrol -/

/-- A tile put twice, with a draw, counts and reports (R111, R115). -/
theorem State.putTwice_row (x y : Tile) (k : Host_) (l : Ledger) (f : Tile → Tile) :
    ∃ ts, ({ (((s.updTile t f).setTile t x).draw).setTile t y with host := k, ledger := l } : State) =
      { s with tiles := ts, ledger := l, host := k, draws := s.draws + 1 } ∧
      Tab.get .reset ts t = y ∧ ∀ v, v ≠ t → Tab.get .reset ts v = s.tile v := by
  have hother (v : State) (z : Tile) {i : Nat} (hi : i ≠ t) : (v.setTile t z).tile i = v.tile i := (State.setTile_tile ..).trans (if_neg hi)
  generalize hv : (s.updTile t f).setTile t x = v
  refine ⟨(v.draw.setTile t y).tiles, ?_, (State.setTile_tile ..).trans (if_pos rfl), fun i hi => ?_⟩
  · obtain ⟨ts, rfl⟩ : ∃ ts, v = { s with tiles := ts } := ⟨_, hv.symm⟩
    rfl
  · have h1 : v.draw.tile i = v.tile i := rfl
    refine (hother v.draw y hi).trans (h1.trans ?_)
    rw [← hv]
    exact (hother _ x hi).trans (hother _ _ hi)

section patrol
variable {x : Tile}

/-- A read of words without a wrong bit corrects none (R111). -/
theorem Tile.correctedWords_clean (h : x.Clean) (a n : Nat) : x.correctedWords a n = [] := by
  refine List.filterMap_eq_nil_iff.2 fun i _ => ?_
  dsimp only
  rw [if_neg]
  unfold readKind
  split
  · exact nofun
  · rw [if_pos (h _)]
    exact nofun

/-- Words written back take their corrected values, and patrol forgets them (R115, R116). -/
theorem Tile.writeBack_spec (l : List (Nat × Word)) (hn : (l.map (·.1)).Nodup) (x : Tile) : ∃ tn,
    l.foldl (fun y p => y.writeWords p.1 [p.2] false) x = { x with
      tarn := tn, patrolBack := x.patrolBack.filter fun q => !(l.map (·.1)).contains q.1 } ∧
      (∀ p ∈ l, Tab.get .zero tn p.1 = ⟨p.2, 0, false⟩) ∧ ∀ a, a ∉ l.map (·.1) → Tab.get .zero tn a = Tab.get .zero x.tarn a := by
  induction l generalizing x with
  | nil => exact ⟨x.tarn, by simp, ⟨nofun, fun _ _ => rfl⟩⟩
  | cons p l ih =>
    rw [List.map_cons, List.nodup_cons] at hn
    obtain ⟨tn, hf, hin, hout⟩ := ih hn.2 (x.writeWords p.1 [p.2] false)
    have hone (a : Nat) : Tab.get .zero (x.writeWords p.1 [p.2] false).tarn a = if a = p.1 then ⟨p.2, 0, false⟩ else Tab.get .zero x.tarn a :=
      Tab.get_put
    refine ⟨tn, ?_, fun q hq => ?_, fun a ha => ?_⟩
    · rw [List.foldl_cons, hf]
      have hp : (x.writeWords p.1 [p.2] false).patrolBack.filter (fun q => !(l.map (·.1)).contains q.1) =
          x.patrolBack.filter fun q => !((p :: l).map (·.1)).contains q.1 := by
        show (x.patrolBack.filter _).filter _ = _
        rw [List.filter_filter]
        refine List.filter_congr fun q _ => ?_
        rw [Bool.eq_iff_iff]
        simp only [List.map_cons, List.contains_cons, List.length_singleton, Bool.and_eq_true, Bool.not_eq_true', Bool.or_eq_false_iff,
          beq_eq_false_iff_ne, Bool.and_eq_false_iff, decide_eq_false_iff_not]
        constructor
        · exact fun h => ⟨by omega, h.1⟩
        · exact fun h => ⟨h.2, by omega⟩
      rw [hp]
      rfl
    · rcases List.mem_cons.1 hq with rfl | hq
      · rw [hout _ hn.1, hone, if_pos rfl]
      · exact hin q hq
    · rw [List.map_cons, List.mem_cons, not_or] at ha
      rw [hout a ha.2, hone, if_neg ha.1]

end patrol

theorem State.tarnPatrolRead_exec (hs : s.inService = true) (ht : t < 320) (hp : ((s.tile t).upset us).tarnPower = .active)
    (hst : ((s.tile t).upset us).steeringAccess = false)
    (hturn : ((s.tile t).upset us).patrolTurn = 0 ∨ ((s.tile t).upset us).patrolTurn + 64 ≤ ((s.tile t).upset us).cycle / 8 + 1)
    (hc : ((s.tile t).upset us).Clean) (hb : ((s.tile t).upset us).patrolBack = []) :
    ∃ z cn te, exec (.tarnPatrolRead t us) s = .next z ∧ z.tile t = { (s.tile t).upset us with
      patrolRow := (((s.tile t).upset us).patrolRow + 1) % 3072, patrolTurn := ((s.tile t).upset us).cycle / 8 + 1, cnt := cn, tarnErr := te } ∧
      (∀ v, v ≠ t → z.tile v = s.tile v) ∧ z = { s with tiles := z.tiles, ledger := z.ledger, host := z.host, draws := s.draws + 1 } := by
  have hx : (s.updTile t (·.upset us)).tile t = (s.tile t).upset us := s.upsetAt_tile t us
  have hcond : (((s.tile t).upset us).tarnPower != TarnPower.active || ((s.tile t).upset us).steeringAccess ||
      (((s.tile t).upset us).patrolTurn != 0 && decide (((s.tile t).upset us).cycle / 8 + 1 < ((s.tile t).upset us).patrolTurn + 64)) ||
      !((s.tile t).upset us).patrolBack.isEmpty) = false := by
    rw [hp, hst, hb]
    rcases hturn with h | h
    · rw [h]; rfl
    · simp [Nat.not_lt.2 h]
  have hr := Tile.readWords_clean hc (s.updTile t (·.upset us)).draws (((s.tile t).upset us).patrolRow * 256) 256
  have hcw := Tile.correctedWords_clean hc (((s.tile t).upset us).patrolRow * 256) 256
  have hex : exec (.tarnPatrolRead t us) s = .next (State.noteRead t (((s.tile t).upset us).readWords (s.updTile t (·.upset us)).draws
      (((s.tile t).upset us).patrolRow * 256) 256) ((s.updTile t (·.upset us)).setTile t { (s.tile t).upset us with
        patrolRow := (((s.tile t).upset us).patrolRow + 1) % 3072, patrolTurn := ((s.tile t).upset us).cycle / 8 + 1 }).draw) := by
    show execTarnPatrolRead t us s = _
    rw [execTarnPatrolRead, State.onLive_next]
    refine ⟨by simpa using ht, ?_⟩
    rw [if_pos hs]
    dsimp only
    rw [hx, hcond, if_neg (by decide), hcw, List.append_nil]
  generalize ((s.tile t).upset us).readWords (s.updTile t (·.upset us)).draws (((s.tile t).upset us).patrolRow * 256) 256 = r at hr hex
  obtain ⟨cn, te, k, l, hn⟩ := State.noteRead_clean (s := ((s.updTile t (·.upset us)).setTile t { (s.tile t).upset us with
    patrolRow := (((s.tile t).upset us).patrolRow + 1) % 3072, patrolTurn := ((s.tile t).upset us).cycle / 8 + 1 }).draw) (t := t) hr
  have htt (v : State) (x : Tile) : (v.setTile t x).draw.tile t = x := (State.setTile_tile ..).trans (if_pos rfl)
  rw [htt] at hn
  obtain ⟨ts, hz, hy, ho⟩ := State.putTwice_row (s := s) (t := t) (f := (·.upset us)) { (s.tile t).upset us with
    patrolRow := (((s.tile t).upset us).patrolRow + 1) % 3072, patrolTurn := ((s.tile t).upset us).cycle / 8 + 1 } { (s.tile t).upset us with
    patrolRow := (((s.tile t).upset us).patrolRow + 1) % 3072, patrolTurn := ((s.tile t).upset us).cycle / 8 + 1, cnt := cn, tarnErr := te } k l
  exact ⟨_, cn, te, hex.trans (congrArg _ (hn.trans hz)), hy, ho, rfl⟩

theorem State.tarnPatrolWriteBack_exec (hs : s.inService = true) (ht : t < 320) (hp : (s.tile t).tarnPower = .active)
    (hst : (s.tile t).steeringAccess = false) (hturn : (s.tile t).patrolTurn < (s.tile t).cycle / 8 + 1) :
    exec (.tarnPatrolWriteBack t) s = .next (s.setTile t ((s.tile t).patrolBack.foldl (fun y p => y.writeWords p.1 [p.2] false) (s.tile t))) := by
  show execTarnPatrolWriteBack t s = _
  rw [execTarnPatrolWriteBack, State.onLive_next]
  refine ⟨by simpa using ht, ?_⟩
  rw [if_pos hs]
  dsimp only
  rw [hp, hst, if_neg (by simp; omega)]

/-! ### Side reads -/

theorem Tile.upset_keeps (x : Tile) (us : List Upset) : ∃ tn, x.upset us = { x with tarn := tn } := by
  unfold Tile.upset
  refine List.foldlRecOn (motive := fun y : Tile => ∃ tn, y = { x with tarn := tn }) us _ ⟨_, rfl⟩ fun y hy u _ => ?_
  obtain ⟨_, rfl⟩ := hy
  split
  · exact ⟨_, rfl⟩
  · exact ⟨_, rfl⟩

/-- One word read, where its code vouches for it (R110, R111). -/
theorem Tile.readWords_one {x : Tile} {draw a : Nat} {v : TarnWord} (hv : Tab.get .zero x.tarn a = v) :
    (readKind (decide (x.window ≤ a)) v = .good ∨ readKind (decide (x.window ≤ a)) v = .corrected →
      (x.readWords draw a 1).words = [v.data] ∧ (x.readWords draw a 1).poisoned = false) ∧
    (readKind (decide (x.window ≤ a)) v = .stored ∨ readKind (decide (x.window ≤ a)) v = .uncorrectable →
      (x.readWords draw a 1).words = [v.data] ∧ (x.readWords draw a 1).poisoned = true) := by
  rw [Tile.readWords, hv]
  constructor <;> rintro (h | h) <;> rw [h] <;> exact ⟨rfl, rfl⟩

theorem leNat_toLe (n v : Nat) : leNat (toLe n v) = v % 256 ^ n := by
  induction n generalizing v with
  | zero => rw [pow_zero, Nat.mod_one]; rfl
  | succ n ih =>
    rw [toLe, leNat, ih, BitVec.toNat_ofNat, pow_succ' 256 n]
    show v % 256 + _ = v % (256 * 256 ^ n)
    exact (Nat.mod_mul (x := v) (a := 256) (b := 256 ^ n)).symm

theorem field_flatMap {n k i : Nat} {f : Nat → Nat} (hi : i < n) (r : List Byte) :
    field (((List.range n).flatMap fun j => toLe k (f j)) ++ r) (k * i) k = f i % 256 ^ k := by
  induction n generalizing i f r with
  | zero => omega
  | succ n ih =>
    rw [List.range_succ_eq_map, List.flatMap_cons, List.flatMap_map, List.append_assoc]
    cases i with
    | zero =>
      rw [Nat.mul_zero, field, List.drop_zero, List.take_append_of_le_length (by simp), List.take_of_length_le (by simp), leNat_toLe]
    | succ i =>
      rw [field, Nat.mul_succ, Nat.add_comm, ← List.drop_drop, List.drop_append_of_le_length (by simp),
        show (toLe k (f 0)).drop k = [] from List.drop_of_length_le (by simp), List.nil_append]
      exact ih (f := fun j => f (j + 1)) (by omega) r

section side
variable (ht : t < 320)
include ht

theorem State.sideRead_tarn {a p : Nat} {w : Word} (ha : a < tarnWords) (hp : (s.tile t).tarnPower ≠ .off)
    (hr : (((s.tile t).upset us).readWords s.draws a 1).words = [w])
    (hq : (((s.tile t).upset us).readWords s.draws a 1).poisoned = decide (p = 1)) (h01 : p = 0 ∨ p = 1) :
    exec (.sideRead t .tarn a us) s =
      .next { s.updTile t (·.upset us) with rd := w.toNat, rdBytes := [BitVec.ofNat 8 p], draws := s.draws + 1 } := by
  show execSideRead t .tarn a us s = _
  unfold execSideRead
  dsimp only
  have hx : (s.updTile t (·.upset us)).tile t = (s.tile t).upset us := s.upsetAt_tile t us
  obtain ⟨_, hu⟩ := (s.tile t).upset_keeps us
  rw [onUnit, if_pos (by simp [ht, ha]), hx, if_neg (by rw [hu]; exact hp)]
  rw [State.sideWords, hx, show (s.updTile t (·.upset us)).draws = s.draws from rfl, hr, hq]
  rcases h01 with rfl | rfl
  · rfl
  · rfl

theorem State.sideRead_opStore {a : Nat} (ha : a < 16384) : exec (.sideRead t .opStore a us) s =
    .next { s.updTile t (·.upset us) with rd := bits ((s.tile t).op (a / 2)) (64 * (a % 2)) 64, rdBytes := [0] } := by
  show execSideRead t .opStore a us s = _
  unfold execSideRead
  dsimp only
  obtain ⟨_, hu⟩ := (s.tile t).upset_keeps us
  rw [onUnit, if_pos (by simp [ht, ha]), show (s.updTile t (·.upset us)).tile t = (s.tile t).upset us from s.upsetAt_tile t us, hu]
  rfl

theorem State.sideRead_observation {k : Nat} (hk : k < 12) : exec (.sideRead t .observation k us) s =
    .next { s.updTile t (·.upset us) with rd := (Tab.get .reset (s.tile t).cnt.stalls k).word % 2 ^ 64, rdBytes := [0] } := by
  show execSideRead t .observation k us s = _
  unfold execSideRead
  dsimp only
  obtain ⟨_, hu⟩ := (s.tile t).upset_keeps us
  rw [onUnit, if_pos (by simp; omega), show (s.updTile t (·.upset us)).tile t = (s.tile t).upset us from s.upsetAt_tile t us, hu]
  have hf : field (s.tile t).cnt.block (8 * k) 8 = (Tab.get .reset (s.tile t).cnt.stalls k).word % 2 ^ 64 := by
    unfold TileCounters.block
    dsimp only
    simp only [List.append_assoc]
    exact field_flatMap hk _
  unfold sideRegister
  dsimp only
  rw [hf]

end side

/-! ### Staging -/

theorem chunks_getElem {n m i : Nat} (bs : List Byte) (h : i < m) : (chunks n m bs)[i]? = some (leNat ((bs.drop (n * i)).take n)) := by
  induction m generalizing bs i with
  | zero => omega
  | succ m ih =>
    rw [chunks]
    cases i with
    | zero => rfl
    | succ i => rw [List.getElem?_cons_succ, ih _ (by omega), List.drop_drop, Nat.mul_succ, Nat.add_comm]

/-- The words of a run of bytes (R4). -/
theorem bytesToWords_getElem {bs : List Byte} {i : Nat} (h : i < bs.length / 8) :
    (bytesToWords bs)[i]? = some (BitVec.ofNat 64 (field bs (8 * i) 8)) := by
  unfold bytesToWords
  rw [List.getElem?_map, chunks_getElem _ (by unfold ceilDiv; omega)]
  rfl

theorem chunks_length (n m : Nat) (bs : List Byte) : (chunks n m bs).length = m := by
  induction m generalizing bs with
  | zero => rfl
  | succ m ih => rw [chunks, List.length_cons, ih]

theorem Tile.writeBeside_other (x : Tile) {a b : Nat} {ws : List Word} (p : Bool) (h : b < a ∨ a + ws.length ≤ b) :
    Tab.get .zero (x.writeBeside a ws p).tarn b = Tab.get .zero x.tarn b := Tab.get_putAll_other (by simpa using h)

/-- A staged tile that takes words at once: staged or free, lit and not being cleared (R122, R123). -/
def Tile.Stageable (x : Tile) : Prop := (x.use = .free ∨ ∃ l, x.use = .staged l) ∧ x.fenced = false ∧ x.lit = true ∧ x.clearing = false

/-- What a staging run of bytes at byte `off` of a tile's Tarn leaves. -/
structure State.StagedTo (t off : Nat) (bs : List Byte) (s z : State) : Prop where
  use : bs ≠ [] → (z.tile t).use = .staged s.cairn
  inside : ∀ i, i < bs.length / 8 → Tab.get .zero (z.tile t).tarn (off / 8 + i) = ⟨BitVec.ofNat 64 (field bs (8 * i) 8), 0, false⟩
  outside : ∀ a, a < off / 8 ∨ off / 8 + bs.length / 8 ≤ a → Tab.get .zero (z.tile t).tarn a = Tab.get .zero (s.tile t).tarn a
  other : ∀ v, v ≠ t → z.tile v = s.tile v
  frame : ∃ ts, z = { s with tiles := ts }

theorem State.StagedTo.nil (s : State) (t off : Nat) : State.StagedTo t off [] s s :=
  ⟨fun h => absurd rfl h, fun _ hi => absurd hi (by simp), fun _ _ => rfl, fun _ _ => rfl, _, rfl⟩

theorem field_take {bs : List Byte} {i n k : Nat} (h : i + n ≤ k) : field (bs.take k) i n = field bs i n := by
  rw [field, List.drop_take, List.take_take, Nat.min_eq_left (by omega), field]

theorem field_drop (bs : List Byte) (i n k : Nat) : field (bs.drop k) i n = field bs (k + i) n := by
  rw [field, List.drop_drop, field]

section stage
variable {off a : Nat} {bs : List Byte} (h : (s.tile t).Stageable)
include h

/-- The tile after a staging write of one unit. -/
def Tile.stagedUnit (x : Tile) (cairn off : Nat) (bs : List Byte) : Tile := { x with use := .staged cairn }.stageWords (off, bs, false)

theorem Tile.stagedUnit_stageable (c : Nat) : ((s.tile t).stagedUnit c off bs).Stageable := by
  obtain ⟨-, hf, hl, hc⟩ := h
  exact ⟨.inr ⟨c, rfl⟩, hf, hl, hc⟩

theorem State.stageUnit (hl : s.locate a = .tarn t off) : ∃ z, s.writeUnit a bs false = (z, stOk) ∧
    z.tile t = (s.tile t).stagedUnit s.cairn off bs ∧ (∀ v, v ≠ t → z.tile v = s.tile v) ∧ ∃ ts, z = { s with tiles := ts } := by
  obtain ⟨hu, hf, hlit, hc⟩ := h
  have how : s.owner t = none := by
    unfold State.owner
    rcases hu with hu | ⟨l, hu⟩ <;> rw [hu]
  have hon : (s.tile t).on = true := (Bool.and_eq_true ..▸ hlit : _ ∧ _).1
  have hok : s.stagingOk t = true := by simp [State.stagingOk, how, hf, hon]
  have h1 : (s.updTile t fun x => { x with use := .staged s.cairn }).tile t = { s.tile t with use := .staged s.cairn } :=
    (State.updTile_tile ..).trans (if_pos rfl)
  have hready : ({ s.tile t with use := .staged s.cairn } : Tile).stageReady = true := by
    unfold Tile.stageReady
    rw [hc, Bool.not_false, Bool.and_true]
    exact hlit
  refine ⟨(s.updTile t fun x => { x with use := .staged s.cairn }).updTile t (·.stageWords (off, bs, false)), ?_, ?_, fun v hv => ?_, _, rfl⟩
  · unfold State.writeUnit
    rw [hl]
    dsimp only
    rw [if_pos hok]
    unfold State.stageWrite
    rcases hu with hu | ⟨l, hu⟩
    · rw [hu]; simp only [reduceIte, h1, hready]
    · rw [hu]; simp only [reduceIte, h1, hready]
  · rw [State.updTile_tile, if_pos rfl, h1]
    rfl
  · rw [State.updTile_tile, if_neg hv, State.updTile_tile, if_neg hv]

omit h in
theorem Tile.stagedUnit_inside (x : Tile) (c : Nat) {i : Nat} (hi : i < bs.length / 8) :
    Tab.get .zero (x.stagedUnit c off bs).tarn (off / 8 + i) = ⟨BitVec.ofNat 64 (field bs (8 * i) 8), 0, false⟩ :=
  Tile.writeBeside_tarn _ _ _ _ (bytesToWords_getElem hi)

omit h in
theorem Tile.stagedUnit_outside (x : Tile) (c : Nat) (hb : bs.length % 8 = 0) {j : Nat} (hj : j < off / 8 ∨ off / 8 + bs.length / 8 ≤ j) :
    Tab.get .zero (x.stagedUnit c off bs).tarn j = Tab.get .zero x.tarn j := by
  refine Tile.writeBeside_other { x with use := .staged c } (a := off / 8) (ws := bytesToWords bs) false ?_
  unfold bytesToWords
  rw [List.length_map, chunks_length]
  unfold ceilDiv
  omega

/-- A run of bytes staged unit by unit. -/
theorem State.stageRun {n : Nat} (hloc : ∀ i, i < bs.length → s.locate (a + i) = .tarn t (off + i)) (ha : a % 8 = 0) (hoff : off % 8 = 0)
    (hb : bs.length % 8 = 0) (hn : bs.length = 0 ∨ a % 64 + bs.length ≤ 64 * n) :
    ∃ z, State.writeRun n a bs false s = (z, stOk) ∧ State.StagedTo t off bs s z := by
  induction n generalizing a off bs s with
  | zero =>
    obtain rfl : bs = [] := List.length_eq_zero_iff.1 (by omega)
    exact ⟨s, rfl, .nil ..⟩
  | succ n ih =>
    by_cases hne : bs = []
    · subst hne
      exact ⟨s, rfl, .nil ..⟩
    · have hpos : 0 < bs.length := List.length_pos_iff.2 hne
      generalize hk : min bs.length (64 - a % 64) = k
      have hlen : (bs.take k).length = k := by rw [List.length_take]; omega
      have h0 : s.locate a = .tarn t off := hloc 0 hpos
      obtain ⟨v, hv, hvt, hvo, ts, hvf⟩ := State.stageUnit (bs := bs.take k) h h0
      have hvs : (v.tile t).Stageable := by rw [hvt]; exact Tile.stagedUnit_stageable h _
      have hloc' : ∀ i, i < (bs.drop k).length → v.locate (a + k + i) = .tarn t (off + k + i) := by
        intro i hi
        rw [List.length_drop] at hi
        rw [hvf, Nat.add_assoc, Nat.add_assoc]
        exact hloc (k + i) (by omega)
      obtain ⟨z, hz, hst⟩ := ih (s := v) (a := a + k) (off := off + k) (bs := bs.drop k) hvs hloc' (by omega) (by omega)
        (by rw [List.length_drop]; omega) (by rw [List.length_drop]; omega)
      have hin := hst.inside
      have hout := hst.outside
      rw [List.length_drop] at hin hout
      refine ⟨z, ?run, fun _ => ?use, fun i hi => ?inside, fun j hj => ?outside, fun i hi => (hst.other i hi).trans (hvo i hi), ?frame⟩
      case run =>
        rw [State.writeRun, if_neg (by simpa using hne)]
        dsimp only
        rw [hk, hv]
        exact hz
      case use =>
        by_cases hd : bs.drop k = []
        · obtain rfl : v = z := by rw [hd] at hz; cases n <;> exact (congrArg Prod.fst hz)
          rw [hvt]; rfl
        · rw [hst.use hd, hvf]
      case inside =>
        by_cases hik : i < k / 8
        · rw [hout _ (by omega), hvt, Tile.stagedUnit_inside _ _ (by omega), field_take (by omega)]
        · have hw := hin (i - k / 8) (by omega)
          rw [field_drop, show (off + k) / 8 + (i - k / 8) = off / 8 + i by omega, show k + 8 * (i - k / 8) = 8 * i by omega] at hw
          exact hw
      case outside => rw [hout _ (by omega), hvt, Tile.stagedUnit_outside _ _ (by omega) (by omega)]
      case frame =>
        obtain ⟨_, hf⟩ := hst.frame
        rw [hf, hvf]
        exact ⟨_, rfl⟩

end stage

theorem State.locate_tarn_mod {a off : Nat} (h : s.locate a = .tarn t off) (ha : a % 8 = 0) : off % 8 = 0 := by
  unfold State.locate at h
  dsimp only at h
  split at h
  · exact nomatch h
  · split at h
    · split at h <;> exact nomatch h
    · split at h
      · split at h <;> exact nomatch h
      · split at h
        · split at h
          · obtain ⟨-, rfl⟩ := Loc.tarn.inj h
            norm_num
            omega
          · exact nomatch h
        · exact nomatch h

/-- A staging write to a tile that is ready for it is applied at once (R122). -/
theorem State.tarnStagingWrite_row {a off : Nat} {bs : List Byte} (hs : s.inService = true) (hx : (s.tile t).Stageable)
    (hl : s.locate a = .tarn t off) (ha : a % 8 = 0) (hb : bs.length % 8 = 0)
    (hloc : ∀ i, i < bs.length → s.locate (a + i) = .tarn t (off + i)) :
    ∃ z, exec (.tarnStagingWrite a bs) s = .next { z with rd := stOk } ∧ State.StagedTo t off bs s z := by
  obtain ⟨z, hz, hst⟩ := State.stageRun (n := bs.length / 64 + 2) hx hloc ha (State.locate_tarn_mod hl ha) hb (by omega)
  refine ⟨z, ?_, hst⟩
  show execTarnStagingWrite a bs s = _
  rw [execTarnStagingWrite, State.onLive_next]
  refine ⟨by simp [ha, hb], ?_⟩
  rw [if_pos hs, hl]
  dsimp only
  rw [State.write, hz, if_neg (show stOk ≠ stWait by decide)]

theorem State.renewStaged_tarn {a off : Nat} (hl : s.locate a = .tarn t off) : s.OnlyTiles (· = t) (s.renewStaged a) ∧
    (∃ u, (s.renewStaged a).tile t = { s.tile t with use := u }) ∧
    (∀ l, (s.tile t).use = .staged l → ((s.renewStaged a).tile t).use = .staged s.cairn) ∧ ∃ ts, s.renewStaged a = { s with tiles := ts } := by
  unfold State.renewStaged
  rw [hl]
  dsimp only
  split
  · have ht : (s.updTile t fun x => { x with use := .staged s.cairn }).tile t = { s.tile t with use := .staged s.cairn } :=
      (State.updTile_tile ..).trans (if_pos rfl)
    exact ⟨State.updTile_onlyTiles t _, ⟨_, ht⟩, fun _ _ => by rw [ht], _, rfl⟩
  · next h => exact ⟨.refl s, ⟨_, rfl⟩, fun l hu => absurd hu (h l), _, rfl⟩

/-- What a tile let go leaves of the staging writes that waited at it (R123). -/
theorem State.letGo_mem (i : Nat) : (s.letGo i).mem = (s.completeStaging i 0x32 (s.tile i).staging).mem := by
  have hq (v : State) : (v.quiet i).mem = v.mem := by
    obtain h | h := State.quiet_cases (s := v) i
    · rw [h.frame]
    · rw [h]; rfl
  unfold State.letGo
  rw [hq, (State.unstage_unstage_onlyStagings i).frame]
  rfl

/-- The domains of a tile let go are asked off (R405). -/
theorem State.letGo_asked (i : Nat) : ((s.tile i).on = true → (s.letGo i).hasStaging i false = true) ∧
    ((s.tile i).on = false → (s.tile i).fenced = false → (s.tile i).tarnPower ≠ .off → (s.letGo i).hasStaging (i + 320) false = true) := by
  have ht : ((((s.completeStaging i 0x32 (s.tile i).staging).updTile i (·.idled)).unstage i).unstage (i + 320)).tile i = (s.tile i).idled := by
    rw [(State.unstage_unstage_onlyStagings i).tile, State.updTile_tile, if_pos rfl]
    rfl
  refine ⟨fun h => State.quiet_lit (by rw [ht]; exact h), fun h hf hp => ?_⟩
  show State.hasStaging (State.quiet i _) _ _ = true
  rw [State.quiet, if_neg (by rw [ht]; simpa [Tile.idled] using h),
    State.restTarn_unused (by rw [ht]; exact h) (by rw [ht]; exact hp) (by rw [ht]; rfl) (by rw [ht]; exact hf)]
  exact State.askDomain_off_hasStaging _

theorem State.stagedTileTimeout_row {l : Nat} (hs : s.inService = true) (ht : t < 320) (hu : (s.tile t).use = .staged l) :
    exec (.stagedTileTimeout t) s = .next ((s.advanceTo (l + 1000000000)).letGo t) := by
  show execStagedTileTimeout t s = _
  rw [execStagedTileTimeout, State.onLive_next]
  refine ⟨by simpa using ht, ?_⟩
  rw [if_pos hs, hu]

/-- Settles O44: clearing, patrol, side reads and staging, each by its row. -/
theorem tarnRows : Obligations.TarnRows := by
  intro s t us x y ht hx hy
  subst hx hy
  refine ⟨fun hs hc hp ha => ?_, fun hs hp hst hturn hcl hb => ?_, fun hs hp hst hn hturn => ?_, fun a w ha hw hp => ⟨fun hr => ?_, fun hr => ?_⟩,
    fun a ha => State.sideRead_opStore ht ha, fun k hk => State.sideRead_observation ht hk,
    fun a off bs hs hl ha hb hne hloc hu hf hlit hc hg => ?_, fun a n off hs hl hn => ?_, fun l hs hu => ?_⟩
  · have h1 : (s.updTile t Tile.cleared).tile t = (s.tile t).cleared := (State.updTile_tile ..).trans (if_pos rfl)
    obtain ⟨hcl, hcy, hfr⟩ := State.stagedOn_fields (s.updTile t Tile.cleared) t
    refine ⟨_, State.tarnClearDone_exec hs ht hc hp ha, fun hg a => ?_, fun off bs p hg hlit => ?_, ?_, ?_, fun v hv => ?_, ?_⟩
    · rw [State.stagedOn_none (by rw [h1]; exact hg), h1]
      rfl
    · obtain ⟨h2, h3, h4⟩ := State.stagedOn_one (s := s.updTile t Tile.cleared) (t := t) 
        (by rw [h1]; exact (Bool.and_true _).trans hlit)
        (by rw [h1]; exact hg)
      exact ⟨h2, h3, h4⟩
    · rw [hcl, h1]; rfl
    · rw [hcy, h1]; rfl
    · rw [State.stagedOn_onlyTiles.tile hv, State.updTile_tile, if_neg hv]
    · rw [hfr]; rfl
  · obtain ⟨z, cn, te, hz, hzt, ho, hf⟩ := State.tarnPatrolRead_exec hs ht hp hst hturn hcl hb
    exact ⟨z, hz, by rw [hzt], by rw [hzt], by rw [hzt], by rw [hzt], ho, hf⟩
  · obtain ⟨tn, hw, hin, hout⟩ := Tile.writeBack_spec (s.tile t).patrolBack hn (s.tile t)
    refine ⟨_, State.tarnPatrolWriteBack_exec hs ht hp hst hturn, ?_, ?_, ?_, fun v hv => ?_, rfl⟩
    · rw [State.setTile_tile, if_pos rfl, hw]; exact hin
    · rw [State.setTile_tile, if_pos rfl, hw]; exact hout
    · rw [State.setTile_tile, if_pos rfl, hw]
      exact List.filter_eq_nil_iff.2 fun q hq => by simpa using ⟨q.2, hq⟩
    · rw [State.setTile_tile, if_neg hv]
  · obtain ⟨h1, h2⟩ := (Tile.readWords_one (draw := s.draws) hw).1 hr
    exact State.sideRead_tarn ht (p := 0) ha hp h1 h2 (.inl rfl)
  · obtain ⟨h1, h2⟩ := (Tile.readWords_one (draw := s.draws) hw).2 hr
    exact State.sideRead_tarn ht (p := 1) ha hp h1 h2 (.inr rfl)
  · obtain ⟨z, hz, hst⟩ := State.tarnStagingWrite_row hs ⟨hu, hf, hlit, hc⟩ hl ha hb hloc
    obtain ⟨_, hfr⟩ := hst.frame
    exact ⟨_, hz, rfl, hst.use hne, hst.inside, hst.outside, hst.other, by rw [hfr]⟩
  · obtain ⟨ho, ⟨_, htl⟩, hu, _, hfr⟩ := State.renewStaged_tarn hl
    refine ⟨{ (s.renewStaged a).draw with rd := (s.read a n).status + 256 * b2n (s.read a n).poison, rdBytes := (s.read a n).bytes },
      ?_, rfl, rfl, ?_, hu, fun v hv => ho.tile hv, ?_⟩
    · show execTarnStagingRead a n s = _
      rw [execTarnStagingRead, State.onLive_next]
      refine ⟨by simpa using hn, ?_⟩
      rw [if_pos hs, hl]
    · show ((s.renewStaged a).tile t).tarn = _
      rw [htl]
    · rw [hfr]; rfl
  · obtain ⟨c, hc, hadv⟩ := State.advanceTo_instant (s := s) (l + 1000000000)
    rw [← hc]
    have hrow := State.stagedTileTimeout_row hs ht hu
    rw [hadv] at hrow
    obtain ⟨ha, hb⟩ := State.letGo_asked (s := { s with cairn := c }) t
    have htl := State.letGo_tile_same (s := { s with cairn := c }) t
    have hm := State.letGo_mem (s := { s with cairn := c }) t
    have hot := State.letGo_onlyTiles (s := { s with cairn := c }) t
    refine ⟨_, hrow, ?_, ?_, ?_, ?_, ha, hb, ?_, fun v hv => hot.tile hv, ?_⟩
    · rw [htl]; rfl
    · rw [htl]; rfl
    · rw [htl]; rfl
    · rw [htl]; rfl
    · rw [hm]; rfl
    · rw [hot.frame]

end Sys2Proof.Machine
end

section
/-! PROOF. A tile's wheel turn, its load-step notice, and the abandon flit that stops it (R22, R28, R31, R103, R357). -/

namespace Sys2Proof.Machine

variable {s v w u : State} {t k : Nat} {P : Prop}

/-! ### Reads beside writes -/

/-- What names a firing, which no read beside changes. -/
def Firing.mark (f : Firing) : Nat × Nat × Nat := (f.id, f.index, f.fire)

/-- What reads beside a turn's changes reach (R103): firings, which keep their names where `P` holds and no two have one ID, of the tile
itself counts besides, rows under way, and reports. -/
structure State.Seen (P : Prop) (t : Nat) (v w : State) : Prop where
  tile : ∃ fs cn te, w.tile t = { v.tile t with cnt := cn, tarnErr := te, run := { (v.tile t).run with flights := fs } } ∧
    (P → ((v.tile t).run.flights.map (·.id)).Nodup → fs.map (·.mark) = (v.tile t).run.flights.map (·.mark))
  others : ∀ u, u ≠ t → ∃ fs, w.tile u = { v.tile u with run := { (v.tile u).run with flights := fs } }
  frame : ∃ ts rs l h, w = { v with tiles := ts, planes := { v.planes with rows := rs }, ledger := l, host := h }

theorem Firing.ids_of_marks {fs gs : List Firing} (h : fs.map (·.mark) = gs.map (·.mark)) : fs.map (·.id) = gs.map (·.id) := by
  have := congrArg (List.map Prod.fst) h
  rwa [List.map_map, List.map_map] at this

theorem State.Seen.refl (v : State) : State.Seen P t v v :=
  ⟨⟨_, _, _, rfl, fun _ _ => rfl⟩, fun _ _ => ⟨_, rfl⟩, _, _, _, _, rfl⟩

theorem State.Seen.trans (h : State.Seen P t v w) (h' : State.Seen P t w u) : State.Seen P t v u := by
  obtain ⟨⟨fs, cn, te, ht, hf⟩, ho, ts, rs, l, k, hw⟩ := h
  obtain ⟨⟨fs', cn', te', ht', hf'⟩, ho', ts', rs', l', k', hu⟩ := h'
  rw [ht] at hf'
  refine ⟨⟨fs', cn', te', by rw [ht', ht], fun hp hn => ?_⟩, fun i hi => ?_, ts', rs', l', k', by rw [hu, hw]⟩
  · exact (hf' hp (by rw [Firing.ids_of_marks (hf hp hn)]; exact hn)).trans (hf hp hn)
  · obtain ⟨gs, hg⟩ := ho i hi
    obtain ⟨gs', hg'⟩ := ho' i hi
    exact ⟨gs', by rw [hg', hg]⟩

/-- Firings of one ID are one firing. -/
theorem Firing.mark_of_id {fs : List Firing} (h : (fs.map (·.id)).Nodup) {f g : Firing} (hf : f ∈ fs) (hg : g ∈ fs) (hi : f.id = g.id) :
    f.mark = g.mark := by
  rw [List.inj_on_of_nodup_map h hf hg hi]

/-- A tile's firings replaced, each under its own name. -/
theorem State.Seen.setFlights {i : Nat} {x : Tile} (hx : ∃ fs, x = { v.tile i with run := { (v.tile i).run with flights := fs } } ∧
    (P → i = t → ((v.tile i).run.flights.map (·.id)).Nodup → fs.map (·.mark) = (v.tile i).run.flights.map (·.mark))) : State.Seen P t v (v.setTile i x) := by
  obtain ⟨fs, hx, hm⟩ := hx
  refine ⟨?_, fun j hj => ?_, _, _, _, _, rfl⟩
  · rw [State.setTile_tile]
    split
    · next h => subst h; exact ⟨fs, _, _, hx, fun hp => hm hp rfl⟩
    · exact ⟨_, _, _, rfl, fun _ _ => rfl⟩
  · rw [State.setTile_tile]
    split
    · next h => rw [h]; exact ⟨fs, hx⟩
    · exact ⟨_, rfl⟩

theorem Firing.map_marks {fs : List Firing} {g : Firing → Firing} (hg : ∀ f ∈ fs, (g f).mark = f.mark) : (fs.map g).map (·.mark) = fs.map (·.mark) := by
  rw [List.map_map]
  exact List.map_congr_left hg

theorem Firing.renewed_mark (f n : Firing) (bs : List Byte) (opc : Nat) : (f.renewed n bs opc).mark = f.mark := by
  unfold Firing.renewed
  split <;> rfl

theorem State.renewReceive_seen (c : Ctx) (f : Firing) : State.Seen P t v (v.renewReceive c f) := by
  unfold State.renewReceive
  split
  · exact .refl v
  · refine List.foldlRecOn (motive := fun w : State => State.Seen P t v w) _ _ (.refl v) fun w hw i _ => hw.trans ?_
    unfold State.updTile
    dsimp only
    split
    · exact State.Seen.setFlights ⟨_, rfl, fun _ _ _ => rfl⟩
    · next g hg =>
      have hm : g ∈ (w.tile i).run.flights := (List.mem_filter.1 (List.mem_of_mem_getLast? hg)).1
      refine State.Seen.setFlights ⟨_, rfl, fun hp _ hn => Firing.map_marks fun h hh => ?_⟩
      split
      · next he =>
        have := Firing.mark_of_id hn hh hm he
        unfold Firing.mark at this ⊢
        simp only [Prod.mk.injEq] at this ⊢
        exact ⟨rfl, rfl, this.2.2.symm⟩
      · rfl

theorem State.noteRead_seen {r : ReadRes} (h : r.Clean) : State.Seen P t v (v.noteRead t r) := by
  obtain ⟨_, _, _, _, hr⟩ := State.noteRead_clean (s := v) (t := t) h
  rw [hr]
  exact ⟨⟨(v.tile t).run.flights, _, _, (State.setTile_tile ..).trans (if_pos rfl), fun _ _ => rfl⟩,
    fun i hi => ⟨_, (State.setTile_tile ..).trans (if_neg hi)⟩, _, _, _, _, rfl⟩

/-- A firing that reads beside a turn's changes keeps its name (R103). -/
theorem State.readBeside_seen {cs : List TarnChange} {f : Firing}
    (hf : P → ((v.tile t).run.flights.map (·.id)).Nodup → f.mark ∈ (v.tile t).run.flights.map (·.mark)) :
    State.Seen P t v (v.readBeside t cs f) := by
  unfold State.readBeside
  extract_lets x op rs g c n h s1 s2
  split
  · exact .refl v
  · have h1 : State.Seen P t v s1 := by
      refine State.Seen.setFlights ⟨_, rfl, fun hp _ hn => Firing.map_marks fun z hz => ?_⟩
      split
      · next he =>
        obtain ⟨y, hy, hm⟩ := List.mem_map.1 (hf hp hn)
        have hyz := Firing.mark_of_id hn hz hy (he.trans (congrArg Prod.fst hm).symm)
        exact (Firing.renewed_mark ..).trans (hm.symm.trans hyz.symm)
      · rfl
    have h2 : State.Seen P t v s2 := by
      show State.Seen P t v (ite _ _ _)
      split
      · exact h1.trans ⟨⟨_, _, _, rfl, fun _ _ => rfl⟩, fun _ _ => ⟨_, rfl⟩, _, _, _, _, rfl⟩
      · split
        · exact h1.trans (State.renewReceive_seen _ _)
        · exact h1
    exact h2.trans (State.noteRead_seen ⟨rfl, rfl⟩)

/-- The tile without the changes of a turn. -/
def State.unchanged (s : State) (t : Nat) : State := s.updTile t fun x => x.updRun fun r => { r with changes := [] }

theorem State.unchanged_tile (s : State) (t : Nat) : (s.unchanged t).tile t = (s.tile t).updRun fun r => { r with changes := [] } :=
  (State.updTile_tile ..).trans (if_pos rfl)

/-- The changes of a turn as a tile's operations see them; none of them stays (R103). -/
theorem State.seeChanges_row (s : State) (t : Nat) : ∃ v n, s.seeChanges t = { v with draws := n } ∧
    State.Seen (((s.tile t).run.flights.map (·.id)).Nodup) t (s.unchanged t) v ∧ ((s.tile t).run.changes = [] → v = s ∧ n = s.draws) := by
  unfold State.seeChanges
  dsimp only
  split
  · next h =>
    have h0 : (s.tile t).run.changes = [] := by simpa using h
    refine ⟨s, s.draws, rfl, ⟨⟨(s.tile t).run.flights, (s.tile t).cnt, (s.tile t).tarnErr, ?_, fun _ _ => ?_⟩, fun i hi => ?_,
      s.tiles, s.planes.rows, s.ledger, s.host, rfl⟩, fun _ => ⟨rfl, rfl⟩⟩
    · rw [State.unchanged_tile, Tile.updRun, ← h0]
    · rw [State.unchanged_tile, Tile.updRun]
    · refine ⟨(s.tile i).run.flights, ?_⟩
      rw [State.unchanged, State.updTile_tile, if_neg hi]
  · next h =>
    refine ⟨_, _, rfl, ?_, fun h0 => absurd (by rw [h0]; rfl) h⟩
    refine List.foldlRecOn (motive := fun w : State => State.Seen _ t (s.unchanged t) w) _ _ (.refl _) fun w hw f hf =>
      hw.trans (State.readBeside_seen fun hp hn => ?_)
    obtain ⟨⟨fs, _, _, ht, hm⟩, -, -⟩ := hw
    rw [State.unchanged_tile] at hm
    rw [ht, show fs.map (·.mark) = _ from hm hp hp]
    exact List.mem_map_of_mem (List.mem_filter.1 hf).1

/-! ### The turn itself -/

theorem Tab.get_map {α β : Type} {d : α} {e : β} (f : α → β) (hd : f d = e) (m : Tab α) (j : Nat) :
    Tab.get e (m.map fun x => (x.1, f x.2)) j = f (Tab.get d m j) := by
  induction m with
  | nil => exact hd.symm
  | cons x m ih =>
    rw [List.map_cons, Tab.get, Tab.get, ih]
    split <;> rfl

/-- An engine, a queue, credits and a channel in a new turn (R22, R28). -/
def Engine.turned (e : Engine) : Engine := { e with fired := false }
def Queue.turned (q : Queue) : Queue := { q with toks := q.toks ++ q.fresh, fresh := [] }
def Credit.turned (c : Credit) : Credit := { c with held := c.held + c.fresh, fresh := 0 }
def Channel.turned (c : Channel) : Channel := { c with fresh := 0, credits := c.credits + c.freshCredits, freshCredits := 0 }

/-- What a new turn makes of a tile's engines, queues, credits and channels. -/
theorem Tile.nextTurn_parts (x : Tile) : (∀ e, x.nextTurn.engine e = (x.engine e).turned) ∧ (∀ q, x.nextTurn.queue q = (x.queue q).turned) ∧
    (∀ q, x.nextTurn.credit q = (x.credit q).turned) ∧ (∀ c, x.nextTurn.channel c = (x.channel c).turned) :=
  ⟨Tab.get_map (d := Engine.reset) Engine.turned rfl x.run.engines, Tab.get_map (d := Queue.reset) Queue.turned rfl x.run.queues,
    Tab.get_map (d := Credit.reset) Credit.turned rfl x.run.credits, Tab.get_map (d := Channel.reset) Channel.turned rfl x.run.channels⟩

/-- Counts and wait edges of a tile have changed, with reports. -/
def State.Counted (t : Nat) (v w : State) : Prop :=
  (∃ cn wt, w.tile t = { v.tile t with cnt := cn, run := { (v.tile t).run with waiting := wt } }) ∧
  (∀ u, u ≠ t → w.tile u = v.tile u) ∧ ∃ ts l h, w = { v with tiles := ts, ledger := l, host := h }

theorem State.Counted.refl (v : State) : State.Counted t v v := ⟨⟨_, _, rfl⟩, fun _ _ => rfl, _, _, _, rfl⟩

theorem State.Counted.trans (h : State.Counted t v w) (h' : State.Counted t w u) : State.Counted t v u := by
  obtain ⟨⟨cn, wt, ht⟩, ho, ts, l, k, hw⟩ := h
  obtain ⟨⟨cn', wt', ht'⟩, ho', ts', l', k', hu⟩ := h'
  exact ⟨⟨cn', wt', by rw [ht', ht]⟩, fun i hi => (ho' i hi).trans (ho i hi), ts', l', k', by rw [hu, hw]⟩

theorem State.updTile_counted {f : Tile → Tile} (hf : ∃ cn wt, f (v.tile t) = { v.tile t with cnt := cn, run := { (v.tile t).run with waiting := wt } }) :
    State.Counted t v (v.updTile t f) := by
  obtain ⟨cn, wt, hf⟩ := hf
  refine ⟨⟨cn, wt, ?_⟩, fun j hj => ?_, _, _, _, rfl⟩
  · rw [State.updTile_tile, if_pos rfl, hf]
  · rw [State.updTile_tile, if_neg hj]

theorem State.noteSaturated_counted (old new : Counter) (a b c : Nat) : State.Counted t v (v.noteSaturated old new a b c) := by
  obtain ⟨_, _, h⟩ := State.noteSaturated_only (s := v) old new a b c
  rw [h]
  exact ⟨⟨_, _, rfl⟩, fun _ _ => rfl, _, _, _, rfl⟩

theorem State.countAll_counted (sel : TileCounters → Tab Counter) (put : TileCounters → Tab Counter → TileCounters) (o : Nat → Nat) (ks : List Nat) :
    State.Counted t v (v.countAll t sel put o ks) :=
  List.foldlRecOn (motive := fun w : State => State.Counted t v w) ks _ (.refl v) fun _ hw _ _ =>
    (hw.trans (State.updTile_counted ⟨_, _, rfl⟩)).trans (State.noteSaturated_counted ..)

theorem State.noteWaits_counted : State.Counted t v (v.noteWaits t) := State.updTile_counted ⟨_, _, rfl⟩

/-- The turn of a tile, up to its counts and wait edges. -/
theorem State.wheelTurn_row (hs : s.inService = true) (ht : t < 320) : ∃ z, exec (.wheelTurn t) s = .next z ∧
    State.Counted t ((s.seeChanges t).updTile t (·.nextTurn)) z := by
  show ∃ z, execWheelTurn t s = .next z ∧ _
  unfold execWheelTurn
  refine ⟨_, State.onLive_next.2 ⟨by simpa using ht, if_pos hs⟩, ?_⟩
  extract_lets v x obs s1 s2
  split
  · exact ((State.noteWaits_counted.trans (State.countAll_counted ..)).trans (State.countAll_counted ..)).trans (State.countAll_counted ..)
  · exact State.noteWaits_counted

/-! ### The load-step notice -/

/-- Some phases of a domain woken. -/
theorem State.wake_all (n : Nat) (l : List Nat) :
    (∃ ph, l.foldl (fun s p => s.updPhase (n + p) fun z => { z with shed := false }) s = { s with power := { s.power with phases := ph } }) ∧
      ∀ m, (l.foldl (fun s p => s.updPhase (n + p) fun z => { z with shed := false }) s).phase m =
        if ∃ p ∈ l, m = n + p then { s.phase m with shed := false } else s.phase m := by
  induction l generalizing s with
  | nil => exact ⟨⟨_, rfl⟩, fun m => by simp⟩
  | cons p l ih =>
    obtain ⟨⟨ph, hf⟩, hn⟩ := ih (s := s.updPhase (n + p) fun z => { z with shed := false })
    refine ⟨⟨ph, hf⟩, fun m => ?_⟩
    rw [List.foldl_cons, hn m, State.updPhase_phase]
    by_cases h : m = n + p
    · rw [if_pos h, if_pos (⟨p, List.mem_cons_self .., h⟩ : ∃ q ∈ p :: l, m = n + q), h]
      split <;> rfl
    · rw [if_neg h]
      simp only [List.mem_cons, exists_eq_or_imp, h, false_or]

theorem State.loadStepNotice_row (hs : s.inService = true) (ht : t < 320) (hk : k < 8192) (hr : s.runs t = true)
    (he : engineOf (opCode ((s.tile t).op k)) = some 0) (hi : ((s.tile t).engine 0).idleSince + 1024 ≤ (s.tile t).cycle)
    (hl : (s.tile t).run.lead = none) (hf : ((s.tile t).updEngine 0 fun e => { e with idleSince := (s.tile t).cycle }).fires k = true) :
    exec (.loadStepNotice t k) s = .next ((List.range 8).foldl (fun s p => s.updPhase (t * 8 + p) fun z => { z with shed := false })
      (s.setTile t ((s.tile t).updRun fun r => { r with lead := some (k, (s.tile t).cycle + 128) }))) := by
  show execLoadStepNotice t k s = _
  rw [execLoadStepNotice, State.onLive_next]
  refine ⟨by simp [ht, hk], ?_⟩
  rw [if_pos hs]
  dsimp only
  rw [if_pos (by rw [hr, he, hl, hf]; simpa using hi)]

/-! ### The abandon flit -/

/-- A tile returned to its state just after binding holds no token and no firing, and keeps its Tarn (R357). -/
theorem Tile.toBound_parts (x : Tile) (back : Bool) : (x.toBound back).run.queues = [] ∧ (x.toBound back).run.flights = [] ∧
    (x.toBound back).run.emitted = [] ∧ (x.toBound back).tarn = x.tarn := by
  unfold Tile.toBound
  split
  · exact ⟨rfl, rfl, rfl, rfl⟩
  · exact ⟨rfl, rfl, rfl, rfl⟩

/-- What an abandon flit makes of its tile, where no write of it has failed (R357). -/
theorem State.abandonFlit_row {g v : Nat} {y : Graph} {a : Abandon} (hs : s.inService = true) (ht : t < 320) (ho : s.owner t = some (g, v))
    (hg : s.graph? g = some y) (ha : y.abandon = some a) (hm : t ∈ a.toStop) (hw : (s.tile t).failedWrites = []) :
    ∃ z, exec (.abandonFlit t) s = .next z ∧ z.tile t = ((s.tile t).toBound y.oldPass).updRun (fun r => { r with stopped := true }) ∧
      z.graph? g = some { y with
        abandon := some { a with toStop := a.toStop.filter (· != t), until_ := max a.until_ (s.writesUntil t) }
        spills := y.spills.filter (·.tile != t) } ∧
      (∀ w, w ≠ t → z.tile w = s.tile w) ∧ z.mem = s.mem := by
  show ∃ z, execAbandonFlit t s = .next z ∧ _
  unfold execAbandonFlit
  refine ⟨_, State.onLive_next.2 ⟨by simpa using ht, if_pos hs⟩, ?_⟩
  rw [ho]
  dsimp only
  rw [hg]
  dsimp only
  rw [ha]
  dsimp only
  rw [if_neg (by simpa using hm), hw, List.foldl_nil]
  have hd (v : State) (i : Nat) : (v.dropFlights t).tile i = v.tile i := rfl
  have hvt : ((s.updTile t (·.toBound y.oldPass)).dropFlights t).tile t = (s.tile t).toBound y.oldPass := by
    rw [hd, State.updTile_tile, if_pos rfl]
  have hvo (i : Nat) (hi : i ≠ t) : ((s.updTile t (·.toBound y.oldPass)).dropFlights t).tile i = s.tile i := by
    rw [hd, State.updTile_tile, if_neg hi]
  have hvm : ((s.updTile t (·.toBound y.oldPass)).dropFlights t).mem = s.mem := rfl
  generalize (s.updTile t (·.toBound y.oldPass)).dropFlights t = v at hvt hvo hvm
  have hz (bs : List Nat) (Y : Option Graph) (F : Tile → Tile) (sm : List Summit) (i : Nat) :
      (State.dropFlits t bs { (v.setGraph g Y).updTile t F with planes := { (v.setGraph g Y).planes with summits := sm } }).tile i =
        (v.updTile t F).tile i ∧
      (State.dropFlits t bs { (v.setGraph g Y).updTile t F with planes := { (v.setGraph g Y).planes with summits := sm } }).graph? g =
        (v.setGraph g Y).graph? g := ⟨rfl, rfl⟩
  refine ⟨?_, (hz _ _ _ _ 0).2.trans ((State.setGraph_graph ..).trans (if_pos rfl)), fun w hw => ?_, hvm⟩
  · rw [(hz _ _ _ _ t).1, State.updTile_tile, if_pos rfl, hvt]
  · rw [(hz _ _ _ _ w).1, State.updTile_tile, if_neg hw, hvo w hw]

/-- Settles O43: what reads beside a turn's changes, the turn itself, a notice and an abandon flit leave. -/
theorem tileTurnsAndStops : Obligations.TileTurnsAndStops := by
  intro s t x hs ht hx
  subst hx
  refine ⟨?_, fun k hk hr he hi hl hf => ?_, fun g v y a ho hg ha hm hw => ?_⟩
  · obtain ⟨v, n, hv, ⟨⟨fs, cn, te, hvt, hm⟩, hvo, ts, rs, l, h, hvf⟩, h0⟩ := s.seeChanges_row t
    obtain ⟨z, hz, ⟨cn', wt, hzt⟩, hzo, ts', l', h', hzf⟩ := State.wheelTurn_row hs ht
    have hvt' : ((s.seeChanges t).updTile t (·.nextTurn)).tile t = (v.tile t).nextTurn := by
      rw [State.updTile_tile, if_pos rfl, hv]; rfl
    have hot (i : Nat) (hi : i ≠ t) : z.tile i = v.tile i := by
      rw [hzo i hi, State.updTile_tile, if_neg hi, hv]; rfl
    obtain ⟨he, hq, hc, hch⟩ := (v.tile t).nextTurn_parts
    rw [hvt'] at hzt
    rw [State.unchanged_tile] at hvt hm
    refine ⟨z, hz, ?_, fun e => ?_, fun q => ?_, fun q => ?_, fun c => ?_, ?_, ?_, ?_, fun hn => ?_, fun hc0 => ?_, fun i hi => ?_, ?_⟩
    · rw [hzt, hvt]; rfl
    · rw [hzt]; exact congrArg Engine.fired (he e)
    · rw [hzt]; exact (hq q).trans (by rw [Tile.queue, hvt]; rfl)
    · rw [hzt]; exact (hc q).trans (by rw [Tile.credit, hvt]; rfl)
    · rw [hzt]; exact (hch c).trans (by rw [Tile.channel, hvt]; rfl)
    · rw [hzt, hvt]; rfl
    · rw [hzt, hvt]; rfl
    · rw [hzt, hvt]; rfl
    · rw [hzt, hvt]; exact hm hn hn
    · obtain ⟨rfl, rfl⟩ := h0 hc0
      refine ⟨by rw [hzt]; rfl, hot, ?_⟩
      rw [hzf, hv]
      rfl
    · obtain ⟨_, ho⟩ := hvo i hi
      rw [hot i hi, ho, State.unchanged, State.updTile_tile, if_neg hi]
      exact ⟨rfl, rfl⟩
    · rw [hzf, hv, hvf]
      rfl
  · have h1 : (s.setTile t ((s.tile t).updRun fun r => { r with lead := some (k, (s.tile t).cycle + 128) })).tile t = _ :=
      (State.setTile_tile ..).trans (if_pos rfl)
    obtain ⟨⟨ph, hfr⟩, hph⟩ := State.wake_all (s := s.setTile t ((s.tile t).updRun fun r => { r with lead := some (k, (s.tile t).cycle + 128) }))
      (t * 8) (List.range 8)
    refine ⟨_, State.loadStepNotice_row hs ht hk hr he hi hl hf, ?_, fun p hp => ?_, fun v hv => ?_, ?_⟩
    · rw [hfr]; exact h1
    · rw [hph, if_pos ⟨p, List.mem_range.2 hp, rfl⟩]; rfl
    · rw [hfr]; exact (State.setTile_tile ..).trans (if_neg hv)
    · rw [hfr]; rfl
  · obtain ⟨z, hz, hzt, hzg, hzo, hzm⟩ := State.abandonFlit_row hs ht ho hg ha hm hw
    obtain ⟨h1, h2, h3, h4⟩ := Tile.toBound_parts (s.tile t) y.oldPass
    exact ⟨z, hz, by rw [hzt]; rfl, by rw [hzt]; exact h1, by rw [hzt]; exact h2, by rw [hzt]; exact h3, by rw [hzt]; exact h4, hzg, hzo, hzm⟩

end Sys2Proof.Machine
end

section
/-! PROOF. Firings that complete, and the local replay of one that failed (R24, R27, R48, R256, R353, R354). -/

namespace Sys2Proof.Machine

variable {s v w : State} {t id : Nat} {f : Firing} {us : List Upset}

/-! ### What a completion commits -/

/-- Words of a firing committed without poison (R24). -/
theorem Tile.commitWords_spec (l : List (Nat × Word)) (hn : (l.map (·.1)).Nodup) (x : Tile) : ∃ tn pb,
    l.foldl (fun x w => x.writeWords w.1 [w.2] false) x = { x with tarn := tn, patrolBack := pb } ∧
      (∀ p ∈ l, Tab.get .zero tn p.1 = ⟨p.2, 0, false⟩) ∧ ∀ a, a ∉ l.map (·.1) → Tab.get .zero tn a = Tab.get .zero x.tarn a := by
  obtain ⟨tn, hf, hin, hout⟩ := Tile.writeBack_spec l hn x
  exact ⟨tn, _, hf, hin, hout⟩

/-- What a tile keeps of a firing that completes without poison. -/
structure Tile.Commits (x : Tile) (f : Firing) (y : Tile) : Prop where
  inside : ∀ w ∈ f.writes, Tab.get .zero y.tarn w.1 = ⟨w.2, 0, false⟩
  outside : ∀ a, a ∉ f.writes.map (·.1) → Tab.get .zero y.tarn a = Tab.get .zero x.tarn a
  regs : y.sregs = f.regs.foldl (fun m r => Tab.put 0 r.1 r.2 m) x.sregs
  emitted : y.run.emitted = x.run.emitted ++ f.outs
  flights : y.run.flights = x.run.flights.filter (·.id != f.id)
  sat : y.cnt.numSat = x.cnt.numSat.add f.sat
  cfg : y.cfg = x.cfg
  queues : y.run.queues = x.run.queues

theorem Tile.commit_commits {x : Tile} (hp : f.poison = false) (hn : (f.writes.map (·.1)).Nodup) : x.Commits f (x.commit f) := by
  obtain ⟨tn, pb, hw, hin, hout⟩ := Tile.commitWords_spec f.writes hn x
  have ho : (f.outs.map fun o => (o.1, { o.2 with poison := o.2.poison || f.poison })) = f.outs := by
    rw [hp]
    simp
  unfold Tile.commit
  rw [hp] at ho ⊢
  dsimp only
  rw [hw, ho]
  exact ⟨hin, hout, rfl, rfl, rfl, rfl, rfl, rfl⟩

theorem State.noteDigest_frame (s : State) (t : Nat) (f : Firing) : ∃ gs, s.noteDigest t f = { s with graphs := gs } := by
  unfold State.noteDigest
  split
  · exact ⟨_, rfl⟩
  · unfold State.updGraph
    split <;> exact ⟨_, rfl⟩

theorem State.sendWord_frame (s : State) (t : Nat) (f : Firing) : ∃ pl, s.sendWord t f = { s with planes := pl } := by
  unfold State.sendWord
  dsimp only
  split <;> exact ⟨_, rfl⟩

/-- A completion changes its tile alone, with digests, words under way and reports. -/
theorem State.commit_firing (s : State) (t : Nat) (f : Firing) : (s.commit t f).tile t = (s.tile t).commit f ∧
    (∀ u, u ≠ t → (s.commit t f).tile u = s.tile u) ∧
    ∃ ts pl gs l h, s.commit t f = { s with tiles := ts, planes := pl, graphs := gs, ledger := l, host := h } := by
  have ht : (s.updTile t (·.commit f)).tile t = (s.tile t).commit f := (State.updTile_tile ..).trans (if_pos rfl)
  have ho (u : Nat) (hu : u ≠ t) : (s.updTile t (·.commit f)).tile u = s.tile u := (State.updTile_tile ..).trans (if_neg hu)
  have hfr : ∃ ts, s.updTile t (·.commit f) = { s with tiles := ts } := ⟨_, rfl⟩
  unfold State.commit
  dsimp only
  generalize s.updTile t (·.commit f) = v at ht ho hfr
  obtain ⟨_, _, h1⟩ := State.noteSaturated_only (s := v) (s.tile t).cnt.numSat (v.tile t).cnt.numSat (1024 + 0x60) t 1
  rw [h1]
  generalize hv2 : ({ v with host := _, ledger := _ } : State) = v2
  obtain ⟨_, _, h2⟩ := State.noteSaturated_only (s := v2) (s.tile t).cnt.numNan (v.tile t).cnt.numNan (1024 + 0x68) t 1
  rw [h2]
  generalize hv3 : ({ v2 with host := _, ledger := _ } : State) = v3
  obtain ⟨_, h3⟩ := v3.noteDigest_frame t f
  rw [h3]
  obtain ⟨_, h4⟩ := State.sendWord_frame { v3 with graphs := _ } t f
  rw [h4, ← hv3, ← hv2]
  obtain ⟨_, rfl⟩ := hfr
  exact ⟨ht, ho, _, _, _, _, _, rfl⟩

theorem State.finish_clean (hp : f.poison = false) : s.finish t f = s.commit t f := by
  unfold State.finish
  dsimp only
  rw [hp, if_neg (by decide)]

/-! ### The rows that complete a firing -/

section complete
variable (hs : s.inService = true) (ht : t < 320) (hf : (s.tile t).flight id = some f) (hl : (s.tile t).lit = true)
include hs ht hf hl

theorem State.operationComplete_row (ho : f.openEnded = false) (hfl : f.failed = false) (hc : f.fire + f.issue + f.depth < (s.tile t).cycle + 8) :
    exec (.operationComplete t id .pass) s = .next (s.finish t f) := by
  show execOperationComplete t id .pass s = _
  rw [execOperationComplete, State.onLive_next]
  refine ⟨by simpa using ht, ?_⟩
  rw [if_pos hs]
  dsimp only
  rw [hf]
  dsimp only
  rw [if_neg (by simp [hl, ho, hfl]; omega)]

theorem State.memoryOperationComplete_row (ho : f.openEnded = true) (hla : f.landed = true) (hc : f.fire + f.issue < (s.tile t).cycle + 8) :
    exec (.memoryOperationComplete t id) s = .next (s.finish t f) := by
  show execMemoryOperationComplete t id s = _
  rw [execMemoryOperationComplete, State.onLive_next]
  refine ⟨by simpa using ht, ?_⟩
  rw [if_pos hs]
  dsimp only
  rw [hf]
  dsimp only
  rw [if_pos (by simp [hl, ho, hla]; omega), if_neg (by decide)]

theorem State.summitRelease_row {b v : Nat} {ms : List Nat} {k : CtrlFlit} (hc : f.fire + f.issue < (s.tile t).cycle + 8)
    (hsm : s.summitOf t f = some (b, ms, v)) (hr : (s.out (0x1000 + t)).releaseFor b f.summitSeq = some (k, false)) :
    exec (.summitRelease t id none) s = .next ((s.updOut (0x1000 + t) (·.pass k)).finish t { f with acks := 0 }) := by
  show execSummitRelease t id s none = _
  rw [execSummitRelease, State.onLive_next]
  refine ⟨by simpa using ht, ?_⟩
  rw [if_pos hs, hf]
  dsimp only
  rw [hsm]
  dsimp only
  rw [hr]
  dsimp only
  rw [if_pos (by simp [hl]; omega)]
  rfl

end complete

/-! ### The local replay -/

theorem State.noteSaturated_tile (old new : Counter) (a b c i : Nat) : (s.noteSaturated old new a b c).tile i = s.tile i := by
  obtain ⟨_, _, h⟩ := State.noteSaturated_only (s := s) old new a b c
  rw [h]
  rfl

/-- A read that finds nothing wrong counts no replay. -/
theorem State.noteRead_replays {r : ReadRes} (h : r.Clean) : ((s.noteRead t r).tile t).cnt.integReplay = (s.tile t).cnt.integReplay := by
  obtain ⟨hc, hu⟩ := h
  unfold State.noteRead
  dsimp only
  rw [hc, hu, if_pos (show 0 + ([] : List Nat).length = 0 from rfl), List.map_nil]
  show (((((State.setTile _ _ _).noteSaturated _ _ _ _ _).noteSaturated _ _ _ _ _).noteSaturated _ _ _ _ _).tile t).cnt.integReplay = _
  rw [State.noteSaturated_tile, State.noteSaturated_tile, State.noteSaturated_tile, State.setTile_tile, if_pos rfl]

theorem State.upsetAt_tile_same (s : State) (t : Nat) (us : List Upset) (i : Nat) : ∃ tn, (s.upsetAt t us).tile i = { s.tile i with tarn := tn } := by
  rw [State.upsetAt, State.updTile_tile]
  split
  · next h => rw [h]; exact Tile.upset_keeps _ us
  · exact ⟨_, rfl⟩

/-- Wrong bits that come about stop no tile. -/
theorem State.upsetAt_runs (s : State) (t : Nat) (us : List Upset) (i : Nat) : (s.upsetAt t us).runs i = s.runs i := by
  have hu (j : Nat) : ((s.upsetAt t us).tile j).use = (s.tile j).use := by
    obtain ⟨_, h⟩ := s.upsetAt_tile_same t us j
    rw [h]
  have ho : (s.upsetAt t us).owner i = s.owner i := by
    unfold State.owner
    simp only [hu]
  obtain ⟨_, h⟩ := s.upsetAt_tile_same t us i
  unfold State.runs
  rw [ho, h]
  rfl

/-- The firing that a local replay puts in flight. -/
def State.replayOf (s : State) (t : Nat) (us : List Upset) (f : Firing) : (Firing × List Event) × ReadRes :=
  let v := s.upsetAt t us
  let c := v.context t f.index ((s.tile t).upset us) f.inputs f.regsAt
  let n := v.makeFiring c.1 (effectOf (opCode c.1.w) c.1 v) c.2.1 c.2.2 (some f)
  (({ n.1 with id := f.id, count := f.count, first := f.first, again := f.again + 1, intact := f.intact }, n.2), c.2.1)

/-- The tile with the replayed firing in flight. -/
def State.replayTile (s : State) (t : Nat) (us : List Upset) (f : Firing) : Tile :=
  let x := (s.tile t).upset us
  let g := (s.replayOf t us f).1.1
  let y := ((x.setFlight g).repeatHolds g).updRun fun r => { r with changes := r.changes ++ x.changesBy g }
  { y with cnt := { y.cnt with integReplay := x.cnt.integReplay.add 1 } }

section replay
variable (hs : s.inService = true) (ht : t < 320) (hf : (s.tile t).flight id = some f) (hfl : f.failed = true) (hi : f.intact = true)
  (hc : f.fire + f.issue + f.depth < (s.tile t).cycle) (hr : s.runs t = true)
  (he : ((s.tile t).engine ((engineOf (opCode ((s.tile t).op f.index))).getD 0)).freeAt ≤ (s.tile t).cycle)
  (hfd : ((s.tile t).engine ((engineOf (opCode ((s.tile t).op f.index))).getD 0)).fired = false)
include hs ht hf hfl hi hc hr he hfd

theorem State.localReplay_exec : ∃ a : Nat, exec (.localReplay t id us) s = .next (State.raiseAll (s.replayOf t us f).1.2
    ((((((s.upsetAt t us).setTile t (s.replayTile t us f)).noteSaturated
      ((s.tile t).upset us).cnt.integReplay (((s.tile t).upset us).cnt.integReplay.add 1) a t 1).draw).draw).noteRead
      t (s.replayOf t us f).2)) := by
  refine ⟨(Config.freeWord s.draws).toNat % 2 ^ 32, ?_⟩
  show execLocalReplay t id us s = _
  unfold execLocalReplay
  rw [State.onLive_next]
  refine ⟨by simpa using ht, ?_⟩
  rw [if_pos hs]
  dsimp only
  have hx : (s.updTile t (·.upset us)).tile t = (s.tile t).upset us := s.upsetAt_tile t us
  obtain ⟨_, hu⟩ := (s.tile t).upset_keeps us
  have hfx : ((s.tile t).upset us).flight id = some f := by rw [hu]; exact hf
  have hrx : (s.updTile t (·.upset us)).runs t = true := (s.upsetAt_runs t us t).trans hr
  have hgo : (!f.failed || decide (((s.tile t).upset us).cycle ≤ f.fire + f.issue + f.depth) ||
      decide ((((s.tile t).upset us).engine ((engineOf (opCode (((s.tile t).upset us).op f.index))).getD 0)).freeAt > ((s.tile t).upset us).cycle) ||
      (((s.tile t).upset us).engine ((engineOf (opCode (((s.tile t).upset us).op f.index))).getD 0)).fired ||
      !(s.updTile t (·.upset us)).runs t) = false := by
    have hop : ((s.tile t).upset us).op f.index = (s.tile t).op f.index := by rw [hu]; rfl
    have hen (e : Nat) : ((s.tile t).upset us).engine e = (s.tile t).engine e := by rw [hu]; rfl
    have hcy : ((s.tile t).upset us).cycle = (s.tile t).cycle := by rw [hu]
    rw [hrx, hop, hen, hfd, hfl, hcy, decide_eq_false (by omega), decide_eq_false (by omega)]
    rfl
  rw [hx, hfx]
  dsimp only
  rw [hgo, if_neg (by decide), if_neg (by simp [hi])]
  rfl

theorem State.localReplay_row (hcl : ((s.tile t).upset us).Clean) : ∃ z, exec (.localReplay t id us) s = .next z ∧
    (z.tile t).flight id = some (s.replayOf t us f).1.1 ∧ (z.tile t).cnt.integReplay = (s.tile t).cnt.integReplay.add 1 ∧
    (∀ v, v ≠ t → z.tile v = s.tile v) ∧ z.mem = s.mem := by
  obtain ⟨a, hx⟩ := State.localReplay_exec (us := us) hs ht hf hfl hi hc hr he hfd
  refine ⟨_, hx, ?_⟩
  obtain ⟨_, hu⟩ := (s.tile t).upset_keeps us
  have hrd : (s.replayOf t us f).2.Clean := State.context_clean (t := t) (k := f.index) hcl _ _
  have hid : (s.replayOf t us f).1.1.id = id := (show _ = f.id from rfl).trans (Tile.flight_id hf)
  have hrt : ((s.replayTile t us f).flight id = some (s.replayOf t us f).1.1 ∧
      (s.replayTile t us f).cnt.integReplay = (s.tile t).cnt.integReplay.add 1) := by
    refine ⟨?_, ?_⟩
    · have h := Tile.setFlight_same (x := (s.tile t).upset us) (id := id) (f := f) (g := (s.replayOf t us f).1.1) (by rw [hu]; exact hf) hid
      exact h
    · show (((s.tile t).upset us).cnt.integReplay.add 1) = _
      rw [hu]
  have hvt : ((s.upsetAt t us).setTile t (s.replayTile t us f)).tile t = s.replayTile t us f := (State.setTile_tile ..).trans (if_pos rfl)
  have hvo (i : Nat) (h : i ≠ t) : ((s.upsetAt t us).setTile t (s.replayTile t us f)).tile i = s.tile i := by
    rw [State.setTile_tile, if_neg h, State.upsetAt, State.updTile_tile, if_neg h]
  have hvm : ((s.upsetAt t us).setTile t (s.replayTile t us f)).mem = s.mem := rfl
  generalize (s.upsetAt t us).setTile t (s.replayTile t us f) = v at hvt hvo hvm
  obtain ⟨_, _, hn⟩ := State.noteSaturated_only (s := v) ((s.tile t).upset us).cnt.integReplay (((s.tile t).upset us).cnt.integReplay.add 1) a t 1
  rw [hn]
  generalize hw : State.draw (State.draw { v with host := _, ledger := _ }) = w
  have hwt (i : Nat) : w.tile i = v.tile i := by rw [← hw]; rfl
  have hwm : w.mem = v.mem := by rw [← hw]; rfl
  have hrep := State.noteRead_replays (s := w) (t := t) hrd
  obtain ⟨_, _, _, _, hr⟩ := State.noteRead_clean (s := w) (t := t) hrd
  obtain ⟨_, _, ha⟩ := State.raiseAll_only (s := w.noteRead t (s.replayOf t us f).2) (s.replayOf t us f).1.2
  rw [ha]
  have hnt : ∃ cn te, (w.noteRead t (s.replayOf t us f).2).tile t = { w.tile t with cnt := cn, tarnErr := te } := by
    rw [hr]
    exact ⟨_, _, (State.setTile_tile ..).trans (if_pos rfl)⟩
  obtain ⟨_, _, hnt⟩ := hnt
  refine ⟨?_, ?_, fun i h => ?_, ?_⟩
  · show ((w.noteRead t (s.replayOf t us f).2).tile t).flight id = _
    rw [hnt]
    show (w.tile t).flight id = _
    rw [hwt, hvt]
    exact hrt.1
  · exact hrep.trans (by rw [hwt, hvt]; exact hrt.2)
  · show (w.noteRead t (s.replayOf t us f).2).tile i = _
    rw [hr]
    exact ((State.setTile_tile ..).trans (if_neg h)).trans ((hwt i).trans (hvo i h))
  · show (w.noteRead t (s.replayOf t us f).2).mem = _
    rw [hr]
    exact hwm.trans hvm

end replay

/-- What a completion without poison leaves, by whatever row its firing completes. -/
theorem State.finish_row {g : Firing} {v z : State} (hp : g.poison = false) (hn : (g.writes.map (·.1)).Nodup) (hz : z = v.finish t g) :
    (v.tile t).Commits g (z.tile t) ∧ (∀ i, i ≠ t → z.tile i = v.tile i) ∧
      ∃ ts pl gs l h, z = { v with tiles := ts, planes := pl, graphs := gs, ledger := l, host := h } := by
  rw [State.finish_clean hp] at hz
  obtain ⟨ht, ho, hfr⟩ := v.commit_firing t g
  rw [hz, ht]
  exact ⟨Tile.commit_commits hp hn, ho, hfr⟩

/-- Settles O41: what a completion commits, and what a local replay puts in flight. -/
theorem firingsComplete : Obligations.FiringsComplete := by
  intro s t id f x hs ht hx hf
  subst hx
  refine ⟨fun c hp hn hl hc => ?_, fun us hfl hi hcy hr he hfd hcl => ?_⟩
  · have hrow : ∃ g v, exec c s = .next (State.finish t g v) ∧ (g.writes = f.writes ∧ g.regs = f.regs ∧ g.outs = f.outs ∧ g.id = id ∧
        g.sat = f.sat ∧ g.poison = false) ∧ ∃ pl, v = { s with planes := pl } := by
      have hid := Tile.flight_id hf
      rcases hc with ⟨rfl, ho, hfl, hcy⟩ | ⟨rfl, ho, hla, hcy⟩ | ⟨rfl, hcy, b, ms, v, k, hsm, hr⟩
      · exact ⟨f, s, State.operationComplete_row hs ht hf hl ho hfl hcy, ⟨rfl, rfl, rfl, hid, rfl, hp⟩, _, rfl⟩
      · exact ⟨f, s, State.memoryOperationComplete_row hs ht hf hl ho hla hcy, ⟨rfl, rfl, rfl, hid, rfl, hp⟩, _, rfl⟩
      · exact ⟨{ f with acks := 0 }, _, State.summitRelease_row hs ht hf hl hcy hsm hr, ⟨rfl, rfl, rfl, hid, rfl, hp⟩, _, rfl⟩
    obtain ⟨g, v, hx, ⟨hw, hrg, hou, hid, hsat, hgp⟩, _, hv⟩ := hrow
    obtain ⟨hcm, hot, _, _, _, _, _, hfr⟩ := State.finish_row (t := t) hgp (by rw [hw]; exact hn) rfl
    have hvt : v.tile t = s.tile t := by rw [hv]; rfl
    rw [hvt] at hcm
    obtain ⟨hin, hout, hreg, hem, hfs, hst, hcfg, hq⟩ := hcm
    rw [hw] at hin hout
    rw [hrg] at hreg
    refine ⟨_, hx, hin, hout, fun r v h => ?_, fun h => ?_, by rw [hem, hou], by rw [hfs, hid], by rw [hst, hsat], hcfg, hq, fun i hi => ?_, ?_⟩
    · rw [hreg, h]; rfl
    · rw [hreg, h]; rfl
    · rw [hot i hi, hv]; rfl
    · rw [hfr, hv]
  · obtain ⟨z, hz, hfl', hint, hot, hm⟩ := State.localReplay_row hs ht hf hfl hi hcy hr he hfd hcl
    refine ⟨z, _, hz, hfl', rfl, rfl, rfl, ?_, rfl, rfl, hint, hot, hm⟩
    obtain ⟨⟨_, _, hxx⟩, -⟩ := State.context_x (s := s.upsetAt t us) (t := t) (k := f.index) ((s.tile t).upset us) f.inputs f.regsAt
    obtain ⟨_, hu⟩ := (s.tile t).upset_keeps us
    show ((s.upsetAt t us).context t f.index ((s.tile t).upset us) f.inputs f.regsAt).1.x.cycle = _
    rw [hxx, hu]

end Sys2Proof.Machine
end

section
/-! PROOF. A row on its way to a tile, where the number of its sender makes its up-link the tile's own down-link (R252, R255). -/

namespace Sys2Proof.Machine

/-- A graph of one virtual tile, with one expert map of one expert. -/
def expertGraph : Graph :=
  { image := { Image.empty with xmaps := [⟨1, 4, 64, [⟨0, 1, 4, 0⟩]⟩] }, mode := .native, place := [0], buntings := [], generation := 0
    serving := none, sched := .reset, change := none, scree := 0, screeBytes := 0, spills := [], sampleAddr := 0, sampleRecords := 0
    sampleSeq := 0, suspended := false, stopped := false, unloading := none, abandon := none, verify := .reset }

/-- Its tile, with a dispatch queue under the expert. -/
def expertTile : Tile :=
  { Tile.reset with
    use := .bound 0 0, on := true, tarnPower := .active
    cfg := { TileCfg.reset with queues := [(4, { QueueCfg.reset with source := 2, depth := 4, bufBase := 1024, bufWords := 8 })] } }

/-- A row to tile 0 from 4096, which is no tile. -/
def strayRow : RowMsg := ⟨0, 0, 0, 4096, 0, 7, 0, 5, List.replicate 64 1, false, 0, .start⟩

/-- The row under way: by its sender's number its packet rises over the link 0x1000, the down-link of tile 0. There a control flit waits,
which has had its five cycles in the frame that is at its end. -/
def crossing : State :=
  { State.reset with
    devState := .ready, hotSwap := { HotSwap.reset with switchOn := true, present := true, inRange := true, vin := 50000 }
    fw := { Firmware.reset with running := true }, graphs := [(0, some expertGraph)], tiles := [(0, expertTile)]
    planes := { Planes.reset with rows := [strayRow], outs := [(0x1000, ⟨[.arrive 0 0], 15, 5, 0⟩)] } }

/-- Risen, the packet has left a flit of itself on the down-link, so that the row does not reach its queue. -/
theorem crossing_waits : (match exec (.expertRowArrival 0 4 none [] [] []) crossing with
    | .next t => ((t.tile 0).dispatch 4).rows == 0
    | _ => false) = true := by
  decide +kernel

/-- Refutes O42: the down-link is asked before the packet has risen, and nothing says that the sender is a tile. -/
theorem not_tileArrivals : ¬ Obligations.TileArrivals := by
  intro h
  obtain ⟨-, -, -, hrow, -, -⟩ := h crossing 0 (crossing.tile 0) (by decide +kernel) (by decide) rfl
  obtain ⟨⟨y, xm, e⟩, hq⟩ : ∃ k, crossing.expertQueue 0 4 = some k := Option.isSome_iff_exists.1 (by decide +kernel)
  have he : e.capacity = 4 := by
    have h4 : (crossing.expertQueue 0 4).map (·.2.2.capacity) = some 4 := by decide +kernel
    rw [hq] at h4
    exact Option.some.inj h4
  obtain ⟨z, hz, hd, -⟩ := hrow 4 0 [] [] y xm e strayRow [] [] (by decide) hq
    (by decide +kernel) (by decide +kernel) (by decide +kernel) (by decide +kernel) (by decide +kernel) (by decide +kernel)
    (by decide +kernel) (by decide +kernel) (by decide +kernel) (by decide +kernel) (by decide +kernel) rfl (by simp) rfl
    (by decide +kernel) (by decide +kernel) (by decide +kernel) (by rw [he]; decide +kernel) (by decide +kernel) (by decide +kernel)
  have hw := crossing_waits
  rw [hz] at hw
  have h1 : ((z.tile 0).dispatch 4).rows = ((crossing.tile 0).dispatch 4).rows + 1 := congrArg Dispatch.rows hd
  simp only [beq_iff_eq, h1] at hw
  omega

end Sys2Proof.Machine
end


section
/-! PROOF. The leak of fault scores and the continual stress test (R371 to R380). -/

namespace Sys2Proof.Machine

variable {s t u : State} {i : Nat}

/-! ### A part's score -/

theorem State.setScore_score (k : PartKind) (id n p j : Nat) :
    (s.setScore k id n p).score k j = if j = id then (n, p) else s.score k j := by
  cases k
  case tile | tarn =>
    rw [State.score, State.setScore, State.updTile_tile]
    split <;> rfl
  case router | link =>
    rw [State.score, State.setScore]
    dsimp only
    rw [Tab.get_put, Tab.get_put]
    split <;> rfl
  case slice =>
    rw [State.score, State.setScore, State.updSlice_slice]
    split <;> rfl
  case cxl =>
    rw [State.score, State.setScore, State.updRange_range]
    split <;> rfl
  case filzor =>
    rw [State.score, State.setScore, State.updPort_port]
    split <;> rfl
  case phase =>
    rw [State.score, State.setScore, State.updPhase_phase]
    split <;> rfl

/-- A score's change and its reports: the host's record, the event and the defect entry beside the score. -/
theorem State.settleScore_only (k : PartKind) (id old n c : Nat) :
    ∃ h ev df, s.settleScore k id old n c = { s.setScore k id n (nextPart (partThresholds k) old n) with
      host := h, ledger := { (s.setScore k id n (nextPart (partThresholds k) old n)).ledger with events := ev, defects := df } } := by
  generalize hv : s.setScore k id n (nextPart (partThresholds k) old n) = v
  rw [State.settleScore]
  dsimp only
  rw [hv]
  split
  · exact ⟨_, _, _, rfl⟩
  · obtain ⟨h, hr⟩ := State.raise_only (s := v) (0x1605 + nextPart (partThresholds k) old n) n (partCode k) id
    rw [hr]
    split
    · rw [State.addDefect]
      split
      · exact ⟨_, _, _, rfl⟩
      · exact ⟨_, _, _, rfl⟩
    · exact ⟨_, _, _, rfl⟩

theorem State.settle_unfenced {k : PartKind} {id old n c : Nat} (h : old = 3 ∨ nextPart (partThresholds k) old n ≠ 3) :
    s.settle k id old n c = s.settleScore k id old n c := by
  rw [State.settle]
  exact if_neg (by
    rcases h with h | h
    · simp [h]
    · simp [h])

theorem nextPart_below {th : Nat × Nat × Nat} {old n : Nat} (h : old ≠ 3) (hn : n < th.2.2) : nextPart th old n ≠ 3 := by
  rw [nextPart, if_neg (by simp [h, hn])]
  split
  · decide
  · split <;> decide

/-! ### The leak -/

/-- One part's leak (R371). -/
def State.leakOne (k : PartKind) (s : State) (id : Nat) : State :=
  let old := s.score k id
  if old.1 = 0 then s else s.settle k id old.2 (old.1 - 1) 0

/-- What the leak of scores keeps of a state. -/
def State.LeakKeeps (s t : State) : Prop :=
  t.cairn = s.cairn ∧ t.leaks = s.leaks ∧ t.mem.hbm = s.mem.hbm ∧ t.mem.cxl = s.mem.cxl ∧ t.graphs = s.graphs

theorem State.LeakKeeps.refl (s : State) : s.LeakKeeps s := ⟨rfl, rfl, rfl, rfl, rfl⟩

theorem State.LeakKeeps.trans (h : s.LeakKeeps t) (h' : t.LeakKeeps u) : s.LeakKeeps u := by
  obtain ⟨a, b, c, d, e⟩ := h
  obtain ⟨a', b', c', d', e'⟩ := h'
  exact ⟨a'.trans a, b'.trans b, c'.trans c, d'.trans d, e'.trans e⟩

theorem State.setScore_leakKeeps (k : PartKind) (id n p : Nat) : s.LeakKeeps (s.setScore k id n p) := by
  cases k <;> exact ⟨rfl, rfl, rfl, rfl, rfl⟩

theorem State.leakOne_spec {k : PartKind} {id : Nat} (h : (s.score k id).2 = 3 ∨ (s.score k id).1 ≤ (partThresholds k).2.2) :
    s.LeakKeeps (s.leakOne k id) ∧ ((s.leakOne k id).score k id).1 = (s.score k id).1 - 1 ∧
      ∀ j, j ≠ id → (s.leakOne k id).score k j = s.score k j := by
  rw [State.leakOne]
  split
  · next h0 => exact ⟨.refl s, by omega, fun _ _ => rfl⟩
  · next h0 =>
    have hu : (s.score k id).2 = 3 ∨ nextPart (partThresholds k) (s.score k id).2 ((s.score k id).1 - 1) ≠ 3 := by
      rcases h with h | h
      · exact .inl h
      · exact (Classical.em ((s.score k id).2 = 3)).imp_right fun h3 => nextPart_below h3 (by omega)
    rw [State.settle_unfenced hu]
    obtain ⟨hh, ev, df, he⟩ := State.settleScore_only (s := s) k id (s.score k id).2 ((s.score k id).1 - 1) 0
    have hs : ∀ j, (s.settleScore k id (s.score k id).2 ((s.score k id).1 - 1) 0).score k j =
        (s.setScore k id ((s.score k id).1 - 1) (nextPart (partThresholds k) (s.score k id).2 ((s.score k id).1 - 1))).score k j := by
      intro j
      rw [he]
      cases k <;> rfl
    refine ⟨(State.setScore_leakKeeps k id _ _).trans (by rw [he]; exact ⟨rfl, rfl, rfl, rfl, rfl⟩), ?_, fun j hj => ?_⟩
    · rw [hs, State.setScore_score, if_pos rfl]
    · rw [hs, State.setScore_score, if_neg hj]

/-- The leak of the first `n` parts of a kind. -/
theorem State.leakAll_spec {k : PartKind} (n : Nat)
    (h : ∀ id, id < n → (s.score k id).2 = 3 ∨ (s.score k id).1 ≤ (partThresholds k).2.2) :
    s.LeakKeeps ((List.range n).foldl (State.leakOne k) s) ∧
      (∀ id, id < n → (((List.range n).foldl (State.leakOne k) s).score k id).1 = (s.score k id).1 - 1) ∧
      ∀ id, n ≤ id → ((List.range n).foldl (State.leakOne k) s).score k id = s.score k id := by
  induction n with
  | zero => exact ⟨.refl s, fun _ h => absurd h (Nat.not_lt_zero _), fun _ _ => rfl⟩
  | succ n ih =>
    obtain ⟨hk, hin, hout⟩ := ih fun id hid => h id (by omega)
    rw [List.range_succ, List.foldl_append]
    generalize (List.range n).foldl (State.leakOne k) s = v at hk hin hout
    obtain ⟨hk', hsame, hother⟩ := State.leakOne_spec (s := v) (k := k) (id := n) (by rw [hout n (Nat.le_refl n)]; exact h n (by omega))
    refine ⟨hk.trans hk', fun id hid => ?_, fun id hid => (hother id (by omega)).trans (hout id (by omega))⟩
    rcases Nat.lt_succ_iff_lt_or_eq.1 hid with hlt | rfl
    · exact (congrArg Prod.fst (hother id (by omega))).trans (hin id hlt)
    · exact hsame.trans (by rw [hout id (Nat.le_refl id)])

/-- `FAULT_SCORE_LEAK` (R371). -/
theorem State.faultScoreLeak_row {k : PartKind}
    (h : ∀ id, id < partCount k → (s.score k id).2 = 3 ∨ (s.score k id).1 ≤ (partThresholds k).2.2) :
    ∃ z, exec (.faultScoreLeak k) s = .next z ∧ (∀ id, id < partCount k → (z.score k id).1 = (s.score k id).1 - 1) ∧
      z.cairn = cairnMax s.cairn (roundUp (s.nextLeak k) 4) ∧ Tab.get 0 z.leaks (partCode k) = z.cairn + 1 ∧
      z.mem.hbm = s.mem.hbm ∧ z.mem.cxl = s.mem.cxl ∧ z.graphs = s.graphs := by
  obtain ⟨c, hc, hadv⟩ := State.advanceTo_instant (s := s) (s.nextLeak k)
  have hx : exec (.faultScoreLeak k) s = .next ((List.range (partCount k)).foldl (State.leakOne k)
      { s with cairn := c, leaks := Tab.put 0 (partCode k) (c + 1) s.leaks }) := by
    show execFaultScoreLeak k s = _
    rw [execFaultScoreLeak, hadv]
    rfl
  have hs : ∀ id, ({ s with cairn := c, leaks := Tab.put 0 (partCode k) (c + 1) s.leaks } : State).score k id = s.score k id := by
    intro id
    cases k <;> rfl
  obtain ⟨⟨h1, h2, h3, h4, h5⟩, hin, -⟩ := State.leakAll_spec
    (s := { s with cairn := c, leaks := Tab.put 0 (partCode k) (c + 1) s.leaks }) (k := k) (partCount k)
    fun id hid => by rw [hs]; exact h id hid
  refine ⟨_, hx, fun id hid => (hin id hid).trans (by rw [hs]), h1.trans hc, ?_, h3, h4, h5⟩
  rw [h1, h2]
  exact Tab.get_put_same (k := partCode k) (v := c + 1) (m := s.leaks)

/-! ### Stress sessions -/

theorem State.retryAll_unsuspended (h : ∀ g ∈ s.graphIds, ∀ y, s.graph? g = some y → y.suspended = false) : s.retryAll = s := by
  unfold State.retryAll
  refine List.foldlRecOn (motive := fun v => v = s) _ _ rfl fun v hv g hg => ?_
  subst hv
  rw [State.retry]
  split
  · rfl
  · next y hy => exact if_pos (by simp [h g hg y hy])

/-- `STRESS_SESSION_START` (R377, R378). -/
theorem State.stressSessionStart_row {m n : Nat} (hs : s.inService = true) (hm : m < 20) (hb : s.power.brownout = false)
    (hh : s.power.halted = false) (hw : s.power.inputW * 700000 ≤ 9 * s.power.limit)
    (hu : ∀ i, i < 16 → ∀ a b c, (s.tile (m * 16 + i)).use ≠ .stress a b c)
    (hf : ((((List.range 16).map fun i => m * 16 + i).filter fun u => decide (u > s.lastStressed m)) ++
      ((List.range 16).map fun i => m * 16 + i).filter fun u => decide (u ≤ s.lastStressed m)).find? s.stressable = some n) :
    exec (.stressSessionStart m) s =
      .next ((s.updTile n fun x => { x.clear with use := .stress (s.cairn + 20000000000) 0 false }).turnTileOn n) := by
  show execStressSessionStart m s = _
  rw [execStressSessionStart, State.onLive_next]
  refine ⟨by simpa using hm, ?_⟩
  rw [if_pos hs]
  dsimp only
  rw [if_neg, hf]
  rw [hb, hh]
  simp only [Bool.false_or, Bool.or_eq_true, decide_eq_true_eq, not_or, Nat.not_lt, List.any_eq_true, not_exists, not_and]
  refine ⟨hw, fun a ha => ?_⟩
  obtain ⟨i, hi, rfl⟩ := List.mem_map.1 ha
  split
  · next e c b he => exact absurd he (hu i (List.mem_range.1 hi) e c b)
  · decide

/-- The report of a session whose retest has ended. -/
theorem State.endRetest_only (n e cs : Nat) (p : Bool) : ∃ h, s.endRetest n e cs p = { s with
    host := h
    ledger := { s.ledger with
      sessions := s.ledger.sessions ++ [(n, s.sessionMs e, cs, if p then 1 else 3)]
      events := s.ledger.events ++ [(s.cairn, ⟨0x1609, cs, n, if p then 1 else 3⟩)] } } := by
  obtain ⟨h, hr⟩ := State.raise_only (s := s.recordSession n (s.sessionMs e) cs (if p then 1 else 3)) 0x1609 cs n (if p then 1 else 3)
  exact ⟨h, hr⟩

/-- A tile's score set with its reports, and no other part. -/
theorem State.settleScore_tile (n old c j : Nat) : (s.settleScore .tile i old n c).tile j =
    if j = i then { s.tile i with score := n, part := nextPart (partThresholds .tile) old n } else s.tile j := by
  obtain ⟨h, ev, df, he⟩ := State.settleScore_only (s := s) .tile i old n c
  rw [he]
  exact State.updTile_tile (s := s) i j fun x => { x with score := n, part := nextPart (partThresholds .tile) old n }

/-- A tile fenced once its score is set. -/
theorem State.fenced_tile (hv : t.tile i = { s.tile i with score := (t.tile i).score, part := 3 })
    (ho : ∀ j, j ≠ i → t.tile j = s.tile j) : ((t.fenceTile i).tile i).fenced = true ∧ ((t.fenceTile i).tile i).part = 3 ∧
      ∀ j, j ≠ i → (t.fenceTile i).tile j = s.tile j :=
  ⟨State.fenceTile_fenced i, (State.fenceTile_score i).2.trans (by rw [hv]), fun j hj => (State.fenceTile_other hj).trans (ho j hj)⟩

theorem State.fenceNow_tile {c : Nat} (hp : (s.tile i).part ≠ 3) : ((s.fenceNow i c).tile i).fenced = true ∧
    ((s.fenceNow i c).tile i).part = 3 ∧ ∀ j, j ≠ i → (s.fenceNow i c).tile j = s.tile j := by
  rw [State.fenceNow, State.fenceAt, if_neg (show ¬(s.score .tile i).2 = 3 from hp)]
  generalize max (s.score .tile i).1 4096 = n
  obtain ⟨ts, hts, htl⟩ : ∃ ts, s.setScore .tile i n 3 = { s with tiles := ts } ∧ ∀ j, ({ s with tiles := ts } : State).tile j =
      if j = i then { s.tile i with score := n, part := 3 } else s.tile j :=
    ⟨_, rfl, fun j => State.updTile_tile (s := s) i j fun x => { x with score := n, part := 3 }⟩
  obtain ⟨h, hr⟩ := State.raise_only (s := { s with tiles := ts }) 0x1608 n (partCode .tile) i
  have hd : ∀ j, (((s.setScore .tile i n 3).raise 0x1608 n (partCode .tile) i).addDefect (partCode .tile) 3 i c).tile j =
      ({ s with tiles := ts } : State).tile j := by
    intro j
    rw [hts, hr, State.addDefect]
    split <;> rfl
  exact State.fenced_tile (by rw [hd, htl, if_pos rfl]) fun j hj => by rw [hd, htl, if_neg hj]

/-- A weight below the fence added to a tile's score. -/
theorem State.blameTile_below {w c : Nat} (hp : (s.tile i).part ≠ 3) (hw : (s.tile i).score + w < 4096) :
    ∃ h ev df ts p, s.blame .tile i w c = { s with host := h, tiles := ts, ledger := { s.ledger with events := ev, defects := df } } ∧
      ∀ j, ({ s with tiles := ts } : State).tile j =
        if j = i then { s.tile i with score := (s.tile i).score + w, part := p } else s.tile j := by
  have hn : min ((s.tile i).score + w) 65535 = (s.tile i).score + w := by omega
  have hf : nextPart (partThresholds .tile) (s.tile i).part ((s.tile i).score + w) ≠ 3 := nextPart_below hp hw
  obtain ⟨h, ev, df, he⟩ := State.settleScore_only (s := s) .tile i (s.tile i).part ((s.tile i).score + w) c
  refine ⟨h, ev, df, _, nextPart (partThresholds .tile) (s.tile i).part ((s.tile i).score + w), ?_,
    fun j => State.updTile_tile (s := s) i j fun x =>
      { x with score := (s.tile i).score + w, part := nextPart (partThresholds .tile) (s.tile i).part ((s.tile i).score + w) }⟩
  rw [State.blame]
  show s.settle .tile i (s.tile i).part (min ((s.tile i).score + w) 65535) c = _
  rw [hn, State.settle_unfenced (.inr hf), he]
  rfl

/-- A weight that fences a tile. -/
theorem State.blameTile_fences {w c : Nat} (hp : (s.tile i).part ≠ 3) (hw : 4096 ≤ (s.tile i).score + w) :
    ((s.blame .tile i w c).tile i).fenced = true ∧ ((s.blame .tile i w c).tile i).part = 3 ∧
      ∀ j, j ≠ i → (s.blame .tile i w c).tile j = s.tile j := by
  have hn : nextPart (partThresholds .tile) (s.tile i).part (min ((s.tile i).score + w) 65535) = 3 :=
    if_pos (Bool.or_eq_true_iff.2 (.inr (decide_eq_true (show 4096 ≤ min ((s.tile i).score + w) 65535 by omega))))
  have hb : s.blame .tile i w c =
      (s.settleScore .tile i (s.tile i).part (min ((s.tile i).score + w) 65535) c).fenceTile i := by
    show s.settle .tile i (s.tile i).part (min ((s.tile i).score + w) 65535) c = _
    rw [State.settle]
    exact if_pos (by rw [hn]; simpa using hp)
  rw [hb]
  refine State.fenced_tile ?_ fun j hj => ?_
  · rw [State.settleScore_tile, if_pos rfl, hn]
  · rw [State.settleScore_tile, if_neg hj]

/-- `STRESS_SESSION_END` (R379). -/
theorem State.stressSessionEnd_row {e cs n : Nat} (hs : s.inService = true) (hi : i < 320) (hu : (s.tile i).use = .stress e cs false)
    (hg : ∀ g y, s.graph? g = some y → y.suspended = false) :
    ∃ z, exec (.stressSessionEnd i n) s = .next z ∧ z.ledger.sessions = s.ledger.sessions ++ [(i, 20000, n, 0)] ∧
      (z.tile i).use = .free ∧ ((s.tile i).on = true → z.hasStaging i false = true) ∧ (∀ u, u ≠ i → z.tile u = s.tile u) ∧
      z = { s with tiles := z.tiles, ledger := z.ledger, power := z.power, mem := { s.mem with stagingDone := z.mem.stagingDone }
                   cairn := cairnMax s.cairn (roundUp e 4) } := by
  obtain ⟨c, hc, hadv⟩ := State.advanceTo_instant (s := s) e
  generalize hv : ({ s with cairn := c } : State).recordSession i 20000 n 0 = v
  have hx : exec (.stressSessionEnd i n) s = .next ((v.letGo i).retryAll) := by
    show execStressSessionEnd i s n = _
    rw [execStressSessionEnd, State.onLive_next]
    refine ⟨by simpa using hi, ?_⟩
    rw [if_pos hs, hu]
    dsimp only
    rw [hadv, hv]
  have hot := State.letGo_onlyTiles (s := v) i
  have hgr : (v.letGo i).graphs = s.graphs := by rw [hot.frame, ← hv]; rfl
  rw [State.retryAll_unsuspended fun g _ y hy => hg g y (by rw [← hy, State.graph?, State.graph?, hgr])] at hx
  refine ⟨_, hx, ?_, State.letGo_use i, fun h => (State.letGo_asked (s := v) i).1 (by rw [← hv]; exact h), fun u hu => ?_, ?_⟩
  · rw [hot.frame, ← hv]; rfl
  · rw [hot.tile hu, ← hv]; rfl
  · rw [← hc, hot.frame, ← hv]; rfl

theorem State.stressNominalRetestDone_exec {e cs : Nat} {pass : Bool} (hs : s.inService = true) (hi : i < 320)
    (hu : (s.tile i).use = .stress e cs true) : exec (.stressNominalRetestDone i pass) s =
      .next (if pass then (((s.endRetest i e cs pass).letGo i).retryAll) else (s.endRetest i e cs pass).fenceNow i 0x1609) := by
  show execStressNominalRetestDone i pass s = _
  rw [execStressNominalRetestDone, State.onLive_next]
  refine ⟨by simpa using hi, ?_⟩
  rw [if_pos hs, hu]

theorem State.stressMismatch_exec {e cs cases : Nat} {nominal : Bool} (hs : s.inService = true) (hi : i < 320)
    (hu : (s.tile i).use = .stress e cs false) (hv : t = (s.updTile i fun x => { x with use := .stress e cases true }).blame .tile i 1024 0x1609) :
    exec (.stressMismatch i cases nominal) s = .next (if (t.tile i).fenced then t.endRetest i e cases nominal else t) := by
  show execStressMismatch i cases s nominal = _
  rw [execStressMismatch, State.onLive_next]
  refine ⟨by simpa using hi, ?_⟩
  rw [if_pos hs, hu]
  dsimp only
  rw [← hv]

/-- The tile of a session whose retest begins, and the state around it. -/
theorem State.retest_tiles {e cases : Nat} : ∃ ts, (s.updTile i fun x => { x with use := .stress e cases true }) = { s with tiles := ts } ∧
    ∀ j, ({ s with tiles := ts } : State).tile j = if j = i then { s.tile i with use := .stress e cases true } else s.tile j :=
  ⟨_, rfl, fun j => State.updTile_tile (s := s) i j fun x => { x with use := .stress e cases true }⟩

theorem State.endRetest_tile {n e cs : Nat} {p : Bool} (j : Nat) : (s.endRetest n e cs p).tile j = s.tile j := by
  obtain ⟨h, hr⟩ := State.endRetest_only (s := s) n e cs p
  rw [hr]
  rfl

/-- `STRESS_MISMATCH` of a tile whose score stays below the fence (R372, R379). -/
theorem State.stressMismatch_below {e cs cases : Nat} (hs : s.inService = true) (hi : i < 320)
    (hu : (s.tile i).use = .stress e cs false) (hp : (s.tile i).part ≠ 3) (hw : (s.tile i).score + 1024 < 4096) :
    ∃ z, exec (.stressMismatch i cases) s = .next z ∧ (z.tile i).use = .stress e cases true ∧
      (z.tile i).score = (s.tile i).score + 1024 ∧ (∀ u, u ≠ i → z.tile u = s.tile u) ∧ z.mem = s.mem := by
  obtain ⟨ts, hts, htl⟩ := State.retest_tiles (s := s) (i := i) (e := e) (cases := cases)
  have hi' := (htl i).trans (if_pos rfl)
  obtain ⟨h, ev, df, us, p, hb, hut⟩ := State.blameTile_below (s := { s with tiles := ts }) (i := i) (w := 1024) (c := 0x1609)
    (by rw [hi']; exact hp) (by rw [hi']; exact hw)
  have hx := State.stressMismatch_exec (cases := cases) (nominal := true) hs hi hu rfl
  rw [hts, hb] at hx
  generalize hv : ({ s with host := h, tiles := us, ledger := { s.ledger with events := ev, defects := df } } : State) = v at hx
  have hvt : ∀ j, v.tile j =
      if j = i then { s.tile i with use := .stress e cases true, score := (s.tile i).score + 1024, part := p } else s.tile j := by
    intro j
    rw [← hv]
    refine (hut j).trans ?_
    rw [hi', htl]
    split <;> rfl
  have hvm : v.mem = s.mem := by rw [← hv]
  have hz : ∀ w : State, w = v ∨ w = v.endRetest i e cases true → (∀ j, w.tile j = v.tile j) ∧ w.mem = s.mem := by
    rintro w (rfl | rfl)
    · exact ⟨fun _ => rfl, hvm⟩
    · obtain ⟨h, hr⟩ := State.endRetest_only (s := v) i e cases true
      exact ⟨State.endRetest_tile, by rw [hr]; exact hvm⟩
  obtain ⟨hzt, hzm⟩ := hz _ ((ite_eq_or_eq ((v.tile i).fenced = true) (v.endRetest i e cases true) v).symm)
  refine ⟨_, hx, ?_, ?_, fun u hu => ?_, hzm⟩
  · rw [hzt, hvt, if_pos rfl]
  · rw [hzt, hvt, if_pos rfl]
  · rw [hzt, hvt, if_neg hu]

/-- `STRESS_MISMATCH` of a tile whose score reaches the fence (R372, R379). -/
theorem State.stressMismatch_fences {e cs cases : Nat} {nominal : Bool} (hs : s.inService = true) (hi : i < 320)
    (hu : (s.tile i).use = .stress e cs false) (hp : (s.tile i).part ≠ 3) (hw : 4096 ≤ (s.tile i).score + 1024) :
    ∃ z, exec (.stressMismatch i cases nominal) s = .next z ∧ (z.tile i).fenced = true ∧ (z.tile i).part = 3 ∧
      z.ledger.sessions = s.ledger.sessions ++ [(i, s.sessionMs e, cases, if nominal then 1 else 3)] ∧
      ∀ u, u ≠ i → z.tile u = s.tile u := by
  obtain ⟨ts, hts, htl⟩ := State.retest_tiles (s := s) (i := i) (e := e) (cases := cases)
  have hi' := (htl i).trans (if_pos rfl)
  obtain ⟨h1, h2, h3⟩ := State.blameTile_fences (s := { s with tiles := ts }) (i := i) (w := 1024) (c := 0x1609)
    (by rw [hi']; exact hp) (by rw [hi']; exact hw)
  have hx := State.stressMismatch_exec (cases := cases) (nominal := nominal) hs hi hu rfl
  have hworn := (State.Worn.refl { s with tiles := ts }).blame (k := .tile) (id := i) (w := 1024) (c := 0x1609)
  rw [hts] at hx
  generalize State.blame .tile i 1024 0x1609 { s with tiles := ts } = v at hx h1 h2 h3 hworn
  rw [if_pos h1] at hx
  obtain ⟨h, hr⟩ := State.endRetest_only (s := v) i e cases nominal
  have hc : v.sessionMs e = s.sessionMs e := by rw [hworn.frame]; rfl
  refine ⟨_, hx, ?_, ?_, ?_, fun u hu => ?_⟩
  · rw [State.endRetest_tile]; exact h1
  · rw [State.endRetest_tile]; exact h2
  · rw [hr, hc, hworn.frame]
  · rw [State.endRetest_tile, h3 u hu, htl, if_neg hu]

/-- Settles O49: the leak and each end of a stress session, by its row. -/
theorem scoresAndStress : Obligations.ScoresAndStress := by
  refine ⟨fun s k h => State.faultScoreLeak_row h, fun s m n hs hm hb hh hw hu hf => ?_, fun s n e cs b hs hn hu hg =>
    ⟨?_, ?_, ?_, ?_⟩, fun s n e cs cases nominal hs hn hu hp hf hw => ?_⟩
  · have hv : ∀ j, (s.updTile n fun x => { x.clear with use := .stress (s.cairn + 20000000000) 0 false }).tile j =
        if j = n then { (s.tile n).clear with use := .stress (s.cairn + 20000000000) 0 false } else s.tile j := fun j => State.updTile_tile ..
    have hst := State.turnTileOn_onlyStagings (s := s.updTile n fun x => { x.clear with use := .stress (s.cairn + 20000000000) 0 false }) n
    refine ⟨_, State.stressSessionStart_row hs hm hb hh hw hu hf, ?_, ?_, fun hon hl => ?_, fun u hu => ?_, ?_⟩
    · rw [hst.tile, hv, if_pos rfl]
    · rw [hst.tile, hv, if_pos rfl]; rfl
    · exact (State.turnTileOn_asks (s := s.updTile n fun x => { x.clear with use := .stress (s.cairn + 20000000000) 0 false }) hh).1
        (by rw [hv, if_pos rfl]; exact hon) (by simpa using hl)
    · rw [hst.tile, hv, if_neg hu]
    · rw [hst.frame]; rfl
  · rintro rfl n
    exact State.stressSessionEnd_row hs hn hu hg
  · rintro rfl
    obtain ⟨h, hr⟩ := State.endRetest_only (s := s) n e cs true
    have hx := State.stressNominalRetestDone_exec (pass := true) hs hn hu
    rw [if_pos rfl] at hx
    generalize s.endRetest n e cs true = v at hr hx
    have hot := State.letGo_onlyTiles (s := v) n
    have hgr : (v.letGo n).graphs = s.graphs := by rw [hot.frame, hr]
    rw [State.retryAll_unsuspended fun g _ y hy => hg g y (by rw [← hy, State.graph?, State.graph?, hgr])] at hx
    refine ⟨_, hx, ?_, State.letGo_use n, ?_, fun u hu => ?_⟩
    · rw [hot.frame, hr]; rfl
    · rw [hot.frame, hr]; exact List.mem_append_right _ (List.mem_singleton.2 rfl)
    · rw [hot.tile hu, hr]; rfl
  · rintro rfl hp -
    obtain ⟨h, hr⟩ := State.endRetest_only (s := s) n e cs false
    have hx := State.stressNominalRetestDone_exec (pass := false) hs hn hu
    rw [if_neg (by decide)] at hx
    generalize s.endRetest n e cs false = v at hr hx
    have htl : ∀ j, v.tile j = s.tile j := fun j => by rw [hr]; rfl
    obtain ⟨h1, h2, h3⟩ := State.fenceNow_tile (s := v) (i := n) (c := 0x1609) (by rw [htl]; exact hp)
    exact ⟨_, hx, h1, h2, fun u hu => (h3 u hu).trans (htl u)⟩
  · rintro cases rfl hp hw
    exact State.stressMismatch_below hs hn hu hp hw
  · exact State.stressMismatch_fences hs hn hu hp hw

end Sys2Proof.Machine
end


section
/-! PROOF. A change of configuration, the end of an abandonment, and the comparison of digests (R157, R163 to R169, R357, R365). -/

namespace Sys2Proof.Machine

variable {s t u : State} {i g v : Nat} {x : Tile} {y : Graph}

theorem Tab.get_clear {α : Type} {d : α} {m : Tab α} {lo n j : Nat} (h : lo ≤ j) (hn : j < lo + n) : Tab.get d (Tab.clear lo n m) j = d := by
  induction m with
  | nil => rfl
  | cons e m ih =>
    rw [Tab.clear, List.filter_cons]
    split
    · next he =>
      rw [Tab.get, if_neg, ← Tab.clear, ih]
      rintro rfl
      simp [h, hn] at he
    · exact ih

/-! ### Links between tiles -/

/-- Nothing of any tile changes but its channels and the receives posted at it. -/
def State.Relinked (s t : State) : Prop :=
  (∃ ts, t = { s with tiles := ts }) ∧ ∀ w, t.tile w = { s.tile w with
    run := { (s.tile w).run with channels := (t.tile w).run.channels, posted := (t.tile w).run.posted } }

/-- Nothing of any tile changes but its channels. -/
def State.Rechannelled (s t : State) : Prop :=
  (∃ ts, t = { s with tiles := ts }) ∧ ∀ w, t.tile w = { s.tile w with
    run := { (s.tile w).run with channels := (t.tile w).run.channels } }

theorem State.Relinked.refl (s : State) : s.Relinked s := ⟨⟨_, rfl⟩, fun _ => rfl⟩

theorem State.Relinked.trans (h : s.Relinked t) (h' : t.Relinked u) : s.Relinked u := by
  obtain ⟨⟨_, hs⟩, ht⟩ := h
  obtain ⟨⟨_, hu⟩, hv⟩ := h'
  exact ⟨⟨_, by rw [hu, hs]⟩, fun w => by rw [hv w, ht w]⟩

theorem State.Rechannelled.refl (s : State) : s.Rechannelled s := ⟨⟨_, rfl⟩, fun _ => rfl⟩

theorem State.Rechannelled.trans (h : s.Rechannelled t) (h' : t.Rechannelled u) : s.Rechannelled u := by
  obtain ⟨⟨_, hs⟩, ht⟩ := h
  obtain ⟨⟨_, hu⟩, hv⟩ := h'
  exact ⟨⟨_, by rw [hu, hs]⟩, fun w => by rw [hv w, ht w]⟩

theorem State.Rechannelled.relinked (h : s.Rechannelled t) : s.Relinked t := by
  obtain ⟨hs, ht⟩ := h
  exact ⟨hs, fun w => by rw [ht w]⟩

theorem State.updChannels_rechannelled (i : Nat) (f : Tile → Tab Channel) :
    s.Rechannelled (s.updTile i fun x => x.updRun fun r => { r with channels := f x }) := by
  refine ⟨⟨_, rfl⟩, fun w => ?_⟩
  rw [State.updTile_tile]
  split
  · next h => rw [h]; rfl
  · rfl

theorem State.updPosted_relinked (i : Nat) (f : List (Nat × Nat × Nat) → List (Nat × Nat × Nat)) :
    s.Relinked (s.updTile i fun x => x.updRun fun r => { r with posted := f r.posted }) := by
  refine ⟨⟨_, rfl⟩, fun w => ?_⟩
  rw [State.updTile_tile]
  split
  · next h => rw [h]; rfl
  · rfl

theorem State.releaseChannels_rechannelled (g : Nat) : s.Rechannelled (s.releaseChannels g) := by
  unfold State.releaseChannels
  split
  · exact .refl s
  · exact List.foldlRecOn (motive := fun t : State => s.Rechannelled t) _ _ (.refl s) fun t ht i _ =>
      ht.trans (State.updChannels_rechannelled i _)

theorem State.repost_relinked (i v : Nat) : s.Relinked (s.repost i v) := by
  unfold State.repost
  split
  · exact .refl s
  · refine List.foldlRecOn (motive := fun t : State => s.Relinked t) _ _ ?_ fun t ht f _ => ?_
    · exact List.foldlRecOn (motive := fun t : State => s.Relinked t) _ _ (.refl s) fun t ht i _ =>
        ht.trans (State.updPosted_relinked i fun _ => _)
    · dsimp only
      split
      · exact List.foldlRecOn (motive := fun t : State => s.Relinked t) _ _ ht fun t ht i _ =>
          ht.trans (State.updPosted_relinked i (· ++ [_]))
      · exact ht

/-! ### The passage of a Burgee -/

theorem State.activateUnit_unswapped (h : s.swaps i = false) : s.activateUnit i = s := by
  rw [State.activateUnit]
  split
  · rfl
  · next d hd =>
    refine if_neg fun ha => ?_
    simp [State.swaps, ha, hd] at h

/-- A change that some unit has yet to pass, or whose serving parameters have yet to come, goes on. -/
theorem State.finishChange_goesOn {c : Change} (hy : s.graph? g = some y) (hc : y.change = some c)
    (h : y.servingCame c = false ∨ ∃ u ∈ c.place, u < 320 ∧ (s.tile u).cfg.generation ≠ y.nextGen) :
    s.finishChange g = s ∨ s.finishChange g = s.setGraph g (some { y with mode := if c.image.mode = 0 then .native else .compat }) := by
  rw [State.finishChange, hy]
  dsimp only
  rw [hc]
  dsimp only
  split
  · exact .inl rfl
  · next hp =>
    have hp : c.placed = true ∧ s.allPassed y c = true := by simpa using hp
    rcases h with h | ⟨u, hu, hlt, hgen⟩
    · rw [if_pos (by simp [h])]
      exact .inr rfl
    · have hall := List.all_eq_true.1 (Bool.and_eq_true_iff.1 hp.2).1 u hu
      simp [hgen, Nat.not_le.2 hlt] at hall

theorem Tile.consumed_fold_keeps (l : List Nat) : ∃ r, (l.foldl (fun z q =>
    if z.fedFromOutside q then
      let y := z.updQueue q fun z => { z with toks := z.toks.drop 1 }
      if (z.qcfg q).source = 0 then y.updCredit q fun c => { c with returning := c.returning + 1 } else y
    else z) x) = { x with run := r } := by
  refine List.foldlRecOn (motive := fun z : Tile => ∃ r, z = { x with run := r }) _ _ ⟨_, rfl⟩ fun z hz q _ => ?_
  obtain ⟨r, rfl⟩ := hz
  dsimp only
  split
  · split <;> exact ⟨_, rfl⟩
  · exact ⟨_, rfl⟩

theorem Tile.dropBurgees_keeps : ∃ r, x.dropBurgees = { x with run := r } := Tile.consumed_fold_keeps x.consumed

theorem Tile.pass_spec (new : TileCfg) : (x.pass new false).cfg = new ∧ (x.pass new false).staged = some x.cfg ∧
    (x.pass new false).run.burgeePassed = true ∧ (x.pass new false).tarn = x.tarn ∧
    (x.cfg.same new = false → (x.pass new false).run.switchUntil = some (x.cycle + 512 + 256 * dist x.cfg.layerUnits new.layerUnits)) := by
  obtain ⟨r, hr⟩ := Tile.dropBurgees_keeps (x := x)
  rw [Tile.pass, Tile.switches]
  split
  · next h =>
    rw [hr]
    refine ⟨rfl, rfl, rfl, rfl, fun h' => ?_⟩
    simp [h'] at h
  · exact ⟨rfl, rfl, rfl, rfl, fun _ => rfl⟩

/-- The markers behind the last words of a unit's channels. -/
theorem State.sendMarkers_words {r : Nat × Route} (hr : r ∈ (s.tile i).cfg.routes) (he : r.2.enable = true) :
    ∃ m ∈ (s.sendMarkers i).planes.words, m.marker = true ∧ m.src = i ∧ m.srcChan = r.1 ∧ m.tile = r.2.dest ∧ m.chan = r.2.chan :=
  ⟨_, List.mem_append_right _ (List.mem_map.2 ⟨r, List.mem_filter.2 ⟨hr, he⟩, rfl⟩), rfl, rfl, rfl, rfl, rfl⟩

/-- What a unit that passes sends ahead of its switch (R165, R169). -/
def State.passSends (s : State) (i v : Nat) (y : Graph) (new : TileCfg) : State :=
  if (s.tile i).switches new false then (s.burgeeRecords i v y.nextGen y).sendMarkers i else s.burgeeRecords i v y.nextGen y

theorem State.passSends_planes (new : TileCfg) : ∃ pl, s.passSends i v y new = { s with planes := pl } ∧
    ((s.tile i).cfg.same new = false → ∀ r ∈ (s.tile i).cfg.routes, r.2.enable = true →
      ∃ m ∈ pl.words, m.marker = true ∧ m.src = i ∧ m.srcChan = r.1 ∧ m.tile = r.2.dest ∧ m.chan = r.2.chan) := by
  rw [State.passSends]
  split
  · exact ⟨_, rfl, fun _ r hr he => State.sendMarkers_words (s := s.burgeeRecords i v y.nextGen y) hr he⟩
  · next h => exact ⟨_, rfl, fun h' => by simp [Tile.switches, h'] at h⟩

section Pass

variable {c : Change} (hs : s.inService = true) (hi : i < 320) (hu : (s.tile i).use = .bound g v) (hy : s.graph? g = some y)
  (hc : y.change = some c) (hp : c.placed = true) (hg : (s.tile i).cfg.generation = y.generation) (hr : s.runs i = true)
  (hpr : s.passReady y v i = true) (hf : s.feeds y v (s.tile i).cfg.generation = []) (hw : s.withShadows i = [i])
  (hpl : c.place.getD v 320 < 320) (hsw : s.swaps i = false)

include hs hi hu hy hc hp hg hr hpr hf hw hpl hsw

/-- `BURGEE_PASS` of a unit that feeds no circuit and has no shadow (R164 to R166). -/
theorem State.burgeePass_exec {new : TileCfg} (hn : new = c.image.tileCfg c.place y.nextGen v) (ht : t = s.passSends i v y new) :
    exec (.burgeePass i) s = .next (((if (s.tile i).switches new false then t.updTile i (·.pass new false)
      else (t.updTile i (·.pass new false)).repost i v).activateUnit i |>.releaseChannels g).finishChange g) := by
  show execBurgeePass i s = _
  rw [execBurgeePass, State.onLive_next]
  refine ⟨by simpa using hi, ?_⟩
  rw [if_pos hs, hu]
  dsimp only
  rw [hy]
  dsimp only
  rw [hc]
  dsimp only
  rw [hf, if_pos (by rw [hp, hr, hpr]; simpa using hg), if_pos hpl, hw, hsw, ← hn, ht]
  rfl

/-- What `BURGEE_PASS` leaves while the change goes on. -/
theorem State.burgeePass_row (hgo : y.servingCame c = false ∨ ∃ u ∈ c.place, u < 320 ∧ u ≠ i ∧ (s.tile u).cfg.generation ≠ y.nextGen)
    {new : TileCfg} (hn : new = c.image.tileCfg c.place y.nextGen v) :
    ∃ z w, exec (.burgeePass i) s = .next z ∧ ((s.passSends i v y new).updTile i (·.pass new false)).Relinked w ∧
      (z = w ∨ z = w.setGraph g (some { y with mode := if c.image.mode = 0 then .native else .compat })) := by
  have hx := State.burgeePass_exec hs hi hu hy hc hp hg hr hpr hf hw hpl hsw hn rfl
  obtain ⟨pl, hpl', -⟩ := State.passSends_planes (s := s) (i := i) (v := v) (y := y) new
  rw [hpl'] at hx ⊢
  have hti : ∀ j, j ≠ i → (({ s with planes := pl } : State).updTile i (·.pass new false)).tile j = s.tile j := fun j hj =>
    (State.updTile_tile (s := { s with planes := pl }) i j (·.pass new false)).trans (if_neg hj)
  obtain ⟨ts, hts⟩ : ∃ ts, ({ s with planes := pl } : State).updTile i (·.pass new false) = { s with planes := pl, tiles := ts } := ⟨_, rfl⟩
  rw [hts] at hx hti ⊢
  have hrel : State.Relinked { s with planes := pl, tiles := ts }
      (if (s.tile i).switches new false then { s with planes := pl, tiles := ts }
        else State.repost i v { s with planes := pl, tiles := ts }) := by
    split
    · exact .refl _
    · exact State.repost_relinked i v
  generalize (if (s.tile i).switches new false then ({ s with planes := pl, tiles := ts } : State)
    else State.repost i v { s with planes := pl, tiles := ts }) = w at hx hrel
  have hws : w.swaps i = false := by
    obtain ⟨⟨us, rfl⟩, -⟩ := hrel
    exact hsw
  rw [State.activateUnit_unswapped hws] at hx
  have hrel' := hrel.trans (State.releaseChannels_rechannelled (s := w) g).relinked
  generalize w.releaseChannels g = z at hx hrel'
  have hzy : z.graph? g = some y := by
    obtain ⟨⟨us, rfl⟩, -⟩ := hrel'
    exact hy
  refine ⟨_, z, hx, hrel', State.finishChange_goesOn hzy hc (hgo.imp_right ?_)⟩
  rintro ⟨u, hu, hlt, hne, hgen⟩
  refine ⟨u, hu, hlt, ?_⟩
  rw [hrel'.2 u, hti u hne]
  exact hgen

end Pass

/-! ### The end of a switch -/

/-- A tile whose switch has ended, with the receives posted at it. -/
def Tile.switched (x : Tile) (ps : List (Nat × Nat × Nat)) (e : Nat) : Tile :=
  { (x.clearBetween (x.run.clearFrom.getD x.cfg.layerUnits) x.cfg.layerUnits).updRun (fun r =>
      { r with switchUntil := none, clearFrom := none, credits := x.cfg.credits, posted := ps }) with
    cycle := max x.cycle (roundUp e 8) }

/-- `BURGEE_SWITCH_COMPLETE` (R165, R166). -/
theorem State.burgeeSwitchComplete_row {e : Nat} (hs : s.inService = true) (hi : i < 320) (he : (s.tile i).run.switchUntil = some e)
    (ho : s.owner i = some (g, v)) (hg : s.graphFor i = some y) :
    ∃ z ps, exec (.burgeeSwitchComplete i) s = .next z ∧ (s.setTile i ((s.tile i).switched ps e)).Rechannelled z := by
  refine ⟨(s.setTile i ((s.tile i).switched (s.postsFor y v (s.tile i).cfg.generation) e)).releaseChannels g, _, ?_,
    State.releaseChannels_rechannelled g⟩
  show execBurgeeSwitchComplete i s = _
  rw [execBurgeeSwitchComplete, State.onLive_next]
  refine ⟨by simpa using hi, ?_⟩
  rw [if_pos hs]
  dsimp only
  rw [ho, hg, he]
  rfl

/-- The words that change region are zero (R109). -/
theorem Tile.switched_cleared {ps : List (Nat × Nat × Nat)} {e n a : Nat} (hn : x.run.clearFrom = some n)
    (hl : min n x.cfg.layerUnits * 8192 ≤ a) (hh : a < max n x.cfg.layerUnits * 8192) : Tab.get .zero (x.switched ps e).tarn a = .zero := by
  have hd : min n x.cfg.layerUnits * 8192 + dist n x.cfg.layerUnits * 8192 = max n x.cfg.layerUnits * 8192 := by
    rw [dist, ← Nat.add_mul]
    congr 1
    split <;> omega
  show Tab.get .zero (Tab.clear (min (x.run.clearFrom.getD x.cfg.layerUnits) x.cfg.layerUnits * 8192)
    (dist (x.run.clearFrom.getD x.cfg.layerUnits) x.cfg.layerUnits * 8192) x.tarn) a = .zero
  rw [hn]
  exact Tab.get_clear hl (by rw [Option.getD_some, hd]; exact hh)

/-! ### The end of an abandonment -/

/-- Every graph is as before. -/
def State.SameGraphs (s t : State) : Prop := (∃ gs, t = { s with graphs := gs }) ∧ ∀ h, t.graph? h = s.graph? h

theorem State.SameGraphs.refl (s : State) : s.SameGraphs s := ⟨⟨_, rfl⟩, fun _ => rfl⟩

theorem State.SameGraphs.trans (h : s.SameGraphs t) (h' : t.SameGraphs u) : s.SameGraphs u := by
  obtain ⟨⟨_, hs⟩, ht⟩ := h
  obtain ⟨⟨_, hu⟩, hv⟩ := h'
  exact ⟨⟨_, by rw [hu, hs]⟩, fun w => (hv w).trans (ht w)⟩

theorem State.updGraph_sameGraphs {f : Graph → Graph} (hy : s.graph? g = some y) (hf : f y = y) : s.SameGraphs (s.updGraph g f) := by
  refine ⟨?_, fun h => ?_⟩
  · rw [State.updGraph, hy]
    exact ⟨_, rfl⟩
  · rw [State.updGraph_graph]
    split
    · next h' => rw [h', hy, Option.map_some, hf]
    · rfl

theorem Graph.toCheck_quiet (hb : y.sched.batches = []) : y.toCheck = [] := by
  rw [Graph.toCheck, Graph.inFlight, hb]
  rfl

section Quiet

variable (hy : s.graph? g = some y) (hb : y.sched.batches = []) (hv : y.verify = .reset)

include hy hb hv

omit hv in
theorem State.verifyAnew_quiet : s.SameGraphs (s.verifyAnew g) := by
  rw [State.verifyAnew, hy]
  exact State.updGraph_sameGraphs hy (by dsimp only; rw [hb, List.map_nil, ← hb])

omit hb in
theorem State.dropShadows_quiet : s.SameGraphs (s.dropShadows g) := by
  rw [State.dropShadows, hy]
  dsimp only
  have hseen : y.verify.seen = [] := by rw [hv]; rfl
  have hsh : y.verify.shadows = [] := by rw [hv]; rfl
  rw [hsh]
  exact State.updGraph_sameGraphs hy (by rw [← hseen])

omit hv in
theorem State.relieveMassif_quiet (m : Nat) : s.relieveMassif g m = s := by
  rw [State.relieveMassif, hy]
  exact if_pos (by rw [Graph.toCheck_quiet hb]; rfl)

omit hv in
theorem State.nextRound_quiet : s.nextRound g = s := by
  unfold State.nextRound
  refine List.foldlRecOn (motive := fun v => v = s) _ _ rfl fun w hw m _ => ?_
  subst hw
  rw [hy]
  dsimp only
  rw [Graph.toCheck_quiet hb]
  rfl

theorem State.newRound_quiet : s.SameGraphs (s.newRound g) := by
  have hd := State.dropShadows_quiet hy hv
  rw [State.newRound]
  generalize s.dropShadows g = w at hd
  have hw := (hd.2 g).trans hy
  have hr : (List.range 20).foldl (State.relieveMassif g) w = w :=
    List.foldlRecOn (motive := fun v => v = w) _ _ rfl fun u hu m _ => by rw [hu, State.relieveMassif_quiet hw hb]
  rw [hr, State.nextRound_quiet hw hb]
  exact hd

theorem State.changeShadows_quiet (causes : List Nat) : s.SameGraphs (s.changeShadows g causes) := by
  have hr : y.verify.resolving = none := by rw [hv]; rfl
  rw [State.changeShadows, hy]
  dsimp only
  rw [hr]
  dsimp only
  split
  · exact State.newRound_quiet hy hb hv
  · have ha := State.verifyAnew_quiet hy hb
    exact ha.trans (State.newRound_quiet ((ha.2 g).trans hy) hb hv)

end Quiet

/-- Some tiles changed alike, each once or more. -/
theorem State.foldl_updTile {f : Tile → Tile} (hf : ∀ x, f (f x) = f x) (l : List Nat) :
    (∃ ts, l.foldl (fun s t => s.updTile t f) s = { s with tiles := ts }) ∧
      ∀ j, (l.foldl (fun s t => s.updTile t f) s).tile j = if j ∈ l then f (s.tile j) else s.tile j := by
  induction l generalizing s with
  | nil => exact ⟨⟨_, rfl⟩, fun _ => rfl⟩
  | cons k l ih =>
    obtain ⟨⟨ts, hts⟩, ht⟩ := ih (s := s.updTile k f)
    refine ⟨⟨ts, hts⟩, fun j => (ht j).trans ?_⟩
    rw [State.updTile_tile]
    by_cases hk : j = k
    · subst hk
      rw [if_pos rfl, if_pos (List.mem_cons_self ..), hf]
      exact ite_self _
    · rw [if_neg hk]
      simp only [List.mem_cons, hk, false_or]

/-- A tile that runs again. -/
def Tile.released (x : Tile) : Tile := x.updRun fun r => { r with stopped := false }

/-- The tiles of a graph without a change run again. -/
theorem State.letRun_spec (hy : s.graph? g = some y) (hc : y.change = none) : (∃ ts, s.letRun g = { s with tiles := ts }) ∧
    ∀ j, (s.letRun g).tile j = if j ∈ s.graphTiles g then (s.tile j).released else s.tile j := by
  have hrun : s.letRun g = (s.graphTiles g).foldl (fun s t => s.updTile t Tile.released) s := by
    rw [State.letRun, hy]
    dsimp only
    rw [hc]
    rfl
  rw [hrun]
  exact State.foldl_updTile (f := Tile.released) (fun _ => rfl) _

theorem State.moveCircle_none (hy : s.graph? g = some y) : s.moveCircle g [] = s := by
  rw [State.moveCircle, hy]
  dsimp only
  rw [if_neg (by simp)]
  show (match s.graph? g with | none => s | some _ => s) = s
  rw [hy]

theorem replaceOrder_none (fs : List (Nat × Nat)) : replaceOrder fs [] = [] := by
  rw [replaceOrder]
  simp

/-- The passes of a graph without batches and without a change delivered again: its tiles run. -/
theorem State.deliverAgain_quiet {cs hs : List Nat} (hy : s.graph? g = some y) (hb : y.sched.batches = []) (hc : y.change = none) :
    s.deliverAgain g cs hs = s.letRun g := by
  rw [State.deliverAgain, hy]
  dsimp only
  rw [show y.inFlight = [] by rw [Graph.inFlight, hb]; rfl]
  obtain ⟨⟨ts, hts⟩, -⟩ := State.letRun_spec hy hc
  rw [State.burgeeAgain, List.foldl_nil, hts]
  have hg : ({ s with tiles := ts } : State).graph? g = some y := hy
  rw [hg]
  dsimp only
  rw [hc]

section Drain

variable {a : Abandon} (hs : s.inService = true) (hg : g < 8) (hids : s.graphIds = [g]) (hy : s.graph? g = some y)
  (ha : y.abandon = some a) (hstop : a.toStop = []) (hd : a.drained = false) (hh : s.power.halted = false) (hr : a.replace = [])
  (hun : y.unplaced = []) (hsu : y.suspended = false) (hc : y.change = none) (hv : y.verify = .reset) (hb : y.sched.batches = [])

include hs hg hids hy ha hstop hd hh hr hun hsu hc hv hb

/-- `ABANDON_DRAIN_DONE` of a graph that needs no tile and has no batch (R357). -/
theorem State.abandonDrainDone_row : ∃ z, exec (.abandonDrainDone g) s = .next z ∧ z.graph? g = some { y with abandon := none } ∧
    (∀ t, t ∈ s.graphTiles g → (z.tile t).run.stopped = false) ∧ (∀ t, t ∉ s.graphTiles g → z.tile t = s.tile t) ∧
    z = { s with graphs := z.graphs, tiles := z.tiles
                 cairn := if a.until_ = 0 then s.cairn else cairnMax s.cairn (roundUp a.until_ 4) } := by
  have h0 : (if a.until_ = 0 then s else s.advanceTo a.until_) =
      { s with cairn := if a.until_ = 0 then s.cairn else cairnMax s.cairn (roundUp a.until_ 4) } := by
    split <;> rfl
  generalize (if a.until_ = 0 then s.cairn else cairnMax s.cairn (roundUp a.until_ 4)) = c at h0 ⊢
  have hyc : ({ s with cairn := c } : State).graph? g = some y := hy
  have hset : ∀ h, (State.setGraph { s with cairn := c } g (some { y with abandon := none })).graph? h =
      if h = g then some { y with abandon := none } else s.graph? h := fun h => State.setGraph_graph ..
  have hsg := State.changeShadows_quiet (s := State.setGraph { s with cairn := c } g (some { y with abandon := none }))
    (y := { y with abandon := none }) ((hset g).trans (if_pos rfl)) hb hv a.causes
  obtain ⟨gs, hgs⟩ : ∃ gs, State.setGraph { s with cairn := c } g (some { y with abandon := none }) = { s with cairn := c, graphs := gs } :=
    ⟨_, rfl⟩
  rw [hgs] at hsg hset
  have hx : exec (.abandonDrainDone g) s = .next (match (State.changeShadows g a.causes { s with cairn := c, graphs := gs }).graph? g with
      | none => State.changeShadows g a.causes { s with cairn := c, graphs := gs }
      | some w => if w.abandon.isSome then State.changeShadows g a.causes { s with cairn := c, graphs := gs } else
          ((State.changeShadows g a.causes { s with cairn := c, graphs := gs }).deliverAgain g a.causes a.removed).retryAll) := by
    show execAbandonDrainDone g s = _
    rw [execAbandonDrainDone, State.onLive_next]
    refine ⟨by simpa using hg, ?_⟩
    rw [if_pos hs, hy]
    dsimp only
    rw [ha]
    dsimp only
    rw [if_neg (by simp [hstop, hd, hh]), hr, hun, h0]
    simp only [List.append_nil, List.dedup_nil, List.filter_nil, replaceOrder_none, List.foldl_nil]
    rw [hyc, Option.map_some, if_neg (by rw [hsu]; decide), State.moveCircle_none hyc, hyc]
    dsimp only
    rw [if_neg (by rw [hsu]; decide), hgs] <;> rfl
  generalize State.changeShadows g a.causes { s with cairn := c, graphs := gs } = w at hx hsg
  obtain ⟨⟨gs', rfl⟩, hsame⟩ := hsg
  have hw : ({ s with cairn := c, graphs := gs' } : State).graph? g = some { y with abandon := none } :=
    (hsame g).trans ((hset g).trans (if_pos rfl))
  rw [hw] at hx
  dsimp only at hx
  rw [if_neg (by simp), State.deliverAgain_quiet hw hb hc] at hx
  obtain ⟨⟨ts, hts⟩, ht⟩ := State.letRun_spec hw hc
  rw [hts] at hx ht
  have hids' : ∀ h ∈ ({ s with cairn := c, graphs := gs', tiles := ts } : State).graphIds, h = g := by
    intro h hh
    obtain ⟨h8, hsome⟩ := List.mem_filter.1 hh
    by_contra hne
    have hsome : (s.graph? h).isSome = true := by
      have hh := (hsame h).trans ((hset h).trans (if_neg hne))
      rw [← hh]
      exact hsome
    have hmem : h ∈ s.graphIds := List.mem_filter.2 ⟨h8, hsome⟩
    rw [hids] at hmem
    exact hne (List.mem_singleton.1 hmem)
  rw [State.retryAll_unsuspended] at hx
  · refine ⟨_, hx, hw, fun t h => ?_, fun t h => ?_, rfl⟩
    · exact congrArg (fun x : Tile => x.run.stopped) ((ht t).trans (if_pos h))
    · exact (ht t).trans (if_neg h)
  · intro h hh z hz
    obtain rfl := hids' h hh
    obtain rfl := Option.some.inj (hw.symm.trans hz)
    exact hsu

end Drain

/-! ### Digests -/

/-- Events raised one after another stand behind those before. -/
theorem State.raiseAll_appends (es : List Event) : ∃ h l, State.raiseAll es s = { s with
    host := h, ledger := { s.ledger with events := s.ledger.events ++ l } } := by
  unfold State.raiseAll
  refine List.foldlRecOn (motive := fun t : State => ∃ h l, t = { s with host := h, ledger := { s.ledger with
    events := s.ledger.events ++ l } }) es _ ⟨_, [], by rw [List.append_nil]⟩ ?_
  rintro _ ⟨h, l, rfl⟩ e _
  obtain ⟨h', hr⟩ := State.raise_only (s := { s with host := h, ledger := { s.ledger with events := s.ledger.events ++ l } })
    e.code e.a e.b e.c
  exact ⟨h', l ++ [(s.cairn, ⟨e.code, e.a, e.b, e.c⟩)], by rw [hr, ← List.append_assoc]⟩

theorem State.abandon_appends (g c : Nat) (rm rp : List Nat) : ∃ gs h l, s.abandon g c rm rp = { s with
    graphs := gs, host := h, ledger := { s.ledger with events := s.ledger.events ++ l } } := by
  unfold State.abandon
  split
  · exact ⟨_, _, [], by rw [List.append_nil]⟩
  · next x hx =>
    obtain ⟨h, l, hr⟩ := State.raiseAll_appends (s := s.setGraph g (some { x with abandon := some _ }))
      (x.inFlight.map fun b => ⟨0x1601, b.seq, g, c⟩)
    exact ⟨_, h, l, hr⟩

section Digests

variable {id sh : Nat} {p q : Machine.Seen} (hs : s.inService = true) (hi : i < 320) (hsh : sh < 320) (ho : s.owner i = some (g, v))
  (hy : s.graph? g = some y) (hv : (v, sh) ∈ y.verify.shadows) (hr : y.verify.resolving = none)
  (hp : (y.verify.seen.find? fun e => e.tile == i && e.id == id) = some p)
  (hq : (y.verify.seen.find? fun e => e.tile == sh && e.vtile == v && e.op == p.op && e.firing == p.firing) = some q)

include hs hi hsh ho hy hv hp hq

theorem State.digestCompare_exec : exec (.digestCompare i id sh) s = .next (s.compareDigests g p q) := by
  show execDigestCompare i id sh s = _
  rw [execDigestCompare, State.onLive_next]
  refine ⟨by simp [hi, hsh], ?_⟩
  rw [if_pos hs, ho]
  dsimp only
  rw [hy]
  dsimp only
  rw [if_neg (by simpa using hv), hp]
  dsimp only
  rw [hq]

include hr

/-- `DIGEST_COMPARE` of two equal digests (R365). -/
theorem State.digestCompare_equal (h : p.digest = q.digest) : exec (.digestCompare i id sh) s = .next (s.setGraph g (some { y with
    verify := { y.verify with seen := y.verify.seen.filter fun e => e != p && e != q } })) := by
  rw [State.digestCompare_exec hs hi hsh ho hy hv hp hq, State.compareDigests, hy]
  dsimp only
  rw [hr, if_pos (by simp [h])]

/-- `DIGEST_COMPARE` of two digests that differ (R365, R369). -/
theorem State.digestCompare_differ (ha : y.abandon = none) (h : p.digest ≠ q.digest) : ∃ z, exec (.digestCompare i id sh) s = .next z ∧
    (s.cairn, ⟨0x1602, p.digest, tg p.vtile g, q.tile⟩) ∈ z.ledger.events ∧
    (z.graph? g).map (fun w => (w.verify.resolving, w.verify.passes, w.abandon.map (·.causes))) =
      some (some (p.vtile, p.op, p.firing), 1, some [4]) ∧
    z = { s with graphs := z.graphs, ledger := z.ledger, host := z.host } := by
  obtain ⟨hst, hraise⟩ := State.raise_only (s := s) 0x1602 p.digest (tg p.vtile g) q.tile
  obtain ⟨ver, hver, hx⟩ : ∃ ver : Verify, (ver.resolving = some (p.vtile, p.op, p.firing) ∧ ver.passes = 1) ∧
      exec (.digestCompare i id sh) s = .next
        (((s.raise 0x1602 p.digest (tg p.vtile g) q.tile).setGraph g (some { y with verify := ver })).abandon g 4 [] []) := by
    refine ⟨{ y.verify with
      seen := y.verify.seen.filter fun e => e != p && e != q
      resolving := some (p.vtile, p.op, p.firing), evidence := [(p.tile, p.digest), (q.tile, q.digest)], passes := 1
      used := [q.tile] }, ⟨rfl, rfl⟩, ?_⟩
    rw [State.digestCompare_exec hs hi hsh ho hy hv hp hq, State.compareDigests, hy]
    dsimp only
    rw [hr, if_neg (by simp [h])]
    rfl
  rw [hraise] at hx
  generalize hw : State.setGraph { s with host := hst, ledger := { s.ledger with
    events := s.ledger.events ++ [(s.cairn, ⟨0x1602, p.digest, tg p.vtile g, q.tile⟩)] } } g (some { y with verify := ver }) = w at hx
  have hwg : w.graph? g = some { y with verify := ver } := by
    rw [← hw, State.setGraph_graph, if_pos rfl]
  obtain ⟨a, hag, hac⟩ := State.abandon_graph (c := 4) (rm := []) (rp := []) hwg
  obtain ⟨gs, hst', l, hfr⟩ := State.abandon_appends (s := w) g 4 [] []
  refine ⟨_, hx, ?_, ?_, ?_⟩
  · rw [hfr, ← hw]
    exact List.mem_append_left _ (List.mem_append_right _ (List.mem_singleton.2 rfl))
  · rw [hag, Option.map_some]
    dsimp only
    rw [Option.map_some, hac, hver.1, hver.2, show y.abandon = none from ha]
    rfl
  · rw [hfr, ← hw]
    rfl

end Digests

/-- Settles O48: the passage of a Burgee, the end of a switch, the end of an abandonment, and the comparison of digests, by their
rows. -/
theorem changeAndVerifyRows : Obligations.ChangeAndVerifyRows := by
  refine ⟨?_, ?_, ?_, ?_⟩
  · intro s t g v y c x hs ht hx hu hy hc hp hg hr hpr hf hw hpl hsw hgo
    subst hx
    obtain ⟨z, w, hexec, hrel, hz⟩ := State.burgeePass_row hs ht hu hy hc hp hg hr hpr hf hw hpl hsw hgo rfl
    obtain ⟨pl, hpl, hmark⟩ := State.passSends_planes (s := s) (i := t) (v := v) (y := y) (c.image.tileCfg c.place y.nextGen v)
    generalize c.image.tileCfg c.place y.nextGen v = new at *
    rw [hpl] at hrel
    obtain ⟨h1, h2, h3, h4, h5⟩ := Tile.pass_spec (x := s.tile t) new
    have hti : ∀ j, (({ s with planes := pl } : State).updTile t (·.pass new false)).tile j =
      if j = t then (s.tile t).pass new false else s.tile j := fun j => State.updTile_tile ..
    obtain ⟨⟨ts, hts⟩, hwt⟩ := hrel
    have hzt : ∀ j, z.tile j = w.tile j := by rcases hz with rfl | rfl <;> exact fun _ => rfl
    have ht' := (hzt t).trans ((hwt t).trans (by rw [hti t, if_pos rfl]))
    refine ⟨z, hexec, ?_, ?_, ?_, fun h => ?_, fun h r hr he => ?_, ?_, fun j hj => ?_, ?_, fun h hh => ?_, ?_⟩
    · rw [ht']; exact h1
    · rw [ht']; exact h2
    · rw [ht']; exact h3
    · rw [ht']; exact h5 h
    · have hp : z.planes = pl := by rcases hz with rfl | rfl <;> rw [hts] <;> rfl
      rw [hp]
      exact hmark h r hr he
    · rw [ht']; exact h4
    · rw [hzt j, hwt j, hti j, if_neg hj]
    · rcases hz with rfl | rfl
      · left; rw [hts]; exact hy
      · right; rw [State.setGraph_graph, if_pos rfl]
    · rcases hz with rfl | rfl
      · rw [hts]; rfl
      · rw [State.setGraph_graph, if_neg hh, hts]; rfl
    · rcases hz with rfl | rfl <;> rw [hts] <;> rfl
  · intro s t g v e y x hs ht hx he ho hg
    subst hx
    obtain ⟨z, ps, hexec, ⟨ts, hz⟩, hzt⟩ := State.burgeeSwitchComplete_row hs ht he ho hg
    have hsame := hzt t
    rw [State.setTile_tile, if_pos rfl] at hsame
    refine ⟨z, hexec, ?_, ?_, ?_, ?_, fun n a hn hl hh => ?_, fun w hw => ?_, by rw [hz]; rfl⟩
    · rw [hsame]; rfl
    · rw [hsame]; rfl
    · rw [hsame]; rfl
    · rw [hsame]; rfl
    · rw [hsame]; exact Tile.switched_cleared (ps := ps) (e := e) hn hl hh
    · rw [hzt w, State.setTile_tile, if_neg hw]
  · intro s g y a hs hg hids hy ha hstop hd hh hr hun hsu hc hv hb
    exact State.abandonDrainDone_row hs hg hids hy ha hstop hd hh hr hun hsu hc hv hb
  · intro s t id sh g v y p q hs ht hsh ho hy ha hv hr hp hq
    exact ⟨State.digestCompare_equal hs ht hsh ho hy hv hr hp hq, State.digestCompare_differ hs ht hsh ho hy hv hr hp hq ha⟩

end Sys2Proof.Machine
end


section
/-! PROOF. What a write of bytes can change (R122, R225, R229): the bytes and marks of HBM and of the CXL tier, and of a Tarn that is
staged. -/

namespace Sys2Proof.Machine

variable {s t u : State} {i : Nat}

/-! ### Writes to HBM and the CXL tier -/

/-- Nothing changes but the bytes and marks of HBM and the CXL tier. -/
def State.Stored (s t : State) : Prop := ∃ h c w, t = { s with mem := { s.mem with hbm := h, cxl := c, wrong := w } }

theorem State.Stored.refl (s : State) : s.Stored s := ⟨_, _, _, rfl⟩

theorem State.Stored.trans (h : s.Stored t) (h' : t.Stored u) : s.Stored u := by
  obtain ⟨_, _, _, rfl⟩ := h
  obtain ⟨_, _, _, rfl⟩ := h'
  exact ⟨_, _, _, rfl⟩

theorem State.setSpace_stored (sp : Nat) (m : Memory) : s.Stored (s.setSpace sp m) := by
  unfold State.setSpace
  split <;> exact ⟨_, _, _, rfl⟩

theorem State.setPoison_stored (sp l : Nat) (on : Bool) : s.Stored (s.setPoison sp l on) := State.setSpace_stored ..

theorem State.markLines_stored (sp off n : Nat) (p : Bool) : s.Stored (s.markLines sp off n p) := by
  unfold State.markLines
  extract_lets l whole v
  have hv : s.Stored v := by
    unfold v
    split
    · exact ⟨_, _, _, rfl⟩
    · exact .refl s
  refine hv.trans ?_
  split
  · exact State.setPoison_stored ..
  · split
    · exact State.setPoison_stored ..
    · exact .refl v

theorem State.store_stored (sp off : Nat) (bs : List Byte) (p : Bool) : s.Stored (s.store sp off bs p) :=
  (State.setSpace_stored sp _).trans (State.markLines_stored ..)

theorem State.writeCxl_stored (off : Nat) (bs : List Byte) (p : Bool) : s.Stored (s.writeCxl off bs p).1 := by
  unfold State.writeCxl
  split
  · exact State.store_stored ..
  · exact .refl s

/-! ### Writes anywhere -/

/-- A write leaves, of a tile, everything but its use, its Tarn and the changes that its operations see, and of the module nothing but
memory, tiles and stagings. -/
def State.Wrote (s t : State) : Prop :=
  (∃ ts pw h c w, t = { s with tiles := ts, power := pw, mem := { s.mem with hbm := h, cxl := c, wrong := w } }) ∧
    ∀ j, ∃ use tn pb ch, t.tile j = { s.tile j with use := use, tarn := tn, patrolBack := pb, run := { (s.tile j).run with changes := ch } }

theorem State.Wrote.refl (s : State) : s.Wrote s := ⟨⟨_, _, _, _, _, rfl⟩, fun _ => ⟨_, _, _, _, rfl⟩⟩

theorem State.Wrote.trans (h : s.Wrote t) (h' : t.Wrote u) : s.Wrote u := by
  obtain ⟨⟨_, _, _, _, _, hs⟩, ht⟩ := h
  obtain ⟨⟨_, _, _, _, _, hu⟩, hv⟩ := h'
  refine ⟨⟨_, _, _, _, _, by rw [hu, hs]⟩, fun j => ?_⟩
  obtain ⟨_, _, _, _, ht⟩ := ht j
  obtain ⟨_, _, _, _, hv⟩ := hv j
  exact ⟨_, _, _, _, by rw [hv, ht]⟩

theorem State.Stored.wrote (h : s.Stored t) : s.Wrote t := by
  obtain ⟨_, _, _, rfl⟩ := h
  exact ⟨⟨_, _, _, _, _, rfl⟩, fun _ => ⟨_, _, _, _, rfl⟩⟩

theorem State.OnlyStagings.wrote (h : s.OnlyStagings t) : s.Wrote t :=
  ⟨⟨_, _, _, _, _, h.frame⟩, fun j => ⟨_, _, _, _, h.tile j⟩⟩

theorem State.updTile_wrote {f : Tile → Tile} (hf : ∃ use tn pb ch, f (s.tile i) = { s.tile i with
    use := use, tarn := tn, patrolBack := pb, run := { (s.tile i).run with changes := ch } }) : s.Wrote (s.updTile i f) := by
  refine ⟨⟨_, _, _, _, _, rfl⟩, fun j => ?_⟩
  rw [State.updTile_tile]
  split
  · next h => rw [h]; exact hf
  · exact ⟨_, _, _, _, rfl⟩

theorem State.stageWrite_wrote (i off : Nat) (bs : List Byte) (p : Bool) : s.Wrote (s.stageWrite i off bs p).1 := by
  unfold State.stageWrite
  extract_lets free v
  have hv : s.Wrote v := State.updTile_wrote ⟨_, _, _, _, rfl⟩
  split
  · dsimp only
    exact hv.trans (State.updTile_wrote ⟨_, _, _, _, rfl⟩)
  · dsimp only
    split
    · exact hv.trans (State.turnTileOn_onlyStagings i).wrote
    · exact hv

theorem State.writeUnit_wrote (a : Nat) (bs : List Byte) (p : Bool) : s.Wrote (s.writeUnit a bs p).1 := by
  unfold State.writeUnit
  split
  · split
    · exact (State.store_stored ..).wrote
    · exact (State.writeCxl_stored ..).wrote
    · exact .refl s
  · exact (State.writeCxl_stored ..).wrote
  · split
    · exact State.stageWrite_wrote ..
    · exact .refl s
  · exact .refl s
  · exact .refl s

theorem State.writeRun_wrote (n a : Nat) (bs : List Byte) (p : Bool) : s.Wrote (State.writeRun n a bs p s).1 := by
  induction n generalizing a bs s with
  | zero => exact .refl s
  | succ n ih =>
    rw [State.writeRun]
    split
    · exact .refl s
    · dsimp only
      split
      · exact State.writeUnit_wrote ..
      · exact (State.writeUnit_wrote ..).trans (ih ..)

theorem State.write_wrote (a : Nat) (bs : List Byte) (p : Bool) : s.Wrote (s.write a bs p).1 := State.writeRun_wrote ..

/-! ### Writes to HBM -/

theorem State.writeUnit_stored {a : Nat} {bs : List Byte} {p : Bool} (h : s.inHbm a) : s.Stored (s.writeUnit a bs p).1 := by
  obtain ⟨hid, hsp⟩ := h
  have hl : s.locate a = if a % 2 ^ 44 < hbmBytes then .hbm (a % 2 ^ 44) else .fault := by
    rw [State.locate, if_neg (not_not_intro hid)]
    exact if_pos hsp
  unfold State.writeUnit
  rw [hl]
  by_cases hlt : a % 2 ^ 44 < hbmBytes
  · rw [if_pos hlt]
    dsimp only
    split
    · exact State.store_stored ..
    · exact State.writeCxl_stored ..
    · exact .refl s
  · rw [if_neg hlt]
    exact .refl s

theorem State.writeRun_stored {n a : Nat} {bs : List Byte} {p : Bool} (h : s.inHbm a) : s.Stored (State.writeRun n a bs p s).1 := by
  induction n generalizing a bs s with
  | zero => exact .refl s
  | succ n ih =>
    rw [State.writeRun]
    split
    · exact .refl s
    · dsimp only
      obtain ⟨hf, -, hlt⟩ := State.writeUnit_hbm (bs := bs.take (min bs.length (64 - a % 64))) (p := p) h
      have hw := State.writeUnit_stored (bs := bs.take (min bs.length (64 - a % 64))) (p := p) h
      split
      · exact hw
      · next hok =>
        have hok : (s.writeUnit a (bs.take (min bs.length (64 - a % 64))) p).2 = stOk := by simpa using hok
        refine hw.trans (ih ?_)
        have hn := State.inHbm_next (n := bs.length) h (hlt hok)
        exact ⟨hn.1.trans (congrArg Fabric.id hf).symm, hn.2⟩

theorem State.write_stored {a : Nat} {bs : List Byte} {p : Bool} (h : s.inHbm a) : s.Stored (s.write a bs p).1 := State.writeRun_stored h

end Sys2Proof.Machine
end


section
/-! PROOF. Graphs: loading, unloading, policies, status reads, circles of wait edges, the Scree, and depth samples (R154 to R174,
R338 to R340). -/

namespace Sys2Proof.Machine

variable {s t u : State} {i g v q d : Nat} {x : Desc} {y : Graph}

/-! ### Descriptors of a graph -/

theorem State.graphUnload_exec (hx : s.starts d 0x11 (fun _ => ⟨1, 7, [], true⟩) x) (hy : s.servedGraph (x.arg % 8) = some y) :
    exec (.graphUnload d) s = .next ((s.setGraph (x.arg % 8) (some { y with unloading := some d })).holdDesc d) := by
  show execGraphUnload d s = _
  rw [execGraphUnload, State.runDesc_of_starts_local hx (State.starts_local hx (by decide)), hy, State.desc_tag (State.starts_desc hx)]

theorem State.servedGraph_graph (h : s.servedGraph g = some y) : s.graph? g = some y ∧ y.unloading = none := by
  rw [State.servedGraph] at h
  split at h
  · exact absurd h (by simp)
  · next w hw =>
    split at h
    · exact absurd h (by simp)
    · next hu =>
      obtain rfl := Option.some.inj h
      exact ⟨hw, by simpa using hu⟩

theorem State.classPolicy_exec {w : Serving} (hx : s.starts d 0x12 policyForm x) (hy : s.servedGraph (x.arg % 8) = some y)
    (hm : x.get 40 2 = 0) (hw : y.serving = some w) (hok : (policyOf x).ok w.pools.length = true) :
    exec (.classPolicy d) s =
      .next ((s.updSched (x.arg % 8) fun c => { c with newPolicy := some (policyOf x) }).complete x stOk 0 0) := by
  show execClassPolicy d s = _
  rw [execClassPolicy, State.runDesc_of_starts_local hx (State.starts_local hx (by decide))]
  dsimp only
  rw [hy]
  dsimp only
  rw [hw]
  dsimp only
  rw [hok, hm]
  rfl

theorem State.statusRead_tarn (hx : s.starts d 0x13 statusForm x) (ha : x.arg = 1) : exec (.statusRead d) s =
    .next ((s.hostWrite (x.get 24 8) (s.tile (x.get 18 2)).tarnBlock).complete x stOk 0 64) := by
  show execStatusRead d s = _
  rw [execStatusRead, State.runDesc_of_starts_local hx (State.starts_local hx (by decide)), ha]
  rfl

theorem State.statusRead_observation (hx : s.starts d 0x13 statusForm x) (ha : x.arg = 0) (hy : s.servedGraph (x.get 16 1) = some y)
    (hv : x.get 18 2 < y.place.length) : exec (.statusRead d) s =
      .next ((s.hostWrite (x.get 24 8) (s.obsBlock (y.place.getD (x.get 18 2) 320))).complete x stOk 0 0x1080) := by
  show execStatusRead d s = _
  rw [execStatusRead, State.runDesc_of_starts_local hx (State.starts_local hx (by decide)), ha, hy]
  dsimp only
  rw [if_neg (Nat.not_le.2 hv)]
  rfl

/-! ### Circles of wait edges -/

section Circles

variable {circle : List (Nat × Nat)} (hs : s.inService = true) (hg : g < 8) (hy : s.graph? g = some y) (hsu : y.suspended = false)
  (hst : y.stopped = false) (ha : y.abandon = none)

include hs hg hy hsu hst ha

/-- `SCHEDULE_VIOLATION` of a native graph (R160). -/
theorem State.scheduleViolation_row (hm : y.mode = .native) (hc : s.circleStands y 65536 circle = true) :
    ∃ z, exec (.scheduleViolation g circle) s = .next z ∧
      (z.graph? g).map (fun w => (w.mode, w.abandon.map (·.causes))) = some (.degraded, some [3]) ∧ z.tiles = s.tiles ∧ z.mem = s.mem := by
  obtain ⟨a, b, c, vs, hf⟩ : ∃ a b c vs, s.scheduleFault g circle =
      ((s.raise 0x1104 a b c).abandon g 3 [] vs).updGraph g fun z => { z with mode := .degraded } := by
    rw [State.scheduleFault, hy]
    dsimp only
    exact ⟨_, _, _, _, if_pos (by rw [hm]; rfl)⟩
  have hx : exec (.scheduleViolation g circle) s = .next (s.scheduleFault g circle) := by
    show execScheduleViolation g circle s = _
    rw [execScheduleViolation, State.onLive_next]
    refine ⟨by simpa using hg, ?_⟩
    rw [if_pos hs, hy]
    dsimp only
    rw [if_pos (by simp [hm, hsu, hst, ha, hc])]
  rw [hf] at hx
  obtain ⟨hh, hr⟩ := State.raise_only (s := s) 0x1104 a b c
  generalize s.raise 0x1104 a b c = w at hx hr
  have hw : w.graph? g = some y := by rw [hr]; exact hy
  obtain ⟨an, hag, hac⟩ := State.abandon_graph (c := 3) (rm := []) (rp := vs) hw
  obtain ⟨gs, h', l, hfr⟩ := State.abandon_appends (s := w) g 3 [] vs
  refine ⟨_, hx, ?_, ?_, ?_⟩
  · rw [State.updGraph_graph, if_pos rfl, hag]
    simp only [Option.map_some]
    rw [hac, ha]
    rfl
  · rw [State.updGraph_tiles', hfr, hr]
  · rw [State.updGraph_mem, hfr, hr]

end Circles

/-! ### Reads that are counted -/

/-- What a read that found nothing wrong leaves behind: counts at its tile, and reports. -/
def State.Noted (i : Nat) (s t : State) : Prop :=
  (∃ cn te, t.tile i = { s.tile i with cnt := cn, tarnErr := te }) ∧ (∀ j, j ≠ i → t.tile j = s.tile j) ∧
    ∃ ts h l, t = { s with tiles := ts, host := h, ledger := { s.ledger with events := s.ledger.events ++ l } }

theorem State.Noted.refl (s : State) : State.Noted i s s := ⟨⟨_, _, rfl⟩, fun _ _ => rfl, _, _, [], by rw [List.append_nil]⟩

theorem State.Noted.trans (h : State.Noted i s t) (h' : State.Noted i t u) : State.Noted i s u := by
  obtain ⟨⟨_, _, ht⟩, ho, _, _, _, hs⟩ := h
  obtain ⟨⟨_, _, hu⟩, ho', _, _, _, hs'⟩ := h'
  exact ⟨⟨_, _, by rw [hu, ht]⟩, fun j hj => (ho' j hj).trans (ho j hj), _, _, _, by rw [hs', hs, ← List.append_assoc]⟩

theorem State.noteSaturated_noted (old new : Counter) (a b c : Nat) : State.Noted i s (s.noteSaturated old new a b c) := by
  unfold State.noteSaturated
  split
  · obtain ⟨_, hr⟩ := State.raise_only (s := s) 0x1003 (a + 2 ^ 32 * b + 2 ^ 48 * c) 0 0
    exact ⟨⟨_, _, by rw [hr]; rfl⟩, fun j _ => by rw [hr]; rfl, _, _, _, hr⟩
  · exact .refl s

theorem State.setTile_noted (cn : TileCounters) (te : TarnErr) : State.Noted i s (s.setTile i { s.tile i with cnt := cn, tarnErr := te }) :=
  ⟨⟨cn, te, (State.setTile_tile ..).trans (if_pos rfl)⟩, fun j hj => (State.setTile_tile ..).trans (if_neg hj), _, _, [], by
    rw [List.append_nil]; rfl⟩

theorem State.noteRead_noted {r : ReadRes} (h : r.Clean) : State.Noted i s (s.noteRead i r) := by
  obtain ⟨hc, hu⟩ := h
  unfold State.noteRead
  dsimp only
  rw [hc, hu, if_pos (show 0 + ([] : List Nat).length = 0 from rfl), List.map_nil]
  refine State.Noted.trans ?_ (State.noteSaturated_noted ..)
  refine State.Noted.trans ?_ (State.noteSaturated_noted ..)
  refine State.Noted.trans ?_ (State.noteSaturated_noted ..)
  exact State.setTile_noted _ _

theorem State.noteReads_noted {α : Type} (f : α → ReadRes) (l : List α) (h : ∀ e ∈ l, (f e).Clean) :
    State.Noted i s (l.foldl (fun (s : State) e => s.noteRead i (f e)) s) :=
  List.foldlRecOn (motive := fun t : State => State.Noted i s t) l _ (.refl s) fun _ ht e he => ht.trans (State.noteRead_noted (h e he))

theorem Tile.tokenWords_clean {x : Tile} (h : x.Clean) (draw : Nat) (k : Token) : (x.tokenWords draw k).Clean := by
  unfold Tile.tokenWords
  split
  · exact Tile.readWords_clean h ..
  · exact ⟨rfl, rfl⟩

theorem Tile.readWords_run (x : Tile) (r : TileRun) (draw a n : Nat) : ({ x with run := r } : Tile).readWords draw a n = x.readWords draw a n := by
  induction n generalizing a with
  | zero => rfl
  | succ n ih =>
    rw [Tile.readWords, Tile.readWords, ih]
    rfl

theorem Tile.tokenWords_run (x : Tile) (r : TileRun) (draw : Nat) (k : Token) :
    ({ x with run := r } : Tile).tokenWords draw k = x.tokenWords draw k := by
  unfold Tile.tokenWords
  split
  · exact Tile.readWords_run ..
  · rfl

/-! ### Spills -/

theorem List.diff_take_one {α : Type} [DecidableEq α] (l : List α) : l.diff (l.take 1) = l.drop 1 := by
  cases l <;> simp [List.diff]

/-- What a queue keeps in a spill at the primary, and what it spills. -/
theorem Queue.keeps_primary (z : Queue) (out : List Token) : (z.keeps true out).toks ++ (z.keeps true out).fresh = (z.toks ++ z.fresh).take 1 := by
  rw [Queue.keeps, if_pos rfl, List.take_append]

theorem Queue.spills_primary (z : Queue) (out : List Token) : z.spills true out = (z.toks ++ z.fresh).drop 1 := by
  rw [Queue.spills, Queue.keeps_primary, List.diff_take_one]

theorem Tile.spill_queue (x : Tile) (q : Nat) (p : Bool) (out : List Token) : (x.spill q p out).queue q = (x.queue q).keeps p out :=
  Tab.get_upd_same (d := Queue.reset) (k := q) (m := x.run.queues) (f := fun z => z.keeps p out)

theorem Tile.spill_run (x : Tile) (q : Nat) (p : Bool) (out : List Token) : ∃ r, x.spill q p out = { x with run := r } := ⟨_, rfl⟩

theorem Graph.setSegment_first {ks : List (Token × List Word × Bool)} (hy : y.spills = []) (hk : ks ≠ []) :
    y.setSegment i q ks = { y with spills := [⟨i, q, ks⟩] } := by
  rw [Graph.setSegment, hy, if_neg (by simpa using hk)]
  rfl

theorem Graph.segment_none (hy : y.spills = []) : y.segment i q = [] := by
  rw [Graph.segment, hy]
  rfl

/-- The wait edges of some tiles begin anew. -/
def Tile.unwaited (x : Tile) : Tile := x.updRun fun r => { r with waiting := [] }

theorem State.withShadows_congr (h : ∀ j, (t.tile j).use = (s.tile j).use) (i : Nat) : t.withShadows i = s.withShadows i := by
  unfold State.withShadows
  congr 1
  exact List.filter_congr fun j _ => by rw [h j]

/-- A queue spilled without a shadow, where the Scree takes what it spills. -/
theorem State.spillTokens_primary {ks : List Token} (hy : s.graph? g = some y) (hsp : y.spills = [])
    (hks : ks = ((s.tile i).queue q).toks ++ ((s.tile i).queue q).fresh) (hlen : 1 < ks.length) (hc : (s.tile i).Clean)
    (hfit : ({ y with spills := [⟨i, q, (ks.drop 1).map fun k => screeToken k ((s.tile i).tokenWords s.draws k)⟩] } : Graph).screeFits = true)
    (out : List Token) : ∃ z, s.spillTokens g q true out i = z ∧
      ((z.tile i).queue q).toks ++ ((z.tile i).queue q).fresh = ks.take 1 ∧
      (z.graph? g).map (·.spills) = some [⟨i, q, (ks.drop 1).map fun k => screeToken k ((s.tile i).tokenWords s.draws k)⟩] ∧
      (∀ j, j ≠ i → z.tile j = s.tile j) ∧ z.mem = s.mem ∧ ∃ l, z.ledger.events = s.ledger.events ++ l := by
  have hmap : (((s.tile i).queue q).spills true out).map (fun k => (k, (s.tile i).tokenWords s.draws k)) =
      (ks.drop 1).map fun k => (k, (s.tile i).tokenWords s.draws k) := by rw [Queue.spills_primary, ← hks]
  have hne : (ks.drop 1).map (fun k => screeToken k ((s.tile i).tokenWords s.draws k)) ≠ [] := by
    rw [Ne, List.map_eq_nil_iff, List.drop_eq_nil_iff]
    omega
  have hseg : ((ks.drop 1).map fun k => (k, (s.tile i).tokenWords s.draws k)).map (fun e => screeToken e.1 e.2) =
      (ks.drop 1).map fun k => screeToken k ((s.tile i).tokenWords s.draws k) := by
    rw [List.map_map]
    rfl
  have hx : s.spillTokens g q true out i = ((((ks.drop 1).map fun k => (k, (s.tile i).tokenWords s.draws k)).foldl
      (fun (s : State) e => s.noteRead i e.2) (s.draw.setGraph g (some { y with
        spills := [⟨i, q, (ks.drop 1).map fun k => screeToken k ((s.tile i).tokenWords s.draws k)⟩] }))).updTile i (·.spill q true out)) := by
    rw [State.spillTokens, hy]
    dsimp only
    rw [hmap, Graph.segment_none hsp, List.append_nil, hseg, Graph.setSegment_first hsp hne, if_pos hfit]
  have hn := State.noteReads_noted (i := i) (s := s.draw.setGraph g (some { y with
        spills := [⟨i, q, (ks.drop 1).map fun k => screeToken k ((s.tile i).tokenWords s.draws k)⟩] })) (fun e : Token × ReadRes => e.2)
    ((ks.drop 1).map fun k => (k, (s.tile i).tokenWords s.draws k)) (by
      intro e he
      obtain ⟨k, -, rfl⟩ := List.mem_map.1 he
      exact Tile.tokenWords_clean hc ..)
  refine ⟨_, hx, ?_⟩
  generalize ((ks.drop 1).map fun k => (k, (s.tile i).tokenWords s.draws k)).foldl _ _ = w at hn
  obtain ⟨⟨cn, te, hw⟩, ho, ts, h, l, hf⟩ := hn
  have hq : (w.tile i).queue q = (s.tile i).queue q := by rw [hw]; rfl
  refine ⟨?_, ?_, fun j hj => ?_, ?_, l, ?_⟩
  · rw [State.updTile_tile, if_pos rfl, Tile.spill_queue, Queue.keeps_primary, hq, hks]
  · have hg : ∀ Y : Graph, (s.draw.setGraph g (some Y)).graph? g = some Y := fun Y => (State.setGraph_graph ..).trans (if_pos rfl)
    rw [hf]
    exact congrArg (Option.map fun z : Graph => z.spills) (hg { y with
      spills := [⟨i, q, (ks.drop 1).map fun k => screeToken k ((s.tile i).tokenWords s.draws k)⟩] })
  · rw [State.updTile_tile, if_neg hj, ho j hj]; rfl
  · rw [State.updTile_mem, hf]; rfl
  · rw [State.updTile_ledger, hf]; rfl

theorem lowestQueue_number {circle : List (Nat × Nat)} (h : lowestQueue circle = some (i, q)) :
    i * 256 + q = ((circle.filter (·.2 < 256)).map fun c => c.1 * 256 + c.2).foldl min (2 ^ 32 - 1) := by
  rw [lowestQueue] at h
  split at h
  · exact absurd h (by simp)
  · obtain ⟨rfl, rfl⟩ := Prod.mk.injEq .. ▸ Option.some.inj h
    omega

/-- `CYCLIC_WAIT` of a graph in compatibility mode whose Scree takes what is spilled (R170). -/
theorem State.cyclicWait_row {circle : List (Nat × Nat)} {ks : List Token} (hs : s.inService = true) (hg : g < 8) (hy : s.graph? g = some y)
    (hsu : y.suspended = false) (hst : y.stopped = false) (ha : y.abandon = none) (hm : y.mode ≠ .native)
    (hcs : s.circleStands y 4096 circle = true) (hl : lowestQueue circle = some (i, q)) (hw : s.withShadows i = [i])
    (hsp : y.spills = []) (hks : ks = ((s.tile i).queue q).toks ++ ((s.tile i).queue q).fresh) (hlen : 1 < ks.length) (hc : (s.tile i).Clean)
    (hfit : ({ y with spills := [⟨i, q, (ks.drop 1).map fun k => screeToken k ((s.tile i).tokenWords s.draws k)⟩] } : Graph).screeFits = true) :
    ∃ z, exec (.cyclicWait g circle) s = .next z ∧ (s.cairn, ⟨0x1105, g, i * 256 + q, circle.length⟩) ∈ z.ledger.events ∧
      ((z.tile i).queue q).toks ++ ((z.tile i).queue q).fresh = ks.take 1 ∧
      (z.graph? g).map (fun w => w.spills.map fun p => (p.tile, p.queue, p.toks.map (·.1))) = some [(i, q, ks.drop 1)] ∧
      (∀ u, u ≠ i → z.tile u = { s.tile u with run := { (s.tile u).run with waiting := (z.tile u).run.waiting } }) ∧ z.mem = s.mem := by
  obtain ⟨⟨ts, hts⟩, htl⟩ := State.foldl_updTile (s := s) (f := Tile.unwaited) (fun _ => rfl) (circle.map (·.1))
  obtain ⟨h, hr⟩ := State.raise_only (s := { s with tiles := ts }) 0x1105 g (i * 256 + q) circle.length
  generalize hv : State.raise 0x1105 g (i * 256 + q) circle.length { s with tiles := ts } = v at hr
  rw [hts] at htl
  have hvt : ∀ j, ∃ w, v.tile j = { s.tile j with run := { (s.tile j).run with waiting := w } } := by
    intro j
    refine ⟨(v.tile j).run.waiting, ?_⟩
    have : v.tile j = _ := (by rw [hr]; rfl : v.tile j = ({ s with tiles := ts } : State).tile j).trans (htl j)
    rw [this]
    split <;> rfl
  obtain ⟨w, hvi⟩ := hvt i
  have hvw : v.withShadows i = [i] := (State.withShadows_congr (fun j => by obtain ⟨_, hj⟩ := hvt j; rw [hj]) i).trans hw
  have hvd : v.draws = s.draws := by rw [hr]
  have hread : ∀ k, (v.tile i).tokenWords v.draws k = (s.tile i).tokenWords s.draws k := fun k => by
    rw [hvi, hvd]
    exact Tile.tokenWords_run ..
  have hx : exec (.cyclicWait g circle) s = .next (v.spillTokens g q true
      ((((v.tile i).queue q).toks ++ ((v.tile i).queue q).fresh).drop 1) i) := by
    show execCyclicWait g circle s = _
    rw [execCyclicWait, State.onLive_next]
    refine ⟨by simpa using hg, ?_⟩
    rw [if_pos hs, hy]
    dsimp only
    rw [if_pos (by simp [hm, hsu, hst, ha, hcs]), hl]
    dsimp only
    show (State.raise _ _ _ _ ((circle.map (·.1)).foldl (fun s t => s.updTile t Tile.unwaited) s)).spillQueue g i q = _
    rw [hts, hv, State.spillQueue, hvw]
    show v.spillTokens g q (i == i) _ i = _
    rw [beq_self_eq_true]
  obtain ⟨z, hz, h1, h2, h3, h4, l, h5⟩ := State.spillTokens_primary (s := v) (g := g) (i := i) (q := q) (y := y) (ks := ks)
    (by rw [hr]; exact hy) hsp (by rw [hvi]; exact hks) hlen (by rw [hvi]; exact hc) (by simp only [hread]; exact hfit)
    ((((v.tile i).queue q).toks ++ ((v.tile i).queue q).fresh).drop 1)
  rw [hz] at hx
  refine ⟨z, hx, ?_, h1, ?_, fun u hu => ?_, ?_⟩
  · rw [h5, hr]
    exact List.mem_append_left _ (List.mem_append_right _ (List.mem_singleton.2 rfl))
  · have h2 := congrArg (Option.map fun sp : List Spill => sp.map fun p => (p.tile, p.queue, p.toks.map (·.1))) h2
    rw [Option.map_map] at h2
    refine h2.trans ?_
    simp [screeToken, Function.comp_def]
  · obtain ⟨w', hu'⟩ := hvt u
    rw [h3 u hu, hu']
  · rw [h4, hr]

/-! ### Refills -/

theorem Tile.refill_queue (x : Tile) (q : Nat) (k : Token × List Word × Bool) :
    (x.refill q k).queue q = { x.queue q with fresh := (x.queue q).fresh ++ [k.1] } :=
  Tab.get_upd_same (d := Queue.reset) (k := q) (m := x.run.queues) (f := fun z => { z with fresh := z.fresh ++ [k.1] })

theorem Tile.refill_credit (x : Tile) (q : Nat) (k : Token × List Word × Bool) :
    (x.refill q k).credit q = { x.credit q with held := (x.credit q).held - 1 } :=
  Tab.get_upd_same (d := Credit.reset) (k := q) (m := x.run.credits) (f := fun c => { c with held := c.held - 1 })

/-- Tokens put back into a queue one after another. -/
theorem Tile.refills_spec (q : Nat) (ks : List (Token × List Word × Bool)) (x : Tile) :
    ((ks.foldl (fun x k => x.refill q k) x).queue q).fresh = (x.queue q).fresh ++ ks.map (·.1) ∧
      ((ks.foldl (fun x k => x.refill q k) x).credit q).held = (x.credit q).held - ks.length := by
  induction ks generalizing x with
  | nil => exact ⟨(List.append_nil _).symm, rfl⟩
  | cons k ks ih =>
    obtain ⟨h1, h2⟩ := ih (x.refill q k)
    rw [List.foldl_cons, h1, h2, Tile.refill_queue, Tile.refill_credit]
    refine ⟨by simp, ?_⟩
    rw [List.length_cons]
    show (x.credit q).held - 1 - ks.length = _
    omega

theorem Graph.segment_only {p : Spill} (hp : y.spills = [p]) : y.segment p.tile p.queue = p.toks := by
  rw [Graph.segment, hp, List.find?_cons_of_pos (by simp)]
  rfl

theorem Graph.setSegment_emptied {p : Spill} (hp : y.spills = [p]) : (y.setSegment p.tile p.queue []).spills = [] := by
  rw [Graph.setSegment, hp]
  simp

theorem takeWhile_all {α : Type} {p : α → Bool} {l : List α} (h : ∀ a ∈ l, p a = true) : l.takeWhile p = l :=
  List.takeWhile_eq_self_iff.2 h

/-- `SCREE_REFILL` of a graph's one segment, whose tokens all fit (R170). -/
theorem State.screeRefill_row {p : Spill} (hs : s.inService = true) (hi : p.tile < 320) (hq : p.queue < 256)
    (ho : s.owner p.tile = some (g, v)) (hy : s.graph? g = some y) (hp : y.spills = [p])
    (ht : ((s.tile p.tile).queue p.queue).toks = []) (hf : ((s.tile p.tile).queue p.queue).fresh = [])
    (hsh : s.isShadow p.tile = false) (hr : s.runs p.tile = true) (hpos : 0 < p.toks.length)
    (hheld : p.toks.length ≤ ((s.tile p.tile).credit p.queue).held) (hw : s.withShadows p.tile = [p.tile])
    (hk : ∀ k ∈ p.toks, (s.tile p.tile).entryTaken p.queue k.1 = false) :
    exec (.screeRefill p.tile p.queue) s = .next ((s.setGraph g (some (y.setSegment p.tile p.queue []))).updTile p.tile fun x =>
      p.toks.foldl (fun x k => x.refill p.queue k) x) := by
  have hall : ((p.toks.take ((s.tile p.tile).credit p.queue).held).takeWhile fun k => !(s.tile p.tile).entryTaken p.queue k.1) = p.toks := by
    rw [List.take_of_length_le hheld]
    exact takeWhile_all fun k hk' => by rw [hk k hk']; rfl
  have hback : ((p.toks.take (p.toks.map (·.1)).length).takeWhile fun k => (p.toks.map (·.1)).contains k.1) = p.toks := by
    rw [List.length_map, List.take_of_length_le (Nat.le_refl _)]
    exact takeWhile_all fun k hk' => by
      rw [List.contains_iff_mem]
      exact List.mem_map.2 ⟨k, hk', rfl⟩
  show execScreeRefill p.tile p.queue s = _
  rw [execScreeRefill, State.onLive_next]
  refine ⟨by simp [hi, hq], ?_⟩
  rw [if_pos hs, ho]
  dsimp only
  rw [hy]
  dsimp only
  have hne : p.toks.isEmpty = false := by
    cases h : p.toks with
    | nil => rw [h] at hpos; exact absurd hpos (by decide)
    | cons => rfl
  rw [Graph.segment_only hp, hall, if_neg (by simp [ht, hf, hne, hr, hsh]), hw]
  show State.refillTokens g p.queue (p.toks.map (·.1)) s p.tile = _
  rw [State.refillTokens, hy]
  dsimp only
  rw [Graph.segment_only hp, hback, List.drop_length]

/-! ### The end of an unloading -/

theorem State.freeTileNow_onlyTiles (i : Nat) : s.OnlyTiles (· = i) (s.freeTileNow i) := by
  unfold State.freeTileNow
  split
  · exact State.updTile_onlyTiles i _
  · exact State.letGo_onlyTiles i

theorem State.freeTileNow_use (i : Nat) : ((s.freeTileNow i).tile i).use = .free := by
  unfold State.freeTileNow
  split
  · rw [State.updTile_tile, if_pos rfl]
  · exact State.letGo_use i

/-- Some tiles let go: nothing of the others changes. -/
theorem State.freeTiles_spec (l : List Nat) : s.OnlyTiles (· ∈ l) (l.foldl (fun s t => s.freeTileNow t) s) ∧
    ∀ j ∈ l, ((l.foldl (fun s t => s.freeTileNow t) s).tile j).use = .free := by
  induction l using List.reverseRecOn with
  | nil => exact ⟨.refl s, fun _ h => absurd h List.not_mem_nil⟩
  | append_singleton l k ih =>
    obtain ⟨ho, hu⟩ := ih
    rw [List.foldl_append]
    generalize l.foldl (fun s t => s.freeTileNow t) s = w at ho hu
    refine ⟨(ho.mono fun j hj => List.mem_append_left _ hj).trans ((State.freeTileNow_onlyTiles k).mono fun j hj =>
      List.mem_append_right _ (List.mem_singleton.2 hj)), fun j hj => ?_⟩
    by_cases hk : j = k
    · rw [hk]; exact State.freeTileNow_use k
    · rcases List.mem_append.1 hj with hj | hj
      · exact (congrArg Tile.use ((State.freeTileNow_onlyTiles (s := w) k).tile hk)).trans (hu j hj)
      · exact absurd (List.mem_singleton.1 hj) hk

theorem State.streamsOf_none (h : s.streamsOf g = []) : s.endStreams g = s := by
  rw [State.endStreams, h]
  rfl

/-- A graph without a change and without shadows unbound. -/
theorem State.unbind_spec (hc : y.change = none) (hv : y.verify.shadows = []) : ∃ w pl, s.unbind g y = { w with planes := pl } ∧
    s.OnlyTiles (fun j => j ∈ y.place ∧ j < 320) w ∧ ∀ j, j ∈ y.place → j < 320 → (w.tile j).use = .free := by
  obtain ⟨ho, hu⟩ := State.freeTiles_spec (s := s) (y.place.dedup.filter (· < 320))
  have hm : ∀ j, j ∈ y.place.dedup.filter (· < 320) ↔ j ∈ y.place ∧ j < 320 := fun j => by
    rw [List.mem_filter, List.mem_dedup, decide_eq_true_iff]
  obtain ⟨pl, hpl⟩ : ∃ pl, s.unbind g y = { (y.place.dedup.filter (· < 320)).foldl (fun s t => s.freeTileNow t) s with planes := pl } := by
    rw [State.unbind, hc, hv]
    simp only [List.map_nil, List.append_nil]
    exact ⟨_, rfl⟩
  exact ⟨_, pl, hpl, ho.mono fun j hj => (hm j).1 hj, fun j hj hlt => hu j ((hm j).2 ⟨hj, hlt⟩)⟩

/-- No graph is bound once the only one is gone. -/
theorem State.graphIds_gone (hids : s.graphIds = [g]) (ht : t.graphs = s.graphs) : (t.setGraph g none).graphIds = [] := by
  refine List.filter_eq_nil_iff.2 fun h h8 hsome => ?_
  rw [State.setGraph_graph] at hsome
  split at hsome
  · exact absurd hsome (by decide)
  · next hne =>
    have hmem : h ∈ s.graphIds := List.mem_filter.2 ⟨h8, by
      rw [State.graph?, ht] at hsome
      exact hsome⟩
    rw [hids] at hmem
    exact hne (List.mem_singleton.1 hmem)

/-- `GRAPH_UNLOAD_COMPLETE` of the only graph, with no batch and no stream (R338). -/
theorem State.graphUnloadComplete_row {tag : Nat} (hs : s.inService = true) (hg : g < 8) (hids : s.graphIds = [g]) (hy : s.graph? g = some y)
    (hun : y.unloading = some tag) (hb : y.sched.batches = []) (hst : s.streamsOf g = []) (hc : y.change = none)
    (hv : y.verify.shadows = []) (hsd : s.shutdown.busy = false) :
    ∃ z, exec (.graphUnloadComplete g) s = .next z ∧ z.graph? g = none ∧ z.desc tag = none ∧
      (∀ t, t ∈ y.place → t < 320 → (z.tile t).use = .free) ∧ (∀ t, t ∉ y.place → z.tile t = s.tile t) ∧
      z.mem = { s.mem with stagingDone := z.mem.stagingDone } := by
  obtain ⟨w, pl, hw, ho, hu⟩ := State.unbind_spec (s := s) (g := g) hc hv
  obtain ⟨hd, h, hct⟩ := State.completeTag_row (s := State.setGraph { w with planes := pl } g none) tag stOk 0 0
  have hids' := State.graphIds_gone (t := { w with planes := pl }) hids (by rw [ho.frame])
  have hx : exec (.graphUnloadComplete g) s =
      .next ((State.setGraph { w with planes := pl } g none).completeTag tag stOk 0 0).retryAll.shutdownOn := by
    show execGraphUnloadComplete g s = _
    rw [execGraphUnloadComplete, State.onLive_next]
    refine ⟨by simpa using hg, ?_⟩
    rw [if_pos hs, hy]
    dsimp only
    rw [hun]
    dsimp only
    rw [if_neg (by simp [hb]), hb]
    rw [List.flatMap_nil, List.foldl_nil]
    rw [State.streamsOf_none hst, hc]
    dsimp only
    rw [hw]
  have hgn : ((State.setGraph { w with planes := pl } g none).completeTag tag stOk 0 0).graph? g = none := by
    rw [hct]
    exact (State.setGraph_graph (s := { w with planes := pl }) g g none).trans (if_pos rfl)
  have hret : ((State.setGraph { w with planes := pl } g none).completeTag tag stOk 0 0).retryAll =
      (State.setGraph { w with planes := pl } g none).completeTag tag stOk 0 0 := by
    refine State.retryAll_unsuspended fun k hk => ?_
    rw [hct] at hk
    have hk : k ∈ (State.setGraph { w with planes := pl } g none).graphIds := hk
    rw [hids'] at hk
    exact absurd hk List.not_mem_nil
  rw [hret, State.shutdownOn, if_neg (by rw [hct]; show ¬(w.shutdown.busy && _ && _) = true; rw [ho.frame]; simp [hsd])] at hx
  have htl : ∀ j, ((State.setGraph { w with planes := pl } g none).completeTag tag stOk 0 0).tile j = w.tile j := fun j => by rw [hct]; rfl
  refine ⟨_, hx, hgn, hd, fun t ht hlt => ?_, fun t ht => ?_, ?_⟩
  · rw [htl]; exact hu t ht hlt
  · rw [htl]; exact ho.tile fun h => ht h.1
  · rw [hct]
    exact ho.mem

/-! ### Depth samples -/

theorem Graph.viewOf_unchanged (hc : y.change = none) (x : Tile) : y.viewOf x = y := by
  rw [Graph.viewOf, hc]

theorem Graph.tilesNow_tiles (hc : y.change = none) : y.tilesNow.map (·.2) = y.place.filter (· < 320) := by
  rw [Graph.tilesNow, hc]
  dsimp only
  rw [List.append_nil, List.map_map]
  show (y.place.zipIdx.filter ((fun t => decide (t < 320)) ∘ Prod.fst)).map Prod.fst = _
  rw [← List.filter_map, List.zipIdx_map_fst]

/-- One tile's sample (R174). -/
theorem State.sampleTile_spec {n : Nat} (hy : s.graph? g = some { y with sampleSeq := n }) (hc : y.change = none) (ho : y.image.obsMode = 2)
    (e : Nat × Nat) : (s.sampleTile g e).cairn = s.cairn ∧ (s.sampleTile g e).graph? g = some { y with sampleSeq := n + 1 } ∧
      ∀ j, ((s.sampleTile g e).tile j).sampleSeq = if j = e.2 then ((s.tile j).sampleSeq + 1) % 2 ^ 32 else (s.tile j).sampleSeq := by
  have hw := State.write_wrote (s := s) (y.sampleAddr + n % max y.sampleRecords 1 * 320)
    (s.sampleBytes { y with sampleSeq := n } e.1 e.2) false
  have hx : s.sampleTile g e = (((s.write (y.sampleAddr + n % max y.sampleRecords 1 * 320)
      (s.sampleBytes { y with sampleSeq := n } e.1 e.2) false).1.updTile e.2
      fun x => { x with sampleSeq := (x.sampleSeq + 1) % 2 ^ 32 }).updGraph g fun y => { y with sampleSeq := y.sampleSeq + 1 }) := by
    rw [State.sampleTile, hy]
    dsimp only
    rw [Graph.viewOf_unchanged (y := { y with sampleSeq := n }) hc]
    exact if_neg (by simp [ho])
  rw [hx]
  generalize (s.write (y.sampleAddr + n % max y.sampleRecords 1 * 320) (s.sampleBytes { y with sampleSeq := n } e.1 e.2) false).1 = w at hw
  obtain ⟨⟨ts, pw, h, c, wr, hf⟩, ht⟩ := hw
  have hg : ∀ (v : State) (f : Graph → Graph) (j : Nat), (v.updGraph g f).tile j = v.tile j ∧ (v.updGraph g f).cairn = v.cairn := by
    intro v f j
    unfold State.updGraph
    split <;> exact ⟨rfl, rfl⟩
  refine ⟨?_, ?_, fun j => ?_⟩
  · rw [(hg _ _ 0).2, State.updTile_cairn, hf]
  · rw [State.updGraph_graph, if_pos rfl, State.graph?, State.updTile_graphs, hf]
    show Option.map _ (s.graph? g) = _
    rw [hy]
    rfl
  · rw [(hg _ _ j).1, State.updTile_tile]
    obtain ⟨_, _, _, _, htj⟩ := ht j
    split
    · next h =>
      subst h
      rw [htj]
    · rw [htj]

theorem State.sampleTiles_spec {n : Nat} (hc : y.change = none) (ho : y.image.obsMode = 2) (l : List (Nat × Nat))
    (hn : (l.map (·.2)).Nodup) (hy : s.graph? g = some { y with sampleSeq := n }) :
    (l.foldl (State.sampleTile g) s).cairn = s.cairn ∧
      (l.foldl (State.sampleTile g) s).graph? g = some { y with sampleSeq := n + l.length } ∧
      ∀ j, ((l.foldl (State.sampleTile g) s).tile j).sampleSeq =
        if j ∈ l.map (·.2) then ((s.tile j).sampleSeq + 1) % 2 ^ 32 else (s.tile j).sampleSeq := by
  induction l generalizing s n with
  | nil => exact ⟨rfl, hy, fun _ => rfl⟩
  | cons e l ih =>
    rw [List.map_cons, List.nodup_cons] at hn
    obtain ⟨h1, h2, h3⟩ := State.sampleTile_spec hy hc ho e
    obtain ⟨h4, h5, h6⟩ := ih hn.2 h2
    rw [List.foldl_cons]
    refine ⟨h4.trans h1, ?_, fun j => ?_⟩
    · rw [h5, List.length_cons, Nat.add_assoc, Nat.add_comm 1]
    · rw [h6, h3, List.map_cons]
      by_cases hj : j = e.2
      · subst hj
        rw [if_neg hn.1, if_pos rfl, if_pos (List.mem_cons_self ..)]
      · rw [if_neg hj]
        simp only [List.mem_cons, hj, false_or]

theorem List.min?_map_const {α : Type} (l : List α) (hl : l ≠ []) (n : Nat) : (l.map fun _ => n).min? = some n := by
  cases l with
  | nil => exact absurd rfl hl
  | cons a l =>
    rw [List.map_cons, List.min?_cons']
    congr 1
    induction l with
    | nil => rfl
    | cons b l ih => rw [List.map_cons, List.foldl_cons, min_self]; exact ih (List.cons_ne_nil _ _)

/-- `QUEUE_DEPTH_SAMPLE` of a graph whose configuration stands (R174). -/
theorem State.queueDepthSample_row {n : Nat} (hs : s.inService = true) (hg : g < 8) (hy : s.graph? g = some y) (hc : y.change = none)
    (ho : y.image.obsMode = 2) (hnd : y.place.Nodup) (hi : y.image.sampleInterval ≠ 0) (hp : ∃ t ∈ y.place, t < 320)
    (hn : n = (s.cairn / y.image.sampleInterval + 1) * y.image.sampleInterval) :
    ∃ z, exec (.queueDepthSample g) s = .next z ∧ z.cairn = cairnMax s.cairn (roundUp n 4) ∧
      (∀ t, t ∈ y.place → t < 320 → (z.tile t).sampleSeq = ((s.tile t).sampleSeq + 1) % 2 ^ 32) ∧
      (z.graph? g).map (·.sampleSeq) = some (y.sampleSeq + y.place.countP (· < 320)) := by
  have hint : ∀ t, s.sampleInterval y t = y.image.sampleInterval := fun t => by
    rw [State.sampleInterval, Graph.viewOf_unchanged hc]
    exact if_pos ho
  have hsam : s.sampled y = y.tilesNow := by
    rw [State.sampled]
    exact List.filter_eq_self.2 fun e _ => by rw [hint]; simpa using hi
  have hlen : y.tilesNow.length = y.place.countP (· < 320) := by
    rw [← List.length_map (f := fun e : Nat × Nat => e.2), Graph.tilesNow_tiles hc, List.countP_eq_length_filter]
  have hne : y.tilesNow ≠ [] := by
    obtain ⟨t, ht, hlt⟩ := hp
    intro h0
    have := Graph.tilesNow_tiles hc
    rw [h0] at this
    exact absurd (this ▸ List.mem_filter.2 ⟨ht, decide_eq_true hlt⟩ : t ∈ ([] : List (Nat × Nat)).map (·.2)) List.not_mem_nil
  have hnext : s.nextSample y = some n := by
    rw [State.nextSample, hsam]
    simp only [hint]
    rw [← hn]
    exact List.min?_map_const _ hne n
  have hall : ((s.sampled y).filter fun vt => n % s.sampleInterval y vt.2 == 0) = y.tilesNow := by
    rw [hsam]
    refine List.filter_eq_self.2 fun e _ => ?_
    rw [hint, hn, Nat.mul_mod_left]
    rfl
  obtain ⟨c, hcn, hadv⟩ := State.advanceTo_instant (s := s) n
  have hx : exec (.queueDepthSample g) s = .next (y.tilesNow.foldl (State.sampleTile g) { s with cairn := c }) := by
    show execQueueDepthSample g s = _
    rw [execQueueDepthSample, State.onLive_next]
    refine ⟨by simpa using hg, ?_⟩
    rw [if_pos hs, hy]
    dsimp only
    rw [hnext]
    dsimp only
    rw [hall, hadv]
  obtain ⟨h1, h2, h3⟩ := State.sampleTiles_spec (s := { s with cairn := c }) (n := y.sampleSeq) hc ho y.tilesNow
    (by rw [Graph.tilesNow_tiles hc]; exact hnd.filter _) hy
  refine ⟨_, hx, h1.trans hcn, fun t ht hlt => ?_, ?_⟩
  · rw [h3 t, Graph.tilesNow_tiles hc, if_pos (List.mem_filter.2 ⟨ht, decide_eq_true hlt⟩)]
    rfl
  · rw [h2, hlen]
    rfl

/-! ### Binding -/

/-- What taking tiles for a graph changes: those tiles, stagings that are asked, ended stress sessions, and staging writes that
complete. -/
def State.TookTiles (T : Nat → Prop) (s t : State) : Prop :=
  (∃ ts pw l dr sd, t = { s with tiles := ts, power := pw, ledger := l, draws := dr, mem := { s.mem with stagingDone := sd } }) ∧
    t.power.halted = s.power.halted ∧ t.power.lost = s.power.lost ∧ (∀ j, ¬T j → t.tile j = s.tile j) ∧
    ∀ e on, s.hasStaging e on = true → t.hasStaging e on = true

section TookTiles

variable {T T' : Nat → Prop}

theorem State.TookTiles.refl (s : State) : s.TookTiles T s := ⟨⟨_, _, _, _, _, rfl⟩, rfl, rfl, fun _ _ => rfl, fun _ _ h => h⟩

theorem State.TookTiles.trans (h : s.TookTiles T t) (h' : t.TookTiles T u) : s.TookTiles T u := by
  obtain ⟨⟨_, _, _, _, _, hs⟩, h1, h2, h3, h4⟩ := h
  obtain ⟨⟨_, _, _, _, _, hs'⟩, h1', h2', h3', h4'⟩ := h'
  exact ⟨⟨_, _, _, _, _, by rw [hs', hs]⟩, h1'.trans h1, h2'.trans h2, fun j hj => (h3' j hj).trans (h3 j hj), fun e on h => h4' e on (h4 e on h)⟩

theorem State.TookTiles.mono (h : s.TookTiles T t) (hT : ∀ j, T j → T' j) : s.TookTiles T' t := by
  obtain ⟨h0, h1, h2, h3, h4⟩ := h
  exact ⟨h0, h1, h2, fun j hj => h3 j fun h => hj (hT j h), h4⟩

theorem State.updTile_tookTiles (f : Tile → Tile) : s.TookTiles (· = i) (s.updTile i f) :=
  ⟨⟨_, _, _, _, _, rfl⟩, rfl, rfl, fun _ hj => (State.updTile_tile ..).trans (if_neg hj), fun _ _ h => h⟩

/-- A tile taken for a use (R380): it keeps whether it is on. -/
theorem State.withdraw_spec (hm : s.monitor.testing = none) (i : Nat) :
    s.TookTiles (· = i) (s.withdraw i) ∧ (s.withdraw i).tile i = { s.tile i with staging := [] } := by
  have hn : s.sliceNeeds i = false := by rw [State.sliceNeeds, hm]
  have h1 : s.TookTiles (· = i) ((s.completeStaging i stNotPermitted (s.tile i).staging).updTile i fun x => { x with staging := [] }) :=
    State.TookTiles.trans (t := s.completeStaging i stNotPermitted (s.tile i).staging)
      ⟨⟨_, _, _, _, _, rfl⟩, rfl, rfl, fun _ _ => rfl, fun _ _ h => h⟩ (State.updTile_tookTiles _)
  have h2 : ((s.completeStaging i stNotPermitted (s.tile i).staging).updTile i fun x => { x with staging := [] }).tile i =
      { s.tile i with staging := [] } := (State.updTile_tile ..).trans (if_pos rfl)
  rw [State.withdraw, if_neg (by simp [hn])]
  dsimp only
  generalize (s.completeStaging i stNotPermitted (s.tile i).staging).updTile i (fun x => { x with staging := [] }) = v at h1 h2
  split
  · exact ⟨h1.trans ⟨⟨_, _, _, _, _, rfl⟩, rfl, rfl, fun _ _ => rfl, fun _ _ h => h⟩, h2⟩
  · exact ⟨h1, h2⟩

theorem State.turnTileOn_tookTiles (i : Nat) : s.TookTiles T (s.turnTileOn i) := by
  have hst := State.turnTileOn_onlyStagings (s := s) i
  obtain ⟨⟨_, _, _, _, hf⟩, -⟩ := id hst
  exact ⟨⟨_, _, _, _, _, hf⟩, by rw [hf], hst.lost, fun j _ => hst.tile j, fun _ _ h => State.turnTileOn_mono h⟩

/-- A tile written for a graph (R154, R407). -/
theorem State.writeTile_spec (hm : s.monitor.testing = none) {f : Tile → Tile} (hf : ∀ x, (f x).on = x.on) :
    s.TookTiles (· = i) (s.writeTile i f) ∧ (s.writeTile i f).tile i = f { s.tile i with staging := [] } ∧
      ((s.tile i).on = false → s.power.halted = false → s.power.lost.contains i = false → (s.writeTile i f).hasStaging i true = true) := by
  obtain ⟨hw, hwt⟩ := State.withdraw_spec hm i
  rw [State.writeTile]
  generalize s.withdraw i = v at hw hwt
  have hu := hw.trans (State.updTile_tookTiles (s := v) f)
  have hut : (v.updTile i f).tile i = f { s.tile i with staging := [] } := by rw [State.updTile_tile, if_pos rfl, hwt]
  generalize v.updTile i f = w at hu hut
  refine ⟨hu.trans (State.turnTileOn_tookTiles i), ((State.turnTileOn_onlyStagings i).tile i).trans hut, fun ho hh hl => ?_⟩
  refine (State.turnTileOn_asks (by rw [hu.2.1]; exact hh)).1 (by rw [hut, hf]; exact ho) ?_
  rw [hu.2.2.1]
  simpa using hl

end TookTiles

/-- A tile that a graph has just bound. -/
def State.Took (s t : State) (g v i : Nat) : Prop := (t.tile i).use = .bound g v ∧ (t.tile i).clearing = true ∧
  ((s.tile i).on = false → s.power.halted = false → s.power.lost.contains i = false → t.hasStaging i true = true)

/-- One placed tile of an image written. -/
def State.writePlaced (g : Nat) (im : Image) (place : List Nat) (gen : Nat) (s : State) (e : Nat × Nat) : State :=
  if e.1 < 320 then s.writeTile e.1 fun x => x.write (.bound g e.2) (im.tileCfg place gen e.2) else s

theorem State.writePlaced_spec (hm : s.monitor.testing = none) (im : Image) (place : List Nat) (gen : Nat) (e : Nat × Nat) :
    s.TookTiles (· = e.1) (s.writePlaced g im place gen e) ∧ (e.1 < 320 → s.Took (s.writePlaced g im place gen e) g e.2 e.1) := by
  unfold State.writePlaced
  split
  · obtain ⟨h1, h2, h3⟩ := State.writeTile_spec (i := e.1) hm (f := fun x => x.write (.bound g e.2) (im.tileCfg place gen e.2)) fun _ => rfl
    exact ⟨h1, fun _ => ⟨by rw [h2]; rfl, by rw [h2]; rfl, h3⟩⟩
  · next h => exact ⟨.refl s, fun h' => absurd h' h⟩

/-- Placed tiles written one after another, each on its own tile. -/
theorem State.writePlaced_all (im : Image) (place : List Nat) (gen : Nat) (l : List (Nat × Nat)) (hn : (l.map (·.1)).Nodup)
    (hm : s.monitor.testing = none) : s.TookTiles (· ∈ l.map (·.1)) (l.foldl (State.writePlaced g im place gen) s) ∧
      ∀ e ∈ l, e.1 < 320 → s.Took (l.foldl (State.writePlaced g im place gen) s) g e.2 e.1 := by
  induction l using List.reverseRecOn with
  | nil => exact ⟨.refl s, fun _ h => absurd h List.not_mem_nil⟩
  | append_singleton l k ih =>
    rw [List.map_append, List.nodup_append] at hn
    obtain ⟨ho, hu⟩ := ih hn.1
    rw [List.foldl_append, List.foldl_cons, List.foldl_nil]
    generalize l.foldl (State.writePlaced g im place gen) s = w at ho hu
    have hwm : w.monitor.testing = none := by
      obtain ⟨⟨_, _, _, _, _, hw⟩, -⟩ := ho
      rw [hw]; exact hm
    obtain ⟨h1, h2⟩ := State.writePlaced_spec (g := g) hwm im place gen k
    have hk : k.1 ∉ l.map (·.1) := fun h => hn.2.2 _ h _ (List.mem_singleton.2 rfl) rfl
    have hwk : w.tile k.1 = s.tile k.1 := ho.2.2.2.1 _ hk
    refine ⟨?_, fun e he hlt => ?_⟩
    · rw [List.map_append]
      exact (ho.mono fun j hj => List.mem_append_left _ hj).trans
        (h1.mono fun j hj => List.mem_append_right _ (List.mem_singleton.2 hj))
    · rcases List.mem_append.1 he with he | he
      · have hne : e.1 ≠ k.1 := fun h => hk (h ▸ List.mem_map.2 ⟨e, he, rfl⟩)
        obtain ⟨ha, hb, hc⟩ := hu e he hlt
        have ht := h1.2.2.2.1 e.1 hne
        exact ⟨by rw [ht]; exact ha, by rw [ht]; exact hb, fun ho hh hl => h1.2.2.2.2 _ _ (hc ho hh hl)⟩
      · obtain rfl := List.mem_singleton.1 he
        obtain ⟨ha, hb, hc⟩ := h2 hlt
        exact ⟨ha, hb, fun hon hh hl => hc (by rw [hwk]; exact hon) (by rw [ho.2.1]; exact hh) (by rw [ho.2.2.1]; exact hl)⟩

section Load

variable {img : List Byte} {place bs : List Nat} {im : Image}

/-- `GRAPH_LOAD` of an image from host memory that keeps every rule, where all it needs is free (R154). -/
theorem State.graphLoad_exec (hx : s.starts d 0x10 loadForm x) (hlc : s.fuses.lcState ∉ [0, 2, 5]) (hd : s.dma = true)
    (hsv : x.serves = false) (hh : x.imageHost = true) (hlen : img.length = x.imageSize)
    (hf : imageFault img (s.loadRules x img) [] = none) (him : im = imageOf img x.imageAddr true) (hr : im.reconfig = false)
    (hr' : hReconfig img = false) (hb : im.buntings.length ≤ s.freeBuntings.length)
    (hg : (List.range 8).find? (fun g => (s.graph? g).isNone) = some g)
    (hp : s.planBinding g im (fun _ => none) = .ok (place, bs)) :
    exec (.graphLoad d (.data img)) s = .next ((s.bind g (newGraph im x none (s.newSched none) place bs)).complete x stOk 0 g) := by
  show execGraphLoad d (.data img) s none = _
  rw [execGraphLoad, State.runDesc_of_starts hx hd, loadAct, if_neg (by simpa using hlc), hsv, if_neg (by simp), if_pos hh, if_pos hlen]
  have hgo : s.loadMayGo img = true := by
    rw [State.loadMayGo]
    split
    · rfl
    · rw [hr']; rfl
  have hload : s.loadImage x img = s.loadNew x im none := by
    rw [State.loadImage, hh, hsv, ← him]
    simp only [hr, hgo]
    show (match imageFault img (s.loadRules x img) [] with | some e => s.complete x stBad e 0 | none => s.loadNew x im none) = _
    rw [hf]
  rw [hload, State.loadNew, if_neg (Nat.not_lt.2 hb), hg]
  dsimp only
  rw [hp]

/-- A graph bound to its tiles (R154 step 5). -/
theorem State.bind_spec (hy : y.place.Nodup) (hm : s.monitor.testing = none) : ∃ w, s.bind g y = w ∧ w.graph? g = some y ∧
    (∀ h, h ≠ g → w.graph? h = s.graph? h) ∧ w.mem = { s.mem with stagingDone := w.mem.stagingDone } ∧
    (∀ v t, y.place[v]? = some t → t < 320 → s.Took w g v t) ∧ ∀ t, t ∉ y.place → w.tile t = s.tile t := by
  obtain ⟨pl, hpl⟩ : ∃ pl, (s.takeBuntings g y.buntings).takeSlots g (y.image.lanes y.place) = { s with planes := pl } := ⟨_, rfl⟩
  have hset : ∀ h, (State.setGraph { s with planes := pl } g (some y)).graph? h = if h = g then some y else s.graph? h := fun h =>
    State.setGraph_graph ..
  obtain ⟨gs, hgs⟩ : ∃ gs, State.setGraph { s with planes := pl } g (some y) = { s with planes := pl, graphs := gs } := ⟨_, rfl⟩
  rw [hgs] at hset
  obtain ⟨⟨⟨ts, pw, l, dr, sd, hf⟩, -, -, ho, -⟩, hu⟩ := State.writePlaced_all (s := { s with planes := pl, graphs := gs }) (g := g) y.image y.place y.generation
    y.place.zipIdx (by rw [List.zipIdx_map_fst]; exact hy) hm
  have hx : s.bind g y = y.place.zipIdx.foldl (State.writePlaced g y.image y.place y.generation) { s with planes := pl, graphs := gs } := by
    rw [State.bind, hpl, hgs]
    rfl
  rw [List.zipIdx_map_fst] at ho
  refine ⟨_, hx, ?_, fun h hh => ?_, ?_, fun v t hv hlt => ?_, fun t ht => ho t ht⟩
  · rw [hf]; exact (hset g).trans (if_pos rfl)
  · rw [hf]; exact (hset h).trans (if_neg hh)
  · rw [hf]
  · exact hu (t, v) (List.mem_iff_getElem?.2 ⟨v, by rw [List.getElem?_zipIdx, hv]; simp⟩) hlt

end Load

/-- Settles O50: each row of a graph's life, by its own lemma. -/
theorem graphRows : Obligations.GraphRows := by
  refine ⟨?_, ?_, ?_, ?_, ?_, ?_⟩
  · intro s d g x img place bs hx hlc hd hsv hh hlen hf hr hr' hb hg hp hnd hm
    obtain ⟨w, hw, h1, h2, h3, h4, h5⟩ := State.bind_spec (g := g)
      (y := newGraph (imageOf img x.imageAddr true) x none (s.newSched none) place bs) hnd hm
    refine ⟨w, ?_, h1, h2, h3, h4, h5⟩
    rw [State.graphLoad_exec hx hlc hd hsv hh hlen hf rfl hr hr' hb hg hp, hw]
  · intro s d x y
    refine ⟨fun hx hy => State.graphUnload_exec hx hy, fun hx hy hm hv => ?_, fun hx ha => State.statusRead_tarn hx ha,
      fun hx ha hy hv => State.statusRead_observation hx ha hy hv⟩
    obtain ⟨v, hv, hok⟩ := hv
    exact State.classPolicy_exec hx hy hm hv hok
  · intro s g tag y hs hg hids hy hun hb hst hc hv hsd
    exact State.graphUnloadComplete_row hs hg hids hy hun hb hst hc hv hsd
  · intro s g y circle hs hg hy hsu hst ha
    refine ⟨fun hm hc => State.scheduleViolation_row hs hg hy hsu hst ha hm hc, fun t q hm hcs hl hw hsp hlen hc hfit => ?_⟩
    exact State.cyclicWait_row hs hg hy hsu hst ha hm hcs hl hw hsp rfl hlen hc hfit
  · intro s t q g v y p hs ht hq ho hy hp hpt hpq htk hf hsh hr hpos hheld hw hk
    subst hpt hpq
    obtain ⟨h1, h2⟩ := Tile.refills_spec p.queue p.toks (s.tile p.tile)
    have htl : ∀ j, ((s.setGraph g (some (y.setSegment p.tile p.queue []))).updTile p.tile fun x =>
        p.toks.foldl (fun x k => x.refill p.queue k) x).tile j =
        if j = p.tile then p.toks.foldl (fun x k => x.refill p.queue k) (s.tile p.tile) else s.tile j := fun j => State.updTile_tile ..
    refine ⟨_, State.screeRefill_row hs ht hq ho hy hp htk hf hsh hr hpos hheld hw hk, ?_, ?_, ?_, fun u hu => ?_, rfl⟩
    · rw [htl, if_pos rfl, h1, hf, List.nil_append]
    · rw [State.graph?, State.updTile_graphs]
      show ((s.setGraph g (some (y.setSegment p.tile p.queue []))).graph? g).map _ = _
      rw [State.setGraph_graph, if_pos rfl, Option.map_some, Graph.setSegment_emptied hp]
    · rw [htl, if_pos rfl, h2]
    · rw [htl, if_neg hu]
  · intro s g n y hs hg hy hc ho hnd hi hp hn
    exact State.queueDepthSample_row hs hg hy hc ho hnd hi hp hn

end Sys2Proof.Machine
end


section
/-! PROOF. Streams: opening, extending, cancelling, reading, ending, and deadlines (R175 to R192, R336, R337, R341, R342). -/

namespace Sys2Proof.Machine

variable {s t u : State} {i j g d n : Nat} {x : Desc} {y : Graph} {z : Stream}

/-! ### What the tracker's accesses to its table leave alone -/

/-- Nothing changes but reports, slices, the bytes of memory and what a staged Tarn takes, and which records the cache holds. -/
def State.Aside (s t : State) : Prop := ∃ ts pw m p q ev df hb cx wr sl ss dr c, t = { s with
  tiles := ts, power := pw, host := { s.host with mem := m, poison := p, cq := q }, draws := dr, ledger := { s.ledger with events := ev, defects := df }
  mem := { s.mem with hbm := hb, cxl := cx, wrong := wr, slices := sl, slots := ss }, tracker := { s.tracker with cache := c } }

namespace State.Aside

theorem refl (s : State) : s.Aside s := ⟨_, _, _, _, _, _, _, _, _, _, _, _, _, _, rfl⟩

theorem trans (h : s.Aside t) (h' : t.Aside u) : s.Aside u := by
  obtain ⟨_, _, _, _, _, _, _, _, _, _, _, _, _, _, rfl⟩ := h
  obtain ⟨_, _, _, _, _, _, _, _, _, _, _, _, _, _, rfl⟩ := h'
  exact ⟨_, _, _, _, _, _, _, _, _, _, _, _, _, _, rfl⟩

theorem ite {c : Prop} [Decidable c] (ht : s.Aside t) (hu : s.Aside u) : s.Aside (if c then t else u) := by
  split
  · exact ht
  · exact hu

theorem frame (h : s.Aside t) : t = { s with
    tiles := t.tiles, power := t.power, draws := t.draws
    host := { s.host with mem := t.host.mem, poison := t.host.poison, cq := t.host.cq }
    ledger := { s.ledger with events := t.ledger.events, defects := t.ledger.defects }
    mem := { s.mem with hbm := t.mem.hbm, cxl := t.mem.cxl, wrong := t.mem.wrong, slices := t.mem.slices, slots := t.mem.slots }
    tracker := { s.tracker with cache := t.tracker.cache } } := by
  obtain ⟨_, _, _, _, _, _, _, _, _, _, _, _, _, _, rfl⟩ := h
  rfl

theorem stream (h : s.Aside t) (j : Nat) : t.stream j = s.stream j := by
  obtain ⟨_, _, _, _, _, _, _, _, _, _, _, _, _, _, rfl⟩ := h
  rfl

theorem graphs (h : s.Aside t) : t.graphs = s.graphs := by
  obtain ⟨_, _, _, _, _, _, _, _, _, _, _, _, _, _, rfl⟩ := h
  rfl

theorem graph (h : s.Aside t) (g : Nat) : t.graph? g = s.graph? g := by
  obtain ⟨_, _, _, _, _, _, _, _, _, _, _, _, _, _, rfl⟩ := h
  rfl

end State.Aside

theorem State.Wrote.aside (h : s.Wrote t) : s.Aside t := by
  obtain ⟨⟨_, _, _, _, _, rfl⟩, -⟩ := h
  exact ⟨_, _, _, _, _, _, _, _, _, _, _, _, _, _, rfl⟩

/-! ### Reads of the table -/

/-- Nothing changes but reports, the slices' counts, scores and states, and which draw is the next. -/
def State.Noticed (s t : State) : Prop := ∃ m p q ev df sl ss dr, t = { s with
  host := { s.host with mem := m, poison := p, cq := q }, draws := dr, ledger := { s.ledger with events := ev, defects := df }, mem := { s.mem with slices := sl, slots := ss } }

namespace State.Noticed

theorem refl (s : State) : s.Noticed s := ⟨_, _, _, _, _, _, _, _, rfl⟩

theorem trans (h : s.Noticed t) (h' : t.Noticed u) : s.Noticed u := by
  obtain ⟨_, _, _, _, _, _, _, _, rfl⟩ := h
  obtain ⟨_, _, _, _, _, _, _, _, rfl⟩ := h'
  exact ⟨_, _, _, _, _, _, _, _, rfl⟩

theorem ite {c : Prop} [Decidable c] (ht : s.Noticed t) (hu : s.Noticed u) : s.Noticed (if c then t else u) := by
  split
  · exact ht
  · exact hu

theorem aside (h : s.Noticed t) : s.Aside t := by
  obtain ⟨_, _, _, _, _, _, _, _, rfl⟩ := h
  exact ⟨_, _, _, _, _, _, _, _, _, _, _, _, _, _, rfl⟩

theorem tiles (h : s.Noticed t) : t.tiles = s.tiles := by
  obtain ⟨_, _, _, _, _, _, _, _, rfl⟩ := h
  rfl

theorem raise (h : s.Noticed u) {a b c e : Nat} : s.Noticed (u.raise a b c e) := by
  obtain ⟨_, _, _, -, hr⟩ := State.raise_frame (s := u) a b c e
  rw [hr]
  exact h.trans ⟨_, _, _, _, _, _, _, _, rfl⟩

theorem updSlice (h : s.Noticed u) {n : Nat} {f : Slice → Slice} : s.Noticed (u.updSlice n f) := h.trans ⟨_, _, _, _, _, _, _, _, rfl⟩

theorem takeSlot (h : s.Noticed u) {n k : Nat} : s.Noticed (u.takeSlot n k) := h.trans ⟨_, _, _, _, _, _, _, _, rfl⟩

theorem draw (h : s.Noticed u) : s.Noticed u.draw := h.trans ⟨_, _, _, _, _, _, _, _, rfl⟩

theorem countSlice (h : s.Noticed u) {n k : Nat} : s.Noticed (u.countSlice n k) := by
  unfold State.countSlice State.noteSaturated
  exact .ite h.updSlice.raise h.updSlice

theorem retireSlice (h : s.Noticed u) {n : Nat} : s.Noticed (u.retireSlice n) := by
  unfold State.retireSlice
  split
  · split
    · exact h.updSlice.takeSlot.raise
    · exact h.raise
  · exact h

theorem addDefect (h : s.Noticed u) {k src id c : Nat} : s.Noticed (u.addDefect k src id c) := by
  unfold State.addDefect
  exact .ite h (h.trans ⟨_, _, _, _, _, _, _, _, rfl⟩)

theorem blameSlice (h : s.Noticed u) {id w c : Nat} : s.Noticed (u.blame .slice id w c) := by
  have hsettle : ∀ old n, s.Noticed (u.settleScore .slice id old n c) := fun old n => by
    have hs : s.Noticed (u.setScore .slice id n (nextPart (partThresholds .slice) old n)) := h.updSlice
    exact .ite hs (.ite hs.raise.addDefect hs.raise)
  unfold State.blame State.settle
  exact .ite (hsettle ..).retireSlice (hsettle ..)

theorem noteLine (h : s.Noticed u) {off : Nat} : s.Noticed (u.noteLine off) := by
  unfold State.noteLine
  refine .ite h (.ite h.countSlice ?_)
  split
  · exact .ite h.draw h
  · exact h.countSlice.blameSlice
  · exact h.countSlice.raise.blameSlice
  · exact h.draw

theorem noteRun (h : s.Noticed u) {n a k : Nat} : s.Noticed (State.noteRun n a k u) := by
  induction n generalizing a k u with
  | zero => exact h
  | succ n ih =>
    unfold State.noteRun
    refine .ite h (ih ?_)
    split
    · exact h.noteLine
    · exact h

theorem readRecord (h : s.Noticed u) {i : Nat} : s.Noticed (u.readRecord i) := .ite h h.noteRun

end State.Noticed

theorem State.readRecord_noticed (i : Nat) : s.Noticed (s.readRecord i) := (State.Noticed.refl s).readRecord

/-! ### Records changed -/

theorem State.writeTable_aside (i off : Nat) (bs : List Byte) : s.Aside (s.writeTable i off bs) := (State.write_wrote ..).aside

theorem State.touch_frame (i : Nat) : ∃ ts pw h c w ch, s.touch i = { s with
    tiles := ts, power := pw, mem := { s.mem with hbm := h, cxl := c, wrong := w }, tracker := { s.tracker with cache := ch } } := by
  unfold State.touch
  extract_lets c out
  clear_value out
  split
  · exact ⟨_, _, _, _, _, _, rfl⟩
  · next j =>
    obtain ⟨⟨_, _, _, _, _, hw⟩, -⟩ := State.write_wrote (s := { s with tracker := { s.tracker with cache := c.filter (· != j) } })
      (State.recordAt { s with tracker := { s.tracker with cache := c.filter (· != j) } } j + 112) (s.stream j).statistics false
    rw [State.writeStatistics, State.writeTable, hw]
    exact ⟨_, _, _, _, _, _, rfl⟩

theorem State.touch_aside (i : Nat) : s.Aside (s.touch i) := by
  obtain ⟨_, _, _, _, _, _, ht⟩ := State.touch_frame (s := s) i
  rw [ht]
  exact ⟨_, _, _, _, _, _, _, _, _, _, _, _, _, _, rfl⟩

theorem State.touch_host (i : Nat) : (s.touch i).host = s.host := by
  obtain ⟨_, _, _, _, _, _, ht⟩ := State.touch_frame (s := s) i
  rw [ht]

theorem State.writeHalves_aside (i : Nat) (old z : Stream) : s.Aside (s.writeHalves i old z) := by
  unfold State.writeHalves
  extract_lets new put
  have hput : ∀ h (v : State), v.Aside (put h v) := fun h v => .ite (State.writeTable_aside ..) (.refl v)
  exact (hput 0 s).trans (hput 1 _)

theorem State.useRecord_aside (i : Nat) : s.Aside (s.useRecord i) := (State.readRecord_noticed i).aside.trans (State.touch_aside i)

theorem State.setStream_aside (h : s.Aside t) (i : Nat) (z : Stream) : (s.setStream i z).Aside (t.setStream i z) := by
  obtain ⟨_, _, _, _, _, _, _, _, _, _, _, _, _, _, rfl⟩ := h
  exact ⟨_, _, _, _, _, _, _, _, _, _, _, _, _, _, rfl⟩

/-- A record changed changes nothing else but what the accesses to the table may (R179). -/
theorem State.putStream_aside (i : Nat) (z : Stream) : (s.setStream i z).Aside (s.putStream i z) :=
  ((State.setStream_aside (State.readRecord_noticed i).aside i z).trans (State.touch_aside i)).trans (State.writeHalves_aside ..)

theorem State.putStream_stream (i : Nat) (z : Stream) (j : Nat) : (s.putStream i z).stream j = if j = i then z else s.stream j := by
  rw [(State.putStream_aside i z).stream, State.setStream_stream]

theorem State.putStream_graph (i : Nat) (z : Stream) (g : Nat) : (s.putStream i z).graph? g = s.graph? g :=
  (State.putStream_aside i z).graph g

/-! ### A table that stands -/

/-- Offsets of HBM, as global addresses. -/
theorem State.hbmAddr_inHbm {off : Nat} (hid : s.fabric.id < 2 ^ 14) (h : off < hbmBytes) : s.inHbm (s.hbmAddr off) := by
  rw [hbmBytes] at h
  unfold State.inHbm State.hbmAddr bits
  rw [Nat.shiftRight_eq_div_pow, Nat.shiftRight_eq_div_pow]
  norm_num at *
  omega

theorem State.recordAt_inHbm {off : Nat} (h : s.tableStands) (hi : i < streamCount) (ho : off < 128) : s.inHbm (s.recordAt i + off) := by
  obtain ⟨hb, hid, -⟩ := h
  have := State.hbmAddr_inHbm (s := s) (off := s.regs.streamTable + 128 * i + off) hid (by
    rw [streamCount] at hi
    omega)
  rwa [State.recordAt, State.hbmAddr, Nat.add_assoc, ← State.hbmAddr]

/-! ### A table without errors -/

/-- No symbol of HBM is wrong, and no line of it is poisoned. -/
def State.Faultless (s : State) : Prop := (∀ l, s.wrongAt l = 0) ∧ s.mem.hbm.poison = []

theorem State.noteLine_faultless (h : s.Faultless) (off : Nat) : ∃ dr, s.noteLine off = { s with draws := dr } := by
  unfold State.noteLine
  split
  · exact ⟨_, rfl⟩
  · rw [if_neg (by
      unfold State.poisoned State.space
      rw [if_pos rfl, h.2]
      simp), h.1]
    show ∃ dr, (if moduleArea ≤ off then s.draw else s) = _
    split <;> exact ⟨_, rfl⟩

theorem State.noteRun_faultless (h : s.Faultless) (n a k : Nat) : ∃ dr, State.noteRun n a k s = { s with draws := dr } := by
  induction n generalizing a k s with
  | zero => exact ⟨_, rfl⟩
  | succ n ih =>
    unfold State.noteRun
    split
    · exact ⟨_, rfl⟩
    · have hstep : ∀ v : State, (∃ dr, v = { s with draws := dr }) → ∀ a k, ∃ dr, State.noteRun n a k v = { s with draws := dr } := by
        rintro v ⟨dr, rfl⟩ a k
        exact ih (s := { s with draws := dr }) h a k
      refine hstep _ ?_ _ _
      split
      · exact State.noteLine_faultless h _
      · exact ⟨_, rfl⟩

theorem State.setSpace_faultless {sp : Nat} {m : Memory} (h : s.Faultless) (hm : sp = 0 → m.poison = []) : (s.setSpace sp m).Faultless := by
  unfold State.setSpace
  split
  · next hsp => exact ⟨h.1, hm hsp⟩
  · exact h

theorem Memory.putAll_poison (a : Nat) (bs : List Byte) (m : Memory) : (Memory.putAll a bs m).poison = m.poison := by
  induction bs generalizing a m with
  | nil => rfl
  | cons b bs ih => rw [Memory.putAll, ih, Memory.put_poison]

theorem State.space_poison {sp : Nat} (h : s.Faultless) (hsp : sp = 0) : (s.space sp).poison = [] := by
  rw [State.space, if_pos hsp, h.2]

theorem State.store_faultless (h : s.Faultless) (sp off : Nat) (bs : List Byte) : (s.store sp off bs false).Faultless := by
  have hw : (s.writeBytes sp off bs).Faultless :=
    State.setSpace_faultless h fun hsp => (Memory.putAll_poison ..).trans (State.space_poison h hsp)
  unfold State.store
  generalize s.writeBytes sp off bs = v at hw
  have hm : (if sp = 0 && v.wrongAt (off / 64) != 0 && ((off % 64 == 0 && 64 ≤ bs.length) || false || v.wrongAt (off / 64) == 1)
      then v.setWrong (off / 64) 0 else v) = v := if_neg (by simp [hw.1])
  unfold State.markLines
  dsimp only
  rw [hm, if_neg (by decide)]
  split
  · exact State.setSpace_faultless hw fun hsp => by
      dsimp only
      rw [if_neg (by decide), State.space_poison hw hsp]
      rfl
  · exact hw

theorem State.writeCxl_faultless (h : s.Faultless) (off : Nat) (bs : List Byte) : (s.writeCxl off bs false).1.Faultless := by
  unfold State.writeCxl
  split
  · exact State.store_faultless h ..
  · exact h

theorem State.OnlyStagings.faultless (h : s.OnlyStagings t) (hs : s.Faultless) : t.Faultless := by
  rw [h.frame]
  exact hs

theorem State.stageWrite_faultless (h : s.Faultless) (i off : Nat) (bs : List Byte) : (s.stageWrite i off bs false).1.Faultless := by
  unfold State.stageWrite
  extract_lets free v
  have hv : v.Faultless := h
  split
  · exact hv
  · dsimp only
    split
    · exact (State.turnTileOn_onlyStagings i).faultless hv
    · exact hv

theorem State.writeUnit_faultless (h : s.Faultless) (a : Nat) (bs : List Byte) : (s.writeUnit a bs false).1.Faultless := by
  unfold State.writeUnit
  split
  · split
    · exact State.store_faultless h ..
    · exact State.writeCxl_faultless h ..
    · exact h
  · exact State.writeCxl_faultless h ..
  · split
    · exact State.stageWrite_faultless h ..
    · exact h
  · exact h
  · exact h

theorem State.write_faultless (h : s.Faultless) (a : Nat) (bs : List Byte) : (s.write a bs false).1.Faultless := by
  unfold State.write
  generalize bs.length / 64 + 2 = n
  induction n generalizing a bs s with
  | zero => exact h
  | succ n ih =>
    rw [State.writeRun]
    split
    · exact h
    · dsimp only
      split
      · exact State.writeUnit_faultless h ..
      · exact ih (State.writeUnit_faultless h ..) ..

theorem State.tableStands_congr (h : s.tableStands) (hr : t.regs = s.regs) (hf : t.fabric = s.fabric) (ht : t.tracker = s.tracker) :
    t.tableStands := by
  rw [State.tableStands, hr, hf, ht]
  exact h

/-! ### Accesses to a table that stands -/

/-- Accesses to a table that stands change no tile, and it still stands; without errors in HBM they change nothing of the host, and
there are still none. -/
def State.Tabled (s t : State) : Prop := (t.tiles = s.tiles ∧ t.tableStands) ∧ (s.Faultless → t.host = s.host ∧ t.Faultless)

theorem State.Tabled.trans (h : s.Tabled t) (h' : t.Tabled u) : s.Tabled u := by
  refine ⟨⟨h'.1.1.trans h.1.1, h'.1.2⟩, fun hf => ?_⟩
  obtain ⟨hh, hf⟩ := h.2 hf
  obtain ⟨hh', hf'⟩ := h'.2 hf
  exact ⟨hh'.trans hh, hf'⟩

theorem State.Tabled.stands (h : s.Tabled t) : t.tableStands := h.1.2

theorem State.readRecord_tabled (h : s.tableStands) (i : Nat) : s.Tabled (s.readRecord i) := by
  refine ⟨?_, fun hf => ?_⟩
  · obtain ⟨_, _, _, _, _, _, _, _, hr⟩ := State.readRecord_noticed (s := s) i
    rw [hr]
    exact ⟨rfl, h⟩
  · obtain ⟨_, hr⟩ : ∃ dr, s.readRecord i = { s with draws := dr } := by
      unfold State.readRecord
      split
      · exact ⟨_, rfl⟩
      · exact State.noteRun_faultless hf ..
    rw [hr]
    exact ⟨rfl, hf⟩

theorem State.writeTable_tabled {off : Nat} {bs : List Byte} (h : s.tableStands) (hi : i < streamCount) (ho : off < 128) :
    s.Tabled (s.writeTable i off bs) := by
  have hf := fun hf => State.write_faultless (s := s) hf (s.recordAt i + off) bs
  obtain ⟨_, _, _, hw⟩ := State.write_stored (bs := bs) (p := false) (State.recordAt_inHbm h hi ho)
  rw [State.writeTable]
  rw [hw] at hf ⊢
  exact ⟨⟨rfl, h⟩, fun hs => ⟨rfl, hf hs⟩⟩

theorem State.cached_tabled {c : List Nat} (h : s.tableStands) (hc : ∀ j ∈ c, j < streamCount) :
    s.Tabled { s with tracker := { s.tracker with cache := c } } := ⟨⟨rfl, h.1, h.2.1, h.2.2.1, hc⟩, fun hf => ⟨rfl, hf⟩⟩

theorem State.touch_tabled (h : s.tableStands) (hi : i < streamCount) : s.Tabled (s.touch i) := by
  have hc : ∀ j ∈ i :: s.tracker.cache.filter (· != i), j < streamCount := by
    intro j hj
    rcases List.mem_cons.1 hj with rfl | hj
    · exact hi
    · exact h.2.2.2 j (List.mem_of_mem_filter hj)
  unfold State.touch
  extract_lets c out
  have ho : ∀ j, out = some j → j < streamCount := by
    intro j hj
    unfold out at hj
    split at hj
    · exact hc j (List.mem_reverse.1 (List.mem_of_find?_eq_some hj))
    · exact absurd hj (by simp)
  clear_value out
  split
  · exact State.cached_tabled h hc
  · next j =>
    have ht := State.cached_tabled (c := c.filter (· != j)) h fun k hk => hc k (List.mem_of_mem_filter hk)
    exact ht.trans (State.writeTable_tabled ht.stands (ho j rfl) (by decide))

theorem State.writeHalves_tabled (h : s.tableStands) (hi : i < streamCount) (old z : Stream) : s.Tabled (s.writeHalves i old z) := by
  unfold State.writeHalves
  extract_lets new put
  have hput : ∀ k, k < 2 → ∀ v : State, v.tableStands → v.Tabled (put k v) := by
    intro k hk v hv
    unfold put
    split
    · exact State.writeTable_tabled hv hi (by omega)
    · exact ⟨⟨rfl, hv⟩, fun hf => ⟨rfl, hf⟩⟩
  have h0 := hput 0 (by decide) s h
  exact h0.trans (hput 1 (by decide) _ h0.stands)

theorem State.setStream_tabled (h : s.tableStands) (hi : i < streamCount) (z : Stream) : s.Tabled (s.setStream i z) := by
  refine ⟨⟨rfl, h.1, h.2.1, fun e he => ?_, h.2.2.2⟩, fun hf => ⟨rfl, hf⟩⟩
  have he : e ∈ Tab.put Stream.free i z s.tracker.streams := he
  unfold Tab.put at he
  split at he
  · exact h.2.2.1 e (Tab.mem_erase.1 he).1
  · rcases Tab.mem_ins.1 he with rfl | he
    · exact hi
    · exact h.2.2.1 e (Tab.mem_erase.1 he).1

theorem State.putStream_tabled (h : s.tableStands) (hi : i < streamCount) (z : Stream) : s.Tabled (s.putStream i z) := by
  have h1 := State.readRecord_tabled h i
  have h2 := State.setStream_tabled h1.stands hi z
  have h3 := State.touch_tabled h2.stands hi
  exact ((h1.trans h2).trans h3).trans (State.writeHalves_tabled h3.stands hi ..)

/-! ### Plans and ends -/

/-- Harvest slots given back change nothing but the host's rings. -/
theorem State.releaseSlots_frame (r : State → Nat) (l : List Nat) : ∃ h, l.foldl (fun s _ => s.releaseSlot (r s)) s = { s with host := h } :=
  List.foldlRecOn (motive := fun t : State => ∃ h, t = { s with host := h }) l _ ⟨_, rfl⟩ fun t ht _ _ => by
    obtain ⟨_, rfl⟩ := ht
    exact ⟨_, rfl⟩

theorem State.unplan_spec (hy : s.graph? g = some y) (i : Nat) : ∃ gs h sl p, s.unplan g i = { s with graphs := gs, host := h } ∧
    (s.unplan g i).graph? g = some { y with sched := { y.sched with slices := sl, plan := p } } := by
  obtain ⟨w, ⟨sl, p, hw⟩, n, hu⟩ : ∃ w, (∃ sl p, w = { y with sched := { y.sched with slices := sl, plan := p } }) ∧ ∃ n, s.unplan g i =
      (List.range n).foldl (fun s _ => s.releaseSlot (s.stream i).hring) (s.setGraph g (some w)) := by
    rw [State.unplan, hy]
    dsimp only
    rw [State.updSched, State.updGraph, hy]
    exact ⟨_, ⟨_, _, rfl⟩, _, rfl⟩
  obtain ⟨h, hr⟩ := State.releaseSlots_frame (s := s.setGraph g (some w)) (fun s => (s.stream i).hring) (List.range n)
  refine ⟨_, h, sl, p, hu.trans hr, ?_⟩
  rw [hu, hr, ← hw]
  exact (State.setGraph_graph s g g (some w)).trans (if_pos rfl)

theorem State.unplan_frame (g i : Nat) : ∃ gs h, s.unplan g i = { s with graphs := gs, host := h } := by
  cases hy : s.graph? g with
  | none =>
    rw [State.unplan, hy]
    exact ⟨_, _, rfl⟩
  | some y =>
    obtain ⟨_, _, _, _, hu, -⟩ := State.unplan_spec hy i
    exact ⟨_, _, hu⟩

theorem State.freeRuns_frame (g i : Nat) : ∃ gs, s.freeRuns g i = { s with graphs := gs } := by
  rw [State.freeRuns, State.updSched, State.updGraph]
  split
  · exact ⟨_, rfl⟩
  · exact ⟨_, rfl⟩

/-- A stream that ends (R186, R187). -/
def Stream.ended (z : Stream) (status detail : Nat) : Stream :=
  { z with state := .ending, endDetail := detail, endStatus := status, heldFrom := 0 }

theorem State.endStream_live {status detail : Nat} (h : (s.stream i).state ≠ .free) (h' : (s.stream i).state ≠ .ending) :
    ∃ gs hh, s.endStream i status detail =
      (({ s with graphs := gs, host := hh }).putStream i ((s.stream i).ended status detail)).writeStatistics i (s.stream i) := by
  rw [State.endStream, if_neg (by simp [h, h'])]
  obtain ⟨_, _, hu⟩ := State.unplan_frame (s := s) (s.stream i).graph i
  rw [hu]
  obtain ⟨_, hf⟩ := State.freeRuns_frame (s := { s with graphs := _, host := _ }) (s.stream i).graph i
  rw [hf]
  exact ⟨_, _, rfl⟩

theorem State.endStream_spec {status detail : Nat} (h : (s.stream i).state ≠ .free) (h' : (s.stream i).state ≠ .ending) :
    (∀ j, (s.endStream i status detail).stream j = if j = i then (s.stream i).ended status detail else s.stream j) ∧
      (s.tableStands → i < streamCount → (s.endStream i status detail).tiles = s.tiles) := by
  obtain ⟨gs, hh, he⟩ := State.endStream_live (status := status) (detail := detail) h h'
  rw [he]
  refine ⟨fun j => ?_, fun hs hi => ?_⟩
  · rw [State.writeStatistics, (State.writeTable_aside ..).stream, State.putStream_stream]
    rfl
  · have h1 := State.putStream_tabled (s := { s with graphs := gs, host := hh }) hs hi ((s.stream i).ended status detail)
    exact (h1.trans (State.writeTable_tabled (off := 112) h1.stands hi (by decide))).1.1

theorem State.byHandle_some {h : Nat} (hb : s.byHandle h = some i) : i < streamCount ∧ (s.stream i).state ≠ .free := by
  rw [State.byHandle] at hb
  split at hb
  · next hc =>
    obtain rfl := Option.some.inj hb
    refine ⟨Nat.mod_lt _ (by decide), ?_⟩
    simp only [Bool.and_eq_true, bne_iff_ne] at hc
    exact hc.1.1
  · exact absurd hb (by simp)

/-- `STREAM_CANCEL` of a live stream that does not end already (R186). -/
theorem State.cancelled_spec (hi : i < streamCount) (hfree : (s.stream i).state ≠ .free) (hend : (s.stream i).state ≠ .ending)
    (hy : s.graph? (s.stream i).graph = some y) (hs : s.tableStands) :
    ∃ u, (if ((s.putStream i { s.stream i with cancelReq := true }).unplan (s.stream i).graph i).inFlightStream i
        then (s.putStream i { s.stream i with cancelReq := true }).unplan (s.stream i).graph i
        else ((s.putStream i { s.stream i with cancelReq := true }).unplan (s.stream i).graph i).endCancelled i) = u ∧
      (u.stream i).cancelReq = true ∧ (y.inBatch i = true → (u.stream i).state = (s.stream i).state) ∧
      (y.inBatch i = false → (s.stream i).kvLost = false → (u.stream i).state = .ending ∧ (u.stream i).endDetail = endCancel) ∧
      (∀ j, j ≠ i → u.stream j = s.stream j) ∧ u.tiles = s.tiles := by
  generalize hz : ({ s.stream i with cancelReq := true } : Stream) = z
  have hst := State.putStream_stream (s := s) i z
  have htab := State.putStream_tabled hs hi z
  obtain ⟨gs, h, sl, p, hu, hug⟩ := State.unplan_spec ((State.putStream_graph (s := s) i z _).trans hy) i
  generalize hw : (s.putStream i z).unplan (s.stream i).graph i = w at hu hug ⊢
  generalize s.putStream i z = v at hst htab hu
  have hws : ∀ j, w.stream j = if j = i then z else s.stream j := fun j => by rw [hu]; exact hst j
  have hwi : w.stream i = z := (hws i).trans (if_pos rfl)
  have hwt : w.tiles = s.tiles ∧ w.tableStands := by
    rw [hu]
    exact ⟨htab.1.1, State.tableStands_congr htab.stands rfl rfl rfl⟩
  have hzg : z.graph = (s.stream i).graph := by rw [← hz]
  have hwg : w.graph? z.graph = some { y with sched := { y.sched with slices := sl, plan := p } } := by rw [hzg, hug]
  have hfl : w.inFlightStream i = y.inBatch i := by
    rw [State.inFlightStream, hwi, hwg]
    rfl
  have hzs : z.state = (s.stream i).state := by rw [← hz]
  have hzc : z.cancelReq = true := by rw [← hz]
  have hzk : z.kvLost = (s.stream i).kvLost := by rw [← hz]
  rw [hfl]
  cases hb : y.inBatch i
  · obtain ⟨st, dt, hd, he⟩ : ∃ st dt, (z.kvLost = false → dt = endCancel) ∧ w.endCancelled i = w.endStream i st dt := by
      rw [State.endCancelled, hwi, hzc, if_pos rfl]
      cases z.kvLost
      · exact ⟨_, endCancel, fun _ => rfl, if_neg (by decide)⟩
      · exact ⟨_, _, fun h => absurd h (by decide), if_pos rfl⟩
    obtain ⟨h1, h2⟩ := State.endStream_spec (s := w) (i := i) (status := st) (detail := dt) (by rw [hwi, hzs]; exact hfree)
      (by rw [hwi, hzs]; exact hend)
    rw [if_neg (by decide), he]
    refine ⟨_, rfl, ?_, fun h => absurd h (by decide), fun _ hk => ?_, fun j hj => ?_, ?_⟩
    · rw [h1, if_pos rfl, hwi]
      exact hzc
    · rw [h1, if_pos rfl]
      exact ⟨rfl, hd (hzk.trans hk)⟩
    · rw [h1, if_neg hj, hws, if_neg hj]
    · rw [h2 hwt.2 hi, hwt.1]
  · rw [if_pos rfl]
    refine ⟨w, rfl, ?_, fun _ => ?_, fun h => absurd h (by decide), fun j hj => ?_, hwt.1⟩
    · rw [hwi, hzc]
    · rw [hwi, hzs]
    · rw [hws, if_neg hj]

theorem State.streamCancel_exec (hx : s.starts d 0x22 cancelForm x) (hb : s.byHandle (x.get 16 4) = some i)
    (hy : s.servedGraph (s.stream i).graph = some y) (he : (s.stream i).state ≠ .ending) : exec (.streamCancel d) s =
      .next ((if ((s.putStream i { s.stream i with cancelReq := true }).unplan (s.stream i).graph i).inFlightStream i
        then (s.putStream i { s.stream i with cancelReq := true }).unplan (s.stream i).graph i
        else ((s.putStream i { s.stream i with cancelReq := true }).unplan (s.stream i).graph i).endCancelled i).complete x stOk 0 0) := by
  show execStreamCancel d s = _
  rw [execStreamCancel, State.runDesc_of_starts_local hx (State.starts_local hx (by decide)), State.namedStream, hb]
  dsimp only
  rw [hy, if_neg (by simp), if_neg (by simpa using he)]

/-- `STREAM_QUERY` (R342). -/
theorem State.streamQuery_exec (hx : s.starts d 0x23 queryForm x) (hb : s.byHandle (x.get 16 4) = some i)
    (hy : s.servedGraph (s.stream i).graph = some y) : exec (.streamQuery d) s =
      .next (((s.hostWrite (x.get 24 8) (s.stream i).bytes).useRecord i).complete x stOk 0 (s.stream i).state.code) := by
  show execStreamQuery d s = _
  rw [execStreamQuery, State.runDesc_of_starts_local hx (State.starts_local hx (by decide)), State.namedStream, hb]
  dsimp only
  rw [hy, if_neg (by simp)]

theorem Stream.critical_length (z : Stream) : z.critical.length = 112 := by
  unfold Stream.critical
  simp only [List.length_append, toLe_length, List.length_cons, List.length_nil]

theorem Stream.statistics_length (z : Stream) : z.statistics.length = 16 := by
  unfold Stream.statistics
  simp only [List.length_append, toLe_length, List.length_cons, List.length_nil]

theorem Stream.bytes_length (z : Stream) : z.bytes.length = 128 := by
  rw [Stream.bytes, List.length_append, Stream.critical_length, Stream.statistics_length]

/-- What `STREAM_QUERY` leaves behind before its record. -/
theorem State.query_spec (hd : s.dma = true) (a i : Nat) : ∃ u, (s.hostWrite a (s.stream i).bytes).useRecord i = u ∧
    (s.tracker.cache.contains i = true → Tab.getAll 0 u.host.mem a 128 = (s.stream i).bytes) ∧ (∀ j, u.stream j = s.stream j) ∧
    u.graphs = s.graphs := by
  obtain ⟨hm, hp, hw⟩ := State.hostWrite_frame (s := s) a (s.stream i).bytes
  refine ⟨_, rfl, fun hc => ?_, fun j => ?_, ?_⟩
  · have hr : (s.hostWrite a (s.stream i).bytes).readRecord i = s.hostWrite a (s.stream i).bytes := by
      refine if_pos ?_
      rw [hw]
      exact Bool.or_eq_true_iff.2 (.inl hc)
    have hput := Tab.getAll_putAll (d := 0) (m := s.host.mem) (k := a) (vs := (s.stream i).bytes)
    rw [Stream.bytes_length] at hput
    rw [State.useRecord, hr, State.touch_host, State.hostWrite, if_pos hd]
    generalize (s.stream i).bytes = bs at hput ⊢
    exact hput
  · rw [(State.useRecord_aside i).stream, hw]
    rfl
  · rw [(State.useRecord_aside i).graphs, hw]

/-! ### Prompts -/

/-- What a prompt run taken leaves alone (R336). -/
def State.Prompted (s t : State) (g : Nat) (y : Graph) (r : Nat × Nat × Nat) : Prop :=
  (∃ ts pw gs h c w, t = { s with tiles := ts, power := pw, graphs := gs, mem := { s.mem with hbm := h, cxl := c, wrong := w } }) ∧
    t.graph? g = some { y with sched := { y.sched with runs := y.sched.runs ++ [r] } }

/-- A prompt run taken where one fits (R336). -/
theorem State.takeRun_fits {v : Serving} {tokens : List Byte} {n u0 : Nat} (hy : s.graph? g = some y) (hn : ceilDiv tokens.length 64 = n)
    (hf : findRun (v.promptBytes / 64) n y.sched.runs (y.sched.runs.length + 1) 0 = some u0) :
    ∃ w, s.takeRun g i v tokens = some (w, v.promptBase + 64 * u0) ∧ s.Prompted w g y (u0, n, i) := by
  subst hn
  rw [State.takeRun, hy]
  dsimp only
  rw [hf]
  refine ⟨_, rfl, ?_⟩
  have hg : (s.updSched g fun sc => { sc with runs := sc.runs ++ [(u0, ceilDiv tokens.length 64, i)] }).graph? g =
      some { y with sched := { y.sched with runs := y.sched.runs ++ [(u0, ceilDiv tokens.length 64, i)] } } := by
    rw [State.updSched, State.updGraph_graph, if_pos rfl, hy]
    rfl
  obtain ⟨gs, hgs⟩ : ∃ gs, (s.updSched g fun sc => { sc with runs := sc.runs ++ [(u0, ceilDiv tokens.length 64, i)] }) =
      { s with graphs := gs } := by
    rw [State.updSched, State.updGraph, hy]
    exact ⟨_, rfl⟩
  rw [hgs] at hg ⊢
  obtain ⟨⟨_, _, _, _, _, hw⟩, -⟩ := State.write_wrote (s := { s with graphs := gs }) (v.promptBase + 64 * u0)
    (padTo (64 * ceilDiv tokens.length 64) tokens) false
  rw [hw]
  exact ⟨⟨_, _, _, _, _, _, rfl⟩, hg⟩

/-! ### Extending a stream -/

theorem State.streamExtend_exec {v : Serving} {n : Nat} {b : List Byte} (hx : s.starts d 0x21 (extendForm s) x)
    (hb : s.byHandle (x.get 16 4) = some i) (hy : s.servedGraph (s.stream i).graph = some y) (hv : y.serving = some v)
    (hn : n = x.get 20 4) (hm : s.mayExtend y i = true) (hl : (s.stream i).position + 1 + n < (s.stream i).limit)
    (hd : s.dma = true) (hbl : b.length = 4 * n) : exec (.streamExtend d (.data b)) s = .next (s.extendStream x i y v b) := by
  subst hn
  show execStreamExtend d (.data b) s = _
  rw [execStreamExtend, State.runDesc_of_starts hx hd, State.namedStream, hb]
  dsimp only
  rw [hy, if_neg (by simp), (State.servedGraph_graph hy).1]
  dsimp only
  rw [hv]
  dsimp only
  rw [hm, if_neg (by decide), if_neg (by omega), promptFits, promptBytes, if_neg (by simp [hbl]), if_pos hbl]

theorem State.extendStream_fits {v : Serving} {b : List Byte} {n u0 : Nat} (hy : s.graph? (s.stream i).graph = some y)
    (hn : n = x.get 20 4) (hbl : b.length = 4 * n)
    (hf : findRun (v.promptBytes / 64) (ceilDiv (4 + 4 * n) 64) (y.sched.runs.filter fun r => r.2.2 != i)
      ((y.sched.runs.filter fun r => r.2.2 != i).length + 1) 0 = some u0) :
    ∃ u : State, s.extendStream x i y v b = u.complete x stOk 0 0 ∧ (u.stream i).state = .pending ∧
      (u.stream i).promptEnd = (s.stream i).position + 1 + n ∧ (u.stream i).position = (s.stream i).position ∧
      (u.stream i).promptAddr = v.promptBase + 64 * u0 ∧ (u.stream i).deadline = y.sched.startDeadline (s.stream i).cls s.cairn ∧
      ∀ j, j ≠ i → u.stream j = s.stream j := by
  have hlen : (toLe 4 (s.stream i).lastToken ++ b).length = 4 + 4 * n := by rw [List.length_append, toLe_length, hbl]
  have hfree : (s.freeRuns (s.stream i).graph i).graph? (s.stream i).graph =
      some { y with sched := { y.sched with runs := y.sched.runs.filter fun r => r.2.2 != i } } := by
    rw [State.freeRuns, State.updSched, State.updGraph_graph, if_pos rfl, hy]
    rfl
  obtain ⟨gs, hg⟩ := State.freeRuns_frame (s := s) (s.stream i).graph i
  rw [State.extendStream]
  obtain ⟨w, hw, ⟨_, _, _, _, _, _, hws⟩, -⟩ := State.takeRun_fits (i := i) hfree (by rw [hlen]) hf
  rw [hw]
  dsimp only
  obtain ⟨_, _, hu⟩ := State.unplan_frame (s := w) (s.stream i).graph i
  have hws : ∀ j, (w.unplan (s.stream i).graph i).stream j = s.stream j := by
    intro j
    rw [hu, hws, hg]
    rfl
  generalize w.unplan (s.stream i).graph i = v at hws ⊢
  subst hn
  refine ⟨_, rfl, ?_⟩
  simp only [State.putStream_stream, if_true, true_and]
  exact fun j hj => by rw [if_neg hj, hws]

/-! ### Deadlines -/

/-- Past a deadline that does not lie too far ahead or behind, the Cairn that has run to it lies behind it. -/
theorem cairnBefore_past {c l : Nat} (h : cairnSince c l < 2 ^ 63 - 4 ∨ cairnSince l c < 2 ^ 63) :
    cairnBefore l (cairnMax c (roundUp (l + 1) 4)) = true := by
  obtain ⟨k, hk, hk', hr⟩ : ∃ k, 0 < k ∧ k ≤ 4 ∧ roundUp (l + 1) 4 = l + k := by
    refine ⟨roundUp (l + 1) 4 - l, ?_⟩
    unfold roundUp ceilDiv
    omega
  rw [hr]
  simp only [cairnMax, cairnBefore, cairnSince_eq, Bool.and_eq_true, bne_iff_ne, decide_eq_true_eq] at h ⊢
  norm_num at *
  split <;> omega

theorem State.notify_frame (i status detail : Nat) : ∃ h, s.notify i status detail = { s with host := h } := by
  unfold State.notify
  dsimp only
  split
  · obtain ⟨_, _, _, -, hn⟩ := State.notice_frame (s := s) (s.stream i).cq ((s.stream i).record status detail)
    exact ⟨_, hn⟩
  · exact ⟨_, rfl⟩

/-- A deadline that breaks (R189). -/
theorem State.breakDeadline_spec (hs : s.tableStands) (hi : i < streamCount) (hy : s.graph? (s.stream i).graph = some y) :
    ∃ z, s.breakDeadline i = z ∧ z.cairn = s.cairn ∧ (z.stream i).lateSeen = true ∧ (z.stream i).lateMark = true ∧
      (z.stream i).lateCount = min ((s.stream i).lateCount + 1) 0xFFFF ∧ (z.stream i).state = (s.stream i).state ∧
      (z.cairn, ⟨0x1202, (s.stream i).deadline, (s.stream i).handle, (s.stream i).cls⟩) ∈ z.ledger.events ∧
      (∀ j, j ≠ i → z.stream j = s.stream j) ∧ z.tiles = s.tiles ∧ z.graphs = s.graphs := by
  obtain ⟨w, ⟨dl, hw⟩, hb⟩ : ∃ w, (∃ dl, w = { s.stream i with
      lateSeen := true, lateMark := true, lateCount := min ((s.stream i).lateCount + 1) 0xFFFF, deadline := dl }) ∧ s.breakDeadline i =
      ((s.putStream i w).raise 0x1202 (s.stream i).deadline (s.stream i).handle (s.stream i).cls).notify i 0x01 0x0220 := by
    rw [State.breakDeadline, hy]
    exact ⟨_, ⟨_, rfl⟩, rfl⟩
  have hst := State.putStream_stream (s := s) i w
  have htab := State.putStream_tabled hs hi w
  have hcairn : (s.putStream i w).cairn = s.cairn ∧ (s.putStream i w).graphs = s.graphs := by
    rw [(State.putStream_aside i w).frame]
    exact ⟨rfl, rfl⟩
  rw [hb]
  generalize s.putStream i w = v at hst htab hcairn ⊢
  obtain ⟨_, hr⟩ := State.raise_only (s := v) 0x1202 (s.stream i).deadline (s.stream i).handle (s.stream i).cls
  obtain ⟨_, hn⟩ := State.notify_frame (s := v.raise 0x1202 (s.stream i).deadline (s.stream i).handle (s.stream i).cls) i 0x01 0x0220
  rw [hr] at hn ⊢
  have hzi := (hst i).trans (if_pos rfl)
  refine ⟨_, hn, hcairn.1, ?_, ?_, ?_, ?_, ?_, fun j hj => (hst j).trans (if_neg hj), htab.1.1, hcairn.2⟩
  · show (v.stream i).lateSeen = true
    rw [hzi, hw]
  · show (v.stream i).lateMark = true
    rw [hzi, hw]
  · show (v.stream i).lateCount = _
    rw [hzi, hw]
  · show (v.stream i).state = _
    rw [hzi, hw]
  · exact List.mem_append_right _ (List.mem_singleton.2 rfl)

/-- `DEADLINE_EXPIRY` (R187, R189). -/
theorem State.deadlineExpiry_exec (hserve : s.inService = true) (hi : i < streamCount) (hd : (s.stream i).deadline ≠ noDeadline)
    (hst : (s.stream i).state = .pending ∨ (s.stream i).state = .decode ∨ (s.stream i).state = .held)
    (hc : cairnSince s.cairn (s.stream i).deadline < 2 ^ 63 - 4 ∨ cairnSince (s.stream i).deadline s.cairn < 2 ^ 63) :
    exec (.deadlineExpiry i) s = .next ((s.advanceTo ((s.stream i).deadline + 1)).breakDeadline i) := by
  have ho : (s.advanceTo ((s.stream i).deadline + 1)).overdue i = true := by
    have hb := cairnBefore_past hc
    show ((s.stream i).deadline != noDeadline && cairnBefore (s.stream i).deadline (cairnMax s.cairn (roundUp ((s.stream i).deadline + 1) 4)) &&
      ((s.stream i).state == .pending || (s.stream i).state == .decode || (s.stream i).state == .held)) = true
    rw [hb]
    simpa [hd, or_assoc] using hst
  show execDeadlineExpiry i s = _
  rw [execDeadlineExpiry, State.onLive_next]
  refine ⟨by simpa using hi, ?_⟩
  have hgo : (if ((s.stream i).deadline == noDeadline) = true then s else s.advanceTo ((s.stream i).deadline + 1)) =
      s.advanceTo ((s.stream i).deadline + 1) := if_neg (by simpa using hd)
  rw [if_pos hserve]
  dsimp only
  rw [hgo, if_pos ho]

/-! ### Records freed -/

/-- Pages given back change no tile, nothing of the host, and of the tracker only records and its cache. -/
def State.Returned (s t : State) : Prop := t.tiles = s.tiles ∧ t.host = s.host ∧ t.tracker.freed = s.tracker.freed ∧
  t.tracker.pages = s.tracker.pages ∧ t.tableStands ∧ t.Faultless

theorem State.Returned.trans (h : s.Returned t) (h' : t.Returned u) : s.Returned u := by
  obtain ⟨ht, hh, hf, hp, -, -⟩ := h
  obtain ⟨ht', hh', hf', hp', hs, hw⟩ := h'
  exact ⟨ht'.trans ht, hh'.trans hh, hf'.trans hf, hp'.trans hp, hs, hw⟩

theorem State.Returned.refl (hs : s.tableStands) (hw : s.Faultless) : s.Returned s := ⟨rfl, rfl, rfl, rfl, hs, hw⟩

theorem State.Returned.stands (h : s.Returned t) : t.tableStands := by
  obtain ⟨-, -, -, -, hs, -⟩ := h
  exact hs

theorem State.Returned.faultless (h : s.Returned t) : t.Faultless := by
  obtain ⟨-, -, -, -, -, hw⟩ := h
  exact hw

theorem State.updSched_returned (hs : s.tableStands) (hw : s.Faultless) (g : Nat) (f : Sched → Sched) : s.Returned (s.updSched g f) := by
  obtain ⟨gs, hu⟩ : ∃ gs, s.updSched g f = { s with graphs := gs } := by
    rw [State.updSched, State.updGraph]
    split
    · exact ⟨_, rfl⟩
    · exact ⟨_, rfl⟩
  rw [hu]
  exact ⟨rfl, rfl, rfl, rfl, State.tableStands_congr hs rfl rfl rfl, hw⟩

theorem State.putStream_returned (hs : s.tableStands) (hw : s.Faultless) (hi : i < streamCount) (z : Stream) :
    s.Returned (s.putStream i z) := by
  obtain ⟨⟨ht, hst⟩, hh⟩ := State.putStream_tabled hs hi z
  obtain ⟨hh, hf⟩ := hh hw
  have htr : (s.putStream i z).tracker = { (s.setStream i z).tracker with cache := (s.putStream i z).tracker.cache } :=
    congrArg State.tracker (State.putStream_aside i z).frame
  exact ⟨ht, hh, by rw [htr]; rfl, by rw [htr]; rfl, hst, hf⟩

theorem State.foldl_returned {α : Type} {f : State → α → State} {l : List α} (hs : s.tableStands) (hw : s.Faultless)
    (hf : ∀ v : State, ∀ a ∈ l, v.tableStands → v.Faultless → v.Returned (f v a)) : s.Returned (l.foldl f s) :=
  List.foldlRecOn (motive := fun t : State => s.Returned t) l f (.refl hs hw) fun t ht a ha => ht.trans (hf t a ha ht.stands ht.faultless)

/-- A page back in its pool (R192). -/
theorem State.freePage_returned (hs : s.tableStands) (hw : s.Faultless) (g p page : Nat) : s.Returned (s.freePage g p page) := by
  rw [State.freePage]
  have h1 := State.updSched_returned hs hw g fun sc => { sc with
    freed := Tab.upd [] p (· ++ [page]) sc.freed, emptyRaised := sc.emptyRaised.filter (· != p) }
  dsimp only
  generalize s.updSched g _ = v at h1 ⊢
  split
  · exact h1
  · refine h1.trans (State.foldl_returned h1.stands h1.faultless fun w e he hws hww => ?_)
    split
    · exact State.putStream_returned hws hww (h1.stands.2.2.1 e (List.mem_of_mem_filter he)) _
    · exact .refl hws hww

theorem State.dropMoves_returned (hs : s.tableStands) (hw : s.Faultless) (g i : Nat) : s.Returned (s.dropMoves g i) := by
  rw [State.dropMoves]
  split
  · exact .refl hs hw
  · have h1 : s.Returned (s.dropCopies i) := ⟨rfl, rfl, rfl, rfl, State.tableStands_congr hs rfl rfl rfl, hw⟩
    have h2 := h1.trans (State.updSched_returned h1.stands h1.faultless g fun sc => { sc with moves := sc.moves.filter (·.1 != i) })
    exact h2.trans (State.foldl_returned h2.stands h2.faultless fun w _ _ hws hww => State.freePage_returned hws hww ..)

/-- A record `z` freed once its pages are back in their pools. -/
def State.recordFreed (i : Nat) (z : Stream) (s : State) : State :=
  let v := (((s.setPages i []).writeStatistics i z).writeHalves i z { z with state := .free }).setStream i .free
  { v with tracker := { v.tracker with freed := v.tracker.freed ++ [i], cache := v.tracker.cache.filter (· != i) } }

theorem State.recordFreed_spec (hs : s.tableStands) (hw : s.Faultless) (hi : i < streamCount) (z : Stream) : ∃ v, s.recordFreed i z = v ∧
    v.stream i = .free ∧ v.tracker.freed = s.tracker.freed ++ [i] ∧ v.host = s.host ∧ v.pagesOf i = [] ∧ v.tiles = s.tiles := by
  have h0 : (s.setPages i []).tableStands := hs
  have h1 := State.writeTable_tabled (off := 112) (bs := z.statistics) h0 hi (by decide)
  have h2 := h1.trans (State.writeHalves_tabled h1.stands hi z { z with state := .free })
  have ha := (State.writeTable_aside (s := s.setPages i []) i 112 z.statistics).trans (State.writeHalves_aside i z { z with state := .free })
  rw [State.recordFreed, State.writeStatistics]
  generalize ((s.setPages i []).writeTable i 112 z.statistics).writeHalves i z { z with state := .free } = v at h2 ha
  obtain ⟨⟨ht, -⟩, hh⟩ := h2
  have htr : v.tracker = { (s.setPages i []).tracker with cache := v.tracker.cache } := congrArg State.tracker ha.frame
  refine ⟨_, rfl, ?_, ?_, (hh hw).1, ?_, ht⟩
  · exact (State.setStream_stream v i i Stream.free).trans (if_pos rfl)
  · show v.tracker.freed ++ [i] = _
    rw [htr]
    rfl
  · show Tab.get [] v.tracker.pages i = []
    rw [htr]
    exact Tab.get_put_same (d := []) (k := i) (m := s.tracker.pages) (v := [])

/-- A record freed (R176, R192). -/
theorem State.freeStream_spec (hs : s.tableStands) (hw : s.Faultless) (hi : i < streamCount) : ∃ z, s.freeStream i = z ∧
    z.stream i = .free ∧ z.tracker.freed = s.tracker.freed ++ [i] ∧ z.host = s.host ∧ z.pagesOf i = [] ∧ z.tiles = s.tiles := by
  have h1 := State.dropMoves_returned hs hw (s.stream i).graph i
  have h2 := h1.trans (State.foldl_returned (l := (s.dropMoves (s.stream i).graph i).pagesOf i)
    (f := fun v p => v.freePage (s.stream i).graph p.1 p.2) h1.stands h1.faultless
    fun w _ _ hws hww => State.freePage_returned hws hww ..)
  obtain ⟨z, hz, hst, hfr, hho, hpg, hti⟩ := State.recordFreed_spec h2.stands h2.faultless hi (s.stream i)
  obtain ⟨ht, hh, hf, -, -, -⟩ := h2
  exact ⟨z, hz, hst, hfr.trans (congrArg (· ++ [i]) hf), hho.trans hh, hpg, hti.trans ht⟩

/-- `STREAM_FINAL_RECORD` (R186, R187). -/
theorem State.streamFinalRecord_exec (hserve : s.inService = true) (hi : i < streamCount) (he : (s.stream i).state = .ending)
    (hf : (s.cq (s.stream i).cq).hasFree = true) (hd : s.dma = true) (hn : s.inFlightStream i = false) :
    exec (.streamFinalRecord i) s = .next ((s.writeRec (s.stream i).cq ((s.stream i).record (s.stream i).endStatus
      (s.stream i).endDetail)).freeStream i) := by
  show execStreamFinalRecord i s = _
  rw [execStreamFinalRecord, State.onLive_next]
  refine ⟨by simpa using hi, ?_⟩
  rw [if_pos hserve]
  dsimp only
  rw [if_pos (by simp [he, hf, hd, hn])]

theorem State.streamFinalRecord_row (hserve : s.inService = true) (hi : i < streamCount) (he : (s.stream i).state = .ending)
    (hf : (s.cq (s.stream i).cq).hasFree = true) (hd : s.dma = true) (hn : s.inFlightStream i = false) (hs : s.tableStands)
    (hw : s.Faultless) : ∃ z, exec (.streamFinalRecord i) s = .next z ∧ z.stream i = .free ∧ z.tracker.freed = s.tracker.freed ++ [i] ∧
      (z.cq (s.stream i).cq).count = ((s.cq (s.stream i).cq).count + 1) % 2 ^ 32 ∧ z.pagesOf i = [] ∧ z.tiles = s.tiles := by
  have hx := State.streamFinalRecord_exec hserve hi he hf hd hn
  obtain ⟨hc, _, _, _, hr⟩ := State.writeRec_count (s := s) (s.stream i).cq
    ((s.stream i).record (s.stream i).endStatus (s.stream i).endDetail)
  generalize s.writeRec _ _ = v at hx hc hr
  obtain ⟨z, hz, hst, hfr, hho, hpg, hti⟩ := State.freeStream_spec (s := v) (i := i)
    (by rw [hr]; exact State.tableStands_congr hs rfl rfl rfl) (by rw [hr]; exact hw) hi
  refine ⟨z, hx.trans (congrArg _ hz), hst, by rw [hfr, hr], ?_, hpg, by rw [hti, hr]⟩
  rw [State.cq, hho]
  exact hc

/-! ### Bytes of HBM that stand in their place -/

theorem State.Stored.home (h : s.Stored t) (off : Nat) : t.home off = s.home off := by
  obtain ⟨_, _, _, rfl⟩ := h
  rfl

theorem State.markLines_get (sp off n : Nat) (p : Bool) (key a : Nat) :
    (s.markLines sp off n p).mem.hbm.get key 0 a = s.mem.hbm.get key 0 a := by
  have hset : ∀ (v : State) l on, (v.setPoison sp l on).mem.hbm.get key 0 a = v.mem.hbm.get key 0 a := by
    intro v l on
    unfold State.setPoison State.setSpace
    split
    · next hsp =>
      subst hsp
      rfl
    · rfl
  unfold State.markLines
  extract_lets l whole v
  have hv : v.mem.hbm = s.mem.hbm := by
    unfold v
    split <;> rfl
  rw [← hv]
  split
  · exact hset ..
  · split
    · exact hset ..
    · rfl

/-- Bytes written to a unit of HBM that stands in its place. -/
theorem State.store_get (off : Nat) (bs : List Byte) (p : Bool) (key a : Nat) : (s.store 0 off bs p).mem.hbm.get key 0 a =
    if h : off ≤ a ∧ a - off < bs.length then bs[a - off]'h.2 else s.mem.hbm.get key 0 a := by
  rw [State.store, State.markLines_get]
  show (Memory.putAll off bs s.mem.hbm).get key 0 a = _
  split
  · next h =>
    have := Memory.get_putAll (m := s.mem.hbm) (key := key) (sp := 0) (a := off) h.2
    rwa [Nat.add_sub_cancel' h.1] at this
  · exact Memory.get_putAll_other (by omega)

theorem State.hbmAddr_locate {off : Nat} (hid : s.fabric.id < 2 ^ 14) (h : off < hbmBytes) : s.locate (s.hbmAddr off) = .hbm off := by
  obtain ⟨h1, h2⟩ := State.hbmAddr_inHbm hid h
  have hm : s.hbmAddr off % 2 ^ 44 = off := by
    rw [hbmBytes] at h
    unfold State.hbmAddr
    norm_num at *
    omega
  rw [State.locate, if_neg (not_not_intro h1), h2, if_pos rfl, hm, if_pos h]

theorem State.writeRun_step {n a : Nat} {bs : List Byte} {p : Bool} (hb : bs ≠ [])
    (hw : s.writeUnit a (bs.take (min bs.length (64 - a % 64))) p = (t, stOk)) :
    State.writeRun (n + 1) a bs p s = State.writeRun n (a + min bs.length (64 - a % 64)) (bs.drop (min bs.length (64 - a % 64))) p t := by
  rw [State.writeRun, if_neg (by simpa using hb)]
  dsimp only
  rw [hw]
  exact if_neg (not_not_intro rfl)

/-- A write to HBM whose units all stand in their place (R225). -/
theorem State.writeRun_here {n off : Nat} {bs : List Byte} {p : Bool} (hid : s.fabric.id < 2 ^ 14) (hfit : off + bs.length ≤ hbmBytes)
    (hh : ∀ k, k < bs.length → s.home (off + k) = .here) (hn : bs ≠ [] → off % 64 + bs.length ≤ 64 * n) :
    ∃ t, (State.writeRun n (s.hbmAddr off) bs p s).1 = t ∧ s.Stored t ∧ ∀ key a, t.mem.hbm.get key 0 a =
      if h : off ≤ a ∧ a - off < bs.length then bs[a - off]'h.2 else s.mem.hbm.get key 0 a := by
  induction n generalizing off bs s with
  | zero =>
    obtain rfl : bs = [] := by
      by_contra hb
      have := hn hb
      have := List.length_pos_iff.2 hb
      omega
    exact ⟨s, rfl, .refl s, fun key a => by
      rw [dif_neg]
      exact fun h => Nat.not_lt_zero _ h.2⟩
  | succ n ih =>
    by_cases hb : bs = []
    · subst hb
      refine ⟨s, rfl, .refl s, fun key a => by
      rw [dif_neg]
      exact fun h => Nat.not_lt_zero _ h.2⟩
    · have hpos := List.length_pos_iff.2 hb
      have hn := hn hb
      have hmod : s.hbmAddr off % 64 = off % 64 := by
        unfold State.hbmAddr
        norm_num
        omega
      have hw : s.writeUnit (s.hbmAddr off) (bs.take (min bs.length (64 - off % 64))) p =
          (s.store 0 off (bs.take (min bs.length (64 - off % 64))) p, stOk) := by
        rw [State.writeUnit, State.hbmAddr_locate hid (by omega)]
        dsimp only
        rw [show s.home off = .here from hh 0 hpos]
      generalize hk : min bs.length (64 - off % 64) = k at hw
      have hst : s.Stored (s.store 0 off (bs.take k) p) := State.store_stored ..
      have hg := State.store_get (s := s) off (bs.take k) p
      generalize s.store 0 off (bs.take k) p = v at hw hst hg
      have hfab : v.fabric = s.fabric := by
        obtain ⟨_, _, _, rfl⟩ := hst
        rfl
      have haddr : s.hbmAddr off + k = v.hbmAddr (off + k) := by
        unfold State.hbmAddr
        rw [hfab]
        omega
      have hkl : k ≤ bs.length := by omega
      obtain ⟨t, ht, hst', hg'⟩ := ih (s := v) (off := off + k) (bs := bs.drop k) (by rw [hfab]; exact hid)
        (by rw [List.length_drop]; omega) (fun j hj => by
          rw [hst.home, Nat.add_assoc]
          rw [List.length_drop] at hj
          exact hh _ (by omega))
        (fun hd => by
          have := List.length_pos_iff.2 hd
          rw [List.length_drop] at this ⊢
          omega)
      refine ⟨t, ?_, hst.trans hst', fun key a => ?_⟩
      · rw [State.writeRun_step hb (t := v) (by rw [hmod, hk, hw]), hmod, hk, haddr, ht]
      · rw [hg', hg]
        simp only [List.length_drop, List.length_take, List.getElem_drop, List.getElem_take]
        split
        · next h =>
          rw [dif_pos (by omega)]
          congr 1
          omega
        · next h =>
          split
          · next h' => rw [dif_pos (by omega)]
          · next h' => rw [dif_neg (by omega)]

/-- A write into a record whose bytes all stand in their place. -/
theorem State.writeTable_here {off : Nat} {bs : List Byte} (hs : s.tableStands) (hi : i < streamCount) (ho : off + bs.length ≤ 128)
    (hh : ∀ k, k < 128 → s.home (s.regs.streamTable + 128 * i + k) = .here) :
    ∃ t, s.writeTable i off bs = t ∧ s.Stored t ∧ ∀ key a, t.mem.hbm.get key 0 a =
      if h : s.regs.streamTable + 128 * i + off ≤ a ∧ a - (s.regs.streamTable + 128 * i + off) < bs.length
      then bs[a - (s.regs.streamTable + 128 * i + off)]'h.2 else s.mem.hbm.get key 0 a := by
  obtain ⟨hb, hid, -⟩ := hs
  have ha : s.recordAt i + off = s.hbmAddr (s.regs.streamTable + 128 * i + off) := by
    unfold State.recordAt State.hbmAddr
    omega
  rw [State.writeTable, ha, State.write]
  refine State.writeRun_here hid ?_ (fun k hk => ?_) (fun _ => by omega)
  · rw [streamCount] at hi
    omega
  · rw [Nat.add_assoc]
    exact hh _ (by omega)

theorem sliceB_within {bs : List Byte} {off n : Nat} (h : off + n ≤ bs.length) : sliceB bs off n = (bs.drop off).take n := by
  rw [sliceB, List.length_take, List.length_drop, Nat.min_eq_left (by omega), Nat.sub_self, List.replicate_zero, List.append_nil]

/-- Both halves of a record written, each in one write of 64 bytes (R179). -/
theorem State.halves_get {bs : List Byte} (hbs : bs.length = 128) (hs : s.tableStands) (hi : i < streamCount)
    (hh : ∀ k, k < 128 → s.home (s.regs.streamTable + 128 * i + k) = .here) (key k : Nat) (hk : k < bs.length) :
    ((s.writeTable i 0 (sliceB bs 0 64)).writeTable i 64 (sliceB bs 64 64)).mem.hbm.get key 0 (s.regs.streamTable + 128 * i + k) = bs[k] := by
  rw [sliceB_within (by omega), sliceB_within (by omega)]
  obtain ⟨v, hv, hst, hg⟩ := State.writeTable_here (off := 0) (bs := (bs.drop 0).take 64) hs hi (by simp [hbs]) hh
  have hv' : v.regs = s.regs ∧ v.tableStands := by
    obtain ⟨_, _, _, rfl⟩ := hst
    exact ⟨rfl, State.tableStands_congr hs rfl rfl rfl⟩
  obtain ⟨w, hw, -, hg'⟩ := State.writeTable_here (s := v) (off := 64) (bs := (bs.drop 64).take 64) hv'.2 hi (by simp [hbs])
    (fun k hk => by rw [hv'.1, hst.home]; exact hh k hk)
  rw [hv, hw, hg', hg, hv'.1]
  simp only [List.length_take, List.length_drop, List.getElem_take, List.getElem_drop, hbs]
  by_cases hlt : k < 64
  · rw [dif_neg (by omega), dif_pos (by omega)]
    congr 1
    omega
  · rw [dif_pos (by omega)]
    congr 1
    omega

/-- A record put into a free index stands in the table from then on (R179). -/
theorem State.putStream_fresh (hs : s.tableStands) (hi : i < streamCount) (hf : (s.stream i).state = .free)
    (hh : ∀ k, k < 128 → s.home (s.regs.streamTable + 128 * i + k) = .here) (z : Stream) :
    (s.putStream i z).readBytes 0 (s.regs.streamTable + 128 * i) 112 = z.critical := by
  have hr : s.readRecord i = s := if_pos (by rw [hf]; simp)
  have ht := State.touch_tabled (State.setStream_tabled hs hi z).stands hi
  obtain ⟨_, _, _, _, _, _, hfr⟩ := State.touch_frame (s := s.setStream i z) i
  have hreg : ((s.setStream i z).touch i).regs = s.regs := by rw [hfr]; rfl
  have hhome : ∀ off, ((s.setStream i z).touch i).home off = s.home off := fun off => by rw [hfr]; rfl
  rw [State.putStream, hr, State.writeHalves]
  dsimp only
  rw [hf, if_pos (by simp), if_pos (by simp), Nat.mul_zero, Nat.mul_one]
  generalize (s.setStream i z).touch i = v at ht hreg hhome
  have hlen : (z.critical ++ z.statistics).length = 128 := Stream.bytes_length z
  have hget := State.halves_get (s := v) (i := i) hlen ht.stands hi (fun k hk => by rw [hreg, hhome]; exact hh k hk)
  rw [hreg] at hget
  generalize (v.writeTable i 0 _).writeTable i 64 _ = w at hget
  rw [State.readBytes, State.space, if_pos rfl, Memory.getAll_eq_map]
  refine List.ext_getElem (by simp [Stream.critical_length]) fun k h1 h2 => ?_
  rw [List.getElem_map, List.getElem_range, hget _ k (by
    rw [Stream.critical_length] at h2
    omega), List.getElem_append_left h2]

/-! ### Opening a stream -/

theorem State.takeIndex_frame {v : State} (h : s.takeIndex = some (i, v)) : ∃ fr fd, v = { s with
    tracker := { s.tracker with fresh := fr, freed := fd } } := by
  rw [State.takeIndex] at h
  split at h
  · obtain ⟨-, rfl⟩ := Prod.mk.injEq .. ▸ Option.some.inj h
    exact ⟨_, _, rfl⟩
  · split at h
    · exact absurd h (by simp)
    · obtain ⟨-, rfl⟩ := Prod.mk.injEq .. ▸ Option.some.inj h
      exact ⟨_, _, rfl⟩

theorem State.streamOpen_exec {s1 : State} {v : Serving} {b : List Byte}
    (hx : s.starts d 0x20 (fun d => reservedForm (openForm s d) (openReserved d)) x)
    (hy : s.servedGraph (x.get 16 1) = some y) (hv : y.serving = some v) (hn : n = x.get 20 4) (hpos : 0 < n) (hl : n < x.get 32 4)
    (hp : x.get 32 4 ≤ v.maxPages * v.kvPageTokens) (hd : s.dma = true) (hti : s.takeIndex = some (i, s1)) (hb : b.length = 4 * n) :
    exec (.streamOpen d (.data b)) s = .next (s.openStream x y v b) := by
  subst hn
  show execStreamOpen d (.data b) s = _
  rw [execStreamOpen, State.runDesc_of_starts hx hd]
  dsimp only
  rw [hy]
  dsimp only
  rw [hv]
  dsimp only
  rw [if_neg (by
    simp only [Bool.or_eq_true, decide_eq_true_eq]
    omega), hti, if_neg (by simp), promptFits, promptBytes, if_neg (by simp [hb]), if_pos hb]

/-- A stream opened on a free index (R176, R178, R184). -/
theorem State.openStream_row {s1 : State} {v : Serving} {b : List Byte} {h u0 : Nat} (hy : s.graph? (x.get 16 1) = some y)
    (hti : s.takeIndex = some (i, s1)) (hb : b.length = 4 * n) (hf : s.stream i = .free) (hs : s.tableStands)
    (hrun : findRun (v.promptBytes / 64) (ceilDiv (4 * n) 64) y.sched.runs (y.sched.runs.length + 1) 0 = some u0)
    (hhan : h = i + nextGen (Tab.get 0 s.tracker.lastGen i) * 2 ^ 21) :
    ∃ w : State, w.stream i = .free ∧ (∀ j, w.stream j = s.stream j) ∧ w.tableStands ∧ w.regs = s.regs ∧ (∀ off, w.home off = s.home off) ∧
      (w.graph? (x.get 16 1)).map (·.sched.runs) = some (y.sched.runs ++ [(u0, ceilDiv (4 * n) 64, i)]) ∧
      s.openStream x y v b = (w.putStream i (openRecord s x y v i (nextGen (Tab.get 0 s.tracker.lastGen i)) (v.promptBase + 64 * u0) b)).complete
        x stOk 0 h := by
  obtain ⟨fr, fd, h1⟩ := State.takeIndex_frame hti
  obtain ⟨c, hc, ⟨_, _, _, _, _, _, hfr⟩, hg⟩ := State.takeRun_fits (s := s1) (g := x.get 16 1) (i := i) (v := v) (tokens := b)
    (by rw [h1]; exact hy) (by rw [hb]) hrun
  have hlast : c.tracker = { s.tracker with fresh := fr, freed := fd } := by rw [hfr, h1]
  rw [State.openStream, hti]
  dsimp only
  rw [hc]
  dsimp only
  rw [hlast]
  dsimp only
  refine ⟨{ c with tracker := { s.tracker with
    fresh := fr, freed := fd, lastGen := Tab.put 0 i (nextGen (Tab.get 0 s.tracker.lastGen i)) s.tracker.lastGen } }, hf, fun j => rfl, ?_, ?_, fun off => ?_, ?_, ?_⟩
  · obtain ⟨hb, hid, hst, hca⟩ := hs
    rw [State.tableStands, hfr, h1]
    exact ⟨hb, hid, hst, hca⟩
  · rw [hfr, h1]
  · rw [hfr, h1]
    rfl
  · show (c.graph? (x.get 16 1)).map _ = _
    rw [hg]
    rfl
  · have hX : (openRecord s x y v i (nextGen (Tab.get 0 s.tracker.lastGen i)) (v.promptBase + 64 * u0) b).handle = h := hhan.symm
    rw [hX]

/-- Settles O51: a record opened, extended, cancelled or late is put with its halves written through, which changes no other record and,
of a table that stands in HBM, no tile; the bytes of a record put into a free index are read back byte by byte; and of a table without
errors the pages given back by an end change nothing of the host, whose completion ring holds the final record. -/
theorem streamRows : Obligations.StreamRows := by
  unfold Obligations.StreamRows
  refine ⟨fun s s1 d i n u0 x y v b hx hy hv hn hpos hl hp hd hti hb hi hf hs hh hrun => ?_,
    fun s d i n u0 x y v b hx hby hy hv hn hm hl hd hb hrun => ?_, fun s d i x y hx hby hy he hs => ?_, fun s d i x y hx hby hy hd => ?_,
    fun s i hserve hi he hf hd hn hs hw hp => State.streamFinalRecord_row hserve hi he hf hd hn hs ⟨hw, hp⟩,
    fun s i x y hserve hi hx hy hd hst hc hs => ?_⟩
  · obtain ⟨w, hwf, hws, hwt, hwr, hwh, hwg, ho⟩ := State.openStream_row (n := n) (State.servedGraph_graph hy).1 hti hb hf hs hrun rfl
    have hbytes := State.putStream_fresh hwt hi (by rw [hwf]; rfl) (fun k hk => by rw [hwr, hwh]; exact hh k hk)
      (openRecord s x y v i (nextGen (Tab.get 0 s.tracker.lastGen i)) (v.promptBase + 64 * u0) b)
    refine ⟨_, _, (State.streamOpen_exec hx hy hv hn hpos hl hp hd hti hb).trans (congrArg _ ho), rfl, ?_⟩
    rw [State.putStream_stream, if_pos rfl, State.putStream_graph]
    refine ⟨rfl, rfl, rfl, rfl, rfl, hn.symm, rfl, rfl, rfl, rfl, fun j hj => ?_, ?_, hwg⟩
    · rw [State.putStream_stream, if_neg hj, hws]
    · rw [← hwr]
      exact hbytes
  · obtain ⟨u, hu, h⟩ := State.extendStream_fits (s := s) (i := i) (x := x) (v := v) (State.servedGraph_graph hy).1 hn hb hrun
    exact ⟨u, (State.streamExtend_exec hx hby hy hv hn hm hl hd hb).trans (congrArg _ hu), h⟩
  · obtain ⟨hi, hfree⟩ := State.byHandle_some hby
    obtain ⟨u, hu, h⟩ := State.cancelled_spec hi hfree he (State.servedGraph_graph hy).1 hs
    exact ⟨u, (State.streamCancel_exec hx hby hy he).trans (by rw [hu]), h⟩
  · obtain ⟨u, hu, h⟩ := State.query_spec (s := s) hd (x.get 24 8) i
    exact ⟨u, (State.streamQuery_exec hx hby hy).trans (by rw [hu]), h⟩
  · subst hx
    obtain ⟨z, hz, hzc, h⟩ := State.breakDeadline_spec (s := s.advanceTo ((s.stream i).deadline + 1)) (i := i) hs hi hy
    exact ⟨z, (State.deadlineExpiry_exec hserve hi hd hst hc).trans (congrArg _ hz), hzc, h⟩

end Sys2Proof.Machine
end


section
/-! PROOF. Periods: selection, issue, slices, delivery, forecasts and harvest (R195 to R215, R412). -/

namespace Sys2Proof.Machine

variable {s t u : State} {i j g d n : Nat} {y : Graph} {β : Type} {f : Graph → β}

/-! ### What leaves the Cairn and the graphs alone -/

/-- Neither the Cairn nor a graph changes. -/
def State.Steady (s t : State) : Prop := t.cairn = s.cairn ∧ t.graphs = s.graphs

theorem State.Steady.refl (s : State) : s.Steady s := ⟨rfl, rfl⟩

theorem State.Steady.trans (h : s.Steady t) (h' : t.Steady u) : s.Steady u := ⟨h'.1.trans h.1, h'.2.trans h.2⟩

theorem State.Steady.ite {c : Prop} [Decidable c] (ht : s.Steady t) (hu : s.Steady u) : s.Steady (if c then t else u) := by
  split
  · exact ht
  · exact hu

theorem State.Steady.foldl {α : Type} {F : State → α → State} {l : List α} (h : s.Steady t) (hF : ∀ v a, s.Steady v → s.Steady (F v a)) :
    s.Steady (l.foldl F t) := List.foldlRecOn (motive := fun v : State => s.Steady v) l F h fun v hv a _ => hF v a hv

theorem State.Steady.graph (h : s.Steady t) (g : Nat) : t.graph? g = s.graph? g := by rw [State.graph?, h.2, ← State.graph?]

theorem State.Aside.steady (h : s.Aside t) : s.Steady t := by
  obtain ⟨_, _, _, _, _, _, _, _, _, _, _, _, _, _, rfl⟩ := h
  exact ⟨rfl, rfl⟩

theorem State.host_steady (h : Host_) : s.Steady { s with host := h } := ⟨rfl, rfl⟩

theorem State.raise_steady (c a b e : Nat) : s.Steady (s.raise c a b e) := by
  obtain ⟨_, hr⟩ := State.raise_only (s := s) c a b e
  rw [hr]
  exact ⟨rfl, rfl⟩

theorem State.releaseSlot_steady (r : Nat) : s.Steady (s.releaseSlot r) := ⟨rfl, rfl⟩

theorem State.reserveSlot_steady (r : Nat) : s.Steady (s.reserveSlot r).1 := by
  unfold State.reserveSlot
  split
  · exact ⟨rfl, rfl⟩
  · exact ⟨rfl, rfl⟩

theorem State.putStream_steady (i : Nat) (z : Stream) : s.Steady (s.putStream i z) :=
  State.Steady.trans (t := s.setStream i z) ⟨rfl, rfl⟩ (State.putStream_aside i z).steady

theorem State.modStream_steady (i : Nat) (F : Stream → Stream) : s.Steady (s.modStream i F) := State.putStream_steady ..

theorem State.notify_steady (i a b : Nat) : s.Steady (s.notify i a b) := by
  obtain ⟨_, hn⟩ := State.notify_frame (s := s) i a b
  rw [hn]
  exact State.host_steady _

theorem State.breakDeadline_steady (i : Nat) : s.Steady (s.breakDeadline i) := by
  unfold State.breakDeadline
  dsimp only
  split
  · exact .refl s
  · exact ((State.putStream_steady ..).trans (State.raise_steady ..)).trans (State.notify_steady ..)

theorem State.dropChunks_steady (cs : List Chunk) : s.Steady (s.dropChunks cs) :=
  (State.Steady.refl s).foldl fun _ _ h => h.trans (.ite (State.releaseSlot_steady _) (.refl _))

theorem State.markTrimmed_steady (c : Chunk) : s.Steady (s.markTrimmed c) := by
  unfold State.markTrimmed
  have h : s.Steady (if s.chunkFinal c then s.releaseSlot (s.stream c.idx).hring else s) := .ite (State.releaseSlot_steady _) (.refl s)
  exact (h.trans (State.modStream_steady ..)).trans (State.notify_steady ..)

theorem State.issueRow_steady (r : Row) : s.Steady (s.issueRow r) := by
  unfold State.issueRow
  refine .ite (State.useRecord_aside _).steady ?_
  have h : s.Steady (if s.overdue r.idx then s.breakDeadline r.idx else s) := .ite (State.breakDeadline_steady _) (.refl s)
  exact h.trans (State.modStream_steady ..)

/-! ### What keeps a part of a graph -/

/-- The Cairn stands, and `f` of graph `g` is as before. -/
def State.KeepsOf (f : Graph → β) (g : Nat) (s t : State) : Prop := t.cairn = s.cairn ∧ (t.graph? g).map f = (s.graph? g).map f

theorem State.KeepsOf.refl (s : State) : State.KeepsOf f g s s := ⟨rfl, rfl⟩

theorem State.KeepsOf.trans (h : State.KeepsOf f g s t) (h' : State.KeepsOf f g t u) : State.KeepsOf f g s u :=
  ⟨h'.1.trans h.1, h'.2.trans h.2⟩

theorem State.Steady.keepsOf (h : s.Steady t) : State.KeepsOf f g s t := ⟨h.1, by rw [h.graph]⟩

theorem State.updGraph_keepsOf {F : Graph → Graph} (hF : ∀ y, f (F y) = f y) : State.KeepsOf f g s (s.updGraph g F) := by
  refine ⟨State.updGraph_cairn .., ?_⟩
  rw [State.updGraph_graph, if_pos rfl]
  cases s.graph? g with
  | none => rfl
  | some y => exact congrArg some (hF y)

theorem State.updSched_some (hy : s.graph? g = some y) (F : Sched → Sched) :
    (s.updSched g F).graph? g = some { y with sched := F y.sched } := by
  rw [State.updSched, State.updGraph_graph, if_pos rfl, hy]
  rfl

theorem State.KeepsOf.some (h : State.KeepsOf f g s t) (hy : s.graph? g = some y) : ∃ w, t.graph? g = some w ∧ f w = f y := by
  have hm := h.2
  rw [hy] at hm
  cases hw : t.graph? g with
  | none =>
    rw [hw] at hm
    exact absurd hm (by simp)
  | some w =>
    rw [hw] at hm
    exact ⟨w, rfl, Option.some.inj hm⟩

theorem State.KeepsOf.foldl {α : Type} {F : State → α → State} {l : List α} (h : State.KeepsOf f g s t)
    (hF : ∀ v a, State.KeepsOf f g s v → State.KeepsOf f g s (F v a)) : State.KeepsOf f g s (l.foldl F t) :=
  List.foldlRecOn (motive := fun v : State => State.KeepsOf f g s v) l F h fun v hv a _ => hF v a hv

/-! ### Pages -/

/-- `f` does not depend on which pages of a graph's pools are free. -/
def Graph.PageFree (f : Graph → β) : Prop :=
  ∀ (y : Graph) a b c, f { y with sched := { y.sched with fresh := a, freed := b, emptyRaised := c } } = f y

theorem State.takePage_keepsOf (hf : Graph.PageFree f) (p page : Nat) : State.KeepsOf f g s (s.updSched g fun sc => sc.takePage p page) := by
  refine State.updGraph_keepsOf fun y => ?_
  obtain ⟨a, b, hp⟩ : ∃ a b, y.sched.takePage p page = { y.sched with fresh := a, freed := b } := by
    unfold Sched.takePage
    split
    · exact ⟨_, y.sched.freed, rfl⟩
    · exact ⟨y.sched.fresh, _, rfl⟩
  dsimp only
  rw [hp]
  exact hf y a b y.sched.emptyRaised

theorem State.takePages_keepsOf (hf : Graph.PageFree f) (i need fuel : Nat) : State.KeepsOf f g s (s.takePages g i need fuel).1 := by
  induction fuel generalizing s with
  | zero => exact .refl s
  | succ fuel ih =>
    rw [State.takePages]
    dsimp only
    split
    · exact .refl s
    · split
      · exact .refl s
      · split
        · exact .refl s
        · next v _ =>
          split
          · exact .refl s
          · next p n _ =>
            refine .trans ?_ ih
            have hw := (State.write_wrote (s := s) ((s.stream i).kvList + 8 * (s.stream i).kvPages) (toLe 8 (pageEntry v p n)) false).aside.steady
            refine (hw.keepsOf.trans (State.takePage_keepsOf hf p n)).trans ?_
            refine State.Steady.keepsOf ?_
            exact State.Steady.trans (t := State.setPages _ i _) ⟨rfl, rfl⟩ (State.putStream_steady ..)

theorem State.raiseEmpty_keepsOf (hf : Graph.PageFree f) (pools : List Nat) : State.KeepsOf f g s (s.raiseEmpty g pools) := by
  refine (State.KeepsOf.refl s).foldl fun v p h => h.trans ?_
  split
  · exact .refl v
  · split
    · exact .refl v
    · refine .trans ?_ (State.raise_steady ..).keepsOf
      exact State.updGraph_keepsOf fun y => hf y y.sched.fresh y.sched.freed _

theorem State.pagesReady_keepsOf (hf : Graph.PageFree f) (i n : Nat) : State.KeepsOf f g s (s.pagesReady g i n).1 := by
  unfold State.pagesReady
  dsimp only
  split
  · exact .refl s
  · split
    · exact .refl s
    · have h := State.takePages_keepsOf (s := s) (g := g) hf i
      split
      · exact h ..
      · exact ((h ..).trans (State.putStream_steady ..).keepsOf).trans (State.raiseEmpty_keepsOf hf _)

/-! ### Selection -/

/-- The plan of a graph keeps the limits of a period (R199). -/
def Plan.Within (rows n cap : Nat) (p : Plan) : Prop :=
  p.decode.length ≤ rows ∧ p.slices.length = n ∧ ∀ sl ∈ p.slices, tokensOf sl ≤ cap

theorem tokensOf_append (a b : List Chunk) : tokensOf (a ++ b) = tokensOf a + tokensOf b := by
  rw [tokensOf, tokensOf, tokensOf, List.map_append, sumNat_eq, sumNat_eq, sumNat_eq, List.sum_append]

/-- A chunk put into a slice with room for it. -/
theorem Plan.Within.addChunk {p : Plan} {rows n cap j : Nat} {c : Chunk} (h : p.Within rows n cap)
    (hc : tokensOf (p.slices.getD j []) + c.tokens ≤ cap) : ({ p with slices := Machine.addChunk j c p.slices } : Plan).Within rows n cap := by
  obtain ⟨hr, hn, ht⟩ := h
  refine ⟨hr, by simp [Machine.addChunk, hn], fun sl hsl => ?_⟩
  obtain ⟨e, he, rfl⟩ := List.mem_map.1 hsl
  obtain ⟨sl, k⟩ := e
  have hk := List.mem_zipIdx_iff_getElem?.1 he
  dsimp only
  split
  · next hj =>
    subst hj
    have hg : p.slices.getD k [] = sl := by rw [List.getD_eq_getElem?_getD, hk]; rfl
    rw [tokensOf_append, ← hg]
    have : tokensOf [c] = c.tokens := by simp [tokensOf, sumNat_eq]
    omega
  · exact ht sl (List.mem_of_getElem? hk)

/-- Graph `g` has a plan within the limits. -/
def State.Selecting (g rows n cap c : Nat) (s : State) : Prop :=
  s.cairn = c ∧ ∃ y p, s.graph? g = some y ∧ y.sched.plan = some p ∧ p.Within rows n cap

section Selecting

variable {rows cap c : Nat}

theorem State.Selecting.keeps (h : s.Selecting g rows n cap c) (hk : State.KeepsOf (fun y => y.sched.plan) g s t) :
    t.Selecting g rows n cap c := by
  obtain ⟨hc, y, p, hy, hp, hw⟩ := h
  obtain ⟨w, hg, hpl⟩ := hk.some hy
  exact ⟨hk.1.trans hc, w, p, hg, hpl.trans hp, hw⟩

theorem State.Selecting.steady (h : s.Selecting g rows n cap c) (hk : s.Steady t) : t.Selecting g rows n cap c := h.keeps hk.keepsOf

theorem planPageFree : Graph.PageFree fun y => y.sched.plan := fun _ _ _ _ => rfl

/-- The plan of a graph that is being selected, changed within its limits. -/
theorem State.updPlan_selecting {p : Plan} {F : Plan → Plan} (hc : s.cairn = c) (hy : s.graph? g = some y) (hp : y.sched.plan = some p)
    (hF : (F p).Within rows n cap) : (s.updSched g fun sc => { sc with plan := sc.plan.map F }).Selecting g rows n cap c := by
  refine ⟨(State.updGraph_cairn ..).trans hc, _, F p, State.updSched_some hy _, ?_, hF⟩
  show y.sched.plan.map F = _
  rw [hp]
  rfl

theorem State.selectDecode_selecting (h : s.Selecting g rows n cap c) (e : Nat × Stream) :
    (s.selectDecode g rows e).Selecting g rows n cap c := by
  obtain ⟨hc, y, p, hy, hp, hw⟩ := id h
  rw [State.selectDecode, hy]
  dsimp only
  rw [hp]
  dsimp only
  split
  · exact h
  · next hgo =>
    have hr := State.pagesReady_keepsOf (s := s) (g := g) planPageFree e.1
      (min (1 + b2n (y.inBatch e.1)) ((s.stream e.1).limit - (s.stream e.1).position))
    generalize s.pagesReady g e.1 _ = r at hr
    have hlt : p.decode.length < rows := by
      by_contra hge
      exact hgo (by simp [Nat.not_lt.1 hge])
    split
    · exact h.keeps hr
    · split
      · exact (h.keeps hr).steady (State.raise_steady ..)
      · have hk := hr.trans (State.reserveSlot_steady (s := r.1) (s.stream e.1).hring).keepsOf
        obtain ⟨w, hgw, hpw⟩ := hk.some hy
        obtain ⟨hrow, hlen, htok⟩ := hw
        exact State.updPlan_selecting (hk.1.trans hc) hgw (hpw.trans hp) ⟨by simpa using hlt, hlen, htok⟩

theorem State.selectChunk_selecting {v : Serving} (hv : v.admitTokens = cap) (h : s.Selecting g rows n cap c) (j : Nat) (e : Nat × Stream) :
    (s.selectChunk g j v e).Selecting g rows n cap c := by
  obtain ⟨hc, y, p, hy, hp, hw⟩ := id h
  rw [State.selectChunk, hy]
  dsimp only
  rw [hp]
  dsimp only
  split
  · exact h
  · have hr := State.pagesReady_keepsOf (s := s) (g := g) planPageFree e.1
      (min (min ((s.stream e.1).promptEnd - (s.stream e.1).position) v.chunkTokens) (v.admitTokens - tokensOf (p.slices.getD j [])))
    generalize s.pagesReady g e.1 _ = r at hr
    split
    · exact h.keeps hr
    · generalize hn : min (min ((s.stream e.1).promptEnd - (s.stream e.1).position) v.chunkTokens)
        (v.admitTokens - tokensOf (p.slices.getD j [])) = k
      generalize hch : ({ idx := e.1, cls := (s.stream e.1).cls, tokens := k } : Chunk) = ch
      have hq : State.KeepsOf (fun y => y.sched.plan) g s
          (if r.1.chunkFinal ch then r.1.reserveSlot (s.stream e.1).hring else (r.1, true)).1 := by
        split
        · exact hr.trans (State.reserveSlot_steady _).keepsOf
        · exact hr
      generalize (if r.1.chunkFinal ch then r.1.reserveSlot (s.stream e.1).hring else (r.1, true)) = q at hq
      split
      · exact h.keeps hr
      · obtain ⟨w, hgw, hpw⟩ := hq.some hy
        refine State.updPlan_selecting (hq.1.trans hc) hgw (hpw.trans hp) (hw.addChunk ?_)
        have htok : tokensOf (p.slices.getD j []) ≤ cap := by
          rw [List.getD_eq_getElem?_getD]
          cases hs : p.slices[j]? with
          | none => exact Nat.zero_le _
          | some sl => exact hw.2.2 sl (List.mem_of_getElem? hs)
        rw [← hch]
        show _ + k ≤ cap
        omega

end Selecting

/-- The selection of a period (R199). -/
theorem State.selectPeriod_spec {v : Serving} (hy : s.graph? g = some y) (hv : y.servingFor y.sched.nextK = some v) :
    (s.selectPeriod g).Selecting g v.batchRows (y.sched.lengthNs y.sched.nextK / ms) v.admitTokens s.cairn := by
  rw [State.selectPeriod, hy]
  dsimp only
  rw [hv]
  dsimp only
  have h0 : (s.updSched g fun sc => { sc with plan := some ⟨[], List.replicate (y.sched.lengthNs y.sched.nextK / ms) []⟩ }).Selecting g
      v.batchRows (y.sched.lengthNs y.sched.nextK / ms) v.admitTokens s.cairn := by
    refine ⟨State.updGraph_cairn .., _, ⟨[], List.replicate (y.sched.lengthNs y.sched.nextK / ms) []⟩, State.updSched_some hy _, rfl,
      Nat.zero_le _, List.length_replicate, fun sl hsl => ?_⟩
    rw [List.eq_of_mem_replicate hsl]
    exact Nat.zero_le _
  generalize s.updSched g _ = w at h0
  refine List.foldlRecOn (motive := fun t : State => t.Selecting g _ _ _ _) _ _ ?_ fun t ht j _ => ?_
  · exact List.foldlRecOn (motive := fun t : State => t.Selecting g _ _ _ _) _ _ h0 fun t ht e _ => State.selectDecode_selecting ht e
  · exact List.foldlRecOn (motive := fun t : State => t.Selecting g _ _ _ _) _ _ ht fun t ht e _ => State.selectChunk_selecting rfl ht j e

theorem State.periodSelection_row {v : Serving} (hs : s.inService = true) (hg : g < 8) (hy : s.graph? g = some y) (ha : y.active = true)
    (hp : y.sched.plan = none) (hv : y.servingFor y.sched.nextK = some v) :
    ∃ z p, exec (.periodSelection g) s = .next z ∧ (z.graph? g).bind (·.sched.plan) = some p ∧ p.decode.length ≤ v.batchRows ∧
      p.slices.length = y.sched.lengthNs y.sched.nextK / ms ∧ (∀ sl ∈ p.slices, tokensOf sl ≤ v.admitTokens) ∧
      z.cairn = cairnMax s.cairn (roundUp
        (if y.sched.started then cairnMax (y.sched.nextB - ms) y.sched.startAt else y.sched.nextB - ms) 4) := by
  obtain ⟨hc, w, p, hw, hpl, hr, hn, ht⟩ := State.selectPeriod_spec (s := s.advanceTo (if y.sched.started then
    cairnMax (y.sched.nextB - ms) y.sched.startAt else y.sched.nextB - ms)) hy hv
  refine ⟨_, p, ?_, ?_, hr, hn, ht, hc⟩
  · show execPeriodSelection g s = _
    rw [execPeriodSelection, State.onLive_next]
    refine ⟨by simpa using hg, ?_⟩
    rw [if_pos hs, hy]
    dsimp only
    rw [if_pos (by simp [ha, hp])]
  · rw [hw]
    exact hpl

/-! ### Verification rounds -/

theorem State.Worn.sliceFailed {src : Nat} {k : Nat × Nat} (h : s.Worn u) : s.Worn (u.sliceFailed src k) :=
  .ite h (.ite h.addDefect.setScore.raise.fenceTile h.addDefect)

/-- A slice recorded: parts that failed wear the module, and its record stands in the result log. -/
theorem State.recordSlice_worn (k x out src : Nat) (r : SliceReport) : ∃ v, (s.wipe k x).Worn v ∧
    (v.addResult (s.sliceResult k x out src r)).Worn (s.recordSlice k x out src r) :=
  ⟨_, (State.Worn.refl _).foldl fun _ _ h => h.sliceFailed, (State.Worn.refl _).checkDegraded⟩

theorem State.Worn.cairn (h : s.Worn t) : t.cairn = s.cairn := by
  rw [h.frame]

theorem State.recordSlice_cairn (k x out src : Nat) (r : SliceReport) : (s.recordSlice k x out src r).cairn = s.cairn := by
  obtain ⟨v, hv, hr⟩ := State.recordSlice_worn (s := s) k x out src r
  obtain ⟨_, ha⟩ := State.addResult_frame (s := v) (s.sliceResult k x out src r)
  rw [hr.cairn, ha]
  refine hv.cairn.trans ?_
  unfold State.wipe
  split <;> rfl

theorem State.print_cairn (ls : List Line) : (s.print ls).cairn = s.cairn := rfl

theorem State.preemptSlice_cairn : s.preemptSlice.cairn = s.cairn := by
  unfold State.preemptSlice State.endSlice
  dsimp only
  split
  · rfl
  · rw [State.print_cairn, State.recordSlice_cairn]
    refine List.foldlRecOn (motive := fun t : State => t.cairn = s.cairn) (List.range 320) _ rfl fun t ht i _ => ?_
    split
    · rw [(State.letGo_onlyTiles i).frame]
      exact ht
    · exact ht

theorem State.preemptSlice_steady : s.Steady s.preemptSlice := ⟨State.preemptSlice_cairn, State.preemptSlice_graphs⟩

theorem State.OnlyTiles.steady {T : Nat → Prop} (h : s.OnlyTiles T t) : s.Steady t := by
  rw [h.frame]
  exact ⟨rfl, rfl⟩

theorem State.withdraw_steady (i : Nat) : s.Steady (s.withdraw i) := by
  unfold State.withdraw
  extract_lets v w
  have hv : s.Steady v := .ite State.preemptSlice_steady (.refl s)
  have hw : s.Steady w := hv.trans ⟨rfl, rfl⟩
  clear_value w
  split
  · exact hw.trans ⟨rfl, rfl⟩
  · exact hw

theorem State.writeTile_steady (i : Nat) (F : Tile → Tile) : s.Steady (s.writeTile i F) := by
  refine (State.withdraw_steady i).trans (State.Steady.trans (t := (s.withdraw i).updTile i F) ⟨rfl, rfl⟩ ?_)
  exact ((State.turnTileOn_onlyStagings i).onlyTiles (T := fun _ => True)).steady

/-- `f` does not depend on a graph's shadows, what has been seen of them, and what is spilled. -/
def Graph.ShadowFree (f : Graph → β) : Prop := ∀ (y : Graph) a b, f { y with spills := a, verify := b } = f y

theorem State.setShadow_keepsOf (hf : Graph.ShadowFree f) (v t : Nat) : State.KeepsOf f g s (s.setShadow g v t) := by
  unfold State.setShadow
  split
  · exact .refl s
  · exact (State.writeTile_steady ..).keepsOf.trans (State.updGraph_keepsOf fun y => hf y _ _)

theorem State.dropShadow_keepsOf (hf : Graph.ShadowFree f) (e : Nat × Nat) : State.KeepsOf f g s (s.dropShadow g e) :=
  (State.freeTileNow_onlyTiles e.2).steady.keepsOf.trans (State.updGraph_keepsOf fun y => hf y _ _)

theorem State.dropShadows_keepsOf (hf : Graph.ShadowFree f) : State.KeepsOf f g s (s.dropShadows g) := by
  unfold State.dropShadows
  split
  · exact .refl s
  · exact ((State.KeepsOf.refl s).foldl fun _ _ h => h.trans (State.dropShadow_keepsOf hf _)).trans
      (State.updGraph_keepsOf fun y => hf y y.spills _)

theorem State.nextRound_keepsOf (hf : Graph.ShadowFree f) : State.KeepsOf f g s (s.nextRound g) := by
  refine (State.KeepsOf.refl s).foldl fun v m h => h.trans ?_
  split
  · exact .refl v
  · exact (State.KeepsOf.refl v).foldl fun _ _ h => h.trans (State.setShadow_keepsOf hf ..)

theorem State.beginVerify_keepsOf (hf : Graph.ShadowFree f) : State.KeepsOf f g s (s.beginVerify g) := by
  unfold State.beginVerify
  split
  · exact .refl s
  · split
    · exact (State.dropShadows_keepsOf hf).trans (State.nextRound_keepsOf hf)
    · exact .refl s

/-! ### Issue -/

/-- What a graph's scheduler holds beside its plans, slices, estimates and pages, with what it serves and its change. -/
def Graph.fixed (y : Graph) := ((y.sched.period, y.sched.started, y.sched.startAt, y.sched.nextB, y.sched.nextK),
  (y.sched.slice, y.sched.admissionSeq, y.sched.batches, y.sched.periodMs, y.sched.newMs), y.serving, y.change)

/-- A graph's scheduler, with what it serves and its change. -/
def Graph.duty (y : Graph) := (y.sched, y.serving, y.change)

theorem Graph.duty_shadowFree : Graph.ShadowFree Graph.duty := fun _ _ _ => rfl

theorem Graph.fixed_pageFree : Graph.PageFree Graph.fixed := fun _ _ _ _ => rfl

theorem Graph.fixed_lengthNs {w y : Graph} (h : w.fixed = y.fixed) (n : Nat) : w.sched.lengthNs n = y.sched.lengthNs n := by
  simp only [Graph.fixed, Prod.mk.injEq] at h
  obtain ⟨-, ⟨-, -, -, hms, hnew⟩, -⟩ := h
  rw [Sched.lengthNs, Sched.lengthNs, hms, hnew]

/-- A batch issued (R203 to R206). -/
theorem State.issueBatch_spec (hy : s.graph? g = some y) (kind seq units : Nat) (rows : List Row) :
    ∃ t b w iu it, s.issueBatch g kind seq units rows = t ∧ t.cairn = s.cairn ∧ b.kind = kind ∧ b.seq = seq ∧ b.rows = rows ∧
      b.toDeliver = y.entriesOf kind ∧ t.graph? g = some w ∧ w.serving = y.serving ∧ w.change = y.change ∧ w.sched = { y.sched with
        batches := y.sched.batches ++ [b], endAt := none, issuedUnits := iu, issuedTokens := it } := by
  obtain ⟨b, hk, hq, hr, he, iu, it, hx⟩ : ∃ b : Batch, b.kind = kind ∧ b.seq = seq ∧ b.rows = rows ∧ b.toDeliver = y.entriesOf kind ∧
      ∃ iu it : Nat → Nat, s.issueBatch g kind seq units rows = ((rows.foldl State.issueRow s).updSched g fun sc => { sc with
        batches := sc.batches ++ [b], endAt := none, issuedUnits := iu sc.issuedUnits, issuedTokens := it sc.issuedTokens }).beginVerify g := by
    rw [State.issueBatch, hy]
    exact ⟨_, rfl, rfl, rfl, rfl, fun n => n + (rows.filter (·.kind == 0)).length,
      fun n => n + sumNat ((rows.filter (·.kind != 0)).map (·.count)), rfl⟩
  have hst : s.Steady (rows.foldl State.issueRow s) := (State.Steady.refl s).foldl fun _ _ h => h.trans (State.issueRow_steady _)
  have hg := State.updSched_some ((hst.graph g).trans hy) fun sc => { sc with
    batches := sc.batches ++ [b], endAt := none, issuedUnits := iu sc.issuedUnits, issuedTokens := it sc.issuedTokens }
  obtain ⟨hc, hv⟩ : State.KeepsOf Graph.duty g _ (s.issueBatch g kind seq units rows) := by
    rw [hx]
    exact State.beginVerify_keepsOf Graph.duty_shadowFree
  obtain ⟨w, hw, hd⟩ := State.KeepsOf.some ⟨hc, hv⟩ hg
  simp only [Graph.duty, Prod.mk.injEq] at hd
  obtain ⟨hsch, hser, hch⟩ := hd
  refine ⟨_, b, w, _, _, rfl, ?_, hk, hq, hr, he, hw, hser, hch, hsch⟩
  exact hc.trans ((State.updGraph_cairn ..).trans hst.1)

theorem State.trim_keepsOf (k lag : Nat) (v : Serving) : State.KeepsOf Graph.fixed g s (s.trim g k lag v) := by
  unfold State.trim
  split
  · exact .refl s
  · split
    · exact .refl s
    · split
      · exact .refl s
      · dsimp only
        refine .trans ?_ ((State.Steady.refl _).foldl fun _ _ h => h.trans (State.markTrimmed_steady _)).keepsOf
        exact (State.raise_steady ..).keepsOf.trans (State.updGraph_keepsOf fun _ => rfl)

/-- Nothing is served anew where no change is under way. -/
theorem State.serveChange_none (hy : s.graph? g = some y) (hc : y.change = none) (k : Nat) : s.serveChange g k = s := by
  rw [State.serveChange, hy]
  dsimp only
  rw [hc]

theorem State.changeBehind_none (hy : s.graph? g = some y) (hc : y.change = none) (k : Nat) : s.changeBehind g k = s := by
  rw [State.changeBehind, hy]
  dsimp only
  rw [hc]

/-- A period that starts (R195, R198, R208). -/
theorem State.startPeriod_spec {v w : Serving} {p : Plan} (hy : s.graph? g = some y) (hw : y.serving = some w) (hb : y.sched.batches = [])
    (hc : y.change = none) : ∃ z c b, s.startPeriod g y v p = z ∧ (z.graph? g).map (·.sched) = some c ∧ c.period = y.sched.nextK ∧
      c.nextK = y.sched.nextK + 1 ∧ c.started = true ∧ c.nextB = y.sched.nextB + y.sched.lengthNs y.sched.nextK ∧
      c.startAt = y.sched.endAt.elim y.sched.nextB (cairnMax y.sched.nextB) ∧ c.plan = none ∧ c.batches = [b] ∧ b.kind = 0 ∧
      b.seq = y.sched.nextK ∧ b.toDeliver = w.periodEntries ∧ b.rows.length ≤ p.decode.length ∧
      z.cairn = cairnMax s.cairn (roundUp c.startAt 4) := by
  rw [State.startPeriod]
  dsimp only
  generalize hstart : y.sched.endAt.elim y.sched.nextB (cairnMax y.sched.nextB) = start
  have h1 : State.KeepsOf Graph.fixed g (s.advanceTo start) ((s.advanceTo start).updSched g fun sc =>
      { sc.periodEnd (y.serving.getD v) with
        policy := (sc.periodEnd (y.serving.getD v)).newPolicy.getD (sc.periodEnd (y.serving.getD v)).policy, newPolicy := none }) := by
    refine State.updGraph_keepsOf fun x => ?_
    obtain ⟨n, hn⟩ : ∃ n, x.sched.periodEnd (y.serving.getD v) = { x.sched with unitNs := n } := by
      unfold Sched.periodEnd
      dsimp only
      split
      · exact ⟨_, rfl⟩
      · split <;> exact ⟨_, rfl⟩
    dsimp only
    rw [hn]
    rfl
  generalize (s.advanceTo start).updSched g _ = s1 at h1
  have h2 := (h1.trans (State.dropChunks_steady y.sched.slices.flatten).keepsOf).trans
    (State.trim_keepsOf y.sched.nextK (cairnSince y.sched.nextB start) v)
  generalize (s1.dropChunks y.sched.slices.flatten).trim g y.sched.nextK (cairnSince y.sched.nextB start) v = s2 at h2
  generalize (((s2.graph? g).bind fun y => y.sched.plan).map (·.slices)).getD [] = slices
  have h3 := h2.trans ((State.Steady.refl s2).foldl (l := p.decode.filter fun i => !s2.decodeStands g i)
    (F := fun s i => s.releaseSlot (s.stream i).hring) fun _ _ h => h.trans (State.releaseSlot_steady _)).keepsOf
  generalize List.foldl _ s2 _ = s3 at h3
  obtain ⟨y3, hy3, hfix⟩ := h3.some (y := y) hy
  have hns := Graph.fixed_lengthNs hfix y.sched.nextK
  simp only [Graph.fixed, Prod.mk.injEq] at hfix
  obtain ⟨⟨-, -, -, hnextB, -⟩, ⟨-, -, hbat, -, -⟩, hser, hch⟩ := hfix
  have h4 := State.updSched_some hy3 (Sched.enter y.sched.nextK start slices)
  rw [State.serveChange_none h4 (hch.trans hc)]
  have hc4 : (s3.updSched g (Sched.enter y.sched.nextK start slices)).cairn = cairnMax s.cairn (roundUp start 4) :=
    (State.updGraph_cairn ..).trans h3.1
  generalize s3.updSched g _ = s4 at h4 hc4
  obtain ⟨z, b, wz, iu, it, hz, hcz, hk, hq, hr, he, hwz, -, hchz, hsch⟩ := State.issueBatch_spec h4 0 y.sched.nextK
    (s4.sortRows ((p.decode.filter (s2.decodeStands g)).map fun i => s4.rowOf i 0 1)).length
    (s4.sortRows ((p.decode.filter (s2.decodeStands g)).map fun i => s4.rowOf i 0 1))
  rw [hz, State.changeBehind_none hwz (hchz.trans (hch.trans hc))]
  refine ⟨z, wz.sched, b, rfl, by rw [hwz]; rfl, ?_⟩
  rw [hsch]
  refine ⟨rfl, rfl, rfl, ?_, rfl, rfl, ?_, hk, hq, ?_, ?_, hcz.trans hc4⟩
  · show y3.sched.nextB + y3.sched.lengthNs y.sched.nextK = _
    rw [hnextB, hns]
  · show y3.sched.batches ++ [b] = [b]
    rw [hbat, hb, List.nil_append]
  · rw [he, Graph.entriesOf]
    dsimp only
    rw [hser, hw]
    rfl
  · rw [hr, State.sortRows, sortBy, List.length_insertionSort, List.length_map]
    exact List.length_filter_le ..

theorem State.periodBatchIssue_exec {v : Serving} {p : Plan} (hs : s.inService = true) (hg : g < 8) (hy : s.graph? g = some y)
    (ha : y.active = true) (hp : y.sched.plan = some p) (hv : y.servingFor y.sched.nextK = some v) (hb : y.sched.batches = [])
    (he : y.sched.started = false ∨ y.sched.endAt.isSome = true) : exec (.periodBatchIssue g) s = .next (s.startPeriod g y v p) := by
  show execPeriodBatchIssue g s = _
  rw [execPeriodBatchIssue, State.onLive_next]
  refine ⟨by simpa using hg, ?_⟩
  rw [if_pos hs, hy]
  dsimp only
  rw [hp, hv]
  dsimp only
  rw [if_pos (by simpa [ha, hb] using he)]

/-! ### Slices -/

/-- Rows of an admission batch, in a state that keeps its graph's scheduler, within the admission tokens (R197). -/
def State.Admits (f : Graph → β) (g : Nat) (v : Serving) (s : State) (r : State × List Row) : Prop :=
  State.KeepsOf f g s r.1 ∧ sumNat (r.2.map (·.count)) ≤ v.admitTokens

theorem sumNat_rows_snoc (rs : List Row) (r : Row) : sumNat ((rs ++ [r]).map (·.count)) = sumNat (rs.map (·.count)) + r.count := by
  simp [sumNat_eq]

section Admits

variable {v : Serving} {r : State × List Row}

theorem State.admitFirst_admits (hf : Graph.PageFree f) (h : State.Admits f g v s r) (at_ : Nat) (e : Nat × Stream) :
    State.Admits f g v s (State.admitFirst g at_ v r e) := by
  obtain ⟨hk, hr⟩ := id h
  unfold State.admitFirst
  dsimp only
  split
  · exact h
  · split
    · exact h
    · generalize hn : min (min ((r.1.stream e.1).promptEnd - (r.1.stream e.1).position) v.chunkTokens)
        (v.admitTokens - sumNat (r.2.map (·.count))) = n
      have hle : sumNat (r.2.map (·.count)) + n ≤ v.admitTokens := by omega
      have hp := State.pagesReady_keepsOf (s := r.1) (g := g) hf e.1 n
      generalize r.1.pagesReady g e.1 n = p at hp
      split
      · exact ⟨hk.trans hp, hr⟩
      · have hq : State.KeepsOf f g s (if p.1.chunkFinal ⟨e.1, 0, n⟩ then p.1.reserveSlot (r.1.stream e.1).hring else (p.1, true)).1 := by
          split
          · exact (hk.trans hp).trans (State.reserveSlot_steady _).keepsOf
          · exact hk.trans hp
        generalize (if p.1.chunkFinal ⟨e.1, 0, n⟩ then p.1.reserveSlot (r.1.stream e.1).hring else (p.1, true)) = q at hq
        split
        · exact ⟨(hk.trans hp).trans (State.raise_steady ..).keepsOf, hr⟩
        · refine ⟨hq, ?_⟩
          rw [sumNat_rows_snoc]
          exact hle

/-- `f` depends neither on the plans of a graph nor on its slices. -/
def Graph.PlanFree (f : Graph → β) : Prop := ∀ (y : Graph) a b, f { y with sched := { y.sched with plan := a, slices := b } } = f y

theorem State.displace_keepsOf (hf : Graph.PlanFree f) (j : Nat) (c : Chunk) : State.KeepsOf f g s (s.displace g j v c) := by
  unfold State.displace
  split
  · exact .refl s
  · have h : s.Steady (s.updStream c.idx fun x => { x with preemptCount := min (x.preemptCount + 1) 0xFFFF }) := ⟨rfl, rfl⟩
    dsimp only
    split
    · exact h.keepsOf.trans (State.updGraph_keepsOf fun y => hf y y.sched.plan _)
    · split
      · exact h.keepsOf.trans (State.updGraph_keepsOf fun y => hf y _ y.sched.slices)
      · exact (h.trans (State.dropChunks_steady _)).keepsOf

theorem State.admitPlanned_admits (hf : Graph.PlanFree f) (h : State.Admits f g v s r) (j : Nat) (c : Chunk) :
    State.Admits f g v s (State.admitPlanned g j v r c) := by
  obtain ⟨hk, hr⟩ := id h
  unfold State.admitPlanned
  dsimp only
  split
  · exact ⟨hk.trans (State.dropChunks_steady _).keepsOf, hr⟩
  · split
    · next hfit =>
      refine ⟨hk, ?_⟩
      rw [sumNat_rows_snoc]
      simp only [Bool.and_eq_true, decide_eq_true_eq] at hfit
      exact hfit.1
    · exact ⟨hk.trans (State.displace_keepsOf hf ..), hr⟩

end Admits

theorem Graph.fixed_planFree : Graph.PlanFree Graph.fixed := fun _ _ _ => rfl

theorem State.sortRows_count (rs : List Row) : sumNat ((s.sortRows rs).map (·.count)) = sumNat (rs.map (·.count)) := by
  rw [sumNat_eq, sumNat_eq, State.sortRows, sortBy]
  exact ((List.perm_insertionSort _ rs).map _).sum_eq

theorem State.advanceTo_graph (n g : Nat) : (s.advanceTo n).graph? g = s.graph? g := rfl

/-- A slice that begins (R197, R201). -/
theorem State.sliceBoundary_row {v : Serving} (hs : s.inService = true) (hg : g < 8) (hy : s.graph? g = some y) (ha : y.active = true)
    (hst : y.sched.started = true) (hv : y.serving = some v) :
    ∃ z c, exec (.sliceBoundary g) s = .next z ∧ (z.graph? g).map (·.sched) = some c ∧ c.slice = y.sched.slice + 1 ∧
      z.cairn = cairnMax s.cairn (roundUp (y.sched.startAt + y.sched.slice * ms) 4) ∧
      (c.batches = y.sched.batches ∨ ∃ b, c.batches = y.sched.batches ++ [b] ∧ b.kind = 1 ∧ b.seq = y.sched.admissionSeq ∧
        sumNat (b.rows.map (·.count)) ≤ v.admitTokens ∧ c.admissionSeq = y.sched.admissionSeq + 1) := by
  generalize hat : y.sched.startAt + y.sched.slice * ms = at_
  have hadmit : State.Admits Graph.fixed g v (s.advanceTo at_)
      ((inPrec ((s.advanceTo at_).streamsOf g)).foldl (State.admitFirst g at_ v) (s.advanceTo at_, [])) :=
    List.foldlRecOn (motive := State.Admits Graph.fixed g v (s.advanceTo at_)) _ _ ⟨.refl _, Nat.zero_le _⟩ fun r hr e _ =>
      State.admitFirst_admits Graph.fixed_pageFree hr at_ e
  generalize hr : (inPrec ((s.advanceTo at_).streamsOf g)).foldl (State.admitFirst g at_ v) (s.advanceTo at_, []) = r at hadmit
  obtain ⟨hk, hrows⟩ := hadmit
  obtain ⟨y1, hy1, hf1⟩ := hk.some ((State.advanceTo_graph at_ g).trans hy)
  have hg2 := State.updSched_some hy1 fun sc => { sc with slice := y.sched.slice + 1, slices := sc.slices.set y.sched.slice [] }
  generalize hs1 : r.1.updSched g (fun sc => { sc with slice := y.sched.slice + 1, slices := sc.slices.set y.sched.slice [] }) = s1 at hg2
  have hc1 : s1.cairn = cairnMax s.cairn (roundUp at_ 4) := by
    rw [← hs1]
    exact (State.updGraph_cairn ..).trans hk.1
  generalize hmine : sortBy (y.sched.slices.getD y.sched.slice []) (fun a b =>
    precLe (a.idx, (s.advanceTo at_).stream a.idx) (b.idx, (s.advanceTo at_).stream b.idx)) = mine
  have hq : State.Admits Graph.fixed g v s1 (mine.foldl (State.admitPlanned g y.sched.slice v) (s1, r.2)) :=
    List.foldlRecOn (motive := State.Admits Graph.fixed g v s1) _ _ ⟨.refl _, hrows⟩ fun r hr e _ =>
      State.admitPlanned_admits Graph.fixed_planFree hr y.sched.slice e
  generalize hqq : mine.foldl (State.admitPlanned g y.sched.slice v) (s1, r.2) = q at hq
  obtain ⟨hkq, hsum⟩ := hq
  obtain ⟨y2, hy2, hf2⟩ := hkq.some hg2
  simp only [Graph.fixed, Prod.mk.injEq] at hf1 hf2
  obtain ⟨-, ⟨-, hadm1, hbat1, -, -⟩, -, -⟩ := hf1
  obtain ⟨-, ⟨hsl, hadm2, hbat2, -, -⟩, -, -⟩ := hf2
  generalize hso : q.1.sortRows q.2 = rows
  have hcount : sumNat (rows.map (·.count)) ≤ v.admitTokens := by
    rw [← hso, State.sortRows_count]
    exact hsum
  have hx : exec (.sliceBoundary g) s = .next (if rows.isEmpty then q.1 else
      (q.1.issueBatch g 1 y.sched.admissionSeq (chunkUnits v (sumNat (rows.map (·.count)))) rows).updSched g fun sc =>
        { sc with admissionSeq := sc.admissionSeq + 1 }) := by
    show execSliceBoundary g s = _
    rw [execSliceBoundary, State.onLive_next]
    refine ⟨by simpa using hg, ?_⟩
    rw [if_pos hs, hy]
    dsimp only
    rw [hv]
    dsimp only
    rw [if_neg (by simp [ha, hst]), hat, hr, hmine, hs1, hqq, hso]
  by_cases he : rows.isEmpty = true
  · rw [if_pos he] at hx
    refine ⟨_, y2.sched, hx, by rw [hy2]; rfl, hsl, hkq.1.trans hc1, .inl (hbat2.trans hbat1)⟩
  · rw [if_neg he] at hx
    obtain ⟨z, b, wz, iu, it, hz, hcz, hkd, hsq, hrw, -, hwz, -, -, hsch⟩ := State.issueBatch_spec hy2 1 y.sched.admissionSeq
      (chunkUnits v (sumNat (rows.map (·.count)))) rows
    rw [hz] at hx
    refine ⟨_, { wz.sched with admissionSeq := wz.sched.admissionSeq + 1 }, hx, by rw [State.updSched_some hwz]; rfl, ?_, ?_,
      .inr ⟨b, ?_, hkd, hsq, ?_, ?_⟩⟩
    · show wz.sched.slice = _
      rw [hsch]
      exact hsl
    · exact (State.updGraph_cairn ..).trans (hcz.trans (hkq.1.trans hc1))
    · show wz.sched.batches = _
      rw [hsch]
      show y2.sched.batches ++ [b] = _
      rw [hbat2.trans hbat1]
    · rw [hrw]
      exact hcount
    · show wz.sched.admissionSeq + 1 = _
      rw [hsch]
      show y2.sched.admissionSeq + 1 = _
      rw [hadm2.trans hadm1]

/-! ### Delivery -/

theorem Tile.deliver_emitted (x : Tile) (q tag value : Nat) (data : List Byte) : (x.deliver q tag value data).run.emitted = x.run.emitted ++
    [(q, ⟨.pennant value, tag, false⟩), (q + 1, ⟨.data ((x.qcfg (q + 1)).entry (x.queue (q + 1)).sent) (bytesToWords data).length, tag, false⟩)] :=
  rfl

theorem Tile.deliver_tarn (x : Tile) (q tag value : Nat) (data : List Byte) : (x.deliver q tag value data).tarn =
    (x.writeBeside ((x.qcfg (q + 1)).entry (x.queue (q + 1)).sent) (bytesToWords data) false).tarn := rfl

/-- A batch delivered to an entry that is ready, where no change is under way (R203). -/
theorem State.deliverTo_ready {b : Batch} {e : Nat × Nat} (hy : s.graph? g = some y) (hc : y.change = none)
    (hi : i = y.place.getD e.1 320) (hr : s.entryReady i e.2 b.generation = true) (hw : s.withShadows i = [i]) :
    ∃ z, s.deliverTo g b none e = z ∧
      z.tile i = (s.tile i).deliver e.2 (b.seq % 2 ^ 16) b.pennant (batchBytes g (s.hbmAddr s.regs.streamTable) b) ∧
      (∀ u, u ≠ i → z.tile u = s.tile u) ∧ z = { s with tiles := z.tiles, graphs := z.graphs } := by
  have hent : y.entryTile b.generation e.1 = i := by rw [Graph.entryTile, hc, hi]
  have hgt : ∀ F, (s.updTile i F).graph? g = some y := fun F => hy
  obtain ⟨G, hx⟩ : ∃ G, s.deliverTo g b none e = (s.updTile i fun x =>
      x.deliver e.2 (b.seq % 2 ^ 16) b.pennant (batchBytes g (s.hbmAddr s.regs.streamTable) b)).updSched g G := by
    rw [State.deliverTo, hy]
    dsimp only
    rw [hent, hr, if_neg (by decide), hw, Option.filter_none, Option.isSome_none, List.foldl_cons, List.foldl_nil,
      State.parityOf, Option.elim_none, State.updSched_some (hgt _)]
    dsimp only
    rw [hc]
    exact ⟨_, rfl⟩
  refine ⟨_, hx, ?_, fun u hu => ?_, ?_⟩
  · rw [State.tile, State.updSched, State.updGraph_tiles, ← State.tile, State.updTile_tile, if_pos rfl]
  · rw [State.tile, State.updSched, State.updGraph_tiles, ← State.tile, State.updTile_tile, if_neg hu]
  · rw [State.updSched, State.updGraph, hgt]
    rfl

theorem State.batchDelivery_row {b : Batch} {e : Nat × Nat} (hs : s.inService = true) (hg : g < 8) (hy : s.graph? g = some y)
    (hsu : y.suspended = false) (hst : y.stopped = false) (ha : y.abandon = none) (hc : y.change = none) (hk : b.kind < 2)
    (hb : (y.sched.batches.find? fun c => c.kind == b.kind && c.seq == b.seq) = some b) (hd : b.done = false) (hto : b.toDeliver = [e])
    (hi : i = y.place.getD e.1 320) (hr : s.entryReady i e.2 b.generation = true) (hw : s.withShadows i = [i]) :
    ∃ z a n, exec (.batchDelivery g b.kind b.seq) s = .next z ∧ a = ((s.tile i).qcfg (e.2 + 1)).entry ((s.tile i).queue (e.2 + 1)).sent ∧
      n = (bytesToWords (batchBytes g (s.hbmAddr s.regs.streamTable) b)).length ∧
      (z.tile i).run.emitted = (s.tile i).run.emitted ++
        [(e.2, ⟨.pennant b.pennant, b.seq % 2 ^ 16, false⟩), (e.2 + 1, ⟨.data a n, b.seq % 2 ^ 16, false⟩)] ∧
      (∀ j w, (bytesToWords (batchBytes g (s.hbmAddr s.regs.streamTable) b))[j]? = some w →
        Tab.get .zero (z.tile i).tarn (a + j) = ⟨w, 0, false⟩) ∧ (∀ u, u ≠ i → z.tile u = s.tile u) ∧
      z = { s with tiles := z.tiles, graphs := z.graphs } := by
  obtain ⟨z, hz, hzi, hzo, hzf⟩ := State.deliverTo_ready hy hc hi hr hw
  refine ⟨z, _, _, ?_, rfl, rfl, ?_, fun j w hj => ?_, hzo, hzf⟩
  · show execBatchDelivery g b.kind b.seq s = _
    rw [execBatchDelivery, State.onLive_next]
    refine ⟨by simp [hg, hk], ?_⟩
    rw [if_pos hs, hy]
    dsimp only
    rw [hb]
    dsimp only
    rw [if_neg (by simp [hsu, hst, ha, hd]), hto, List.foldl_cons, List.foldl_nil, hz]
  · rw [hzi, Tile.deliver_emitted]
  · rw [hzi, Tile.deliver_tarn]
    exact Tile.writeBeside_tarn _ _ _ _ hj

theorem State.powerForecast_row {v : Serving} (hs : s.inService = true) (hg : g < 8) (hy : s.graph? g = some y) (hv : y.serving = some v) :
    exec (.powerForecast g) s = .next { s with power := { s.power with
      forecast := s.power.forecast.filter (·.1 != g) ++ [(g, y.sched.nextUnits v)] } } := by
  show execPowerForecast g s = _
  rw [execPowerForecast, State.onLive_next]
  refine ⟨by simpa using hg, ?_⟩
  rw [if_pos hs, hy]
  dsimp only
  rw [hv]

/-! ### Harvest -/

/-- No graph is suspended. -/
def State.Running (s : State) : Prop := ∀ h w, s.graph? h = some w → w.suspended = false

theorem State.Steady.running (h : s.Steady t) (hs : s.Running) : t.Running := fun k w hw => hs k w ((h.graph k).symm.trans hw)

theorem State.updGraph_running {F : Graph → Graph} (hs : s.Running) (hF : ∀ y, (F y).suspended = y.suspended) : (s.updGraph g F).Running := by
  intro k w hw
  rw [State.updGraph_graph] at hw
  split at hw
  · cases hy : s.graph? g with
    | none =>
      rw [hy] at hw
      exact absurd hw (by simp)
    | some y =>
      rw [hy] at hw
      obtain rfl := Option.some.inj hw
      exact (hF y).trans (hs g y hy)
  · exact hs k w hw

/-- What letting a graph's shadows go leaves alone, beside what `f` tells of the graph. -/
def State.Shed (f : Graph → β) (g : Nat) (s t : State) : Prop :=
  State.KeepsOf f g s t ∧ t.Running ∧ t.tracker = s.tracker ∧ t.host = s.host

theorem State.Shed.trans (h : State.Shed f g s t) (h' : State.Shed f g t u) : State.Shed f g s u := by
  obtain ⟨hk, -, ht, hh⟩ := h
  obtain ⟨hk', hr, ht', hh'⟩ := h'
  exact ⟨hk.trans hk', hr, ht'.trans ht, hh'.trans hh⟩

theorem State.updGraph_shed {F : Graph → Graph} (hs : s.Running) (hF : ∀ y, (F y).suspended = y.suspended) (hf : ∀ y, f (F y) = f y) :
    State.Shed f g s (s.updGraph g F) :=
  ⟨State.updGraph_keepsOf hf, State.updGraph_running hs hF, State.updGraph_tracker .., by
    rw [State.updGraph]
    split <;> rfl⟩

theorem State.dropShadow_shed (hf : Graph.ShadowFree f) (hs : s.Running) (e : Nat × Nat) : State.Shed f g s (s.dropShadow g e) := by
  have ho := State.freeTileNow_onlyTiles (s := s) e.2
  have h1 : State.Shed f g s (s.freeTileNow e.2) := ⟨ho.steady.keepsOf, ho.steady.running hs, by rw [ho.frame], by rw [ho.frame]⟩
  obtain ⟨-, hr, -, -⟩ := id h1
  exact h1.trans (State.updGraph_shed hr (fun _ => rfl) fun y => hf y _ _)

theorem State.dropShadows_shed (hf : Graph.ShadowFree f) (hs : s.Running) : State.Shed f g s (s.dropShadows g) := by
  unfold State.dropShadows
  split
  · exact ⟨.refl s, hs, rfl, rfl⟩
  · next y _ =>
    have h1 : State.Shed f g s (y.verify.shadows.foldl (State.dropShadow g) s) :=
      List.foldlRecOn (motive := State.Shed f g s) _ _ ⟨.refl s, hs, rfl, rfl⟩ fun v hv e _ => by
        obtain ⟨-, hr, -, -⟩ := id hv
        exact hv.trans (State.dropShadow_shed hf hr e)
    obtain ⟨-, hr, -, -⟩ := id h1
    exact h1.trans (State.updGraph_shed hr (fun _ => rfl) fun y => hf y y.spills _)

/-- A batch that leaves once its rows have been harvested, where no stream of it ends with it (R196, R367). -/
theorem State.harvestBatch_spec {b : Batch} {w : State} (hw : s.draw.harvestRows g b = w) (hst : s.Steady w) (hy : s.graph? g = some y)
    (hend : ∀ r ∈ b.rows, ∀ v : State, v.tracker = w.tracker → v.endCancelled r.idx = v) (hrun : s.Running) :
    ∃ z, s.harvestBatch g b = z ∧ z.tracker = w.tracker ∧ z.host = w.host ∧
      (z.graph? g).map (·.sched.batches) = some (y.sched.batches.filter fun c => !(c.seq == b.seq && c.kind == b.kind)) := by
  have hwy := State.updSched_some ((hst.graph g).trans hy) (Sched.dropBatch s.cairn b)
  have hrv : (w.updSched g (Sched.dropBatch s.cairn b)).Running := State.updGraph_running (hst.running hrun) fun _ => rfl
  have htr : (w.updSched g (Sched.dropBatch s.cairn b)).tracker = w.tracker := State.updGraph_tracker ..
  have hho : (w.updSched g (Sched.dropBatch s.cairn b)).host = w.host := by
    rw [State.updSched, State.updGraph]
    split <;> rfl
  generalize hv : w.updSched g (Sched.dropBatch s.cairn b) = v at hwy hrv htr hho
  have hfold : b.rows.foldl (fun s r => if s.rowLives r && !s.inFlightStream r.idx then s.endCancelled r.idx else s) v = v :=
    List.foldlRecOn (motive := fun t : State => t = v) _ _ rfl fun t ht r hr => by
      subst ht
      split
      · exact hend r hr t htr
      · rfl
  have hbat : (v.graph? g).map (·.sched.batches) = some (y.sched.batches.filter fun c => !(c.seq == b.seq && c.kind == b.kind)) := by
    rw [hwy]
    rfl
  rw [State.harvestBatch, hw, hv, hfold, hwy]
  dsimp only
  split
  · have hshed := State.dropShadows_shed (f := fun y => y.sched.batches) (g := g) (fun _ _ _ => rfl) hrv
    obtain ⟨-, hr', -, -⟩ := id hshed
    obtain ⟨hk, hr, ht, hh⟩ := hshed.trans (State.updGraph_shed (F := fun y => { y with verify := .reset }) hr' (fun _ => rfl) fun _ => rfl)
    rw [State.retryAll_unsuspended fun k _ z hz => hr k z hz]
    exact ⟨_, rfl, ht.trans htr, hh.trans hho, hk.2.trans hbat⟩
  · exact ⟨v, rfl, htr, hho, hbat⟩

theorem State.renewStaged_frame (a : Nat) : ∃ ts, s.renewStaged a = { s with tiles := ts } := by
  unfold State.renewStaged
  split
  · split
    · exact ⟨_, rfl⟩
    · exact ⟨_, rfl⟩
  · exact ⟨_, rfl⟩

/-- Reads and records put leave the harvest rings, and whether DMA runs, alone. -/
def State.RingsStand (s t : State) : Prop := (∀ n, t.hv n = s.hv n) ∧ t.dma = s.dma

theorem State.RingsStand.trans (h : s.RingsStand t) (h' : t.RingsStand u) : s.RingsStand u :=
  ⟨fun n => (h'.1 n).trans (h.1 n), h'.2.trans h.2⟩

theorem State.Aside.ringsStand (h : s.Aside t) : s.RingsStand t := by
  obtain ⟨_, _, _, _, _, _, _, _, _, _, _, _, _, _, rfl⟩ := h
  exact ⟨fun _ => rfl, rfl⟩

theorem State.readNoting_stands (a n : Nat) : s.Steady (s.readNoting a n).2 ∧ (s.readNoting a n).2.tracker = s.tracker ∧
    s.RingsStand (s.readNoting a n).2 := by
  obtain ⟨_, _, _, _, _, _, _, _, hn⟩ := (State.Noticed.refl s).noteRun (n := n / 64 + 2) (a := a) (k := n)
  obtain ⟨_, hr⟩ := State.renewStaged_frame (s := State.noteRun (n / 64 + 2) a n s) a
  rw [State.readNoting, hr, hn]
  exact ⟨⟨rfl, rfl⟩, rfl, fun _ => rfl, rfl⟩

theorem State.harvestRows_none {b : Batch} (hb : b.rows = []) : s.harvestRows g b = (s.readNoting b.resultAddr 0).2 := by
  rw [State.harvestRows, hb]
  rfl

/-- The only row of a batch of one, a decode row whose token is good (R206, R211). -/
theorem State.harvestRows_single {b : Batch} {r : Row} {tok : Nat} (hb : b.rows = [r]) (hk : r.kind = 0) (hl : s.rowLives r = true)
    (ho : s.overdue r.idx = false) (hres : s.resultOf b 0 r = (tok, true)) :
    s.harvestRows g b = State.afterToken g ((s.readNoting b.resultAddr 8).2.harvestRing g
      ((s.readNoting b.resultAddr 8).2.stream r.idx).hring [(r, tok)]) (r, tok) := by
  have hp : r.produces = true := by simp [Row.produces, hk]
  rw [State.harvestRows, hb, List.foldl_cons, List.foldl_nil, ho, if_neg (by decide)]
  dsimp only
  simp only [List.zipIdx_cons, List.zipIdx_nil, List.filter_cons, List.filter_nil, hp, hl, hres, Bool.not_true, Bool.and_false, Bool.and_true,
    if_true, List.map_cons, List.map_nil, List.foldl_cons, List.foldl_nil, List.length_cons, List.length_nil,
    Bool.false_eq_true, if_false]
  rw [show 8 * (0 + 1) = 8 from rfl, List.dedup_eq_self.2 (List.nodup_singleton _), sortBy, List.insertionSort_cons, List.insertionSort_nil,
    List.orderedInsert_nil, List.foldl_cons, List.foldl_nil, if_pos (beq_self_eq_true _)]

/-! ### Token records -/

theorem State.signal_frame (v : Nat) : ∃ m p, s.signal v = { s with host := { s.host with messages := m, pendingVec := p } } := by
  unfold State.signal
  split
  · exact ⟨_, _, rfl⟩
  · split
    · exact ⟨_, _, rfl⟩
    · split <;> exact ⟨_, _, rfl⟩

theorem State.endCancelled_stays {v : State} (hk : (v.stream i).kvLost = false) (hc : (v.stream i).cancelReq = false) :
    v.endCancelled i = v := by
  rw [State.endCancelled, hk, hc, if_neg (by decide), if_neg (by decide)]

theorem State.hv_updHv (n : Nat) (F : Ring → Ring) : (s.updHv n F).hv n = F (s.hv n) :=
  Tab.get_upd_same (d := Ring.reset) (k := n) (m := s.host.hv) (f := F)

/-- The third and fourth step of a journal of one entry (R213). -/
theorem State.journalWritten {ring k : Nat} {en : JournalEntry} {h : Ring} (hh : s.hv ring = h) (hd : s.dma = true) :
    ∃ ho js, State.journalTail ⟨ring, h.count, [en]⟩ ((s.updHv ring fun h => { h with reserved := h.reserved - k }).journalTokens
        ⟨ring, h.count, [en]⟩) = { s with host := ho, tracker := { s.tracker with journals := js } } ∧
      (Tab.get .reset ho.hv ring).count = (h.count + 1) % 2 ^ 32 ∧
      Tab.getAll 0 ho.mem (h.base + 8 * (h.count % h.size)) 8 = toLe 8 en.record.toNat := by
  have hring := State.hv_updHv (s := s) ring fun h => { h with reserved := h.reserved - k }
  have hdma : (s.updHv ring fun h => { h with reserved := h.reserved - k }).dma = true := hd
  rw [hh] at hring
  generalize hv : (s.updHv ring fun h => { h with reserved := h.reserved - k }) = v at hring hdma
  have htok : v.journalTokens ⟨ring, h.count, [en]⟩ = v.hostWrite (h.base + 8 * (h.count % h.size)) (toLe 8 en.record.toNat) := by
    rw [State.journalTokens, hring]
    rfl
  rw [htok, State.hostWrite, if_pos hdma, State.journalTail, ← hv]
  have hput := Tab.getAll_putAll (d := 0) (m := s.host.mem) (k := h.base + 8 * (h.count % h.size)) (vs := toLe 8 en.record.toNat)
  rw [toLe_length] at hput
  refine ⟨_, _, rfl, ?_, hput⟩
  exact congrArg Ring.count (Tab.get_upd_same (d := Ring.reset) (k := ring) (m := _)
    (f := fun x => { x with count := (h.count + 1) % 2 ^ 32, saved := (h.count + 1) % 2 ^ 32 }))

/-- One row's token put into its harvest ring, with no journal before it (R211, R213). -/
theorem State.harvestRing_single {r : Row} {x : Stream} {tok ring : Nat} {h : Ring} (hx : x = s.stream r.idx) (hh : h = s.hv ring)
    (hy : s.graph? g = some y) (hk : r.kind = 0) (hd : s.dma = true) (hj : ∀ j ∈ s.tracker.journals, j.ring ≠ ring)
    (he : x.endsWith tok (r.position + r.count) = none) :
    ∃ z w dl, s.harvestRing g ring [(r, tok)] = z ∧ s.Steady z ∧ (∀ j, z.stream j = if j = r.idx then x.harvested r tok h.count w dl
      else s.stream j) ∧ (z.hv ring).count = (h.count + 1) % 2 ^ 32 ∧
      Tab.getAll 0 z.host.mem (h.base + 8 * (h.count % h.size)) 8 =
        toLe 8 (tokenRecord x tok (1 - h.count / h.size % 2) false false).toNat := by
  have hnext : s.nextHarvest ring = h.count := by
    rw [State.nextHarvest, List.find?_eq_none.2 fun j hj' => by simpa using hj j (List.mem_reverse.1 hj'), hh]
  obtain ⟨en, hen, hrec, hidx, hseq⟩ : ∃ en, s.journalEntries y.sched ring h.count [(r, tok)] = [en] ∧
      en.record = tokenRecord x tok (1 - h.count / h.size % 2) false false ∧ en.idx = r.idx ∧ en.seq = h.count := by
    rw [State.journalEntries, State.journalEntries, ← hx, ← hh, he, hk]
    exact ⟨_, rfl, rfl, rfl, rfl⟩
  have hput := State.putStream_aside (s := { s with tracker := { s.tracker with journals := s.tracker.journals ++ [⟨ring, h.count, [en]⟩] } })
    r.idx (x.harvested r tok h.count en.wait en.deadline)
  have hst := State.putStream_stream (s := { s with tracker := { s.tracker with journals := s.tracker.journals ++ [⟨ring, h.count, [en]⟩] } })
    r.idx (x.harvested r tok h.count en.wait en.deadline)
  have hmod : State.modStream en.idx (fun x => x.harvested r tok en.seq en.wait en.deadline)
      { s with tracker := { s.tracker with journals := s.tracker.journals ++ [⟨ring, h.count, [en]⟩] } } =
      State.putStream r.idx (x.harvested r tok h.count en.wait en.deadline)
        { s with tracker := { s.tracker with journals := s.tracker.journals ++ [⟨ring, h.count, [en]⟩] } } := by
    rw [State.modStream, hidx, hseq, hx]
    rfl
  rw [State.harvestRing, hy]
  dsimp only
  rw [hnext, hen, List.zip_cons_cons, List.zip_nil_right, List.foldl_cons, List.foldl_nil, if_neg (by simp [hd])]
  dsimp only
  rw [hmod]
  generalize State.putStream r.idx _ _ = v at hput hst
  obtain ⟨hvr, hvd⟩ := hput.ringsStand
  obtain ⟨ho, js, hw, hcnt, hmem⟩ := State.journalWritten (s := v) (ring := ring) (k := [(r, tok)].length) (en := en) (h := h)
    (by rw [hvr, hh]; rfl) (hvd.trans hd)
  rw [hw]
  have hsv : s.Steady v := hput.steady
  split
  · obtain ⟨m, p, hs⟩ := State.signal_frame (s := { v with host := ho, tracker := { v.tracker with journals := js } })
      (State.hv { v with host := ho, tracker := { v.tracker with journals := js } } ring).vector
    rw [hs]
    exact ⟨_, _, _, rfl, hsv, hst, hcnt, by rw [← hrec]; exact hmem⟩
  · exact ⟨_, _, _, rfl, hsv, hst, hcnt, by rw [← hrec]; exact hmem⟩

theorem Stream.endsWith_none {x : Stream} {tok pos : Nat} (h : x.endsWith tok pos = none) : x.cancelReq = false := by
  unfold Stream.endsWith at h
  split at h
  · exact absurd h (by simp)
  · split at h
    · exact absurd h (by simp)
    · split at h
      · exact absurd h (by simp)
      · next hc => simpa using hc

section HarvestRows

variable {b : Batch} (hs : s.inService = true) (hg : g < 8) (hy : s.graph? g = some y) (hk : b.kind < 2)
  (hb : (y.sched.batches.find? fun c => c.kind == b.kind && c.seq == b.seq) = some b) (hd : b.done = true) (hsu : y.suspended = false)
  (hst : y.stopped = false) (ha : y.abandon = none)

include hs hg hy hk hb hd hsu hst ha

theorem State.harvest_exec (h : b.rows = [] ∨ s.verified y b = true ∧ y.unchecked b = []) :
    exec (.harvest g b.kind b.seq) s = .next (s.harvestBatch g b) := by
  show execHarvest g b.kind b.seq s = _
  rw [execHarvest, State.onLive_next]
  refine ⟨by simp [hg, hk], ?_⟩
  rw [if_pos hs, hy]
  dsimp only
  rw [hb]
  dsimp only
  rw [if_neg (by simp [hd, hsu, hst, ha])]
  rcases h with h | ⟨hv, hu⟩
  · rw [if_pos (by simp [h])]
  · rw [hv, hu, if_neg (show ¬(!true) = true by decide), if_neg (show ¬(!([] : List Nat).isEmpty) = true by decide), ite_self]

/-- The harvest of a batch without rows (R196). -/
theorem State.harvest_none (hr : b.rows = []) (hrun : s.Running) : ∃ z, exec (.harvest g b.kind b.seq) s = .next z ∧
    (z.graph? g).map (·.sched.batches) = some (y.sched.batches.filter fun c => !(c.seq == b.seq && c.kind == b.kind)) := by
  obtain ⟨z, hz, -, -, hbat⟩ := State.harvestBatch_spec (s := s) (State.harvestRows_none (s := s.draw) hr)
    (State.Steady.trans (t := s.draw) ⟨rfl, rfl⟩ (State.readNoting_stands ..).1) hy (fun r h => by rw [hr] at h; exact absurd h (by simp)) hrun
  exact ⟨z, (State.harvest_exec hs hg hy hk hb hd hsu hst ha (.inl hr)).trans (by rw [hz]), hbat⟩

/-- The harvest of a batch of one good decode row (R206, R211, R213). -/
theorem State.harvest_single {r : Row} {x : Stream} {tok : Nat} (hrun : s.Running) (hr : b.rows = [r]) (hkind : r.kind = 0)
    (hx : x = s.stream r.idx) (hl : s.rowLives r = true) (ho : s.overdue r.idx = false) (hv : s.verified y b = true)
    (hu : y.unchecked b = []) (hres : s.draw.resultOf b 0 r = (tok, true)) (hdma : s.dma = true)
    (hj : ∀ j ∈ s.tracker.journals, j.ring ≠ x.hring) (he : x.endsWith tok (r.position + r.count) = none) (hkv : x.kvLost = false) :
    ∃ z, exec (.harvest g b.kind b.seq) s = .next z ∧ (z.stream r.idx).position = r.position + r.count ∧
      (z.stream r.idx).lastToken = tok ∧ (z.stream r.idx).hvSeq = (s.hv x.hring).count ∧
      (z.hv x.hring).count = ((s.hv x.hring).count + 1) % 2 ^ 32 ∧
      Tab.getAll 0 z.host.mem ((s.hv x.hring).base + 8 * ((s.hv x.hring).count % (s.hv x.hring).size)) 8 =
        toLe 8 (tokenRecord x tok (1 - (s.hv x.hring).count / (s.hv x.hring).size % 2) false false).toNat ∧
      (z.graph? g).map (·.sched.batches) = some (y.sched.batches.filter fun c => !(c.seq == b.seq && c.kind == b.kind)) ∧
      ∀ j, j ≠ r.idx → z.stream j = s.stream j := by
  have hrows := State.harvestRows_single (s := s.draw) (g := g) hr hkind hl ho hres
  obtain ⟨hn, hntr, hnh, hnd⟩ := State.readNoting_stands (s := s.draw) b.resultAddr 8
  have hst' : s.Steady (s.draw.readNoting b.resultAddr 8).2 := State.Steady.trans (t := s.draw) ⟨rfl, rfl⟩ hn
  generalize (s.draw.readNoting b.resultAddr 8).2 = v at hrows hntr hnh hnd hst'
  have hvs : ∀ j, v.stream j = s.stream j := fun j => by
    rw [State.stream, hntr]
    rfl
  obtain ⟨w, now, dl, hw, hsw, hws, hcnt, hmem⟩ := State.harvestRing_single (s := v) (h := s.hv x.hring) (x := x) (tok := tok) (r := r)
    (ring := x.hring) (hx.trans (hvs _).symm) (hnh _).symm ((hst'.graph g).trans hy) hkind (hnd.trans hdma) (by rw [hntr]; exact hj) he
  have hwi : w.stream r.idx = x.harvested r tok (s.hv x.hring).count now dl := (hws _).trans (if_pos rfl)
  have hafter : w.afterToken g (r, tok) = w := by
    have hends : (x.harvested r tok (s.hv x.hring).count now dl).endsWith tok (r.position + r.count) = none := he
    rw [State.afterToken, hwi]
    dsimp only
    rw [if_neg (by rw [hkind]; decide)]
    show (match (x.harvested r tok (s.hv x.hring).count now dl).endsWith tok (r.position + r.count) with | some _ => _ | none => _) = _
    rw [hends]
  rw [hvs, ← hx, hw, hafter] at hrows
  obtain ⟨z, hz, hztr, hzh, hbat⟩ := State.harvestBatch_spec hrows (hst'.trans hsw) hy (fun r' hr' u hu => by
    rw [hr] at hr'
    obtain rfl := List.mem_singleton.1 hr'
    have hui : u.stream r'.idx = x.harvested r' tok (s.hv x.hring).count now dl := by
      rw [State.stream, hu]
      exact hwi
    exact State.endCancelled_stays (by rw [hui]; exact hkv) (by rw [hui]; exact Stream.endsWith_none he)) hrun
  have hzs : ∀ j, z.stream j = w.stream j := fun j => by rw [State.stream, hztr, ← State.stream]
  have hzi := (hzs r.idx).trans hwi
  refine ⟨z, (State.harvest_exec hs hg hy hk hb hd hsu hst ha (.inr ⟨hv, hu⟩)).trans (by rw [hz]), by rw [hzi]; rfl, by rw [hzi]; rfl,
    by rw [hzi]; rfl, ?_, ?_, hbat, fun j hj => ?_⟩
  · rw [State.hv, hzh]
    exact hcnt
  · rw [hzh]
    exact hmem
  · rw [hzs, hws, if_neg hj, hvs]

end HarvestRows

/-- Settles O52: a selection adds decode rows and chunks only within the limits of its period, and neither pages taken nor records put
change the plan; the issue of a period and a slice boundary keep what else the scheduler holds and append one batch, to which the
verification rounds add nothing; and of a harvest the token record is written after every report of the reads before it. -/
theorem periodRows : Obligations.PeriodRows := by
  unfold Obligations.PeriodRows
  intro s g y hs hg hy
  refine ⟨fun v ha hp hv => State.periodSelection_row hs hg hy ha hp hv, fun v w p ha hp hv hw hb he hc => ?_,
    fun v ha hst hv => State.sliceBoundary_row hs hg hy ha hst hv, ?_, fun v hv => State.powerForecast_row hs hg hy hv, ?_⟩
  · obtain ⟨z, c, b, hz, h⟩ := State.startPeriod_spec (v := v) (p := p) hy hw hb hc
    exact ⟨z, c, b, (State.periodBatchIssue_exec hs hg hy ha hp hv hb he).trans (by rw [hz]), h⟩
  · exact fun v b e t hv hsu hst ha hc hk hb hd hto ht hr hw => State.batchDelivery_row hs hg hy hsu hst ha hc hk hb hd hto ht hr hw
  · exact fun b hk hb hd hsu hst ha hrun => ⟨fun hr => State.harvest_none hs hg hy hk hb hd hsu hst ha hr hrun,
      fun r x tok hr hkind hx hl ho hv hu hres hdma hj he hkv =>
        State.harvest_single hs hg hy hk hb hd hsu hst ha hrun hr hkind hx hl ho hv hu hres hdma hj he hkv⟩

end Sys2Proof.Machine
end

section
/-! PROOF. Requests and responses on the memory plane, multicast copies, and accesses to the CXL tier that draw no response (R47, R217,
R220 to R230, R252, R258 to R261, R364). -/

namespace Sys2Proof.Machine

variable {s v w z : State} {t id i u off : Nat} {f : Firing} {p q : Piece}

/-! ### Memory does not see the tiles and the planes -/

/-- The module with other tiles and planes: what memory reads and writes of HBM do not see. -/
def State.onPlane (s : State) (ts : Tab Tile) (pl : Planes) : State := { s with tiles := ts, planes := pl }

section apart
variable (s : State) (ts : Tab Tile) (pl : Planes)

theorem State.onPlane_store (sp off : Nat) (bs : List Byte) (p : Bool) :
    (s.onPlane ts pl).store sp off bs p = (s.store sp off bs p).onPlane ts pl := by
  have hw : (s.onPlane ts pl).writeBytes sp off bs = (s.writeBytes sp off bs).onPlane ts pl := by
    unfold State.writeBytes State.setSpace
    split <;> rfl
  unfold State.store
  rw [hw]
  generalize s.writeBytes sp off bs = v
  have hp (v : State) (l : Nat) (on : Bool) : (v.onPlane ts pl).setPoison sp l on = (v.setPoison sp l on).onPlane ts pl := by
    unfold State.setPoison State.setSpace
    dsimp only
    split <;> rfl
  unfold State.markLines
  extract_lets l whole v1 v2
  have hv : v1 = v2.onPlane ts pl := by
    show (if (decide (sp = 0) && v.wrongAt l != 0 && (whole || p || v.wrongAt l == 1)) = true then _ else _) = _
    show _ = State.onPlane (if (decide (sp = 0) && v.wrongAt l != 0 && (whole || p || v.wrongAt l == 1)) = true then _ else _) ts pl
    split <;> rfl
  rw [hv]
  split
  · exact hp v2 l true
  · show (if (whole && v2.poisoned sp off 64) = true then _ else _) = State.onPlane (if (whole && v2.poisoned sp off 64) = true then _ else _) ts pl
    split
    · exact hp v2 l false
    · rfl

theorem State.onPlane_writeCxl (off : Nat) (bs : List Byte) (p : Bool) :
    (s.onPlane ts pl).writeCxl off bs p = ((s.writeCxl off bs p).1.onPlane ts pl, (s.writeCxl off bs p).2) := by
  unfold State.writeCxl
  show (if s.cxlServed off = true then _ else _) = (State.onPlane (if s.cxlServed off = true then _ else _ : State × Nat).1 ts pl, _)
  split
  · rw [State.onPlane_store]
  · rfl

end apart

theorem State.inHbm_locate {a : Nat} (h : s.inHbm a) : s.locate a = if a % 2 ^ 44 < hbmBytes then .hbm (a % 2 ^ 44) else .fault := by
  obtain ⟨hid, hsp⟩ := h
  rw [State.locate, if_neg (not_not_intro hid)]
  exact if_pos hsp

theorem State.onPlane_writeUnit {a : Nat} (h : s.inHbm a) (ts : Tab Tile) (pl : Planes) (bs : List Byte) (b : Bool) :
    (s.onPlane ts pl).writeUnit a bs b = ((s.writeUnit a bs b).1.onPlane ts pl, (s.writeUnit a bs b).2) := by
  have hl := State.inHbm_locate h
  have hl' : (s.onPlane ts pl).locate a = _ := hl
  unfold State.writeUnit
  rw [hl, hl']
  by_cases hlt : a % 2 ^ 44 < hbmBytes
  · rw [if_pos hlt]
    dsimp only
    have hh : (s.onPlane ts pl).home (a % 2 ^ 44) = s.home (a % 2 ^ 44) := rfl
    rw [hh]
    generalize s.home (a % 2 ^ 44) = k
    cases k with
    | here => exact congrArg (·, stOk) (State.onPlane_store ..)
    | slot c => exact State.onPlane_writeCxl ..
    | lost => rfl
  · rw [if_neg hlt]

theorem State.onPlane_writeRun {n a : Nat} {bs : List Byte} (h : s.inHbm a) (ts : Tab Tile) (pl : Planes) (b : Bool) :
    State.writeRun n a bs b (s.onPlane ts pl) = ((State.writeRun n a bs b s).1.onPlane ts pl, (State.writeRun n a bs b s).2) := by
  induction n generalizing a bs s with
  | zero => rfl
  | succ n ih =>
    by_cases hb : bs = []
    · subst hb; rfl
    have hw := State.onPlane_writeUnit h ts pl (bs.take (min bs.length (64 - a % 64))) b
    obtain ⟨hf, -, hlt⟩ := State.writeUnit_hbm (bs := bs.take (min bs.length (64 - a % 64))) (p := b) h
    obtain ⟨r, hr⟩ : ∃ r, s.writeUnit a (bs.take (min bs.length (64 - a % 64))) b = r := ⟨_, rfl⟩
    rw [hr] at hw hf hlt
    by_cases hok : r.2 = stOk
    · have hn := State.inHbm_next (n := bs.length) h (hlt hok)
      rw [State.writeRun_step hb (hw.trans (by rw [hok])), State.writeRun_step hb (hr.trans (Prod.ext rfl hok))]
      exact ih ⟨hn.1.trans (congrArg Fabric.id hf).symm, hn.2⟩
    · have hstop (v : State) (r : State × Nat) (hr : v.writeUnit a (bs.take (min bs.length (64 - a % 64))) b = r) (hne : r.2 ≠ stOk) :
          State.writeRun (n + 1) a bs b v = r := by
        rw [State.writeRun, if_neg (by simpa using hb)]
        dsimp only
        rw [hr, if_pos hne]
      rw [hstop _ _ hw hok, hstop _ _ hr hok]

/-- A write to HBM is the same beside any tiles and planes. -/
theorem State.onPlane_write {a : Nat} {bs : List Byte} (h : s.inHbm a) (ts : Tab Tile) (pl : Planes) (b : Bool) :
    (s.onPlane ts pl).write a bs b = ((s.write a bs b).1.onPlane ts pl, (s.write a bs b).2) := State.onPlane_writeRun h ts pl b

theorem State.onPlane_readUnit {a : Nat} (h : s.inHbm a) (ts : Tab Tile) (pl : Planes) (n : Nat) :
    (s.onPlane ts pl).readUnit a n = s.readUnit a n := by
  have hl := State.inHbm_locate h
  have hl' : (s.onPlane ts pl).locate a = _ := hl
  unfold State.readUnit
  rw [hl, hl']
  by_cases hlt : a % 2 ^ 44 < hbmBytes
  · rw [if_pos hlt]
    rfl
  · rw [if_neg hlt]

theorem State.readUnit_within {a n : Nat} (h : s.inHbm a) (hok : (s.readUnit a n).status = stOk) : a % 2 ^ 44 < hbmBytes := by
  by_contra hlt
  unfold State.readUnit at hok
  rw [State.inHbm_locate h, if_neg hlt] at hok
  exact absurd (show stNotPermitted = stOk from hok) (by decide)

theorem State.onPlane_readRun {n a k : Nat} (h : s.inHbm a) (ts : Tab Tile) (pl : Planes) :
    (s.onPlane ts pl).readRun n a k = s.readRun n a k := by
  induction n generalizing a k with
  | zero => rfl
  | succ n ih =>
    unfold State.readRun
    dsimp only
    rw [State.onPlane_readUnit h]
    split
    · rfl
    split
    · rfl
    · next hok =>
      rw [ih (State.inHbm_next h (State.readUnit_within h (by simpa using hok)))]

/-- A read of HBM is the same beside any tiles and planes. -/
theorem State.onPlane_read {a : Nat} (h : s.inHbm a) (ts : Tab Tile) (pl : Planes) (n : Nat) :
    (s.onPlane ts pl).read a n = s.read a n := State.onPlane_readRun h ts pl

/-! ### Pieces put back -/

theorem State.piece?_map : (((s.tile t).flight id).map fun g => g.pieces[i]?) = some (some p) ↔ s.piece? t id i = some p := by
  unfold State.piece?
  cases (s.tile t).flight id <;> simp

theorem State.putPiece_frame (t id i : Nat) (p : Piece) : ∃ ts, s.putPiece t id i p = { s with tiles := ts } := ⟨_, rfl⟩

theorem State.putPiece_other {j : Nat} (h : j ≠ t) : (s.putPiece t id i p).tile j = s.tile j := by
  unfold State.putPiece
  rw [State.updTile_tile, if_neg h]

/-- A piece put back changes nothing of a tile but its firings. -/
theorem State.putPiece_tile (t id i : Nat) (p : Piece) (j : Nat) : ∃ r, (s.putPiece t id i p).tile j = { s.tile j with run := r } := by
  unfold State.putPiece
  rw [State.updTile_tile]
  split
  · next h =>
    rw [h]
    split
    · exact ⟨_, rfl⟩
    · exact ⟨_, rfl⟩
  · exact ⟨_, rfl⟩

theorem State.setPiece_eq {st : PieceState} (h : s.piece? t id i = some p) :
    s.setPiece t id i st = s.putPiece t id i { p with state := st } := by
  unfold State.setPiece
  rw [h]

/-! ### Requests -/

theorem State.piece?_tiles (h : v.tile t = s.tile t) : v.piece? t id i = s.piece? t id i := by
  unfold State.piece?
  rw [h]

/-- A request that is no multicast goes out, and is served beside other planes. -/
theorem State.sendPiece_single {held : List (Nat × Nat)} {back : List Nat} (hp : s.piece? t id i = some p) (hk : ∀ b, p.kind ≠ .cast b) :
    ∃ pl, Tab.get 0 pl.upNext (t / 16) = (u + 1) % 16 ∧ s.sendPiece t id i u none [] held back p =
      ((s.onPlane s.tiles pl).putPiece t id i p).servePiece t id i p := by
  unfold State.sendPiece
  extract_lets way hit sent s1 s2 q
  have hs2 : s2 = s.onPlane s.tiles s2.planes := rfl
  have hup : Tab.get 0 s2.planes.upNext (t / 16) = (u + 1) % 16 := Tab.get_put_same
  have hh : hit = none := rfl
  have hq : p = q := by
    show p = { p with poison := p.poison || false }
    rw [Bool.or_false]
  clear_value s2 q hit
  generalize s2.planes = pl at hs2 hup
  subst hs2 hh hq
  have hpp : (s.onPlane s.tiles pl).piece? t id i = some p := (State.piece?_tiles rfl).trans hp
  refine ⟨pl, hup, ?_⟩
  rw [hpp, if_neg (show ¬(some p).isNone = true by simp)]
  split
  · next b hb => exact absurd hb (hk b)
  · rfl

theorem State.mplaneRequest_exec {busy : List Nat} {held : List (Nat × Nat)} (hs : s.inService = true) (ht : t < 320)
    (hp : s.piece? t id i = some p) (hsh : s.isShadow t = false) (hu : s.upFor t p busy = some u) (hm : s.mayAsk t u p = true) :
    exec (.mplaneRequest t id i none [] busy held) s = .next (s.sendPiece t id i u none [] held [] p) := by
  show execMplaneRequest t id i none [] busy s held [] = _
  rw [execMplaneRequest, State.onLive_next]
  refine ⟨by simpa using ht, ?_⟩
  rw [if_pos hs, hp]
  dsimp only
  rw [hsh, hu]
  dsimp only
  rw [hm]
  rfl

/-! ### Requests served -/

theorem State.servePiece_read (hk : p.kind = .read) (hf : s.isFar p.addr = false) (hl : s.locate p.addr = .hbm off)
    (hp : s.piece? t id i = some p) : ∃ z, s.servePiece t id i p = z ∧ z.piece? t id i = some { p with
      state := .served (s.read p.addr p.bytes).bytes ((s.read p.addr p.bytes).poison || p.poison) (s.read p.addr p.bytes).status } ∧
    z.planes = s.planes ∧ (∀ j, j ≠ t → z.tile j = s.tile j) ∧ z.mem.hbm = s.mem.hbm ∧ z.mem.cxl = s.mem.cxl := by
  refine ⟨_, rfl, ?_⟩
  have hno : s.Noticed (State.noteRun (p.bytes / 64 + 2) p.addr p.bytes s) := (State.Noticed.refl s).noteRun
  unfold State.servePiece
  rw [if_neg (by rw [hk]; decide), if_neg (by rw [hf]; decide)]
  unfold State.readNoting
  dsimp only
  generalize State.noteRun (p.bytes / 64 + 2) p.addr p.bytes s = n at hno ⊢
  have hln : n.locate p.addr = .hbm off := by
    obtain ⟨_, _, _, _, _, _, _, _, rfl⟩ := hno
    exact hl
  have hr : n.renewStaged p.addr = n := by
    unfold State.renewStaged
    rw [hln]
  have ht (j : Nat) : n.tile j = s.tile j := by
    unfold State.tile
    rw [hno.tiles]
  have hpn : n.piece? t id i = some p := (State.piece?_tiles (ht t)).trans hp
  rw [hr, State.setPiece_eq hpn]
  refine ⟨State.piece?_putPiece hpn, ?_⟩
  obtain ⟨ts, h⟩ := State.putPiece_frame (s := n) t id i { p with
    state := .served (s.read p.addr p.bytes).bytes ((s.read p.addr p.bytes).poison || p.poison) (s.read p.addr p.bytes).status }
  refine ⟨?_, fun j hj => (State.putPiece_other hj).trans (ht j), ?_⟩
  · rw [h]
    obtain ⟨_, _, _, _, _, _, _, _, rfl⟩ := hno
    rfl
  · rw [h]
    obtain ⟨_, _, _, _, _, _, _, _, rfl⟩ := hno
    exact ⟨rfl, rfl⟩

theorem State.servePiece_write (hk : p.kind = .write) (hf : s.isFar p.addr = false) (hp : s.piece? t id i = some p)
    {r : State × Nat} (hr : s.tileWrite t p.addr p.data p.poison = r) (hw : r.2 ≠ stWait) (ht : r.1.tiles = s.tiles) :
    s.servePiece t id i p = r.1.putPiece t id i { p with state := .served [] false r.2 } := by
  have hpr : r.1.piece? t id i = some p := (State.piece?_tiles (by unfold State.tile; rw [ht])).trans hp
  unfold State.servePiece
  rw [if_pos (by rw [hk]; decide), if_neg (by rw [hf]; decide), hr]
  dsimp only
  rw [if_neg hw, State.setPiece_eq hpr]

theorem State.tileWrite_hbm {a : Nat} {data : List Byte} {b : Bool} (hl : s.locate a = .hbm off) (ho : off + data.length ≤ moduleArea) :
    s.tileWrite t a data b = s.write a data b := by
  unfold State.tileWrite
  rw [hl]
  exact if_pos ho

theorem State.tileWrite_area {a : Nat} {data : List Byte} {b : Bool} (hl : s.locate a = .hbm off) (ho : moduleArea < off + data.length)
    (hd : s.doneWordOk t a data.length = false) : s.tileWrite t a data b = (s, stNotPermitted) := by
  unfold State.tileWrite
  rw [hl]
  exact (if_neg (Nat.not_le_of_lt ho)).trans (if_pos (by rw [hd]; rfl))

theorem State.Stored.tiles (h : s.Stored v) : v.tiles = s.tiles := by
  obtain ⟨_, _, _, rfl⟩ := h
  rfl

/-- A request for bytes of HBM answers them (R221, R224). -/
theorem State.request_read {held : List (Nat × Nat)} (hp : s.piece? t id i = some p) (hk : p.kind = .read) (hf : s.isFar p.addr = false)
    (hl : s.locate p.addr = .hbm off) : ∃ z, s.sendPiece t id i u none [] held [] p = z ∧ z.piece? t id i = some { p with
      state := .served (s.read p.addr p.bytes).bytes ((s.read p.addr p.bytes).poison || p.poison) (s.read p.addr p.bytes).status } ∧
    Tab.get 0 z.planes.upNext (t / 16) = (u + 1) % 16 ∧ (∀ j, j ≠ t → z.tile j = s.tile j) ∧
    z.mem.hbm = s.mem.hbm ∧ z.mem.cxl = s.mem.cxl := by
  obtain ⟨pl, hup, hx⟩ := State.sendPiece_single (u := u) (held := held) (back := []) hp (fun b => by rw [hk]; nofun)
  have hp1 : (s.onPlane s.tiles pl).piece? t id i = some p := (State.piece?_tiles rfl).trans hp
  have hpv := State.piece?_putPiece (p := p) hp1
  have ho (j : Nat) (hj : j ≠ t) : ((s.onPlane s.tiles pl).putPiece t id i p).tile j = s.tile j := State.putPiece_other hj
  obtain ⟨ts, hts⟩ : ∃ ts, (s.onPlane s.tiles pl).putPiece t id i p = s.onPlane ts pl := ⟨_, rfl⟩
  rw [hts] at hx hpv ho
  have hrd := State.onPlane_read (State.inHbm_of_locate hl) ts pl p.bytes
  obtain ⟨z, hz, hpz, hpl, hoz, hh, hc⟩ := State.servePiece_read (s := s.onPlane ts pl) hk hf hl hpv
  rw [hrd] at hpz
  exact ⟨z, hx.trans hz, hpz, by rw [hpl]; exact hup, fun j hj => (hoz j hj).trans (ho j hj), hh, hc⟩

/-- A request that stores bytes below the module area (R221, R225). -/
theorem State.request_write {held : List (Nat × Nat)} (hp : s.piece? t id i = some p) (hk : p.kind = .write) (hf : s.isFar p.addr = false)
    (hl : s.locate p.addr = .hbm off) (hd : off + p.data.length ≤ moduleArea) :
    ∃ z, s.sendPiece t id i u none [] held [] p = z ∧ z.mem = (s.write p.addr p.data p.poison).1.mem ∧
      z.piece? t id i = some { p with state := .served [] false (s.write p.addr p.data p.poison).2 } ∧
      (∀ j, j ≠ t → z.tile j = s.tile j) ∧ z = { s with tiles := z.tiles, planes := z.planes, mem := z.mem } := by
  obtain ⟨pl, hup, hx⟩ := State.sendPiece_single (u := u) (held := held) (back := []) hp (fun b => by rw [hk]; nofun)
  have hp1 : (s.onPlane s.tiles pl).piece? t id i = some p := (State.piece?_tiles rfl).trans hp
  have hpv := State.piece?_putPiece (p := p) hp1
  have ho (j : Nat) (hj : j ≠ t) : ((s.onPlane s.tiles pl).putPiece t id i p).tile j = s.tile j := State.putPiece_other hj
  obtain ⟨ts, hts⟩ : ∃ ts, (s.onPlane s.tiles pl).putPiece t id i p = s.onPlane ts pl := ⟨_, rfl⟩
  rw [hts] at hx hpv ho
  have hin := State.inHbm_of_locate hl
  have hne := (State.write_hbm (bs := p.data) (p := p.poison) hl).2
  have hst := State.write_stored (bs := p.data) (p := p.poison) hin
  have hw := (State.tileWrite_hbm (s := s.onPlane ts pl) (t := t) (b := p.poison) hl hd).trans (State.onPlane_write hin ts pl p.poison)
  generalize s.write p.addr p.data p.poison = r at hne hst hw ⊢
  obtain ⟨hb, c, wr, hst⟩ := hst
  have hv := State.servePiece_write (s := s.onPlane ts pl) hk hf hpv hw hne rfl
  have hpr : (r.1.onPlane ts pl).piece? t id i = some p := (State.piece?_tiles (s := s.onPlane ts pl) rfl).trans hpv
  refine ⟨_, hx.trans hv, ?_, State.piece?_putPiece hpr, fun j hj => (State.putPiece_other hj).trans ?_, ?_⟩
  · rfl
  · exact ho j hj
  · obtain ⟨ts', h⟩ := State.putPiece_frame (s := r.1.onPlane ts pl) t id i { p with state := .served [] false r.2 }
    dsimp only
    rw [h, hst]
    rfl

/-- A request that may not store into the module area is refused (R223). -/
theorem State.request_area {held : List (Nat × Nat)} (hp : s.piece? t id i = some p) (hk : p.kind = .write) (hf : s.isFar p.addr = false)
    (hl : s.locate p.addr = .hbm off) (hd : moduleArea < off + p.data.length) (hw : s.doneWordOk t p.addr p.data.length = false) :
    ∃ z, s.sendPiece t id i u none [] held [] p = z ∧ z.piece? t id i = some { p with state := .served [] false stNotPermitted } ∧
      z = { s with tiles := z.tiles, planes := z.planes } := by
  obtain ⟨pl, hup, hx⟩ := State.sendPiece_single (u := u) (held := held) (back := []) hp (fun b => by rw [hk]; nofun)
  have hp1 : (s.onPlane s.tiles pl).piece? t id i = some p := (State.piece?_tiles rfl).trans hp
  have hpv := State.piece?_putPiece (p := p) hp1
  have hrun (j : Nat) := State.putPiece_tile (s := s.onPlane s.tiles pl) t id i p j
  obtain ⟨ts, hts⟩ : ∃ ts, (s.onPlane s.tiles pl).putPiece t id i p = s.onPlane ts pl := ⟨_, rfl⟩
  rw [hts] at hx hpv hrun
  have huse (j : Nat) : ((s.onPlane ts pl).tile j).use = (s.tile j).use := by
    obtain ⟨_, h⟩ := hrun j
    rw [h]
    rfl
  have hdone : (s.onPlane ts pl).doneWordOk t p.addr p.data.length = false := by
    rw [← hw]
    unfold State.doneWordOk State.owner
    simp only [huse]
    rfl
  have hv := State.servePiece_write (s := s.onPlane ts pl) hk hf hpv (State.tileWrite_area (b := p.poison) hl hd hdone)
    (show stNotPermitted ≠ stWait by decide) rfl
  refine ⟨_, hx.trans hv, State.piece?_putPiece hpv, ?_⟩
  obtain ⟨ts', h⟩ := State.putPiece_frame (s := s.onPlane ts pl) t id i { p with state := .served [] false stNotPermitted }
  dsimp only
  rw [h]
  rfl

/-! ### Responses -/

/-- A firing with a piece that is no address list takes no list (R141). -/
theorem State.takeList_other (hf : (s.tile t).flight id = some f) (hp : f.pieces[i]? = some p) (hk : p.kind ≠ .addrList) :
    s.takeList t id = s := by
  have hany : f.pieces.any (fun p => p.kind != PieceKind.addrList) = true :=
    List.any_eq_true.2 ⟨p, List.mem_of_getElem? hp, by simpa using hk⟩
  unfold State.takeList
  dsimp only
  rw [hf]
  split
  · next f' g _ h _ =>
    rw [← Option.some.inj h, if_pos (by rw [hany, Bool.or_true])]
  · rfl

/-- Data that land for an operation other than `WLOAD` change its tile alone (R48). -/
theorem State.landPiece_read {data : List Byte} {poison : Bool} (hf : (s.tile t).flight id = some f) (hp : f.pieces[i]? = some p)
    (hs : p.state = .served data poison stOk) (hk : p.kind = .read) (ho : opCode ((s.tile t).op f.index) ≠ 0x58) :
    s.landPiece t id i = s.setTile t ((s.tile t).landed f i p data poison stOk) := by
  rw [State.landPiece_eq hf hp hs]
  obtain ⟨g, hg, hgi, hgp⟩ := Tile.landed_flight (data := data) (poison := poison) (status := stOk) hf hp
  generalize hx : (s.tile t).landed f i p data poison stOk = x at hg ⊢
  have hxo : x.op g.index = (s.tile t).op f.index := by rw [← hx, Tile.landed_op, hgi]
  have hxt : (s.setTile t x).tile t = x := by rw [State.setTile_tile, if_pos rfl]
  have hw : (s.setTile t x).checkWeights t id i = s.setTile t x := by
    unfold State.checkWeights
    rw [hxt, hg]
    dsimp only
    rw [hgp]
    dsimp only
    rw [hxo, if_pos (by simp [ho])]
  rw [hw]
  exact State.takeList_other (by rw [hxt]; exact hg) hgp (by
    show (p.land data).kind ≠ _
    unfold Piece.land
    rw [hk]
    exact fun h => by cases h)

/-- What data that have landed leave in the Tarn (R48, R104). -/
theorem Tile.landed_tarn {x : Tile} {data : List Byte} {poison : Bool} (hk : p.kind = .read) :
    (∀ (j : Nat) (w : Word), (bytesToWords data)[j]? = some w →
      Tab.get .zero (x.landed f i p data poison stOk).tarn (p.tarn + j) = ⟨w, 0, poison⟩) ∧
    ∀ a, a < p.tarn ∨ p.tarn + (bytesToWords data).length ≤ a →
      Tab.get .zero (x.landed f i p data poison stOk).tarn a = Tab.get .zero x.tarn a := by
  unfold Tile.landed
  dsimp only
  rw [if_pos (by rw [hk]; decide)]
  exact ⟨fun j w h => Tile.writeBeside_tarn _ _ _ _ h, fun a h => Tile.writeBeside_other _ _ h⟩

theorem Firing.setPiece_get (hp : f.pieces[i]? = some p) : (f.setPiece i q).pieces[i]? = some q :=
  List.getElem?_set_self (List.getElem?_eq_some_iff.1 hp).1

theorem State.copyResponse_alone {st : PieceState} (hw : s.withShadows t = [t]) : s.copyResponse t id i st = s := by
  unfold State.copyResponse
  rw [hw]
  split
  · rfl
  · simp

theorem State.turnBack_plane (p : Piece) (j : Nat) : ∃ pl, s.turnBack p j = s.onPlane s.tiles pl := by
  unfold State.turnBack
  split
  · exact ⟨_, rfl⟩
  · exact ⟨_, rfl⟩
  · exact ⟨s.planes, rfl⟩

theorem State.setFlight_use (f : Firing) (k : Nat) : ((s.updTile t fun x => x.setFlight f).tile k).use = (s.tile k).use := by
  rw [State.updTile_tile]
  split
  · next h => rw [h]; rfl
  · rfl

theorem State.mplaneResponse_exec {busy : List Nat} {data : List Byte} {poison : Bool} {j : Nat} {f1 : Firing}
    (hserve : s.inService = true) (ht : t < 320)
    (hf : (s.tile t).flight id = some f) (hp : f.pieces[i]? = some p) (hs : p.state = .served data poison stOk)
    (hsh : s.isShadow t = false) (hw : s.withShadows t = [t]) (hj : s.spineBack t p busy = some j) (hm : s.mayLand t = true)
    (hf1 : f.setPiece i { p with state := .served data poison stOk } = f1) :
    ∃ ts pl, exec (.mplaneResponse t id i none busy) s = .next ((s.onPlane ts pl).landPiece t id i) ∧
      ∀ k, (s.onPlane ts pl).tile k = (s.updTile t fun x => x.setFlight f1).tile k := by
  obtain ⟨v, hv⟩ : ∃ v, (s.updTile t fun x => x.setFlight f1) = v := ⟨_, rfl⟩
  have hws : v.withShadows t = [t] := by
    rw [State.withShadows_congr (s := s) (fun k => by rw [← hv]; exact State.setFlight_use f1 k), hw]
  have hc := State.copyResponse_alone (id := id) (i := i) (st := .served data poison stOk) hws
  obtain ⟨pl, hpl⟩ := State.turnBack_plane (s := v) p j
  have hx : exec (.mplaneResponse t id i none busy) s = .next ((((v.onPlane v.tiles pl).updOut (0x1000 + t)
      (LinkOut.bulk (packetFlits data.length))).parityOf none).landPiece t id i) := by
    show execMplaneResponse t id i none s busy = _
    rw [execMplaneResponse, State.onLive_next]
    refine ⟨by simpa using ht, ?_⟩
    rw [if_pos hserve]
    dsimp only
    rw [hf]
    dsimp only
    rw [hsh, if_neg (by decide), hp]
    dsimp only
    rw [hs, hj]
    dsimp only
    rw [hm, if_neg (by decide)]
    rw [show (poison || (Option.filter (s.responseLinks t p j).contains none).isSome) = poison from Bool.or_false _]
    rw [hf1, hv, hc, hpl]
    rfl
  obtain ⟨pl', hpl'⟩ : ∃ pl', ((v.onPlane v.tiles pl).updOut (0x1000 + t) (LinkOut.bulk (packetFlits data.length))).parityOf none =
      s.onPlane v.tiles pl' := by
    rw [← hv]
    exact ⟨_, rfl⟩
  exact ⟨v.tiles, pl', hx.trans (by rw [hpl']), fun k => by rw [hv]; rfl⟩

/-- A response of data lands at the tile that asked (R48). -/
theorem State.landResponse_row {busy : List Nat} {data : List Byte} {poison : Bool} (hserve : s.inService = true) (ht : t < 320)
    (hf : (s.tile t).flight id = some f) (hp : f.pieces[i]? = some p) (hs : p.state = .served data poison stOk) (hk : p.kind = .read)
    (ho : opCode ((s.tile t).op f.index) ≠ 0x58) (hsh : s.isShadow t = false) (hw : s.withShadows t = [t])
    (hb : (s.spineBack t p busy).isSome = true) (hm : s.mayLand t = true) :
    ∃ z, exec (.mplaneResponse t id i none busy) s = .next z ∧ z.piece? t id i = some { p with state := .landed, data := data } ∧
      (∀ (j : Nat) (w : Word), (bytesToWords data)[j]? = some w → Tab.get .zero (z.tile t).tarn (p.tarn + j) = ⟨w, 0, poison⟩) ∧
      (∀ a, a < p.tarn ∨ p.tarn + (bytesToWords data).length ≤ a → Tab.get .zero (z.tile t).tarn a = Tab.get .zero (s.tile t).tarn a) ∧
      (∀ v, v ≠ t → z.tile v = s.tile v) ∧ z = { s with tiles := z.tiles, planes := z.planes } := by
  obtain ⟨j, hj⟩ := Option.isSome_iff_exists.1 hb
  obtain ⟨f1, hf1⟩ : ∃ f1, f.setPiece i { p with state := .served data poison stOk } = f1 := ⟨_, rfl⟩
  have hp1 : f1.pieces[i]? = some { p with state := .served data poison stOk } := hf1 ▸ Firing.setPiece_get hp
  have hi1 : f1.index = f.index := by rw [← hf1]; rfl
  have hid : f1.id = id := by rw [← hf1]; exact (show f.id = id from Tile.flight_id hf)
  obtain ⟨ts, pl, hx, hv⟩ := State.mplaneResponse_exec hserve ht hf hp hs hsh hw hj hm hf1
  have hvt : (s.onPlane ts pl).tile t = (s.tile t).setFlight f1 := by rw [hv, State.updTile_tile, if_pos rfl]
  have hvo (k : Nat) (hk : k ≠ t) : (s.onPlane ts pl).tile k = s.tile k := by rw [hv, State.updTile_tile, if_neg hk]
  obtain ⟨v, hveq⟩ : ∃ v, s.onPlane ts pl = v := ⟨_, rfl⟩
  rw [hveq] at hx hvt hvo
  have hvf : (v.tile t).flight id = some f1 := by
    rw [hvt]
    exact Tile.setFlight_same hf hid
  refine ⟨_, hx, ?_⟩
  rw [State.landPiece_read (s := v) hvf hp1 rfl hk (by rw [hi1, hvt]; exact ho)]
  obtain ⟨g, hg, -, hgp⟩ := Tile.landed_flight (data := data) (poison := poison) (status := stOk) hvf hp1
  have hin := Tile.landed_tarn (x := v.tile t) (f := f1) (i := i) (data := data) (poison := poison)
    (p := { p with state := .served data poison stOk }) hk
  have hxt (x : Tile) : (v.setTile t x).tile t = x := by rw [State.setTile_tile, if_pos rfl]
  refine ⟨?_, ?_, ?_, fun k hk => ?_, ?_⟩
  · unfold State.piece?
    rw [hxt, hg]
    refine hgp.trans ?_
    unfold Piece.land
    dsimp only
    rw [hk]
  · rw [hxt]
    exact hin.1
  · rw [hxt]
    intro a ha
    refine (hin.2 a ha).trans ?_
    rw [hvt]
    rfl
  · rw [State.setTile_tile, if_neg hk]
    exact hvo k hk
  · rw [← hveq]
    rfl

/-- A shadow takes the copy of its primary's response (R364). -/
theorem State.shadow_row {data : List Byte} {poison : Bool} (hserve : s.inService = true) (ht : t < 320)
    (hf : (s.tile t).flight id = some f) (hp : f.pieces[i]? = some p) (hsh : s.isShadow t = true) (hlit : (s.tile t).lit = true)
    (hc : (s.tile t).copyFor f i = some (f.index, f.count, i, .served data poison stOk)) (hk : p.kind = .read)
    (ho : opCode ((s.tile t).op f.index) ≠ 0x58) : ∃ z, exec (.mplaneResponse t id i none []) s = .next z ∧
      (∀ (j : Nat) (w : Word), (bytesToWords data)[j]? = some w → Tab.get .zero (z.tile t).tarn (p.tarn + j) = ⟨w, 0, poison⟩) ∧
      (∀ v, v ≠ t → z.tile v = s.tile v) ∧ z = { s with tiles := z.tiles } := by
  have hx : exec (.mplaneResponse t id i none []) s = .next (s.landCopy t id i f) := by
    show execMplaneResponse t id i none s [] = _
    rw [execMplaneResponse, State.onLive_next]
    refine ⟨by simpa using ht, ?_⟩
    rw [if_pos hserve]
    dsimp only
    rw [hf]
    dsimp only
    rw [if_pos hsh, if_pos hlit]
  refine ⟨_, hx, ?_⟩
  unfold State.landCopy
  rw [hc]
  dsimp only
  obtain ⟨v, hv⟩ : ∃ v, (s.updTile t fun x => x.updRun fun r => { r with
    copied := r.copied.erase (f.index, f.count, i, .served data poison stOk) }) = v := ⟨_, rfl⟩
  rw [hv]
  have hvt : ∃ l, v.tile t = (s.tile t).updRun fun r => { r with copied := l } := by
    rw [← hv, State.updTile_tile, if_pos rfl]
    exact ⟨_, rfl⟩
  obtain ⟨l, hvt⟩ := hvt
  have hvo (k : Nat) (hk : k ≠ t) : v.tile k = s.tile k := by
    rw [← hv]
    exact (State.updTile_tile ..).trans (if_neg hk)
  have hvf : (v.tile t).flight id = some f := by
    rw [hvt]
    exact hf
  have hvp : v.piece? t id i = some p := by
    unfold State.piece?
    rw [hvf]
    exact hp
  rw [State.setPiece_eq hvp]
  have hw : v.putPiece t id i { p with state := .served data poison stOk } =
      v.updTile t fun x => x.setFlight (f.setPiece i { p with state := .served data poison stOk }) := by
    unfold State.putPiece State.updTile
    dsimp only
    rw [hvf]
  rw [hw]
  obtain ⟨w, hw⟩ : ∃ w, (v.updTile t fun x => x.setFlight (f.setPiece i { p with state := .served data poison stOk })) = w := ⟨_, rfl⟩
  have hwt : w.tile t = (v.tile t).setFlight (f.setPiece i { p with state := .served data poison stOk }) := by
    rw [← hw, State.updTile_tile, if_pos rfl]
  have hwo (k : Nat) (hk : k ≠ t) : w.tile k = s.tile k := by
    rw [← hw]
    exact ((State.updTile_tile ..).trans (if_neg hk)).trans (hvo k hk)
  rw [hw, State.landPiece_read (f := f.setPiece i { p with state := .served data poison stOk })
    (by rw [hwt]; exact Tile.setFlight_same hvf (show f.id = id from Tile.flight_id hf)) (Firing.setPiece_get hp) rfl hk (by rw [hwt, hvt]; exact ho)]
  have hin := Tile.landed_tarn (x := w.tile t) (f := f.setPiece i { p with state := .served data poison stOk }) (i := i)
    (data := data) (poison := poison) (p := { p with state := .served data poison stOk }) hk
  refine ⟨?_, fun k hk => ?_, ?_⟩
  · rw [State.setTile_tile, if_pos rfl]
    exact hin.1
  · rw [State.setTile_tile, if_neg hk]
    exact hwo k hk
  · rw [← hw, ← hv]
    rfl

/-- An access to the CXL tier that draws no response (R229). -/
theorem State.timeout_row (hserve : s.inService = true) (ht : t < 320) (hp : s.piece? t id i = some p)
    (hk : p.kind = .read ∨ p.kind = .write ∨ p.kind = .addrList ∨ p.kind = .crcList) (hw : p.state = .waiting)
    (hsh : s.isShadow t = false) (hc : s.onCxl p.addr = true) : ∃ z, exec (.cxlAccessTimeout t id i) s = .next z ∧
      z.piece? t id i = some { p with state := .served [] false stUnreachable } ∧
      (∀ v, v ≠ t → z.tile v = s.tile v) ∧ z = { s with tiles := z.tiles } := by
  have hx : exec (.cxlAccessTimeout t id i) s = .next (s.setPiece t id i (.served [] false stUnreachable)) := by
    show execCxlAccessTimeout t id i s = _
    rw [execCxlAccessTimeout, State.onLive_next]
    refine ⟨by simpa using ht, ?_⟩
    rw [if_pos hserve, hp]
    dsimp only
    rw [hw, hsh, hc]
    obtain hk | hk | hk | hk := hk <;> rw [hk] <;> exact if_pos (by decide)
  refine ⟨_, hx, ?_⟩
  rw [State.setPiece_eq hp]
  exact ⟨State.piece?_putPiece hp, fun k hk => State.putPiece_other hk, rfl⟩

/-! ### Routers whose inputs hold nothing -/

/-- No copy of a tile's packets waits at a router's input. -/
def Tile.Flowing (x : Tile) : Prop := ∀ f ∈ x.run.flights, ∀ p ∈ f.pieces, ∀ c ∈ p.copies, c.2.2.inputLink = none

/-- No copy of a packet waits at a router's input (R259). -/
structure State.Flowing (s : State) : Prop where
  tiles : ∀ e ∈ s.tiles, e.2.Flowing
  rows : ∀ m ∈ s.planes.rows, m.way.stand.bind (·.inputLink) = none
  counts : ∀ m ∈ s.planes.counts, m.way.stand.bind (·.inputLink) = none

theorem State.flowing_of_blockedLinks (h : s.blockedLinks = []) : s.Flowing := by
  unfold State.blockedLinks at h
  simp only [List.append_eq_nil_iff, List.flatMap_eq_nil_iff, List.filterMap_eq_nil_iff] at h
  exact ⟨h.1.1, h.1.2, h.2⟩

theorem State.Flowing.tile (h : s.Flowing) (j : Nat) : (s.tile j).Flowing := by
  have key (m : Tab Tile) (hm : ∀ e ∈ m, e.2.Flowing) : (Tab.get .reset m j).Flowing := by
    induction m with
    | nil => exact fun f hf => absurd hf List.not_mem_nil
    | cons e m ih =>
      unfold Tab.get
      split
      · exact hm e List.mem_cons_self
      · exact ih fun e he => hm e (List.mem_cons_of_mem _ he)
  exact key s.tiles h.tiles

theorem Tab.mem_put {α : Type} [DecidableEq α] {d v : α} {k : Nat} {m : Tab α} {e : Nat × α} (h : e ∈ Tab.put d k v m) :
    e = (k, v) ∨ e ∈ m := by
  unfold Tab.put at h
  split at h
  · exact .inr (Tab.mem_erase.1 h).1
  · exact (Tab.mem_ins.1 h).imp_right fun h => (Tab.mem_erase.1 h).1

theorem State.Flowing.updTile {g : Tile → Tile} (h : s.Flowing) (hg : (g (s.tile t)).Flowing) : (s.updTile t g).Flowing :=
  ⟨fun _ he => (Tab.mem_put he).elim (fun heq => heq ▸ hg) (h.tiles _), h.rows, h.counts⟩

theorem State.Flowing.putPiece (h : s.Flowing) (hp : ∀ c ∈ p.copies, c.2.2.inputLink = none) : (s.putPiece t id i p).Flowing := by
  refine h.updTile ?_
  split
  · exact h.tile t
  · next f hf =>
    intro g hg q hq
    obtain ⟨g', hg', hgq⟩ := List.mem_map.1 hg
    split at hgq
    · subst hgq
      obtain hq | hq := List.mem_or_eq_of_mem_set hq
      · exact h.tile t f (List.mem_of_find?_eq_some hf) q hq
      · exact hq ▸ hp
    · subst hgq
      exact h.tile t g' hg' q hq

theorem foldl_kept {α β : Type} {g : α → β → α} {a : α} {l : List β} (h : ∀ b ∈ l, g a b = a) : l.foldl g a = a := by
  induction l with
  | nil => rfl
  | cons b l ih => rw [List.foldl_cons, h b List.mem_cons_self, ih fun c hc => h c (List.mem_cons_of_mem _ hc)]

/-- Where nothing waits at an input, a router takes nothing into its buffer (R259). -/
theorem State.Flowing.admitCopies (h : s.Flowing) (r : Nat) : s.admitCopies r = s := by
  unfold State.admitCopies
  extract_lets at_ mine s1 s2
  have hno (c : CopyState) (hc : c.inputLink = none) : mine c = false := by
    cases c with
    | atInput q l => cases hc
    | held q => rfl
    | acked b => rfl
  have hat : at_ = [] := by
    refine List.flatMap_eq_nil_iff.2 fun e he => List.flatMap_eq_nil_iff.2 fun f hf => List.filterMap_eq_nil_iff.2 fun pi hpi => ?_
    refine if_neg ?_
    rw [List.any_eq_true]
    rintro ⟨c, hc, hw⟩
    have hmem : pi.1 ∈ f.pieces := (List.mem_zipIdx' hpi).2 ▸ List.getElem_mem _
    exact absurd (hw.symm.trans (hno _ (h.tiles e he f hf _ hmem c hc))) (by decide)
  have hs1 : s1 = s := by
    unfold s1
    rw [hat]
    rfl
  have hmine (o : Option CopyState) (ho : o.bind (·.inputLink) = none) : o.any mine = false := by
    cases o with
    | none => rfl
    | some c => exact hno c ho
  have hs2 : s2 = s := by
    unfold s2
    rw [hs1]
    exact foldl_kept fun m hm => if_neg (by rw [hmine _ (h.rows m hm)]; simp)
  rw [hs2]
  exact foldl_kept fun m hm => if_neg (by rw [hmine _ (h.counts m hm)]; simp)

/-! ### Copies of multicast packets -/

/-- Nothing changes but the planes and, of tiles, the Tarn and the firings. -/
def State.Planed (s z : State) : Prop := (∃ ts pl, z = s.onPlane ts pl) ∧
  ∀ j, ∃ tn pb r, z.tile j = { s.tile j with tarn := tn, patrolBack := pb, run := r }

namespace State.Planed

theorem refl (s : State) : s.Planed s := ⟨⟨s.tiles, s.planes, rfl⟩, fun _ => ⟨_, _, _, rfl⟩⟩

theorem trans (h : s.Planed v) (h' : v.Planed w) : s.Planed w := by
  obtain ⟨⟨_, _, rfl⟩, ht⟩ := h
  obtain ⟨⟨ts, pl, rfl⟩, ht'⟩ := h'
  refine ⟨⟨ts, pl, rfl⟩, fun j => ?_⟩
  obtain ⟨_, _, _, ht⟩ := ht j
  obtain ⟨_, _, _, ht'⟩ := ht' j
  exact ⟨_, _, _, by rw [ht', ht]⟩

theorem onPlane (s : State) (pl : Planes) : s.Planed (s.onPlane s.tiles pl) := ⟨⟨_, _, rfl⟩, fun _ => ⟨_, _, _, rfl⟩⟩

theorem updTile {g : Tile → Tile} (hg : ∃ tn pb r, g (s.tile t) = { s.tile t with tarn := tn, patrolBack := pb, run := r }) :
    s.Planed (s.updTile t g) := by
  refine ⟨⟨_, s.planes, rfl⟩, fun j => ?_⟩
  rw [State.updTile_tile]
  split
  · next h => rw [h]; exact hg
  · exact ⟨_, _, _, rfl⟩

theorem putPiece (s : State) (t id i : Nat) (p : Piece) : s.Planed (s.putPiece t id i p) := by
  refine updTile ?_
  split
  · exact ⟨_, _, _, rfl⟩
  · exact ⟨_, _, _, rfl⟩

theorem frame (h : s.Planed z) : z = { s with tiles := z.tiles, planes := z.planes } := by
  obtain ⟨⟨_, _, rfl⟩, -⟩ := h
  rfl

theorem graph (h : s.Planed z) (g : Nat) : z.graph? g = s.graph? g := by
  obtain ⟨⟨_, _, rfl⟩, -⟩ := h
  rfl

theorem use (h : s.Planed z) (j : Nat) : (z.tile j).use = (s.tile j).use := by
  obtain ⟨_, _, _, h⟩ := h.2 j
  rw [h]

theorem owner (h : s.Planed z) (j : Nat) : z.owner j = s.owner j := by
  unfold State.owner
  simp only [h.use]

theorem graphFor (h : s.Planed z) (j : Nat) : z.graphFor j = s.graphFor j := by
  unfold State.graphFor
  rw [h.owner]
  obtain ⟨_, _, _, ht⟩ := h.2 j
  rw [ht]
  split
  · rfl
  · rw [h.graph]
    rfl

end State.Planed

/-- A member that takes the copies of a packet, without a shadow (R260). -/
structure State.Takes (s : State) (p : Piece) (m : Nat) : Prop where
  fenced : (s.tile m).fenced = false
  lit : (s.tile m).lit = true
  owned : (s.owner m).isSome = true
  alone : s.withShadows m = [m]
  fits : (bytesToWords p.data).length ≤ (s.tile m).window

/-- The words of a packet stand in a member's Tarn (R107, R260). -/
def State.HasCopy (s : State) (p : Piece) (bad : Bool) (m : Nat) : Prop := ∀ (j : Nat) (w : Word), (bytesToWords p.data)[j]? = some w →
  Tab.get .zero (s.tile m).tarn ((s.tile m).castWord p.addr (bytesToWords p.data).length + j) = ⟨w, 0, p.poison || bad⟩

theorem State.Takes.beside {m : Nat} (h : s.Takes p m) (hz : s.Planed z) : z.Takes p m := by
  obtain ⟨_, _, _, ht⟩ := hz.2 m
  refine ⟨?_, ?_, (hz.owner m).symm ▸ h.owned, (State.withShadows_congr hz.use m).trans h.alone, ?_⟩
  · rw [ht]; exact h.fenced
  · rw [ht]; exact h.lit
  · rw [ht]; exact h.fits

theorem State.HasCopy.words {m : Nat} {bad : Bool} (h : z.HasCopy p bad m) (hz : s.Planed z) (j : Nat) (w : Word)
    (hw : (bytesToWords p.data)[j]? = some w) :
    Tab.get .zero (z.tile m).tarn ((s.tile m).castWord p.addr (bytesToWords p.data).length + j) = ⟨w, 0, p.poison || bad⟩ := by
  obtain ⟨_, _, _, ht⟩ := hz.2 m
  have hc : (z.tile m).castWord p.addr (bytesToWords p.data).length = (s.tile m).castWord p.addr (bytesToWords p.data).length := by
    rw [ht]
    rfl
  rw [← hc]
  exact h j w hw

/-- A copy delivered stands at its member, and at no other tile. -/
theorem State.deliverCopy_taken {m : Nat} {bad : Bool} (h : s.Takes p m) : ∃ z, s.deliverCopy p m bad = (z, .acked bad) ∧
    s.Planed z ∧ z.HasCopy p bad m ∧ (∀ k, k ≠ m → z.tile k = s.tile k) ∧ z.planes = s.planes ∧
    (z.tile m).run.flights = (s.tile m).run.flights ∧ (s.Flowing → z.Flowing) := by
  refine ⟨s.updTile m fun x => x.writeBeside (x.castWord p.addr (bytesToWords p.data).length) (bytesToWords p.data) (p.poison || bad),
    ?_, .updTile ⟨_, _, _, rfl⟩, fun j w hw => ?_, fun k hk => ?_, rfl, ?_, fun hf => hf.updTile (hf.tile m)⟩
  · unfold State.deliverCopy
    obtain ⟨n, hn⟩ := Option.isSome_iff_exists.1 h.owned
    rw [h.fenced, h.lit, hn, if_neg (by simp)]
    dsimp only
    rw [h.alone, List.foldl_cons, List.foldl_nil]
    unfold State.updTile
    dsimp only
    rw [if_pos h.fits]
  · rw [State.updTile_tile, if_pos rfl]
    exact Tile.writeBeside_tarn _ _ _ _ hw
  · rw [State.updTile_tile, if_neg hk]
  · rw [State.updTile_tile, if_pos rfl]
    rfl

theorem State.HasCopy.congr {m : Nat} {bad : Bool} (h : s.HasCopy p bad m) (ht : ∃ r, z.tile m = { s.tile m with run := r }) :
    z.HasCopy p bad m := by
  obtain ⟨_, ht⟩ := ht
  intro j w hw
  rw [ht]
  exact h j w hw

theorem State.sendCopy_free {others : Copies} {way : List (Nat × Nat)} {m : Nat} {bad : Bool} :
    s.sendCopy t u p others [] way m bad = s.deliverCopy p m bad := by
  unfold State.sendCopy
  rw [List.find?_eq_none.2 (fun x _ => by simp)]

/-- The acknowledgements of copies touch the outputs and turns of the plane alone. -/
theorem State.ackCopies_planes (back : List Nat) (old new : Copies) : ∃ pl, s.ackCopies t back old new = s.onPlane s.tiles pl ∧
    pl.rows = s.planes.rows ∧ pl.counts = s.planes.counts := by
  unfold State.ackCopies
  dsimp only
  generalize List.filter _ _ = l
  induction l generalizing s with
  | nil => exact ⟨s.planes, rfl, rfl, rfl⟩
  | cons m l ih =>
    have h : ∃ pl, s.ackRise m t back = s.onPlane s.tiles pl ∧ pl.rows = s.planes.rows ∧ pl.counts = s.planes.counts := by
      unfold State.ackRise
      split
      · exact ⟨s.planes, rfl, rfl, rfl⟩
      · exact ⟨_, rfl, rfl, rfl⟩
    obtain ⟨pl, h, hr, hc⟩ := h
    rw [List.foldl_cons, h]
    obtain ⟨pl', h', hr', hc'⟩ := ih (s := s.onPlane s.tiles pl)
    exact ⟨pl', h', hr'.trans hr, hc'.trans hc⟩

/-- One member's copy of a packet that meets no held branch, and the packet put back with what is known of it. -/
def State.castTo (t id i : Nat) (p : Piece) (a : State × Copies) (m : Nat) : State × Copies :=
  let r := a.1.deliverCopy p m false
  (r.1.putPiece t id i { p with state := .remote, copies := a.2 ++ [(m, false, r.2)] }, a.2 ++ [(m, false, r.2)])

theorem State.castTo_all {ms : List Nat} (hp : s.piece? t id i = some q) (h : ∀ m ∈ ms, s.Takes p m) (cs : Copies) :
    ∃ z, ms.foldl (State.castTo t id i p) (s, cs) = (z, cs ++ ms.map fun m => (m, false, .acked false)) ∧ s.Planed z ∧
      (∃ q, z.piece? t id i = some q) ∧ (∀ m ∈ ms, z.HasCopy p false m) ∧ ∀ k, k ≠ t → k ∉ ms → z.tile k = s.tile k := by
  induction ms using List.reverseRecOn with
  | nil => exact ⟨s, by simp, .refl s, ⟨q, hp⟩, by simp, fun _ _ _ => rfl⟩
  | append_singleton ms m ih =>
    obtain ⟨v, hv, hb, ⟨q', hq⟩, hc, ho⟩ := ih fun k hk => h k (by simp [hk])
    obtain ⟨w, hw, hbw, hcw, how, -, hfl, -⟩ := State.deliverCopy_taken (bad := false) ((h m (by simp)).beside hb)
    have hqw : w.piece? t id i = some q' := by
      rw [← hq]
      unfold State.piece? Tile.flight
      by_cases htm : t = m
      · rw [htm, hfl]
      · rw [how t htm]
    rw [List.foldl_append, hv, List.foldl_cons, List.foldl_nil]
    unfold State.castTo
    dsimp only
    rw [hw]
    refine ⟨_, by rw [List.map_append, List.append_assoc]; rfl, (hb.trans hbw).trans (.putPiece ..),
      ⟨_, State.piece?_putPiece hqw⟩, fun k hk => ?_, fun k hkt hk => ?_⟩
    · refine State.HasCopy.congr ?_ (State.putPiece_tile ..)
      by_cases hkm : k = m
      · rw [hkm]
        exact hcw
      · refine (hc k (by simpa [hkm] using hk)).congr ⟨_, how k hkm⟩
    · have hk : k ∉ ms ∧ k ≠ m := by simpa using hk
      rw [State.putPiece_other hkt, how k hk.2, ho k hkt hk.1]

/-- A multicast goes out beside other planes. -/
theorem State.sendPiece_cast {held : List (Nat × Nat)} {b : Nat} (hp : s.piece? t id i = some p) (hk : p.kind = .cast b) :
    ∃ pl, pl.rows = s.planes.rows ∧ pl.counts = s.planes.counts ∧
      s.sendPiece t id i u none [] held [] p = (s.onPlane s.tiles pl).castPiece t id i u none held [] p b := by
  unfold State.sendPiece
  extract_lets way hit sent s1 s2 q
  have hs2 : s2 = s.onPlane s.tiles s2.planes := rfl
  have hr : s2.planes.rows = s.planes.rows := rfl
  have hc : s2.planes.counts = s.planes.counts := rfl
  have hh : hit = none := rfl
  clear_value s2 q hit
  generalize s2.planes = pl at hs2 hr hc
  subst hs2 hh
  have hpp : (s.onPlane s.tiles pl).piece? t id i = some p := (State.piece?_tiles rfl).trans hp
  refine ⟨pl, hr, hc, ?_⟩
  rw [hpp, if_neg (show ¬(some p).isNone = true by simp), hk]

/-- A multicast whose branches all have credits reaches every member, and is acknowledged (R258 to R261). -/
theorem State.request_cast {b : Nat} {y : Graph} (hp : s.piece? t id i = some p) (hk : p.kind = .cast b) (hy : s.graphFor t = some y)
    (h : ∀ m ∈ y.members b, s.Takes p m) : ∃ z, s.sendPiece t id i u none [] [] [] p = z ∧
      z.piece? t id i = some { p with state := .served [] false stOk, copies := (y.members b).map fun m => (m, false, .acked false) } ∧
      (∀ m ∈ y.members b, z.HasCopy p false m) ∧ (∀ k, k ≠ t → k ∉ y.members b → z.tile k = s.tile k) ∧ s.Planed z := by
  obtain ⟨pl, -, -, hx⟩ := State.sendPiece_cast (u := u) (held := []) hp hk
  have hb1 := State.Planed.onPlane s pl
  have hp1 : (s.onPlane s.tiles pl).piece? t id i = some p := (State.piece?_tiles rfl).trans hp
  have hot (k : Nat) : (s.onPlane s.tiles pl).tile k = s.tile k := rfl
  have hg := (hb1.graphFor t).trans hy
  generalize s.onPlane s.tiles pl = v at hx hb1 hp1 hot hg
  obtain ⟨w, hw, hbw, ⟨q, hq⟩, hc, ho⟩ := State.castTo_all (i := i) hp1 (fun m hm => (h m hm).beside hb1) []
  rw [List.nil_append] at hw
  obtain ⟨cs, hcs⟩ : ∃ cs : Copies, ((y.members b).map fun m => (m, false, CopyState.acked false)) = cs := ⟨_, rfl⟩
  rw [hcs] at hw ⊢
  have hx2 : v.castPiece t id i u none [] [] p b =
      (w.putPiece t id i (Piece.castDone { p with state := .remote, copies := cs })).ackCopies t [] [] cs := by
    unfold State.castPiece
    simp only [State.sendCopy_free, hg, Option.elim_some, Option.any_none]
    have hfold : (y.members b).foldl (fun (a : State × Copies) m =>
        ((a.1.deliverCopy p m false).1.putPiece t id i { p with state := .remote, copies := a.2 ++ [(m, false, (a.1.deliverCopy p m false).2)] },
          a.2 ++ [(m, false, (a.1.deliverCopy p m false).2)])) (v, []) = (w, cs) := hw
    rw [hfold]
  have hd : Piece.castDone { p with state := .remote, copies := cs } = { p with state := .served [] false stOk, copies := cs } := by
    have hall : (cs.all fun c => c.2.2 == .acked true || c.2.2 == .acked false) = true := by
      rw [← hcs]
      simp
    have hany : (cs.any fun c => c.2.2 == .acked true) = false := by
      rw [← hcs]
      simp
    unfold Piece.castDone
    dsimp only
    rw [hk]
    dsimp only
    rw [hall, if_pos rfl, hany]
  rw [hd] at hx2
  obtain ⟨pl', ha, -⟩ := State.ackCopies_planes (s := w.putPiece t id i { p with state := .served [] false stOk, copies := cs }) (t := t) [] [] cs
  have hput := State.putPiece_tile (s := w) t id i { p with state := .served [] false stOk, copies := cs }
  refine ⟨_, hx.trans (hx2.trans ha), ?_, fun m hm => ?_, fun k hkt hkm => ?_, ((hb1.trans hbw).trans (.putPiece ..)).trans (.onPlane ..)⟩
  · exact (State.piece?_tiles (s := w.putPiece t id i _) rfl).trans (State.piece?_putPiece hq)
  · exact (hc m hm).congr (hput m)
  · exact ((State.putPiece_other hkt).trans (ho k hkt hkm)).trans (hot k)

/-- A multicast of one copy waits in the buffer of the first branch that has no credit (R259). -/
theorem State.request_held {b m r g : Nat} {y : Graph} (hp : s.piece? t id i = some p) (hk : p.kind = .cast b) (hy : s.graphFor t = some y)
    (hms : y.members b = [m]) (hway : (castPath t (u / 2) m).head? = some (r, g)) (hroom : s.copiesAt r < 64) :
    ∃ z, s.sendPiece t id i u none [] [(r, g)] [] p = z ∧
      z.piece? t id i = some { p with state := .remote, copies := [(m, false, .held r)] } ∧
      (∀ k, k ≠ t → z.tile k = s.tile k) ∧ s.Planed z := by
  obtain ⟨pl, hr, hc, hx⟩ := State.sendPiece_cast (u := u) (held := [(r, g)]) hp hk
  have hb1 := State.Planed.onPlane s pl
  have hp1 : (s.onPlane s.tiles pl).piece? t id i = some p := (State.piece?_tiles rfl).trans hp
  have hot (k : Nat) : (s.onPlane s.tiles pl).tile k = s.tile k := rfl
  have hg := (hb1.graphFor t).trans hy
  have hat : (s.onPlane s.tiles pl).copiesAt r < 64 := by
    have h : pl.copiesAt r = s.planes.copiesAt r := by
      unfold Planes.copiesAt
      rw [hr, hc]
    unfold State.copiesAt at hroom ⊢
    rw [← h] at hroom
    exact hroom
  generalize s.onPlane s.tiles pl = v at hx hb1 hp1 hot hg hat
  have hsend : v.sendCopy t u p [] [(r, g)] (castPath t (u / 2) m) m false = (v, .held r) := by
    obtain ⟨l, hl⟩ : ∃ l, castPath t (u / 2) m = (r, g) :: l := by
      cases hcp : castPath t (u / 2) m with
      | nil => rw [hcp] at hway; cases hway
      | cons a l => rw [hcp] at hway; exact ⟨l, by rw [Option.some.inj hway]⟩
    unfold State.sendCopy
    rw [hl, List.find?_cons_of_pos (by simp)]
    dsimp only
    rw [decide_eq_true hat, Bool.true_or, if_pos rfl]
  have hx2 : v.castPiece t id i u none [(r, g)] [] p b =
      ((v.putPiece t id i { p with state := .remote, copies := [(m, false, .held r)] }).putPiece t id i
        { p with state := .remote, copies := [(m, false, .held r)] }).ackCopies t [] [] [(m, false, .held r)] := by
    have hd : Piece.castDone { p with state := .remote, copies := [(m, false, .held r)] } =
        { p with state := .remote, copies := [(m, false, .held r)] } := by
      unfold Piece.castDone
      dsimp only
      rw [hk]
      rfl
    unfold State.castPiece
    simp only [hg, Option.elim_some, hms, List.foldl_cons, List.foldl_nil, Option.any_none, hsend, List.nil_append, hd]
  have hp2 := State.piece?_putPiece (p := { p with state := .remote, copies := [(m, false, .held r)] }) hp1
  have ho2 (k : Nat) (hk : k ≠ t) := (State.putPiece_other (s := v) (id := id) (i := i)
    (p := { p with state := .remote, copies := [(m, false, .held r)] }) hk).trans (hot k)
  have hb2 := hb1.trans (.putPiece v t id i { p with state := .remote, copies := [(m, false, .held r)] })
  generalize v.putPiece t id i { p with state := .remote, copies := [(m, false, .held r)] } = w at hx2 hp2 ho2 hb2
  obtain ⟨pl', ha, -⟩ := State.ackCopies_planes (t := t) (s := w.putPiece t id i { p with state := .remote, copies := [(m, false, .held r)] })
    [] [] [(m, false, .held r)]
  exact ⟨_, hx.trans (hx2.trans ha), (State.piece?_tiles (s := w.putPiece t id i _) rfl).trans (State.piece?_putPiece hp2),
    fun k hk => (State.putPiece_other hk).trans (ho2 k hk), (hb2.trans (.putPiece ..)).trans (.onPlane ..)⟩

/-! ### Copies released -/

/-- A copy that a branch held reaches its member, and is acknowledged (R259, R260). -/
theorem State.release_row {b m r : Nat} {bad : Bool} (hserve : s.inService = true) (ht : t < 320) (hr : r < 36)
    (hp : s.piece? t id i = some p) (hk : p.kind = .cast b) (hc : p.copies = [(m, bad, .held r)]) (hfree : s.blockedLinks = [])
    (hm : s.Takes p m) : ∃ z, exec (.multicastBranchRelease t id i r (branchOf r m) []) s = .next z ∧
      z.piece? t id i = some { p with state := .served [] bad stOk, copies := [(m, bad, .acked bad)] } ∧ z.HasCopy p bad m ∧
      (∀ k, k ≠ t → k ≠ m → z.tile k = s.tile k) ∧ s.Planed z := by
  have hx : exec (.multicastBranchRelease t id i r (branchOf r m) []) s =
      .next ((s.releaseBranch t id i r (branchOf r m) [] [] p).admitCopies r) := by
    show execMulticastBranchRelease t id i s r (branchOf r m) [] [] = _
    rw [execMulticastBranchRelease, State.onLive_next]
    refine ⟨by simp [ht, hr], ?_⟩
    rw [if_pos hserve, hp]
  obtain ⟨w, hw, hb, hcopy, ho, -, hfl, hflow⟩ := State.deliverCopy_taken (bad := bad) hm
  have hq : w.piece? t id i = some p := by
    rw [← hp]
    unfold State.piece? Tile.flight
    by_cases htm : t = m
    · rw [htm, hfl]
    · rw [ho t htm]
  have hd : Piece.castDone { p with copies := [(m, bad, .acked bad)] } =
      { p with state := .served [] bad stOk, copies := [(m, bad, .acked bad)] } := by
    unfold Piece.castDone
    dsimp only
    rw [hk]
    cases bad <;> rfl
  have hrel : s.releaseBranch t id i r (branchOf r m) [] [] p =
      (w.putPiece t id i { p with state := .served [] bad stOk, copies := [(m, bad, .acked bad)] }).ackCopies t [] p.copies
        [(m, bad, .acked bad)] := by
    unfold State.releaseBranch
    simp only [hc, List.foldl_cons, List.foldl_nil, beq_self_eq_true, Bool.and_self, if_true, State.sendCopy_free, hw, List.nil_append, hd]
  obtain ⟨pl, ha, hrows, hcounts⟩ := State.ackCopies_planes (t := t)
    (s := w.putPiece t id i { p with state := .served [] bad stOk, copies := [(m, bad, .acked bad)] }) [] p.copies [(m, bad, .acked bad)]
  have hflow2 := (hflow (State.flowing_of_blockedLinks hfree)).putPiece (t := t) (id := id) (i := i)
    (p := { p with state := .served [] bad stOk, copies := [(m, bad, .acked bad)] }) (fun c hc => by
      obtain rfl : c = (m, bad, CopyState.acked bad) := by simpa using hc
      rfl)
  have hq2 := State.piece?_putPiece (p := { p with state := .served [] bad stOk, copies := [(m, bad, .acked bad)] }) hq
  have hcopy2 := hcopy.congr (State.putPiece_tile t id i { p with state := .served [] bad stOk, copies := [(m, bad, .acked bad)] } m)
  have hb2 := hb.trans (.putPiece w t id i { p with state := .served [] bad stOk, copies := [(m, bad, .acked bad)] })
  have ho2 (k : Nat) (hkt : k ≠ t) (hkm : k ≠ m) := (State.putPiece_other (s := w) (id := id) (i := i)
    (p := { p with state := .served [] bad stOk, copies := [(m, bad, .acked bad)] }) hkt).trans (ho k hkm)
  generalize w.putPiece t id i { p with state := .served [] bad stOk, copies := [(m, bad, .acked bad)] } = v
    at hrel ha hrows hcounts hflow2 hq2 hcopy2 hb2 ho2
  have hpl : (s.releaseBranch t id i r (branchOf r m) [] [] p).admitCopies r = v.onPlane v.tiles pl := by
    rw [hrel, ha]
    exact State.Flowing.admitCopies (s := v.onPlane v.tiles pl)
      ⟨hflow2.tiles, fun m hm => hflow2.rows m (hrows ▸ hm), fun m hm => hflow2.counts m (hcounts ▸ hm)⟩ r
  exact ⟨_, hx.trans (congrArg _ hpl), (State.piece?_tiles (s := v) rfl).trans hq2, hcopy2.congr ⟨_, rfl⟩, ho2, hb2.trans (.onPlane ..)⟩

/-! ### The rows -/

/-- Settles O45: a request is served beside other tiles and planes, which HBM does not see, a response changes the tile it lands at, and
a multicast packet's copies are followed member by member. -/
theorem memoryPlaneRows : Obligations.MemoryPlaneRows := by
  unfold Obligations.MemoryPlaneRows
  intro s t id i f p x hserve ht hxt hf hpi
  subst hxt
  have hp : s.piece? t id i = some p := by
    unfold State.piece?
    rw [hf]
    exact hpi
  refine ⟨fun u busy hsh hu hm hw => ?_, fun busy data poison hs hk ho hsh hws hb hm => ?_, fun data poison hsh hlit hc hk ho => ?_,
    fun b m r bad hk hc hr hfree hsh hfe hlit how hws hfit => ?_, fun hk hw hsh hc => ?_⟩
  · have hx (held : List (Nat × Nat)) := State.mplaneRequest_exec (held := held) hserve ht hp hsh hu hm
    refine ⟨fun off held hk hf hl _ => ?_, fun off held hk hf hl => ⟨fun hd => ?_, fun hd hdone => ?_⟩,
      fun b y ms hk hy hms => ⟨fun h => ?_, fun m r g hone hway hroom => ?_⟩⟩
    · obtain ⟨z, hz, hpz, hup, hoz, hh, hcx⟩ := State.request_read (u := u) (held := held) hp hk hf hl
      exact ⟨z, (hx held).trans (congrArg _ hz), State.piece?_map.2 hpz, hup, hoz, hh, hcx⟩
    · obtain ⟨z, hz, hmem, hpz, hoz, hframe⟩ := State.request_write (u := u) (held := held) hp hk hf hl hd
      exact ⟨z, (hx held).trans (congrArg _ hz), hmem, State.piece?_map.2 hpz, hoz, hframe⟩
    · obtain ⟨z, hz, hpz, hframe⟩ := State.request_area (u := u) (held := held) hp hk hf hl hd hdone
      exact ⟨z, (hx held).trans (congrArg _ hz), State.piece?_map.2 hpz, hframe⟩
    · subst hms
      have hall : ∀ m ∈ y.members b, s.Takes p m := fun m hm => by
        obtain ⟨h1, h2, h3, h4, h5⟩ := h m hm
        exact ⟨h1, h2, h3, h4, h5⟩
      obtain ⟨z, hz, hpz, hcz, hoz, hbz⟩ := State.request_cast (u := u) hp hk hy hall
      refine ⟨z, (hx []).trans (congrArg _ hz), State.piece?_map.2 hpz, fun m hm j w hw => ?_, hoz, hbz.frame⟩
      exact ((hcz m hm).words hbz j w hw).trans (by rw [Bool.or_false])
    · obtain ⟨z, hz, hpz, hoz, hbz⟩ := State.request_held (u := u) hp hk hy (hms.symm.trans hone) hway hroom
      exact ⟨z, (hx [(r, g)]).trans (congrArg _ hz), State.piece?_map.2 hpz, hoz, hbz.frame⟩
  · obtain ⟨z, hz, hpz, h⟩ := State.landResponse_row hserve ht hf hpi hs hk ho hsh hws hb hm
    exact ⟨z, hz, State.piece?_map.2 hpz, h⟩
  · exact State.shadow_row hserve ht hf hpi hsh hlit hc hk ho
  · obtain ⟨z, hz, hpz, hcz, hoz, hbz⟩ := State.release_row hserve ht hr hp hk hc hfree ⟨hfe, hlit, how, hws, hfit⟩
    exact ⟨z, hz, State.piece?_map.2 hpz, State.HasCopy.words hcz hbz, hoz, hbz.frame⟩
  · obtain ⟨z, hz, hpz, h⟩ := State.timeout_row hserve ht hp hk hw hsh hc
    exact ⟨z, hz, State.piece?_map.2 hpz, h⟩

end Sys2Proof.Machine
end

section
/-! PROOF. What binding a graph again, its streams' ends and reports leave alone: the sequence that runs, the count of recoveries, whether
DMA is stopped, and the result log where no TEST runs. One lemma for each operation, in the order of the model's files. -/

namespace Sys2Proof.Machine

set_option Elab.async false

variable {s t u : State}

/-- The sequence, the count of recoveries and the stop of DMA stay, and so does the result log where no TEST runs. -/
structure State.Calm (s t : State) : Prop where
  seq : t.seq = s.seq
  recoveries : t.recoveries = s.recoveries
  dma : t.host.dmaStopped = s.host.dmaStopped
  results : s.monitor.testing = none → t.monitor.testing = none ∧ t.ledger.results = s.ledger.results

namespace State.Calm

theorem refl (s : State) : s.Calm s := ⟨rfl, rfl, rfl, fun h => ⟨h, rfl⟩⟩

theorem trans (h : s.Calm t) (h' : t.Calm u) : s.Calm u :=
  ⟨h'.seq.trans h.seq, h'.recoveries.trans h.recoveries, h'.dma.trans h.dma,
    fun ht => ⟨(h'.results (h.results ht).1).1, (h'.results (h.results ht).1).2.trans (h.results ht).2⟩⟩

/-- Any other part of the state may change. -/
theorem keep {cairn rd draws : Nat} {pe : List Instr} {dv : DevState} {st : SelfTest} {ts : Tab Tile} {gs : Tab (Option Graph)}
    {tr : Tracker} {pl : Planes} {fb : Fabric} {k : Host_} {rg : Regs} {m : Mem} {pw : Power} {l : Ledger} {fu : Fuses} {d : Dump}
    {sh : Shutdown} {fw : Firmware} {hs : HotSwap} {mg : Mgmt} {mo : Monitor} {bs : List Byte} {lk : Tab Nat} (h : s.Calm u)
    (hk : k.dmaStopped = u.host.dmaStopped := by rfl) (hl : l.results = u.ledger.results := by rfl)
    (hm : mo.testing = u.monitor.testing := by rfl) :
    s.Calm ⟨pe, cairn, dv, u.seq, st, u.recoveries, ts, gs, tr, pl, fb, k, rg, m, pw, l, fu, d, sh, fw, hs, mg, mo, rd, bs, draws, lk⟩ :=
  h.trans ⟨rfl, rfl, hk, fun ht => ⟨hm.trans ht, hl⟩⟩

theorem ite {c : Prop} [Decidable c] (ht : s.Calm t) (hu : s.Calm u) : s.Calm (if c then t else u) := by
  split
  · exact ht
  · exact hu

theorem foldl {α : Type} {l : List α} {f : State → α → State} (h : s.Calm u) (hf : ∀ t x, s.Calm t → s.Calm (f t x)) :
    s.Calm (l.foldl f u) :=
  List.foldlRecOn (motive := fun t => s.Calm t) l f h fun t ht x _ => hf t x ht

theorem aside (h : s.Calm u) (h' : u.Aside t) : s.Calm t := by
  rw [h'.frame]
  exact h.keep

theorem onlyTiles {T : Nat → Prop} (h : s.Calm u) (h' : u.OnlyTiles T t) : s.Calm t := by
  rw [h'.frame]
  exact h.keep

theorem onlyStagings (h : s.Calm u) (h' : u.OnlyStagings t) : s.Calm t := by
  rw [h'.frame]
  exact h.keep

theorem ofEq (h : s.Calm u) (e : u = t) : s.Calm t := e ▸ h

/-- Where a TEST runs, its record may join the log. -/
theorem logged (h : s.Calm u) (hne : s.monitor.testing ≠ none) (mo : Monitor) (rs : List TestResult) :
    s.Calm { u with monitor := mo, ledger := { u.ledger with results := rs } } :=
  ⟨h.seq, h.recoveries, h.dma, fun hn => absurd hn hne⟩

/-! ### Ops -/

theorem setTile {i : Nat} {x : Tile} (h : s.Calm u) : s.Calm (u.setTile i x) := h.keep

theorem updTile {i : Nat} {f : Tile → Tile} (h : s.Calm u) : s.Calm (u.updTile i f) := h.setTile

theorem setGraph {g : Nat} {x : Option Graph} (h : s.Calm u) : s.Calm (u.setGraph g x) := h.keep

theorem updGraph {g : Nat} {f : Graph → Graph} (h : s.Calm u) : s.Calm (u.updGraph g f) := by
  unfold State.updGraph
  split
  · exact h
  · exact h.setGraph

theorem updSched {g : Nat} {f : Sched → Sched} (h : s.Calm u) : s.Calm (u.updSched g f) := h.updGraph

theorem setStream {i : Nat} {x : Stream} (h : s.Calm u) : s.Calm (u.setStream i x) := h.keep

theorem updCq {n : Nat} {f : Ring → Ring} (h : s.Calm u) : s.Calm (u.updCq n f) := h.keep

theorem updHv {n : Nat} {f : Ring → Ring} (h : s.Calm u) : s.Calm (u.updHv n f) := h.keep

theorem draw (h : s.Calm u) : s.Calm u.draw := h.keep

theorem hostWrite {a : Nat} {bs : List Byte} (h : s.Calm u) : s.Calm (u.hostWrite a bs) := by
  obtain ⟨_, _, hw⟩ := State.hostWrite_frame (s := u) a bs
  rw [hw]
  exact h.keep

theorem sendPending (h : s.Calm u) : s.Calm u.sendPending := .ite h h.keep

/-! ### Flags -/

theorem writeRec {q : Nat} {r : Rec} (h : s.Calm u) : s.Calm (u.writeRec q r) := h.hostWrite.updCq

theorem notice {q : Nat} {r : Rec} (h : s.Calm u) : s.Calm (u.notice q r) := .ite h.writeRec h.updCq

theorem raise {code a b c : Nat} (h : s.Calm u) : s.Calm (u.raise code a b c) := by
  obtain ⟨_, _, _, -, hr⟩ := State.raise_frame (s := u) code a b c
  rw [hr]
  exact h.keep

theorem raiseAll {es : List Event} (h : s.Calm u) : s.Calm (u.raiseAll es) := .foldl h fun _ _ ht => ht.raise

theorem setDev {d : DevState} (h : s.Calm u) : s.Calm (u.setDev d) := .ite h h.keep

theorem checkDegraded (h : s.Calm u) : s.Calm u.checkDegraded := .ite h.setDev.raise h

theorem abandon {g cause : Nat} {removed replace : List Nat} (h : s.Calm u) : s.Calm (u.abandon g cause removed replace) := by
  unfold State.abandon
  dsimp only
  split
  · exact h
  · exact h.setGraph.raiseAll

theorem setScore {k : PartKind} {id score part : Nat} (h : s.Calm u) : s.Calm (u.setScore k id score part) := by
  unfold State.setScore
  dsimp only
  split <;> exact h.keep

theorem addDefect {kind source id cause : Nat} (h : s.Calm u) : s.Calm (u.addDefect kind source id cause) := .ite h h.keep

theorem letGo {i : Nat} (h : s.Calm u) : s.Calm (u.letGo i) := h.onlyTiles (State.letGo_onlyTiles i)

theorem fenceTile {i : Nat} (h : s.Calm u) : s.Calm (u.fenceTile i) := by
  have h1 {x : Tile} : s.Calm ((((((u.completeStaging i stNotPermitted (u.tile i).staging).dropWords i).setTile i x).unstage i).unstage
      (i + 320)).quiet i) :=
    ((h.keep (u := u)).onlyStagings (State.unstage_unstage_onlyStagings i)).onlyTiles (State.quiet_onlyTiles i)
  unfold State.fenceTile
  dsimp only
  refine .ite h ?_
  refine .checkDegraded ?_
  split
  · exact h1
  · exact .ite h1.abandon.updGraph h1.abandon.updGraph

/-! ### Memory -/

theorem renewStaged {a : Nat} (h : s.Calm u) : s.Calm (u.renewStaged a) := by
  unfold State.renewStaged
  split
  · split
    · exact h.updTile
    · exact h
  · exact h

theorem readNoting {a n : Nat} (h : s.Calm u) : s.Calm (u.readNoting a n).2 :=
  (h.aside (State.Noticed.noteRun (.refl u)).aside).renewStaged

/-! ### Descriptors -/

theorem writeCompletion {ring opcode cookie status detail result head : Nat}
    (h : s.Calm u) : s.Calm (u.writeCompletion ring opcode cookie status detail result head) := h.updCq.writeRec

theorem dropDesc {tag : Nat} (h : s.Calm u) : s.Calm (u.dropDesc tag) := h.keep

theorem complete {d : Desc} {status detail result : Nat} (h : s.Calm u) : s.Calm (u.complete d status detail result) :=
  h.writeCompletion.dropDesc

theorem completeTag {tag status detail result : Nat} (h : s.Calm u) : s.Calm (u.completeTag tag status detail result) := by
  unfold State.completeTag
  split
  · exact h
  · exact h.complete

/-! ### Manifest -/

theorem updUnit {j : Nat} {f : FwUnit → FwUnit} (h : s.Calm u) : s.Calm (u.updUnit j f) := h.keep

theorem settleActivation (h : s.Calm u) : s.Calm u.settleActivation := by
  unfold State.settleActivation
  dsimp only
  split
  · exact h
  · have h1 : s.Calm (match u.fw.update with
        | none => u
        | some e =>
          if u.stagedUnits.isEmpty then ({ u with fw := { u.fw with update := none } }).completeTag e.1 stOk 0 0
          else (({ u with fw := { u.fw with update := none } }).completeTag e.1 stOk 0 0).raise 0x1802 (mBuild u.manifest)
            u.stagedUnits.length 0) := by
      split
      · exact h
      · exact .ite h.keep.completeTag h.keep.completeTag.raise
    exact .ite h1.keep.raise h1

theorem activateUnit {j : Nat} (h : s.Calm u) : s.Calm (u.activateUnit j) := by
  unfold State.activateUnit
  split
  · exact h
  · exact .ite h.updUnit.settleActivation h

/-! ### Tracker -/

theorem putStream {i : Nat} {x : Stream} (h : s.Calm u) : s.Calm (u.putStream i x) := h.setStream.aside (State.putStream_aside i x)

theorem notify {i status detail : Nat} (h : s.Calm u) : s.Calm (u.notify i status detail) := .ite h.notice h

theorem setPages {i : Nat} {ps : List (Nat × Nat)} (h : s.Calm u) : s.Calm (u.setPages i ps) := h.keep

theorem freeRuns {g i : Nat} (h : s.Calm u) : s.Calm (u.freeRuns g i) := h.updSched

theorem releaseSlot {r : Nat} (h : s.Calm u) : s.Calm (u.releaseSlot r) := h.updHv

theorem unplan {g i : Nat} (h : s.Calm u) : s.Calm (u.unplan g i) := by
  unfold State.unplan
  dsimp only
  split
  · exact h
  · exact .foldl h.updSched fun _ _ ht => ht.releaseSlot

theorem endStream {i status detail : Nat} (h : s.Calm u) : s.Calm (u.endStream i status detail) :=
  .ite h (h.unplan.freeRuns.putStream.aside (State.writeTable_aside ..))

theorem breakDeadline {i : Nat} (h : s.Calm u) : s.Calm (u.breakDeadline i) := by
  unfold State.breakDeadline
  dsimp only
  split
  · exact h
  · exact h.putStream.raise.notify

/-! ### TileEvents -/

theorem releaseChannels {g : Nat} (h : s.Calm u) : s.Calm (u.releaseChannels g) := by
  unfold State.releaseChannels
  dsimp only
  split
  · exact h
  · exact .foldl h fun _ _ ht => ht.updTile

/-! ### Shutdown -/

theorem addResult {x : TestResult} (h : s.Calm u) (hne : s.monitor.testing ≠ none) : s.Calm (u.addResult x) := by
  obtain ⟨_, hr⟩ := State.addResult_frame (s := u) x
  rw [hr]
  exact h.logged hne u.monitor _

theorem sliceFailed {source : Nat} {k : Nat × Nat} (h : s.Calm u) : s.Calm (u.sliceFailed source k) :=
  .ite h (.ite h.addDefect.setScore.raise.fenceTile h.addDefect)

theorem wipe {k n : Nat} (h : s.Calm u) : s.Calm (u.wipe k n) := .ite h.keep h

theorem recordSlice {k j outcome source : Nat} {r : SliceReport} (h : s.Calm u) (hne : s.monitor.testing ≠ none) :
    s.Calm (u.recordSlice k j outcome source r) :=
  .checkDegraded (.addResult (.foldl h.wipe fun _ _ ht => ht.sliceFailed) hne)

theorem preemptSlice (h : s.Calm u) : s.Calm u.preemptSlice := by
  unfold State.preemptSlice State.endSlice
  dsimp only
  split
  · exact h.draw
  · next k x he =>
    have hne : s.monitor.testing ≠ none := fun hn => absurd (he.symm.trans (h.results hn).1) (by nofun)
    refine keep (recordSlice (.foldl ?_ fun t i ht => .ite ht.letGo ht) hne)
    exact h.draw.logged hne _ _

/-! ### Placement -/

theorem takeSlots {g : Nat} {ls : List (Nat × Nat)} (h : s.Calm u) : s.Calm (u.takeSlots g ls) := h.keep

theorem takeBuntings {g : Nat} {bs : List Nat} (h : s.Calm u) : s.Calm (u.takeBuntings g bs) := h.keep

theorem releasePlanes {g : Nat} (h : s.Calm u) : s.Calm (u.releasePlanes g) := h.keep

theorem recordSession {i ms cases outcome : Nat} (h : s.Calm u) : s.Calm (u.recordSession i ms cases outcome) := h.keep

theorem withdraw {i : Nat} (h : s.Calm u) : s.Calm (u.withdraw i) := by
  unfold State.withdraw
  extract_lets v w
  have hv : s.Calm v := .ite h.preemptSlice h
  have hw : s.Calm w := hv.keep
  split
  · exact hw.keep
  · exact hw

theorem writeTile {i : Nat} {f : Tile → Tile} (h : s.Calm u) : s.Calm (u.writeTile i f) :=
  h.withdraw.updTile.onlyStagings (State.turnTileOn_onlyStagings i)

theorem writeTiles {g : Nat} {im : Image} {place : List Nat} {gen : Nat} (h : s.Calm u) : s.Calm (u.writeTiles g im place gen) :=
  .foldl h fun _ _ ht => .ite ht.writeTile ht

theorem freeTileNow {i : Nat} (h : s.Calm u) : s.Calm (u.freeTileNow i) := h.onlyTiles (State.freeTileNow_onlyTiles i)

theorem reroute {g : Nat} (h : s.Calm u) : s.Calm (u.reroute g) := by
  unfold State.reroute
  refine .foldl h fun t x ht => ?_
  split
  · exact ht
  · split
    · exact ht
    · exact ht.updTile

theorem putVtile {g v i : Nat} (h : s.Calm u) : s.Calm (u.putVtile g v i) := by
  unfold State.putVtile
  dsimp only
  split
  · exact h
  · exact h.setGraph.writeTile.takeSlots.reroute

/-! ### Burgee -/

theorem finishChange {g : Nat} (h : s.Calm u) : s.Calm (u.finishChange g) := by
  unfold State.finishChange
  dsimp only
  split
  · exact h
  · split
    · exact h
    · exact .ite h (.ite h.setGraph (.takeSlots (.keep (.foldl h.setGraph fun _ _ ht => .ite ht.updTile ht))))

theorem repost {i v : Nat} (h : s.Calm u) : s.Calm (u.repost i v) := by
  unfold State.repost
  dsimp only
  split
  · exact h
  · exact .foldl (.foldl h fun _ _ ht => ht.updTile) fun _ _ ht => .ite (.foldl ht fun _ _ ht => ht.updTile) ht

theorem sendBurgee {i q gen : Nat} (h : s.Calm u) : s.Calm (u.sendBurgee i q gen) := .foldl h fun _ _ ht => ht.updTile

theorem sendBurgees {g : Nat} (h : s.Calm u) : s.Calm (u.sendBurgees g) := by
  unfold State.sendBurgees
  split
  · exact h
  · exact .foldl h fun _ _ ht => .ite (.foldl ht fun _ _ ht => ht.sendBurgee) ht

theorem releaseRow {r : Row} (h : s.Calm u) : s.Calm (u.releaseRow r) := .ite h.releaseSlot h

theorem endCancelled {i : Nat} (h : s.Calm u) : s.Calm (u.endCancelled i) := .ite h.endStream (.ite h.endStream h)

theorem removeRow {status detail : Nat} {r : Row} (h : s.Calm u) : s.Calm (u.removeRow status detail r) :=
  .ite h.releaseRow h.releaseRow.notify.endCancelled

theorem batchAgain {g : Nat} {causes handles : List Nat} {b : Batch} (h : s.Calm u) : s.Calm (u.batchAgain g causes handles b) := by
  unfold State.batchAgain
  dsimp only
  split
  · exact h
  · exact .updSched (.foldl (.foldl h fun _ _ ht => ht.removeRow) fun _ _ ht => ht.notify)

theorem letRun {g : Nat} (h : s.Calm u) : s.Calm (u.letRun g) := by
  unfold State.letRun
  dsimp only
  split
  · exact h
  · exact .foldl h fun _ _ ht => .ite ht ht.updTile

theorem burgeeAgain {g : Nat} (h : s.Calm u) : s.Calm (u.burgeeAgain g) := by
  unfold State.burgeeAgain
  dsimp only
  split
  · exact h
  · split
    · exact h
    · exact .ite h (.ite h.sendBurgees (.finishChange (.releaseChannels
        (.foldl h fun _ _ ht => .ite (.ite (.activateUnit (.ite ht.updTile ht.updTile.repost)) ht.freeTileNow.updGraph) ht))))

theorem deliverAgain {g : Nat} {causes handles : List Nat} (h : s.Calm u) : s.Calm (u.deliverAgain g causes handles) := by
  unfold State.deliverAgain
  split
  · exact h
  · exact .burgeeAgain (.letRun (.foldl h fun _ _ ht => ht.batchAgain))

theorem newGrid {g : Nat} (h : s.Calm u) : s.Calm (u.newGrid g) := by
  unfold State.newGrid
  dsimp only
  exact h.updSched

theorem resume {g cause : Nat} (h : s.Calm u) : s.Calm (u.resume g cause) := by
  unfold State.resume
  dsimp only
  split
  · exact h
  · exact h.setGraph.raise.newGrid.deliverAgain

theorem retry {g : Nat} (h : s.Calm u) : s.Calm (u.retry g) := by
  unfold State.retry
  dsimp only
  split
  · exact h
  · refine .ite h ?_
    split
    · refine .foldl h fun t x ht => ?_
      split
      · exact ht
      · exact ht.putVtile
    · split
      · refine .resume ?_
        refine .foldl h fun t x ht => ?_
        split
        · exact ht
        · exact ht.putVtile
      · refine .foldl h fun t x ht => ?_
        split
        · exact ht
        · exact ht.putVtile

/-! ### Connections -/

theorem updWindow {i : Nat} {f : Window → Window} (h : s.Calm u) : s.Calm (u.updWindow i f) := h.keep

/-! ### Graphs -/

theorem bind {g : Nat} {y : Graph} (h : s.Calm u) : s.Calm (u.bind g y) := h.takeBuntings.takeSlots.setGraph.writeTiles

theorem endStreams {g : Nat} (h : s.Calm u) : s.Calm (u.endStreams g) := .foldl h fun _ _ ht => ht.endStream.setPages

/-! ### Start -/

theorem flushConflicts (h : s.Calm u) : s.Calm u.flushConflicts := .ite h (.foldl h.keep fun _ _ ht => ht.notice)

/-! ### Periods -/

theorem journalRecords {j : Journal} (h : s.Calm u) : s.Calm (u.journalRecords j) := .foldl h fun _ _ ht => .ite ht.putStream ht

theorem journalTokens {j : Journal} (h : s.Calm u) : s.Calm (u.journalTokens j) := .foldl h fun _ _ ht => ht.hostWrite

theorem journalTail {j : Journal} (h : s.Calm u) : s.Calm (u.journalTail j) := h.updHv.keep

/-! ### Recovery -/

theorem repeatJournal {j : Journal} (h : s.Calm u) : s.Calm (u.repeatJournal j) :=
  .journalTail (.ite h.journalRecords.journalTokens h.journalRecords)

theorem graphLost {g status detail : Nat} (h : s.Calm u) : s.Calm (u.graphLost g status detail) :=
  h.raise.endStreams.releasePlanes.setGraph

theorem restage {g : Nat} {c : Change} (h : s.Calm u) : s.Calm (u.restage g c) := by
  unfold State.restage
  dsimp only
  split
  · exact h
  · split
    · exact h
    · exact .foldl h.takeBuntings.setGraph.takeSlots fun _ _ ht => .ite ht.updTile ht.writeTile

theorem rebind {g : Nat} (h : s.Calm u) : s.Calm (u.rebind g) := by
  unfold State.rebind
  dsimp only
  split
  · exact h
  · refine .ite h.setGraph.graphLost ?_
    refine .ite h.setGraph.readNoting.graphLost ?_
    refine .ite h.setGraph.readNoting.graphLost ?_
    split
    · exact h.setGraph.readNoting.graphLost
    · split
      · exact h.setGraph.readNoting.graphLost
      · split
        · exact h.setGraph.readNoting.draw.bind
        · exact h.setGraph.readNoting.draw.bind.restage

theorem closeWindows (h : s.Calm u) : s.Calm u.closeWindows := .foldl h fun _ _ ht => ht.updWindow.keep

theorem endAsked (h : s.Calm u) : s.Calm u.endAsked := .foldl h fun _ _ ht => ht.endCancelled

theorem abortDescs (h : s.Calm u) : s.Calm u.abortDescs := .foldl h fun _ _ ht => ht.complete

theorem breakPassed (h : s.Calm u) : s.Calm u.breakPassed := .foldl h fun _ _ ht => .ite ht.breakDeadline ht

end State.Calm

end Sys2Proof.Machine
end

section
/-! PROOF. The slices of a shutdown and of a TEST: their records, the schedule's place and the shutdown's end (R438 to R442, R514). -/

namespace Sys2Proof.Machine

variable {s t v : State} {r : SliceReport}

/-! ### The latest records -/

/-- The records that the result log keeps (R442). -/
@[irreducible] def latestResults (xs : List TestResult) : List TestResult := xs.drop (xs.length - 16384)

theorem latestResults_eq (xs : List TestResult) : latestResults xs = xs.drop (xs.length - 16384) := by
  unfold latestResults
  rfl

theorem drop_drop_append {α : Type} (n : Nat) (xs ys : List α) :
    (xs.drop (xs.length - n) ++ ys).drop ((xs.drop (xs.length - n) ++ ys).length - n) = (xs ++ ys).drop ((xs ++ ys).length - n) := by
  have h : xs.drop (xs.length - n) ++ ys = (xs ++ ys).drop (xs.length - n) := by
    rw [List.drop_append_of_le_length (Nat.sub_le ..)]
  rw [h, List.drop_drop, List.length_drop]
  congr 1
  rw [List.length_append]
  omega

/-- Records left out once stay left out as more join. -/
theorem latestResults_append (xs ys : List TestResult) : latestResults (latestResults xs ++ ys) = latestResults (xs ++ ys) := by
  rw [latestResults_eq xs, latestResults_eq, latestResults_eq]
  exact drop_drop_append ..

theorem State.addResult_eq (x : TestResult) : ∃ rs, latestResults (s.ledger.results ++ [x]) = rs ∧
    s.addResult x = { s with ledger := { s.ledger with results := rs } } := by
  refine ⟨_, rfl, ?_⟩
  unfold State.addResult latestResults
  dsimp only

/-! ### Records of slices -/

/-- What wear leaves of the shutdown, the result log and the schedule. -/
theorem State.Worn.log (h : s.Worn t) : t.ledger.results = s.ledger.results ∧ t.ledger.schedule = s.ledger.schedule ∧
    t.ledger.missed = s.ledger.missed ∧ t.shutdown = s.shutdown ∧ t.monitor = s.monitor := by
  obtain ⟨_, _, _, _, _, _, _, _, _, _, _, _, _, _, _, _, rfl⟩ := h
  exact ⟨rfl, rfl, rfl, rfl, rfl⟩

theorem State.wipe_log (k x : Nat) : (s.wipe k x).ledger = s.ledger ∧ (s.wipe k x).shutdown = s.shutdown ∧ (s.wipe k x).monitor = s.monitor := by
  unfold State.wipe
  split <;> exact ⟨rfl, rfl, rfl⟩

theorem State.addResult_log (x : TestResult) : (s.addResult x).ledger.results = latestResults (s.ledger.results ++ [x]) ∧
    (s.addResult x).ledger.schedule = s.ledger.schedule ∧ (s.addResult x).ledger.missed = s.ledger.missed ∧
    (s.addResult x).shutdown = s.shutdown ∧ (s.addResult x).monitor = s.monitor := by
  obtain ⟨rs, hrs, h⟩ := State.addResult_eq (s := s) x
  rw [h, hrs]
  exact ⟨rfl, rfl, rfl, rfl, rfl⟩

/-- A slice recorded leaves the shutdown, the schedule and the monitor as they are, and its record at the end of the log. -/
theorem State.recordSlice_row (k x out src : Nat) (r : SliceReport) : ∃ t, s.recordSlice k x out src r = t ∧
    t.ledger.results = latestResults (s.ledger.results ++ [s.sliceResult k x out src r]) ∧ t.ledger.schedule = s.ledger.schedule ∧
    t.ledger.missed = s.ledger.missed ∧ t.shutdown = s.shutdown ∧ t.monitor = s.monitor := by
  obtain ⟨v, hv, ht⟩ := State.recordSlice_worn (s := s) k x out src r
  obtain ⟨hl, hs, hm⟩ := State.wipe_log (s := s) k x
  obtain ⟨h1, h2, h3, h4, h5⟩ := hv.log
  obtain ⟨a1, a2, a3, a4, a5⟩ := State.addResult_log (s := v) (s.sliceResult k x out src r)
  obtain ⟨b1, b2, b3, b4, b5⟩ := ht.log
  rw [hl] at h1 h2 h3
  rw [h1] at a1
  exact ⟨_, rfl, b1.trans a1, b2.trans (a2.trans h2), b3.trans (a3.trans h3), b4.trans (a4.trans (h4.trans hs)),
    b5.trans (a5.trans (h5.trans hm))⟩

/-- Skipped slices join the log with outcome 3, and the place of the schedule moves on; nothing else changes (R440). -/
theorem State.skipBad_records (n : Nat) : ∃ skipped rs p, s.skipBad n = { s with ledger := { s.ledger with results := rs, schedule := p } } ∧
    (∀ x ∈ skipped, x.outcome = 3) ∧ ∀ xs, s.ledger.results = latestResults xs → rs = latestResults (xs ++ skipped) := by
  induction n generalizing s with
  | zero => exact ⟨[], _, _, rfl, fun _ hx => absurd hx List.not_mem_nil, fun xs hxs => by rw [List.append_nil]; exact hxs⟩
  | succ n ih =>
    rw [State.skipBad_succ]
    split
    · obtain ⟨x, hx⟩ : ∃ x, s.sliceResult (sliceAt s.ledger.schedule).1 (sliceAt s.ledger.schedule).2 3 1 ⟨0, [], 0⟩ = x := ⟨_, rfl⟩
      have ho : x.outcome = 3 := by rw [← hx]; rfl
      obtain ⟨rx, hrx, ha⟩ := State.addResult_eq (s := s) x
      rw [hx, ha]
      obtain ⟨sk, rs, p, h, hall, hrs⟩ := ih (s := State.nextPlace { s with ledger := { s.ledger with results := rx } })
      refine ⟨x :: sk, rs, p, h, fun y hy => ?_, fun xs hxs => ?_⟩
      · obtain rfl | hy := List.mem_cons.1 hy
        · exact ho
        · exact hall y hy
      · rw [List.append_cons]
        refine hrs (xs ++ [x]) ?_
        rw [← latestResults_append xs, ← hxs, hrx]
        rfl
    · exact ⟨[], _, _, rfl, fun _ hx => absurd hx List.not_mem_nil, fun xs hxs => by rw [List.append_nil]; exact hxs⟩

/-! ### The orderly shutdown -/

theorem State.finishShutdown_row : ∃ t, s.finishShutdown = t ∧ t.ledger = s.ledger ∧
    t.shutdown = { s.shutdown with busy := false, done := true, scheduling := false } := ⟨_, rfl, rfl, rfl⟩

/-- The slice under way recorded, with what it used of the budget and the place behind it (R439 to R441). -/
theorem State.sliceEnds_row (cut : Bool) (out : Nat) (r : SliceReport) : ∃ t, ((s.shutdownSlice out r).noteMissed cut).nextPlace = t ∧
    t.ledger.results = latestResults (s.ledger.results ++
      [s.sliceResult (sliceAt s.ledger.schedule).1 (sliceAt s.ledger.schedule).2 out 1 r]) ∧
    t.ledger.schedule = (s.ledger.schedule + 1) % 70 ∧ (cut = true → t.ledger.missed.isSome = true) ∧
    t.shutdown = { s.shutdown with usedMs := s.shutdown.usedMs + r.durationMs } := by
  obtain ⟨c, hc⟩ := State.advanceTo_eq (s := s) (s.cairn + r.durationMs * 1000000)
  obtain ⟨w, hw, hr, hsch, hmi, hsh, -⟩ := State.recordSlice_row (s := { s with cairn := c }) (sliceAt s.ledger.schedule).1
    (sliceAt s.ledger.schedule).2 out 1 r
  have hx : s.shutdownSlice out r = { w with shutdown := { w.shutdown with usedMs := w.shutdown.usedMs + r.durationMs } } := by
    unfold State.shutdownSlice
    dsimp only
    rw [hc, hw]
  rw [hx]
  refine ⟨_, rfl, hr, ?_, fun hcut => ?_, ?_⟩
  · show (w.ledger.schedule + 1) % sliceCount = _
    rw [hsch]
    rfl
  · subst hcut
    show (w.ledger.missed.orElse fun _ => some w.ledger.schedule).isSome = true
    cases w.ledger.missed <;> rfl
  · show { w.shutdown with usedMs := w.shutdown.usedMs + r.durationMs } = _
    rw [hsh]

/-- A slice of the shutdown ends, and the next begins or the shutdown ends with it. -/
theorem State.afterSlice_row (cut last : Bool) (r : SliceReport) : ∃ t skipped, s.afterSlice cut last r = t ∧ (∀ x ∈ skipped, x.outcome = 3) ∧
    t.ledger.results = latestResults (s.ledger.results ++
      s.sliceResult (sliceAt s.ledger.schedule).1 (sliceAt s.ledger.schedule).2 (if cut then 2 else
        if s.partsFailed r (sliceAt s.ledger.schedule).1 (sliceAt s.ledger.schedule).2 = [] then 0 else 1) 1 r :: skipped) ∧
    t.shutdown.usedMs = s.shutdown.usedMs + r.durationMs ∧ (cut = true → t.ledger.missed.isSome = true) ∧
    (last = true ∨ s.shutdown.budgetMs ≤ s.shutdown.usedMs + r.durationMs →
      t.shutdown.done = true ∧ t.shutdown.busy = false ∧ t.shutdown.scheduling = false ∧ skipped = [] ∧
      t.ledger.schedule = (s.ledger.schedule + 1) % 70) ∧
    (last = false → s.shutdown.usedMs + r.durationMs < s.shutdown.budgetMs →
      t.shutdown.scheduling = s.shutdown.scheduling ∧ t.shutdown.busy = s.shutdown.busy ∧ t.shutdown.done = s.shutdown.done) := by
  obtain ⟨out, hout⟩ : ∃ out, (if cut then 2 else
    if s.partsFailed r (sliceAt s.ledger.schedule).1 (sliceAt s.ledger.schedule).2 = [] then 0 else 1) = out := ⟨_, rfl⟩
  rw [hout]
  obtain ⟨w, hw, hr, hsch, hmi, hsh⟩ := State.sliceEnds_row (s := s) cut out r
  have hx : s.afterSlice cut last r = if last || decide (s.shutdown.budgetMs ≤ s.shutdown.usedMs + r.durationMs) then w.finishShutdown
      else w.skipBad sliceCount := by
    have hb : w.shutdown.budgetMs = s.shutdown.budgetMs := by rw [hsh]; rfl
    have hu : w.shutdown.usedMs = s.shutdown.usedMs + r.durationMs := by rw [hsh]
    unfold State.afterSlice
    dsimp only
    simp only [List.isEmpty_iff]
    rw [hout, hw, hb, hu]
  by_cases hend : last = true ∨ s.shutdown.budgetMs ≤ s.shutdown.usedMs + r.durationMs
  · rw [if_pos (by simpa using hend)] at hx
    obtain ⟨z, hz, hl, hs⟩ := State.finishShutdown_row (s := w)
    refine ⟨z, [], hx.trans hz, fun _ h => absurd h List.not_mem_nil, ?_, ?_, ?_, fun _ => ?_, fun hlast hlt => ?_⟩
    · rw [hl, hr]
    · rw [hs, hsh]
    · rw [hl]; exact hmi
    · rw [hs, hl]
      exact ⟨rfl, rfl, rfl, rfl, hsch⟩
    · rw [hlast] at hend
      simp at hend
      omega
  · rw [if_neg (by simpa using hend)] at hx
    obtain ⟨sk, rs, p, hz, hall, hrs⟩ := State.skipBad_records (s := w) sliceCount
    refine ⟨_, sk, hx.trans hz, hall, ?_, ?_, hmi, fun h => absurd h hend, fun _ _ => ?_⟩
    · rw [List.append_cons]
      exact hrs _ hr
    · show w.shutdown.usedMs = _
      rw [hsh]
    · show w.shutdown.scheduling = _ ∧ w.shutdown.busy = _ ∧ w.shutdown.done = _
      rw [hsh]
      exact ⟨rfl, rfl, rfl⟩

/-! ### A TEST that ends -/

/-- The TEST that runs ends with its record (R438, R514). -/
theorem State.endSlice_row {k x : Nat} (early : Bool) (h : s.monitor.testing = some (k, x)) : ∃ (t w : State) (out : Nat), s.endSlice early r = t ∧
    t.monitor.testing = none ∧ t.ledger.results = latestResults (s.ledger.results ++ [w.sliceResult k x out 2 r]) ∧
    out = if early then 2 else if (s.partsFailed r k x).isEmpty then 0 else 1 := by
  obtain ⟨out, hout⟩ : ∃ out, (if early then 2 else if (s.partsFailed r k x).isEmpty then 0 else 1) = out := ⟨_, rfl⟩
  have hfold (l : List Nat) : (l.foldl (fun (s : State) t => if (s.tile t).use == TileUse.onDemand then s.letGo t else s)
      { s with monitor := { s.monitor with testing := none } }).ledger = s.ledger ∧
      (l.foldl (fun (s : State) t => if (s.tile t).use == TileUse.onDemand then s.letGo t else s)
        { s with monitor := { s.monitor with testing := none } }).monitor.testing = none := by
    refine List.foldlRecOn (motive := fun t : State => t.ledger = s.ledger ∧ t.monitor.testing = none) l _ ⟨rfl, rfl⟩ fun t ht i _ => ?_
    split
    · rw [(State.letGo_onlyTiles i).frame]
      exact ht
    · exact ht
  obtain ⟨hl, hm⟩ := hfold (List.range 320)
  obtain ⟨w, hw⟩ : ∃ w, ((List.range 320).foldl (fun (s : State) t => if (s.tile t).use == TileUse.onDemand then s.letGo t else s)
    { s with monitor := { s.monitor with testing := none } }) = w := ⟨_, rfl⟩
  rw [hw] at hl hm
  obtain ⟨z, hz, hr, -, -, -, hmz⟩ := State.recordSlice_row (s := w) k x out 2 r
  rw [hl] at hr
  refine ⟨z.print [(w.sliceResult k x out 2 r).line, .ok, .prompt false], w, out, ?_, ?_, hr, hout.symm⟩
  · unfold State.endSlice
    rw [h]
    dsimp only
    rw [hw, hout, hz]
  · show z.monitor.testing = none
    rw [hmz, hm]

/-- Settles O26: the records of slices join the latest ones, and a graph that is tried again after a TEST leaves them alone. -/
theorem testSliceRows : Obligations.TestSliceRows := by
  unfold Obligations.TestSliceRows
  intro latest s r hcov hdur
  have hok : (decide (r.coverage ≤ 1000) && decide (r.durationMs < 2 ^ 32)) = true := by
    rw [decide_eq_true hcov, decide_eq_true hdur]
    rfl
  refine ⟨fun hsched hseq c cut last hc => ?_, fun k u early ht hprog => ?_⟩
  · have hx : exec c s = .next (s.afterSlice cut last r) := by
      have hgo : ¬(!s.shutdown.scheduling || s.seq != .idle) = true := by rw [hsched, hseq]; decide
      obtain ⟨rfl, rfl, rfl⟩ | ⟨rfl, rfl⟩ := hc
      · show execShutdownSliceDone r s = _
        rw [execShutdownSliceDone, onUnit, if_pos hok, if_neg hgo]
      · show execShutdownBudgetExpiry r last s = _
        rw [execShutdownBudgetExpiry, onUnit, if_pos hok, if_neg hgo]
    obtain ⟨t, sk, hz, hall, hr, hu, hm, hend, hon⟩ := State.afterSlice_row (s := s) cut last r
    rw [hsched] at hon
    exact ⟨t, sk, hx.trans (congrArg _ hz), hall, hr.trans (latestResults_eq _), hu, hm, hend, hon⟩
  · obtain ⟨c, hc⟩ := State.advanceTo_eq (s := s) (s.cairn + r.durationMs * 1000000)
    obtain ⟨t, w, out, hz, hnone, hres, hout⟩ := State.endSlice_row (s := { s with cairn := c }) (r := r) early ht
    have hx : exec (.onDemandSliceDone r early) s = .next t.retryAll := by
      show execOnDemandSliceDone r early s = _
      rw [execOnDemandSliceDone, onUnit, if_pos hok, if_neg (by rw [ht, hprog]; simp), hc, hz]
    have hcalm : t.Calm t.retryAll := (State.Calm.refl t).foldl fun _ _ h => h.retry
    obtain ⟨h1, h2⟩ := hcalm.results hnone
    have hout : out = if early then 2 else if (s.partsFailed r k u).isEmpty then 0 else 1 := hout
    refine ⟨_, hx, h1, w.sliceResult k u out 2 r, (h2.trans hres).trans (latestResults_eq _), rfl, rfl, rfl, rfl, rfl, fun he => ?_, fun he hp => ?_, fun he hp => ?_⟩
    · exact hout.trans (by rw [he]; rfl)
    · exact hout.trans (by rw [he, hp]; rfl)
    · exact hout.trans (by
        rw [he, if_neg (by decide), if_neg (by simpa using hp)])

end Sys2Proof.Machine
end

section
/-! PROOF. The stages of a recovery, its restarts and its end (R387, R445 to R451). -/

namespace Sys2Proof.Machine

variable {s t u : State} {r : StartReport} {st n : Nat} {d go : Bool}

/-! ### The first stages -/

theorem State.enterDump_row (hg : (go && s.dump.enable && s.dump.size != 0) = false) : ∃ t, s.enterDump n d go = t ∧
    t.seq = .recovery 2 n true go ∧ (d = false → t.dump.skipped = true) ∧ t = { s with seq := t.seq, dump := t.dump } := by
  refine ⟨_, rfl, ?_⟩
  unfold State.enterDump
  rw [hg, if_neg Bool.false_ne_true]
  split
  · next hd => exact ⟨rfl, fun h => absurd (hd.symm.trans h) (by decide), rfl⟩
  · exact ⟨rfl, fun _ => rfl, rfl⟩

/-! ### The reset of the domains -/

/-- What the loss of the tracker's cache changes: what reads of the stream table count, and the records' statistics (R179). -/
def State.CacheLost (s t : State) : Prop := ∃ ts tr h dr ev df sl ss, t = { s with
  tiles := ts, tracker := tr, host := h, draws := dr, ledger := { s.ledger with events := ev, defects := df }
  mem := { s.mem with slices := sl, slots := ss } }

theorem State.CacheLost.refl (s : State) : s.CacheLost s := ⟨_, _, _, _, _, _, _, _, rfl⟩

theorem State.CacheLost.trans (h : s.CacheLost t) (h' : t.CacheLost u) : s.CacheLost u := by
  obtain ⟨_, _, _, _, _, _, _, _, rfl⟩ := h
  obtain ⟨_, _, _, _, _, _, _, _, rfl⟩ := h'
  exact ⟨_, _, _, _, _, _, _, _, rfl⟩

theorem State.renewStaged_tiles (a : Nat) : ∃ ts, s.renewStaged a = { s with tiles := ts } := by
  unfold State.renewStaged
  split
  · split <;> exact ⟨_, rfl⟩
  · exact ⟨_, rfl⟩

theorem State.oldStatistics_lost (i : Nat) : s.CacheLost (s.oldStatistics i) := by
  have hn : s.Noticed (State.noteRun (16 / 64 + 2) (s.recordAt i + 112) 16 s) := (State.Noticed.refl s).noteRun
  unfold State.oldStatistics State.readNoting
  dsimp only
  generalize State.noteRun (16 / 64 + 2) (s.recordAt i + 112) 16 s = v at hn ⊢
  obtain ⟨_, hr⟩ := State.renewStaged_tiles (s := v) (s.recordAt i + 112)
  obtain ⟨_, _, _, _, _, _, _, _, rfl⟩ := hn
  rw [hr]
  exact ⟨_, _, _, _, _, _, _, _, rfl⟩

theorem State.loseCache_lost : s.CacheLost s.loseCache := by
  have h (l : List Nat) : s.CacheLost (l.foldl State.oldStatistics s) :=
    List.foldlRecOn (motive := fun t => s.CacheLost t) l _ (.refl s) fun t ht i _ => ht.trans (State.oldStatistics_lost i)
  exact (h _).trans ⟨_, _, _, _, _, _, _, _, rfl⟩

/-- The reset of the domains keeps memory's bytes, the graphs, the fuses, the image and the Cairn (R242, R446, R507). -/
theorem State.resetDomains_row : ∃ t, s.resetDomains = t ∧ t.tiles = [] ∧ t.planes = .reset ∧ t.mem.hbm = s.mem.hbm ∧ t.mem.cxl = s.mem.cxl ∧
    t.graphs = s.graphs ∧ t.fuses = s.fuses ∧ t.cairn = s.cairn ∧ t.ledger.image = s.ledger.image := by
  refine ⟨_, rfl, ?_⟩
  have h := State.loseCache_lost (s := s)
  unfold State.resetDomains
  generalize s.loseCache = v at h ⊢
  obtain ⟨_, _, _, _, _, _, _, _, rfl⟩ := h
  exact ⟨rfl, rfl, rfl, rfl, rfl, rfl, rfl, rfl⟩

theorem State.stage4_row (hi : r.image = true) (hv : s.ledgerVerifies = true) : ∃ t, s.stage4 r n go = t ∧ t.seq = .recovery 5 n true go ∧
    t.tiles = [] ∧ t.planes = .reset ∧ t.fw.running = true ∧ t.mem.hbm = s.mem.hbm ∧ t.mem.cxl = s.mem.cxl ∧ t.graphs = s.graphs ∧
    t.fuses = s.fuses ∧ t.cairn = s.cairn := by
  obtain ⟨v, hv', ht, hp, hh, hc, hg, hf, hcn, him⟩ := State.resetDomains_row (s := s)
  have hver : v.ledgerVerifies = true := by
    rw [← hv]
    unfold State.ledgerVerifies
    rw [him, hf]
  unfold State.stage4
  rw [hv']
  dsimp only
  rw [hi, hver]
  exact ⟨_, rfl, rfl, ht, hp, rfl, hh, hc, hg, hf, hcn⟩

/-! ### Tests -/

theorem State.stage5_row (h : s.seq = .recovery 5 n d go) : ∃ t, s.endStage r = t ∧ t.seq = .recovery 6 n d go ∧ t.mem = s.mem := by
  obtain ⟨_, _, _, hn, -⟩ := State.networks_frame (s := s) false 5 r
  refine ⟨_, rfl, ?_⟩
  unfold State.endStage
  rw [h]
  dsimp only
  rw [hn]
  exact ⟨rfl, rfl⟩

theorem State.stage6_row (h : s.seq = .recovery 6 n d go) : ∃ t, s.endStage r = t ∧ t.seq = .recovery 7 n d go ∧ t.mem.hbm = s.mem.hbm := by
  have hm : s.Mapped (((s.coreTests 6 r).takeUntrained r).memoryTests 6 r) :=
    (((State.coreTests_found 6 r).mapped).trans (State.takeUntrained_mapped r)).trans (State.memoryTests_found 6 r).mapped
  refine ⟨_, rfl, ?_⟩
  unfold State.endStage
  rw [h]
  dsimp only
  generalize ((s.coreTests 6 r).takeUntrained r).memoryTests 6 r = v at hm ⊢
  obtain ⟨_, _, _, _, _, _, _, _, _, rfl⟩ := hm
  exact ⟨rfl, rfl⟩

theorem State.stage7_row (h : s.seq = .recovery 7 n d go) : ∃ t, s.endStage r = t ∧ t.seq = .recovery 8 n d go ∧ t.host.bar0 = true ∧
    t.host.retry = false ∧ t.mem = s.mem := by
  refine ⟨_, rfl, ?_⟩
  have hs : s.endStage r = { (if go || !hostLinkOk r.hostLanes r.hostRate then s else s.hostTrained r.hostLanes r.hostRate) with
      seq := .recovery 8 n d go
      host := { (if go || !hostLinkOk r.hostLanes r.hostRate then s else s.hostTrained r.hostLanes r.hostRate).host with
        bar0 := true, retry := false } } := by
    unfold State.endStage
    rw [h] <;> rfl
  rw [hs]
  refine ⟨rfl, rfl, rfl, ?_⟩
  dsimp only
  split <;> rfl

theorem State.stage8_row : ∃ t, s.stage8 r n go = t ∧ t.seq = .recovery 9 n true go ∧ t.graphs = s.graphs := by
  refine ⟨_, rfl, rfl, ?_⟩
  unfold State.stage8
  dsimp only
  obtain ⟨l, x, h1⟩ := (State.coreTests_found (s := s) 8 r).trans (State.testsFailed_found (s := s.coreTests 8 r) false
    (r.failed.filter fun k => k.1 == 1 || k.1 == 2 || k.1 == 3 || k.1 == 4 || k.1 == 6)).found
  have h2 := State.applyUnion_tested (s := (r.failed.filter fun k => k.1 == 1 || k.1 == 2 || k.1 == 3 || k.1 == 4 || k.1 == 6).foldl
    (State.testFailed false) (s.coreTests 8 r)) r
  rw [h1] at h2 ⊢
  generalize State.applyUnion r _ = v at h2 ⊢
  obtain ⟨_, _, _, _, _, _, _, _, rfl⟩ := h2
  rfl

/-! ### Restarts -/

theorem State.restartRecovery_again (hst : st ≠ 2) (h : s.seq = .recovery st n d go) (hn : n < 3) : ∃ t, s.restartRecovery = t ∧
    t.seq = .recovery (if 3 ≤ st then 3 else 1) (n + 1) (d || s.dump.running) go ∧ t.dump.running = false ∧ t.mem = s.mem ∧
    t.graphs = s.graphs := by
  have hfrom : (if decide (st ≥ 3) || (decide (st = 2) && !s.dump.running) then 3 else 1) = if 3 ≤ st then 3 else 1 := by
    rw [decide_eq_false hst, Bool.false_and, Bool.or_false]
    simp
  refine ⟨_, rfl, ?_⟩
  unfold State.restartRecovery
  rw [h]
  dsimp only
  rw [if_neg (by omega), hfrom]
  split
  · have ht := (State.tarnsOff_onlyStagings (s := { s with
        seq := .recovery (if 3 ≤ st then 3 else 1) (n + 1) (d || s.dump.running) go, selfTest := s.selfTest.anew
        dump := { s.dump with running := false, truncated := s.dump.truncated || s.dump.running } }) (List.range 320)).frame
    rw [ht]
    exact ⟨rfl, rfl, rfl, rfl⟩
  · exact ⟨rfl, rfl, rfl, rfl⟩

theorem State.writeStatus_frame : ∃ m n l, s.writeStatus = { s with host := { s.host with mem := m, hbCount := n, lastBeat := l } } := by
  unfold State.writeStatus State.hostRaw
  split
  · exact ⟨s.host.mem, s.host.hbCount, s.host.lastBeat, rfl⟩
  · extract_lets v
    split
    · exact ⟨_, _, _, rfl⟩
    · exact ⟨s.host.mem, _, _, rfl⟩

/-- A recovery given up leaves the module FAILED with BAR0 open (R387). -/
theorem State.recoveryFailed_row : ∃ t, s.recoveryFailed = t ∧ t.seq = .idle ∧ t.devState = .failed ∧ t.host.bar0 = true ∧ t.mem = s.mem := by
  have ht := (State.tarnsOff_onlyStagings (s := { s with
    seq := .idle, selfTest := s.selfTest.anew, host := { s.host with bar0 := true, retry := false }
    dump := { s.dump with running := false, truncated := s.dump.truncated || s.dump.running } }) (List.range 320)).frame
  refine ⟨_, rfl, ?_⟩
  unfold State.recoveryFailed
  dsimp only
  generalize State.tarnsOff (List.range 320) _ = v at ht ⊢
  obtain ⟨_, _, hd⟩ := State.setDev_frame (s := v) .failed
  obtain ⟨_, _, _, hw⟩ := State.writeStatus_frame (s := (v.setDev .failed).ledgerEvent 0x1F08 0 0 0)
  rw [hw, hd, ht]
  exact ⟨rfl, rfl, rfl, rfl⟩

/-- A recovery restarted too often is given up (R387). -/
theorem State.restartRecovery_last (h : s.seq = .recovery st n d go) (hn : 3 ≤ n) : s.restartRecovery = s.recoveryFailed := by
  unfold State.restartRecovery
  rw [h]
  exact if_pos hn

theorem State.stageTimeout_exec (hst : st ≠ 2) (h : s.seq = .recovery st n d go) (ht : s.restartRecovery = t) :
    exec .recoveryStageTimeout s = .next t := by
  show execRecoveryStageTimeout s = _
  unfold execRecoveryStageTimeout
  rw [h]
  split
  · next heq =>
    injection heq with h1
    exact absurd h1 hst
  · rw [ht]

/-! ### The end of a recovery -/

/-- The sequence, the count of recoveries, the stop of DMA and `DEV_STATE` stay. -/
structure State.Closing (s t : State) : Prop where
  seq : t.seq = s.seq
  recoveries : t.recoveries = s.recoveries
  dma : t.host.dmaStopped = s.host.dmaStopped
  devState : t.devState = s.devState

theorem State.Closing.refl (s : State) : s.Closing s := ⟨rfl, rfl, rfl, rfl⟩

theorem State.Closing.trans (h : s.Closing t) (h' : t.Closing u) : s.Closing u :=
  ⟨h'.seq.trans h.seq, h'.recoveries.trans h.recoveries, h'.dma.trans h.dma, h'.devState.trans h.devState⟩

theorem State.Calm.closing (h : s.Calm t) (hd : t.devState = s.devState) : s.Closing t := ⟨h.seq, h.recoveries, h.dma, hd⟩

theorem State.abortDescs_closing : s.Closing s.abortDescs :=
  List.foldlRecOn (motive := fun t => s.Closing t) _ _ (.refl s) fun t ht x _ => ht.trans ((State.Calm.refl t).complete.closing (by
    obtain ⟨_, h⟩ := State.complete_frame (s := t) x stAborted 0 0
    rw [h]))

theorem State.flushConflicts_closing : s.Closing s.flushConflicts := (State.Calm.refl s).flushConflicts.closing (by
  obtain ⟨_, _, h⟩ := State.flushConflicts_frame (s := s)
  rw [h])

theorem State.sendPending_closing : s.Closing s.sendPending := (State.Calm.refl s).sendPending.closing (by
  unfold State.sendPending
  split <;> rfl)

theorem State.unloadAll_closing : s.Closing s.unloadAll :=
  List.foldlRecOn (motive := fun t => s.Closing t) _ _ (.refl s) fun t ht g _ => ht.trans (by
    unfold State.updGraph
    dsimp only
    split <;> exact ⟨rfl, rfl, rfl, rfl⟩)

theorem State.finishShutdown_closing : s.Closing s.finishShutdown := ⟨rfl, rfl, rfl, rfl⟩

theorem State.beginSchedule_closing : s.Closing s.beginSchedule := by
  unfold State.beginSchedule
  extract_lets v l s1
  have h1 : s.Closing s1 := ⟨rfl, rfl, rfl, rfl⟩
  split
  · exact h1.trans State.finishShutdown_closing
  · obtain ⟨_, _, h⟩ := State.skipBad_frame sliceCount { s1 with shutdown := { s1.shutdown with scheduling := true, usedMs := 0 } }
    rw [h]
    exact ⟨h1.seq, h1.recoveries, h1.dma, h1.devState⟩

theorem State.shutdownOn_closing : s.Closing s.shutdownOn := by
  unfold State.shutdownOn
  split
  · exact State.beginSchedule_closing
  · exact .refl s

theorem State.Calm.intoService (h : s.Calm u) : s.Calm u.intoService := .ite h.setDev.raise (.ite h.setDev.raise h.setDev)

/-- The graphs, journals, streams and grids that stage 9 brings back before the module goes into service (R448, R449). -/
def State.rebuilt (s : State) : State :=
  let s2 := (s.graphIds.foldl State.rebind s).closeWindows
  let s3 := (s2.tracker.journals.foldl State.repeatJournal s2).endAsked.freeHarvest
  (s3.graphIds.foldl (fun s g => s.newGrid g) s3).breakPassed

/-- The module in service, with the recovery counted (R446). -/
def State.reopened (s : State) : State := { s.intoService with recoveries := (s.recoveries + 1) % 2 ^ 32, seq := .idle }

/-- What waits for the end of a recovery: descriptors cut off, events held, and a shutdown that goes on (R346, R439, R449). -/
def State.resumed (s : State) : State :=
  let s6 := s.abortDescs.flushConflicts.sendPending
  let s7 := { s6 with host := { s6.host with wake := true } }
  (if s7.shutdown.busy && s7.shutdown.forceUnload then s7.unloadAll else s7).shutdownOn

theorem State.stage9_eq (hf : s.selfTest.fault = none) :
    s.stage9 = (State.rebuilt { s with host := { s.host with dmaStopped := false } }).reopened.resumed := by
  unfold State.stage9
  rw [hf]
  extract_lets k1 s1 s2 s3 s4 x5 s5 s6 k7 s7
  have h4 : s1.rebuilt = s4 := rfl
  have h5 : s4.reopened = s5 := rfl
  have h1 : ({ s with host := { s.host with dmaStopped := false } } : State) = s1 := rfl
  rw [h1, h4, h5]
  clear_value s5
  rfl

theorem State.rebuilt_calm : s.Calm s.rebuilt := by
  unfold State.rebuilt
  extract_lets s2 s3
  have h2 : s.Calm s2 := .closeWindows (.foldl (.refl s) fun _ _ ht => ht.rebind)
  have h3 : s.Calm s3 := ((State.Calm.foldl h2 fun _ _ ht => ht.repeatJournal).endAsked).keep
  exact (State.Calm.foldl h3 fun _ _ ht => ht.newGrid).breakPassed

theorem State.reopened_row : ∃ t, s.reopened = t ∧ t.seq = .idle ∧ t.recoveries = (s.recoveries + 1) % 2 ^ 32 ∧
    t.host.dmaStopped = s.host.dmaStopped ∧ t.devState = s.serviceState := by
  have hc := (State.Calm.refl s).intoService
  obtain ⟨_, _, _, _, hi⟩ := State.intoService_frame (s := s)
  have hdev : s.intoService.devState = s.serviceState := by rw [hi]
  unfold State.reopened
  generalize s.intoService = v at hc hdev ⊢
  exact ⟨_, rfl, rfl, rfl, hc.dma, hdev⟩

theorem State.resumed_closing : s.Closing s.resumed := by
  unfold State.resumed
  extract_lets s6 k7 s7
  have h6 : s.Closing s6 := (State.abortDescs_closing.trans State.flushConflicts_closing).trans State.sendPending_closing
  refine State.Closing.trans (t := s7) ⟨h6.seq, h6.recoveries, h6.dma, h6.devState⟩ ?_
  split
  · exact State.unloadAll_closing.trans State.shutdownOn_closing
  · exact State.shutdownOn_closing

/-- Stage 9 without a finding ends the recovery in service (R446 to R449). -/
theorem State.stage9_row (hf : s.selfTest.fault = none) : ∃ t, s.stage9 = t ∧ t.seq = .idle ∧ t.recoveries = (s.recoveries + 1) % 2 ^ 32 ∧
    t.host.dmaStopped = false ∧ (t.devState = .ready ∨ t.devState = .degraded) := by
  have hc := State.rebuilt_calm (s := { s with host := { s.host with dmaStopped := false } })
  rw [State.stage9_eq hf]
  generalize State.rebuilt { s with host := { s.host with dmaStopped := false } } = v at hc ⊢
  obtain ⟨w, hw, hseq, hrec, hdma, hdev⟩ := State.reopened_row (s := v)
  have hr := State.resumed_closing (s := w)
  refine ⟨_, rfl, ?_⟩
  rw [hw, hr.seq, hr.recoveries, hr.dma, hr.devState, hseq, hrec, hdma, hdev, hc.recoveries, hc.dma]
  refine ⟨rfl, rfl, rfl, ?_⟩
  unfold State.serviceState
  split
  · exact .inr rfl
  · exact .inl rfl

/-- Settles O22: each stage is what its tests and resets change, restarts keep memory and graphs, and what stage 9 does to graphs, streams
and descriptors leaves the sequence and the count alone. -/
theorem recoveryStages : Obligations.RecoveryStages := by
  unfold Obligations.RecoveryStages
  intro s r n d go
  have hx (t : State) (h : s.endStage r = t) : exec (.recoveryStageComplete r) s = .next t := congrArg _ h
  refine ⟨fun h hg => ?_, fun h hd => ?_, fun h => ?_, fun h hi hv => ?_, fun h => ?_, fun h => ?_, fun h => ?_, fun h => ?_, fun h hf => ?_,
    fun st hst h hn => ?_, fun st hst h hn => ?_⟩
  · obtain ⟨t, ht, hrow⟩ := State.enterDump_row (n := n) (d := d) hg
    exact ⟨t, hx t (by unfold State.endStage; rw [h]; exact ht), hrow⟩
  · refine hx _ ?_
    unfold State.endStage
    rw [h]
    exact if_neg (by rw [hd]; decide)
  · refine hx _ ?_
    unfold State.endStage
    rw [h] <;> rfl
  · obtain ⟨t, ht, hrow⟩ := State.stage4_row (n := n) (go := go) hi hv
    exact ⟨t, hx t (by unfold State.endStage; rw [h]; exact ht), hrow⟩
  · obtain ⟨t, ht, hrow⟩ := State.stage5_row (r := r) h
    exact ⟨t, hx t ht, hrow⟩
  · obtain ⟨t, ht, hrow⟩ := State.stage6_row (r := r) h
    exact ⟨t, hx t ht, hrow⟩
  · obtain ⟨t, ht, hrow⟩ := State.stage7_row (r := r) h
    exact ⟨t, hx t ht, hrow⟩
  · obtain ⟨t, ht, hrow⟩ := State.stage8_row (s := s) (r := r) (n := n) (go := go)
    exact ⟨t, hx t (by unfold State.endStage; rw [h]; exact ht), hrow⟩
  · obtain ⟨t, ht, hrow⟩ := State.stage9_row hf
    exact ⟨t, hx t (by unfold State.endStage; rw [h]; exact ht), hrow⟩
  · obtain ⟨t, ht, hrow⟩ := State.restartRecovery_again hst h hn
    exact ⟨t, State.stageTimeout_exec hst h ht, hrow⟩
  · obtain ⟨t, ht, hrow⟩ := State.recoveryFailed_row (s := s)
    exact ⟨t, State.stageTimeout_exec hst h ((State.restartRecovery_last h hn).trans ht), hrow⟩

end Sys2Proof.Machine
end
